-- ==== Sys2Proof/Word.lean ====
section
/-! DEFINITION. The words the block works on and their plainest arithmetic. -/

namespace Sys2Proof

/-- A 32-bit register word (R85). -/
abbrev Word := BitVec 32

/-- One byte of memory. -/
abbrev Byte := BitVec 8

/-- A 64-bit memory word: the unit of ECC (R432) and of the event log (R516). -/
abbrev DWord := BitVec 64

/-- The contents of one 4 KiB logical block (R116), byte 0 in the low bits. -/
abbrev Block := BitVec 32768

end Sys2Proof
end

