-- ==== Sys2Proof/Syntax.lean ====
section
/-! DEFINITION. The commands and events the block takes (one constructor per row of the opcode
table) and the plain data they carry. What the world outside supplies, such as the bytes a device
returns or the verdict of a signature check, comes as an operand. -/

namespace Sys2Proof

/-- The two actuators. -/
inductive Act where
  | A | B
  deriving DecidableEq, Repr

/-- The number of an actuator: 0 for A, 1 for B. -/
def Act.toNat : Act → Nat
  | .A => 0
  | .B => 1

/-- Register keys of actuator B's pages lie eight pages above those of A (R90). -/
def Act.pageStep : Act → Nat
  | .A => 0
  | .B => 0x8000

/-- The other actuator. -/
def Act.other : Act → Act
  | .A => .B
  | .B => .A

/-- A bus master: cores 0 to 5, RT-A (6), RT-B (7), JTAG and the Smigon trace port (R89). -/
inductive Master where
  | core (n : Fin 8)
  | jtag
  | smigon
  deriving DecidableEq, Repr

/-- A number for each master, for the per-master latches of R108. -/
def Master.toNat : Master → Nat
  | .core n => n.val
  | .jtag => 8
  | .smigon => 9

/-- What a port reports of its link: up or down, and the PCIe errors logged since the last report, the correctable ones
counted (R110, R146). -/
structure LinkReport where
  up : Bool
  correctable : Nat := 0
  uncorrectable : Bool := false
  deriving DecidableEq, Repr

/-- Device Self-test (R118): a command by its identifier, or the end of the scan that runs, every sector it tried read
without error or not. -/
inductive SelfTest where
  | command (cid : Nat)
  | scanned (good : Bool)
  deriving DecidableEq, Repr

/-- The data of a Store as it arrives, and whether a TLP of it is poisoned (R113). -/
structure StoreData where
  bytes : List Byte
  poisonedTlp : Bool := false
  deriving DecidableEq, Repr

/-- How a cleaning destination fails (R235). -/
inductive DestFailure where
  | worn | verify | tail
  deriving DecidableEq, Repr

/-- A 32-bit write by a master, with the bits of the same register that hardware sets and clears in the same
cycle (R101). -/
structure BusWrite where
  master : Master
  addr : Nat
  value : Word
  hwSet : Word := 0
  hwClear : Word := 0
  deriving DecidableEq, Repr

/-- What a write carries: its value, and the writes other masters make in the same cycle (R101). -/
structure CycleData where
  value : Word
  also : List BusWrite := []
  deriving DecidableEq, Repr

/-- A command as NVQ reads it from a submission queue entry: its fields and, for commands that
carry a list, what its data pointer leads to. -/
structure HostCmd where
  cid : Nat
  opcode : Nat
  nsid : Nat := 0
  cdw2 : Nat := 0
  cdw3 : Nat := 0
  cdw10 : Nat := 0
  cdw11 : Nat := 0
  cdw12 : Nat := 0
  cdw13 : Nat := 0
  cdw14 : Nat := 0
  cdw15 : Nat := 0
  /-- The data pointer is an SGL, and the bytes its descriptors cover. -/
  sgl : Bool := false
  dptr : Nat := 0
  /-- Dataset Management ranges: first LBA and length. -/
  ranges : List (Nat × Nat) := []
  /-- Data of a short admin transfer to the controller (Timestamp). -/
  data : List Byte := []
  deriving DecidableEq, Repr

/-- A submission queue entry in host memory: controller (0 or 1), queue, slot and command. -/
structure HostEntry where
  cntl : Nat
  qid : Nat
  slot : Nat
  cmd : HostCmd
  deriving DecidableEq, Repr

/-- The PCIe capabilities that R111 lists as supported or absent. -/
inductive PcieCap where
  | msix | msi | intx | tenBitTags | extendedTags | aspmL0s | aspmL1 | aspmL11 | aspmL12 | aer | ltr
  | sriov | ats | pri | pasid | tph | ptm | flr | cmb | pmr
  deriving DecidableEq, Repr

/-- What a PCIe request asks of a port's function: whether a capability is there, one of the limits of R111, another
register of the configuration space, or 4 bytes of BAR0 (R112). -/
inductive PcieRequest where
  | capability (cap : PcieCap)
  /-- The highest link rate, as HIF_LINK0 codes it. -/
  | maxRate
  | maxPayload
  | maxReadRequest
  | msixVectors
  | other (reg : Nat)
  | barRead (offset : Nat)
  | barWrite (offset : Nat) (value : Word)
  deriving DecidableEq, Repr

/-- What the media gave for one LBA once the retry ladder ended. -/
inductive ReadResult where
  | good (b : Block)
  | poisoned (b : Block)
  | marker
  | unrecovered
  deriving DecidableEq, Repr

/-- What the media gave for a byte range of a value: its bytes, and the digest that the header sector read with
them holds (R151); or bytes some of which are poisoned. -/
inductive ValueRead where
  | good (bytes : List Byte) (header : BitVec 256)
  | poisoned (bytes : List Byte)
  | unrecovered
  deriving DecidableEq, Repr

/-- What the fuse rows of the part hold that no command of the block programs (R62, R64). -/
structure FuseImage where
  tierS : Bool
  serial : BitVec 64
  imageKey : Bool
  unlockKey : Bool
  deriving DecidableEq, Repr

/-- The memories filled at step 7 of R46. -/
inductive FillMem where
  | dram | sram | l2
  deriving DecidableEq, Repr

/-- How training ended (R430): the size code of MR8 (1 for 4 GiB, 2 for 8 GiB), or failure. -/
inductive Training where
  | trained (size : Fin 3)
  | densityMismatch
  | failed
  deriving DecidableEq, Repr

/-- What reading a firmware slot gave: the bytes of its header and of its body, and whether SIGNATURE verifies
under the key that step 4 of R59 names. -/
structure SlotImage where
  header : List Byte
  body : List Byte
  signatureGood : Bool
  deriving DecidableEq, Repr

/-- A zone descriptor as a checkpoint or a rebuild gives it. -/
structure ZoneImage where
  index : Nat
  state : Nat
  gen : Nat
  ann : Nat
  band : Nat
  mwp : Nat
  live : Nat
  wtime : Nat
  tmin : Nat
  tmax : Nat
  bitmap : List Nat := []
  /-- SECURE of the descriptor (R188). -/
  secure : Bool := false
  deriving DecidableEq, Repr

/-- A band table entry as the format and a checkpoint give it. -/
structure BandImage where
  key : Nat
  state : Nat
  head : Nat
  ann : Nat
  rewrites : Nat
  wfaults : Nat
  startTrack : Nat
  salt : Option (BitVec 128)
  deriving DecidableEq, Repr

/-- A hot map entry as a checkpoint gives it. -/
structure HotImage where
  zone : Nat
  unit : Nat
  kind : Nat
  csec : Nat
  deriving DecidableEq, Repr

/-- What REBUILD reads of a media-cache sector (R215): the zone and unit its seed names, its place in the ring and its
write-time tag (R259). -/
structure CacheSector where
  zone : Nat
  unit : Nat
  csec : Nat
  tag : Nat
  deriving DecidableEq, Repr

/-- Sector 0 of a band as REBUILD reads it (R216): its zone, GEN and write-time tag. -/
structure BandHead where
  zone : Nat
  gen : Nat
  tag : Nat
  deriving DecidableEq, Repr

/-- A Segment Store value as a checkpoint of the index or the headers on the media give it (R151, R217). -/
structure ValueImage where
  key : List Byte
  isSealed : Bool
  length : Nat
  act : Act
  pin : Bool
  secure : Bool
  damaged : Bool
  expires : Nat
  popularity : Nat
  digest : BitVec 256
  /-- Zone, first unit and count of each extent. -/
  extents : List (Nat × Nat × Nat)
  deriving DecidableEq, Repr

/-- The BEGIN content of a job that ran at the checkpoint (R240): the actuator's job with the snapshot of R229,
the KIND 1 entries as (unit, sector). -/
structure JobImage where
  zone : Nat
  reason : Nat
  secure : Bool
  number : Nat
  src : Nat
  dst : Nat
  dstAnn : Nat
  snapMwp : Nat
  snapHot : List (Nat × Nat)
  deriving DecidableEq, Repr

/-- The map as the latest checkpoint and the device metadata give it (R203, R462). -/
structure MapImage where
  /-- The checkpoint's pages passed their checks. -/
  valid : Bool
  /-- Partition: C of A and B, N3, N4 of A and B, over-provision of A and B. -/
  part : List Nat
  /-- Format of A, then B: shingled bands, D, CONV_HOST. -/
  format : List Nat
  /-- Media-cache sectors, and the defect list as (head, track), of A and of B (R180, R181). -/
  mcSize : Nat × Nat
  defects : List (Nat × Nat) × List (Nat × Nat)
  zones : List ZoneImage
  bands : List BandImage
  hot : List HotImage
  /-- Stale media-cache sectors of A and of B (R243). -/
  stale : List Nat × List Nat
  /-- The Segment Store index. -/
  values : List ValueImage
  /-- The jobs that ran at the checkpoint (R240). -/
  jobs : List JobImage
  /-- The page table that the replayed records are applied to (R202, R203): zone, chunk, STATE and band of each
  entry. -/
  pages : List (Nat × Nat × Nat × Nat)
  deriving DecidableEq, Repr

/-- A page read from the NAND (R480, R481): its status, SET, KIND, INDEX and data. -/
structure NandRead where
  status : Fin 4
  set : Nat
  kind : Nat
  index : Nat
  data : List Byte
  deriving DecidableEq, Repr

/-- The eight words of a read or write descriptor (R270, R319). -/
structure DescWords where
  w0 : Word
  w1 : Word
  w2 : Word
  w3 : Word
  w4 : Word
  w5 : Word
  w6 : Word
  w7 : Word
  deriving DecidableEq, Repr

/-- For whom the real-time core reads, and so which ladder the sectors climb (R300): a host or Segment
Store command, a cleaning copy or verify, a background read of the Segment Store, device metadata, a
REBUILD probe, or the read-back of R327. -/
inductive Reader where
  | host (cntl qid cid : Nat)
  | copy
  | verify
  | background
  | metadata
  | probe
  | squeeze
  deriving DecidableEq, Repr

/-- What a decode gives whose parity checks all hold (R256, R267): the 32 bytes of metadata and the user bytes, as
recorded. -/
structure SectorInfo where
  info : List Byte
  data : Block
  deriving DecidableEq, Repr

/-- What the read path meets in one sector, or the decoder in one soft-buffer entry: the 32 most recent bits at each
position of the sync search, the first 8 bits before the nominal end of the mark (R264); the RMS amplitude over the
first 64 bits of the preamble interval in 1/256 ADC code and the phase error after acquisition in 1/1,000 of a bit
period (R262); the iterations the decoder ran; and the sector if every parity check holds. -/
structure Sense where
  window : List Word
  rms : Nat
  phase : Nat
  iter : Nat
  sector : Option SectorInfo
  deriving DecidableEq, Repr

/-- What the servo demodulator finds in one wedge (R282, R283): the mark's distance from its expected time
in ns, none if it was not found; the track number and its parity; the wedge number; the burst amplitude in
percent of the calibrated one; and the head's position on the surface in 1/4,096 of track pitch. -/
structure Burst where
  mark : Option Int
  track : BitVec 20
  gray : Bool
  wedge : Nat
  amp : Nat
  pos : Int
  deriving DecidableEq, Repr

/-- Memory errors an engine met in one sample (R371, R365): byte offsets, from the start of its memory, of
the words that corrected, and whether a word was uncorrectable. -/
structure EngErrors where
  corr : List Nat := []
  uncorr : Bool := false
  deriving DecidableEq, Repr

/-- Who originates an Oavin transaction that a channel may originate (R406): the channel, or firmware with
the fields of OVL_TX_CMD and OVL_TX_DATA. -/
inductive OvlBy where
  | channel (act : Act)
  | firmware (preamp : Act) (head reg data : Nat)
  deriving DecidableEq, Repr

/-- What a core's access is (R492). -/
inductive AccessKind where
  | fetch | load | store
  /-- A speculative prefetch of a line into the L2 (R28). -/
  | prefetch
  deriving DecidableEq, Repr

/-- One access of a core: its address, its size in bytes and, for a store, the bytes. -/
structure CoreAccess where
  kind : AccessKind
  addr : Nat
  size : Nat
  data : List Byte := []
  deriving DecidableEq, Repr

/-- Where a parity error is found (R509): an L1 of a core (`data` its L1D), a line of the L2 (`dirtyBad` its
dirty bit fails its parity), or a word of the carve-out a core reads. -/
inductive ParityAt where
  | l1 (core : Fin 6) (data : Bool)
  | l2 (set : Fin 2048) (way : Fin 16) (dirtyBad : Bool)
  | carve (core : Fin 8) (addr : Nat)
  deriving DecidableEq, Repr


/-- The calibration that ends a target: a plan's, or a direct item's (R549, R552). -/
inductive CalUnit where
  | plan (act : Act)
  | direct (item : Nat) (act : Act)
  deriving DecidableEq, Repr

/-- What CAL measured for one target (R540, R546). Readings are in 1/4,096 of their unit. -/
inductive CalMeasure where
  /-- Items 0, 2, 3, 5 and 7: m0 or e0, and d or s. -/
  | span (zero span : Int)
  /-- Item 1: for each setting, whether all its sectors confirmed and their mean ITER in 1/256. -/
  | boost (groups : List (Bool × Nat))
  /-- Items 4 and 6: the AMON reading or the RMS amplitude, and whether CHx_FLT_N stayed high, or 99 % of
  the samples were valid. -/
  | level (value : Nat) (good : Bool)
  /-- Item 8: the sensor's reading in 1/16 degree C. -/
  | temp (reading : Int)
  deriving DecidableEq, Repr


/-- A failure a self-test finds (R567): the word of the segment or the pattern, the bit, and the element or
pattern group. -/
structure BstFail where
  place : Nat
  bit : Nat
  element : Nat
  deriving DecidableEq, Repr

/-- A failure of the power-on profile (R571): its test, segment, word and bit, and whether the segment passed
when it was tested again with the spare. -/
structure PostFail where
  test : Nat
  seg : Nat
  word : Nat
  bit : Nat
  fixed : Bool
  deriving DecidableEq, Repr


/-- A source of the trace port with what it reports (R620). -/
inductive TraceSource where
  | flow (core : Fin 8) (records : List Byte)
  | event (fragment : Fin 16) (last : Bool) (bytes : List Byte)
  | sample (act : Act)
  | watch (addr : BitVec 36) (data : Word) (master : Master) (write : Bool)
  deriving DecidableEq, Repr


/-- The commands and events of the opcode table, one constructor per row; each docstring names
the row and the rule it comes from. -/
inductive Instr where
  /-- POWER_ON_RESET (R42). -/
  | powerOnReset
  /-- SYS_RESET_N_LOW (R42). -/
  | sysResetNLow
  /-- WATCHDOG_EXPIRY (R45). -/
  | watchdogExpiry
  /-- SYS_WDOG_KICK (R45). -/
  | sysWdogKick (value : Word)
  /-- SYS_SWRESET (R44). -/
  | sysSwreset (value : Word)
  /-- SYS_BOOT_OK (R49). -/
  | sysBootOk (value : Word)
  /-- HOLDUP_RESTART (R629). -/
  | holdupRestart (pwrfailHigh railsInRange resetHigh : Bool)
  /-- PE_PERST (R132). -/
  | pePerst (port : Nat)
  /-- PWRFAIL (R421). -/
  | pwrfail
  /-- RAIL_MEASURE (R593). -/
  | railMeasure (tenthsMv : List Nat)
  /-- NAND_SAVE_DATA_DONE (R474). -/
  | nandSaveDataDone (trailerPage durationTenthsMs : Nat) (trailerGood : Bool)
  /-- CHIP_PARK (R474). -/
  | chipPark
  /-- NAND_PROGRAM_FAIL (R474). -/
  | nandProgramFail (die block : Nat)
  /-- BOOT_START (R46). -/
  | bootStart
  /-- PLL_LOCKED (R46). -/
  | pllLocked (fuses : FuseImage) (cfg : Fin 8) (testEn : Bool)
  /-- POWER_ON_PROFILE_DONE (R570). -/
  | powerOnProfileDone (skipped : Bool) (fails : List PostFail) (analog : List Nat)
  /-- DDR_TRAINING_DONE (R430). -/
  | ddrTrainingDone (result : Training)
  /-- MEMORY_FILL_DONE (R436). -/
  | memoryFillDone (mem : FillMem)
  /-- FIRMWARE_IMAGE_LOADED (R49). -/
  | firmwareImageLoaded (slot1 slot2 : SlotImage) (nor : Fin 3) (norLog2 : Nat)
  /-- JOURNAL_REPLAY (R462). -/
  | journalReplay
  /-- SAVE_SET_RESTORE (R484). -/
  | saveSetRestore (geom : Word) (bad : List (Nat × Nat × Nat))
  /-- SAVE_RETIRE (R484). -/
  | saveRetire
  /-- MAP_LOAD (R203). -/
  | mapLoad (image : MapImage)
  /-- UART_SYNC_BYTE (R57). -/
  | uartSyncByte
  /-- UART_HEADER (R58). -/
  | uartHeader (packet : List Byte) (signatureGood : Bool)
  /-- UART_DATA (R58). -/
  | uartData (packet : List Byte)
  /-- UART_RUN (R58). -/
  | uartRun (packet : List Byte)
  /-- UART_PACKET_TIMEOUT (R57). -/
  | uartPacketTimeout
  /-- MODE_REQ_CALIBRATE (R34). -/
  | modeReqCalibrate (calA calB : Bool)
  /-- MODE_REQ_SERVICE (R34). -/
  | modeReqService
  /-- MODE_REQ_REST (R34). -/
  | modeReqRest (restSub : Fin 4)
  /-- MODE_REQ_REBUILD (R34). -/
  | modeReqRebuild
  /-- REST_ENTERED (R588). -/
  | restEntered
  /-- REST_EXIT_ON_IO (R37). -/
  | restExitOnIo (admin : Bool)
  /-- MAP_INCONSISTENCY (R34). -/
  | mapInconsistency (zone chunk : Nat)
  /-- LCS_ADVANCE (R64). -/
  | lcsAdvance (target : Fin 4) (key : BitVec 16)
  /-- FUSE_ROW_PROGRAMMED (R64). -/
  | fuseRowProgrammed
  /-- TOKEN_START (R68). -/
  | tokenStart
  /-- TOKEN_VERIFY_DONE (R69). -/
  | tokenVerifyDone (signatureGood : Bool)
  /-- RELOCK (R63). -/
  | relock
  /-- OSP_READ (R61). -/
  | ospRead (data : List Byte)
  /-- OSP_PROGRAM (R61). -/
  | ospProgram
  /-- OSP_ERASE (R61). -/
  | ospErase
  /-- OSP_DONE (R61). -/
  | ospDone (deviceFailed : Bool)
  /-- REGISTER_WRITE (R93). -/
  | registerWrite (master : Master) (addr : Nat) (data : CycleData) (hwSet hwClear : Word)
  /-- PROFILE_LOAD (R95). -/
  | profileLoad (addr : Nat) (profile : Fin 4)
  /-- INT_SET (R92). -/
  | intSet (page : Nat) (bits : Word)
  /-- COLLIDE_CLR (R102). -/
  | collideClr (page : Nat) (collision : Option Nat)
  /-- DTIME_LO_READ (R108). -/
  | dtimeLoRead (master : Master)
  /-- DTM_CMP_HI_WRITE (R109). -/
  | dtmCmpHiWrite (value : Word)
  /-- DTIME_COMPARE_MATCH (R109). -/
  | dtimeCompareMatch
  /-- INT_SWI_SET (R106). -/
  | intSwiSet (value : Word)
  /-- INTERRUPT_TAKEN (R497). -/
  | interruptTaken (core : Fin 8)
  /-- CPU_IRQ_EOI (R498). -/
  | cpuIrqEoi (core : Fin 8) (line : Fin 64)
  /-- PCIE_CONFIG_REQUEST (R48). -/
  | pcieConfigRequest (port : Fin 2) (request : PcieRequest)
  /-- LINK_CHANGE (R110). -/
  | linkChange (port : Fin 2) (link : LinkReport) (speed width : Nat)
  /-- SMBUS_BASIC_MANAGEMENT (R114). -/
  | smbusBasicManagement (address offset : Nat) (percentUsed : Byte)
  /-- CC_EN_SET (R115). -/
  | ccEnSet (cntl : Fin 2) (asqs acqs : Nat)
  /-- CONTROLLER_RESET (R132). -/
  | controllerReset (cntl : Fin 2)
  /-- SHUTDOWN_NORMAL (R134). -/
  | shutdownNormal (cntl : Fin 2)
  /-- SHUTDOWN_ABRUPT (R476). -/
  | shutdownAbrupt (cntl : Fin 2) (trailerPage : Nat)
  /-- SQ_DOORBELL (R141). -/
  | sqDoorbell (cntl : Fin 2) (qid tail : Nat)
  /-- CQ_DOORBELL (R141). -/
  | cqDoorbell (cntl : Fin 2) (qid head : Nat)
  /-- COMMAND_FETCH (R122). -/
  | commandFetch (host : List HostEntry)
  /-- UNSUPPORTED_COMMAND (R118). -/
  | unsupportedCommand (cntl : Fin 2) (qid cid : Nat)
  /-- CREATE_IO_SQ (R118). -/
  | createIoSq (cntl : Fin 2) (cid : Nat)
  /-- CREATE_IO_CQ (R118). -/
  | createIoCq (cntl : Fin 2) (cid : Nat)
  /-- DELETE_IO_SQ (R144). -/
  | deleteIoSq (cntl : Fin 2) (cid : Nat)
  /-- DELETE_IO_CQ (R118). -/
  | deleteIoCq (cntl : Fin 2) (cid : Nat)
  /-- GET_LOG_PAGE (R120). -/
  | getLogPage (cntl : Fin 2) (cid : Nat)
  /-- IDENTIFY (R117). -/
  | identify (cntl : Fin 2) (cid : Nat)
  /-- ABORT (R137). -/
  | abort (cntl : Fin 2) (cid : Nat) (abortWins : Bool)
  /-- SET_FEATURES (R119). -/
  | setFeatures (cntl : Fin 2) (cid : Nat)
  /-- GET_FEATURES (R119). -/
  | getFeatures (cntl : Fin 2) (cid : Nat)
  /-- ASYNC_EVENT_REQUEST (R118). -/
  | asyncEventRequest (cntl : Fin 2) (cid : Nat)
  /-- FIRMWARE_IMAGE_DOWNLOAD (R135). -/
  | firmwareImageDownload (cntl : Fin 2) (cid : Nat)
  /-- FIRMWARE_COMMIT (R135). -/
  | firmwareCommit (cntl : Fin 2) (cid : Nat) (signatureGood : Bool)
  /-- FW_ACTIVATION_TIMEOUT (R136). -/
  | fwActivationTimeout
  /-- FORMAT_NVM (R118). -/
  | formatNvm (cntl : Fin 2) (cid : Nat)
  /-- SANITIZE (R249). -/
  | sanitize (cntl : Fin 2) (cid : Nat)
  /-- DEVICE_SELF_TEST (R118). -/
  | deviceSelfTest (cntl : Fin 2) (test : SelfTest)
  /-- READ (R196). -/
  | read (cntl : Fin 2) (qid cid : Nat) (media : List (Nat × ReadResult))
  /-- WRITE (R126). -/
  | write (cntl : Fin 2) (qid cid : Nat)
  /-- ZONE_APPEND (R127). -/
  | zoneAppend (cntl : Fin 2) (qid cid : Nat)
  /-- FLUSH (R130). -/
  | flush (cntl : Fin 2) (qid cid : Nat)
  /-- WRITE_ZEROES (R118). -/
  | writeZeroes (cntl : Fin 2) (qid cid : Nat)
  /-- DATASET_MANAGEMENT (R242). -/
  | datasetManagement (cntl : Fin 2) (qid cid : Nat)
  /-- VERIFY (R118). -/
  | verify (cntl : Fin 2) (qid cid : Nat) (media : List (Nat × ReadResult))
  /-- ZONE_OPEN (R128). -/
  | zoneOpen (cntl : Fin 2) (qid cid : Nat)
  /-- ZONE_CLOSE (R208). -/
  | zoneClose (cntl : Fin 2) (qid cid : Nat)
  /-- ZONE_FINISH (R625). -/
  | zoneFinish (cntl : Fin 2) (qid cid : Nat)
  /-- ZONE_RESET (R242). -/
  | zoneReset (cntl : Fin 2) (qid cid : Nat)
  /-- ZONE_OFFLINE (R194). -/
  | zoneOffline (cntl : Fin 2) (qid cid : Nat)
  /-- REPORT_ZONES (R140). -/
  | reportZones (cntl : Fin 2) (qid cid : Nat)
  /-- WRITE_TRANSFER_START (R21). -/
  | writeTransferStart
  /-- WRITE_UNIT_POWER_SAFE (R126). -/
  | writeUnitPowerSafe (cntl : Fin 2) (qid cid unit : Nat) (data : List (Nat × Block)) (poisonedTlp : Bool)
  /-- RETRY_BUDGET_EXPIRY (R142). -/
  | retryBudgetExpiry (cntl : Fin 2) (qid cid : Nat)
  /-- KV_STORE (R159). -/
  | kvStore (cntl : Fin 2) (qid cid : Nat) (data : StoreData)
  /-- KV_APPEND (R160). -/
  | kvAppend (cntl : Fin 2) (qid cid : Nat) (data : StoreData)
  /-- KV_RETRIEVE (R162). -/
  | kvRetrieve (cntl : Fin 2) (qid cid : Nat) (media : ValueRead) (again : ValueRead)
  /-- KV_DELETE (R164). -/
  | kvDelete (cntl : Fin 2) (qid cid : Nat)
  /-- KV_EXIST (R164). -/
  | kvExist (cntl : Fin 2) (qid cid : Nat)
  /-- KV_LIST (R165). -/
  | kvList (cntl : Fin 2) (qid cid : Nat)
  /-- SEG_BACKGROUND_VERIFY (R172). -/
  | segBackgroundVerify (key : List Byte) (first second : ValueRead) (lapHours : Option Nat)
  /-- SEG_OPEN_VALUE_REBUILD (R170). -/
  | segOpenValueRebuild (key : List Byte) (media : ValueRead)
  /-- SEG_EXPIRY_RECLAIM (R164). -/
  | segExpiryReclaim (key : List Byte)
  /-- SEG_POPULARITY_HALVE (R174). -/
  | segPopularityHalve
  /-- SEG_MIGRATION_QUEUE (R175). -/
  | segMigrationQueue (key : List Byte)
  /-- LOC_PART_APPLY (R187). -/
  | locPartApply
  /-- LOC_BAND_CMD_FREE (R219). -/
  | locBandCmdFree
  /-- LOC_BAND_CMD_RETIRE (R219). -/
  | locBandCmdRetire
  /-- LOC_PT_BUILD (R204). -/
  | locPtBuild
  /-- LOC_PT_RELEASE (R204). -/
  | locPtRelease
  /-- MWP_COMMIT (R207). -/
  | mwpCommit (zone : Nat) (failedReadBacks : Fin 4)
  /-- MWP_COMMIT_TIMER (R207). -/
  | mwpCommitTimer (zone : Nat)
  /-- HOT_MAP_SLOT_FREED (R201). -/
  | hotMapSlotFreed
  /-- REBUILD_MEDIA_CACHE_SCAN (R215). -/
  | rebuildMediaCacheScan (act : Act) (found : List CacheSector)
  /-- REBUILD_BAND_PROBE (R216). -/
  | rebuildBandProbe (act : Act) (band : Nat) (found : Option BandHead) (chunks : List (Option Nat)) (tail : List (Nat × Option Nat))
  /-- REBUILD_DONE (R215). -/
  | rebuildDone (valuesA valuesB : List ValueImage)
  /-- RELOCATION (R311). -/
  | relocation (act : Act) (zone unit : Nat)
  /-- BCL_AUTO_SELECT (R226). -/
  | bclAutoSelect (act : Act)
  /-- BCL_JOB_GO (R246). -/
  | bclJobGo
  /-- BCL_JOB_BEGIN (R229). -/
  | bclJobBegin (act : Act)
  /-- BCL_COPY_DONE (R228). -/
  | bclCopyDone (act : Act) (lostUnits : List Nat) (tmin tmax : Nat)
  /-- BCL_VERIFY_DONE (R228). -/
  | bclVerifyDone (act : Act) (good : Bool)
  /-- BAND_RELEASE (R23). -/
  | bandRelease (act : Act) (band : Nat)
  /-- BCL_OVERWRITE_DONE (R222). -/
  | bclOverwriteDone (act : Act) (band : Nat)
  /-- BCL_JOB_ABANDON (R235). -/
  | bclJobAbandon (act : Act) (failure : DestFailure)
  /-- STALE_PURGE (R243). -/
  | stalePurge (act : Act)
  /-- SECURE_DISCARD_DONE (R244). -/
  | secureDiscardDone
  /-- SEC_SHA256_JOB (R251). -/
  | secSha256Job
  /-- SEC_CRC32C_JOB (R251). -/
  | secCrc32cJob
  /-- SEC_IMG_VERIFY_JOB (R251). -/
  | secImgVerifyJob
  /-- SEC_JOB_DONE (R252). -/
  | secJobDone (signatureGood : Bool)
  /-- SEC_ROOT_INIT (R249). -/
  | secRootInit
  /-- RD_DESC_READ (R270). -/
  | rdDescRead (act : Act) (words : DescWords) (reader : Option Reader)
  /-- RD_DESC_VERIFY (R275). -/
  | rdDescVerify (act : Act) (words : DescWords) (reader : Option Reader)
  /-- RD_DESC_CAPTURE (R275). -/
  | rdDescCapture (act : Act) (words : DescWords)
  /-- RD_DESC_REDECODE (R269). -/
  | rdDescRedecode (act : Act) (words : DescWords)
  /-- SECTOR_DECIDED (R275). -/
  | sectorDecided (act : Act) (index inside : Nat) (sense : Sense) (adapted : List (BitVec 12))
  /-- RD_ABORT (R286). -/
  | rdAbort (act : Act)
  /-- FMT_LOCK (R288). -/
  | fmtLock (act : Act)
  /-- SERVO_SAMPLE (R282). -/
  | servoSample (act : Act) (burst : Burst) (under : List Nat) (errors : EngErrors)
  /-- SERVO_MARK_MISS (R284). -/
  | servoMarkMiss (act : Act) (under : List Nat) (errors : EngErrors)
  /-- SERVO_SEARCH_EXIT (R284). -/
  | servoSearchExit (act : Act) (first : Nat) (burst : Burst) (errors : EngErrors)
  /-- CLE_OVERRUN (R364). -/
  | cleOverrun (act : Act) (burst : Option Burst) (under : List Nat) (evaluated : Bool) (errors : EngErrors)
  /-- CLE_RUN (R353). -/
  | cleRun (act : Act)
  /-- CLE_PARK (R368). -/
  | clePark (act : Act)
  /-- CLE_CLR_RC (R356). -/
  | cleClrRc (act : Act)
  /-- CLE_REF_PUSH (R350). -/
  | cleRefPush (act : Act) (value : Word)
  /-- CLE_LAW_WRITE (R357). -/
  | cleLawWrite (master : Master) (act : Act) (off : Nat) (value : Word)
  /-- CLE_RC_DATA_ACCESS (R356). -/
  | cleRcDataAccess (act : Act) (value : Option Word)
  /-- CLE_INJECT_OVERRUN (R364). -/
  | cleInjectOverrun (act : Act)
  /-- CHD_SEEK_REQ (R381). -/
  | chdSeekReq (reqA reqB : Option Bool)
  /-- CHD_FF_ENABLE (R379). -/
  | chdFfEnable (ab ba : Bool)
  /-- CHD_RETIRE (R390). -/
  | chdRetire (value : Word)
  /-- RETIREMENT_COMMIT (R391). -/
  | retirementCommit
  /-- CHD_UNRETIRE (R393). -/
  | chdUnretire (value : Word)
  /-- OVL_SELECT (R403). -/
  | ovlSelect (by_ : OvlBy)
  /-- OVL_WCUR (R403). -/
  | ovlWcur (preamp : Act) (head reg data : Nat)
  /-- OVL_HEAT (R403). -/
  | ovlHeat (preamp : Act) (head reg data : Nat)
  /-- OVL_AP (R331). -/
  | ovlAp (by_ : OvlBy)
  /-- OVL_AMON (R331). -/
  | ovlAmon (by_ : OvlBy)
  /-- OVL_TEMP (R403). -/
  | ovlTemp (preamp : Act) (head reg data : Nat)
  /-- OVL_FCODE (R403). -/
  | ovlFcode (preamp : Act) (head reg data : Nat)
  /-- OVL_FCLR (R405). -/
  | ovlFclr (preamp : Act) (head reg data : Nat)
  /-- OVL_RDREG (R403). -/
  | ovlRdreg (preamp : Act) (head reg data : Nat)
  /-- OVL_WRREG (R403). -/
  | ovlWrreg (preamp : Act) (head reg data : Nat)
  /-- OVL_PING (R403). -/
  | ovlPing (preamp : Act) (head reg data : Nat)
  /-- OVL_RESPONSE (R408). -/
  | ovlResponse (response : BitVec 32)
  /-- OVL_TEMP_POLL (R406). -/
  | ovlTempPoll
  /-- PREAMP_FAULT (R406). -/
  | preampFault (act : Act)
  /-- MLK_WRITE (R417). -/
  | mlkWrite (reg : Fin 32) (data : BitVec 16)
  /-- MLK_READ (R417). -/
  | mlkRead (reg : Fin 32)
  /-- MLK_TX_DONE (R423). -/
  | mlkTxDone (replies : List (BitVec 32))
  /-- MLK_IRQ (R422). -/
  | mlkIrq (reads writes : List (BitVec 32))
  /-- MLK_IRQ_RETRY (R423). -/
  | mlkIrqRetry (reads writes : List (BitVec 32))
  /-- MLK_RETRACT_CTRL (R420). -/
  | mlkRetractCtrl (retract : Bool)
  /-- SNS_SAMPLE (R426). -/
  | snsSample (s0 s1 s2 : BitVec 12)
  /-- SNS_EVENT_END (R426). -/
  | snsEventEnd (shock : Bool)
  /-- WR_DESC_WRITE (R319). -/
  | wrDescWrite (act : Act) (words : DescWords)
  /-- WR_DESC_FILL (R319). -/
  | wrDescFill (act : Act) (words : DescWords)
  /-- WRITE_DESC_DONE (R326). -/
  | writeDescDone (act : Act) (monitored : Bool)
  /-- WRITE_NO_PERMISSION (R329). -/
  | writeNoPermission (act : Act)
  /-- ENVELOPE_LIMIT (R332). -/
  | envelopeLimit (act : Act)
  /-- WR_ABORT (R334). -/
  | wrAbort (act : Act)
  /-- AS_ONTIME_SET (R338). -/
  | asOntimeSet (act : Act) (value : Word)
  /-- SYNTH_LOCK (R580). -/
  | synthLock (act : Act) (locked : Bool)
  /-- DDR_RETRAIN (R431). -/
  | ddrRetrain (mr4a mr4b : Fin 8) (moved : Bool)
  /-- MEC_SCRUB_BURST (R442). -/
  | mecScrubBurst (flips : List (Nat × Nat)) (lapSeconds : Nat)
  /-- SEE_SCRUB_WORD (R443). -/
  | seeScrubWord (addr : Nat) (flips : List Nat) (lapMs : Option Nat)
  /-- MEC_WRITE_RAW (R446). -/
  | mecWriteRaw
  /-- MEC_READ_RAW (R446). -/
  | mecReadRaw
  /-- SEE_WRITE_RAW (R446). -/
  | seeWriteRaw
  /-- SEE_READ_RAW (R446). -/
  | seeReadRaw
  /-- JNL_PORT_WRITE (R460). -/
  | jnlPortWrite (poisoned : Bool) (failedReadBacks : Fin 4)
  /-- JOURNAL_HWM_RESUME (R19). -/
  | journalHwmResume
  /-- JNL_CTRL_CKPT (R471). -/
  | jnlCtrlCkpt
  /-- CHECKPOINT_DONE (R472). -/
  | checkpointDone (place dirA dirB dirNand pages crc : Nat)
  /-- CHECKPOINT_FAIL (R473). -/
  | checkpointFail (step : Nat)
  /-- JNL_INIT (R457). -/
  | jnlInit
  /-- OPTIME_TICK (R465). -/
  | optimeTick
  /-- NFC_ERASE_AHEAD (R479). -/
  | nfcEraseAhead (erasedMib : Nat) (failed : Option (Nat × Nat))
  /-- NFC_FIRMWARE_READ (R488). -/
  | nfcFirmwareRead (page : NandRead)
  /-- CPU_RELEASE (R491). -/
  | cpuRelease (value : Word)
  /-- CPU_L2_CTRL_WRITE (R502). -/
  | cpuL2CtrlWrite (value : Word)
  /-- CPU_L1_INV (R514). -/
  | cpuL1Inv (core : Fin 6)
  /-- CPU_L1_ENABLE (R501). -/
  | cpuL1Enable (core : Fin 6) (ien den : Bool)
  /-- CM_CLEAN (R504). -/
  | cmClean (set : Fin 8) (scope : Fin 4)
  /-- CM_INVALIDATE (R504). -/
  | cmInvalidate (set : Fin 8) (scope : Fin 4)
  /-- CM_CLEAN_INV (R504). -/
  | cmCleanInv (set : Fin 8) (scope : Fin 4)
  /-- CM_DONE (R506). -/
  | cmDone (set : Fin 8)
  /-- CPU_L2_CARVE (R511). -/
  | cpuL2Carve (value : Word)
  /-- CPU_L2_LOCK (R513). -/
  | cpuL2Lock (value : Word)
  /-- CPU_ATTR_WRITE (R494). -/
  | cpuAttrWrite (window : Fin 16) (value : Word)
  /-- CORE_ABORT (R496). -/
  | coreAbort (core : Fin 8) (access : CoreAccess)
  /-- CACHE_PARITY_ERROR (R509). -/
  | cacheParityError (place : ParityAt)
  /-- CPU_INJECT (R514). -/
  | cpuInject (value : Word)
  /-- EVENT_HANDOVER (R525). -/
  | eventHandover (code : Nat) (items : List (Option DWord))
  /-- EVR_OPERATION (R524). -/
  | evrOperation (failedReadBacks : Fin 4)
  /-- EVR_FREEZE (R529). -/
  | evrFreeze (value : Word)
  /-- EVR_FREEZE_EXPIRED (R529). -/
  | evrFreezeExpired
  /-- EVR_POST (R537). -/
  | evrPost
  /-- EVR_MIRROR_PROGRAM (R533). -/
  | evrMirrorProgram (timer : Bool)
  /-- EVR_INJECT_LOGFAIL (R536). -/
  | evrInjectLogfail
  /-- CAL_TARGET_RESULT (R546). -/
  | calTargetResult (unit : CalUnit) (reference : BitVec 16) (measure : CalMeasure)
  /-- CAL_LIMIT_REACHED (R550). -/
  | calLimitReached (act : Act)
  /-- CAL_DIRECT_ADC (R552). -/
  | calDirectAdc (act : Act)
  /-- CAL_DIRECT_PRECOMP_DELAY (R552). -/
  | calDirectPrecompDelay (act : Act)
  /-- CAL_DIRECT_ASSIST_DELAY (R552). -/
  | calDirectAssistDelay (act : Act)
  /-- CAL_DIRECT_MA_DAC (R552). -/
  | calDirectMaDac (act : Act)
  /-- CAL_DIRECT_SENSORS (R552). -/
  | calDirectSensors
  /-- CAL_DIRECT_TEMP (R552). -/
  | calDirectTemp
  /-- TEMP_DRIFT (R553). -/
  | tempDrift (act : Act) (temp : Nat)
  /-- BST_MEMORY_TEST (R564). -/
  | bstMemoryTest (selection : Word) (tenthsMv : Nat) (clockDev : Int)
  /-- BST_ANALOG_TEST (R560). -/
  | bstAnalogTest (selection : Word) (tenthsMv : Nat) (clockDev : Int)
  /-- BST_SEGMENT_DONE (R564). -/
  | bstSegmentDone (fails : List BstFail)
  /-- BST_ABORT (R566). -/
  | bstAbort (elements : Nat) (fails : List BstFail)
  /-- BST_YIELD_EXPIRY (R565). -/
  | bstYieldExpiry (elements : Nat) (fails : List BstFail)
  /-- BST_PRECOND_CHECK (R562). -/
  | bstPrecondCheck (tenthsMv : Nat) (clockDev : Int) (elements : Nat) (fails : List BstFail)
  /-- BST_REPAIR_APPLY (R574). -/
  | bstRepairApply (target : BitVec 12)
  /-- BST_REPAIR_CLEAR (R574). -/
  | bstRepairClear (target : BitVec 12)
  /-- BST_FUSE_PROGRAM (R575). -/
  | bstFuseProgram (verified : List Bool)
  /-- XIN_LOST (R582). -/
  | xinLost
  /-- XIN_RETURN (R582). -/
  | xinReturn
  /-- BLOCK_IDLE_GATE (R585). -/
  | blockIdleGate (page : Nat) (wake : Bool)
  /-- CLK_FORCE_ON (R595). -/
  | clkForceOn (value : Word)
  /-- JTAG_EXTEST (R619). -/
  | jtagExtest
  /-- JTAG_SAMPLE_PRELOAD (R619). -/
  | jtagSamplePreload (preload : List Bool)
  /-- JTAG_IDCODE (R619). -/
  | jtagIdcode
  /-- JTAG_BYPASS (R619). -/
  | jtagBypass (code : BitVec 8)
  /-- JTAG_REG_ACCESS (R619). -/
  | jtagRegAccess (addr : BitVec 36) (data : Word) (write : Bool)
  /-- JTAG_CORE_DEBUG (R619). -/
  | jtagCoreDebug
  /-- JTAG_SCAN (R619). -/
  | jtagScan
  /-- TRACE_PACKET (R620). -/
  | tracePacket (source : TraceSource) (drained : Nat)
  /-- DBG_UART_TX (R623). -/
  | dbgUartTx (value : Word)
  /-- DBG_UART_RX_BYTE (R623). -/
  | dbgUartRxByte (byte : Byte)
  /-- DBG_UART_RX_READ (R623). -/
  | dbgUartRxRead
  /-- DBG_UART_STATUS_READ (R623). -/
  | dbgUartStatusRead
  /-- TEMPERATURE_THRESHOLD_CROSSED (R119). -/
  | temperatureThresholdCrossed (temp : Nat) (high : Bool)
  deriving DecidableEq, Repr

end Sys2Proof
end

