-- ==== Sys2Proof/Config.lean ====
section
/-! DEFINITION. What an implementation fixes and the spec leaves open: free values without a body,
so that no proof can see what they are. -/

namespace Sys2Proof

/-- The `n`-th draw of the random source SEC and LCS use (R70, R249, R250), `w` bits wide. -/
opaque Config.random (w n : Nat) : BitVec w

/-- The two candidate buckets of a hot map key (R199): `which` is 0 or 1. -/
opaque Config.hotBucket (zone unit which : Nat) : Nat

/-- A salt encrypted under an epoch key; the cipher is not stated (R250). -/
opaque Config.sealSalt (epochKey : BitVec 256) (salt : BitVec 128) : BitVec 128

/-- A salt decrypted with an epoch key (R250). -/
opaque Config.openSalt (epochKey : BitVec 256) (sealed : BitVec 128) : BitVec 128

/-- The `n`-th value the spec leaves undefined or does not state, `w` bits wide. -/
opaque Config.free (w n : Nat) : BitVec w

/-- The sector that heads a value: how its key, length, sealed flag and digest lie in it is not stated (R151). -/
opaque Config.segHeader (key : List Byte) (length : Nat) (isSealed : Bool) (digest : BitVec 256) : Block

/-- What besides root and salt goes into a media key: the kind (0 band, 1 media cache, 2 metadata), the actuator and the
band; how they are laid out, and the fixed label, are not stated (R249). -/
opaque Config.keyInfo (kind act band : Nat) : List Byte

/-- AES-XTS-256 of a sector's user bytes under a key of 64 bytes and a tweak (R249), and its inverse. -/
opaque Config.xtsEncrypt (key : List Byte) (tweak : BitVec 128) (user : Block) : Block
opaque Config.xtsDecrypt (key : List Byte) (tweak : BitVec 128) (user : Block) : Block

/-- A parity bit of a codeword; the circulants of the codes are not stated (R257). -/
opaque Config.ldpcParity (code : Nat) (bits : List Bool) (i : Nat) : Bool

/-- Bits of codeword and pad before the servo wedge that splits a sector, none where no wedge does: where the wedges
lie on a surface is not stated (R258). -/
opaque Config.wedgeSplit (head track sector : Nat) : Option Nat

/-- The DRAM address at which the area of the page table begins; it is fixed but not stated (R202). -/
opaque Config.pageArea : Nat

/-- The word the boot ROM holds at an offset: the spec does not list its content. -/
opaque Config.bootRom (offset : Nat) : BitVec 32

/-- The page that owns a gating domain, and its clock (R584): the spec does not list them. -/
opaque Config.domainPage (domain : Nat) : Nat
opaque Config.domainClock (domain : Nat) : Nat

end Sys2Proof
end

