-- ==== Sys2Proof/Machine/Bits.lean ====
section
/-! DEFINITION. Bit fields, byte order, saturation and the two cyclic redundancy checks the
spec uses. -/

namespace Sys2Proof.Machine

/-- Bits `hi:lo` of a word as a number. -/
def field (v : Word) (hi lo : Nat) : Nat := v.toNat / 2 ^ lo % 2 ^ (hi + 1 - lo)

/-- The mask of bits `hi:lo`. -/
def mask (hi lo : Nat) : Word := BitVec.ofNat 32 ((2 ^ (hi + 1 - lo) - 1) * 2 ^ lo)

/-- Replace bits `hi:lo` of a word by the low bits of a number. -/
def withField (v : Word) (hi lo n : Nat) : Word :=
  (v &&& ~~~ mask hi lo) ||| (BitVec.ofNat 32 (n * 2 ^ lo) &&& mask hi lo)

/-- The word with one bit set. -/
def bitW (i : Nat) : Word := BitVec.ofNat 32 (2 ^ i)

/-- A bit as a number. -/
def b2n (b : Bool) : Nat := if b then 1 else 0

/-- One more, staying at `top` once it is reached. -/
def satSucc (n top : Nat) : Nat := if n < top then n + 1 else top

/-- Two's-complement value of the low `w` bits of a number. -/
def signed (w n : Nat) : Int := (BitVec.ofNat w n).toInt

/-- Two's-complement encoding of an integer in `w` bits. -/
def unsigned (w : Nat) (i : Int) : Nat := (BitVec.ofInt w i).toNat

/-- Bytes of a number, least significant first (R6). -/
def leBytes : Nat → Nat → List Byte
  | 0, _ => []
  | n + 1, v => BitVec.ofNat 8 v :: leBytes n (v / 256)

/-- The number that little-endian bytes spell (R6). -/
def leNat : List Byte → Nat
  | [] => 0
  | b :: bs => b.toNat + 256 * leNat bs

/-- One bit step of CRC-32C, reflected form. -/
def crc32cBit (c : Word) : Word :=
  if c.getLsbD 0 then (c >>> 1) ^^^ 0x82F63B78#32 else c >>> 1

/-- One byte step of CRC-32C. -/
def crc32cByte (c : Word) (b : Byte) : Word :=
  let x := c ^^^ b.setWidth 32
  crc32cBit (crc32cBit (crc32cBit (crc32cBit (crc32cBit (crc32cBit (crc32cBit (crc32cBit x)))))))

/-- CRC-32C of a byte string. -/
def crc32c (bs : List Byte) : Word := ~~~ (bs.foldl crc32cByte 0xFFFFFFFF#32)

/-- One bit step of the links' CRC (R402): generator x^8 + x^2 + x + 1, neither reflected nor inverted. -/
def crc8Bit (c : BitVec 8) (b : Bool) : BitVec 8 :=
  let top := c.getLsbD 7 != b
  if top then (c <<< 1) ^^^ 0x07#8 else c <<< 1

/-- CRC of the `n` low bits of a number, most significant first, from the preset 0xFF (R402). -/
def crc8 (n v : Nat) : BitVec 8 :=
  ((List.range n).reverse).foldl (fun c i => crc8Bit c (v.testBit i)) 0xFF#8

/-- Bytes `[at, at + n)` of a byte string. -/
def slice (bs : List Byte) (start n : Nat) : List Byte := (bs.drop start).take n

/-- A little-endian field of a byte string. -/
def leAt (bs : List Byte) (start n : Nat) : Nat := leNat (slice bs start n)

/-- A byte string made of fields `(offset, size, value)` over `n` zero bytes. -/
def layBytes (n : Nat) (fs : List (Nat × Nat × Nat)) : List Byte :=
  leBytes n (fs.foldl (fun a f => a ||| ((f.2.2 % 2 ^ (8 * f.2.1)) <<< (8 * f.1))) 0)

/-- A quotient rounded to nearest, with ties away from zero (R343). The divisor is positive. -/
def roundDiv (n : Int) (d : Nat) : Int :=
  if 0 ≤ n then ((2 * n.toNat + d) / (2 * d) : Nat)
  else -(((2 * (-n).toNat + d) / (2 * d) : Nat) : Int)

/-- Saturation to a range. -/
def clampInt (lo hi v : Int) : Int := if v < lo then lo else if hi < v then hi else v

end Sys2Proof.Machine
end

