-- ==== Sys2Proof/Machine/SMap.lean ====
section
/-! DEFINITION. Sparse maps: a list of (key, value) pairs with strictly rising keys.
`get`/`put` take what an unlisted key reads as and never list an entry equal to it, so equal
contents are equal data; `find?`/`set`/`erase` are for tables whose keys are present or absent. -/

namespace Sys2Proof.Machine

/-- A sparse table from numbers to plain data. -/
abbrev SMap (α : Type) := List (Nat × α)

/-- The value listed under `k`, if any. -/
def SMap.find? {α : Type} : SMap α → Nat → Option α
  | [], _ => none
  | (j, v) :: m, k => if j = k then some v else SMap.find? m k

/-- Remove the entry under `k`. -/
def SMap.erase {α : Type} : SMap α → Nat → SMap α
  | [], _ => []
  | (j, v) :: m, k => if j = k then SMap.erase m k else (j, v) :: SMap.erase m k

/-- Insert an entry before the first greater key. -/
def SMap.insertAt {α : Type} : SMap α → Nat → α → SMap α
  | [], k, v => [(k, v)]
  | (j, w) :: m, k, v => if k < j then (k, v) :: (j, w) :: m else (j, w) :: SMap.insertAt m k v

/-- List `v` under `k`, replacing any earlier entry. -/
def SMap.set {α : Type} (m : SMap α) (k : Nat) (v : α) : SMap α :=
  (m.erase k).insertAt k v

/-- The value under `k`, where an unlisted key reads as `d k`. -/
def SMap.get {α : Type} (d : Nat → α) (m : SMap α) (k : Nat) : α :=
  (m.find? k).getD (d k)

/-- Write `v` under `k`; a value equal to what an unlisted key reads as is not listed. -/
def SMap.put {α : Type} [DecidableEq α] (d : Nat → α) (m : SMap α) (k : Nat) (v : α) : SMap α :=
  if v = d k then m.erase k else m.set k v

/-- The canonical form: keys strictly rising and no entry equal to its default. -/
def SMap.wf {α : Type} [DecidableEq α] (d : Nat → α) : SMap α → Bool
  | [] => true
  | [(k, v)] => decide (v ≠ d k)
  | (k, v) :: (j, w) :: m => decide (v ≠ d k) && decide (k < j) && SMap.wf d ((j, w) :: m)

/-- Change the entry under `k` with `f`, if it is listed. -/
def SMap.update {α : Type} (m : SMap α) (k : Nat) (f : α → α) : SMap α :=
  match m.find? k with
  | none => m
  | some v => m.set k (f v)

end Sys2Proof.Machine
end

