-- ==== Sys2Proof/Machine/RegMap.lean ====
section
/-! DEFINITION. The register map: every populated page (R90), the registers every page has (R91)
and the registers of each page's own map, with the reset value and the access of every field
(R9, R10). A register's key is page * 0x1000 + offset. Bits no field covers are reserved. -/

namespace Sys2Proof.Machine

open Sys2Proof

/-- The access tokens of R9; `w1sd` is a W1S bit of an RWD register. -/
inductive Acc where
  | ro | rw | w1c | w1s | wo | rwx | rwd | w1sd
  deriving DecidableEq, Repr

/-- One field of a register map: bits `hi:lo` and their access. -/
structure Field where
  hi : Nat
  lo : Nat
  acc : Acc
  deriving DecidableEq, Repr

/-- One register of a page: its byte offset, reset value and fields. -/
structure RegDesc where
  off : Nat
  reset : Word
  fields : List Field
  deriving DecidableEq, Repr

/-- `n` registers of one shape, `stride` bytes apart. -/
def regArray (off stride : Nat) (reset : Word) (fields : List Field) : Nat → List RegDesc
  | 0 => []
  | n + 1 => regArray off stride reset fields n ++ [⟨off + stride * n, reset, fields⟩]

/-- The registers common to every page (R91), with a page's own CTRL fields and POWER reset (R584, R587). The
block-defined bits of INT_STATUS, INT_ENABLE, INT_SET and FAULT are one field each: R91 calls those of CTRL alone
reserved where a block defines none. -/
def commonRegs (page : Nat) (ctrl : List Field) (power : Nat) : List RegDesc :=
  [ ⟨0x000, BitVec.ofNat 32 (0xCA1C0000 + page), [⟨31, 0, .ro⟩]⟩,
    ⟨0x004, 0xB0010000#32, [⟨31, 0, .ro⟩]⟩,
    ⟨0x008, 0#32, ⟨31, 31, .rw⟩ :: ctrl⟩,
    ⟨0x00C, 0#32, [⟨31, 0, .ro⟩]⟩,
    ⟨0x010, 0#32, [⟨31, 31, .w1c⟩, ⟨30, 0, .w1c⟩]⟩,
    ⟨0x014, 0#32, [⟨31, 31, .rw⟩, ⟨30, 0, .rw⟩]⟩,
    ⟨0x018, 0#32, [⟨31, 31, .wo⟩, ⟨30, 0, .wo⟩]⟩,
    ⟨0x01C, BitVec.ofNat 32 power, [⟨31, 30, .ro⟩, ⟨23, 20, .ro⟩, ⟨15, 8, .rw⟩, ⟨5, 4, .rw⟩, ⟨0, 0, .rw⟩]⟩,
    ⟨0x020, 0#32, [⟨31, 20, .ro⟩, ⟨15, 3, .w1c⟩, ⟨2, 0, .w1c⟩]⟩,
    ⟨0x024, 0#32, [⟨31, 31, .wo⟩, ⟨27, 16, .ro⟩, ⟨15, 0, .ro⟩]⟩,
    ⟨0x028, 0x000000C8#32, [⟨15, 0, .rw⟩]⟩ ]

/-- Page 0x00, SYS: the registers of its own map. -/
def sysRegs : List RegDesc :=
  [ ⟨0x080, 0x00000000#32, [⟨8, 8, .ro⟩, ⟨7, 6, .ro⟩, ⟨5, 5, .ro⟩, ⟨4, 4, .ro⟩, ⟨2, 0, .ro⟩]⟩,
    ⟨0x084, 0x00000000#32, [⟨23, 20, .ro⟩, ⟨17, 17, .w1c⟩, ⟨16, 16, .ro⟩, ⟨8, 8, .w1s⟩, ⟨7, 6, .rw⟩, ⟨5, 5, .rw⟩, ⟨4, 4, .rw⟩, ⟨2, 0, .rw⟩]⟩,
    ⟨0x088, 0x00000000#32, [⟨8, 8, .w1c⟩, ⟨4, 4, .w1c⟩, ⟨3, 3, .w1c⟩, ⟨2, 2, .w1c⟩, ⟨1, 1, .w1c⟩, ⟨0, 0, .w1c⟩]⟩,
    ⟨0x08C, 0x00000000#32, [⟨2, 0, .ro⟩, ⟨3, 3, .ro⟩]⟩,
    ⟨0x090, 0x00000000#32, [⟨31, 0, .ro⟩]⟩,
    ⟨0x094, 0x00000000#32, [⟨31, 0, .wo⟩]⟩,
    ⟨0x098, 0x00000000#32, [⟨31, 31, .rw⟩, ⟨15, 0, .rw⟩]⟩,
    ⟨0x09C, 0x00000000#32, [⟨31, 0, .wo⟩]⟩,
    ⟨0x0A0, 0x00000000#32, [⟨0, 0, .rw⟩, ⟨8, 8, .rwd⟩]⟩,
    ⟨0x0A4, 0x00000000#32, [⟨0, 0, .wo⟩]⟩,
    ⟨0x0A8, 0x00004E20#32, [⟨15, 0, .rw⟩]⟩,
    ⟨0x0AC, 0x00000000#32, [⟨2, 2, .w1c⟩, ⟨1, 1, .w1c⟩, ⟨0, 0, .ro⟩]⟩ ]

/-- Page 0x00, SYS: the common registers (R91). -/
def sysCommon (page : Nat) : List RegDesc :=
  commonRegs page [] 0x00101000

/-- Key of SYS_MODE. -/
def R.SYS_MODE : Nat := 0x00080
/-- Key of SYS_MODE_REQ. -/
def R.SYS_MODE_REQ : Nat := 0x00084
/-- Key of SYS_RESET_CAUSE. -/
def R.SYS_RESET_CAUSE : Nat := 0x00088
/-- Key of SYS_STRAP. -/
def R.SYS_STRAP : Nat := 0x0008C
/-- Key of SYS_BOOT_STEP. -/
def R.SYS_BOOT_STEP : Nat := 0x00090
/-- Key of SYS_SWRESET. -/
def R.SYS_SWRESET : Nat := 0x00094
/-- Key of SYS_WDOG_CTRL. -/
def R.SYS_WDOG_CTRL : Nat := 0x00098
/-- Key of SYS_WDOG_KICK. -/
def R.SYS_WDOG_KICK : Nat := 0x0009C
/-- Key of SYS_REBUILD_POLICY. -/
def R.SYS_REBUILD_POLICY : Nat := 0x000A0
/-- Key of SYS_BOOT_OK. -/
def R.SYS_BOOT_OK : Nat := 0x000A4
/-- Key of SYS_SPINUP. -/
def R.SYS_SPINUP : Nat := 0x000A8
/-- Key of SYS_ALERT. -/
def R.SYS_ALERT : Nat := 0x000AC

/-- Page 0x01, CLK: the registers of its own map. -/
def clkRegs : List RegDesc :=
  [ ⟨0x080, 0x00000000#32, [⟨0, 0, .ro⟩, ⟨1, 1, .ro⟩]⟩,
    ⟨0x084, 0x00000000#32, [⟨12, 0, .ro⟩, ⟨31, 31, .ro⟩]⟩,
    ⟨0x088, 0x00000000#32, [⟨12, 0, .ro⟩, ⟨31, 31, .ro⟩]⟩,
    ⟨0x08C, 0x00000000#32, [⟨7, 0, .rw⟩]⟩,
    ⟨0x090, 0x00000000#32, [⟨0, 0, .ro⟩, ⟨10, 8, .ro⟩, ⟨23, 16, .ro⟩]⟩,
    ⟨0x094, 0x00000000#32, [⟨7, 0, .ro⟩]⟩,
    ⟨0xF00, 0x00000000#32, [⟨0, 0, .rwd⟩]⟩ ]

/-- Page 0x01, CLK: the common registers (R91). -/
def clkCommon (page : Nat) : List RegDesc :=
  commonRegs page [] 0x00101000

/-- Key of CLK_STATUS. -/
def R.CLK_STATUS : Nat := 0x01080
/-- Key of CLK_SYN_A. -/
def R.CLK_SYN_A : Nat := 0x01084
/-- Key of CLK_SYN_B. -/
def R.CLK_SYN_B : Nat := 0x01088
/-- Key of CLK_DOM_SEL. -/
def R.CLK_DOM_SEL : Nat := 0x0108C
/-- Key of CLK_DOM_STATE. -/
def R.CLK_DOM_STATE : Nat := 0x01090
/-- Key of CLK_GATED_NOW. -/
def R.CLK_GATED_NOW : Nat := 0x01094
/-- Key of CLK_FORCE_ON. -/
def R.CLK_FORCE_ON : Nat := 0x01F00

/-- Page 0x02, PWR: the registers of its own map. -/
def pwrRegs : List RegDesc :=
  [ ⟨0x080, 0x000007FF#32, [⟨10, 0, .ro⟩]⟩,
    ⟨0x084, 0x00000000#32, [⟨3, 0, .rw⟩]⟩,
    ⟨0x088, 0x00000000#32, [⟨11, 0, .ro⟩]⟩,
    ⟨0x08C, 0x00000000#32, [⟨31, 0, .ro⟩]⟩,
    ⟨0x090, 0x00000000#32, [⟨6, 0, .ro⟩, ⟨31, 31, .ro⟩]⟩ ]

/-- Page 0x02, PWR: the common registers (R91). -/
def pwrCommon (page : Nat) : List RegDesc :=
  commonRegs page [] 0x00101000

/-- Key of PWR_RAILS. -/
def R.PWR_RAILS : Nat := 0x02080
/-- Key of PWR_MON_SEL. -/
def R.PWR_MON_SEL : Nat := 0x02084
/-- Key of PWR_MON. -/
def R.PWR_MON : Nat := 0x02088
/-- Key of PWR_UV_CNT. -/
def R.PWR_UV_CNT : Nat := 0x0208C
/-- Key of PWR_REST_WAIT. -/
def R.PWR_REST_WAIT : Nat := 0x02090

/-- Page 0x03, LCS: the registers of its own map. -/
def lcsRegs : List RegDesc :=
  [ ⟨0x080, 0x00000000#32, [⟨11, 11, .ro⟩, ⟨10, 8, .ro⟩, ⟨1, 0, .ro⟩]⟩,
    ⟨0x084, 0x00000000#32, [⟨0, 0, .ro⟩]⟩,
    ⟨0x088, 0x00000000#32, [⟨31, 0, .ro⟩]⟩,
    ⟨0x08C, 0x00000000#32, [⟨31, 0, .ro⟩]⟩,
    ⟨0x090, 0x00000000#32, [⟨0, 0, .w1s⟩, ⟨1, 1, .w1s⟩]⟩,
    ⟨0x094, 0x00000000#32, [⟨15, 8, .ro⟩, ⟨4, 1, .ro⟩, ⟨0, 0, .ro⟩]⟩,
    ⟨0x098, 0x00000000#32, [⟨1, 0, .rw⟩, ⟨31, 16, .rw⟩]⟩ ] ++
  regArray 0x100 4 0x00000000#32 [⟨31, 0, .wo⟩] 32 ++
  [ ⟨0x180, 0x00000000#32, [⟨31, 0, .ro⟩]⟩,
    ⟨0x184, 0x00000000#32, [⟨31, 0, .ro⟩]⟩ ]

/-- Page 0x03, LCS: the common registers (R91). -/
def lcsCommon (page : Nat) : List RegDesc :=
  commonRegs page [] 0x00101000

/-- Key of LCS_STATE. -/
def R.LCS_STATE : Nat := 0x03080
/-- Key of LCS_TIER. -/
def R.LCS_TIER : Nat := 0x03084
/-- Key of LCS_NONCE_LO. -/
def R.LCS_NONCE_LO : Nat := 0x03088
/-- Key of LCS_NONCE_HI. -/
def R.LCS_NONCE_HI : Nat := 0x0308C
/-- Key of LCS_TOKEN_CTRL. -/
def R.LCS_TOKEN_CTRL : Nat := 0x03090
/-- Key of LCS_TOKEN_STATUS. -/
def R.LCS_TOKEN_STATUS : Nat := 0x03094
/-- Key of LCS_ADVANCE. -/
def R.LCS_ADVANCE : Nat := 0x03098
/-- Key of LCS_TOKEN. -/
def R.LCS_TOKEN (n : Nat) : Nat := 0x03100 + 4 * n
/-- Key of LCS_SERIAL_LO. -/
def R.LCS_SERIAL_LO : Nat := 0x03180
/-- Key of LCS_SERIAL_HI. -/
def R.LCS_SERIAL_HI : Nat := 0x03184

/-- Page 0x04, EVR: the registers of its own map. -/
def evrRegs : List RegDesc :=
  [ ⟨0x080, 0x00640000#32, [⟨0, 0, .rw⟩, ⟨31, 16, .rw⟩]⟩,
    ⟨0x084, 0x00000000#32, [⟨0, 0, .ro⟩, ⟨1, 1, .ro⟩, ⟨13, 8, .ro⟩]⟩,
    ⟨0x088, 0x00000000#32, [⟨15, 0, .ro⟩, ⟨31, 16, .ro⟩]⟩,
    ⟨0x08C, 0x00000000#32, [⟨12, 0, .ro⟩, ⟨26, 16, .ro⟩]⟩,
    ⟨0x090, 0x00000000#32, [⟨10, 0, .ro⟩, ⟨26, 16, .ro⟩]⟩,
    ⟨0x094, 0x00000000#32, [⟨10, 0, .ro⟩, ⟨26, 16, .ro⟩]⟩,
    ⟨0x098, 0x00000000#32, [⟨31, 31, .w1s⟩, ⟨26, 24, .ro⟩, ⟨19, 16, .rw⟩, ⟨13, 12, .rw⟩, ⟨9, 0, .rw⟩]⟩,
    ⟨0x09C, 0x00000000#32, [⟨31, 0, .ro⟩]⟩,
    ⟨0x0A0, 0x00000000#32, [⟨0, 0, .w1c⟩]⟩ ] ++
  regArray 0x0C0 4 0x00000000#32 [⟨31, 0, .rw⟩] 16 ++
  regArray 0x100 4 0x00000000#32 [⟨31, 0, .ro⟩] 8 ++
  [ ⟨0xF00, 0x00000000#32, [⟨0, 0, .w1sd⟩]⟩ ]

/-- Page 0x04, EVR: the common registers (R91). -/
def evrCommon (page : Nat) : List RegDesc :=
  commonRegs page [] 0x00301011

/-- Key of EVR_FREEZE. -/
def R.EVR_FREEZE : Nat := 0x04080
/-- Key of EVR_STATUS. -/
def R.EVR_STATUS : Nat := 0x04084
/-- Key of EVR_DROPPED. -/
def R.EVR_DROPPED : Nat := 0x04088
/-- Key of EVR_USED. -/
def R.EVR_USED : Nat := 0x0408C
/-- Key of EVR_CNT_LO. -/
def R.EVR_CNT_LO : Nat := 0x04090
/-- Key of EVR_CNT_HI. -/
def R.EVR_CNT_HI : Nat := 0x04094
/-- Key of EVR_POST_CTRL. -/
def R.EVR_POST_CTRL : Nat := 0x04098
/-- Key of EVR_MIRROR_CNT. -/
def R.EVR_MIRROR_CNT : Nat := 0x0409C
/-- Key of EVR_LW_STATUS. -/
def R.EVR_LW_STATUS : Nat := 0x040A0
/-- Key of EVR_POST_DATA. -/
def R.EVR_POST_DATA (n : Nat) : Nat := 0x040C0 + 4 * n
/-- Key of EVR_LASTWORD. -/
def R.EVR_LASTWORD (n : Nat) : Nat := 0x04100 + 4 * n
/-- Key of EVR_INJECT. -/
def R.EVR_INJECT : Nat := 0x04F00

/-- Page 0x05, JNL: the registers of its own map. -/
def jnlRegs : List RegDesc :=
  [ ⟨0x080, 0x00004B32#32, [⟨7, 0, .rw⟩, ⟨15, 8, .rw⟩]⟩,
    ⟨0x084, 0x00000000#32, [⟨0, 0, .w1s⟩]⟩,
    ⟨0x088, 0x00000000#32, [⟨0, 0, .ro⟩, ⟨1, 1, .ro⟩, ⟨2, 2, .ro⟩, ⟨3, 3, .ro⟩, ⟨27, 16, .ro⟩]⟩,
    ⟨0x08C, 0x00000000#32, [⟨11, 0, .ro⟩, ⟨31, 16, .ro⟩]⟩,
    ⟨0x090, 0x00000000#32, [⟨11, 0, .ro⟩, ⟨31, 16, .ro⟩]⟩,
    ⟨0x094, 0x00000000#32, [⟨31, 0, .ro⟩]⟩,
    ⟨0x098, 0x00000000#32, [⟨31, 0, .ro⟩]⟩,
    ⟨0x09C, 0x00000000#32, [⟨11, 0, .ro⟩, ⟨30, 28, .ro⟩, ⟨31, 31, .ro⟩]⟩,
    ⟨0x0A0, 0x00000000#32, [⟨0, 0, .w1s⟩, ⟨2, 1, .rw⟩, ⟨7, 4, .ro⟩, ⟨8, 8, .ro⟩]⟩,
    ⟨0x0A4, 0x00000000#32, [⟨6, 0, .rw⟩]⟩ ] ++
  regArray 0x0C0 4 0x00000000#32 [⟨31, 0, .rw⟩] 16 ++
  [ ⟨0xF00, 0x00000000#32, [⟨0, 0, .w1sd⟩]⟩ ]

/-- Page 0x05, JNL: the common registers (R91). -/
def jnlCommon (page : Nat) : List RegDesc :=
  commonRegs page [] 0x00301011

/-- Key of JNL_CFG. -/
def R.JNL_CFG : Nat := 0x05080
/-- Key of JNL_CTRL. -/
def R.JNL_CTRL : Nat := 0x05084
/-- Key of JNL_STATUS. -/
def R.JNL_STATUS : Nat := 0x05088
/-- Key of JNL_HEAD. -/
def R.JNL_HEAD : Nat := 0x0508C
/-- Key of JNL_TAIL. -/
def R.JNL_TAIL : Nat := 0x05090
/-- Key of JNL_CKPT_CNT. -/
def R.JNL_CKPT_CNT : Nat := 0x05094
/-- Key of JNL_WAIT_CNT. -/
def R.JNL_WAIT_CNT : Nat := 0x05098
/-- Key of JNL_REPLAY. -/
def R.JNL_REPLAY : Nat := 0x0509C
/-- Key of JNL_PORT_CTRL. -/
def R.JNL_PORT_CTRL : Nat := 0x050A0
/-- Key of JNL_PORT_GROUP. -/
def R.JNL_PORT_GROUP : Nat := 0x050A4
/-- Key of JNL_PORT_DATA. -/
def R.JNL_PORT_DATA (n : Nat) : Nat := 0x050C0 + 4 * n
/-- Key of JNL_INIT. -/
def R.JNL_INIT : Nat := 0x05F00

/-- Page 0x06, CAL: the registers of its own map. -/
def calRegs : List RegDesc :=
  [ ⟨0x080, 0x00000000#32, [⟨1, 0, .rw⟩]⟩,
    ⟨0x084, 0x00000000#32, [⟨25, 16, .rw⟩, ⟨15, 8, .rw⟩, ⟨6, 0, .rw⟩]⟩,
    ⟨0x088, 0x00000000#32, [⟨25, 16, .rw⟩, ⟨15, 8, .rw⟩, ⟨6, 0, .rw⟩]⟩,
    ⟨0x08C, 0x000001F4#32, [⟨10, 0, .rw⟩]⟩,
    ⟨0x090, 0x00000000#32, [⟨31, 31, .w1s⟩, ⟨18, 16, .ro⟩, ⟨8, 8, .rw⟩, ⟨3, 0, .rw⟩]⟩,
    ⟨0x094, 0x00000000#32, [⟨0, 0, .ro⟩, ⟨1, 1, .ro⟩, ⟨2, 2, .ro⟩, ⟨11, 8, .ro⟩, ⟨15, 12, .ro⟩]⟩,
    ⟨0x098, 0x00000000#32, [⟨23, 16, .ro⟩, ⟨15, 8, .ro⟩, ⟨6, 4, .ro⟩, ⟨3, 0, .ro⟩]⟩,
    ⟨0x09C, 0x00000000#32, [⟨23, 16, .ro⟩, ⟨15, 8, .ro⟩, ⟨6, 4, .ro⟩, ⟨3, 0, .ro⟩]⟩,
    ⟨0x0A0, 0x00000000#32, [⟨23, 16, .ro⟩, ⟨15, 8, .ro⟩, ⟨6, 4, .ro⟩, ⟨3, 0, .ro⟩]⟩,
    ⟨0x0A4, 0x00000000#32, [⟨15, 0, .ro⟩]⟩,
    ⟨0x0A8, 0x00000000#32, [⟨31, 0, .ro⟩]⟩,
    ⟨0x0AC, 0x00000000#32, [⟨7, 0, .ro⟩, ⟨15, 8, .ro⟩]⟩,
    ⟨0x400, 0x0A1E1906#32, [⟨29, 24, .rwx⟩, ⟨22, 16, .rwx⟩, ⟨14, 8, .rwx⟩, ⟨4, 0, .rwx⟩]⟩ ] ++
  regArray 0x420 4 0x00000000#32 [⟨31, 31, .rwx⟩, ⟨11, 0, .rwx⟩] 8 ++
  [ ⟨0xF00, 0x00000000#32, [⟨10, 0, .rwd⟩]⟩ ]

/-- Page 0x06, CAL: the common registers (R91). -/
def calCommon (page : Nat) : List RegDesc :=
  commonRegs page [] 0x00F01031

/-- Key of CAL_PROFILE. -/
def R.CAL_PROFILE : Nat := 0x06080
/-- Key of CAL_PLAN_A. -/
def R.CAL_PLAN_A : Nat := 0x06084
/-- Key of CAL_PLAN_B. -/
def R.CAL_PLAN_B : Nat := 0x06088
/-- Key of CAL_LIMIT. -/
def R.CAL_LIMIT : Nat := 0x0608C
/-- Key of CAL_DIRECT. -/
def R.CAL_DIRECT : Nat := 0x06090
/-- Key of CAL_STATUS. -/
def R.CAL_STATUS : Nat := 0x06094
/-- Key of CAL_RESULT_A. -/
def R.CAL_RESULT_A : Nat := 0x06098
/-- Key of CAL_RESULT_B. -/
def R.CAL_RESULT_B : Nat := 0x0609C
/-- Key of CAL_RESULT_DEV. -/
def R.CAL_RESULT_DEV : Nat := 0x060A0
/-- Key of CAL_REF_MEAS. -/
def R.CAL_REF_MEAS : Nat := 0x060A4
/-- Key of CAL_REJECT_CNT. -/
def R.CAL_REJECT_CNT : Nat := 0x060A8
/-- Key of CAL_TEMP_LAST. -/
def R.CAL_TEMP_LAST : Nat := 0x060AC
/-- Key of CAL_DRIFT. -/
def R.CAL_DRIFT : Nat := 0x06400
/-- Key of CAL_TEMP_OFS. -/
def R.CAL_TEMP_OFS (n : Nat) : Nat := 0x06420 + 4 * n
/-- Key of CAL_TEMP_KNOWN. -/
def R.CAL_TEMP_KNOWN : Nat := 0x06F00

/-- Page 0x07, BST: the registers of its own map. -/
def bstRegs : List RegDesc :=
  [ ⟨0x080, 0x00000000#32, [⟨0, 0, .ro⟩, ⟨12, 8, .ro⟩, ⟨27, 16, .ro⟩]⟩,
    ⟨0x084, 0x00000000#32, [⟨17, 16, .ro⟩, ⟨12, 8, .ro⟩, ⟨7, 4, .ro⟩, ⟨3, 3, .ro⟩, ⟨2, 0, .ro⟩]⟩,
    ⟨0x088, 0x00000000#32, [⟨15, 0, .ro⟩]⟩,
    ⟨0x08C, 0x00000000#32, [⟨15, 0, .ro⟩]⟩,
    ⟨0x090, 0x00000000#32, [⟨15, 0, .ro⟩]⟩,
    ⟨0x094, 0x00000000#32, [⟨31, 0, .ro⟩]⟩,
    ⟨0x098, 0x00000000#32, [⟨6, 0, .ro⟩, ⟨11, 8, .ro⟩]⟩,
    ⟨0x09C, 0x00000000#32, [⟨11, 0, .ro⟩]⟩,
    ⟨0x0A0, 0x00000000#32, [⟨31, 0, .ro⟩]⟩,
    ⟨0x0A4, 0x00000000#32, [⟨31, 0, .ro⟩]⟩,
    ⟨0x0A8, 0x00000000#32, [⟨9, 0, .ro⟩, ⟨23, 16, .ro⟩]⟩,
    ⟨0x0AC, 0x00000000#32, [⟨20, 16, .ro⟩, ⟨15, 8, .ro⟩, ⟨4, 4, .ro⟩, ⟨3, 3, .ro⟩, ⟨2, 2, .ro⟩, ⟨1, 1, .ro⟩, ⟨0, 0, .ro⟩]⟩,
    ⟨0x0B0, 0x00000000#32, [⟨4, 0, .rw⟩, ⟨12, 8, .rw⟩, ⟨17, 16, .rw⟩]⟩,
    ⟨0x0B4, 0x00000000#32, [⟨31, 31, .ro⟩, ⟨30, 30, .ro⟩, ⟨11, 0, .ro⟩]⟩,
    ⟨0x0B8, 0x00000000#32, [⟨6, 0, .ro⟩, ⟨8, 8, .ro⟩, ⟨9, 9, .ro⟩, ⟨10, 10, .ro⟩]⟩,
    ⟨0xF00, 0x00000000#32, [⟨27, 16, .rwd⟩, ⟨12, 12, .rwd⟩, ⟨9, 8, .rwd⟩, ⟨4, 0, .rwd⟩]⟩,
    ⟨0xF04, 0x00000000#32, [⟨0, 0, .w1sd⟩, ⟨1, 1, .w1sd⟩]⟩,
    ⟨0xF08, 0x00000000#32, [⟨31, 31, .w1sd⟩, ⟨30, 30, .rwd⟩, ⟨29, 27, .ro⟩, ⟨11, 0, .rwd⟩]⟩,
    ⟨0xF0C, 0x00000000#32, [⟨0, 0, .w1sd⟩]⟩ ]

/-- Page 0x07, BST: the common registers (R91). -/
def bstCommon (page : Nat) : List RegDesc :=
  commonRegs page [] 0x00F01031

/-- Key of BST_STATUS. -/
def R.BST_STATUS : Nat := 0x07080
/-- Key of BST_RESULT. -/
def R.BST_RESULT : Nat := 0x07084
/-- Key of BST_PLANNED. -/
def R.BST_PLANNED : Nat := 0x07088
/-- Key of BST_PATTERN_COUNT. -/
def R.BST_PATTERN_COUNT : Nat := 0x0708C
/-- Key of BST_FAIL_CNT. -/
def R.BST_FAIL_CNT : Nat := 0x07090
/-- Key of BST_FAIL_ADDR. -/
def R.BST_FAIL_ADDR : Nat := 0x07094
/-- Key of BST_FAIL_INFO. -/
def R.BST_FAIL_INFO : Nat := 0x07098
/-- Key of BST_NEXT_SEG. -/
def R.BST_NEXT_SEG : Nat := 0x0709C
/-- Key of BST_SIG. -/
def R.BST_SIG : Nat := 0x070A0
/-- Key of BST_SIG_EXP. -/
def R.BST_SIG_EXP : Nat := 0x070A4
/-- Key of BST_PRECOND. -/
def R.BST_PRECOND : Nat := 0x070A8
/-- Key of BST_POST. -/
def R.BST_POST : Nat := 0x070AC
/-- Key of BST_REPAIR_SEL. -/
def R.BST_REPAIR_SEL : Nat := 0x070B0
/-- Key of BST_REPAIR_DATA. -/
def R.BST_REPAIR_DATA : Nat := 0x070B4
/-- Key of BST_FUSE_STATUS. -/
def R.BST_FUSE_STATUS : Nat := 0x070B8
/-- Key of BST_TEST. -/
def R.BST_TEST : Nat := 0x07F00
/-- Key of BST_CTRL. -/
def R.BST_CTRL : Nat := 0x07F04
/-- Key of BST_REPAIR_CMD. -/
def R.BST_REPAIR_CMD : Nat := 0x07F08
/-- Key of BST_FUSE_CTRL. -/
def R.BST_FUSE_CTRL : Nat := 0x07F0C

/-- Page 0x08, DTM: the registers of its own map. -/
def dtmRegs : List RegDesc :=
  [ ⟨0x080, 0x00000000#32, [⟨31, 0, .ro⟩]⟩,
    ⟨0x084, 0x00000000#32, [⟨31, 0, .ro⟩]⟩,
    ⟨0x088, 0xFFFFFFFF#32, [⟨31, 0, .rw⟩]⟩,
    ⟨0x08C, 0xFFFFFFFF#32, [⟨31, 0, .rw⟩]⟩ ]

/-- Page 0x08, DTM: the common registers (R91). -/
def dtmCommon (page : Nat) : List RegDesc :=
  commonRegs page [⟨0, 0, .rw⟩] 0x00101000

/-- Key of DTM_DTIME_LO. -/
def R.DTM_DTIME_LO : Nat := 0x08080
/-- Key of DTM_DTIME_HI. -/
def R.DTM_DTIME_HI : Nat := 0x08084
/-- Key of DTM_CMP_LO. -/
def R.DTM_CMP_LO : Nat := 0x08088
/-- Key of DTM_CMP_HI. -/
def R.DTM_CMP_HI : Nat := 0x0808C

/-- Page 0x10, HIF: the registers of its own map. -/
def hifRegs : List RegDesc :=
  [ ⟨0x080, 0x00000000#32, [⟨0, 0, .ro⟩, ⟨3, 1, .ro⟩]⟩,
    ⟨0x084, 0x00000000#32, [⟨7, 4, .ro⟩, ⟨3, 1, .ro⟩, ⟨0, 0, .ro⟩]⟩,
    ⟨0x088, 0x00000000#32, [⟨7, 4, .ro⟩, ⟨3, 1, .ro⟩, ⟨0, 0, .ro⟩]⟩,
    ⟨0x08C, 0x0000016A#32, [⟨8, 8, .rw⟩, ⟨6, 0, .rw⟩]⟩,
    ⟨0x090, 0x00000000#32, [⟨31, 0, .ro⟩]⟩,
    ⟨0x094, 0x00000000#32, [⟨31, 0, .ro⟩]⟩,
    ⟨0x098, 0x00000000#32, [⟨31, 0, .ro⟩]⟩ ]

/-- Page 0x10, HIF: the common registers (R91). -/
def hifCommon (page : Nat) : List RegDesc :=
  commonRegs page [] 0x00301011

/-- Key of HIF_PORT. -/
def R.HIF_PORT : Nat := 0x10080
/-- Key of HIF_LINK0. -/
def R.HIF_LINK0 : Nat := 0x10084
/-- Key of HIF_LINK1. -/
def R.HIF_LINK1 : Nat := 0x10088
/-- Key of HIF_SMB. -/
def R.HIF_SMB : Nat := 0x1008C
/-- Key of HIF_CORR_CNT. -/
def R.HIF_CORR_CNT : Nat := 0x10090
/-- Key of HIF_POISON_TX. -/
def R.HIF_POISON_TX : Nat := 0x10094
/-- Key of HIF_POISON_RX. -/
def R.HIF_POISON_RX : Nat := 0x10098

/-- Page 0x11, NVQ: the registers of its own map. -/
def nvqRegs : List RegDesc :=
  [ ⟨0x080, 0x00000000#32, [⟨14, 0, .ro⟩]⟩,
    ⟨0x084, 0x00000000#32, [⟨12, 0, .ro⟩]⟩,
    ⟨0x088, 0x000000C0#32, [⟨8, 0, .rw⟩]⟩,
    ⟨0x08C, 0x00000004#32, [⟨15, 0, .rw⟩]⟩,
    ⟨0x090, 0x0000000B#32, [⟨3, 1, .ro⟩, ⟨0, 0, .ro⟩]⟩,
    ⟨0x094, 0x00000000#32, [⟨7, 0, .rw⟩, ⟨8, 8, .rw⟩]⟩,
    ⟨0x098, 0x00000000#32, [⟨31, 31, .ro⟩, ⟨30, 29, .ro⟩, ⟨12, 0, .ro⟩]⟩,
    ⟨0x09C, 0x00000000#32, [⟨31, 0, .ro⟩]⟩,
    ⟨0x0A0, 0x00000000#32, [⟨31, 0, .ro⟩]⟩ ]

/-- Page 0x11, NVQ: the common registers (R91). -/
def nvqCommon (page : Nat) : List RegDesc :=
  commonRegs page [] 0x00301011

/-- Key of NVQ_INFLIGHT. -/
def R.NVQ_INFLIGHT : Nat := 0x11080
/-- Key of NVQ_DIRTY. -/
def R.NVQ_DIRTY : Nat := 0x11084
/-- Key of NVQ_DIRTY_LIMIT. -/
def R.NVQ_DIRTY_LIMIT : Nat := 0x11088
/-- Key of NVQ_TLER. -/
def R.NVQ_TLER : Nat := 0x1108C
/-- Key of NVQ_FETCH. -/
def R.NVQ_FETCH : Nat := 0x11090
/-- Key of NVQ_SQ_SEL. -/
def R.NVQ_SQ_SEL : Nat := 0x11094
/-- Key of NVQ_SQ_STATE. -/
def R.NVQ_SQ_STATE : Nat := 0x11098
/-- Key of NVQ_MIXED_CNT. -/
def R.NVQ_MIXED_CNT : Nat := 0x1109C
/-- Key of NVQ_ABORT_LOST. -/
def R.NVQ_ABORT_LOST : Nat := 0x110A0

/-- Page 0x12, SEG: the registers of its own map. -/
def segRegs : List RegDesc :=
  [ ⟨0x080, 0x00000000#32, [⟨24, 0, .ro⟩]⟩,
    ⟨0x084, 0x00000000#32, [⟨31, 0, .ro⟩]⟩,
    ⟨0x088, 0x00000000#32, [⟨12, 0, .ro⟩]⟩,
    ⟨0x08C, 0x00000000#32, [⟨31, 0, .ro⟩]⟩,
    ⟨0x090, 0x00000000#32, [⟨1, 0, .rw⟩]⟩,
    ⟨0x094, 0x00000000#32, [⟨15, 0, .ro⟩]⟩,
    ⟨0x098, 0x00000000#32, [⟨31, 0, .ro⟩]⟩,
    ⟨0x09C, 0x00000000#32, [⟨31, 0, .ro⟩]⟩,
    ⟨0x400, 0x01180240#32, [⟨27, 24, .rwx⟩, ⟨23, 16, .rwx⟩, ⟨15, 8, .rwx⟩, ⟨7, 0, .rwx⟩]⟩,
    ⟨0x404, 0x002802D0#32, [⟨23, 16, .rwx⟩, ⟨15, 0, .rwx⟩]⟩ ]

/-- Page 0x12, SEG: the common registers (R91). -/
def segCommon (page : Nat) : List RegDesc :=
  commonRegs page [] 0x00701021

/-- Key of SEG_KEYS. -/
def R.SEG_KEYS : Nat := 0x12080
/-- Key of SEG_KEY_LIMIT. -/
def R.SEG_KEY_LIMIT : Nat := 0x12084
/-- Key of SEG_OPEN. -/
def R.SEG_OPEN : Nat := 0x12088
/-- Key of SEG_EXPIRED. -/
def R.SEG_EXPIRED : Nat := 0x1208C
/-- Key of SEG_POLICY. -/
def R.SEG_POLICY : Nat := 0x12090
/-- Key of SEG_VERIFY_LAP. -/
def R.SEG_VERIFY_LAP : Nat := 0x12094
/-- Key of SEG_VERIFY_FAIL. -/
def R.SEG_VERIFY_FAIL : Nat := 0x12098
/-- Key of SEG_MIGRATED. -/
def R.SEG_MIGRATED : Nat := 0x1209C
/-- Key of SEG_POP. -/
def R.SEG_POP : Nat := 0x12400
/-- Key of SEG_VERIFY. -/
def R.SEG_VERIFY : Nat := 0x12404

/-- Page 0x18, LOC: the registers of its own map. -/
def locRegs : List RegDesc :=
  [ ⟨0x080, 0x00000001#32, [⟨2, 2, .ro⟩, ⟨1, 1, .ro⟩, ⟨0, 0, .ro⟩]⟩,
    ⟨0x084, 0x00000000#32, [⟨1, 0, .rw⟩]⟩,
    ⟨0x088, 0x00000810#32, [⟨15, 8, .rw⟩, ⟨7, 0, .rw⟩]⟩,
    ⟨0x08C, 0x00000080#32, [⟨10, 0, .rw⟩]⟩,
    ⟨0x090, 0x00180018#32, [⟨20, 16, .ro⟩, ⟨4, 0, .rw⟩]⟩,
    ⟨0x094, 0x00000000#32, [⟨24, 0, .ro⟩]⟩,
    ⟨0x098, 0x00000000#32, [⟨6, 0, .rw⟩, ⟨14, 8, .rw⟩]⟩,
    ⟨0x09C, 0x00000000#32, [⟨17, 0, .rw⟩]⟩,
    ⟨0x0A0, 0x00000000#32, [⟨17, 0, .rw⟩]⟩,
    ⟨0x0A4, 0x00000000#32, [⟨17, 0, .rw⟩]⟩,
    ⟨0x0A8, 0x00000000#32, [⟨6, 4, .ro⟩, ⟨1, 1, .ro⟩, ⟨0, 0, .w1s⟩]⟩,
    ⟨0x0AC, 0x00000000#32, [⟨17, 0, .ro⟩]⟩,
    ⟨0x0B0, 0x00000000#32, [⟨17, 0, .ro⟩]⟩,
    ⟨0x0B4, 0x00000000#32, [⟨17, 0, .ro⟩]⟩,
    ⟨0x0B8, 0x00000000#32, [⟨17, 0, .ro⟩]⟩,
    ⟨0x0BC, 0x00000000#32, [⟨17, 0, .ro⟩]⟩,
    ⟨0x0C0, 0x00000000#32, [⟨17, 0, .ro⟩]⟩,
    ⟨0x0C4, 0x00000000#32, [⟨17, 0, .rw⟩, ⟨31, 31, .rw⟩]⟩,
    ⟨0x0C8, 0x00000000#32, [⟨31, 0, .ro⟩]⟩,
    ⟨0x0CC, 0x00000000#32, [⟨31, 0, .ro⟩]⟩,
    ⟨0x0D0, 0x00000000#32, [⟨1, 0, .wo⟩]⟩,
    ⟨0x0D4, 0x00000000#32, [⟨31, 31, .ro⟩, ⟨30, 30, .ro⟩, ⟨17, 0, .ro⟩]⟩,
    ⟨0x0D8, 0x00000000#32, [⟨31, 31, .ro⟩, ⟨30, 30, .ro⟩, ⟨17, 0, .ro⟩]⟩,
    ⟨0x0DC, 0x00000000#32, [⟨17, 0, .ro⟩, ⟨30, 24, .ro⟩]⟩,
    ⟨0x0E0, 0x00000000#32, [⟨17, 0, .ro⟩, ⟨30, 24, .ro⟩]⟩,
    ⟨0x400, 0x00000110#32, [⟨15, 8, .rwx⟩, ⟨7, 0, .rwx⟩]⟩,
    ⟨0x404, 0x02D00018#32, [⟨31, 16, .rwx⟩, ⟨15, 0, .rwx⟩]⟩,
    ⟨0x408, 0x00002238#32, [⟨15, 0, .rwx⟩]⟩,
    ⟨0x40C, 0x001E0F05#32, [⟨23, 16, .rwx⟩, ⟨15, 8, .rwx⟩, ⟨7, 0, .rwx⟩]⟩,
    ⟨0xF00, 0x00000000#32, [⟨17, 0, .rwd⟩]⟩,
    ⟨0xF04, 0x00000000#32, [⟨17, 0, .rwd⟩]⟩,
    ⟨0xF08, 0x00000000#32, [⟨0, 0, .w1sd⟩, ⟨1, 1, .w1sd⟩]⟩ ]

/-- Page 0x18, LOC: the common registers (R91). -/
def locCommon (page : Nat) : List RegDesc :=
  commonRegs page [] 0x00701021

/-- Key of LOC_MAP. -/
def R.LOC_MAP : Nat := 0x18080
/-- Key of LOC_POLICY. -/
def R.LOC_POLICY : Nat := 0x18084
/-- Key of LOC_RESERVE. -/
def R.LOC_RESERVE : Nat := 0x18088
/-- Key of LOC_WP_BATCH. -/
def R.LOC_WP_BATCH : Nat := 0x1808C
/-- Key of LOC_HOT_CFG. -/
def R.LOC_HOT_CFG : Nat := 0x18090
/-- Key of LOC_HOT_COUNT. -/
def R.LOC_HOT_COUNT : Nat := 0x18094
/-- Key of LOC_PART_CONV. -/
def R.LOC_PART_CONV : Nat := 0x18098
/-- Key of LOC_PART_NS3. -/
def R.LOC_PART_NS3 : Nat := 0x1809C
/-- Key of LOC_PART_NS4_A. -/
def R.LOC_PART_NS4_A : Nat := 0x180A0
/-- Key of LOC_PART_NS4_B. -/
def R.LOC_PART_NS4_B : Nat := 0x180A4
/-- Key of LOC_PART_CTRL. -/
def R.LOC_PART_CTRL : Nat := 0x180A8
/-- Key of LOC_ZONES_A. -/
def R.LOC_ZONES_A : Nat := 0x180AC
/-- Key of LOC_ZONES_B. -/
def R.LOC_ZONES_B : Nat := 0x180B0
/-- Key of LOC_SEQ_A. -/
def R.LOC_SEQ_A : Nat := 0x180B4
/-- Key of LOC_SEQ_B. -/
def R.LOC_SEQ_B : Nat := 0x180B8
/-- Key of LOC_FREE_A. -/
def R.LOC_FREE_A : Nat := 0x180BC
/-- Key of LOC_FREE_B. -/
def R.LOC_FREE_B : Nat := 0x180C0
/-- Key of LOC_BAND_SEL. -/
def R.LOC_BAND_SEL : Nat := 0x180C4
/-- Key of LOC_BAND_LO. -/
def R.LOC_BAND_LO : Nat := 0x180C8
/-- Key of LOC_BAND_HI. -/
def R.LOC_BAND_HI : Nat := 0x180CC
/-- Key of LOC_BAND_CMD. -/
def R.LOC_BAND_CMD : Nat := 0x180D0
/-- Key of LOC_REBUILD_A. -/
def R.LOC_REBUILD_A : Nat := 0x180D4
/-- Key of LOC_REBUILD_B. -/
def R.LOC_REBUILD_B : Nat := 0x180D8
/-- Key of LOC_DEVZ_A. -/
def R.LOC_DEVZ_A : Nat := 0x180DC
/-- Key of LOC_DEVZ_B. -/
def R.LOC_DEVZ_B : Nat := 0x180E0
/-- Key of LOC_WEAR. -/
def R.LOC_WEAR : Nat := 0x18400
/-- Key of LOC_RET_AGE01. -/
def R.LOC_RET_AGE01 : Nat := 0x18404
/-- Key of LOC_RET_AGE2. -/
def R.LOC_RET_AGE2 : Nat := 0x18408
/-- Key of LOC_RET_TEMP. -/
def R.LOC_RET_TEMP : Nat := 0x1840C
/-- Key of LOC_OP_A. -/
def R.LOC_OP_A : Nat := 0x18F00
/-- Key of LOC_OP_B. -/
def R.LOC_OP_B : Nat := 0x18F04
/-- Key of LOC_PT_CTRL. -/
def R.LOC_PT_CTRL : Nat := 0x18F08

/-- Page 0x19, BCL: the registers of its own map. -/
def bclRegs : List RegDesc :=
  [ ⟨0x080, 0x00000000#32, [⟨1, 0, .rw⟩]⟩,
    ⟨0x084, 0x00000000#32, [⟨0, 0, .rw⟩]⟩,
    ⟨0x088, 0x00000000#32, [⟨18, 0, .rw⟩]⟩,
    ⟨0x08C, 0x00000000#32, [⟨11, 9, .ro⟩, ⟨8, 8, .ro⟩, ⟨7, 4, .rw⟩, ⟨0, 0, .w1s⟩]⟩,
    ⟨0x090, 0x00000000#32, [⟨31, 29, .ro⟩, ⟨28, 27, .ro⟩, ⟨26, 26, .ro⟩, ⟨25, 22, .ro⟩, ⟨18, 0, .ro⟩]⟩,
    ⟨0x094, 0x00000000#32, [⟨31, 29, .ro⟩, ⟨28, 27, .ro⟩, ⟨26, 26, .ro⟩, ⟨25, 22, .ro⟩, ⟨18, 0, .ro⟩]⟩,
    ⟨0x098, 0x00000000#32, [⟨6, 0, .ro⟩, ⟨14, 8, .ro⟩]⟩,
    ⟨0x09C, 0x00000000#32, [⟨27, 0, .ro⟩]⟩,
    ⟨0x0A0, 0x00000000#32, [⟨27, 0, .ro⟩]⟩,
    ⟨0x0A4, 0x00000000#32, [⟨31, 0, .ro⟩]⟩,
    ⟨0x0A8, 0x00000000#32, [⟨31, 0, .ro⟩]⟩,
    ⟨0x0AC, 0x00000000#32, [⟨31, 0, .ro⟩]⟩,
    ⟨0x0B0, 0x00000000#32, [⟨31, 0, .ro⟩]⟩,
    ⟨0x400, 0x00320040#32, [⟨22, 16, .rwx⟩, ⟨15, 0, .rwx⟩]⟩,
    ⟨0x404, 0x02000314#32, [⟨27, 16, .rwx⟩, ⟨9, 8, .rwx⟩, ⟨6, 0, .rwx⟩]⟩ ]

/-- Page 0x19, BCL: the common registers (R91). -/
def bclCommon (page : Nat) : List RegDesc :=
  commonRegs page [] 0x00701021

/-- Key of BCL_POLICY. -/
def R.BCL_POLICY : Nat := 0x19080
/-- Key of BCL_SECURE. -/
def R.BCL_SECURE : Nat := 0x19084
/-- Key of BCL_JOB_ZONE. -/
def R.BCL_JOB_ZONE : Nat := 0x19088
/-- Key of BCL_JOB_CTRL. -/
def R.BCL_JOB_CTRL : Nat := 0x1908C
/-- Key of BCL_STATE_A. -/
def R.BCL_STATE_A : Nat := 0x19090
/-- Key of BCL_STATE_B. -/
def R.BCL_STATE_B : Nat := 0x19094
/-- Key of BCL_QUEUE. -/
def R.BCL_QUEUE : Nat := 0x19098
/-- Key of BCL_STALE_A. -/
def R.BCL_STALE_A : Nat := 0x1909C
/-- Key of BCL_STALE_B. -/
def R.BCL_STALE_B : Nat := 0x190A0
/-- Key of BCL_JOBS_DONE. -/
def R.BCL_JOBS_DONE : Nat := 0x190A4
/-- Key of BCL_JOBS_FAILED. -/
def R.BCL_JOBS_FAILED : Nat := 0x190A8
/-- Key of BCL_RESTARTS. -/
def R.BCL_RESTARTS : Nat := 0x190AC
/-- Key of BCL_LOST_UNITS. -/
def R.BCL_LOST_UNITS : Nat := 0x190B0
/-- Key of BCL_AUTO. -/
def R.BCL_AUTO : Nat := 0x19400
/-- Key of BCL_PACE. -/
def R.BCL_PACE : Nat := 0x19404

/-- Page 0x1A, SEC: the registers of its own map. -/
def secRegs : List RegDesc :=
  [ ⟨0x080, 0x00000000#32, [⟨0, 0, .ro⟩, ⟨1, 1, .ro⟩, ⟨31, 16, .ro⟩]⟩,
    ⟨0x084, 0x00000000#32, [⟨31, 0, .ro⟩]⟩,
    ⟨0x088, 0x00000000#32, [⟨31, 0, .rw⟩]⟩,
    ⟨0x08C, 0x00000000#32, [⟨3, 0, .rw⟩]⟩,
    ⟨0x090, 0x00000000#32, [⟨31, 0, .rw⟩]⟩,
    ⟨0x094, 0x00000000#32, [⟨31, 31, .w1s⟩, ⟨30, 30, .ro⟩, ⟨26, 24, .ro⟩, ⟨19, 16, .ro⟩, ⟨1, 0, .rw⟩]⟩ ] ++
  regArray 0x0A0 4 0x00000000#32 [⟨31, 0, .ro⟩] 8 ++
  [ ⟨0xF00, 0x00000000#32, [⟨0, 0, .w1sd⟩]⟩ ]

/-- Page 0x1A, SEC: the common registers (R91). -/
def secCommon (page : Nat) : List RegDesc :=
  commonRegs page [] 0x00701021

/-- Key of SEC_STATUS. -/
def R.SEC_STATUS : Nat := 0x1A080
/-- Key of SEC_DESTROYED. -/
def R.SEC_DESTROYED : Nat := 0x1A084
/-- Key of SEC_JOB_SRC_LO. -/
def R.SEC_JOB_SRC_LO : Nat := 0x1A088
/-- Key of SEC_JOB_SRC_HI. -/
def R.SEC_JOB_SRC_HI : Nat := 0x1A08C
/-- Key of SEC_JOB_LEN. -/
def R.SEC_JOB_LEN : Nat := 0x1A090
/-- Key of SEC_JOB_CTRL. -/
def R.SEC_JOB_CTRL : Nat := 0x1A094
/-- Key of SEC_DIGEST. -/
def R.SEC_DIGEST (n : Nat) : Nat := 0x1A0A0 + 4 * n
/-- Key of SEC_ROOT_INIT. -/
def R.SEC_ROOT_INIT : Nat := 0x1AF00

/-- Page 0x20, CH_RD: the registers of its own map. -/
def ch_rdRegs : List RegDesc :=
  [ ⟨0x080, 0x00000000#32, [⟨1, 0, .rw⟩]⟩,
    ⟨0x084, 0x00000000#32, [⟨5, 0, .ro⟩, ⟨8, 8, .ro⟩]⟩,
    ⟨0x088, 0x00000000#32, [⟨9, 0, .ro⟩]⟩,
    ⟨0x08C, 0x00000000#32, [⟨0, 0, .wo⟩]⟩,
    ⟨0x090, 0x00000000#32, [⟨15, 0, .ro⟩, ⟨31, 16, .ro⟩]⟩,
    ⟨0x094, 0x00000000#32, [⟨31, 0, .ro⟩]⟩,
    ⟨0x098, 0x00000000#32, [⟨31, 0, .ro⟩]⟩,
    ⟨0x09C, 0x00000000#32, [⟨0, 0, .w1s⟩, ⟨3, 1, .ro⟩]⟩ ] ++
  regArray 0x0A0 4 0x00000000#32 [⟨31, 0, .rw⟩] 8 ++
  [ ⟨0x0C0, 0x00000000#32, [⟨3, 0, .rw⟩, ⟨10, 8, .rw⟩]⟩,
    ⟨0x0C4, 0x00000000#32, [⟨19, 16, .rw⟩, ⟨14, 12, .rw⟩, ⟨9, 8, .rw⟩, ⟨6, 0, .rw⟩]⟩,
    ⟨0x0C8, 0x00000000#32, [⟨11, 0, .rw⟩]⟩,
    ⟨0x0CC, 0x00000000#32, [⟨3, 0, .rw⟩]⟩,
    ⟨0x0D0, 0x00000000#32, [⟨30, 20, .rw⟩, ⟨19, 16, .rw⟩, ⟨15, 14, .rw⟩, ⟨12, 0, .rw⟩]⟩,
    ⟨0x0D4, 0x4B1ED3A7#32, [⟨31, 0, .rw⟩]⟩,
    ⟨0x0D8, 0x00000000#32, [⟨0, 0, .w1s⟩]⟩,
    ⟨0x400, 0x00000000#32, [⟨11, 8, .rwx⟩, ⟨7, 4, .rwx⟩, ⟨1, 0, .rwx⟩]⟩,
    ⟨0x404, 0x00073040#32, [⟨19, 16, .rwx⟩, ⟨15, 12, .rwx⟩, ⟨8, 0, .rwx⟩]⟩,
    ⟨0x408, 0x000000A5#32, [⟨3, 0, .rwx⟩, ⟨7, 4, .rwx⟩]⟩,
    ⟨0x40C, 0x00001802#32, [⟨1, 0, .rwx⟩, ⟨13, 8, .rwx⟩]⟩,
    ⟨0x410, 0x0000400C#32, [⟨3, 0, .rwx⟩, ⟨14, 8, .rwx⟩]⟩,
    ⟨0x414, 0x00000061#32, [⟨0, 0, .rwx⟩, ⟨1, 1, .rwx⟩, ⟨7, 4, .rwx⟩]⟩,
    ⟨0x418, 0x00000630#32, [⟨7, 0, .rwx⟩, ⟨15, 8, .rwx⟩]⟩,
    ⟨0x600, 0x00000000#32, [⟨3, 0, .rw⟩, ⟨10, 8, .rw⟩, ⟨12, 12, .rw⟩, ⟨18, 16, .rw⟩]⟩,
    ⟨0x604, 0x00000000#32, [⟨31, 0, .rwx⟩]⟩ ]

/-- Page 0x20, CH_RD: the common registers (R91). -/
def ch_rdCommon (page : Nat) : List RegDesc :=
  commonRegs page [] 0x00701021

/-- Key of RD_PROFILE. -/
def R.RD_PROFILE (a : Act) : Nat := 0x20080 + a.pageStep
/-- Key of RD_QUEUE. -/
def R.RD_QUEUE (a : Act) : Nat := 0x20084 + a.pageStep
/-- Key of SPEC_PENDING. -/
def R.SPEC_PENDING (a : Act) : Nat := 0x20088 + a.pageStep
/-- Key of RD_ABORT. -/
def R.RD_ABORT (a : Act) : Nat := 0x2008C + a.pageStep
/-- Key of RD_DONE. -/
def R.RD_DONE (a : Act) : Nat := 0x20090 + a.pageStep
/-- Key of RD_CNT_CONF. -/
def R.RD_CNT_CONF (a : Act) : Nat := 0x20094 + a.pageStep
/-- Key of RD_CNT_ITER. -/
def R.RD_CNT_ITER (a : Act) : Nat := 0x20098 + a.pageStep
/-- Key of RD_PUSH. -/
def R.RD_PUSH (a : Act) : Nat := 0x2009C + a.pageStep
/-- Key of RD_DESC. -/
def R.RD_DESC (a : Act) (n : Nat) : Nat := 0x200A0 + a.pageStep + 4 * n
/-- Key of FMT_SEL. -/
def R.FMT_SEL (a : Act) : Nat := 0x200C0 + a.pageStep
/-- Key of TAP_SEL. -/
def R.TAP_SEL (a : Act) : Nat := 0x200C4 + a.pageStep
/-- Key of TAP_DATA. -/
def R.TAP_DATA (a : Act) : Nat := 0x200C8 + a.pageStep
/-- Key of CLASS_SEL. -/
def R.CLASS_SEL (a : Act) : Nat := 0x200CC + a.pageStep
/-- Key of FMT_DATA. -/
def R.FMT_DATA (a : Act) : Nat := 0x200D0 + a.pageStep
/-- Key of SYNC_PAT. -/
def R.SYNC_PAT (a : Act) : Nat := 0x200D4 + a.pageStep
/-- Key of FMT_LOCK. -/
def R.FMT_LOCK (a : Act) : Nat := 0x200D8 + a.pageStep
/-- Key of CLASS_DATA. -/
def R.CLASS_DATA (a : Act) : Nat := 0x20400 + a.pageStep
/-- Key of RD_ACQ. -/
def R.RD_ACQ (a : Act) : Nat := 0x20404 + a.pageStep
/-- Key of RD_TRK. -/
def R.RD_TRK (a : Act) : Nat := 0x20408 + a.pageStep
/-- Key of RD_SYNC. -/
def R.RD_SYNC (a : Act) : Nat := 0x2040C + a.pageStep
/-- Key of RD_LDPC. -/
def R.RD_LDPC (a : Act) : Nat := 0x20410 + a.pageStep
/-- Key of RD_ADAPT. -/
def R.RD_ADAPT (a : Act) : Nat := 0x20414 + a.pageStep
/-- Key of RD_AGC. -/
def R.RD_AGC (a : Act) : Nat := 0x20418 + a.pageStep
/-- Key of RD_CORR_SEL. -/
def R.RD_CORR_SEL (a : Act) : Nat := 0x20600 + a.pageStep
/-- Key of RD_CORR_DATA. -/
def R.RD_CORR_DATA (a : Act) : Nat := 0x20604 + a.pageStep

/-- Page 0x21, CH_WR: the registers of its own map. -/
def ch_wrRegs : List RegDesc :=
  [ ⟨0x080, 0x00000000#32, [⟨1, 0, .rw⟩]⟩,
    ⟨0x084, 0x00000000#32, [⟨4, 0, .ro⟩, ⟨8, 8, .ro⟩]⟩,
    ⟨0x088, 0x00000000#32, [⟨0, 0, .wo⟩]⟩,
    ⟨0x08C, 0x00000000#32, [⟨0, 0, .w1s⟩, ⟨3, 1, .ro⟩]⟩ ] ++
  regArray 0x090 4 0x00000000#32 [⟨31, 0, .rw⟩] 8 ++
  [ ⟨0x0B0, 0x00000000#32, [⟨15, 0, .ro⟩, ⟨31, 16, .ro⟩]⟩,
    ⟨0x0B4, 0x00000000#32, [⟨31, 0, .ro⟩]⟩,
    ⟨0x0B8, 0x00000000#32, [⟨31, 0, .ro⟩]⟩,
    ⟨0x0BC, 0x00000000#32, [⟨31, 0, .ro⟩]⟩,
    ⟨0x0C0, 0x00000000#32, [⟨3, 0, .rw⟩, ⟨10, 8, .rw⟩]⟩,
    ⟨0x400, 0x0001100A#32, [⟨16, 16, .rwx⟩, ⟨15, 8, .rwx⟩, ⟨7, 0, .rwx⟩]⟩,
    ⟨0x404, 0x00010308#32, [⟨21, 16, .rwx⟩, ⟨13, 8, .rwx⟩, ⟨5, 0, .rwx⟩]⟩,
    ⟨0x600, 0x00000000#32, [⟨3, 0, .rw⟩, ⟨10, 8, .rw⟩, ⟨12, 12, .rw⟩, ⟨18, 16, .rw⟩]⟩,
    ⟨0x604, 0x00000000#32, [⟨31, 0, .rwx⟩]⟩ ]

/-- Page 0x21, CH_WR: the common registers (R91). -/
def ch_wrCommon (page : Nat) : List RegDesc :=
  commonRegs page [] 0x00701021

/-- Key of WR_PROFILE. -/
def R.WR_PROFILE (a : Act) : Nat := 0x21080 + a.pageStep
/-- Key of WR_QUEUE. -/
def R.WR_QUEUE (a : Act) : Nat := 0x21084 + a.pageStep
/-- Key of WR_ABORT. -/
def R.WR_ABORT (a : Act) : Nat := 0x21088 + a.pageStep
/-- Key of WR_PUSH. -/
def R.WR_PUSH (a : Act) : Nat := 0x2108C + a.pageStep
/-- Key of WR_DESC. -/
def R.WR_DESC (a : Act) (n : Nat) : Nat := 0x21090 + a.pageStep + 4 * n
/-- Key of WR_DONE. -/
def R.WR_DONE (a : Act) : Nat := 0x210B0 + a.pageStep
/-- Key of WR_CNT_SECT. -/
def R.WR_CNT_SECT (a : Act) : Nat := 0x210B4 + a.pageStep
/-- Key of WR_CNT_FAULT. -/
def R.WR_CNT_FAULT (a : Act) : Nat := 0x210B8 + a.pageStep
/-- Key of WR_CNT_CLOSE. -/
def R.WR_CNT_CLOSE (a : Act) : Nat := 0x210BC + a.pageStep
/-- Key of PC_SEL. -/
def R.PC_SEL (a : Act) : Nat := 0x210C0 + a.pageStep
/-- Key of WR_THRESH. -/
def R.WR_THRESH (a : Act) : Nat := 0x21400 + a.pageStep
/-- Key of PC_DATA. -/
def R.PC_DATA (a : Act) : Nat := 0x21404 + a.pageStep
/-- Key of WR_CORR_SEL. -/
def R.WR_CORR_SEL (a : Act) : Nat := 0x21600 + a.pageStep
/-- Key of WR_CORR_DATA. -/
def R.WR_CORR_DATA (a : Act) : Nat := 0x21604 + a.pageStep

/-- Page 0x22, CH_SV: the registers of its own map. -/
def ch_svRegs : List RegDesc :=
  [ ⟨0x080, 0x00000000#32, [⟨1, 0, .rw⟩]⟩,
    ⟨0x084, 0x00000002#32, [⟨1, 0, .rw⟩]⟩,
    ⟨0x088, 0x00000000#32, [⟨31, 31, .ro⟩, ⟨30, 30, .ro⟩, ⟨29, 29, .ro⟩, ⟨28, 28, .ro⟩, ⟨27, 27, .ro⟩, ⟨25, 16, .ro⟩, ⟨15, 0, .ro⟩]⟩,
    ⟨0x08C, 0x00000000#32, [⟨19, 0, .ro⟩, ⟨31, 31, .ro⟩]⟩,
    ⟨0x090, 0x00000000#32, [⟨31, 0, .ro⟩]⟩,
    ⟨0x094, 0x00000000#32, [⟨31, 0, .ro⟩]⟩,
    ⟨0x098, 0x00000000#32, [⟨10, 0, .rw⟩]⟩,
    ⟨0x400, 0x000F0C08#32, [⟨7, 0, .rwx⟩, ⟨15, 8, .rwx⟩, ⟨23, 16, .rwx⟩]⟩,
    ⟨0x404, 0x0000283C#32, [⟨7, 0, .rwx⟩, ⟨15, 8, .rwx⟩]⟩,
    ⟨0x408, 0x00009632#32, [⟨7, 0, .rwx⟩, ⟨15, 8, .rwx⟩]⟩ ]

/-- Page 0x22, CH_SV: the common registers (R91). -/
def ch_svCommon (page : Nat) : List RegDesc :=
  commonRegs page [] 0x00701021

/-- Key of SV_PROFILE. -/
def R.SV_PROFILE (a : Act) : Nat := 0x22080 + a.pageStep
/-- Key of SV_CFG. -/
def R.SV_CFG (a : Act) : Nat := 0x22084 + a.pageStep
/-- Key of SV_SAMPLE. -/
def R.SV_SAMPLE (a : Act) : Nat := 0x22088 + a.pageStep
/-- Key of SV_TRACK. -/
def R.SV_TRACK (a : Act) : Nat := 0x2208C + a.pageStep
/-- Key of SV_INVALID_CNT. -/
def R.SV_INVALID_CNT (a : Act) : Nat := 0x22090 + a.pageStep
/-- Key of SV_SEARCH_CNT. -/
def R.SV_SEARCH_CNT (a : Act) : Nat := 0x22094 + a.pageStep
/-- Key of SV_WEDGES. -/
def R.SV_WEDGES (a : Act) : Nat := 0x22098 + a.pageStep
/-- Key of SV_THRESH. -/
def R.SV_THRESH (a : Act) : Nat := 0x22400 + a.pageStep
/-- Key of SV_SAM. -/
def R.SV_SAM (a : Act) : Nat := 0x22404 + a.pageStep
/-- Key of SV_AMP. -/
def R.SV_AMP (a : Act) : Nat := 0x22408 + a.pageStep

/-- Page 0x23, CH_AS: the registers of its own map. -/
def ch_asRegs : List RegDesc :=
  [ ⟨0x080, 0x00000000#32, [⟨1, 0, .rw⟩]⟩,
    ⟨0x084, 0x00000000#32, [⟨1, 0, .rw⟩]⟩,
    ⟨0x088, 0x00000000#32, [⟨31, 31, .ro⟩, ⟨12, 8, .ro⟩, ⟨3, 0, .ro⟩]⟩,
    ⟨0x08C, 0x00000000#32, [⟨3, 0, .rw⟩, ⟨10, 8, .rw⟩]⟩,
    ⟨0x090, 0x00000000#32, [⟨31, 0, .ro⟩]⟩,
    ⟨0x094, 0x00000000#32, [⟨31, 0, .ro⟩]⟩,
    ⟨0x098, 0x00000000#32, [⟨7, 0, .ro⟩]⟩,
    ⟨0x400, 0x10200A28#32, [⟨29, 24, .rwx⟩, ⟨21, 16, .rwx⟩, ⟨15, 8, .rwx⟩, ⟨7, 0, .rwx⟩]⟩,
    ⟨0x404, 0x00000000#32, [⟨7, 0, .rwx⟩]⟩,
    ⟨0x408, 0x00C87850#32, [⟨7, 0, .rwx⟩, ⟨15, 8, .rwx⟩, ⟨23, 16, .rwx⟩]⟩,
    ⟨0x600, 0x00000000#32, [⟨3, 0, .rw⟩, ⟨10, 8, .rw⟩, ⟨12, 12, .rw⟩, ⟨18, 16, .rw⟩]⟩,
    ⟨0x604, 0x00000000#32, [⟨31, 0, .rwx⟩]⟩,
    ⟨0xF00, 0x00000000#32, [⟨31, 0, .rwd⟩]⟩ ]

/-- Page 0x23, CH_AS: the common registers (R91). -/
def ch_asCommon (page : Nat) : List RegDesc :=
  commonRegs page [] 0x00701021

/-- Key of AS_PROFILE. -/
def R.AS_PROFILE (a : Act) : Nat := 0x23080 + a.pageStep
/-- Key of AS_CFG. -/
def R.AS_CFG (a : Act) : Nat := 0x23084 + a.pageStep
/-- Key of AS_STATUS. -/
def R.AS_STATUS (a : Act) : Nat := 0x23088 + a.pageStep
/-- Key of AS_SEL. -/
def R.AS_SEL (a : Act) : Nat := 0x2308C + a.pageStep
/-- Key of AS_ONTIME. -/
def R.AS_ONTIME (a : Act) : Nat := 0x23090 + a.pageStep
/-- Key of AS_FAULT_CNT. -/
def R.AS_FAULT_CNT (a : Act) : Nat := 0x23094 + a.pageStep
/-- Key of AS_FAULT_CODE. -/
def R.AS_FAULT_CODE (a : Act) : Nat := 0x23098 + a.pageStep
/-- Key of AS_TIMING. -/
def R.AS_TIMING (a : Act) : Nat := 0x23400 + a.pageStep
/-- Key of AS_POWER. -/
def R.AS_POWER (a : Act) : Nat := 0x23404 + a.pageStep
/-- Key of AS_MON. -/
def R.AS_MON (a : Act) : Nat := 0x23408 + a.pageStep
/-- Key of AS_CORR_SEL. -/
def R.AS_CORR_SEL (a : Act) : Nat := 0x23600 + a.pageStep
/-- Key of AS_CORR_DATA. -/
def R.AS_CORR_DATA (a : Act) : Nat := 0x23604 + a.pageStep
/-- Key of AS_ONTIME_SET. -/
def R.AS_ONTIME_SET (a : Act) : Nat := 0x23F00 + a.pageStep

/-- Page 0x24, CLE: the registers of its own map. -/
def cleRegs : List RegDesc :=
  [ ⟨0x080, 0x00000000#32, [⟨1, 0, .rw⟩]⟩,
    ⟨0x084, 0x00000000#32, [⟨0, 0, .wo⟩, ⟨1, 1, .wo⟩, ⟨2, 2, .wo⟩]⟩,
    ⟨0x088, 0x00000000#32, [⟨27, 24, .ro⟩, ⟨23, 20, .ro⟩, ⟨19, 16, .ro⟩, ⟨15, 12, .ro⟩, ⟨6, 6, .ro⟩, ⟨5, 5, .ro⟩, ⟨4, 4, .ro⟩, ⟨2, 0, .ro⟩]⟩,
    ⟨0x08C, 0x00000000#32, [⟨3, 0, .rw⟩]⟩,
    ⟨0x090, 0x00000000#32, [⟨15, 0, .rw⟩]⟩,
    ⟨0x094, 0x00000000#32, [⟨31, 0, .rw⟩]⟩,
    ⟨0x098, 0x00000000#32, [⟨17, 0, .rw⟩]⟩,
    ⟨0x09C, 0x00000000#32, [⟨6, 0, .ro⟩, ⟨31, 12, .ro⟩]⟩,
    ⟨0x0A0, 0x00000000#32, [⟨31, 0, .ro⟩]⟩,
    ⟨0x0A4, 0x00000000#32, [⟨17, 0, .ro⟩]⟩,
    ⟨0x0A8, 0x00000000#32, [⟨15, 0, .ro⟩]⟩,
    ⟨0x0AC, 0x00000000#32, [⟨15, 0, .ro⟩, ⟨25, 16, .ro⟩]⟩,
    ⟨0x0B0, 0x00000000#32, [⟨31, 0, .ro⟩]⟩,
    ⟨0x0B4, 0x00000000#32, [⟨31, 0, .ro⟩]⟩,
    ⟨0x0B8, 0x00000000#32, [⟨31, 0, .ro⟩]⟩,
    ⟨0x0BC, 0x00000000#32, [⟨31, 0, .ro⟩]⟩,
    ⟨0x0C0, 0x00000000#32, [⟨3, 0, .ro⟩]⟩,
    ⟨0x0C4, 0x00000000#32, [⟨0, 0, .rw⟩]⟩,
    ⟨0x0C8, 0x00000000#32, [⟨9, 0, .rw⟩, ⟨19, 16, .rw⟩, ⟨31, 31, .rw⟩]⟩,
    ⟨0x0CC, 0x00000000#32, [⟨15, 0, .rw⟩]⟩,
    ⟨0x400, 0x00000000#32, [⟨23, 16, .rwx⟩, ⟨15, 8, .rwx⟩, ⟨6, 4, .rwx⟩, ⟨2, 0, .rwx⟩]⟩,
    ⟨0x404, 0x00000000#32, [⟨31, 0, .rwx⟩]⟩,
    ⟨0x408, 0x00000000#32, [⟨31, 0, .rwx⟩]⟩,
    ⟨0x40C, 0x00000000#32, [⟨31, 0, .rwx⟩]⟩,
    ⟨0x410, 0x00000000#32, [⟨3, 0, .rwx⟩, ⟨7, 4, .rwx⟩]⟩,
    ⟨0x414, 0x0001FFFF#32, [⟨16, 0, .rwx⟩]⟩,
    ⟨0x418, 0x00007FFF#32, [⟨14, 0, .rwx⟩]⟩,
    ⟨0x41C, 0x00020603#32, [⟨19, 16, .rwx⟩, ⟨11, 8, .rwx⟩, ⟨3, 0, .rwx⟩]⟩,
    ⟨0x420, 0x000C0601#32, [⟨26, 24, .rwx⟩, ⟨19, 16, .rwx⟩, ⟨11, 8, .rwx⟩, ⟨1, 0, .rwx⟩]⟩,
    ⟨0x600, 0x00000000#32, [⟨3, 0, .rw⟩, ⟨10, 8, .rw⟩, ⟨12, 12, .rw⟩, ⟨18, 16, .rw⟩]⟩,
    ⟨0x604, 0x00000000#32, [⟨31, 0, .rwx⟩]⟩ ] ++
  regArray 0x800 32 0x00000000#32 [⟨31, 0, .rwx⟩] 8 ++
  regArray 0x804 32 0x00000000#32 [⟨31, 0, .rwx⟩] 8 ++
  regArray 0x808 32 0x00000000#32 [⟨31, 0, .rwx⟩] 8 ++
  regArray 0x80C 32 0x00000000#32 [⟨31, 0, .rwx⟩] 8 ++
  regArray 0x810 32 0x00000000#32 [⟨31, 0, .rwx⟩] 8 ++
  regArray 0x900 4 0x00000000#32 [⟨31, 0, .rwx⟩] 16 ++
  regArray 0x940 4 0x00000000#32 [⟨31, 0, .rwx⟩] 4 ++
  regArray 0x950 4 0x00000000#32 [⟨31, 0, .rwx⟩] 4 ++
  regArray 0x960 4 0x00000000#32 [⟨31, 0, .rwx⟩] 4 ++
  regArray 0x970 4 0x00000000#32 [⟨31, 0, .rwx⟩] 4 ++
  [ ⟨0x980, 0x00000000#32, [⟨31, 0, .rwx⟩]⟩ ] ++
  regArray 0xA00 32 0x00000000#32 [⟨31, 0, .rwx⟩] 8 ++
  regArray 0xA04 32 0x00000000#32 [⟨31, 0, .rwx⟩] 8 ++
  regArray 0xA08 32 0x00000000#32 [⟨31, 0, .rwx⟩] 8 ++
  regArray 0xA0C 32 0x00000000#32 [⟨31, 0, .rwx⟩] 8 ++
  regArray 0xA10 32 0x00000000#32 [⟨31, 0, .rwx⟩] 8 ++
  regArray 0xB00 4 0x00000000#32 [⟨31, 0, .rwx⟩] 16 ++
  regArray 0xB40 4 0x00000000#32 [⟨31, 0, .rwx⟩] 4 ++
  regArray 0xB50 4 0x00000000#32 [⟨31, 0, .rwx⟩] 4 ++
  regArray 0xB60 4 0x00000000#32 [⟨31, 0, .rwx⟩] 4 ++
  regArray 0xB70 4 0x00000000#32 [⟨31, 0, .rwx⟩] 4 ++
  [ ⟨0xB80, 0x00000000#32, [⟨31, 0, .rwx⟩]⟩,
    ⟨0xF00, 0x00000000#32, [⟨0, 0, .rwd⟩]⟩ ]

/-- Page 0x24, CLE: the common registers (R91). -/
def cleCommon (page : Nat) : List RegDesc :=
  commonRegs page [] 0x00701021

/-- Key of CLE_PROFILE. -/
def R.CLE_PROFILE (a : Act) : Nat := 0x24080 + a.pageStep
/-- Key of CLE_CMD. -/
def R.CLE_CMD (a : Act) : Nat := 0x24084 + a.pageStep
/-- Key of CLE_STATE. -/
def R.CLE_STATE (a : Act) : Nat := 0x24088 + a.pageStep
/-- Key of CLE_HEAD. -/
def R.CLE_HEAD (a : Act) : Nat := 0x2408C + a.pageStep
/-- Key of CLE_OFS. -/
def R.CLE_OFS (a : Act) : Nat := 0x24090 + a.pageStep
/-- Key of CLE_REF_TRK. -/
def R.CLE_REF_TRK (a : Act) : Nat := 0x24094 + a.pageStep
/-- Key of CLE_REF_FF. -/
def R.CLE_REF_FF (a : Act) : Nat := 0x24098 + a.pageStep
/-- Key of CLE_REF_LEVEL. -/
def R.CLE_REF_LEVEL (a : Act) : Nat := 0x2409C + a.pageStep
/-- Key of CLE_ERR. -/
def R.CLE_ERR (a : Act) : Nat := 0x240A0 + a.pageStep
/-- Key of CLE_OUT_V. -/
def R.CLE_OUT_V (a : Act) : Nat := 0x240A4 + a.pageStep
/-- Key of CLE_OUT_M. -/
def R.CLE_OUT_M (a : Act) : Nat := 0x240A8 + a.pageStep
/-- Key of CLE_SEQ. -/
def R.CLE_SEQ (a : Act) : Nat := 0x240AC + a.pageStep
/-- Key of CLE_OVERRUN. -/
def R.CLE_OVERRUN (a : Act) : Nat := 0x240B0 + a.pageStep
/-- Key of CLE_LOST_CNT. -/
def R.CLE_LOST_CNT (a : Act) : Nat := 0x240B4 + a.pageStep
/-- Key of CLE_SAT_CNT. -/
def R.CLE_SAT_CNT (a : Act) : Nat := 0x240B8 + a.pageStep
/-- Key of CLE_ECC_CORR. -/
def R.CLE_ECC_CORR (a : Act) : Nat := 0x240BC + a.pageStep
/-- Key of CLE_COEF_PEND. -/
def R.CLE_COEF_PEND (a : Act) : Nat := 0x240C0 + a.pageStep
/-- Key of CLE_RC_CTRL. -/
def R.CLE_RC_CTRL (a : Act) : Nat := 0x240C4 + a.pageStep
/-- Key of CLE_RC_SEL. -/
def R.CLE_RC_SEL (a : Act) : Nat := 0x240C8 + a.pageStep
/-- Key of CLE_RC_DATA. -/
def R.CLE_RC_DATA (a : Act) : Nat := 0x240CC + a.pageStep
/-- Key of CLE_STRUCT. -/
def R.CLE_STRUCT (a : Act) : Nat := 0x24400 + a.pageStep
/-- Key of CLE_MVG. -/
def R.CLE_MVG (a : Act) : Nat := 0x24404 + a.pageStep
/-- Key of CLE_XGV. -/
def R.CLE_XGV (a : Act) : Nat := 0x24408 + a.pageStep
/-- Key of CLE_XGM. -/
def R.CLE_XGM (a : Act) : Nat := 0x2440C + a.pageStep
/-- Key of CLE_SHIFT. -/
def R.CLE_SHIFT (a : Act) : Nat := 0x24410 + a.pageStep
/-- Key of CLE_VLIM. -/
def R.CLE_VLIM (a : Act) : Nat := 0x24414 + a.pageStep
/-- Key of CLE_MLIM. -/
def R.CLE_MLIM (a : Act) : Nat := 0x24418 + a.pageStep
/-- Key of CLE_FAULT_CFG. -/
def R.CLE_FAULT_CFG (a : Act) : Nat := 0x2441C + a.pageStep
/-- Key of CLE_RC_CFG. -/
def R.CLE_RC_CFG (a : Act) : Nat := 0x24420 + a.pageStep
/-- Key of CLE_CORR_SEL. -/
def R.CLE_CORR_SEL (a : Act) : Nat := 0x24600 + a.pageStep
/-- Key of CLE_CORR_DATA. -/
def R.CLE_CORR_DATA (a : Act) : Nat := 0x24604 + a.pageStep
/-- Key of CLE_V_SECT_B0. -/
def R.CLE_V_SECT_B0 (a : Act) (n : Nat) : Nat := 0x24800 + a.pageStep + 32 * n
/-- Key of CLE_V_SECT_B1. -/
def R.CLE_V_SECT_B1 (a : Act) (n : Nat) : Nat := 0x24804 + a.pageStep + 32 * n
/-- Key of CLE_V_SECT_B2. -/
def R.CLE_V_SECT_B2 (a : Act) (n : Nat) : Nat := 0x24808 + a.pageStep + 32 * n
/-- Key of CLE_V_SECT_A1. -/
def R.CLE_V_SECT_A1 (a : Act) (n : Nat) : Nat := 0x2480C + a.pageStep + 32 * n
/-- Key of CLE_V_SECT_A2. -/
def R.CLE_V_SECT_A2 (a : Act) (n : Nat) : Nat := 0x24810 + a.pageStep + 32 * n
/-- Key of CLE_V_A. -/
def R.CLE_V_A (a : Act) (n : Nat) : Nat := 0x24900 + a.pageStep + 4 * n
/-- Key of CLE_V_B. -/
def R.CLE_V_B (a : Act) (n : Nat) : Nat := 0x24940 + a.pageStep + 4 * n
/-- Key of CLE_V_L. -/
def R.CLE_V_L (a : Act) (n : Nat) : Nat := 0x24950 + a.pageStep + 4 * n
/-- Key of CLE_V_C. -/
def R.CLE_V_C (a : Act) (n : Nat) : Nat := 0x24960 + a.pageStep + 4 * n
/-- Key of CLE_V_K. -/
def R.CLE_V_K (a : Act) (n : Nat) : Nat := 0x24970 + a.pageStep + 4 * n
/-- Key of CLE_V_G. -/
def R.CLE_V_G (a : Act) : Nat := 0x24980 + a.pageStep
/-- Key of CLE_M_SECT_B0. -/
def R.CLE_M_SECT_B0 (a : Act) (n : Nat) : Nat := 0x24A00 + a.pageStep + 32 * n
/-- Key of CLE_M_SECT_B1. -/
def R.CLE_M_SECT_B1 (a : Act) (n : Nat) : Nat := 0x24A04 + a.pageStep + 32 * n
/-- Key of CLE_M_SECT_B2. -/
def R.CLE_M_SECT_B2 (a : Act) (n : Nat) : Nat := 0x24A08 + a.pageStep + 32 * n
/-- Key of CLE_M_SECT_A1. -/
def R.CLE_M_SECT_A1 (a : Act) (n : Nat) : Nat := 0x24A0C + a.pageStep + 32 * n
/-- Key of CLE_M_SECT_A2. -/
def R.CLE_M_SECT_A2 (a : Act) (n : Nat) : Nat := 0x24A10 + a.pageStep + 32 * n
/-- Key of CLE_M_A. -/
def R.CLE_M_A (a : Act) (n : Nat) : Nat := 0x24B00 + a.pageStep + 4 * n
/-- Key of CLE_M_B. -/
def R.CLE_M_B (a : Act) (n : Nat) : Nat := 0x24B40 + a.pageStep + 4 * n
/-- Key of CLE_M_L. -/
def R.CLE_M_L (a : Act) (n : Nat) : Nat := 0x24B50 + a.pageStep + 4 * n
/-- Key of CLE_M_C. -/
def R.CLE_M_C (a : Act) (n : Nat) : Nat := 0x24B60 + a.pageStep + 4 * n
/-- Key of CLE_M_K. -/
def R.CLE_M_K (a : Act) (n : Nat) : Nat := 0x24B70 + a.pageStep + 4 * n
/-- Key of CLE_M_G. -/
def R.CLE_M_G (a : Act) : Nat := 0x24B80 + a.pageStep
/-- Key of CLE_INJECT. -/
def R.CLE_INJECT (a : Act) : Nat := 0x24F00 + a.pageStep

/-- Page 0x30, CHD: the registers of its own map. -/
def chdRegs : List RegDesc :=
  [ ⟨0x080, 0x00000000#32, [⟨1, 0, .rw⟩]⟩,
    ⟨0x084, 0x00000000#32, [⟨0, 0, .rw⟩, ⟨1, 1, .rw⟩]⟩,
    ⟨0x088, 0x00000000#32, [⟨31, 0, .ro⟩]⟩,
    ⟨0x08C, 0x00000000#32, [⟨31, 0, .ro⟩]⟩,
    ⟨0x090, 0x00000000#32, [⟨8, 8, .ro⟩, ⟨5, 4, .ro⟩, ⟨0, 0, .rw⟩]⟩,
    ⟨0x094, 0x00000000#32, [⟨8, 8, .ro⟩, ⟨5, 4, .ro⟩, ⟨0, 0, .rw⟩]⟩,
    ⟨0x098, 0x00013880#32, [⟨16, 0, .ro⟩]⟩,
    ⟨0x09C, 0x00013880#32, [⟨16, 0, .ro⟩]⟩,
    ⟨0x0A0, 0x00000000#32, [⟨31, 0, .ro⟩]⟩,
    ⟨0x0A4, 0x00000000#32, [⟨31, 0, .ro⟩]⟩,
    ⟨0x0A8, 0x00000000#32, [⟨15, 0, .rw⟩, ⟨31, 16, .rw⟩]⟩,
    ⟨0x0AC, 0x00000000#32, [⟨31, 16, .wo⟩, ⟨14, 12, .ro⟩, ⟨9, 8, .ro⟩, ⟨1, 0, .rw⟩]⟩,
    ⟨0x0B0, 0x00000000#32, [⟨31, 0, .ro⟩]⟩,
    ⟨0x400, 0x00027100#32, [⟨17, 0, .rwx⟩]⟩,
    ⟨0x404, 0x00007D00#32, [⟨16, 0, .rwx⟩]⟩,
    ⟨0x408, 0x00000248#32, [⟨11, 8, .rwx⟩, ⟨7, 4, .rwx⟩, ⟨3, 0, .rwx⟩]⟩ ] ++
  regArray 0x440 4 0x00000000#32 [⟨31, 0, .rwx⟩] 5 ++
  regArray 0x460 4 0x00000000#32 [⟨31, 0, .rwx⟩] 5 ++
  [ ⟨0xF00, 0x00000000#32, [⟨9, 8, .ro⟩, ⟨1, 1, .rwd⟩, ⟨0, 0, .rwd⟩]⟩ ]

/-- Page 0x30, CHD: the common registers (R91). -/
def chdCommon (page : Nat) : List RegDesc :=
  commonRegs page [] 0x00701021

/-- Key of CHD_PROFILE. -/
def R.CHD_PROFILE : Nat := 0x30080
/-- Key of CHD_FF_CTRL. -/
def R.CHD_FF_CTRL : Nat := 0x30084
/-- Key of CHD_X_A. -/
def R.CHD_X_A : Nat := 0x30088
/-- Key of CHD_X_B. -/
def R.CHD_X_B : Nat := 0x3008C
/-- Key of CHD_SEEK_A. -/
def R.CHD_SEEK_A : Nat := 0x30090
/-- Key of CHD_SEEK_B. -/
def R.CHD_SEEK_B : Nat := 0x30094
/-- Key of CHD_LIM_A. -/
def R.CHD_LIM_A : Nat := 0x30098
/-- Key of CHD_LIM_B. -/
def R.CHD_LIM_B : Nat := 0x3009C
/-- Key of CHD_CLAMP_A. -/
def R.CHD_CLAMP_A : Nat := 0x300A0
/-- Key of CHD_CLAMP_B. -/
def R.CHD_CLAMP_B : Nat := 0x300A4
/-- Key of CHD_CHWAIT. -/
def R.CHD_CHWAIT : Nat := 0x300A8
/-- Key of CHD_RETIRE. -/
def R.CHD_RETIRE : Nat := 0x300AC
/-- Key of CHD_RETIRE_LOST. -/
def R.CHD_RETIRE_LOST : Nat := 0x300B0
/-- Key of CHD_ISUM. -/
def R.CHD_ISUM : Nat := 0x30400
/-- Key of CHD_ITRK. -/
def R.CHD_ITRK : Nat := 0x30404
/-- Key of CHD_ARB. -/
def R.CHD_ARB : Nat := 0x30408
/-- Key of CHD_FF_AB. -/
def R.CHD_FF_AB (n : Nat) : Nat := 0x30440 + 4 * n
/-- Key of CHD_FF_BA. -/
def R.CHD_FF_BA (n : Nat) : Nat := 0x30460 + 4 * n
/-- Key of CHD_UNRETIRE. -/
def R.CHD_UNRETIRE : Nat := 0x30F00

/-- Page 0x38, OVL: the registers of its own map. -/
def ovlRegs : List RegDesc :=
  [ ⟨0x080, 0x00000A02#32, [⟨1, 0, .rw⟩, ⟨15, 8, .rw⟩]⟩,
    ⟨0x084, 0x00000000#32, [⟨7, 0, .rw⟩, ⟨15, 12, .rw⟩, ⟨11, 8, .rw⟩, ⟨16, 16, .rw⟩]⟩,
    ⟨0x088, 0x00000000#32, [⟨15, 0, .rw⟩]⟩,
    ⟨0x08C, 0x00000000#32, [⟨0, 0, .w1s⟩, ⟨1, 1, .ro⟩, ⟨6, 4, .ro⟩]⟩,
    ⟨0x090, 0x00000000#32, [⟨31, 0, .ro⟩]⟩,
    ⟨0x094, 0x00000000#32, [⟨15, 0, .ro⟩, ⟨31, 16, .ro⟩]⟩,
    ⟨0x098, 0x00000000#32, [⟨3, 0, .ro⟩, ⟨4, 4, .ro⟩, ⟨11, 8, .ro⟩, ⟨12, 12, .ro⟩]⟩,
    ⟨0x09C, 0x00000000#32, [⟨31, 0, .ro⟩]⟩,
    ⟨0x0A0, 0x00000000#32, [⟨31, 0, .ro⟩]⟩ ]

/-- Page 0x38, OVL: the common registers (R91). -/
def ovlCommon (page : Nat) : List RegDesc :=
  commonRegs page [] 0x00701021

/-- Key of OVL_CFG. -/
def R.OVL_CFG : Nat := 0x38080
/-- Key of OVL_TX_CMD. -/
def R.OVL_TX_CMD : Nat := 0x38084
/-- Key of OVL_TX_DATA. -/
def R.OVL_TX_DATA : Nat := 0x38088
/-- Key of OVL_TX_CTRL. -/
def R.OVL_TX_CTRL : Nat := 0x3808C
/-- Key of OVL_RX. -/
def R.OVL_RX : Nat := 0x38090
/-- Key of OVL_TEMP. -/
def R.OVL_TEMP : Nat := 0x38094
/-- Key of OVL_SEL. -/
def R.OVL_SEL : Nat := 0x38098
/-- Key of OVL_CNT_RETRY. -/
def R.OVL_CNT_RETRY : Nat := 0x3809C
/-- Key of OVL_CNT_GIVEUP. -/
def R.OVL_CNT_GIVEUP : Nat := 0x380A0

/-- Page 0x39, MLK: the registers of its own map. -/
def mlkRegs : List RegDesc :=
  [ ⟨0x080, 0x00000001#32, [⟨0, 0, .rw⟩]⟩,
    ⟨0x084, 0x00000032#32, [⟨1, 0, .rw⟩, ⟨5, 4, .rw⟩]⟩,
    ⟨0x088, 0x00000000#32, [⟨15, 0, .rw⟩, ⟨20, 16, .rw⟩, ⟨31, 31, .rw⟩]⟩,
    ⟨0x08C, 0x00000000#32, [⟨0, 0, .w1s⟩, ⟨1, 1, .ro⟩, ⟨6, 4, .ro⟩]⟩,
    ⟨0x090, 0x00000000#32, [⟨15, 0, .ro⟩, ⟨16, 16, .ro⟩]⟩,
    ⟨0x094, 0x00000000#32, [⟨10, 0, .ro⟩]⟩,
    ⟨0x098, 0x00000000#32, [⟨2, 0, .ro⟩]⟩,
    ⟨0x09C, 0x00000000#32, [⟨6, 0, .rw⟩]⟩ ]

/-- Page 0x39, MLK: the common registers (R91). -/
def mlkCommon (page : Nat) : List RegDesc :=
  commonRegs page [] 0x00101000

/-- Key of MLK_CTRL. -/
def R.MLK_CTRL : Nat := 0x39080
/-- Key of MLK_CFG. -/
def R.MLK_CFG : Nat := 0x39084
/-- Key of MLK_TX. -/
def R.MLK_TX : Nat := 0x39088
/-- Key of MLK_TX_CTRL. -/
def R.MLK_TX_CTRL : Nat := 0x3908C
/-- Key of MLK_RX. -/
def R.MLK_RX : Nat := 0x39090
/-- Key of MLK_IRQ_LAST. -/
def R.MLK_IRQ_LAST : Nat := 0x39094
/-- Key of MLK_PINS. -/
def R.MLK_PINS : Nat := 0x39098
/-- Key of MLK_WAIT_MAX. -/
def R.MLK_WAIT_MAX : Nat := 0x3909C

/-- Page 0x3A, SNS: the registers of its own map. -/
def snsRegs : List RegDesc :=
  [ ⟨0x080, 0x00000000#32, [⟨1, 0, .rw⟩]⟩,
    ⟨0x084, 0x00000000#32, [⟨0, 0, .ro⟩, ⟨1, 1, .ro⟩]⟩,
    ⟨0x088, 0x00000000#32, [⟨31, 0, .ro⟩]⟩,
    ⟨0x08C, 0x00000000#32, [⟨31, 0, .ro⟩]⟩,
    ⟨0x090, 0x00000000#32, [⟨31, 0, .ro⟩]⟩,
    ⟨0x094, 0x00000000#32, [⟨31, 0, .ro⟩]⟩,
    ⟨0x098, 0x00000000#32, [⟨31, 0, .ro⟩]⟩,
    ⟨0x400, 0x00320190#32, [⟨10, 0, .rwx⟩, ⟨23, 16, .rwx⟩]⟩,
    ⟨0x404, 0x1404012C#32, [⟨10, 0, .rwx⟩, ⟨19, 16, .rwx⟩, ⟨31, 24, .rwx⟩]⟩,
    ⟨0x600, 0x00000000#32, [⟨3, 0, .rw⟩, ⟨10, 8, .rw⟩, ⟨12, 12, .rw⟩, ⟨18, 16, .rw⟩]⟩,
    ⟨0x604, 0x00000000#32, [⟨31, 0, .rwx⟩]⟩ ]

/-- Page 0x3A, SNS: the common registers (R91). -/
def snsCommon (page : Nat) : List RegDesc :=
  commonRegs page [] 0x00301011

/-- Key of SNS_PROFILE. -/
def R.SNS_PROFILE : Nat := 0x3A080
/-- Key of SNS_EVENT. -/
def R.SNS_EVENT : Nat := 0x3A084
/-- Key of SNS_S0. -/
def R.SNS_S0 : Nat := 0x3A088
/-- Key of SNS_S1. -/
def R.SNS_S1 : Nat := 0x3A08C
/-- Key of SNS_S2. -/
def R.SNS_S2 : Nat := 0x3A090
/-- Key of SNS_CNT_SHOCK. -/
def R.SNS_CNT_SHOCK : Nat := 0x3A094
/-- Key of SNS_CNT_RV. -/
def R.SNS_CNT_RV : Nat := 0x3A098
/-- Key of SNS_SHOCK. -/
def R.SNS_SHOCK : Nat := 0x3A400
/-- Key of SNS_RV. -/
def R.SNS_RV : Nat := 0x3A404
/-- Key of SNS_CORR_SEL. -/
def R.SNS_CORR_SEL : Nat := 0x3A600
/-- Key of SNS_CORR_DATA. -/
def R.SNS_CORR_DATA : Nat := 0x3A604

/-- Page 0x40, DDR: the registers of its own map. -/
def ddrRegs : List RegDesc :=
  [ ⟨0x080, 0x00000000#32, [⟨1, 0, .ro⟩]⟩,
    ⟨0x084, 0x00000000#32, [⟨10, 8, .ro⟩, ⟨6, 4, .ro⟩, ⟨2, 2, .ro⟩, ⟨1, 1, .ro⟩, ⟨0, 0, .ro⟩]⟩,
    ⟨0x088, 0x00000000#32, [⟨1, 0, .rw⟩]⟩,
    ⟨0x08C, 0x00000000#32, [⟨31, 0, .ro⟩]⟩,
    ⟨0x400, 0x00001310#32, [⟨12, 12, .rwx⟩, ⟨9, 9, .rwx⟩, ⟨8, 8, .rwx⟩, ⟨7, 0, .rwx⟩]⟩ ]

/-- Page 0x40, DDR: the common registers (R91). -/
def ddrCommon (page : Nat) : List RegDesc :=
  commonRegs page [] 0x00701021

/-- Key of DDR_CFG. -/
def R.DDR_CFG : Nat := 0x40080
/-- Key of DDR_STATUS. -/
def R.DDR_STATUS : Nat := 0x40084
/-- Key of DDR_PROFILE. -/
def R.DDR_PROFILE : Nat := 0x40088
/-- Key of DDR_RETRAIN_CNT. -/
def R.DDR_RETRAIN_CNT : Nat := 0x4008C
/-- Key of DDR_MAINT. -/
def R.DDR_MAINT : Nat := 0x40400

/-- Page 0x41, MEC: the registers of its own map. -/
def mecRegs : List RegDesc :=
  [ ⟨0x080, 0x00000000#32, [⟨0, 0, .ro⟩, ⟨10, 1, .ro⟩]⟩,
    ⟨0x084, 0x00000000#32, [⟨31, 0, .ro⟩]⟩,
    ⟨0x088, 0x00000000#32, [⟨31, 0, .ro⟩]⟩,
    ⟨0x08C, 0x00000000#32, [⟨31, 0, .ro⟩]⟩,
    ⟨0x090, 0x00000000#32, [⟨0, 0, .ro⟩, ⟨31, 3, .ro⟩]⟩,
    ⟨0x094, 0x00000000#32, [⟨3, 0, .ro⟩, ⟨15, 8, .ro⟩, ⟨22, 16, .ro⟩]⟩,
    ⟨0x098, 0x00000000#32, [⟨31, 0, .ro⟩]⟩,
    ⟨0x09C, 0x00000000#32, [⟨23, 0, .ro⟩]⟩,
    ⟨0x0A0, 0x00000000#32, [⟨6, 0, .ro⟩, ⟨31, 16, .ro⟩]⟩,
    ⟨0x0A4, 0x00000001#32, [⟨0, 0, .rw⟩]⟩,
    ⟨0x0A8, 0x00000000#32, [⟨31, 0, .ro⟩]⟩,
    ⟨0x0AC, 0x00000000#32, [⟨29, 0, .ro⟩]⟩,
    ⟨0x0B0, 0x00000000#32, [⟨1, 0, .rw⟩]⟩ ] ++
  regArray 0x100 4 0x00000000#32 [⟨31, 31, .rw⟩, ⟨23, 0, .rw⟩] 16 ++
  [ ⟨0x400, 0x02580040#32, [⟨7, 0, .rwx⟩, ⟨31, 16, .rwx⟩]⟩,
    ⟨0xF00, 0x00000000#32, [⟨0, 0, .rwd⟩]⟩,
    ⟨0xF04, 0x00000000#32, [⟨31, 0, .rwd⟩]⟩,
    ⟨0xF08, 0x00000000#32, [⟨3, 0, .rwd⟩]⟩,
    ⟨0xF0C, 0x00000000#32, [⟨31, 0, .rwd⟩]⟩,
    ⟨0xF10, 0x00000000#32, [⟨31, 0, .rwd⟩]⟩,
    ⟨0xF14, 0x00000000#32, [⟨7, 0, .rwd⟩, ⟨15, 8, .ro⟩]⟩,
    ⟨0xF18, 0x00000000#32, [⟨0, 0, .w1sd⟩, ⟨1, 1, .w1sd⟩, ⟨4, 4, .ro⟩]⟩ ]

/-- Page 0x41, MEC: the common registers (R91). -/
def mecCommon (page : Nat) : List RegDesc :=
  commonRegs page [] 0x00701021

/-- Key of MEC_FILL. -/
def R.MEC_FILL : Nat := 0x41080
/-- Key of MEC_CORR_CNT. -/
def R.MEC_CORR_CNT : Nat := 0x41084
/-- Key of MEC_UNCORR_CNT. -/
def R.MEC_UNCORR_CNT : Nat := 0x41088
/-- Key of MEC_POISON_SEEN. -/
def R.MEC_POISON_SEEN : Nat := 0x4108C
/-- Key of MEC_LAST_LO. -/
def R.MEC_LAST_LO : Nat := 0x41090
/-- Key of MEC_LAST_HI. -/
def R.MEC_LAST_HI : Nat := 0x41094
/-- Key of MEC_HARD_CNT. -/
def R.MEC_HARD_CNT : Nat := 0x41098
/-- Key of MEC_HARD_PAGE. -/
def R.MEC_HARD_PAGE : Nat := 0x4109C
/-- Key of MEC_TRACK. -/
def R.MEC_TRACK : Nat := 0x410A0
/-- Key of MEC_SCRUB_CTRL. -/
def R.MEC_SCRUB_CTRL : Nat := 0x410A4
/-- Key of SCRUB_LAP. -/
def R.SCRUB_LAP : Nat := 0x410A8
/-- Key of MEC_SCRUB_POS. -/
def R.MEC_SCRUB_POS : Nat := 0x410AC
/-- Key of MEC_PROFILE. -/
def R.MEC_PROFILE : Nat := 0x410B0
/-- Key of MEC_EXCL. -/
def R.MEC_EXCL (n : Nat) : Nat := 0x41100 + 4 * n
/-- Key of MEC_SCRUB_CFG. -/
def R.MEC_SCRUB_CFG : Nat := 0x41400
/-- Key of MEC_TEST_CTRL. -/
def R.MEC_TEST_CTRL : Nat := 0x41F00
/-- Key of MEC_TEST_ADDR_LO. -/
def R.MEC_TEST_ADDR_LO : Nat := 0x41F04
/-- Key of MEC_TEST_ADDR_HI. -/
def R.MEC_TEST_ADDR_HI : Nat := 0x41F08
/-- Key of MEC_TEST_DATA_LO. -/
def R.MEC_TEST_DATA_LO : Nat := 0x41F0C
/-- Key of MEC_TEST_DATA_HI. -/
def R.MEC_TEST_DATA_HI : Nat := 0x41F10
/-- Key of MEC_TEST_CHECK. -/
def R.MEC_TEST_CHECK : Nat := 0x41F14
/-- Key of MEC_TEST_CMD. -/
def R.MEC_TEST_CMD : Nat := 0x41F18

/-- Page 0x42, SEE: the registers of its own map. -/
def seeRegs : List RegDesc :=
  [ ⟨0x080, 0x00000000#32, [⟨0, 0, .ro⟩]⟩,
    ⟨0x084, 0x00000000#32, [⟨31, 0, .ro⟩]⟩,
    ⟨0x088, 0x00000000#32, [⟨31, 0, .ro⟩]⟩,
    ⟨0x08C, 0x00000000#32, [⟨31, 0, .ro⟩]⟩,
    ⟨0x090, 0x00000000#32, [⟨31, 3, .ro⟩]⟩,
    ⟨0x094, 0x00000000#32, [⟨0, 0, .ro⟩, ⟨6, 4, .ro⟩, ⟨15, 8, .ro⟩, ⟨22, 16, .ro⟩]⟩,
    ⟨0x098, 0x00000000#32, [⟨31, 0, .ro⟩]⟩,
    ⟨0x09C, 0x00000000#32, [⟨31, 3, .ro⟩]⟩,
    ⟨0x0A0, 0x00000000#32, [⟨4, 0, .ro⟩, ⟨31, 16, .ro⟩]⟩,
    ⟨0x0A4, 0x00000001#32, [⟨0, 0, .rw⟩]⟩,
    ⟨0x0A8, 0x00000000#32, [⟨31, 0, .ro⟩]⟩,
    ⟨0x0AC, 0x00000000#32, [⟨1, 0, .rw⟩]⟩,
    ⟨0x400, 0x00000010#32, [⟨6, 0, .rwx⟩]⟩,
    ⟨0xF00, 0x00000000#32, [⟨0, 0, .rwd⟩]⟩,
    ⟨0xF04, 0x00000000#32, [⟨31, 0, .rwd⟩]⟩,
    ⟨0xF0C, 0x00000000#32, [⟨31, 0, .rwd⟩]⟩,
    ⟨0xF10, 0x00000000#32, [⟨31, 0, .rwd⟩]⟩,
    ⟨0xF14, 0x00000000#32, [⟨7, 0, .rwd⟩, ⟨15, 8, .ro⟩]⟩,
    ⟨0xF18, 0x00000000#32, [⟨0, 0, .w1sd⟩, ⟨1, 1, .w1sd⟩, ⟨4, 4, .ro⟩]⟩ ]

/-- Page 0x42, SEE: the common registers (R91). -/
def seeCommon (page : Nat) : List RegDesc :=
  commonRegs page [] 0x00701021

/-- Key of SEE_FILL. -/
def R.SEE_FILL : Nat := 0x42080
/-- Key of SEE_CORR_CNT. -/
def R.SEE_CORR_CNT : Nat := 0x42084
/-- Key of SEE_UNCORR_CNT. -/
def R.SEE_UNCORR_CNT : Nat := 0x42088
/-- Key of SEE_POISON_SEEN. -/
def R.SEE_POISON_SEEN : Nat := 0x4208C
/-- Key of SEE_LAST_ADDR. -/
def R.SEE_LAST_ADDR : Nat := 0x42090
/-- Key of SEE_LAST_INFO. -/
def R.SEE_LAST_INFO : Nat := 0x42094
/-- Key of SEE_HARD_CNT. -/
def R.SEE_HARD_CNT : Nat := 0x42098
/-- Key of SEE_HARD_WORD. -/
def R.SEE_HARD_WORD : Nat := 0x4209C
/-- Key of SEE_TRACK. -/
def R.SEE_TRACK : Nat := 0x420A0
/-- Key of SEE_SCRUB_CTRL. -/
def R.SEE_SCRUB_CTRL : Nat := 0x420A4
/-- Key of SEE_LAP. -/
def R.SEE_LAP : Nat := 0x420A8
/-- Key of SEE_PROFILE. -/
def R.SEE_PROFILE : Nat := 0x420AC
/-- Key of SEE_SCRUB_CFG. -/
def R.SEE_SCRUB_CFG : Nat := 0x42400
/-- Key of SEE_TEST_CTRL. -/
def R.SEE_TEST_CTRL : Nat := 0x42F00
/-- Key of SEE_TEST_ADDR_LO. -/
def R.SEE_TEST_ADDR_LO : Nat := 0x42F04
/-- Key of SEE_TEST_DATA_LO. -/
def R.SEE_TEST_DATA_LO : Nat := 0x42F0C
/-- Key of SEE_TEST_DATA_HI. -/
def R.SEE_TEST_DATA_HI : Nat := 0x42F10
/-- Key of SEE_TEST_CHECK. -/
def R.SEE_TEST_CHECK : Nat := 0x42F14
/-- Key of SEE_TEST_CMD. -/
def R.SEE_TEST_CMD : Nat := 0x42F18

/-- Page 0x48, NFC: the registers of its own map. -/
def nfcRegs : List RegDesc :=
  [ ⟨0x080, 0x00000000#32, [⟨2, 0, .ro⟩, ⟨11, 8, .ro⟩, ⟨27, 16, .ro⟩]⟩,
    ⟨0x084, 0x00000000#32, [⟨0, 0, .ro⟩, ⟨1, 1, .ro⟩, ⟨2, 2, .ro⟩, ⟨3, 3, .ro⟩, ⟨4, 4, .ro⟩, ⟨5, 5, .ro⟩, ⟨6, 6, .ro⟩]⟩,
    ⟨0x088, 0x00000000#32, [⟨15, 0, .ro⟩]⟩,
    ⟨0x08C, 0x00000120#32, [⟨9, 0, .rw⟩]⟩,
    ⟨0x090, 0x00000000#32, [⟨8, 0, .ro⟩]⟩,
    ⟨0x094, 0x00000000#32, [⟨31, 0, .ro⟩]⟩,
    ⟨0x098, 0x00000000#32, [⟨15, 0, .ro⟩, ⟨24, 16, .ro⟩]⟩,
    ⟨0x09C, 0x00000000#32, [⟨5, 0, .ro⟩]⟩,
    ⟨0x0A0, 0x00000000#32, [⟨31, 0, .ro⟩]⟩,
    ⟨0x0A4, 0x00000000#32, [⟨31, 0, .rw⟩]⟩,
    ⟨0x0A8, 0x00000000#32, [⟨31, 12, .rw⟩]⟩,
    ⟨0x0AC, 0x00000000#32, [⟨3, 0, .rw⟩]⟩,
    ⟨0x0B0, 0x00000000#32, [⟨0, 0, .w1s⟩, ⟨1, 1, .ro⟩, ⟨6, 4, .ro⟩, ⟨31, 16, .ro⟩]⟩ ]

/-- Page 0x48, NFC: the common registers (R91). -/
def nfcCommon (page : Nat) : List RegDesc :=
  commonRegs page [] 0x00F01031

/-- Key of NFC_GEOM. -/
def R.NFC_GEOM : Nat := 0x48080
/-- Key of NFC_STATUS. -/
def R.NFC_STATUS : Nat := 0x48084
/-- Key of NFC_ERASED. -/
def R.NFC_ERASED : Nat := 0x48088
/-- Key of NFC_RESERVE. -/
def R.NFC_RESERVE : Nat := 0x4808C
/-- Key of NFC_EFF_LIMIT. -/
def R.NFC_EFF_LIMIT : Nat := 0x48090
/-- Key of NFC_SET. -/
def R.NFC_SET : Nat := 0x48094
/-- Key of NFC_LAST_SAVE. -/
def R.NFC_LAST_SAVE : Nat := 0x48098
/-- Key of NFC_BAD_BLOCKS. -/
def R.NFC_BAD_BLOCKS : Nat := 0x4809C
/-- Key of NFC_PROG_FAIL. -/
def R.NFC_PROG_FAIL : Nat := 0x480A0
/-- Key of NFC_RD_PAGE. -/
def R.NFC_RD_PAGE : Nat := 0x480A4
/-- Key of NFC_RD_DST_LO. -/
def R.NFC_RD_DST_LO : Nat := 0x480A8
/-- Key of NFC_RD_DST_HI. -/
def R.NFC_RD_DST_HI : Nat := 0x480AC
/-- Key of NFC_RD_CTRL. -/
def R.NFC_RD_CTRL : Nat := 0x480B0

/-- Page 0x49, OSP: the registers of its own map. -/
def ospRegs : List RegDesc :=
  [ ⟨0x080, 0x00000000#32, [⟨1, 0, .ro⟩, ⟨15, 8, .ro⟩]⟩,
    ⟨0x084, 0x00000000#32, [⟨31, 0, .rw⟩]⟩,
    ⟨0x088, 0x00000000#32, [⟨31, 4, .rw⟩]⟩,
    ⟨0x08C, 0x00000000#32, [⟨3, 0, .rw⟩]⟩,
    ⟨0x090, 0x00000000#32, [⟨31, 0, .rw⟩]⟩,
    ⟨0x094, 0x00000000#32, [⟨31, 31, .w1s⟩, ⟨30, 30, .ro⟩, ⟨26, 24, .ro⟩, ⟨2, 0, .rw⟩]⟩,
    ⟨0x098, 0x00000001#32, [⟨0, 0, .rw⟩]⟩,
    ⟨0x09C, 0x00000000#32, [⟨31, 0, .ro⟩]⟩ ]

/-- Page 0x49, OSP: the common registers (R91). -/
def ospCommon (page : Nat) : List RegDesc :=
  commonRegs page [] 0x00F01031

/-- Key of OSP_MODE. -/
def R.OSP_MODE : Nat := 0x49080
/-- Key of OSP_ADDR. -/
def R.OSP_ADDR : Nat := 0x49084
/-- Key of OSP_DRAM_LO. -/
def R.OSP_DRAM_LO : Nat := 0x49088
/-- Key of OSP_DRAM_HI. -/
def R.OSP_DRAM_HI : Nat := 0x4908C
/-- Key of OSP_LEN. -/
def R.OSP_LEN : Nat := 0x49090
/-- Key of OSP_CMD. -/
def R.OSP_CMD : Nat := 0x49094
/-- Key of OSP_PROTECT. -/
def R.OSP_PROTECT : Nat := 0x49098
/-- Key of OSP_ERR_CNT. -/
def R.OSP_ERR_CNT : Nat := 0x4909C

/-- Page 0x50, CPU: the registers of its own map. -/
def cpuRegs : List RegDesc :=
  [ ⟨0x080, 0x00000001#32, [⟨7, 0, .w1s⟩]⟩,
    ⟨0x084, 0x00000000#32, [⟨4, 4, .w1c⟩, ⟨3, 3, .w1c⟩, ⟨2, 2, .ro⟩, ⟨1, 1, .rw⟩, ⟨0, 0, .rw⟩]⟩,
    ⟨0x088, 0x00000000#32, [⟨4, 0, .rw⟩, ⟨31, 31, .ro⟩]⟩,
    ⟨0x08C, 0x00000000#32, [⟨15, 0, .rw⟩, ⟨19, 16, .rw⟩, ⟨20, 20, .rw⟩]⟩,
    ⟨0x090, 0x00000000#32, [⟨31, 31, .ro⟩, ⟨30, 29, .ro⟩, ⟨26, 16, .ro⟩, ⟨3, 0, .ro⟩]⟩,
    ⟨0x094, 0x00000000#32, [⟨31, 0, .ro⟩]⟩ ] ++
  regArray 0x0C0 4 0x00000000#32 [⟨31, 0, .rw⟩] 8 ++
  regArray 0x0E0 4 0x00000000#32 [⟨4, 4, .w1c⟩, ⟨3, 3, .w1s⟩, ⟨1, 1, .rw⟩, ⟨0, 0, .rw⟩] 6 ++
  regArray 0x100 32 0x00000000#32 [⟨31, 0, .rw⟩] 8 ++
  regArray 0x104 32 0x00000000#32 [⟨3, 0, .rw⟩] 8 ++
  regArray 0x108 32 0x00000000#32 [⟨10, 0, .rw⟩, ⟨19, 16, .rw⟩] 8 ++
  regArray 0x10C 32 0x00000000#32 [⟨9, 8, .ro⟩, ⟨7, 7, .w1c⟩, ⟨6, 6, .ro⟩, ⟨5, 4, .rw⟩, ⟨3, 2, .rw⟩, ⟨0, 0, .w1s⟩] 8 ++
  regArray 0x200 4 0x00000000#32 [⟨31, 31, .rw⟩, ⟨27, 24, .rw⟩, ⟨15, 0, .rw⟩] 16 ++
  regArray 0x300 16 0x00000000#32 [⟨31, 31, .w1c⟩, ⟨30, 30, .ro⟩, ⟨3, 0, .ro⟩] 8 ++
  regArray 0x304 16 0x00000000#32 [⟨31, 0, .ro⟩] 8 ++
  regArray 0x308 16 0x00000000#32 [⟨3, 0, .ro⟩] 8 ++
  regArray 0x30C 16 0x0000003F#32 [⟨21, 16, .wo⟩, ⟨11, 8, .ro⟩, ⟨6, 6, .ro⟩, ⟨5, 0, .ro⟩] 8 ++
  [ ⟨0xF00, 0x00000000#32, [⟨10, 0, .rwd⟩, ⟨19, 16, .rwd⟩, ⟨20, 20, .rwd⟩, ⟨31, 31, .w1sd⟩]⟩ ]

/-- Page 0x50, CPU: the common registers (R91). -/
def cpuCommon (page : Nat) : List RegDesc :=
  commonRegs page [] 0x00701021

/-- Key of CPU_RELEASE. -/
def R.CPU_RELEASE : Nat := 0x50080
/-- Key of CPU_L2_CTRL. -/
def R.CPU_L2_CTRL : Nat := 0x50084
/-- Key of CPU_L2_CARVE. -/
def R.CPU_L2_CARVE : Nat := 0x50088
/-- Key of CPU_L2_LOCK. -/
def R.CPU_L2_LOCK : Nat := 0x5008C
/-- Key of CPU_FATAL. -/
def R.CPU_FATAL : Nat := 0x50090
/-- Key of CPU_PAR_CLEAN_CNT. -/
def R.CPU_PAR_CLEAN_CNT : Nat := 0x50094
/-- Key of CPU_BOOT_ADDR. -/
def R.CPU_BOOT_ADDR (n : Nat) : Nat := 0x500C0 + 4 * n
/-- Key of CPU_L1_CTRL. -/
def R.CPU_L1_CTRL (n : Nat) : Nat := 0x500E0 + 4 * n
/-- Key of CPU_CM_ADDR_LO. -/
def R.CPU_CM_ADDR_LO (n : Nat) : Nat := 0x50100 + 32 * n
/-- Key of CPU_CM_ADDR_HI. -/
def R.CPU_CM_ADDR_HI (n : Nat) : Nat := 0x50104 + 32 * n
/-- Key of CPU_CM_SETWAY. -/
def R.CPU_CM_SETWAY (n : Nat) : Nat := 0x50108 + 32 * n
/-- Key of CPU_CM_CMD. -/
def R.CPU_CM_CMD (n : Nat) : Nat := 0x5010C + 32 * n
/-- Key of CPU_ATTR. -/
def R.CPU_ATTR (n : Nat) : Nat := 0x50200 + 4 * n
/-- Key of CPU_ABT. -/
def R.CPU_ABT (n : Nat) : Nat := 0x50300 + 16 * n
/-- Key of CPU_ABT_ADDR_LO. -/
def R.CPU_ABT_ADDR_LO (n : Nat) : Nat := 0x50304 + 16 * n
/-- Key of CPU_ABT_ADDR_HI. -/
def R.CPU_ABT_ADDR_HI (n : Nat) : Nat := 0x50308 + 16 * n
/-- Key of CPU_IRQ. -/
def R.CPU_IRQ (n : Nat) : Nat := 0x5030C + 16 * n
/-- Key of CPU_INJECT. -/
def R.CPU_INJECT : Nat := 0x50F00

/-- Page 0x51, INT: the registers of its own map. -/
def intRegs : List RegDesc :=
  [ ⟨0x080, 0x00000000#32, [⟨31, 0, .ro⟩]⟩,
    ⟨0x084, 0x00000000#32, [⟨31, 0, .ro⟩]⟩,
    ⟨0x088, 0x00000000#32, [⟨15, 0, .w1c⟩]⟩,
    ⟨0x08C, 0x00000000#32, [⟨15, 0, .wo⟩]⟩ ] ++
  regArray 0x100 4 0x00000001#32 [⟨11, 8, .rw⟩, ⟨7, 0, .rw⟩] 64

/-- Page 0x51, INT: the common registers (R91). -/
def intCommon (page : Nat) : List RegDesc :=
  commonRegs page [] 0x00101000

/-- Key of INT_LINE_LO. -/
def R.INT_LINE_LO : Nat := 0x51080
/-- Key of INT_LINE_HI. -/
def R.INT_LINE_HI : Nat := 0x51084
/-- Key of INT_SWI. -/
def R.INT_SWI : Nat := 0x51088
/-- Key of INT_SWI_SET. -/
def R.INT_SWI_SET : Nat := 0x5108C
/-- Key of INT_ROUTE. -/
def R.INT_ROUTE (n : Nat) : Nat := 0x51100 + 4 * n

/-- Page 0x58, DBG: the registers of its own map. -/
def dbgRegs : List RegDesc :=
  [ ⟨0x080, 0x00000000#32, [⟨0, 0, .rw⟩, ⟨5, 4, .rw⟩]⟩,
    ⟨0x084, 0x00000000#32, [⟨0, 0, .rw⟩, ⟨1, 1, .rw⟩, ⟨2, 2, .rw⟩, ⟨15, 8, .rw⟩, ⟨16, 16, .rw⟩]⟩,
    ⟨0x088, 0x00000000#32, [⟨31, 0, .ro⟩]⟩,
    ⟨0x08C, 0x00000000#32, [⟨31, 0, .rw⟩]⟩,
    ⟨0x090, 0x00000000#32, [⟨3, 0, .rw⟩, ⟨23, 8, .rw⟩]⟩,
    ⟨0x094, 0x00000000#32, [⟨0, 0, .ro⟩, ⟨1, 1, .w1c⟩]⟩,
    ⟨0x098, 0x00000000#32, [⟨1, 0, .rw⟩]⟩,
    ⟨0x09C, 0x00000000#32, [⟨7, 0, .wo⟩]⟩,
    ⟨0x0A0, 0x00000000#32, [⟨7, 0, .ro⟩, ⟨31, 31, .ro⟩]⟩,
    ⟨0x0A4, 0x00000000#32, [⟨5, 0, .ro⟩, ⟨13, 8, .ro⟩, ⟨16, 16, .ro⟩]⟩ ]

/-- Page 0x58, DBG: the common registers (R91). -/
def dbgCommon (page : Nat) : List RegDesc :=
  commonRegs page [] 0x00F01031

/-- Key of DBG_TRC_CTRL. -/
def R.DBG_TRC_CTRL : Nat := 0x58080
/-- Key of DBG_TRC_SEL. -/
def R.DBG_TRC_SEL : Nat := 0x58084
/-- Key of DBG_TRC_DROP. -/
def R.DBG_TRC_DROP : Nat := 0x58088
/-- Key of DBG_WATCH_LO. -/
def R.DBG_WATCH_LO : Nat := 0x5808C
/-- Key of DBG_WATCH_HI. -/
def R.DBG_WATCH_HI : Nat := 0x58090
/-- Key of DBG_JTAG. -/
def R.DBG_JTAG : Nat := 0x58094
/-- Key of DBG_UART_CFG. -/
def R.DBG_UART_CFG : Nat := 0x58098
/-- Key of DBG_UART_TX. -/
def R.DBG_UART_TX : Nat := 0x5809C
/-- Key of DBG_UART_RX. -/
def R.DBG_UART_RX : Nat := 0x580A0
/-- Key of DBG_UART_STATUS. -/
def R.DBG_UART_STATUS : Nat := 0x580A4

/-- The register table of a page; a page that is not populated has none (R86, R90). -/
def pageRegs : Nat → List RegDesc
  | 0x00 => sysCommon 0x00 ++ sysRegs
  | 0x01 => clkCommon 0x01 ++ clkRegs
  | 0x02 => pwrCommon 0x02 ++ pwrRegs
  | 0x03 => lcsCommon 0x03 ++ lcsRegs
  | 0x04 => evrCommon 0x04 ++ evrRegs
  | 0x05 => jnlCommon 0x05 ++ jnlRegs
  | 0x06 => calCommon 0x06 ++ calRegs
  | 0x07 => bstCommon 0x07 ++ bstRegs
  | 0x08 => dtmCommon 0x08 ++ dtmRegs
  | 0x10 => hifCommon 0x10 ++ hifRegs
  | 0x11 => nvqCommon 0x11 ++ nvqRegs
  | 0x12 => segCommon 0x12 ++ segRegs
  | 0x18 => locCommon 0x18 ++ locRegs
  | 0x19 => bclCommon 0x19 ++ bclRegs
  | 0x1A => secCommon 0x1A ++ secRegs
  | 0x20 => ch_rdCommon 0x20 ++ ch_rdRegs
  | 0x28 => ch_rdCommon 0x28 ++ ch_rdRegs
  | 0x21 => ch_wrCommon 0x21 ++ ch_wrRegs
  | 0x29 => ch_wrCommon 0x29 ++ ch_wrRegs
  | 0x22 => ch_svCommon 0x22 ++ ch_svRegs
  | 0x2A => ch_svCommon 0x2A ++ ch_svRegs
  | 0x23 => ch_asCommon 0x23 ++ ch_asRegs
  | 0x2B => ch_asCommon 0x2B ++ ch_asRegs
  | 0x24 => cleCommon 0x24 ++ cleRegs
  | 0x2C => cleCommon 0x2C ++ cleRegs
  | 0x30 => chdCommon 0x30 ++ chdRegs
  | 0x38 => ovlCommon 0x38 ++ ovlRegs
  | 0x39 => mlkCommon 0x39 ++ mlkRegs
  | 0x3A => snsCommon 0x3A ++ snsRegs
  | 0x40 => ddrCommon 0x40 ++ ddrRegs
  | 0x41 => mecCommon 0x41 ++ mecRegs
  | 0x42 => seeCommon 0x42 ++ seeRegs
  | 0x48 => nfcCommon 0x48 ++ nfcRegs
  | 0x49 => ospCommon 0x49 ++ ospRegs
  | 0x50 => cpuCommon 0x50 ++ cpuRegs
  | 0x51 => intCommon 0x51 ++ intRegs
  | 0x58 => dbgCommon 0x58 ++ dbgRegs
  | _ => []

/-- Whether a page number is in the page table of R90. -/
def populated (page : Nat) : Bool := !(pageRegs page).isEmpty

/-- The register a key names, if its page map defines one. -/
def regDesc (k : Nat) : Option RegDesc := (pageRegs (k / 4096)).find? (fun d => d.off == k % 4096)

/-- What a register nothing has written holds: its reset value. -/
def regReset (k : Nat) : Word := ((regDesc k).map RegDesc.reset).getD 0

end Sys2Proof.Machine
end

