-- ==== Sys2Proof/Machine/State.lean ====
section
/-! DEFINITION. The state of the block as plain data: every register, queue, buffer, counter,
mode and pin the spec gives it, the non-volatile memories, and the queue of waiting commands.
A register that no field below holds lives in `regs` under its key (page * 0x1000 + offset). -/

namespace Sys2Proof.Machine

open Sys2Proof

/-- Why the block stops. Nothing in the model raises it: every command of the table has an
effect or none, so the type has the one reason the step never gives. Safe: a stop proves nothing. -/
inductive Fault where
  /-- The table names no command that stops the block. Raised by nobody; safe. -/
  | stopped
  deriving DecidableEq, Repr

/-- Why a command has no meaning. -/
inductive Refusal where
  /-- A command that has no meaning yet; raised by `exec` alone. Safe. -/
  | notModelled (mnemonic : String)
  deriving DecidableEq, Repr

/-! ### SYS, LCS and fuses -/

/-- The six modes of R31, in the order of their codes. -/
inductive Mode where
  | boot | calibrate | service | rest | rebuild | holdup
  deriving DecidableEq, Repr

/-- A mode transition in progress (R35): the mode it leads to and, for REST, the sub-state. -/
structure Transition where
  target : Mode
  sub : Nat
  deriving DecidableEq, Repr

/-- A reset source of R42 that runs HOLDUP first, and the HOLDUP begun by a supply event. -/
inductive HoldupCause where
  | supply | pin | wdog | swreset
  deriving DecidableEq, Repr

/-- HOLDUP in progress (R474): who began it, whether a save is due, and how far it has come. -/
structure Holdup where
  cause : HoldupCause
  /-- HOLDUP began during BOOT: the cores are stopped (R53). -/
  inBoot : Bool
  /-- Write staging was dirty at entry, so steps 7 to 11 run (R476). -/
  saveDue : Bool
  /-- SAVE_COMMIT is complete. -/
  saved : Bool
  /-- Step 12: the chip is parked. -/
  parked : Bool
  deriving DecidableEq, Repr

/-- Mode and reset state of the SYS page. -/
structure Sys where
  /-- The mode (R31). -/
  mode : Mode := .boot
  /-- Actuators in calibration (R32). -/
  calA : Bool := false
  calB : Bool := false
  /-- 0 not in REST, 1 spinning, 2 spun down (R33). -/
  restSub : Nat := 0
  /-- The transition in progress (R35). -/
  trans : Option Transition := none
  /-- A SYS_MODE_REQ request is accepted and in progress. -/
  reqBusy : Bool := false
  /-- HOLDUP in progress (R474). -/
  holdup : Option Holdup := none
  /-- BOOT has begun: the internal reset has risen (R46). -/
  booting : Bool := false
  /-- The part was BLANK at step 3, so this BOOT ends at step 9 (R624). -/
  blankBoot : Bool := false
  /-- BOOT ended without firmware (R49, R430). -/
  bootFailed : Bool := false
  /-- DTIME of the last restart of the watchdog timeout (R45). -/
  wdogFrom : BitVec 64 := 0
  /-- VDD_CORE or VDD_AN was below its Min at the last measurement (R593). -/
  railLow : Bool := false
  /-- Power-cycle count of this cycle is committed (R463). -/
  pccCommitted : Bool := false
  deriving DecidableEq, Repr

/-- The fused life-cycle states (R62). -/
inductive Life where
  | blank | manufacture | deployed | retired
  deriving DecidableEq, Repr

/-- A life-cycle fuse row (R62). -/
inductive FuseRow where
  | unprogrammed | partly | programmed
  deriving DecidableEq, Repr

/-- A repair fuse entry (R574, R575): the array, sub-array and spare it serves and the row or bit
position it replaces. -/
structure RepairEntry where
  test : Nat
  sub : Nat
  spare : Nat
  position : Nat
  deriving DecidableEq, Repr

/-- The fuses of the part. -/
structure Fuses where
  rowManufacture : FuseRow := .unprogrammed
  rowDeployed : FuseRow := .unprogrammed
  rowRetired : FuseRow := .unprogrammed
  /-- Tier S (R1). -/
  tierS : Bool := false
  serial : BitVec 64 := 0
  /-- The image key and unlock key rows are programmed (R64). -/
  imageKey : Bool := false
  unlockKey : Bool := false
  /-- Repair fuse rows that read back good, and the rows used of the 96 (R575). -/
  repairs : List RepairEntry := []
  repairRows : Nat := 0
  deriving DecidableEq, Repr

/-- Work of LCS while LCS_TOKEN_STATUS.BUSY is 1. -/
inductive LcsJob where
  /-- A token's check: the RESULT its fields give before the signature (0 none fails) and its KIND. -/
  | verify (early kind : Nat)
  /-- A row is being programmed; `byToken` for a token of KIND 2 (R64). -/
  | program (target : Life) (byToken : Bool)
  deriving DecidableEq, Repr

/-- State of the LCS page (R62 to R79). -/
structure Lcs where
  /-- The fused state as read from the rows. -/
  fused : Life := .blank
  /-- DIAGNOSTIC is in force (R63). -/
  diagnostic : Bool := false
  tierS : Bool := false
  nonce : BitVec 64 := 0
  job : Option LcsJob := none
  attempts : Nat := 0
  /-- STARTs without success in this power cycle (R71). -/
  failures : Nat := 0
  result : Nat := 0
  /-- LCS_TOKEN, word by word. -/
  token : SMap Word := []
  deriving DecidableEq, Repr

/-! ### Boot loader over the UART -/

/-- The UART download of R57 to R59. -/
structure UartLoad where
  /-- The first packet start has arrived, so the sync byte stops. -/
  started : Bool := false
  /-- An accepted HEADER, as its 256 bytes. -/
  header : Option (List Byte) := none
  /-- Body bytes received so far. -/
  received : Nat := 0
  deriving DecidableEq, Repr

/-! ### The event recorder -/

/-- An event as a block hands it over (R525). -/
structure Event where
  code : Nat
  sev : Nat
  items : List DWord
  dtime : BitVec 64
  /-- Occurrences merged at intake. -/
  repeats : Nat := 0
  deriving DecidableEq, Repr

/-- Where the last record written stands (R525). -/
inductive LastRec where
  | nowhere
  | general (word : Nat) (code : Nat)
  | floor (word : Nat) (code : Nat)
  | mirror (word : Nat) (code : Nat)
  deriving DecidableEq, Repr

/-- State of the event recorder beside its registers and the log words in MRAM. -/
structure Evr where
  queue : List Event := []
  /-- Root fields (R523), in words. -/
  gtail : Nat := 0
  ghead : Nat := 0
  ftail : Nat := 0
  fhead : Nat := 0
  gused : Nat := 0
  fused : Nat := 0
  nInfo : Nat := 0
  nNotice : Nat := 0
  nError : Nat := 0
  nFatal : Nat := 0
  /-- Root slot written last (0 or 1) and its SEQ. -/
  rootSlot : Nat := 1
  rootSeq : Nat := 0
  /-- QUEUE and FULL drops since MANUFACTURE (R523). -/
  dropQ : Nat := 0
  dropF : Nat := 0
  /-- Drops since the last DROPPED record, their first and last times and highest SEV (R526). -/
  pendQ : Nat := 0
  pendF : Nat := 0
  pendFirst : BitVec 64 := 0
  pendLast : BitVec 64 := 0
  pendSev : Nat := 0
  last : LastRec := .nowhere
  /-- The recorder writes from step 11 of BOOT (R534). -/
  started : Bool := false
  /-- HOLDUP has stopped operations (R534). -/
  stopped : Bool := false
  degraded : Bool := false
  /-- Words of the mirror page being filled and its INDEX (R533). -/
  mirror : List DWord := []
  mirrorIndex : Nat := 0
  deriving DecidableEq, Repr

/-! ### The journal -/

/-- A hot map entry as a record carries it (R467). -/
structure HotRec where
  kind : Nat
  zone : Nat
  unit : Nat
  csec : Nat
  gen : Nat
  deriving DecidableEq, Repr

/-- The records of the map journal (R459, R467 to R469, R483), by type. Bands are keys:
actuator * 262,144 + band number. -/
inductive Rec where
  | ckptStart (set epoch : Nat)
  | ckptDone (set place dirA dirB dirNand pages crc : Nat)
  | mwp (zone gen flags mwp live wtime tmin tmax : Nat) (ranges : List (Nat × Nat))
  | alloc (zone gen band ann rewrites : Nat) (salt : BitVec 128)
  | zoneState (zone gen newState newGen mwp live : Nat)
  | hot (act : Nat) (entries : List HotRec)
  | bandState (band state flags wfaults : Nat)
  | partition (cA cB n3 n4A n4B opA opB : Nat)
  | bclBegin (zone gen flags job src dst ann : Nat) (salt : BitVec 128)
  | bclCommit (zone gen flags job src dst ann mwp live merged lost wtime tmin tmax : Nat)
  | bclRelease (flags job band : Nat)
  | bclFree (flags job band : Nat)
  | segStore (key : List Byte) (flags ann act len expires zone first count gen : Nat)
  | segAppend (key : List Byte) (flags ann act len expires zone fin gen : Nat)
  | segExtent (key : List Byte) (index zone first count gen : Nat)
  | segDelete (key : List Byte) (flags : Nat)
  | segReclaim (key : List Byte) (flags expires : Nat)
  | segMigrate (key : List Byte) (index oldZone oldFirst zone first gen count : Nat)
  | segDamaged (key : List Byte)
  | secDestroy (scope nsid band : Nat)
  | saveCommit (set page units : Nat)
  | saveRetire (set : Nat)
  | firmware (typ oplen : Nat) (payload : List Byte)
  deriving DecidableEq, Repr

/-- Who hands records to the journal port (R17, R455). -/
inductive JnlSource where
  | locus | bcl | seg | sec | nfc | firmware | checkpoint
  deriving DecidableEq, Repr

/-- A completion queue entry's content: who it is for, its status and its double word 0 (and 1). -/
structure Completion where
  cntl : Nat
  qid : Nat
  cid : Nat
  sct : Nat := 0
  sc : Nat := 0
  dnr : Bool := false
  dw0 : Nat := 0
  dw1 : Nat := 0
  /-- Fetch order of the command meant, while the completion waits: identifiers are used again. -/
  seq : Option Nat := none
  deriving DecidableEq, Repr

/-- An operation handed to the journal port whose first record waits under R19, with the host
commands that complete once it is in the journal. -/
structure JnlOp where
  src : JnlSource
  recs : List Rec
  posts : List Completion
  deriving DecidableEq, Repr

/-- A checkpoint in progress (R472): SET, the cut, the epoch group in use from the cut and the
starts made so far (R473). -/
structure Ckpt where
  set : Nat
  cutSlot : Nat
  cutSeq : Nat
  epoch : Nat
  starts : Nat
  deriving DecidableEq, Repr

/-- State of the journal beside the MRAM words. -/
structure Jnl where
  head : Nat := 0
  headSeq : Nat := 0
  tail : Nat := 0
  tailSeq : Nat := 0
  /-- Occupied slots of the map journal. -/
  used : Nat := 0
  /-- An open operation of the firmware port: PARTS and the PART due next (R461). -/
  openOp : Option (Nat × Nat) := none
  failed : Bool := false
  ckpt : Option Ckpt := none
  /-- Checkpoint asked for while one runs, for a secure discard (R250). -/
  ckptNext : Bool := false
  /-- SET of the latest completed checkpoint, and the epoch group in force (R462, R250). -/
  set : Nat := 0
  epoch : Nat := 9
  /-- The epoch group records are written under (R250). -/
  writeEpoch : Nat := 9
  /-- Operations whose first record waits (R19). -/
  waiting : List JnlOp := []
  /-- Next slot of the history ring (32 to 255) and next SEQ (R470). -/
  histSlot : Nat := 32
  histSeq : Nat := 0
  /-- Counter group 0 (R465, R477). -/
  optime : Nat := 0
  pcc : Nat := 0
  unsafeCount : Nat := 0
  /-- After step 6 of R474 the port takes only NFC's save (R460). -/
  closed : Bool := false
  /-- Operations replayed in this BOOT, applied to the map at step 14 (R203). -/
  replayed : List (List Rec) := []
  deriving DecidableEq, Repr

/-! ### Device time -/

/-- DTIME and its comparison (R107 to R109). -/
structure Dtm where
  dtime : BitVec 64 := 0
  /-- The device clocks run (step 2 of R46). -/
  running : Bool := false
  /-- Latch of DTIME[63:32], per master. -/
  latches : SMap Word := []
  compare : BitVec 64 := 0xFFFFFFFFFFFFFFFF
  armed : Bool := false
  deriving DecidableEq, Repr

/-! ### Host interface and queueing -/

/-- A submission queue of one controller. -/
structure Sq where
  cntl : Nat
  qid : Nat
  size : Nat
  head : Nat := 0
  tail : Nat := 0
  cqid : Nat
  /-- Namespaces seen since creation: 0 none, 1, 2, 3 mixed (R148). -/
  binding : Nat := 0
  /-- Actuators of the last command issued (R124): 0 none, 1 A, 2 B, 3 both. -/
  last : Nat := 0
  deriving DecidableEq, Repr

/-- A completion queue of one controller. -/
structure Cq where
  cntl : Nat
  qid : Nat
  size : Nat
  head : Nat := 0
  tail : Nat := 0
  /-- Its interrupt vector, and whether it interrupts (R111, R118). -/
  vector : Nat := 0
  ien : Bool := true
  deriving DecidableEq, Repr

/-- Where a fetched command stands. -/
inductive Phase where
  /-- Fetched and checked, nothing done yet. -/
  | fetched
  /-- Accepted for staging, its data transfer held under R21. -/
  | held
  /-- Its data is being transferred into staging. -/
  | transferring
  /-- Its media or background work is under way. -/
  | working
  /-- Decided; its completion waits for its place in the queue's order. -/
  | done
  deriving DecidableEq, Repr

/-- Bytes of a value in staging, as a Retrieve found them: their offset, and whether they are poisoned. -/
structure Piece where
  offset : Nat
  bytes : List Byte
  bad : Bool
  deriving DecidableEq, Repr

/-- A command in flight (R115). -/
structure InCmd where
  cntl : Nat
  qid : Nat
  cid : Nat
  /-- Order of fetch over all queues. -/
  seq : Nat
  cmd : HostCmd
  /-- Acceptance sequence of a write (R127). -/
  order : Nat := 0
  phase : Phase := .fetched
  /-- Zone and first unit given at acceptance (R127). -/
  zone : Nat := 0
  first : Nat := 0
  /-- 64 KiB units not yet power-safe. -/
  units : List Nat := []
  /-- Units of this command that are power-safe. -/
  safe : List Nat := []
  /-- Bands its reads resolved to (R23), as keys. -/
  bands : List Nat := []
  /-- DTIME at issue to the actuator, once issued (R142). -/
  issued : Option (BitVec 64) := none
  result : Option Completion := none
  /-- Its wait under R124 has been counted. -/
  mixed : Bool := false
  /-- For a read whose media work is under way: each LBA with what it resolved to, none for an LBA
  the media must give (R22). -/
  resolved : List (Nat × Option ReadResult) := []
  /-- For a Retrieve: the value's length at acceptance, its digest where its header was in staging, and what
  staging held of it (R163). -/
  length : Nat := 0
  digest : Option (BitVec 256) := none
  pieces : List Piece := []
  /-- GEN of a write's zone at acceptance (R214). -/
  gen : Nat := 0
  /-- A deallocation waits for a hot map slot (R201). -/
  slotWait : Bool := false
  /-- Keys of namespace 4 that a Format or Sanitize has still to delete (R242). -/
  keys : List (List Byte) := []
  /-- Units whose sectors were confirmed in slots of this command (R26), by unit number over all zones. -/
  got : List Nat := []
  deriving DecidableEq, Repr

/-- A 64 KiB unit in write staging (R126, R482). -/
structure Staged where
  nsid : Nat
  zone : Nat
  /-- Unit number, within the zone, of the LBA the aligned 64 KiB begin with. -/
  unit : Nat
  /-- LBAs of the 64 KiB that are staged, by their offset 0 to 15, and their data. -/
  data : SMap Block
  /-- Poisoned 8-byte words of the 64 KiB, by number. -/
  poison : List Nat := []
  /-- NVQ's acceptance sequence (R127). -/
  order : Nat
  /-- Fetch order of the command that brought it, and its queue (controller * 65,536 + queue). -/
  seq : Nat
  queue : Nat := 0
  /-- LBAs of the unit whose data is on the media while the record that makes it reachable is not yet
  complete (R207). -/
  media : List Nat := []
  /-- For namespace 4: the key and the byte offset in the value. -/
  key : List Byte := []
  offset : Nat := 0
  /-- For namespace 4: CDW12 and CDW13 of the Store. -/
  cdw12 : Nat := 0
  cdw13 : Nat := 0
  /-- For namespace 4: bytes of the value it carries. -/
  len : Nat := 0
  /-- Restored from the save set with this SET (R484). -/
  restored : Bool := false
  /-- Its place in the order in which units were staged. -/
  stamp : Nat := 0
  deriving DecidableEq, Repr

/-- A controller's NVMe registers and host-visible settings. -/
structure Cntl where
  en : Bool := false
  rdy : Bool := false
  cfs : Bool := false
  /-- CSTS.SHST: 0 normal, 1 in progress, 2 complete. -/
  shst : Nat := 0
  /-- The shutdown in progress is abrupt (R476). -/
  abrupt : Bool := false
  asqs : Nat := 0
  acqs : Nat := 0
  /-- Outstanding Asynchronous Event Requests are commands in flight; notices wait here. -/
  notices : List Nat := []
  /-- Feature values written by Set Features, by identifier; unlisted is the default. -/
  features : SMap Nat := []
  /-- The MSI-X table by word (R112), its pending bits, and what interrupt coalescing has gathered (R119): by
  vector the completions and the DTIME of the first. -/
  msix : SMap Word := []
  pba : List Nat := []
  gathered : SMap Nat := []
  since : SMap Nat := []
  deriving DecidableEq, Repr

/-- The state of NVQ. -/
structure Nvq where
  c1 : Cntl := {}
  c2 : Cntl := {}
  sqs : List Sq := []
  cqs : List Cq := []
  inflight : List InCmd := []
  nextSeq : Nat := 0
  nextOrder : Nat := 0
  staging : List Staged := []
  /-- Units staged so far: the next unit's `stamp`. -/
  staged : Nat := 0
  /-- Round-robin position: the queue index served next (R122). -/
  rr : Nat := 0
  /-- Firmware activation in progress (R136): the commit's place. -/
  activating : Option (Nat × Nat × Nat) := none
  /-- The firmware image downloaded so far, by byte (R135). -/
  image : SMap Byte := []
  /-- Slot activated at the next controller reset (R135); 0 none. -/
  fwNext : Nat := 0
  /-- Firmware versions stored in slots 1 and 2 and the running slot (R120). -/
  fwSlot1 : Nat := 0
  fwSlot2 : Nat := 0
  fwRunning : Nat := 1
  /-- Power state reported (R121). -/
  ps : Nat := 0
  /-- Namespaces in Calken Secure Discard Mode (R119). -/
  secure : List Nat := []
  /-- Changed zones and namespaces for the logs of R120. -/
  changedZones : List Nat := []
  changedNs : List Nat := []
  /-- Error Information entries (R120), newest first, at most 64. -/
  errors : List Completion := []
  /-- Errors reported since the log began: the newest entry's count. -/
  errorCount : Nat := 0
  /-- Device Self-test: 0 idle, 1 short, 2 extended. -/
  selfTest : Nat := 0
  /-- Self-tests that have ended, newest first: their code and result. -/
  selfResults : List (Nat × Nat) := []
  deriving DecidableEq, Repr

/-- One phase of the timing and gain loops of a sector (R261): the bit it begins with, whether the decisions are the
known preamble or those of the detector, the exponents of the loop gains, and the amplitude the gain loop drives the
detector input to; it holds its gain where there is none. -/
structure LoopPhase where
  first : Nat
  known : Bool
  kp : Nat
  ki : Nat
  drive : Option Nat
  deriving DecidableEq, Repr

/-- The settings of the read path for one descriptor (R253, R254, R261, R278 to R281): the bit rate; for each path the
equaliser's boost in half-dB and the ADC's offset and gain corrections; the FIR taps that feed the target, the half
not read at 0; the target taps; the scale of the log-likelihood ratios in sixteenths; the step of the adaptation,
none where the taps stay; the loops; the blank level in ADC codes; and the tolerance of the sync mark. -/
structure ReadSetup where
  bitrate : Nat
  boost : List Nat
  adc : List (Int × Int)
  fir : List Int
  target : List Int
  llr : Nat
  mu : Option Nat
  loops : List LoopPhase
  blank : Nat
  tol : Nat
  deriving DecidableEq, Repr

/-- The form of CHx_AS for one descriptor (R330): the mode, the edges of a pulse in taps after the unshifted bit
boundary, and the nanoseconds of lead and tail of the envelope. -/
structure AssistForm where
  mode : Nat := 0
  rise : Nat := 0
  fall : Nat := 0
  lead : Nat := 0
  tail : Nat := 0
  deriving DecidableEq, Repr

/-- A sector as it leaves for the media: the user bytes and the 32 metadata bytes as recorded (R259, R260), every bit
of the field in the order recorded (R256), the taps by which the transition at each bit moves earlier (R324), and the
form of the assist. -/
structure Recorded where
  user : Block
  info : List Byte
  field : List Bool
  early : List Nat
  assist : AssistForm
  deriving DecidableEq, Repr

/-- What the block sends out of the chip, in order. -/
inductive Out where
  | completion (c : Completion)
  /-- An MSI-X message of a controller: its vector and the words of its table entry. -/
  | msix (cntl vector : Nat) (addr : DWord) (data : Word)
  /-- Data moved to the host: the command and the blocks or bytes, with the EP mark per block. -/
  | blocks (cntl qid cid : Nat) (data : List (Block × Bool))
  | bytes (cntl qid cid : Nat) (data : List Byte) (ep : Bool := false)
  /-- An asynchronous notice: event type and information. -/
  | notice (cntl : Nat) (info : Nat)
  /-- A read descriptor begins on the media with these settings of the read path. -/
  | reads (act : Act) (words : DescWords) (setup : ReadSetup)
  /-- A sector written to the media. -/
  | sector (act : Act) (head track sector : Nat) (as_ : Recorded)
  | uart (b : Byte)
  | smbus (data : List Byte)
  | config (value : Word)
  | trace (packet : List Byte)
  | ovlFrame (preamp : Act) (frame : BitVec 40)
  | mlkFrame (frame : BitVec 32)
  /-- A new microactuator code at the DAC of an actuator (R5). -/
  | dac (act : Act) (code : Int)
  | nandPage (kind set index : Nat)
  /-- Bytes programmed into the octal NOR, and an erase of a range of it (R60, R61). -/
  | norProgram (addr : Nat) (data : List Byte)
  | norErase (addr len : Nat)
  /-- What a core's load or a register read returned, least significant byte first (R88, R108, R623). -/
  | read (data : List Byte)
  | load (core : Nat) (data : List Byte)
  /-- Where Locus found an LBA and its retention class, for the real-time core (R196, R212): the band, the
  media-cache sector or the unit of the conventional region, and for a band its head, track and sector. -/
  | locate (lba : Nat) (act : Act) (kind place : Nat) (at_ : Option (Nat × Nat × Nat)) (cls : Nat)
  | jtag (bits : Nat) (value : BitVec 128)
  /-- Boundary-scan values driven at the balls. -/
  | balls (values : List Bool)
  deriving DecidableEq, Repr

/-! ### Locus, BCL, SEC and SEG -/

/-- A zone descriptor (R188) with the zone's active-zone entry (R205) and, for KIND 3, its
written bitmap (R186). -/
structure Zone where
  kind : Nat := 0
  state : Nat := 0
  nsid : Nat := 0
  hot : Bool := false
  cleaning : Bool := false
  secure : Bool := false
  gen : Nat := 0
  ann : Nat := 0
  band : Nat := 0
  /-- BAND is assigned (R184, R625). -/
  hasBand : Bool := false
  mwp : Nat := 0
  live : Nat := 0
  wtime : Nat := 0
  tmin : Nat := 0xFF
  tmax : Nat := 0
  /-- Host-view write pointer of an active zone (R205). -/
  hostWp : Option Nat := none
  /-- Units written to the band, committed or not. -/
  written : Nat := 0
  /-- Order of the last write, for the implicit close of R128. -/
  lastWrite : Nat := 0
  /-- Set bits of the written bitmap of a KIND 3 zone. -/
  bitmap : List Nat := []
  /-- Redirected units that have since been written at the band's append point (R200). -/
  passed : List Nat := []
  /-- DTIME of the last media write to the zone (R207). -/
  lastMedia : BitVec 64 := 0
  deriving DecidableEq, Repr

/-- The band states of R192, in the order of their codes. -/
inductive BandState where
  | free | opened | full | suspect | retired | conventional | releasing
  deriving DecidableEq, Repr

/-- A band table entry (R192). -/
structure Band where
  state : BandState
  head : Nat
  ann : Nat
  rewrites : Nat := 0
  wfaults : Nat := 0
  startTrack : Nat
  /-- The band's key salt (R249); none when its key is destroyed. -/
  salt : Option (BitVec 128) := none
  deriving DecidableEq, Repr

/-- A hot map entry (R198) with the bucket it stands in (R199). -/
structure Hot where
  kind : Nat
  csec : Nat
  bucket : Nat
  deriving DecidableEq, Repr

/-- A partition (R182, R187). -/
structure Part where
  cA : Nat := 0
  cB : Nat := 0
  n3 : Nat := 0
  n4A : Nat := 0
  n4B : Nat := 0
  opA : Nat := 0
  opB : Nat := 0
  deriving DecidableEq, Repr

/-- What the drive's format fixes for one actuator (R180, R182, R187). -/
structure Format where
  /-- Shingled bands. -/
  shingled : Nat := 0
  /-- Device conventional zones D. -/
  devZones : Nat := 0
  /-- Host-visible conventional zones the format left room for. -/
  convHost : Nat := 0
  /-- Sectors of the media cache (R181). -/
  mcSize : Nat := 0
  /-- The defect list (R180, R181): tracks left out of the bands, as (head, track). -/
  defects : List (Nat × Nat) := []
  deriving DecidableEq, Repr

/-- REBUILD progress of one actuator (R215). -/
structure Rebuild where
  mcDone : Bool := false
  /-- Bands probed, as keys, rising. -/
  probed : List Nat := []
  done : Bool := false
  /-- No checkpoint's band table passed its check: every band outside the conventional region is probed. -/
  all : Bool := false
  /-- Newest write-time tag of each 1 MiB of the media cache, and the tag of the sector of each hot map entry, by
  unit number over all zones. -/
  mibs : SMap Nat := []
  tags : SMap Nat := []
  /-- Zone and tag that sector 0 of a probed band named, by band key. -/
  firsts : SMap (Nat × Nat) := []
  deriving DecidableEq, Repr

/-- A media write that waits for a hot map slot (R201). -/
structure HotWait where
  zone : Nat
  unit : Nat
  csec : Nat
  deriving DecidableEq, Repr

/-- The state of Locus. Zone indices are those of R182; hot map keys are zone * 65,536 + unit;
band keys are actuator * 262,144 + band. -/
structure Loc where
  part : Part := {}
  formatA : Format := {}
  formatB : Format := {}
  zones : SMap Zone := []
  bands : SMap Band := []
  hot : SMap Hot := []
  hotWait : List HotWait := []
  /-- Page table entries (R202), keyed zone * 256 + chunk, while the table is present. -/
  pages : SMap Word := []
  ptPresent : Bool := true
  ptBuilding : Bool := false
  /-- The band table of the latest checkpoint that passed its check, and at the cut of the one in progress (R215). -/
  ckptBands : Option (SMap Band) := none
  cutBands : SMap Band := []
  rebuildA : Rebuild := {}
  rebuildB : Rebuild := {}
  /-- Next media-cache sector of each ring (R181). -/
  mcNextA : Nat := 0
  mcNextB : Nat := 0
  /-- Composite temperature in whole degrees C, 0xFF if it cannot be read (R190). -/
  temp : Nat := 0xFF
  /-- Stale media-cache sectors (R243), keyed by actuator * 2^27 + sector, rising. -/
  stale : List Nat := []
  /-- Relocations queued (R311): zone and unit. -/
  relocs : List (Nat × Nat) := []
  /-- Bands to be made SUSPECT and zones to be made Read Only once the journal takes their records (R19). -/
  suspects : List Nat := []
  readOnlyDue : List Nat := []
  deriving DecidableEq, Repr

/-- Steps of a cleaning job, as BCL_STATE_x.STATE codes them (R228). -/
inductive JobState where
  | idle | alloc | copy | verify | commit | release | overwrite | wait
  deriving DecidableEq, Repr

/-- A band cleaning job (R224 to R236). -/
structure Job where
  zone : Nat
  reason : Nat
  /-- The Annulus the job names: 0 the source's, n Annulus n - 1. -/
  ann : Nat := 0
  state : JobState := .alloc
  restarts : Nat := 0
  secure : Bool := false
  number : Nat := 0
  /-- Source and destination band keys. -/
  src : Nat := 0
  dst : Nat := 0
  dstAnn : Nat := 0
  /-- The snapshot (R229): MWP and the KIND 1 entries as (unit, sector). -/
  snapMwp : Nat := 0
  snapHot : List (Nat × Nat) := []
  lost : Nat := 0
  wtime : Nat := 0
  tmin : Nat := 0xFF
  tmax : Nat := 0
  /-- Namespace 4 migration: the key being moved. -/
  key : List Byte := []
  /-- MAX_RESTART in force since the job's start (R248). -/
  maxRestart : Nat := 3
  /-- Units of the snapshot whose copy is on the destination, and units whose source slot carried poison
  once (R230). -/
  copied : List Nat := []
  reread : List Nat := []
  /-- The job is abandoned once the journal takes the record (R19): whether its destination is SUSPECT. -/
  abandon : Option Bool := none
  deriving DecidableEq, Repr

/-- A secure discard under way (R244): the command to complete, the zones whose REASON 4 job must still
commit, the bands still to lose their key and be overwritten where due, and the actuators whose stale
sectors are still to be purged. -/
structure SecureDiscard where
  /-- None for the reclaim of an expired value. -/
  post : Option Completion
  jobs : List Nat := []
  bands : List Nat := []
  purgeA : Bool := false
  purgeB : Bool := false
  /-- Units of conventional zones still to be overwritten in place: zone, first unit and count. -/
  conv : List (Nat × Nat × Nat) := []
  /-- Its key destructions are not yet final (R250): 1 a checkpoint must still start, 2 the checkpoint in
  progress covers them, 0 none waits. -/
  final : Nat := 0
  deriving DecidableEq, Repr

/-- A band released but not yet FREE (R23, R221, R222). -/
structure Release where
  band : Nat
  reason : Nat
  /-- The zone's SECURE bit as the band was unmapped, and the zone's namespace (R222). -/
  secure : Bool
  number : Nat
  nsid : Nat := 0
  /-- Its key is destroyed and it waits for its overwrite. -/
  overwriting : Bool := false
  deriving DecidableEq, Repr

/-- The state of BCL. -/
structure Bcl where
  jobA : Option Job := none
  jobB : Option Job := none
  queueA : List Job := []
  queueB : List Job := []
  nextJobA : Nat := 0
  nextJobB : Nat := 0
  releases : List Release := []
  discards : List SecureDiscard := []
  deriving DecidableEq, Repr

/-- A SEC job that runs (R251): its KIND and its source range as they stood at GO. -/
structure SecJob where
  kind : Nat
  src : Nat
  len : Nat
  deriving DecidableEq, Repr

/-- The state of SEC. -/
structure Sec where
  job : Option SecJob := none
  /-- Destructions covered by the checkpoint in progress, and those after its cut (R250). -/
  finalCovered : Nat := 0
  finalOpen : Nat := 0
  deriving DecidableEq, Repr

/-- A SHA-256 computation under way: the eight words, the bytes not yet hashed and the length. -/
structure ShaState where
  h : List Word
  tail : List Byte
  len : Nat
  deriving DecidableEq, Repr

/-- An extent of a value: zone, first unit and count of units. -/
structure Extent where
  zone : Nat
  first : Nat
  count : Nat
  deriving DecidableEq, Repr

/-- An entry of the Segment Store index (R151 to R153). -/
structure Value where
  key : List Byte
  sealed : Bool
  length : Nat
  act : Act
  pin : Bool := false
  secure : Bool := false
  damaged : Bool := false
  /-- Expiry in 2^-8 hour of operating time; 0 none (R171). -/
  expires : Nat := 0
  /-- Its expiry has passed and its space awaits reclaim. -/
  expired : Bool := false
  extents : List Extent := []
  popularity : Nat := 0
  /-- The digest of a sealed value; the hash state of an open one, once rebuilt (R170). -/
  digest : BitVec 256 := 0
  hash : Option ShaState := none
  migrating : Bool := false
  deriving DecidableEq, Repr

/-- A Store or append that is complete and staged but whose records are not written yet: they are
written once its data is on the media and below its zones' MWP. -/
structure SegOp where
  key : List Byte
  /-- Length of the value after it. -/
  len : Nat
  recs : List Rec
  /-- Zones its data lies in, with the unit after the data there. -/
  zones : List (Nat × Nat)
  /-- NVQ's acceptance sequence of its staged units. -/
  order : Nat
  /-- A replacing Store that is a secure discard (R164): its completion and the zones of the old
  extents. -/
  discard : Option (Completion × List Nat) := none
  deriving DecidableEq, Repr

/-- The state of the Segment Store. -/
structure Seg where
  /-- The index as the journal has it, in key order. -/
  values : List Value := []
  /-- The newest version of each value whose records are still to be written; it stands before the one in
  `values`. -/
  fresh : List Value := []
  /-- The operations still to be recorded, in order of acceptance. -/
  pend : List SegOp := []
  /-- Keys whose damaged mark waits for its record (R19). -/
  damagedDue : List (List Byte) := []
  /-- Units read for SEG's own work whose sectors were confirmed (R26, R170), by unit number over all zones. -/
  got : List Nat := []
  deriving DecidableEq, Repr

/-! ### NAND save store -/

/-- A save set on the NAND (R482). -/
structure SaveSet where
  set : Nat
  units : List Staged
  /-- The active-zone table: zone and host-view write pointer. -/
  active : List (Nat × Nat)
  pcc : Nat
  committed : Bool
  deriving DecidableEq, Repr

/-- NFC's state that stays on the NAND devices or is read from them. -/
structure Nand where
  saves : List SaveSet := []
  nextSet : Nat := 1
  /-- Listed bad blocks (R479). -/
  badBlocks : List Nat := []
  deriving DecidableEq, Repr



/-! ### Channels -/

/-- A servo sample's verdict as the channel records it (R24, R274), with the read gate's state after it. -/
structure Verdict where
  pass : Bool
  gate : Bool
  deriving DecidableEq, Repr

/-- The kinds of a failed attempt (R302), in the order of their codes 1 to 4. -/
inductive FailKind where
  | d | s | n | m
  deriving DecidableEq, Repr

/-- What an attempt of the ladder does (R302): a read, a re-decode, or the capture of a neighbour track. -/
inductive AttemptOp where
  | read | redecode | captureLow | captureHigh
  deriving DecidableEq, Repr

/-- One attempt of a step of the ladder with the settings its step changes (R302). -/
structure Attempt where
  op : AttemptOp := .read
  ofs : Int := 0
  tgt : Option Nat := none
  shift : Int := 0
  pre : Bool := false
  mode : Nat := 0
  cls : Option Nat := none
  iti : Bool := false
  deriving DecidableEq, Repr

/-- A sector the real-time core reads, and its place on the ladder (R301 to R306). -/
structure Ladder where
  head : Nat
  track : Nat
  sector : Nat
  ann : Nat
  zone : Nat
  gen : Nat
  unit : Nat
  cls : Nat
  op : Nat
  seedAny : Bool
  data : Nat
  stat : Nat
  readers : List Reader
  step : Nat := 0
  /-- Attempts of the step still to be made, the one at hand first. -/
  todo : List Attempt := [{}]
  /-- The attempt at hand is with the channel. -/
  flying : Bool := true
  /-- The attempt at hand ended with RESULT 1 and its re-decode is due or with the channel (R301). -/
  again : Bool := false
  /-- Repeats of R304 made of the attempt at hand. -/
  repeats : Nat := 0
  /-- Some attempt has failed, so the ladder has begun (R313). -/
  failed : Bool := false
  last : FailKind := .d
  early : Bool := false
  lastResult : Nat := 0
  allM : Bool := true
  /-- A step above 3 has run. -/
  deep : Bool := false
  /-- Latest failure kind at step 3: 0 if it did not run (R311). -/
  kind3 : Nat := 0
  /-- Step 2 has made its one re-read. -/
  reread : Bool := false
  /-- Captures of step 8 that confirmed. -/
  caps : Nat := 0
  deriving DecidableEq, Repr

/-- Who pushed a descriptor: firmware, the real-time core for original reads, its ladder, or its capture of
a neighbour for the failed sector named. -/
inductive DescBy where
  | firmware
  | original
  | ladder
  | capture (head track sector : Nat)
  deriving DecidableEq, Repr

/-- A descriptor in the channel's queue (R270, R319, R321). -/
structure Desc where
  words : DescWords
  write : Bool
  by_ : DescBy
  /-- For a write: units staged when it was pushed, whose data it takes. -/
  taken : Nat := 0
  deriving DecidableEq, Repr

/-- The read descriptor that runs, with the settings in force when it started (R281). -/
structure RdRun where
  words : DescWords
  by_ : DescBy
  iterFly : Nat
  iterMax : Nat
  win : Nat
  save : Bool
  setup : ReadSetup
  /-- The tap set used, and the copy of its FIR taps. -/
  tapSet : Nat
  taps : List Nat
  /-- Offsets whose slot is pending (R296). -/
  pend : List Nat := []
  /-- Offsets decided, with CONF. -/
  decided : List (Nat × Bool) := []
  /-- What a capture has taken (R275). -/
  captured : List Sense := []
  deriving DecidableEq, Repr

/-- The write descriptor that runs, with the settings in force at its first try (R334). -/
structure WrRun where
  words : DescWords
  /-- Units staged when it was pushed, whose data it takes. -/
  taken : Nat := 0
  wrFault : Nat
  squeeze : Bool
  assist : AssistForm
  monLo : Nat
  monHi : Nat
  /-- The format entry, and the delays of R324 for distances of 1, 2 and 3 bits. -/
  fmt : Word
  delays : List Nat
  /-- The single-use key of a fill (R249), from its first try on. -/
  key : Option (BitVec 512) := none
  tries : Nat := 0
  /-- A try is in progress: its first sector has begun. -/
  inTry : Bool := false
  tryFirst : Nat := 0
  /-- First sector not written. -/
  next : Nat := 0
  /-- The sector under the head. -/
  cur : Option Nat := none
  /-- Servo samples since the try began. -/
  samples : Nat := 0
  /-- The monitor reading of the last try is due (R331). -/
  monDue : Bool := false
  /-- The next pass starts without using a try (R325). -/
  freePass : Bool := false
  /-- The last try faulted since the latest sample, or at it (R334). -/
  fresh : Bool := false
  /-- Composite temperature at the first try (R190). -/
  temp : Nat := 0xFF
  dtime : BitVec 64 := 0
  /-- Offsets written as lost-unit markers (R323). -/
  poisoned : List Nat := []
  cause : Nat := 0
  wedge : Nat := 0
  pes : Nat := 0
  deriving DecidableEq, Repr

/-- The descriptor that runs (R273, R321). -/
inductive Running where
  | rd (r : RdRun)
  | wr (w : WrRun)
  deriving DecidableEq, Repr

/-- A failed sector's soft output (R268). -/
structure Soft where
  head : Nat
  track : Nat
  sector : Nat
  words : DescWords
  servoOk : Bool
  deriving DecidableEq, Repr

/-- A neighbour capture (R275): what was detected in each sector, and which confirmed. -/
structure Capture where
  head : Nat
  track : Nat
  sector : Nat
  found : List Sense
  conf : List Bool
  deriving DecidableEq, Repr

/-- A channel's read, servo, write and assist parts beside their registers. -/
structure Chan where
  run : Option Running := none
  /-- Waiting descriptors in the order they were pushed (R321). -/
  queue : List Desc := []
  soft : List Soft := []
  captures : List Capture := []
  ladders : List Ladder := []
  /-- Format entries, keyed head * 8 + Annulus (R255). -/
  fmt : SMap Word := []
  /-- Tap memory (R280), keyed ((head * 8 + Annulus) * 4 + set) * 68 + index. -/
  taps : SMap Nat := []
  /-- Class table (R279). -/
  classes : SMap Word := []
  /-- Precompensation and assist power, keyed head * 8 + Annulus (R335, R338). -/
  pc : SMap Word := []
  power : SMap Nat := []
  /-- Assist faults of each head (R338). -/
  faults : SMap Nat := []
  /-- Assist power last acknowledged for each head (R331). -/
  apSent : SMap Nat := []
  /-- Head within the channel and WRITE of the last SELECT acknowledged (R406). -/
  sel : Option (Nat × Bool) := none
  /-- An Oavin transaction of the descriptor waits for its acknowledgement. -/
  asked : Bool := false
  /-- The read gate is allowed (R293). -/
  gate : Bool := false
  /-- Consecutive valid samples below ONTRACK, and on-track (R294). -/
  onCount : Nat := 0
  onTrack : Bool := false
  /-- Write permission (R315). -/
  permit : Bool := false
  /-- Verdicts of the latest samples, newest first. -/
  verdicts : List Verdict := []
  /-- Servo demodulator (R283, R284): the previous sample's wedge, the last valid one, misses in a row. -/
  prevWedge : Option Nat := none
  lastValid : Nat := 0
  misses : Nat := 0
  search : Bool := false
  /-- CHx_FLT_N is low. -/
  fltLow : Bool := false
  /-- Firmware's profile load of the servo page waits for the next wedge (R291). -/
  svProfile : Option Nat := none

  deriving DecidableEq, Repr

/-! ### Control engines and Chord -/

/-- The states of an engine (R370), in the order of their codes. -/
inductive EngState where
  | off | run | coast | retract | lost
  deriving DecidableEq, Repr

/-- A biquad section's histories (R344): w1, w2, y1, y2 in S17.14. -/
structure Biquad where
  w1 : Int := 0
  w2 : Int := 0
  y1 : Int := 0
  y2 : Int := 0
  deriving DecidableEq, Repr

/-- A stage's predicted observer state and section histories. -/
structure Stage where
  xp : List Int := [0, 0, 0, 0]
  sects : List Biquad := [{}, {}, {}, {}, {}, {}, {}, {}]
  deriving DecidableEq, Repr

/-- A control engine beside its registers (R340 to R375). -/
structure Cle where
  state : EngState := .off
  /-- RUN is written and no valid sample has come (R353). -/
  armed : Bool := false
  /-- Entries were pushed since the RUN write. -/
  pushed : Bool := false
  v : Stage := {}
  m : Stage := {}
  /-- The reference FIFO: REF and FF (R350). -/
  fifo : List (Word × Int) := []
  /-- REF and FF of the next sample, and whether the pop for it found the FIFO empty. -/
  ref : Word := 0
  ff : Int := 0
  dry : Bool := false
  /-- The last valid Ec (R362). -/
  ec : Int := 0
  /-- X latched at the last sample (R377). -/
  x : Int := 0
  coast : Nat := 0
  overruns : Nat := 0
  /-- The runs of R363 and what they compare with. -/
  pesRun : Nat := 0
  wedgeRun : Nat := 0
  lastPes : Option Nat := none
  lastWedge : Option Nat := none
  /-- Pending law writes (R357): register key and value. -/
  pend : List (Nat × Word) := []
  /-- A profile load waits for the next boundary (R374). -/
  profile : Option Nat := none
  clrRc : Bool := false
  park : Bool := false
  /-- The retract in progress follows a loss (R367, R368). -/
  loss : Bool := false
  cause : Nat := 0
  /-- Repetitive table (R354), keyed head * 1024 + bin. -/
  rc : SMap Int := []
  /-- SEQ of the next VCM frame (R414). -/
  seq : Nat := 0
  /-- Words that corrected and were written back (R371). -/
  corrected : List Nat := []
  deriving DecidableEq, Repr

/-- One feedforward path (R376, R377): its histories, its newest output, the one before, and the DTIME at
which the newest was computed. -/
structure Path where
  hist : Biquad := {}
  y : Int := 0
  prev : Int := 0
  stamp : BitVec 64 := 0
  deriving DecidableEq, Repr

/-- A grant change in progress (R382): the target grants, which limits still have to fall or rise, and the
DTIME of the last fall. -/
structure GrantChange where
  toA : Nat
  toB : Nat
  limA : Nat
  limB : Nat
  fallA : Bool
  fallB : Bool
  riseA : Bool
  riseB : Bool
  last : BitVec 64
  /-- REQ or a parameter changed meanwhile (R384). -/
  replan : Bool := false
  deriving DecidableEq, Repr

/-- Chord beside its registers (R376 to R397). -/
structure Chd where
  retiredA : Bool := false
  retiredB : Bool := false
  /-- The retirement in progress (R391), once its effects of R392 hold. -/
  retiring : Option Act := none
  /-- Unretirements pending (R393). -/
  unretA : Bool := false
  unretB : Bool := false
  pathAB : Path := {}
  pathBA : Path := {}
  /-- Grants in force: 0 SHARED, 1 TRACK, 2 FULL, 3 none. -/
  grantA : Nat := 0
  grantB : Nat := 0
  change : Option GrantChange := none
  deriving DecidableEq, Repr

/-- The counts of one half of the Calken Actuator Status log (R120). -/
structure ActLog where
  lost : Nat := 0
  overrun : Nat := 0
  beyond3 : Nat := 0
  unrecovered : Nat := 0
  deriving DecidableEq, Repr

/-! ### Links and sensors -/

/-- Who originated an Oavin transaction (R406). -/
inductive OvlWho where
  | select (a : Act)
  | ap (a : Act)
  | amon (a : Act)
  | fault
  | poll
  | firmware
  deriving DecidableEq, Repr

/-- An Oavin transaction (R401), with the repeats made. -/
structure OvlTx where
  who : OvlWho
  preamp : Act
  cmd : Nat
  head : Nat
  reg : Nat
  data : Nat
  repeats : Nat := 0
  deriving DecidableEq, Repr

/-- The two links and the sensors beside their registers. -/
structure Links where
  /-- Oavin transactions, the one in progress first (R407). -/
  ovl : List OvlTx := []
  /-- Transactions stop after the one in progress (R409). -/
  ovlStop : Bool := false
  /-- The firmware control transaction of the motor link: its request frame (R416). -/
  mlk : Option (BitVec 32) := none
  /-- IRQ handling failed and waits 100 us (R423). -/
  irqWait : Bool := false
  /-- MLK_IRQ_N and PWRFAIL_N are low. -/
  irqLow : Bool := false
  pwrfailLow : Bool := false
  /-- Whose VCM frame is the last, and the DTIME at which it ends (R415). -/
  frameEnd : Option (Act × Nat) := none
  /-- Consecutive samples at or above RV_TH, and the peaks of the events (R426). -/
  rvRun : Nat := 0
  deriving DecidableEq, Repr

/-! ### The preamplifiers and the motor chip -/

/-- What a preamplifier holds, as the transactions it acknowledged set it (R403, R405): each power-up value is 0.
Keys are the head, and for a register or a heater mode the head with its number. -/
structure Preamp where
  /-- The head selected, and whether its writer is armed. -/
  sel : Option (Nat × Bool) := none
  /-- Writer current and overshoot, by head. -/
  wcur : SMap Nat := []
  /-- Heater power, by head and mode: key head * 2 + mode. -/
  heat : SMap Nat := []
  /-- Assist power, by head. -/
  ap : SMap Nat := []
  /-- Preamplifier-defined registers as last written or read: key head * 16 + register. -/
  regs : SMap Nat := []
  /-- The fault code latched, as last read; none between a fall of CHx_FLT_N and the next read of the code. -/
  fault : Option Nat := some 0
  deriving DecidableEq, Repr

/-- The reset values of the motor chip's registers that the controller writes (R418). -/
def motorReset (reg : Nat) : Nat :=
  match reg with
  | 0x03 => 0x07FF
  | 0x05 => 7200
  | 0x08 => 50
  | _ => 0

/-- The chips on the two links, as far as acknowledged transactions set them (R403, R418). -/
structure Attached where
  preA : Preamp := {}
  preB : Preamp := {}
  /-- IRQ_EN, SPIN_CTRL, SPIN_RPM and VCM_TMO of the motor chip, by register number. -/
  motor : SMap Nat := []
  /-- The spindle is at speed and the actuators are loaded, as the motor chip's STATUS or IRQ last said. -/
  atSpeed : Bool := false
  loadedA : Bool := false
  loadedB : Bool := false
  deriving DecidableEq, Repr

/-! ### Memories -/

/-- An entry of a tracking table (R440, R441): the word's address and whether its hard fault is
reported. -/
structure Track where
  addr : Nat
  reported : Bool
  deriving DecidableEq, Repr

/-- DRAM, SRAM and TCM contents. A byte nothing has written reads 0, as the fill leaves it
(R436). `synd` holds, for each 8-byte word, its stored check bits XOR those of its data: 0 for a
word without error, 0x7F for the poison mark (R433). -/
structure Mem where
  bytes : List Host.Cell := []
  synd : SMap (BitVec 8) := []
  /-- SIZE code of R430: 0 none, 1 4 GiB, 2 8 GiB. -/
  size : Nat := 0
  trainFail : Bool := false
  filledDram : Bool := false
  filledSram : Bool := false
  filledL2 : Bool := false
  mecTrack : List Track := []
  seeTrack : List Track := []
  deriving DecidableEq, Repr

/-! ### Clocks, power, NFC and OSP -/

/-- State of NFC that is not on the NAND. -/
structure Nfc where
  /-- A save is due or in progress (R474). -/
  saving : Bool := false
  parked : Bool := false
  /-- SET restored in this BOOT whose units are not all committed (R484). -/
  restoredSet : Option Nat := none
  /-- Acceptance order below which every unit is in the save set of an abrupt shutdown (R476). -/
  savedOrder : Nat := 0
  bbFull : Bool := false
  deriving DecidableEq, Repr

/-- An OSP operation running (R61): 1 READ, 2 PROGRAM, 3 ERASE, its NOR and DRAM addresses and its length, with
the bytes a READ brings. -/
structure OspJob where
  op : Nat
  nor : Nat
  dram : Nat
  len : Nat
  data : List Byte
  deriving DecidableEq, Repr

/-- Pages whose clocks are gated (R585). -/
structure Pwr where
  gated : List Nat := []
  /-- The rails in mV as last measured (R593). -/
  mv : List Nat := []
  deriving DecidableEq, Repr

/-! ### Processors and caches -/

/-- A valid line of the L2 (R499): the address it holds, its dirty bit, its 64 bytes, the words of it that
carry the poison mark (R437), and whether it is speculative. -/
structure L2Line where
  addr : Nat
  dirty : Bool
  data : List Byte
  poison : List Nat := []
  /-- Filled by a speculative prefetch that no core has consumed yet (R28). -/
  spec : Bool := false
  deriving DecidableEq, Repr

/-- An access that waits for the decision of a pending slot (R297). -/
structure CoreWait where
  core : Nat
  access : CoreAccess
  deriving DecidableEq, Repr

/-- The CPU block beside its registers (R490 to R515). The L1s hold nothing the L2 does not. -/
structure Cpu where
  /-- Valid L2 lines, keyed set * 16 + way. -/
  l2 : SMap L2Line := []
  /-- The L2 has been invalidated whole since its last disable (R501). -/
  l2Inv : Bool := false
  /-- Cores whose L1I, and whose L1D, has been invalidated since its last disable. -/
  l1iInv : List Nat := []
  l1dInv : List Nat := []
  /-- An error was fatal to the cluster: the application cores are held (R510). -/
  fatal : Bool := false
  /-- Maintenance running: the RESULT each set will show, by set number (R506). -/
  cm : SMap Nat := []
  /-- Lines each core handles, the one at hand first, with their PRIORITY (R497). -/
  irq : SMap (List (Nat × Nat)) := []
  /-- Lines whose next read finds a parity error (R514), by key. -/
  inject : List Nat := []
  waits : List CoreWait := []
  deriving DecidableEq, Repr

/-! ### Calibration -/

/-- A target of a calibration item (R540): the item, its head within the actuator, Annulus and reader path
or input. -/
structure CalTarget where
  item : Nat
  head : Nat := 0
  ann : Nat := 0
  path : Nat := 0
  deriving DecidableEq, Repr

/-- A plan or a direct item that runs (R549, R552): its actuator, the targets still to measure, and the
results so far. -/
structure CalRun where
  act : Act
  todo : List CalTarget
  item : Nat := 0
  accepted : Nat := 0
  rejected : Nat := 0
  /-- An item ended because the reference was out of range (R539). -/
  refBad : Bool := false
  deriving DecidableEq, Repr

/-- The calibration engine beside its registers (R538 to R557). -/
structure Cal where
  a : Option CalRun := none
  b : Option CalRun := none
  /-- Direct items running. -/
  dev : List CalRun := []
  /-- A calibration of the actuator has completed, and TEMP_DRIFT is not yet set since (R553). -/
  watchA : Bool := false
  watchB : Bool := false
  deriving DecidableEq, Repr

/-! ### Self-test and repair -/

/-- A self-test that runs (R558, R564): its selection, the segment at hand, the elements completed, the
failures so far with the first one, and what SIG_EXP will read. -/
structure BstRun where
  test : Nat
  algo : Nat
  repair : Bool
  start : Nat
  seg : Nat
  done : Nat := 0
  fails : Nat := 0
  first : Option (Nat × Nat × Nat) := none
  sig : Word
  deriving DecidableEq, Repr

/-- The state of BST beside its registers. -/
structure Bst where
  /-- Soft repair entries, in force and held in the always-on domain (R572). -/
  soft : List RepairEntry := []
  /-- FUSE_PENDING (R575). -/
  fusePending : Bool := false
  /-- Soft entries whose repair row is still to be programmed, the row at hand first, and whether each reads
  back (R575). -/
  fusing : List (RepairEntry × Bool) := []
  run : Option BstRun := none
  deriving DecidableEq, Repr

/-! ### Debug ports -/

/-- The debug block beside its registers (R619 to R623). -/
structure Dbg where
  /-- Bytes queued for sending, the part of the byte time of the first that has passed (in baud times CK_PER
  cycles), and bytes received and held. -/
  uartTx : List Byte := []
  uartAcc : Nat := 0
  uartRx : List Byte := []
  /-- The JTAG instruction in force: IDCODE after Test-Logic-Reset. -/
  ir : Nat := 0x02
  /-- The boundary-scan register as preloaded, and whether EXTEST drives it at the balls. -/
  boundary : List Bool := []
  driving : Bool := false
  /-- TEST_EN as sampled at step 3 of R46, and scan test entered (R604). -/
  testEn : Bool := false
  scan : Bool := false
  /-- STATUS and DATA that the next Capture-DR of REG_ACCESS returns. -/
  regStatus : Nat := 0
  regData : Word := 0
  /-- Bytes in the trace buffer, bytes sent since the last sync packet (none before the first), and packets
  dropped since the last overflow packet. -/
  traceUsed : Nat := 0
  traceSince : Option Nat := none
  traceLost : Nat := 0
  deriving DecidableEq, Repr

/-! ### The whole block -/

/-- The chip's output pins and lines that follow from its state: ALERT_N (R76), RETRACT_N (R420)
and the 64 interrupt lines (R104), as they stand once every line has settled (R105). -/
structure Pins where
  alertN : Bool := true
  retractN : Bool := false
  lines : BitVec 64 := 0
  deriving DecidableEq, Repr

/-- A staging slot that holds or awaits a sector of the media (R25): its confirmation flag, the unit it holds, and
the readers it is held for. -/
structure Slot where
  conf : Bool := false
  zone : Nat
  unit : Nat
  readers : List Reader := []
  deriving DecidableEq, Repr

/-- Everything the spec gives the block. -/
structure Chip where
  /-- Registers, by key; an unlisted register holds its reset value. -/
  regs : SMap Word := []
  /-- Expert registers written by hand since their function's last profile load (R100). -/
  overrides : List Nat := []
  sys : Sys := {}
  fuses : Fuses := {}
  lcs : Lcs := {}
  uart : UartLoad := {}
  dtm : Dtm := {}
  evr : Evr := {}
  /-- The journal MRAM as 8-byte words; an unlisted word reads as the blank record (R457). -/
  mram : SMap DWord := []
  jnl : Jnl := {}
  nvq : Nvq := {}
  loc : Loc := {}
  bcl : Bcl := {}
  sec : Sec := {}
  seg : Seg := {}
  nand : Nand := {}
  nfc : Nfc := {}
  osp : Option OspJob := none
  mem : Mem := {}
  pwr : Pwr := {}
  /-- On-time of each head's assist element in CK_PER cycles (R333). -/
  assistCycles : SMap Nat := []
  /-- On-time of each head as last written to the persistent counters, in 2^-8 hour. -/
  assistSaved : SMap Nat := []
  cleA : Cle := {}
  cleB : Cle := {}
  /-- Staging slots in use, keyed by address / 4,096; a slot not listed is released and its flag is 0 (R25). -/
  slots : SMap Slot := []
  chanA : Chan := {}
  chanB : Chan := {}
  chd : Chd := {}
  links : Links := {}
  logA : ActLog := {}
  logB : ActLog := {}
  att : Attached := {}
  cpu : Cpu := {}
  /-- Correction fields (R541, R542), keyed by page and selection. -/
  corr : SMap Word := []
  cal : Cal := {}
  bst : Bst := {}
  dbg : Dbg := {}
  pins : Pins := {}
  /-- What the block has sent out since reset, in order. -/
  out : List Out := []
  /-- The model's own count of free values taken (not the spec's). -/
  freeCtr : Nat := 0
  deriving DecidableEq, Repr

/-- The state: the waiting commands, first in first out, and the chip. -/
structure State where
  pending : List Instr := []
  chip : Chip := {}
  deriving DecidableEq, Repr

/-- The machine right after a power-on reset, before step 1 of BOOT: mode BOOT, every register at its reset
value and the POR bit of SYS_RESET_CAUSE set (R42, R75), no command waiting. -/
def State.reset : State := { pending := [], chip := { regs := [(R.SYS_RESET_CAUSE, 1)] } }

end Sys2Proof.Machine
end

