-- ==== Sys2Proof/Machine/Ops.lean ====
section
/-! DEFINITION. The shared operations on registers, interrupt causes, faults, counters, events and
output, the pins that follow from the state, and the outcome of a command. -/

namespace Sys2Proof.Machine

open Sys2Proof

/-! ### Registers -/

/-- What a register holds. -/
def Chip.reg (c : Chip) (k : Nat) : Word := SMap.get regReset c.regs k

/-- Store a word in a register. -/
def Chip.setReg (c : Chip) (k : Nat) (v : Word) : Chip :=
  { c with regs := SMap.put regReset c.regs k v }

/-- Bits `hi:lo` of a register. -/
def Chip.fld (c : Chip) (k hi lo : Nat) : Nat := field (c.reg k) hi lo

/-- Set bits `hi:lo` of a register to a number. -/
def Chip.setFld (c : Chip) (k hi lo n : Nat) : Chip := c.setReg k (withField (c.reg k) hi lo n)

/-- One bit of a register. -/
def Chip.bit (c : Chip) (k i : Nat) : Bool := (c.reg k).getLsbD i

/-- Set or clear one bit of a register. -/
def Chip.setBit (c : Chip) (k i : Nat) (b : Bool) : Chip :=
  c.setReg k (if b then c.reg k ||| bitW i else c.reg k &&& ~~~ bitW i)

/-- Add to a counter register that saturates at 0xFFFF_FFFF. -/
def Chip.addSat (c : Chip) (k n : Nat) : Chip :=
  c.setReg k (BitVec.ofNat 32 (min ((c.reg k).toNat + n) 0xFFFFFFFF))

/-- Count one in a register that saturates at 0xFFFF_FFFF. -/
def Chip.bump (c : Chip) (k : Nat) : Chip := c.addSat k 1

/-- Keys of the registers every page has (R91). -/
def pCtrl (page : Nat) : Nat := page * 4096 + 0x008
def pStatus (page : Nat) : Nat := page * 4096 + 0x00C
def pIntStatus (page : Nat) : Nat := page * 4096 + 0x010
def pIntEnable (page : Nat) : Nat := page * 4096 + 0x014
def pPower (page : Nat) : Nat := page * 4096 + 0x01C
def pFault (page : Nat) : Nat := page * 4096 + 0x020
def pCollide (page : Nat) : Nat := page * 4096 + 0x024
def pYield (page : Nat) : Nat := page * 4096 + 0x028

/-- A page's clocks run again (R585). -/
def Chip.wake (c : Chip) (page : Nat) : Chip :=
  { c with pwr := { c.pwr with gated := c.pwr.gated.filter (· != page) } }

/-- Hardware raises an interrupt cause of a page (R91, R101); it wakes the block (R585). -/
def Chip.raise (c : Chip) (page i : Nat) : Chip := (c.setBit (pIntStatus page) i true).wake page

/-- Hardware sets a FAULT bit; a change from 0 to 1 raises INT_STATUS.FAULT, bit 31 (R91). -/
def Chip.fault (c : Chip) (page i : Nat) : Chip :=
  if c.bit (pFault page) i then c else (c.setBit (pFault page) i true).raise page 31

/-- FAULT bits 0 to 2 with the offset of the write that set them (R92 to R94). -/
def Chip.ignored (c : Chip) (page i off : Nat) : Chip :=
  (c.fault page i).setFld (pFault page) 31 20 off

/-- A profile load replaces every expert value of the page's function, so OVERRIDE falls (R100). -/
def Chip.clearOverrides (c : Chip) (page : Nat) : Chip :=
  { c with overrides := c.overrides.filter (fun k => k / 4096 != page) }

/-! ### Life cycle and mode -/

/-- The effective life-cycle state, as LCS_STATE.EFFECTIVE codes it (R63, R78). -/
def Chip.effective (c : Chip) : Nat :=
  if c.lcs.diagnostic then 3
  else match c.lcs.fused with
    | .blank => 0
    | .manufacture => 1
    | .deployed => 2
    | .retired => 4

/-- MANUFACTURE or DIAGNOSTIC, where RWD fields are writable (R9, R66). -/
def Chip.diagOpen (c : Chip) : Bool := c.effective == 1 || c.effective == 3

/-- The code of a mode (R31). -/
def Mode.code : Mode → Nat
  | .boot => 0
  | .calibrate => 1
  | .service => 2
  | .rest => 3
  | .rebuild => 4
  | .holdup => 5

/-- The mode is HOLDUP. -/
def Chip.inHoldup (c : Chip) : Bool := c.sys.mode == .holdup

/-- Band cleaning stops: in HOLDUP (R240), and from an abrupt shutdown until the controller's reset (R476). -/
def Chip.bclStops (c : Chip) : Bool := c.inHoldup || c.nvq.c1.abrupt || c.nvq.c2.abrupt

/-- The chip is parked (step 12 of R474). -/
def Chip.parked (c : Chip) : Bool :=
  match c.sys.holdup with
  | some h => h.parked
  | none => false

/-- The clocks run and the chip is not parked, so blocks and bus masters act. -/
def Chip.alive (c : Chip) : Bool := c.dtm.running && !c.parked

/-- The highest boot step completed (R54). -/
def Chip.bootStep (c : Chip) : Nat := (c.reg R.SYS_BOOT_STEP).toNat

/-! ### Free values and output -/

/-- Take one free value of `w` bits: a value the spec leaves open, and the chip that has taken it. -/
def Chip.takeFree (c : Chip) (w : Nat) : BitVec w × Chip :=
  (Config.free w c.freeCtr, { c with freeCtr := c.freeCtr + 1 })

/-- Take `n` free bytes. -/
def Chip.freeBytes (c : Chip) (n : Nat) : List Byte × Chip :=
  let p := c.takeFree (8 * n)
  (leBytes n p.1.toNat, p.2)

/-- Take one draw of the random source. -/
def Chip.takeRandom (c : Chip) (w : Nat) : BitVec w × Chip :=
  (Config.random w c.freeCtr, { c with freeCtr := c.freeCtr + 1 })

/-- Send something out of the chip. -/
def Chip.emit (c : Chip) (o : Out) : Chip := { c with out := c.out ++ [o] }

/-! ### Events (R520, R521, R525, R526) -/

/-- The severity of an event code: 0 INFO, 1 NOTICE, 2 ERROR, 3 FATAL (R521). -/
def eventSev (code : Nat) : Nat :=
  if code = 0x0001 ∨ code = 0x0C01 then 0
  else if code ∈ [0x1801, 0x1C02, 0x3002, 0x3C01, 0x5001, 0x4001, 0x5401, 0x7001, 0x7002] then 1
  else if code = 0x8801 then 3
  else 2

/-- The entry that leaves a full intake queue: of the 32 entries and the arriving event, the
lowest SEV, and among equals the newest. Answers the queue that stays and the event dropped. -/
def dropOne (q : List Event) (e : Event) : List Event × Event :=
  let low := (q ++ [e]).foldl (fun m x => min m x.sev) 3
  if e.sev = low then (q, e)
  else
    match q.reverse.findIdx? (fun x => x.sev == low) with
    | none => (q, e)
    | some i =>
      let j := q.length - 1 - i
      (q.eraseIdx j ++ [e], q.getD j e)

/-- Count a dropped event for the next DROPPED record and the page's counters (R525, R526). -/
def Chip.countDrop (c : Chip) (full : Bool) (e : Event) : Chip :=
  let v := c.evr
  let first := v.pendQ + v.pendF = 0
  let evr := { v with
    pendQ := if full then v.pendQ else v.pendQ + 1
    pendF := if full then v.pendF + 1 else v.pendF
    pendFirst := if first then c.dtm.dtime else v.pendFirst
    pendLast := c.dtm.dtime
    pendSev := if first then e.sev else max v.pendSev e.sev
    dropQ := if full then v.dropQ else satSucc v.dropQ 0xFFFFFFFF
    dropF := if full then satSucc v.dropF 0xFFFFFFFF else v.dropF }
  let k := R.EVR_DROPPED
  let c := { c with evr := evr }
  let c := if full then c.setFld k 31 16 (satSucc (c.fld k 31 16) 0xFFFF)
    else c.setFld k 15 0 (satSucc (c.fld k 15 0) 0xFFFF)
  c.raise 0x04 1

/-- Hand an event to the intake queue (R525): it merges with the newest queued entry of its CODE,
or is queued, or one entry is dropped. The recorder takes events from step 3 of BOOT (R534). -/
def Chip.handOver (c : Chip) (e : Event) : Chip :=
  if !c.dtm.running then c
  else
    match c.evr.queue.getLast? with
    | some l =>
      if l.code = e.code then
        { c with evr := { c.evr with
            queue := c.evr.queue.dropLast ++ [{ l with repeats := l.repeats + 1 + e.repeats }] } }
      else if c.evr.queue.length < 32 then
        { c with evr := { c.evr with queue := c.evr.queue ++ [e] } }
      else
        let r := dropOne c.evr.queue e
        ({ c with evr := { c.evr with queue := r.1 } }).countDrop false r.2
    | none => { c with evr := { c.evr with queue := [e] } }

/-- A block hands over an event of a listed code, stamped now (R518). -/
def Chip.event (c : Chip) (code : Nat) (items : List Nat) : Chip :=
  c.handOver { code := code, sev := eventSev code, items := items.map (BitVec.ofNat 64),
               dtime := c.dtm.dtime }

/-! ### Pins and outcomes -/

/-- The pages in the order of their interrupt lines 0 to 36 (R90). -/
def linePages : List Nat :=
  [0x00, 0x01, 0x02, 0x03, 0x04, 0x05, 0x06, 0x07, 0x08, 0x10, 0x11, 0x12, 0x18, 0x19, 0x1A,
   0x20, 0x21, 0x22, 0x23, 0x24, 0x28, 0x29, 0x2A, 0x2B, 0x2C, 0x30, 0x38, 0x39, 0x3A,
   0x40, 0x41, 0x42, 0x48, 0x49, 0x50, 0x51, 0x58]

/-- The summary line of a page: some enabled cause is set (R104). -/
def Chip.summary (c : Chip) (page : Nat) : Bool :=
  (c.reg (pIntStatus page) &&& c.reg (pIntEnable page)) != 0

/-- Summary bits of a list of pages, the first in the lowest bit. -/
def Chip.summaries (c : Chip) : List Nat → Nat
  | [] => 0
  | p :: ps => b2n (c.summary p) + 2 * c.summaries ps

/-- Lines 0 to 63 before routing (R104): the page summaries, then the software interrupts in
lines 48 to 63. -/
def Chip.lines (c : Chip) : BitVec 64 :=
  BitVec.ofNat 64 (c.summaries linePages + (c.fld R.INT_SWI 15 0) * 2 ^ 48)

/-- The pins as the state makes them: ALERT_N is low while a bit of SYS_ALERT is 1 (R76); RETRACT_N is low
while MLK_CTRL.RETRACT is 1 and in HOLDUP (R420). -/
def pinsOf (c : Chip) : Pins :=
  { alertN := c.reg R.SYS_ALERT == 0
    retractN := !c.bit R.MLK_CTRL 0 && !c.inHoldup
    lines := c.lines }

/-- Every line settles (R105). -/
def Chip.settle (c : Chip) : Chip := { c with pins := pinsOf c }

/-- A command's outcome: the chip it leaves, settled, with the waiting commands unchanged. -/
def State.next (s : State) (c : Chip) : Host.Outcome State Fault Refusal :=
  .next { s with chip := c.settle }

end Sys2Proof.Machine
end

