-- ==== Sys2Proof/Machine/Bus.lean ====
section
/-! DEFINITION. What every register write does before the register's own rule (R93, R94): the fields it may
change, and the faults of the fields it may not. -/

namespace Sys2Proof.Machine

open Sys2Proof

/-- Software may write a field of a page now (R9, R93). A read-only field it may not. -/
def Chip.mayWrite (c : Chip) (page : Nat) (f : Field) : Bool :=
  match f.acc with
  | .ro => false
  | .rwx => c.bit (pCtrl page) 31
  | .rwd => c.diagOpen
  | .w1sd => c.diagOpen
  | _ => true

/-- The bits of a register that a write may change now. -/
def Chip.writeMask (c : Chip) (page : Nat) (fs : List Field) : Word :=
  fs.foldl (fun m f => if c.mayWrite page f then m ||| mask f.hi f.lo else m) 0

/-- The bits of a register that some field covers. -/
def definedMask (fs : List Field) : Word := fs.foldl (fun m f => m ||| mask f.hi f.lo) 0

/-- The register is read-only as a whole. -/
def RegDesc.readOnly (d : RegDesc) : Bool := !d.fields.isEmpty && d.fields.all (fun f => f.acc == .ro)

/-- A write to a register (R93, R94): FAULT bits 0 to 2 as they apply. Answers the value with only the bits it
may change. A read-only register takes nothing and sets no FAULT bit. -/
def Chip.preWrite (c : Chip) (k : Nat) (v : Word) : Chip × Word :=
  match regDesc k with
  | none => (c, 0)
  | some d =>
    if d.readOnly then (c, 0)
    else
      let page := k / 4096
      let off := k % 4096
      let m := c.writeMask page d.fields
      let expert := d.fields.any (fun f => f.acc == .rwx) && !c.bit (pCtrl page) 31
      let diag := d.fields.any (fun f => f.acc == .rwd || f.acc == .w1sd) && !c.diagOpen
      let rsvd := (v &&& ~~~ definedMask d.fields) != 0
      let c := if expert then c.ignored page 0 off else c
      let c := if diag then c.ignored page 1 off else c
      let c := if rsvd then c.ignored page 2 off else c
      (c, v &&& m)

/-- Store the bits of a value that a write may change, over the others. -/
def Chip.storeBits (c : Chip) (k : Nat) (m v : Word) : Chip := c.setReg k ((c.reg k &&& ~~~ m) ||| (v &&& m))

end Sys2Proof.Machine
end

