-- ==== Sys2Proof/Machine/Tables.lean ====
section
/-! DEFINITION. Locus's tables: the zone layout and descriptors, the band table, the hot map and
the free-band counts (R179 to R201). -/

namespace Sys2Proof.Machine

open Sys2Proof

/-- The actuator a zone index lies on (R182). -/
def zoneAct (i : Nat) : Act := if i < 262144 then .A else .B

/-- The actuator of a band key. -/
def bandAct (k : Nat) : Act := if k < 262144 then .A else .B

/-- The key of a band of an actuator. -/
def bandKey (a : Act) (n : Nat) : Nat := a.toNat * 262144 + n

/-- What the format fixed for an actuator. -/
def Loc.format (l : Loc) : Act → Format
  | .A => l.formatA
  | .B => l.formatB

/-- C, N3, N4 and over-provision of an actuator in a partition. -/
def Part.conv (p : Part) : Act → Nat
  | .A => p.cA
  | .B => p.cB

def Part.n4 (p : Part) : Act → Nat
  | .A => p.n4A
  | .B => p.n4B

def Part.op (p : Part) : Act → Nat
  | .A => p.opA
  | .B => p.opB

/-- LOC_ZONES_x: shingled bands minus the over-provision in force (R218). -/
def Loc.zonesOf (l : Loc) (a : Act) : Nat := (l.format a).shingled - l.part.op a

/-- S of an actuator under a partition: LOC_ZONES_x - N3 - N4_x (R187). -/
def seqOf (zones : Nat) (p : Part) (a : Act) : Nat := zones - p.n3 - p.n4 a

/-- S of the partition in force. -/
def Loc.seq (l : Loc) (a : Act) : Nat := seqOf (l.zonesOf a) l.part a

/-- LBAs of a namespace (R183). -/
def Loc.nsze (l : Loc) (nsid : Nat) : Nat :=
  match nsid with
  | 1 => (l.part.cA + l.seq .A) * 65536
  | 2 => (l.part.cB + l.seq .B) * 65536
  | 3 => 2 * l.part.n3 * 65536
  | _ => 0

/-- KIND and NSID of a zone index under a partition (R182). -/
def layoutOf (zones : Nat) (p : Part) (d i : Nat) : Nat × Nat :=
  let a := zoneAct i
  let j := i % 262144
  let c := p.conv a
  let s := seqOf zones p a
  if 262144 ≤ j + d then (4, 0)
  else if j < c then (3, a.toNat + 1)
  else if j < c + s then (1, a.toNat + 1)
  else if j < c + s + p.n3 then (2, 3)
  else if j < c + s + p.n3 + p.n4 a then (2, 4)
  else (0, 0)

/-- KIND and NSID of a zone index under the partition in force. -/
def Loc.layout (l : Loc) (i : Nat) : Nat × Nat :=
  layoutOf (l.zonesOf (zoneAct i)) l.part (l.format (zoneAct i)).devZones i

/-- The descriptor of a zone nothing has written: Empty, or In Use for KIND 3 and 4 (R189). -/
def Loc.freshZone (l : Loc) (i : Nat) : Zone :=
  let k := l.layout i
  { kind := k.1, nsid := k.2, state := if k.1 = 3 ∨ k.1 = 4 then 7 else 0 }

/-- A zone's descriptor. -/
def Chip.zone (c : Chip) (i : Nat) : Zone := (c.loc.zones.find? i).getD (c.loc.freshZone i)

/-- Replace a zone's descriptor. -/
def Chip.setZone (c : Chip) (i : Nat) (z : Zone) : Chip :=
  { c with loc := { c.loc with zones := c.loc.zones.set i z } }

/-- A band table entry. -/
def Chip.band (c : Chip) (k : Nat) : Option Band := c.loc.bands.find? k

/-- Change a band table entry. -/
def Chip.mapBand (c : Chip) (k : Nat) (f : Band → Band) : Chip :=
  { c with loc := { c.loc with bands := c.loc.bands.update k f } }

/-- The FREE bands of an actuator. -/
def Chip.freeBands (c : Chip) (a : Act) : List (Nat × Band) :=
  c.loc.bands.filter (fun e => bandAct e.1 == a && e.2.state == .free)

/-- The count of FREE bands of an actuator: LOC_FREE_x. -/
def Chip.freeCount (c : Chip) (a : Act) : Nat := (c.freeBands a).length

/-- FREE_LOW is raised when the FREE bands, `was` before, fall to GENERAL + 8 (R211). -/
def Chip.checkFreeLow (c : Chip) (a : Act) (was : Nat) : Chip :=
  let low := c.fld R.LOC_RESERVE 7 0 + 8
  if low < was ∧ c.freeCount a ≤ low then c.raise 0x18 2 else c

/-- The key of a unit in the hot map. -/
def unitKey (zone unit : Nat) : Nat := zone * 65536 + unit

/-- A unit's hot map entry. -/
def Chip.hotOf (c : Chip) (zone unit : Nat) : Option Hot := c.loc.hot.find? (unitKey zone unit)

/-- The hot map entries of a zone, as (unit, entry). -/
def Chip.hotOfZone (c : Chip) (zone : Nat) : List (Nat × Hot) :=
  (c.loc.hot.filter (fun e => e.1 / 65536 == zone)).map (fun e => (e.1 % 65536, e.2))

/-- Occupied slots of a bucket. -/
def Chip.bucketLoad (c : Chip) (b : Nat) : Nat := (c.loc.hot.filter (fun e => e.2.bucket == b)).length

/-- Buckets of the hot map: 2^ACTIVE_LOG2 entries of eight to a bucket (R199). -/
def Chip.buckets (c : Chip) : Nat := 2 ^ c.fld R.LOC_HOT_CFG 20 16 / 8

/-- The bucket an insertion takes: an empty slot in the less occupied candidate first, none when
both are full (R199, R201). -/
def Chip.bucketFor (c : Chip) (zone unit : Nat) : Option Nat :=
  let b0 := Config.hotBucket zone unit 0 % c.buckets
  let b1 := Config.hotBucket zone unit 1 % c.buckets
  let l0 := c.bucketLoad b0
  let l1 := c.bucketLoad b1
  if l0 ≤ l1 then (if l0 < 8 then some b0 else if l1 < 8 then some b1 else none)
  else (if l1 < 8 then some b1 else if l0 < 8 then some b0 else none)

/-- A media-cache sector's key in the stale map. -/
def staleKey (a : Act) (csec : Nat) : Nat := a.toNat * 2 ^ 27 + csec

/-- Insert a number into a rising list without repeats. -/
def insertNat : List Nat → Nat → List Nat
  | [], n => [n]
  | m :: ms, n => if n < m then n :: m :: ms else if n = m then m :: ms else m :: insertNat ms n

/-- Stale media-cache sectors of an actuator: BCL_STALE_x. -/
def Chip.staleCount (c : Chip) (a : Act) : Nat :=
  (c.loc.stale.filter (fun k => k / 2 ^ 27 == a.toNat)).length

/-- The sector stops being referenced (R243); STALE_HIGH when the count reaches PURGE_AT. -/
def Chip.markStale (c : Chip) (a : Act) (csec : Nat) : Chip :=
  let was := c.staleCount a
  let c := { c with loc := { c.loc with stale := insertNat c.loc.stale (staleKey a csec) } }
  let purgeAt := c.fld R.BCL_PACE 27 16
  if purgeAt ≠ 0 ∧ was < purgeAt ∧ purgeAt ≤ c.staleCount a then c.raise 0x19 3 else c

/-- The sector is written again or purged (R243). -/
def Chip.clearStale (c : Chip) (a : Act) (csec : Nat) : Chip :=
  { c with loc := { c.loc with stale := c.loc.stale.filter (· != staleKey a csec) } }

/-- Remove a unit's hot map entry; the zone's HOT falls with its last entry (R200), and the
media-cache sector of a KIND 1 entry becomes stale (R243). -/
def Chip.hotRemove (c : Chip) (zone unit : Nat) : Chip :=
  match c.hotOf zone unit with
  | none => c
  | some h =>
    let c := { c with loc := { c.loc with hot := c.loc.hot.erase (unitKey zone unit) } }
    let c := if h.kind = 1 then c.markStale (zoneAct zone) h.csec else c
    let c := if (c.hotOfZone zone).isEmpty then c.setZone zone { c.zone zone with hot := false } else c
    c

/-- Insert or replace a unit's hot map entry (R199, R200): an entry it replaces leaves first. A full
pair of buckets leaves the map as it was. HOT_HIGH is raised at three quarters (R201). -/
def Chip.hotInsert (c : Chip) (zone unit kind csec : Nat) : Chip :=
  let c := c.hotRemove zone unit
  match c.bucketFor zone unit with
  | none => c
  | some b =>
    let c := { c with loc := { c.loc with
      hot := c.loc.hot.set (unitKey zone unit) ⟨kind, csec, b⟩ } }
    let c := c.setZone zone { c.zone zone with hot := true, passed := (c.zone zone).passed.filter (· != unit) }
    let c := if kind = 1 then c.clearStale (zoneAct zone) csec else c
    if 3 * 2 ^ c.fld R.LOC_HOT_CFG 20 16 ≤ 4 * c.loc.hot.length then c.raise 0x18 0 else c

/-- CK_PER cycles in 2^-8 hour. -/
def cyclesPerTick : Nat := 5625000000

/-- AS_ONTIME of a head: its on-time in 2^-8 hour, saturating (R333). -/
def Chip.onTime (c : Chip) (head : Nat) : Nat :=
  min (SMap.get (fun _ => 0) c.assistCycles head / cyclesPerTick) 0xFFFFFFFF

/-- Assist on-time of a head in whole hours, from its accumulator (R209, R333), which holds
units of 2^-8 hour. -/
def Chip.assistHours (c : Chip) (head : Nat) : Nat := c.onTime head / 256

/-- The wear score of a band (R209). -/
def Chip.wearScore (c : Chip) (b : Band) : Nat :=
  b.rewrites * c.fld R.LOC_WEAR 7 0 + c.assistHours b.head * c.fld R.LOC_WEAR 15 8

/-- The band with the lowest score, ties to the lower key (R209); the list is in rising keys. -/
def Chip.leastWorn (c : Chip) : List (Nat × Band) → Option (Nat × Band)
  | [] => none
  | e :: es =>
    match c.leastWorn es with
    | none => some e
    | some f => if c.wearScore f.2 < c.wearScore e.2 then some f else some e

/-- The key of a head and Annulus in a channel's tables. -/
def haKey (head ann : Nat) : Nat := head % 10 * 8 + ann

/-- The format entry of a head and Annulus (R255). -/
def Chan.format (x : Chan) (head ann : Nat) : Word := SMap.get (fun _ => 0) x.fmt (haKey head ann)

/-- Sectors per track of a format entry. -/
def fmtSpt (f : Word) : Nat := field f 30 20

/-- The KIND 4 zone that holds a media-cache sector (R182). -/
def Chip.mcZone (c : Chip) (a : Act) (csec : Nat) : Nat :=
  a.toNat * 262144 + (262144 - (c.loc.format a).devZones) + csec / 65536

end Sys2Proof.Machine
end

