-- ==== Sys2Proof/Machine/Queue.lean ====
section
/-! DEFINITION. Completions and their order (R123, R137), notices, and the dirty count of write
staging (R21, R126). -/

namespace Sys2Proof.Machine

open Sys2Proof

/-- A controller by its number, 0 or 1. -/
def Nvq.cntl (n : Nvq) (i : Nat) : Cntl := if i = 0 then n.c1 else n.c2

/-- Replace a controller. -/
def Nvq.setCntl (n : Nvq) (i : Nat) (x : Cntl) : Nvq :=
  if i = 0 then { n with c1 := x } else { n with c2 := x }

/-- Change a controller of the chip. -/
def Chip.mapCntl (c : Chip) (i : Nat) (f : Cntl → Cntl) : Chip :=
  { c with nvq := c.nvq.setCntl i (f (c.nvq.cntl i)) }

/-- An in-flight command by controller, queue and identifier. -/
def Nvq.find (n : Nvq) (cntl qid cid : Nat) : Option InCmd :=
  n.inflight.find? (fun x => x.cntl == cntl && x.qid == qid && x.cid == cid)

/-- Change one in-flight command. -/
def Nvq.mapCmd (n : Nvq) (seq : Nat) (f : InCmd → InCmd) : Nvq :=
  { n with inflight := n.inflight.map (fun x => if x.seq = seq then f x else x) }

/-- Change one in-flight command of the chip. -/
def Chip.mapCmd (c : Chip) (seq : Nat) (f : InCmd → InCmd) : Chip :=
  { c with nvq := c.nvq.mapCmd seq f }

/-- An Asynchronous Event Request: it stays outstanding and holds no later completion back. -/
def InCmd.isAer (x : InCmd) : Bool := x.qid == 0 && x.cmd.opcode == 0x0C

/-- The commands of a queue whose completions are due: the decided ones with no undecided command
of the queue fetched before them (R123). An outstanding event request holds nothing back. -/
def Nvq.due (n : Nvq) (cntl qid : Nat) : List InCmd :=
  let q := n.inflight.filter (fun x => x.cntl == cntl && x.qid == qid)
  (q.filter (fun x => !x.isAer)).takeWhile (fun x => x.result.isSome)
    ++ q.filter (fun x => x.isAer && x.result.isSome)

/-- The completion queue a submission queue posts to. -/
def Nvq.cqOf (n : Nvq) (cntl qid : Nat) : Option Cq :=
  let cq := match n.sqs.find? (fun q => q.cntl == cntl && q.qid == qid) with
    | some q => q.cqid
    | none => 0
  n.cqs.find? (fun q => q.cntl == cntl && q.qid == cq)

/-- Free entries of the completion queue a submission queue posts to. -/
def Nvq.room (n : Nvq) (cntl qid : Nat) : Nat :=
  match n.cqOf cntl qid with
  | some q => (q.head + q.size - q.tail - 1) % q.size
  | none => 0

/-- Advance the tail of the completion queue a submission queue posts to. -/
def Nvq.advanceCq (n : Nvq) (cntl qid k : Nat) : Nvq :=
  let cq := match n.sqs.find? (fun q => q.cntl == cntl && q.qid == qid) with
    | some q => q.cqid
    | none => 0
  { n with cqs := n.cqs.map (fun q =>
      if q.cntl = cntl ∧ q.qid = cq then { q with tail := (q.tail + k) % q.size } else q) }

/-! ### Interrupts (R111, R112, R119) -/

/-- What a word of the MSI-X table nothing has written holds: a vector is masked, as PCIe resets it. -/
def msixReset (i : Nat) : Word := if i % 4 = 3 then 1 else 0

/-- A vector interrupts: its message leaves, or its pending bit stands while it is masked. -/
def Chip.signal (c : Chip) (i v : Nat) : Chip :=
  let t (k : Nat) : Word := SMap.get msixReset (c.nvq.cntl i).msix (4 * v + k)
  if (t 3).getLsbD 0 then c.mapCntl i (fun y => { y with pba := insertNat y.pba v })
  else { c with out := c.out ++ [.msix i v (t 1 ++ t 0) (t 2)] }

/-- The completions a vector has gathered are signalled. -/
def Chip.release_ (c : Chip) (i v : Nat) : Chip :=
  (c.mapCntl i (fun y => { y with gathered := y.gathered.erase v, since := y.since.erase v })).signal i v

/-- Completions were posted to a queue: they interrupt at once, or gather under Interrupt Coalescing, which leaves
the admin queue and a vector with Coalescing Disable alone (R119). -/
def Chip.interrupt (c : Chip) (q : Cq) (n : Nat) : Chip :=
  let f := (c.nvq.cntl q.cntl).features
  let coal := SMap.get (fun _ => 0) f 0x08
  if !q.ien || n == 0 then c
  else if q.qid = 0 ∨ coal / 256 = 0 ∨ SMap.get (fun _ => 0) f (0x900 + q.vector) = 1 then c.signal q.cntl q.vector
  else
    let y := c.nvq.cntl q.cntl
    let had := SMap.get (fun _ => 0) y.gathered q.vector
    if coal % 256 < had + n then c.release_ q.cntl q.vector
    else c.mapCntl q.cntl (fun y => { y with
      gathered := y.gathered.set q.vector (had + n)
      since := if had = 0 then y.since.set q.vector c.dtm.dtime.toNat else y.since })

/-- Vectors of a controller whose aggregation time, in units of 100 us, has passed (R119). -/
def Chip.aggregated (c : Chip) (i : Nat) : Chip :=
  let time := SMap.get (fun _ => 0) (c.nvq.cntl i).features 0x08 / 256
  ((c.nvq.cntl i).since.filter (fun e => decide (e.2 + time * 40000 ≤ c.dtm.dtime.toNat))).foldl
    (fun c e => c.release_ i e.1) c

/-- A completion reports an error. -/
def Completion.isError (x : Completion) : Bool := x.sct != 0 || x.sc != 0

/-- Post one queue's due completions while its completion queue has room: each leaves the chip,
its command is no longer in flight, and an error also enters the Error Information log, which
keeps 64 entries (R120). -/
def Chip.postQueue (c : Chip) (cntl qid : Nat) : Chip :=
  let due := (c.nvq.due cntl qid).take (c.nvq.room cntl qid)
  let rs := due.filterMap InCmd.result
  let n := c.nvq.advanceCq cntl qid rs.length
  let n := { n with
    inflight := n.inflight.filter (fun x => !(due.any (fun y => y.seq == x.seq)))
    errors := ((rs.filter Completion.isError).reverse ++ n.errors).take 64
    errorCount := n.errorCount + (rs.filter Completion.isError).length }
  let d := { c with nvq := n, out := c.out ++ rs.map Out.completion }
  match c.nvq.cqOf cntl qid with
  | some q => d.interrupt q rs.length
  | none => d

/-- Decide a command: its completion is posted in its queue's order. In HOLDUP no completion is
posted for a command not completed before (R38). -/
def Chip.finish (c : Chip) (r : Completion) : Chip :=
  if c.inHoldup then c
  else
    match c.nvq.find r.cntl r.qid r.cid with
    | none => c
    | some x =>
      if x.result.isSome || r.seq.any (· != x.seq) then c
      else
        let c := c.mapCmd x.seq (fun y => { y with result := some { r with seq := none }, phase := .done })
        c.postQueue r.cntl r.qid

/-- The success completion of a command. -/
def InCmd.ok (x : InCmd) : Completion :=
  { cntl := x.cntl, qid := x.qid, cid := x.cid, seq := some x.seq }

/-- A completion of a command with a status code type, status code and DNR. -/
def InCmd.status (x : InCmd) (sct sc : Nat) (dnr : Bool) : Completion :=
  { cntl := x.cntl, qid := x.qid, cid := x.cid, sct := sct, sc := sc, dnr := dnr, seq := some x.seq }

/-- A notice for the host: it completes the oldest outstanding Asynchronous Event Request of the
controller, or waits for the next one. -/
def Chip.noticeTo (c : Chip) (cntl info : Nat) : Chip :=
  match c.nvq.inflight.find? (fun x => x.cntl == cntl && x.isAer && x.result.isNone && x.phase == .working) with
  | some x => c.finish { x.ok with dw0 := info }
  | none =>
    if (c.nvq.cntl cntl).rdy then c.mapCntl cntl (fun y => { y with notices := y.notices ++ [info] })
    else c

/-- What Asynchronous Event Configuration holds where nothing wrote it: every notice R119 names is
enabled (DESIGN CHOICE). -/
def eventConfigReset : Nat := 0x0800031F

/-- A notice of a controller that its event configuration enables, by the bit of R119's feature. -/
def Chip.noticeIf (c : Chip) (cntl bit info : Nat) : Chip :=
  if (SMap.get (fun _ => eventConfigReset) (c.nvq.cntl cntl).features 0x0B).testBit bit
  then c.noticeTo cntl info else c

/-- A notice for both controllers. -/
def Chip.notice (c : Chip) (bit info : Nat) : Chip := (c.noticeIf 0 bit info).noticeIf 1 bit info

/-- Double word 0 of the notices, as NVMe 2.0 lays it out (log page, information, type). -/
def noticeBadDoorbell : Nat := 0x00010100
def noticeNsChanged : Nat := 0x00040002
def noticeFwStart : Nat := 0x00030102
def noticeZoneChanged : Nat := 0x00BFEF02
def noticeTemp : Nat := 0x00020101

/-- The aligned 64 KiB units among staged data, each once. -/
def stagedUnits (us : List Staged) : List (Nat × Nat) :=
  us.foldl (fun l u => if l.contains (u.zone, u.unit) then l else l ++ [(u.zone, u.unit)]) []

/-- The dirty count: power-safe 64 KiB units of write staging that are not yet committed (R147). -/
def Chip.dirtyUnits (c : Chip) : Nat := (stagedUnits c.nvq.staging).length

/-- Dies of the NAND. -/
def Chip.dies (c : Chip) : Nat := c.fld R.NFC_GEOM 2 0

/-- NFC_EFF_LIMIT in MiB (R475). -/
def Chip.effLimit (c : Chip) : Nat :=
  min (c.fld R.NVQ_DIRTY_LIMIT 8 0) (min (76 * c.dies) (c.fld R.NFC_ERASED 15 0 - 32))

/-- 64 KiB units a MiB figure allows. -/
def unitsOfMib (m : Nat) : Nat := 16 * m

/-- DIRTY_HIGH is raised when the dirty count reaches LIMIT (R149). -/
def Chip.checkDirty (c : Chip) : Chip :=
  if unitsOfMib (c.fld R.NVQ_DIRTY_LIMIT 8 0) ≤ c.dirtyUnits then c.raise 0x11 0 else c

/-- A zone descriptor changed: the notice and the Changed Zone List (R144, R120). -/
def Chip.zoneChanged (c : Chip) (zone : Nat) : Chip :=
  let c := { c with nvq := { c.nvq with changedZones := insertNat c.nvq.changedZones zone } }
  c.notice 27 noticeZoneChanged

/-- A namespace's size or presence changed (R187). -/
def Chip.nsChanged (c : Chip) (nsid : Nat) : Chip :=
  let c := { c with nvq := { c.nvq with changedNs := insertNat c.nvq.changedNs nsid } }
  c.notice 8 noticeNsChanged

end Sys2Proof.Machine
end

