-- ==== Sys2Proof/Machine/Records.lean ====
section
/-! DEFINITION. The slots of the journal MRAM and the layouts of the records of R238, R458 to R470
and R483: written as the bytes of a slot, and read back from them. -/

namespace Sys2Proof.Machine

open Sys2Proof

/-- What an MRAM word nothing has written reads: the blank record is all ones (R457). -/
def mramBlank (_ : Nat) : DWord := 0xFFFFFFFFFFFFFFFF

/-- One 8-byte word of the MRAM. -/
def Chip.mramWord (c : Chip) (i : Nat) : DWord := SMap.get mramBlank c.mram i

/-- Store one 8-byte word of the MRAM. -/
def Chip.setMramWord (c : Chip) (i : Nat) (v : DWord) : Chip :=
  { c with mram := SMap.put mramBlank c.mram i v }

/-- The 64 bytes of a slot. -/
def Chip.slotBytes (c : Chip) (slot : Nat) : List Byte :=
  (List.range 8).flatMap (fun j => leBytes 8 (c.mramWord (8 * slot + j)).toNat)

/-- Write the 64 bytes of a slot. -/
def Chip.writeSlot (c : Chip) (slot : Nat) (bs : List Byte) : Chip :=
  (List.range 8).foldl
    (fun c j => c.setMramWord (8 * slot + j) (BitVec.ofNat 64 (leAt bs (8 * j) 8))) c

/-- The blank record (R457). -/
def blankSlot : List Byte := List.replicate 64 0xFF#8

/-- The CRC of a slot: CRC-32C over bytes 0 to 3 and 8 to 63 (R458). -/
def slotCrc (bs : List Byte) : Nat := (crc32c (bs.take 4 ++ bs.drop 8)).toNat

/-- The bytes of a slot from its header fields and payload fields (offset, size, value). -/
def layRecord (typ part parts seq : Nat) (fs : List (Nat × Nat × Nat)) : List Byte :=
  let bs := layBytes 64 ([(0, 1, typ), (1, 1, part + 16 * parts), (2, 2, seq)] ++ fs)
  bs.take 4 ++ leBytes 4 (slotCrc bs) ++ bs.drop 8

/-- Header fields of a slot. -/
def slotType (bs : List Byte) : Nat := leAt bs 0 1
def slotPart (bs : List Byte) : Nat := leAt bs 1 1 % 16
def slotParts (bs : List Byte) : Nat := leAt bs 1 1 / 16
def slotSeq (bs : List Byte) : Nat := leAt bs 2 2

/-- A slot passes its check. -/
def slotGood (bs : List Byte) : Bool := leAt bs 4 4 == slotCrc bs

/-- A slot is blank. -/
def slotBlank (bs : List Byte) : Bool := bs == blankSlot

/-- First slot of each region (R455). -/
def evrSlot0 : Nat := 2816
def ctrSlot0 : Nat := 3584
def bootSlot0 : Nat := 3840

/-! ### Groups of two slots (R465) -/

/-- Which slot of a group is the newer (0 or 1), none when neither passes its check (R465). -/
def newerOf (b0 b1 : List Byte) : Option Nat :=
  match slotGood b0, slotGood b1 with
  | false, false => none
  | true, false => some 0
  | false, true => some 1
  | true, true =>
    let d := (slotSeq b1 + 65536 - slotSeq b0) % 65536
    if 1 ≤ d ∧ d ≤ 32767 then some 1 else some 0

/-- The newer record of a group whose first slot is given. -/
def Chip.group (c : Chip) (slot : Nat) : Option (List Byte) :=
  match newerOf (c.slotBytes slot) (c.slotBytes (slot + 1)) with
  | none => none
  | some 0 => some (c.slotBytes slot)
  | some _ => some (c.slotBytes (slot + 1))

/-- Write a group: the new record goes into the slot that does not hold the newer one. -/
def Chip.writeGroup (c : Chip) (slot typ : Nat) (fs : List (Nat × Nat × Nat)) : Chip :=
  match newerOf (c.slotBytes slot) (c.slotBytes (slot + 1)) with
  | none => c.writeSlot slot (layRecord typ 0 0 0 fs)
  | some n =>
    let seq := (slotSeq (c.slotBytes (slot + n)) + 1) % 65536
    c.writeSlot (slot + (1 - n)) (layRecord typ 0 0 seq fs)

/-- First slots of a counter group and of a boot and life-cycle group. -/
def ctrGroup (g : Nat) : Nat := ctrSlot0 + 2 * g
def bootGroup (g : Nat) : Nat := bootSlot0 + 2 * g

/-- The epoch key of a group, 9 or 10 (R250, R470). -/
def Chip.epochKey (c : Chip) (g : Nat) : BitVec 256 :=
  match c.group (bootGroup g) with
  | some bs => BitVec.ofNat 256 (leAt bs 8 32)
  | none => 0

/-! ### Record payloads -/

/-- A band field: the band in bits 17:0 and ACT in bit 31. -/
def bandField (k : Nat) : Nat := k % 262144 + (k / 262144) * 2 ^ 31

/-- The band key a band field names. -/
def bandOfField (f : Nat) : Nat := f % 262144 + (f / 2 ^ 31) * 262144

/-- A hot map entry in its 8 bytes (R198). -/
def hotWord (h : HotRec) : Nat :=
  h.kind * 2 ^ 62 + h.zone * 2 ^ 43 + h.unit * 2 ^ 27 + h.csec

/-- The key of a Segment Store record: its bytes and its length (R468). -/
def keyFields (key : List Byte) : List (Nat × Nat × Nat) := [(8, 16, leNat key), (24, 1, key.length)]

/-- Fields of a list of values of one size, from an offset. -/
def spread (start size : Nat) : List Nat → List (Nat × Nat × Nat)
  | [] => []
  | v :: vs => (start, size, v) :: spread (start + size) size vs

/-- TYPE and payload fields of a map journal record, with salts encrypted under an epoch key. -/
def layRec (ek : BitVec 256) : Rec → Nat × List (Nat × Nat × Nat)
  | .ckptStart set e => (0x01, [(8, 4, set), (12, 1, e)])
  | .ckptDone set w da db dn p crc =>
    (0x02, [(8, 4, set), (12, 1, w), (16, 8, da), (24, 8, db), (32, 4, dn), (36, 4, p), (40, 4, crc)])
  | .mwp z g f m l wt t0 t1 rs =>
    (0x10, [(8, 4, z), (12, 1, g), (13, 1, f), (16, 4, m), (20, 4, l), (24, 3, wt), (27, 1, t0),
      (28, 1, t1)] ++ spread 32 2 (rs.flatMap (fun r => [r.1, r.2])))
  | .alloc z g b ann rw salt =>
    (0x11, [(8, 4, z), (12, 1, g), (16, 4, bandField b), (20, 1, ann), (24, 3, rw),
      (32, 16, (Config.sealSalt ek salt).toNat)])
  | .zoneState z g ns ng m l =>
    (0x12, [(8, 4, z), (12, 1, g), (13, 1, ns), (14, 1, ng), (16, 4, m), (20, 4, l)])
  | .hot a es =>
    (0x13, [(8, 1, a), (9, 1, es.length)] ++ spread 16 8 (es.map hotWord)
      ++ spread 48 1 (es.map HotRec.gen))
  | .bandState b s f w => (0x14, [(8, 4, bandField b), (12, 1, s), (13, 1, f), (14, 1, w)])
  | .partition ca cb n3 na nb oa ob =>
    (0x15, [(8, 1, ca), (9, 1, cb), (12, 4, n3), (16, 4, na), (20, 4, nb), (24, 4, oa), (28, 4, ob)])
  | .bclBegin z g f j s d ann salt =>
    (0x20, [(8, 4, z), (12, 1, g), (13, 1, f), (14, 2, j), (16, 4, bandField s), (20, 4, bandField d),
      (24, 1, ann), (28, 16, (Config.sealSalt ek salt).toNat)])
  | .bclCommit z g f j s d ann m l mg lo wt t0 t1 =>
    (0x21, [(8, 4, z), (12, 1, g), (13, 1, f), (14, 2, j), (16, 4, bandField s), (20, 4, bandField d),
      (24, 1, ann), (28, 4, m), (32, 4, l), (36, 4, mg), (40, 4, lo), (44, 3, wt), (47, 1, t0),
      (48, 1, t1)])
  | .bclRelease f j b => (0x22, [(13, 1, f), (14, 2, j), (16, 4, bandField b)])
  | .bclFree f j b => (0x23, [(13, 1, f), (14, 2, j), (16, 4, bandField b)])
  | .segStore k f ann a len e z fi n g =>
    (0x30, keyFields k ++ [(25, 1, f), (26, 1, ann), (27, 1, a), (28, 8, len), (36, 4, e), (40, 4, z),
      (44, 2, fi), (46, 2, n), (48, 1, g)])
  | .segAppend k f ann a len e z fin g =>
    (0x31, keyFields k ++ [(25, 1, f), (26, 1, ann), (27, 1, a), (28, 8, len), (36, 4, e), (40, 4, z),
      (44, 4, fin), (48, 1, g)])
  | .segExtent k i z fi n g =>
    (0x32, keyFields k ++ [(28, 4, i), (40, 4, z), (44, 2, fi), (46, 2, n), (48, 1, g)])
  | .segDelete k f => (0x33, keyFields k ++ [(25, 1, f)])
  | .segReclaim k f e => (0x34, keyFields k ++ [(25, 1, f), (28, 4, e)])
  | .segMigrate k i oz o z fi g n =>
    (0x35, keyFields k ++ [(28, 4, i), (32, 4, oz), (36, 2, o), (40, 4, z), (44, 2, fi), (48, 1, g),
      (52, 4, n)])
  | .segDamaged k => (0x36, keyFields k)
  | .secDestroy s n b => (0x40, [(8, 1, s), (9, 1, n), (12, 4, bandField b)])
  | .saveCommit s p u => (0x50, [(8, 4, s), (12, 4, p), (16, 4, u)])
  | .saveRetire s => (0x51, [(8, 4, s)])
  | .firmware t _ p => (t, [(8, 56, leNat p)])

/-- The key a Segment Store record names. -/
def keyOf (bs : List Byte) : List Byte := (slice bs 8 16).take (leAt bs 24 1)

/-- A hot map entry read from a record. -/
def hotRecAt (bs : List Byte) (i : Nat) : HotRec :=
  let w := leAt bs (16 + 8 * i) 8
  ⟨w / 2 ^ 62, w / 2 ^ 43 % 2 ^ 19, w / 2 ^ 27 % 2 ^ 16, w % 2 ^ 27, leAt bs (48 + i) 1⟩

/-- The record a map journal slot holds, with salts decrypted under an epoch key; none for a TYPE
that R459 does not list for the map journal. -/
def readRec (ek : BitVec 256) (bs : List Byte) : Option Rec :=
  let n := leAt bs
  let salt (o : Nat) := Config.openSalt ek (BitVec.ofNat 128 (n o 16))
  match slotType bs with
  | 0x01 => some (.ckptStart (n 8 4) (n 12 1))
  | 0x02 => some (.ckptDone (n 8 4) (n 12 1) (n 16 8) (n 24 8) (n 32 4) (n 36 4) (n 40 4))
  | 0x10 => some (.mwp (n 8 4) (n 12 1) (n 13 1) (n 16 4) (n 20 4) (n 24 3) (n 27 1) (n 28 1)
      (((List.range 6).map (fun i => (n (32 + 4 * i) 2, n (34 + 4 * i) 2))).filter (fun r => r.2 != 0)))
  | 0x11 => some (.alloc (n 8 4) (n 12 1) (bandOfField (n 16 4)) (n 20 1) (n 24 3) (salt 32))
  | 0x12 => some (.zoneState (n 8 4) (n 12 1) (n 13 1) (n 14 1) (n 16 4) (n 20 4))
  | 0x13 => some (.hot (n 8 1) ((List.range (n 9 1)).map (hotRecAt bs)))
  | 0x14 => some (.bandState (bandOfField (n 8 4)) (n 12 1) (n 13 1) (n 14 1))
  | 0x15 => some (.partition (n 8 1) (n 9 1) (n 12 4) (n 16 4) (n 20 4) (n 24 4) (n 28 4))
  | 0x20 => some (.bclBegin (n 8 4) (n 12 1) (n 13 1) (n 14 2) (bandOfField (n 16 4))
      (bandOfField (n 20 4)) (n 24 1) (salt 28))
  | 0x21 => some (.bclCommit (n 8 4) (n 12 1) (n 13 1) (n 14 2) (bandOfField (n 16 4))
      (bandOfField (n 20 4)) (n 24 1) (n 28 4) (n 32 4) (n 36 4) (n 40 4) (n 44 3) (n 47 1) (n 48 1))
  | 0x22 => some (.bclRelease (n 13 1) (n 14 2) (bandOfField (n 16 4)))
  | 0x23 => some (.bclFree (n 13 1) (n 14 2) (bandOfField (n 16 4)))
  | 0x30 => some (.segStore (keyOf bs) (n 25 1) (n 26 1) (n 27 1) (n 28 8) (n 36 4) (n 40 4)
      (n 44 2) (n 46 2) (n 48 1))
  | 0x31 => some (.segAppend (keyOf bs) (n 25 1) (n 26 1) (n 27 1) (n 28 8) (n 36 4) (n 40 4)
      (n 44 4) (n 48 1))
  | 0x32 => some (.segExtent (keyOf bs) (n 28 4) (n 40 4) (n 44 2) (n 46 2) (n 48 1))
  | 0x33 => some (.segDelete (keyOf bs) (n 25 1))
  | 0x34 => some (.segReclaim (keyOf bs) (n 25 1) (n 28 4))
  | 0x35 => some (.segMigrate (keyOf bs) (n 28 4) (n 32 4) (n 36 2) (n 40 4) (n 44 2) (n 48 1) (n 52 4))
  | 0x36 => some (.segDamaged (keyOf bs))
  | 0x40 => some (.secDestroy (n 8 1) (n 9 1) (bandOfField (n 12 4)))
  | 0x50 => some (.saveCommit (n 8 4) (n 12 4) (n 16 4))
  | 0x51 => some (.saveRetire (n 8 4))
  | t => if 0x80 ≤ t ∧ t ≤ 0xBF then some (.firmware t (n 1 1) (bs.drop 8)) else none

/-! ### Counter group 0 and history -/

/-- JNL writes counter group 0 with a CLEAN byte (R465, R477). -/
def Chip.writeGroup0 (c : Chip) (clean : Nat) : Chip :=
  c.writeGroup (ctrGroup 0) 0x60
    [(8, 4, c.jnl.optime), (12, 3, c.jnl.pcc), (15, 1, clean), (16, 4, c.jnl.unsafeCount)]

/-- JNL writes groups 1 and 2: the on-time of every head (R465). -/
def Chip.writeOnTimes (c : Chip) : Chip :=
  let g (c : Chip) (base : Nat) :=
    c.writeGroup (ctrGroup (1 + base / 10)) 0x60
      (spread 8 4 ((List.range 10).map (fun i => c.onTime (base + i))))
  g (g c 0) 10

/-- JNL writes groups 3 and 4: the wear summary of each actuator (R465). -/
def Chip.writeWear (c : Chip) : Chip :=
  let g (c : Chip) (a : Act) :=
    let bs := (c.loc.bands.filter (fun e => bandAct e.1 == a)).map (fun e => e.2)
    c.writeGroup (ctrGroup (3 + a.toNat)) 0x60
      [(8, 8, (bs.map Band.rewrites).foldl (· + ·) 0), (16, 4, (bs.map Band.rewrites).foldl max 0),
       (20, 4, (bs.filter (fun b => b.state == .suspect)).length),
       (24, 4, (bs.filter (fun b => b.state == .retired)).length)]
  g (g c .A) .B

/-- A history record (R466, R470): one slot of the ring, the oldest replaced when it is full. None is
written once the port has failed (R456) or takes only NFC's save (R460). -/
def Chip.history (c : Chip) (ev detail : Nat) : Chip :=
  let j := c.jnl
  if j.failed || j.closed then c
  else
  let c := c.writeSlot (bootSlot0 + j.histSlot) (layRecord 0x74 0 0 j.histSeq
    [(8, 1, ev), (9, 3, j.pcc), (12, 4, j.optime), (16, 8, detail)])
  { c with jnl := { j with
      histSlot := if j.histSlot = 255 then 32 else j.histSlot + 1
      histSeq := (j.histSeq + 1) % 65536 } }

end Sys2Proof.Machine
end

