-- ==== Sys2Proof/Machine/Apply.lean ====
section
/-! DEFINITION. The effect of each journal record on the map (R16, R162 to R168, R188 to R200, R221,
R231 to R244): the same for a commit and for replay. -/

namespace Sys2Proof.Machine

open Sys2Proof

/-- A zone's band key; none for a zone without a band (R188, R625). -/
def Chip.bandOfZone (c : Chip) (i : Nat) : Option Nat :=
  let z := c.zone i
  if z.hasBand then some (bandKey (zoneAct i) z.band) else none

/-- A release of a zone's band would be secure now (R222). -/
def Chip.secureRelease (c : Chip) (i : Nat) : Bool :=
  (c.zone i).secure || c.nvq.secure.contains (c.zone i).nsid

/-- Unmap a zone's band: RELEASING, unless SUSPECT (R193, R223), and waiting for its release (R23), which is
secure by the zone's SECURE bit as it was, or by its namespace's mode at the release (R222). -/
def Chip.unmapBand (c : Chip) (k reason : Nat) (secure : Bool) (number nsid : Nat) : Chip :=
  let c := c.mapBand k (fun b => if b.state = .suspect then b else { b with state := .releasing })
  { c with bcl := { c.bcl with
      releases := c.bcl.releases ++ [{ band := k, reason, secure, number, nsid }] } }

/-- A zone that secure discards still had to clean is unmapped whole: they wait for its band instead. -/
def Chip.discardUnmapped (c : Chip) (i k : Nat) : Chip :=
  { c with bcl := { c.bcl with discards := c.bcl.discards.map (fun (d : SecureDiscard) =>
      if d.jobs.contains i then { d with jobs := d.jobs.filter (· != i), bands := insertNat d.bands k }
      else d) } }

/-- Remove every hot map entry of a zone (R200). -/
def Chip.hotClearZone (c : Chip) (i : Nat) : Chip :=
  (c.hotOfZone i).foldl (fun c e => c.hotRemove i e.1) c

/-- A zone becomes Empty (R188, R190, R191, R242): its band is unmapped, its hot map entries go and
its stamps restart. -/
def Chip.emptyZone (c : Chip) (i gen : Nat) : Chip :=
  let z := c.zone i
  let c := match c.bandOfZone i with
    | some k => (c.unmapBand k 0 z.secure 0 z.nsid).discardUnmapped i k
    | none => c
  let c := c.hotClearZone i
  let c := { c with loc := { c.loc with
    relocs := c.loc.relocs.filter (fun r => r.1 != i)
    hotWait := c.loc.hotWait.filter (fun h => h.zone != i) } }
  c.setZone i { c.loc.freshZone i with gen := gen, state := 0 }

/-- SEC destroys a band's key: its salt is cleared (R221, R249), and the destruction is not final
until a later checkpoint (R250). -/
def Chip.destroyKey (c : Chip) (k : Nat) : Chip :=
  match (c.band k).bind Band.salt with
  | none => c
  | some _ =>
    let c := c.mapBand k (fun b => { b with salt := none })
    let c := { c with sec := { c.sec with finalOpen := c.sec.finalOpen + 1 } }
    c.bump R.SEC_DESTROYED

/-- The band states by code (R192). -/
def BandState.ofCode : Nat → BandState
  | 0 => .free
  | 1 => .opened
  | 2 => .full
  | 3 => .suspect
  | 4 => .retired
  | 5 => .conventional
  | _ => .releasing

/-- The code of a band state (R192). -/
def BandState.code : BandState → Nat
  | .free => 0
  | .opened => 1
  | .full => 2
  | .suspect => 3
  | .retired => 4
  | .conventional => 5
  | .releasing => 6

/-- A staged 64 KiB without the data of the LBAs that `p` picks by their unit number. -/
def Staged.without (u : Staged) (p : Nat → Bool) : Staged :=
  { u with
    data := u.data.filter (fun e => !p (u.unit + e.1))
    media := u.media.filter (fun o => !p (u.unit + o)) }

/-- Staged LBAs of a zone leave staging; a unit left with none is freed (R207). -/
def Chip.unstage (c : Chip) (zone : Nat) (p : Staged → Nat → Bool) : Chip :=
  { c with nvq := { c.nvq with staging := c.nvq.staging.filterMap (fun (u : Staged) =>
      if u.zone = zone then
        let v := u.without (p u)
        if v.data.isEmpty then none else some v
      else some u) } }

/-- Staging of a zone whose data is on the media and reachable is freed (R207); that of namespace 4 only
with the records of its value. -/
def Chip.freeStaging (c : Chip) (i : Nat) (reached : Nat → Bool) : Chip :=
  c.unstage i (fun u n => u.nsid != 4 && u.media.contains (n - u.unit) && reached n)

/-- The staging of one Segment Store operation is freed: its records are written. -/
def Chip.freeValue (c : Chip) (order : Nat) : Chip :=
  { c with nvq := { c.nvq with staging := c.nvq.staging.filter (fun u =>
      !(u.nsid == 4 && u.order == order)) } }

/-- Apply written-bitmap ranges (R186, R467). -/
def applyRanges (bm : List Nat) (clear : Bool) (rs : List (Nat × Nat)) : List Nat :=
  rs.foldl (fun bm r =>
    let us := (List.range r.2).map (· + r.1)
    if clear then bm.filter (fun u => !us.contains u) else us.foldl insertNat bm) bm

/-- The job of an actuator. -/
def Bcl.job (b : Bcl) : Act → Option Job
  | .A => b.jobA
  | .B => b.jobB

/-- Replace the job of an actuator. -/
def Bcl.setJob (b : Bcl) (a : Act) (j : Option Job) : Bcl :=
  match a with
  | .A => { b with jobA := j }
  | .B => { b with jobB := j }

/-- Replace the job of an actuator of the chip. -/
def Chip.setJob (c : Chip) (a : Act) (j : Option Job) : Chip :=
  { c with bcl := c.bcl.setJob a j }

/-- The job of an actuator, in a state, takes a confirmed unit of its zone (R26, R230). -/
def Chip.jobTook (c : Chip) (a : Act) (state : JobState) (zone unit : Nat) : Chip :=
  match c.bcl.job a with
  | some j =>
    if j.state = state ∧ j.zone = zone then c.setJob a (some { j with copied := insertNat j.copied unit }) else c
  | none => c

/-! ### The cleaning queue (R224, R225) -/

/-- The queue of an actuator. -/
def Bcl.queue (b : Bcl) : Act → List Job
  | .A => b.queueA
  | .B => b.queueB

/-- Replace the queue of an actuator of the chip. -/
def Chip.setQueue (c : Chip) (a : Act) (q : List Job) : Chip :=
  match a with
  | .A => { c with bcl := { c.bcl with queueA := q } }
  | .B => { c with bcl := { c.bcl with queueB := q } }

/-- Priority of a job by its REASON (R225). -/
def jobRank (reason : Nat) : Nat :=
  match reason with
  | 2 => 1
  | 4 => 2
  | 3 => 3
  | 0 => 4
  | 5 => 5
  | 6 => 6
  | _ => 7

/-- Insert a job behind those of its own or a higher priority. -/
def insertJob : List Job → Job → List Job
  | [], j => [j]
  | k :: ks, j => if jobRank j.reason < jobRank k.reason then j :: k :: ks else k :: insertJob ks j

/-- A zone belongs to a queued or running job (R224). -/
def Chip.inJob (c : Chip) (zone : Nat) : Bool :=
  let a := zoneAct zone
  (c.bcl.job a).any (fun j => j.zone == zone) || (c.bcl.queue a).any (fun j => j.zone == zone)

/-- A new job of a REASON finds its zone taken: queued, or running; a job that has committed stands in the way
of no REASON 4 or REASON 2 job, which works on the destination (R194, R234). -/
def Chip.jobBars (c : Chip) (zone reason : Nat) : Bool :=
  let a := zoneAct zone
  let after (j : Job) : Bool := j.state == .release || j.state == .overwrite
  (c.bcl.job a).any (fun j => j.zone == zone && !((reason == 4 || reason == 2) && after j))
    || (c.bcl.queue a).any (fun j => j.zone == zone)

/-- A job may name the zone (R224); one without a band holds nothing to move. -/
def Chip.mayClean (c : Chip) (zone : Nat) : Bool :=
  let z := c.zone zone
  (z.kind == 1 || z.kind == 2) && z.state != 0 && z.state != 5 && z.state != 6 && z.hasBand

/-- The controller queues a job on a zone that is in none; a full queue sets QUEUE_FULL (R226). -/
def Chip.queueJob (c : Chip) (j : Job) : Chip :=
  let a := zoneAct j.zone
  if c.jobBars j.zone j.reason || !c.mayClean j.zone then c
  else if 64 ≤ (c.bcl.queue a).length then c.raise 0x19 4
  else c.setQueue a (insertJob (c.bcl.queue a) j)

/-- A band leaves FREE by allocation: OPEN, REWRITES incremented, a new salt (R193, R221). -/
def Chip.openBand (c : Chip) (k rewrites : Nat) (salt : BitVec 128) : Chip :=
  (c.mapBand k (fun b => { b with
    state := .opened, rewrites := rewrites, wfaults := 0, salt := some salt })).checkFreeLow (bandAct k)
      (c.freeCount (bandAct k))

/-- REWRITES after one more allocation, saturating (R192). -/
def Chip.nextRewrites (c : Chip) (k : Nat) : Nat :=
  match c.band k with
  | some b => satSucc b.rewrites 0xFFFFFF
  | none => 0

/-! ### Segment Store index -/

/-- Keys compare byte by byte; a key that another begins with comes first (R165). -/
def keyLt : List Byte → List Byte → Bool
  | [], [] => false
  | [], _ :: _ => true
  | _ :: _, [] => false
  | x :: xs, y :: ys => if x.toNat < y.toNat then true else if x = y then keyLt xs ys else false

/-- The value a key holds. -/
def Seg.find (s : Seg) (key : List Byte) : Option Value := s.values.find? (fun v => v.key == key)

/-- Insert a value in key order. -/
def insertValue : List Value → Value → List Value
  | [], v => [v]
  | w :: ws, v => if keyLt v.key w.key then v :: w :: ws else w :: insertValue ws v

/-- Put a value under its key, replacing any earlier one. -/
def Chip.putValue (c : Chip) (v : Value) : Chip :=
  { c with seg := { c.seg with
      values := insertValue (c.seg.values.filter (fun w => w.key != v.key)) v } }

/-- Remove a key. -/
def Chip.dropValue (c : Chip) (key : List Byte) : Chip :=
  { c with seg := { c.seg with values := c.seg.values.filter (fun w => w.key != key) } }

/-- Values whose expiry has passed are absent from then on (R171). -/
def Chip.expireValues (c : Chip) : Chip :=
  let check (v : Value) : Value :=
    if v.expires ≠ 0 ∧ v.expires ≤ c.jnl.optime then { v with expired := true } else v
  { c with seg := { c.seg with values := c.seg.values.map check, fresh := c.seg.fresh.map check } }

/-- Data still to be recorded lies in a zone of namespace 4. -/
def Chip.segBusy (c : Chip) (zone : Nat) : Bool :=
  c.nvq.staging.any (fun u => u.zone == zone) || c.seg.pend.any (fun o => o.zones.any (fun z => z.1 == zone))

/-- An extent is unreferenced: the zone's LIVE falls, a band whose LIVE reaches 0 is released (R242)
unless data still to be recorded lies in it, and one whose LIVE falls to LIVE_PCT % or below is queued for reclaim (R225). -/
def Chip.dropExtent (c : Chip) (e : Extent) : Chip :=
  let z := c.zone e.zone
  let live := z.live - e.count
  if live = 0 ∧ z.live ≠ 0 ∧ !c.segBusy e.zone then c.emptyZone e.zone ((z.gen + 1) % 256)
  else
    let c := c.setZone e.zone { z with live := live }
    if live < z.live ∧ live * 100 ≤ c.fld R.BCL_AUTO 22 16 * 65536 ∧ c.sys.mode ≠ .boot then
      c.queueJob { zone := e.zone, reason := 5 }
    else c

/-- Every extent of a value is unreferenced. -/
def Chip.dropExtents (c : Chip) (v : Value) : Chip := v.extents.foldl Chip.dropExtent c

/-- Add an extent behind a value's others; one that follows on the last makes that longer. -/
def addExtent : List Extent → Extent → List Extent
  | [], e => [e]
  | [x], e => if x.zone = e.zone ∧ x.first + x.count = e.first then [{ x with count := x.count + e.count }]
      else [x, e]
  | x :: xs, e => x :: addExtent xs e

/-- A value's records are written up to a length: its staging is freed, the operation is no longer to be
recorded, and the version waiting for it becomes the one of the index, with its digest and hash. -/
def Chip.settleValue (c : Chip) (key : List Byte) (len : Nat) : Chip :=
  let mine (o : SegOp) : Bool := o.key == key && o.len == len
  let c := match c.seg.pend.find? mine with
    | some o => c.freeValue o.order
    | none => c
  let s := c.seg
  let pend := s.pend.eraseP mine
  match s.fresh.find? (fun v => v.key == key) with
  | none => { c with seg := { s with pend := pend } }
  | some f =>
    let last := !pend.any (fun o => o.key == key)
    { c with seg := { s with
        pend := pend
        fresh := if last then s.fresh.filter (fun v => v.key != key) else s.fresh
        values := s.values.map (fun (v : Value) =>
          if v.key = key ∧ last then { f with extents := v.extents } else v) } }

/-- An actuator by number. -/
def actOf (n : Nat) : Act := if n = 0 then .A else .B

/-- Units of namespace 4 become referenced: the zone's LIVE rises. -/
def Chip.addLive (c : Chip) (e : Extent) : Chip :=
  c.setZone e.zone { c.zone e.zone with live := (c.zone e.zone).live + e.count }

/-- The extents of a value after an append of `n` units that ends before unit `fin` of a zone (R160, R468), and the
units that became referenced. `begun` are the extents the operation's other records name: all but the last of an
append that creates, those begun by another. The units they do not hold stand in the last extent of a value
created, and otherwise behind the last extent the value had. -/
def appendExtents (created : Bool) (old begun : List Extent) (zone fin n : Nat) : List Extent × List Extent :=
  let rest := n - (begun.map Extent.count).foldl (· + ·) 0
  let es : List Extent :=
    if created ∨ begun.isEmpty then begun ++ (if rest = 0 then [] else [⟨zone, fin - rest, rest⟩])
    else match old.getLast? with
      | some e => (if rest = 0 then [] else [⟨e.zone, e.first + e.count, rest⟩]) ++ begun
      | none => begun
  (es.foldl addExtent old, es)

/-- An append takes effect (R160). One that creates its value drops a value that stood under the key, whose expiry
had made it absent (R171). -/
def Chip.applyAppend (c : Chip) (begun : List Extent) (key : List Byte) (flags act len expires zone fin : Nat) :
    Chip :=
  let created : Bool := flags / 2 % 2 == 1
  let c := match c.seg.find key with
    | some v => if created then (c.dropExtents v).dropValue key else c
    | none => c
  let v := (c.seg.find key).getD { key := key, sealed := false, length := 0, act := actOf act, expires := expires }
  let n := max (b2n created) ((len - v.length + 4095) / 4096)
  let es := appendExtents created v.extents begun zone fin n
  let c := es.2.foldl Chip.addLive c
  (c.putValue { v with length := len, sealed := v.sealed || flags % 2 == 1, extents := es.1 }).settleValue key len

/-! ### The page table (R195, R202) -/

/-- A page table entry. -/
def pageEntry (state band chunk : Nat) : Word :=
  BitVec.ofNat 32 (state * 2 ^ 30 + band % 262144 * 2 ^ 8 + chunk % 256)

/-- The hot map holds an entry for some unit of a chunk. -/
def Chip.hotInChunk (c : Chip) (zone chunk : Nat) : Bool :=
  (c.hotOfZone zone).any (fun e => e.1 / 256 == chunk)

/-- Page entries of a zone, those of STATE 0 left out: of KIND 1 and 2 the chunks below MWP and those with hot map
entries; of KIND 3 those with a written unit; of KIND 4 all. The BAND of a zone without a band reads 0. -/
def Chip.zonePages (c : Chip) (i : Nat) : List (Nat × Word) :=
  let z := c.zone i
  let used (k : Nat) : Bool := match z.kind with
    | 0 => false
    | 3 => z.bitmap.any (fun u => u / 256 == k)
    | 4 => true
    | _ => decide (256 * k < z.mwp)
  (List.range 256).filterMap (fun k =>
    let hot := c.hotInChunk i k
    if used k || (hot && z.kind != 0) then
      some (i * 256 + k, pageEntry (if hot then 2 else 1) (if z.kind = 1 ∨ z.kind = 2 then z.band else 0) k)
    else none)

/-- The entries of a zone are made anew from its descriptor and the hot map. -/
def Chip.repage (c : Chip) (i : Nat) : Chip :=
  let rest := c.loc.pages.filter (fun e => e.1 / 256 != i)
  { c with loc := { c.loc with pages := (c.zonePages i).foldl (fun m e => SMap.set m e.1 e.2) rest } }

/-- The page table, where it is held outside REBUILD, follows what an operation changed (R203, R204). -/
def Chip.repaged (c before : Chip) : Chip :=
  if c.loc.ptPresent && c.sys.mode != Mode.rebuild then
    ((before.loc.zones ++ c.loc.zones).map Prod.fst).foldl (fun (d : Chip) i =>
      if before.zone i != c.zone i || before.hotOfZone i != c.hotOfZone i then d.repage i else d) c
  else c

/-! ### Records -/

/-- One hot map entry of a record (R200, R467): KIND 0 removes, others insert or replace; a unit
below MWP that had no entry leaves LIVE, which in namespace 4 counts the units of extents. -/
def Chip.applyHot (c : Chip) (h : HotRec) : Chip :=
  let z := c.zone h.zone
  if z.gen ≠ h.gen then c
  else if h.kind = 0 then c.hotRemove h.zone h.unit
  else
    let fresh := (c.hotOf h.zone h.unit).isNone
    let c := c.hotInsert h.zone h.unit h.kind h.csec
    let c := if fresh ∧ h.unit < z.mwp ∧ z.nsid ≠ 4 then
        let z := c.zone h.zone
        c.setZone h.zone { z with live := z.live - 1 }
      else c
    c.freeStaging h.zone (· == h.unit)

/-- The effect of one record once its operation is complete. A record that names a zone is skipped
when its GEN is not the zone's (R191). -/
def Chip.applyRec (c : Chip) (r : Rec) : Chip :=
  match r with
  | .ckptStart _ _ => c
  | .ckptDone _ _ _ _ _ _ _ => c
  | .mwp i g f m l wt t0 t1 rs =>
    let z := c.zone i
    if z.gen ≠ g then c
    else
      let z := { z with live := l, wtime := wt, tmin := t0, tmax := t1 }
      let z := if z.kind = 3 then
          { z with bitmap := if f % 2 = 1 then applyRanges z.bitmap (f / 2 % 2 = 1) rs else z.bitmap }
        else { z with
          mwp := m, written := max z.written m
          hostWp := if m = 65536 then none else z.hostWp
          passed := z.passed.filter (fun u => decide (m ≤ u))
          state := if m = 65536 ∧ z.kind = 1 ∧ (z.state = 1 ∨ z.state = 2 ∨ z.state = 3) then 4 else z.state }
      let c := (c.setZone i z).freeStaging i (fun n =>
        if z.kind = 3 then rs.any (fun r => decide (r.1 ≤ n ∧ n < r.1 + r.2)) else decide (n < m))
      if m = 65536 then
        c.mapBand (bandKey (zoneAct i) z.band)
          (fun b => if b.state = .opened then { b with state := .full } else b)
      else c
  | .alloc i g k ann rw salt =>
    let z := c.zone i
    if z.gen ≠ g then c
    else (c.openBand k rw salt).setZone i { z with
      band := k % 262144, hasBand := true, ann := ann
      state := if z.state ≠ 0 then z.state else if z.kind = 2 then 7 else 3
      mwp := 0, live := 0, written := 0 }
  | .zoneState i g ns ng m l =>
    let z := c.zone i
    if z.gen ≠ g then c
    else if ns = 0 then (c.unstage i (fun _ _ => true)).emptyZone i ng
    else
      let c := c.setZone i { z with
        state := ns, gen := ng, mwp := m, live := l
        hostWp := if ns = 4 ∨ ns = 6 then none else z.hostWp }
      if ns = 4 ∧ z.hasBand then
        c.mapBand (bandKey (zoneAct i) z.band)
          (fun b => if b.state = .opened then { b with state := .full } else b)
      else c
  | .hot _ es => es.foldl Chip.applyHot c
  | .bandState k s f w =>
    let was := c.freeCount (bandAct k)
    let c := if f % 2 = 1 then c.destroyKey k else c
    (c.mapBand k (fun b => { b with state := .ofCode s, wfaults := w })).checkFreeLow (bandAct k) was
  | .partition ca cb n3 na nb oa ob =>
    let old := c.loc
    let new := { old with part := ⟨ca, cb, n3, na, nb, oa, ob⟩ }
    { c with loc := { new with
        zones := old.zones.map (fun e => if old.layout e.1 == new.layout e.1 then e
          else (e.1, { new.freshZone e.1 with gen := e.2.gen })) } }
  | .bclBegin i g f j s d ann salt =>
    let z := c.zone i
    if z.gen ≠ g then
      c.setJob (zoneAct i) (some
        { zone := i, reason := f % 16, number := j, src := s, dst := d
          dstAnn := ann, state := .copy })
    else
      let old := (c.bcl.job (zoneAct i)).getD { zone := i, reason := f % 16 }
      let c := (c.openBand d (c.nextRewrites d) salt).setZone i { z with cleaning := true }
      c.setJob (zoneAct i) (some { old with
        number := j, src := s, dst := d, dstAnn := ann, secure := f / 16 % 2 = 1, state := .copy
        snapMwp := z.mwp
        snapHot := (c.hotOfZone i).filterMap
          (fun e => if e.2.kind = 1 then some (e.1, e.2.csec) else none)
        lost := 0, copied := [], reread := [], wtime := c.jnl.optime / 16 % 2 ^ 24, tmin := 0xFF, tmax := 0 })
  | .bclCommit i g f j s d ann m l _ _ wt t0 t1 =>
    let z := c.zone i
    if z.gen ≠ g then c
    else
      let merged := match c.bcl.job (zoneAct i) with
        | some jb => jb.snapHot
        | none => []
      let c := merged.foldl (fun c e =>
        match c.hotOf i e.1 with
        | some h => if h.kind = 1 ∧ h.csec = e.2 then c.hotRemove i e.1 else c
        | none => c) c
      let z := c.zone i
      let c := c.setZone i { z with
        band := d % 262144, ann := ann, mwp := m, live := l, wtime := wt, tmin := t0, tmax := t1
        cleaning := false, written := m, passed := [] }
      let c := c.mapBand d (fun b => if m = 65536 ∨ z.state = 4 then { b with state := .full } else b)
      (c.unmapBand s (f % 16) (z.secure || f / 16 % 2 == 1) j z.nsid).discardUnmapped i s
  | .bclRelease f _ k =>
    let c := c.destroyKey k
    if f / 32 % 2 = 1 then
      let c := c.mapBand k (fun b => { b with state := if f / 64 % 2 = 1 then .suspect else .free })
      match c.bcl.job (bandAct k) with
        | some jb => c.setZone jb.zone { c.zone jb.zone with cleaning := false }
        | none => c
    else if f / 128 % 2 = 1 then
      { c with bcl := { c.bcl with
        releases := c.bcl.releases.map
          (fun x => if x.band = k then { x with overwriting := true } else x) } }
    else
      let c := { c with bcl := { c.bcl with releases := c.bcl.releases.filter (fun x => x.band != k) } }
      c.mapBand k (fun b => if b.state = .suspect then b else { b with state := .free })
  | .bclFree _ _ k =>
    let c := { c with bcl := { c.bcl with releases := c.bcl.releases.filter (fun x => x.band != k) } }
    c.mapBand k (fun b => if b.state = .suspect then b else { b with state := .free })
  | .segStore key f _ a len e z fi n g =>
    if (c.zone z).gen ≠ g then c
    else
    let c := match c.seg.find key with
      | some v => c.dropExtents v
      | none => c
    let c := c.setZone z { c.zone z with live := (c.zone z).live + n }
    (c.putValue { key := key, sealed := true, length := len, act := actOf a, pin := f % 2 = 1,
                  secure := f / 2 % 2 = 1, expires := e, extents := [⟨z, fi, n⟩] }).settleValue key len
  | .segAppend key f _ a len e z fin g =>
    if (c.zone z).gen = g then c.applyAppend [] key f a len e z fin else c
  | .segExtent key i z fi n g =>
    if (c.zone z).gen ≠ g then c
    else
    let v := (c.seg.find key).getD { key := key, sealed := false, length := 0, act := zoneAct z }
    let old := match v.extents[i]? with
      | some x => x.count
      | none => 0
    let c := c.setZone z { c.zone z with live := (c.zone z).live + n - old }
    c.putValue { v with extents := v.extents.take i ++ [⟨z, fi, n⟩] ++ v.extents.drop (i + 1) }
  | .segDelete key _ =>
    match c.seg.find key with
    | none => c
    | some v => (c.dropExtents v).dropValue key
  | .segReclaim key _ _ =>
    match c.seg.find key with
    | none => c
    | some v => (c.dropExtents v).dropValue key
  | .segMigrate key i oz o z fi g n =>
    match c.seg.find key with
    | none => c
    | some v =>
      if (c.zone z).gen ≠ g then c
      else
      let c := c.setZone z { c.zone z with live := (c.zone z).live + n }
      let c := c.dropExtent ⟨oz, o, n⟩
      c.putValue { v with
        extents := v.extents.take i ++ [⟨z, fi, n⟩] ++ v.extents.drop (i + 1), migrating := false }
  | .segDamaged key =>
    let mark (w : Value) : Value := if w.key = key then { w with damaged := true } else w
    { c with seg := { c.seg with values := c.seg.values.map mark, fresh := c.seg.fresh.map mark } }
  | .secDestroy s ns k =>
    if s = 0 then c.destroyKey k
    else
      let ks := c.loc.bands.map Prod.fst
      let ks := if s = 1 then
          ks.filter (fun k => c.loc.zones.any (fun e =>
            e.2.nsid == ns && c.bandOfZone e.1 == some k))
        else ks
      ks.foldl Chip.destroyKey c
  | .saveCommit set _ _ =>
    { c with nand := { c.nand with
        saves := c.nand.saves.map (fun x => if x.set = set then { x with committed := true } else x) } }
  | .saveRetire set =>
    { c with nand := { c.nand with saves := c.nand.saves.filter (fun x => x.set != set) } }
  | .firmware _ _ _ => c

/-- The extent a record of an append names beside the Append record itself (R176), none where its GEN is not the
zone's (R191). -/
def Chip.begunBy (c : Chip) (r : Rec) : Option Extent :=
  match r with
  | .segExtent _ _ z fi n g => if (c.zone z).gen = g then some ⟨z, fi, n⟩ else none
  | _ => none

/-- The effect of a complete operation: its records in order (R168, R461), those of an append together. -/
def Chip.applyRecs (c : Chip) (rs : List Rec) : Chip :=
  match rs with
  | .segAppend key f _ a len e z fin g :: more =>
    if (c.zone z).gen = g ∧ more.all (fun r => (c.begunBy r).isSome) then
      c.applyAppend (more.filterMap c.begunBy) key f a len e z fin
    else c
  | _ => rs.foldl Chip.applyRec c

/-- A complete operation takes effect, and the page table follows where it is held. -/
def Chip.applyOp (c : Chip) (rs : List Rec) : Chip := (c.applyRecs rs).repaged c

end Sys2Proof.Machine
end

