-- ==== Sys2Proof/Machine/Journal.lean ====
section
/-! DEFINITION. The journal port (R19, R455 to R461), the start of a checkpoint (R471, R472), key
groups (R249, R250) and the failure of the log memory (R532). -/

namespace Sys2Proof.Machine

open Sys2Proof

/-- Slots of the map journal ring (R455). -/
def ringSlots : Nat := 2816

/-- The high-water mark and the checkpoint start, in slots (R471). -/
def Chip.hwmSlots (c : Chip) : Nat := c.fld R.JNL_CFG 15 8 * ringSlots / 100
def Chip.ckptSlots (c : Chip) : Nat := c.fld R.JNL_CFG 7 0 * ringSlots / 100

/-- The map journal is at its high-water mark (R19). -/
def Chip.atHwm (c : Chip) : Bool := c.hwmSlots ≤ c.jnl.used

/-- The epoch group records are written under (R250). -/
def Chip.epochGroup (c : Chip) : Nat := c.jnl.writeEpoch

/-- The words of an event record (R516): header, OPTIME and CRC, DTIME, items. -/
def eventWords (e : Event) (pcc optime : Nat) : List DWord :=
  let len := 3 + e.items.length
  let w0 := len + e.sev * 2 ^ 6 + e.code * 2 ^ 8 + min e.repeats 0xFFFF * 2 ^ 24 + pcc % 2 ^ 24 * 2 ^ 40
  let bytes := leBytes 8 w0 ++ leBytes 8 optime ++ leBytes 8 e.dtime.toNat
    ++ e.items.flatMap (fun i => leBytes 8 i.toNat)
  let crc := (crc32c bytes).toNat
  BitVec.ofNat 64 w0 :: BitVec.ofNat 64 (optime % 2 ^ 32 + crc * 2 ^ 32) :: e.dtime :: e.items

/-- The log memory fails at a slot (R532): the LOG_FAIL record becomes the last word, ALERT_N goes
low through SYS_ALERT.LASTWORD, and the recorder degrades to the NAND mirror. -/
def Chip.logFail (c : Chip) (slot result : Nat) : Chip :=
  let e : Event := { code := 0x1002, sev := 2, dtime := c.dtm.dtime
                     items := [BitVec.ofNat 64 (slot % 1024 + result % 16 * 2 ^ 16)] }
  let ws := eventWords e c.jnl.pcc c.jnl.optime
  let c := (List.range 8).foldl (fun c i =>
    c.setReg (R.EVR_LASTWORD i) ((ws.getD (i / 2) 0 >>> (32 * (i % 2))).setWidth 32)) c
  let c := c.setBit R.EVR_LW_STATUS 0 true
  let c := c.setBit R.SYS_ALERT 0 true
  let c := { c with evr := { c.evr with degraded := true } }
  c.raise 0x04 2

/-- Write the next slot of the map journal (R456, R458): one record, with its SEQ and CRC. HWM is
raised when the occupancy reaches the high-water mark (R487). -/
def Chip.appendSlot (c : Chip) (typ part parts : Nat) (fs : List (Nat × Nat × Nat)) : Chip :=
  let j := c.jnl
  let c := c.writeSlot j.head (layRecord typ part parts j.headSeq fs)
  let c := { c with jnl := { j with
    head := (j.head + 1) % ringSlots, headSeq := (j.headSeq + 1) % 65536, used := j.used + 1 } }
  if j.used + 1 = c.hwmSlots then c.raise 0x05 1 else c

/-- Write the records of one operation (R461); a record of the firmware port carries its own PART. -/
def Chip.appendRecs (c : Chip) (rs : List Rec) : Chip :=
  let ek := c.epochKey c.epochGroup
  (rs.zipIdx).foldl (fun c e =>
    let l := layRec ek e.1
    match e.1 with
    | .firmware _ o _ => c.appendSlot l.1 (o % 16) (o / 16) l.2
    | _ => c.appendSlot l.1 e.2 (rs.length - 1) l.2) c

/-- SEC writes a key into both slots of a group (R470). -/
def Chip.writeKey (c : Chip) (g kind set : Nat) (key : BitVec 256) : Chip :=
  let fs := [(8, 32, key.toNat), (40, 1, kind), (44, 4, set)]
  (c.writeGroup (bootGroup g) 0x75 fs).writeGroup (bootGroup g) 0x75 fs

/-- SEC writes the blank record to both slots of a group (R250). -/
def Chip.blankGroup (c : Chip) (g : Nat) : Chip :=
  (c.writeSlot (bootGroup g) blankSlot).writeSlot (bootGroup g + 1) blankSlot

/-- A checkpoint starts (step 1 of R472): a new epoch key in the group not in use, then
CKPT_START, whose place is the cut. Destructions before the cut become final when it completes. -/
def Chip.startCkpt (c : Chip) (starts : Nat) : Chip :=
  let e := if c.jnl.epoch = 9 then 10 else 9
  let set := (c.jnl.set + 1) % 2 ^ 32
  let r := c.takeRandom 256
  let c := r.2.writeKey e 3 set r.1
  let k : Ckpt := ⟨set, c.jnl.head, c.jnl.headSeq, e, starts⟩
  let ds := c.bcl.discards.map (fun (d : SecureDiscard) => if d.final = 1 then { d with final := 2 } else d)
  let c := { c with
    jnl := { c.jnl with ckpt := some k, ckptNext := false, writeEpoch := e }
    sec := { c.sec with finalCovered := c.sec.finalCovered + c.sec.finalOpen, finalOpen := 0 }
    bcl := { c.bcl with discards := ds }
    loc := { c.loc with cutBands := c.loc.bands } }
  c.appendRecs [.ckptStart set e]

/-- Start a checkpoint when one is asked for or the occupancy reaches CKPT_PCT, and none runs (R250,
R471). None starts before the map is loaded, in HOLDUP (R476), after the port has failed (R456), or
inside an open operation (R461). -/
def Chip.maybeCkpt (c : Chip) : Chip :=
  if c.jnl.ckpt.isNone ∧ c.sys.mode ≠ .boot ∧ !c.inHoldup ∧ !c.jnl.failed ∧ c.jnl.openOp.isNone
      ∧ (c.jnl.ckptNext ∨ c.ckptSlots ≤ c.jnl.used)
  then c.startCkpt 1
  else c

/-- The firmware port's record ends with a RESULT (R460, R487): GO and BUSY fall, PORT_DONE. -/
def Chip.fwDone (c : Chip) (n : Nat) : Chip :=
  ((c.setFld R.JNL_PORT_CTRL 7 4 n).setBit R.JNL_PORT_CTRL 0 false).raise 0x05 3

/-- The open operation of the firmware port after one more of its records. -/
def openAfter (oplen : Nat) : Option (Nat × Nat) :=
  if oplen % 16 = oplen / 16 then none else some (oplen / 16, oplen % 16 + 1)

/-- A record of the firmware port follows in the open operation, if any, or begins one (R460). -/
def partFollows (op : Option (Nat × Nat)) (oplen : Nat) : Bool :=
  decide (oplen % 16 ≤ oplen / 16) &&
    (match op with
    | none => oplen % 16 == 0
    | some (parts, next) => oplen / 16 == parts && oplen % 16 == next)

/-- The partition registers read the partition in force (R218). -/
def Chip.showPart (c : Chip) : Chip :=
  let p := c.loc.part
  let c := c.setReg R.LOC_PART_CONV (BitVec.ofNat 32 (p.cA + p.cB * 2 ^ 8))
  let c := c.setReg R.LOC_PART_NS3 (BitVec.ofNat 32 p.n3)
  let c := c.setReg R.LOC_PART_NS4_A (BitVec.ofNat 32 p.n4A)
  let c := c.setReg R.LOC_PART_NS4_B (BitVec.ofNat 32 p.n4B)
  (c.setReg R.LOC_OP_A (BitVec.ofNat 32 p.opA)).setReg R.LOC_OP_B (BitVec.ofNat 32 p.opB)

/-- A partition's record is complete (R187): RESULT 1, PART_DONE, and a notice for every namespace whose size
or presence changed. -/
def Chip.partDone (c : Chip) (old : Loc) : Chip :=
  let c := ((c.showPart.setFld R.LOC_PART_CTRL 6 4 1).setBit R.LOC_PART_CTRL 1 false).raise 0x18 4
  let changed (n : Nat) : Bool :=
    if n = 4 then old.part.n4A + old.part.n4B != c.loc.part.n4A + c.loc.part.n4B
    else old.nsze n != c.loc.nsze n
  ([1, 2, 3, 4].filter changed).foldl Chip.nsChanged c

/-- An operation reaches the journal: its records are written, take effect together when the last is
complete (R16, R168), and the commands that waited for it complete. -/
def Chip.commitNow (c : Chip) (op : JnlOp) : Chip :=
  let old := c.loc
  let c := (c.appendRecs op.recs).applyOp op.recs
  let c := match op.recs with
    | [.partition _ _ _ _ _ _ _] => c.partDone old
    | [.firmware _ o _] => ({ c with jnl := { c.jnl with openOp := openAfter o } }).fwDone 1
    | _ => c
  (op.posts.foldl Chip.finish c).maybeCkpt

/-- Sources whose records do not wait at the high-water mark (R19). -/
def JnlSource.exempt : JnlSource → Bool
  | .checkpoint => true
  | .nfc => true
  | _ => false

/-- Whether an operation must wait: the port has failed, the firmware port holds an open operation
that is not the source's own, or the high-water mark is reached at its first record (R19, R456,
R461). -/
def Chip.mustWait (c : Chip) (src : JnlSource) : Bool :=
  c.jnl.failed ||
    (match src with
    | .firmware => c.jnl.openOp.isNone && c.atHwm
    | _ => c.jnl.openOp.isSome || (c.atHwm && !src.exempt))

/-- Keep an operation that must wait; a wait at the mark is counted (R473). -/
def Chip.waitOp (c : Chip) (op : JnlOp) : Chip :=
  let c := { c with jnl := { c.jnl with waiting := c.jnl.waiting ++ [op] } }
  if c.atHwm then c.bump R.JNL_WAIT_CNT else c

/-- A block commits an operation. After step 6 of HOLDUP only NFC's save is taken (R460), and then at
once; an operation that must wait is kept. -/
def Chip.commit (c : Chip) (src : JnlSource) (rs : List Rec) (posts : List Completion) : Chip :=
  if c.jnl.closed then (if src = .nfc ∧ !c.jnl.failed then c.commitNow ⟨src, rs, posts⟩ else c)
  else if c.mustWait src then c.waitOp ⟨src, rs, posts⟩
  else c.commitNow ⟨src, rs, posts⟩

/-- The port refuses a record after a third failed read-back (R456): FAILED, and the failure of the
log memory. -/
def Chip.portFailed (c : Chip) (slot : Nat) : Chip :=
  let c := { c with jnl := { c.jnl with failed := true } }
  (c.raise 0x05 4).logFail slot 6

/-- Operations that waited proceed in order until one must wait again (R19). -/
def Chip.resumeOps (c : Chip) : List JnlOp → Chip
  | [] => c
  | op :: ops =>
    if c.mustWait op.src then { c with jnl := { c.jnl with waiting := op :: ops } }
    else Chip.resumeOps (c.commitNow op) ops

/-- Every operation that waits is offered to the port again. -/
def Chip.resume (c : Chip) : Chip :=
  Chip.resumeOps { c with jnl := { c.jnl with waiting := [] } } c.jnl.waiting

end Sys2Proof.Machine
end

