-- ==== Sys2Proof/Machine/Memory.lean ====
section
/-! DEFINITION. The physical memory map (R80 to R84), the SEC-DED code and the poison mark
(R432 to R435), reads with correction, tracking and hard faults (R437 to R441), and raw access
(R446, R447). -/

namespace Sys2Proof.Machine

open Sys2Proof

/-- The regions of R80. -/
inductive Region where
  | bootRom | zoneTable | staging | ldpc | carve | tcmA | tcmB | mram | regs | dram
  deriving DecidableEq, Repr

/-- Bytes of usable DRAM (R80, R434). -/
def Mem.dramBytes (m : Mem) : Nat :=
  if m.trainFail then 0 else if m.size = 1 then 0xE0000000 else if m.size = 2 then 0x1C0000000 else 0

/-- The region an address lies in; none is a decode error (R80, R81). `carved` is the size of the
carve-out that responds (R82). -/
def regionOf (m : Mem) (carved a : Nat) : Option Region :=
  if a < 0x40000 then some .bootRom
  else if 0x10000000 ≤ a ∧ a < 0x10800000 then some .zoneTable
  else if 0x10800000 ≤ a ∧ a < 0x10C00000 then some .staging
  else if 0x10C00000 ≤ a ∧ a < 0x10E00000 then some .ldpc
  else if 0x20000000 ≤ a ∧ a < 0x20000000 + min carved 0x200000 then some .carve
  else if 0x28000000 ≤ a ∧ a < 0x28040000 then some .tcmA
  else if 0x28100000 ≤ a ∧ a < 0x28140000 then some .tcmB
  else if 0x30000000 ≤ a ∧ a < 0x30040000 then some .mram
  else if 0x40000000 ≤ a ∧ a < 0x40100000 then some .regs
  else if 0x100000000 ≤ a ∧ a < 0x100000000 + m.dramBytes then some .dram
  else none

/-- Cores and debug ports may write the region (R80). -/
def Region.writable : Region → Bool
  | .bootRom => false
  | .zoneTable => false
  | .staging => true
  | .ldpc => false
  | .carve => true
  | .tcmA => true
  | .tcmB => true
  | .mram => false
  | .regs => true
  | .dram => true

/-! ### Bytes -/

/-- What a byte nothing has written reads: the fill leaves zeros (R436). -/
def memBlank (_ : Nat) : Byte := 0

/-- One byte. -/
def Mem.byte (m : Mem) (a : Nat) : Byte := SMap.get memBlank m.bytes a

/-- Store one byte. -/
def Mem.setByte (m : Mem) (a : Nat) (v : Byte) : Mem :=
  { m with bytes := SMap.put memBlank m.bytes a v }

/-- `n` bytes from an address. -/
def Mem.read (m : Mem) (a : Nat) : Nat → List Byte
  | 0 => []
  | n + 1 => m.byte a :: Mem.read m (a + 1) n

/-- Store bytes from an address upwards. -/
def Mem.write (m : Mem) (a : Nat) : List Byte → Mem
  | [] => m
  | v :: vs => Mem.write (m.setByte a v) (a + 1) vs

/-- Memory is in its canonical form. -/
def Mem.wf (m : Mem) : Bool := SMap.wf memBlank m.bytes

/-- What a word without error holds as its check difference. -/
def syndBlank (_ : Nat) : BitVec 8 := 0

/-- Stored check bits XOR those of the data, for the word at an address. -/
def Mem.syndAt (m : Mem) (a : Nat) : BitVec 8 := SMap.get syndBlank m.synd (a / 8)

/-- Set the check difference of the word at an address. -/
def Mem.setSynd (m : Mem) (a : Nat) (v : BitVec 8) : Mem :=
  { m with synd := SMap.put syndBlank m.synd (a / 8) v }

/-- The poison mark (R433). -/
def poisonSynd : BitVec 8 := 0x7F

/-! ### The code of R432 -/

/-- Bits set in an eight-bit value. -/
def weight8 (n : Nat) : Nat := ((List.range 8).filter (fun i => n.testBit i)).length

/-- Columns of data bits 0 to 63. -/
def dataColumns : List Nat :=
  (List.range 256).filter (fun n => weight8 n == 3)
    ++ [0x1F, 0x2F, 0x37, 0x3B, 0x3D, 0x3E, 0x4F, 0x57]

/-- Columns of all 72 bits: data bits 0 to 63, then check bits 0 to 7. -/
def columns : List Nat := dataColumns ++ (List.range 8).map (2 ^ ·)

/-- The check bits of a data word. -/
def checkBits (d : DWord) : BitVec 8 :=
  (dataColumns.zipIdx).foldl
    (fun x e => if d.getLsbD e.2 then x ^^^ BitVec.ofNat 8 e.1 else x) 0

/-- What a syndrome means (R432). -/
inductive Decoded where
  | clean
  | single (bit : Nat)
  | poison
  | uncorrectable
  deriving DecidableEq, Repr

/-- Decode a syndrome: bits 0 to 63 are data, 64 to 71 check bits. -/
def decodeSynd (s : BitVec 8) : Decoded :=
  if s = 0 then .clean
  else if s = poisonSynd then .poison
  else match columns.findIdx? (· == s.toNat) with
    | some i => .single i
    | none => .uncorrectable

/-- The word at an 8-byte-aligned address, as stored. -/
def Mem.wordAt (m : Mem) (a : Nat) : DWord := BitVec.ofNat 64 (leNat (m.read (a / 8 * 8) 8))

/-- Store a word's data bits and check difference. -/
def Mem.setWord (m : Mem) (a : Nat) (d : DWord) (s : BitVec 8) : Mem :=
  (m.write (a / 8 * 8) (leBytes 8 d.toNat)).setSynd a s

/-- A cell changes: one of the 72 bits of a word flips. -/
def Mem.flip (m : Mem) (a bit : Nat) : Mem :=
  let col := BitVec.ofNat 8 (columns.getD bit 0)
  if bit < 64 then m.setWord a (m.wordAt a ^^^ (1#64 <<< bit)) (m.syndAt a ^^^ col)
  else m.setSynd a (m.syndAt a ^^^ col)

/-! ### MEC and SEE -/

/-- The two controllers: MEC protects DRAM, SEE the SRAM and the TCMs. -/
inductive Ecc where
  | mec | see
  deriving DecidableEq, Repr

/-- Who protects an address. -/
def eccOf (a : Nat) : Ecc := if 0x100000000 ≤ a then .mec else .see

/-- A controller's page. -/
def Ecc.page : Ecc → Nat
  | .mec => 0x41
  | .see => 0x42

/-- REGION of SEE_LAST_INFO and of its events (R453). -/
def seeRegion (a : Nat) : Nat :=
  if a < 0x10800000 then 0 else if a < 0x10C00000 then 1 else if a < 0x10E00000 then 2
  else if a < 0x28040000 then 3 else 4

/-- The 4 KiB page that holds TEST_ADDR while TEST_CTRL.EN is 1 (R447). -/
def Chip.underTest (c : Chip) (a : Nat) : Bool :=
  match eccOf a with
  | .mec => c.bit R.MEC_TEST_CTRL 0 &&
      (c.fld R.MEC_TEST_ADDR_HI 3 0 * 2 ^ 32 + (c.reg R.MEC_TEST_ADDR_LO).toNat) / 4096 == a / 4096
  | .see => c.bit R.SEE_TEST_CTRL 0 && (c.reg R.SEE_TEST_ADDR_LO).toNat / 4096 == a / 4096

/-- The tracking table of a controller, oldest entry first (R440). -/
def Mem.tracks (m : Mem) : Ecc → List Track
  | .mec => m.mecTrack
  | .see => m.seeTrack

/-- Replace a tracking table. -/
def Mem.setTracks (m : Mem) (e : Ecc) (t : List Track) : Mem :=
  match e with
  | .mec => { m with mecTrack := t }
  | .see => { m with seeTrack := t }

/-- Entries a tracking table holds (R440). -/
def Ecc.capacity : Ecc → Nat
  | .mec => 64
  | .see => 16

/-- A requester's write to a word removes its tracking entry (R440). -/
def Mem.untrack (m : Mem) (a : Nat) : Mem :=
  let e := eccOf a
  m.setTracks e ((m.tracks e).filter (fun t => t.addr != a / 8 * 8))

/-- Record a correction or an uncorrectable error in the LAST registers (R439, R451, R453); `bit`
is 127 for an uncorrectable error. -/
def Chip.eccLast (c : Chip) (a : Nat) (s : BitVec 8) (bit : Nat) : Chip :=
  let u := b2n (bit == 127)
  let w := a / 8 * 8
  match eccOf a with
  | .mec =>
    let c := c.setReg R.MEC_LAST_LO (BitVec.ofNat 32 (w % 2 ^ 32 + u))
    c.setReg R.MEC_LAST_HI (BitVec.ofNat 32 (w / 2 ^ 32 % 16 + s.toNat * 2 ^ 8 + bit * 2 ^ 16))
  | .see =>
    let c := c.setReg R.SEE_LAST_ADDR (BitVec.ofNat 32 w)
    c.setReg R.SEE_LAST_INFO
      (BitVec.ofNat 32 (u + seeRegion a * 2 ^ 4 + s.toNat * 2 ^ 8 + bit * 2 ^ 16))

/-- A hard fault: counted, its page or word latched, raised and recorded (R441). -/
def Chip.hardFault (c : Chip) (a : Nat) : Chip :=
  match eccOf a with
  | .mec =>
    let c := (c.bump R.MEC_HARD_CNT).setReg R.MEC_HARD_PAGE (BitVec.ofNat 32 (a / 4096 % 2 ^ 24))
    (c.raise 0x41 1).event 0x7802 [a / 4096]
  | .see =>
    let c := (c.bump R.SEE_HARD_CNT).setReg R.SEE_HARD_WORD (BitVec.ofNat 32 (a / 8 * 8))
    (c.raise 0x42 1).event 0x7C02 [seeRegion a, a / 8]

/-- Track a corrective write-back (R440): a new entry, the oldest replaced when the table is full.
A correction of a tracked word is a hard fault the first time (R441). -/
def Chip.trackCorrection (c : Chip) (a : Nat) : Chip :=
  let e := eccOf a
  let w := a / 8 * 8
  let ts := c.mem.tracks e
  match ts.find? (fun t => t.addr == w) with
  | some t =>
    if t.reported then c
    else
      let ts := ts.map (fun x => if x.addr = w then { x with reported := true } else x)
      ({ c with mem := c.mem.setTracks e ts }).hardFault a
  | none =>
    if ts.length < e.capacity then { c with mem := c.mem.setTracks e (ts ++ [Track.mk w false]) }
    else
      let c := { c with mem := c.mem.setTracks e (ts.drop 1 ++ [Track.mk w false]) }
      match e with
      | .mec => (c.setFld R.MEC_TRACK 31 16 (satSucc (c.fld R.MEC_TRACK 31 16) 0xFFFF)).raise 0x41 3
      | .see => (c.setFld R.SEE_TRACK 31 16 (satSucc (c.fld R.SEE_TRACK 31 16) 0xFFFF)).raise 0x42 2

/-- The counters of corrections, uncorrectable errors and reads of stored poison. -/
def Ecc.corr : Ecc → Nat
  | .mec => R.MEC_CORR_CNT
  | .see => R.SEE_CORR_CNT

def Ecc.uncorr : Ecc → Nat
  | .mec => R.MEC_UNCORR_CNT
  | .see => R.SEE_UNCORR_CNT

def Ecc.seen : Ecc → Nat
  | .mec => R.MEC_POISON_SEEN
  | .see => R.SEE_POISON_SEEN

/-- Read one word through the checker: the data delivered, whether it carries the mark, and the
chip after any correction, mark write-back and report (R432, R437, R439, R441, R447). -/
def Chip.readWord (c : Chip) (a : Nat) : DWord × Bool × Chip :=
  let d := c.mem.wordAt a
  let s := c.mem.syndAt a
  let e := eccOf a
  match decodeSynd s with
  | .clean => (d, false, c)
  | .single bit =>
    let d := if bit < 64 then d ^^^ (1#64 <<< bit) else d
    let c := (c.bump e.corr).eccLast a s bit
    if c.underTest a then (d, false, c)
    else (d, false, ({ c with mem := c.mem.setWord a d 0 }).trackCorrection a)
  | .poison => (d, true, c.bump e.seen)
  | .uncorrectable =>
    if c.underTest a then (d, true, (c.bump e.uncorr).eccLast a s 127)
    else
      let c := { c with mem := c.mem.setSynd a poisonSynd }
      let c := ((c.bump e.uncorr).eccLast a s 127).raise e.page 0
      (d, true, c.event (match e with | .mec => 0x7801 | .see => 0x7C01) [a / 8 * 8])

/-- Read words from an aligned address: the bytes, whether any word carries the mark, and the chip. -/
def Chip.readWords (c : Chip) (a : Nat) : Nat → List Byte × Bool × Chip
  | 0 => ([], false, c)
  | n + 1 =>
    let r := c.readWord a
    let t := Chip.readWords r.2.2 (a + 8) n
    (leBytes 8 r.1.toNat ++ t.1, r.2.1 || t.2.1, t.2.2)

/-- Read a byte range through the checker. -/
def Chip.readRange (c : Chip) (a n : Nat) : List Byte × Bool × Chip :=
  let start := a / 8 * 8
  let r := c.readWords start ((a + n + 7) / 8 - a / 8)
  (slice r.1 (a - start) n, r.2.1, r.2.2)

/-- Write bytes that lie in one word (R435): a whole word takes fresh check bits; part of a word is
merged, and the merged word stays poisoned if the old one was poisoned or uncorrectable. -/
def Chip.writeInWord (c : Chip) (a : Nat) (bs : List Byte) : Chip :=
  if a % 8 = 0 ∧ bs.length = 8 then
    let m := (c.mem.write a bs).setSynd a 0
    { c with mem := m.untrack a }
  else
    let r := c.readWord a
    let c := r.2.2
    let m := (c.mem.setWord a r.1 0).write a bs
    { c with mem := (m.setSynd a (if r.2.1 then poisonSynd else 0)).untrack a }

/-- Write a byte string, word by word; `n` bounds the words it can touch. -/
def Chip.writeRangeAux (c : Chip) (a : Nat) (bs : List Byte) : Nat → Chip
  | 0 => c
  | n + 1 =>
    if bs.isEmpty then c
    else
      let k := 8 - a % 8
      Chip.writeRangeAux (c.writeInWord a (bs.take k)) (a + k) (bs.drop k) n

/-- Write a byte string from an address upwards. -/
def Chip.writeRange (c : Chip) (a : Nat) (bs : List Byte) : Chip :=
  c.writeRangeAux a bs (bs.length / 8 + 2)

/-- Store words with the poison mark on those listed. -/
def Chip.poisonWord (c : Chip) (a : Nat) : Chip :=
  { c with mem := (c.mem.setSynd a poisonSynd).untrack a }

/-- An address range lies in usable DRAM (R80). -/
def Chip.inDram (c : Chip) (a n : Nat) : Bool :=
  0x100000000 ≤ a && a + n ≤ 0x100000000 + c.mem.dramBytes

/-- An address range lies in the SRAM regions. -/
def inSram (a n : Nat) : Bool := 0x10000000 ≤ a && a + n ≤ 0x10E00000

/-- An address range lies in usable DRAM or in the SRAM, and step 7 of BOOT has filled it: before that no DMA
agent reads it (R47). -/
def Chip.memReadable (c : Chip) (a n : Nat) : Bool :=
  (c.inDram a n && c.mem.filledDram) || (inSram a n && c.mem.filledSram)

/-- The addresses that a fill of step 7 covers (R436, R500). -/
def fillCovers (m : FillMem) (a : Nat) : Bool :=
  match m with
  | .dram => decide (0x100000000 ≤ a)
  | .sram => inSram a 1 || (decide (0x28000000 ≤ a) && decide (a < 0x28040000)) ||
      (decide (0x28100000 ≤ a) && decide (a < 0x28140000))
  | .l2 => decide (0x20000000 ≤ a) && decide (a < 0x20200000)

/-- Zeros with their check bits go to every word of a memory (R436). -/
def Mem.fill (m : Mem) (f : FillMem) : Mem :=
  { m with
    bytes := m.bytes.filter (fun e => !fillCovers f e.1)
    synd := m.synd.filter (fun e => !fillCovers f (8 * e.1)) }

/-- A word address lies in the memory of a controller's page (R446). -/
def Chip.inPage (c : Chip) (e : Ecc) (a : Nat) : Bool :=
  match e with
  | .mec => c.inDram a 8
  | .see => inSram a 8 || (0x28000000 ≤ a && a + 8 ≤ 0x28040000) || (0x28100000 ≤ a && a + 8 ≤ 0x28140000)

/-- Registers of raw access, per controller: address, data low and high, check, command. -/
def Ecc.testAddr (e : Ecc) (c : Chip) : Nat :=
  match e with
  | .mec => c.fld R.MEC_TEST_ADDR_HI 3 0 * 2 ^ 32 + (c.reg R.MEC_TEST_ADDR_LO).toNat
  | .see => (c.reg R.SEE_TEST_ADDR_LO).toNat

def Ecc.rLo : Ecc → Nat
  | .mec => R.MEC_TEST_DATA_LO
  | .see => R.SEE_TEST_DATA_LO

def Ecc.rHi : Ecc → Nat
  | .mec => R.MEC_TEST_DATA_HI
  | .see => R.SEE_TEST_DATA_HI

def Ecc.rCheck : Ecc → Nat
  | .mec => R.MEC_TEST_CHECK
  | .see => R.SEE_TEST_CHECK

def Ecc.rCmd : Ecc → Nat
  | .mec => R.MEC_TEST_CMD
  | .see => R.SEE_TEST_CMD

/-- A raw command (R446): refused with ERROR for an address that is not aligned or not in the page's
memory. It is an RWD register: nothing happens outside MANUFACTURE and DIAGNOSTIC. -/
def Chip.rawAccess (c : Chip) (e : Ecc) (write : Bool) : Chip :=
  if !c.alive then c
  else if !c.diagOpen then c.ignored e.page 1 (e.rCmd % 4096)
  else
    let a := e.testAddr c
    if a % 8 ≠ 0 ∨ !c.inPage e a then c.setFld e.rCmd 4 4 1
    else
      let c := c.setFld e.rCmd 4 4 0
      let d := BitVec.ofNat 64 ((c.reg e.rLo).toNat + (c.reg e.rHi).toNat * 2 ^ 32)
      if write then
        let k := BitVec.ofNat 8 (c.fld e.rCheck 7 0)
        { c with mem := (c.mem.setWord a d (k ^^^ checkBits d)).untrack a }
      else
        let d := c.mem.wordAt a
        let s := c.mem.syndAt a
        let c := c.setReg e.rLo (d.setWidth 32)
        let c := c.setReg e.rHi ((d >>> 32).setWidth 32)
        c.setReg e.rCheck (BitVec.ofNat 32 ((s ^^^ checkBits d).toNat + s.toNat * 2 ^ 8))

/-- MEC_WRITE_RAW (R446). -/
def execMecWriteRaw (s : State) : Host.Outcome State Fault Refusal := s.next (s.chip.rawAccess .mec true)

/-- MEC_READ_RAW (R446). -/
def execMecReadRaw (s : State) : Host.Outcome State Fault Refusal := s.next (s.chip.rawAccess .mec false)

/-- SEE_WRITE_RAW (R446). -/
def execSeeWriteRaw (s : State) : Host.Outcome State Fault Refusal := s.next (s.chip.rawAccess .see true)

/-- SEE_READ_RAW (R446). -/
def execSeeReadRaw (s : State) : Host.Outcome State Fault Refusal := s.next (s.chip.rawAccess .see false)

/-- Read the words of a burst in turn, as the scrubber does. -/
def Chip.scrubWords (c : Chip) (a : Nat) : Nat → Chip
  | 0 => c
  | n + 1 => Chip.scrubWords (c.readWord a).2.2 (a + 8) n

/-- The burst lies in a page an enabled MEC_EXCL entry names (R442, R445). -/
def Chip.excluded (c : Chip) (a : Nat) : Bool :=
  (List.range 16).any (fun n => c.bit (R.MEC_EXCL n) 31 && c.fld (R.MEC_EXCL n) 23 0 == a / 4096)

/-- The DRAM scrubber reads its next burst (R442); `flips` names the cells, as (word, bit), that have
changed in it. It pauses in HOLDUP and self-refresh and skips excluded pages; at the end of a lap
the duration is latched and LAP_LATE raised if it exceeds LAP_TARGET. -/
def mecScrub (c : Chip) (flips : List (Nat × Nat)) (lapSeconds : Nat) : Chip :=
  if !c.alive || !c.mem.filledDram || c.inHoldup || c.bit R.DDR_STATUS 1 || !c.bit R.MEC_SCRUB_CTRL 0
    || c.mem.dramBytes == 0 then c
  else
    let a := max (c.fld R.MEC_SCRUB_POS 29 0 * 64) 0x100000000
    let hit (m : Mem) (f : Nat × Nat) : Mem := m.flip (a + 8 * (f.1 % 8)) f.2
    let c := { c with mem := flips.foldl hit c.mem }
    let c := if c.excluded a then c else c.scrubWords a 8
    if a + 64 < 0x100000000 + c.mem.dramBytes then
      c.setReg R.MEC_SCRUB_POS (BitVec.ofNat 32 ((a + 64) / 64))
    else
      let c := c.setReg R.MEC_SCRUB_POS (BitVec.ofNat 32 (0x100000000 / 64))
      let c := c.setReg R.SCRUB_LAP (BitVec.ofNat 32 lapSeconds)
      if c.fld R.MEC_SCRUB_CFG 31 16 < lapSeconds then c.raise 0x41 2 else c

/-- MEC_SCRUB_BURST (R442). -/
def execMecScrubBurst (flips : List (Nat × Nat)) (lapSeconds : Nat) (s : State) :
    Host.Outcome State Fault Refusal := s.next (mecScrub s.chip flips lapSeconds)

/-- The SRAM scrubber reads one word (R443). -/
def seeScrub (c : Chip) (a : Nat) (flips : List Nat) (lapMs : Option Nat) : Chip :=
  if !c.alive || !c.mem.filledSram || c.inHoldup || !c.bit R.SEE_SCRUB_CTRL 0 || !c.inPage .see (a / 8 * 8)
  then c
  else
    let c := { c with mem := flips.foldl (fun m f => m.flip a f) c.mem }
    let c := (c.readWord a).2.2
    match lapMs with
    | some t => c.setReg R.SEE_LAP (BitVec.ofNat 32 t)
    | none => c

/-- SEE_SCRUB_WORD (R443). -/
def execSeeScrubWord (a : Nat) (flips : List Nat) (lapMs : Option Nat) (s : State) :
    Host.Outcome State Fault Refusal := s.next (seeScrub s.chip a flips lapMs)

/-- Periodic retraining (R431, R449, R450): counted; MR4 is reported, and code 7 in either
channel (PRESUMED: the high-temperature limit exceeded) raises HOT with an event. RETRAIN is raised when
a delay moved by more than 1/8 UI. -/
def ddrRetrain (c : Chip) (a b : Nat) (moved : Bool) : Chip :=
  if !c.alive || !c.bit R.DDR_STATUS 0 then c
  else
    let c := c.bump R.DDR_RETRAIN_CNT
    let c := (c.setFld R.DDR_STATUS 6 4 a).setFld R.DDR_STATUS 10 8 b
    let c := if moved then c.raise 0x40 1 else c
    if 7 ≤ a ∨ 7 ≤ b then (c.raise 0x40 0).event 0x7401 [a, b] else c

/-- DDR_RETRAIN (R431). -/
def execDdrRetrain (mr4a mr4b : Fin 8) (moved : Bool) (s : State) :
    Host.Outcome State Fault Refusal := s.next (ddrRetrain s.chip mr4a.val mr4b.val moved)

end Sys2Proof.Machine
end

