-- ==== Sys2Proof/Machine/Cpu.lean ====
section
/-! DEFINITION. The cores and their caches (R490 to R515): release, the L2 and its lines, maintenance, the
carve-out, way locking, parity, the accesses of a core that reach memory, and interrupts. -/

namespace Sys2Proof.Machine

open Sys2Proof

/-! ### Cores -/

/-- Core `n` is an application core. -/
def isApp (n : Nat) : Bool := decide (n < 6)

/-- A core runs: released (R491), and not held after a cluster-fatal error (R510). -/
def Chip.coreRuns (c : Chip) (n : Nat) : Bool :=
  let stopped : Bool := match c.sys.holdup with
    | some h => h.inBoot
    | none => false
  c.alive && !stopped && decide (8 ≤ c.bootStep) && c.bit R.CPU_RELEASE n && !(isApp n && c.cpu.fatal)

/-- A core takes a precise abort (R496): its cause and address; a second one sets OVF. -/
def Chip.coreAbort (c : Chip) (n cause addr : Nat) : Chip :=
  let k := R.CPU_ABT n
  let ovf := c.bit k 31
  let c := c.setReg k (BitVec.ofNat 32 (2 ^ 31 + b2n ovf * 2 ^ 30 + cause))
  let c := c.setReg (R.CPU_ABT_ADDR_LO n) (BitVec.ofNat 32 (addr % 2 ^ 32))
  c.setReg (R.CPU_ABT_ADDR_HI n) (BitVec.ofNat 32 (addr / 2 ^ 32 % 16))

/-- The first and last address of a real-time core's TCM. -/
def tcmOf (n : Nat) : Nat × Nat := if n = 6 then (0x28000000, 0x2803FFFF) else (0x28100000, 0x2813FFFF)

/-- Start a core (R491). -/
def Chip.releaseCore (c : Chip) (n : Nat) : Chip :=
  let boot := (c.reg (R.CPU_BOOT_ADDR n)).toNat * 16
  let t := tcmOf n
  if c.bit R.CPU_RELEASE n then c
  else if !isApp n ∧ (boot < t.1 ∨ t.2 < boot) then c.fault 0x50 3
  else
    let c := c.setBit R.CPU_RELEASE n true
    if isApp n then
      { c with cpu := { c.cpu with
          l1iInv := insertNat c.cpu.l1iInv n, l1dInv := insertNat c.cpu.l1dInv n } }
    else c

/-- A write to CPU_RELEASE (R491). -/
def cpuRelease (c : Chip) (v : Word) : Chip :=
  if !c.alive then c
  else
    let p := c.preWrite R.CPU_RELEASE v
    (List.range 8).foldl (fun c n => if p.2.getLsbD n then c.releaseCore n else c) p.1

/-- CPU_RELEASE (R491). -/
def execCpuRelease (v : Word) (s : State) : Host.Outcome State Fault Refusal := s.next (cpuRelease s.chip v)

/-! ### Lines of the L2 (R499) -/

def Chip.carvedWays (c : Chip) : Nat := c.fld R.CPU_L2_CARVE 4 0
def Chip.lockedWay (c : Chip) (w : Nat) : Bool := c.bit R.CPU_L2_LOCK w
def Chip.l2On (c : Chip) : Bool := c.bit R.CPU_L2_CTRL 0

def l2Key (set way : Nat) : Nat := set * 16 + way
def l2Set (addr : Nat) : Nat := addr / 64 % 2048
def lineOf (addr : Nat) : Nat := addr / 64 * 64

/-- Replace the L2's lines. -/
def Chip.setL2 (c : Chip) (m : SMap L2Line) : Chip := { c with cpu := { c.cpu with l2 := m } }

/-- The key of the line that holds an address, if it is cached. -/
def Chip.l2Find (c : Chip) (addr : Nat) : Option Nat :=
  ((List.range 16).map (l2Key (l2Set addr))).find? (fun k =>
    match c.cpu.l2.find? k with
    | some l => l.addr == lineOf addr
    | none => false)

/-- Some line is dirty (CPU_L2_CTRL.DIRTY). -/
def Chip.l2Dirty (c : Chip) : Bool := c.cpu.l2.any (fun e => e.2.dirty)

/-- The error is fatal to the cluster (R510): its dirty data is lost. -/
def Chip.clusterFatal (c : Chip) (k : Nat) : Chip :=
  let v := 2 ^ 31 + 2 * 2 ^ 29 + k / 16 % 2048 * 2 ^ 16 + k % 16
  let c := { c with cpu := { c.cpu with
    fatal := true, l2 := c.cpu.l2.filter (fun e => !e.2.dirty)
    waits := c.cpu.waits.filter (fun w => !isApp w.core) } }
  let c := (c.setReg R.CPU_FATAL (BitVec.ofNat 32 v)).raise 0x50 0
  (c.event 0x8801 [v]).setBit R.SYS_ALERT 2 true

/-- A clean line's parity error is recovered (R509). -/
def Chip.parityClean (c : Chip) : Chip := (c.bump R.CPU_PAR_CLEAN_CNT).raise 0x50 1

/-- The line is read, or found by maintenance or eviction: an error that stands in it shows (R509, R514). A
clean line is dropped and counted; a dirty one is fatal; a speculative one that nothing consumed is dropped with
no other effect (R28). Answers whether it stands. -/
def Chip.checkLine (c : Chip) (k : Nat) : Chip × Bool :=
  if c.cpu.inject.contains k then
    let c := { c with cpu := { c.cpu with inject := c.cpu.inject.filter (· != k) } }
    match c.cpu.l2.find? k with
    | some l =>
      if l.dirty then (c.clusterFatal k, false)
      else
        let c := c.setL2 (c.cpu.l2.erase k)
        (if l.spec then c else c.parityClean, false)
    | none => (c, false)
  else (c, true)

/-- A core consumes a line: it is speculative no longer. Answers whether it was. -/
def Chip.consumeLine (c : Chip) (k : Nat) : Chip × Bool :=
  match c.cpu.l2.find? k with
  | some l => if l.spec then (c.setL2 (c.cpu.l2.set k { l with spec := false }), true) else (c, false)
  | none => (c, false)

/-- Write a line's bytes and marks to memory. -/
def Chip.storeLine (c : Chip) (l : L2Line) : Chip :=
  let c := c.writeRange l.addr l.data
  l.poison.foldl (fun c i => c.poisonWord (l.addr + 8 * i)) c

/-- Write a line back if it is dirty; it stays, clean. -/
def Chip.cleanLine (c : Chip) (k : Nat) : Chip :=
  let p := c.checkLine k
  match p.2, p.1.cpu.l2.find? k with
  | true, some l =>
    if l.dirty then (p.1.storeLine l).setL2 (p.1.cpu.l2.set k { l with dirty := false }) else p.1
  | _, _ => p.1

/-- Make a line invalid, its data discarded. -/
def Chip.dropLine (c : Chip) (k : Nat) : Chip :=
  let p := c.checkLine k
  if p.2 then p.1.setL2 (p.1.cpu.l2.erase k) else p.1

/-- Write a line back if it is dirty, then make it invalid. -/
def Chip.flushLine (c : Chip) (k : Nat) : Chip := (c.cleanLine k).dropLine k

/-- The words of a range that carry the mark, with the range as read (R437). -/
def Chip.readMarked (c : Chip) (a : Nat) : Nat → List Byte × List Nat × Chip
  | 0 => ([], [], c)
  | n + 1 =>
    let r := c.readWord a
    let t := Chip.readMarked r.2.2 (a + 8) n
    (leBytes 8 r.1.toNat ++ t.1, if r.2.1 then n :: t.2.1 else t.2.1, t.2.2)

/-- Bytes of the boot ROM, whose content is not the spec's. -/
def romBytes (a n : Nat) : List Byte :=
  slice ((List.range (n / 4 + 2)).flatMap (fun i => leBytes 4 (Config.bootRom (a / 4 * 4 + 4 * i)).toNat)) (a % 4) n

/-- A word of the MRAM as a core or a debug port reads it (R84): the slots of key groups 7 to 10 read 0. -/
def Chip.mramRead (c : Chip) (off : Nat) : Word :=
  let slot := off / 64
  if bootGroup 7 ≤ slot ∧ slot ≤ bootGroup 10 + 1 then 0
  else
    let w := c.mramWord (off / 8)
    if off % 8 < 4 then w.setWidth 32 else (w >>> 32).setWidth 32

/-- Bytes of the MRAM as a core reads them. -/
def Chip.mramBytes (c : Chip) (off n : Nat) : List Byte :=
  slice ((List.range (n / 4 + 2)).flatMap (fun i => leBytes 4 (c.mramRead (off / 4 * 4 + 4 * i)).toNat)) (off % 4) n

/-- A zone descriptor as its 16 bytes lie in the descriptor table (R188). -/
def Chip.zoneDescriptor (c : Chip) (i : Nat) : BitVec 128 :=
  let z := c.zone i
  BitVec.ofNat 128 (z.kind + z.state * 2 ^ 4 + z.nsid * 2 ^ 8 + b2n z.hot * 2 ^ 11 + b2n z.cleaning * 2 ^ 12
    + b2n z.secure * 2 ^ 13 + (zoneAct i).toNat * 2 ^ 14 + z.gen * 2 ^ 16
    + (if z.hasBand then z.ann * 2 ^ 24 + z.band * 2 ^ 32 else 0) + z.mwp * 2 ^ 50 + z.live * 2 ^ 67
    + z.wtime * 2 ^ 84 + z.tmin * 2 ^ 108 + z.tmax * 2 ^ 116)

/-- Bytes of the descriptor table (R80, R188). -/
def Chip.zoneBytes (c : Chip) (off n : Nat) : List Byte :=
  slice (leBytes 16 (c.zoneDescriptor (off / 16)).toNat) (off % 16) n

/-- Fill a line from memory. -/
def Chip.readLine (c : Chip) (a : Nat) : L2Line × Chip :=
  if a < 0x40000 then ({ addr := a, dirty := false, data := romBytes a 64 }, c)
  else
    let r := c.readMarked a 8
    ({ addr := a, dirty := false, data := r.1, poison := r.2.1.map (fun n => 7 - n) }, r.2.2)

/-- Ways a fill may take (R499, R513). -/
def Chip.fillWays (c : Chip) : List Nat :=
  if c.bit R.CPU_L2_LOCK 20 then [c.fld R.CPU_L2_LOCK 19 16]
  else (List.range 16).filter (fun w => decide (c.carvedWays ≤ w) && !c.lockedWay w)

/-- Make room for a line (R499, R513): which of the allowed ways gives place is pseudo-LRU, which the spec does
not state further: a free choice. Answers the key, none where the victim was fatal. -/
def Chip.makeRoom (c : Chip) (addr : Nat) : Option Nat × Chip :=
  let ws := c.fillWays
  if ws.isEmpty then (none, c)
  else
    let p := c.takeFree 4
    let k := l2Key (l2Set addr) (ws.getD (p.1.toNat % ws.length) 0)
    let c := p.2.flushLine k
    (if c.cpu.fatal then none else some k, c)

/-- A miss fills a line. Answers the key, none where no way could give place. -/
def Chip.fillLine (c : Chip) (addr : Nat) : Option Nat × Chip :=
  match c.makeRoom addr with
  | (none, c) => (none, c)
  | (some k, c) =>
    let r := c.readLine (lineOf addr)
    (some k, r.2.setL2 (r.2.cpu.l2.set k r.1))

/-- The line that serves an access, filled if it was not cached, refetched if a clean one failed (R509). What
the read of a speculative line reports is reported when the line is consumed (R28, R438). -/
def Chip.getLine (c : Chip) (addr : Nat) : Option Nat × Chip :=
  match c.l2Find addr with
  | some k =>
    let q := c.consumeLine k
    let p := q.1.checkLine k
    if p.2 then (some k, if q.2 then (p.1.readLine (lineOf addr)).2 else p.1)
    else if p.1.cpu.fatal then (none, p.1) else p.1.fillLine addr
  | none => c.fillLine addr

/-! ### Accesses of a core -/

/-- A CPU_ATTR window makes the address non-cacheable (R494). -/
def Chip.inWindow (c : Chip) (addr : Nat) : Bool :=
  (List.range 16).any (fun w =>
    let k := R.CPU_ATTR w
    let start := c.fld k 15 0 * 2 ^ 20
    c.bit k 31 && decide (start ≤ addr) && decide (addr < start + 2 ^ (20 + c.fld k 27 24)))

/-- The access goes through the caches (R492, R494, R503). -/
def Chip.cacheable (c : Chip) (n : Nat) (r : Region) (addr : Nat) : Bool :=
  isApp n && c.l2On && (r == .bootRom || (r == .dram && !c.inWindow addr))

/-- The core's own TCM. -/
def ownTcm (n : Nat) (r : Region) : Bool := (n == 6 && r == .tcmA) || (n == 7 && r == .tcmB)

/-- Execute permission (R492). -/
def mayExecute (n : Nat) (r : Region) : Bool :=
  r == .bootRom || ownTcm n r || (isApp n && (r == .carve || r == .dram))

/-- The bytes of a carve-out that responds. -/
def Chip.carveBytes (c : Chip) : Nat := c.carvedWays * 0x20000

/-- The abort cause of an access from its address alone (R81, R84, R492, R496); 0 none. -/
def Chip.accessCause (c : Chip) (n : Nat) (x : CoreAccess) : Nat :=
  match regionOf c.mem c.carveBytes x.addr with
  | none => 1
  | some r =>
    if !([1, 2, 4, 8].contains x.size) || x.addr % x.size != 0 then 1
    else if x.kind = .fetch ∧ !mayExecute n r then 1
    else if x.kind = .store ∧ r = .bootRom then 1
    else if x.kind = .store ∧ !r.writable then 2
    else if r = .regs ∧ (x.size ≠ 4 ∨ !populated (x.addr / 4096 % 256)) then 1
    else 0

/-- Slots pending in a channel (R296): addresses of the sectors whose slot is filled and not decided. -/
def Chan.pendingSlots (x : Chan) : List Nat :=
  match x.run with
  | some (.rd r) => r.pend.map (fun i => r.words.w4.toNat + field r.words.w5 3 0 * 2 ^ 32 + 4096 * i)
  | _ => []

/-- Bytes `[a, a + n)` touch a 4 KiB slot. -/
def touches (a n slot : Nat) : Bool := decide (a < slot + 4096) && decide (slot < a + n)

/-- The bytes touch a pending slot (R297). -/
def Chip.slotPending (c : Chip) (a n : Nat) : Bool :=
  (c.chanA.pendingSlots ++ c.chanB.pendingSlots).any (touches a n)

/-- Replace bytes of a line from an offset. -/
def patch (bs : List Byte) (off : Nat) (new : List Byte) : List Byte :=
  bs.take off ++ new ++ bs.drop (off + new.length)

/-- What a load returns to its core; a fetch returns nothing that a program sees. -/
def Chip.loaded (c : Chip) (n : Nat) (x : CoreAccess) (data : List Byte) : Chip :=
  if x.kind = .load then c.emit (.load n data) else c

/-- A load or store that hits a line (R495, R499): a store makes it dirty and, where it covers a whole word,
clears that word's mark; a load of a marked word aborts. -/
def Chip.lineAccess (c : Chip) (n k : Nat) (x : CoreAccess) : Chip :=
  match c.cpu.l2.find? k with
  | none => c
  | some l =>
    let off := x.addr % 64
    if x.kind = .store then
      let keep := if x.size = 8 then l.poison.filter (· != off / 8) else l.poison
      c.setL2 (c.cpu.l2.set k { l with dirty := true, data := patch l.data off x.data, poison := keep })
    else if l.poison.contains (off / 8) then c.coreAbort n 3 x.addr
    else c.loaded n x (slice l.data off x.size)

/-- An access that reaches memory directly. -/
def Chip.directAccess (c : Chip) (n : Nat) (r : Region) (x : CoreAccess) : Chip :=
  if r = .carve then
    let k := l2Key (x.addr / 64 % 2048) ((x.addr - 0x20000000) / 0x20000)
    if x.kind ≠ .store ∧ c.cpu.inject.contains k then
      ({ c with cpu := { c.cpu with inject := c.cpu.inject.filter (· != k) } }).coreAbort n 5 x.addr
    else if x.kind = .store then c.writeRange x.addr x.data
    else c.loaded n x (c.mem.read x.addr x.size)
  else if r = .mram then c.loaded n x (c.mramBytes (x.addr - 0x30000000) x.size)
  else if r = .bootRom then c.loaded n x (romBytes x.addr x.size)
  else if x.kind = .store then c.writeRange x.addr x.data
  else
    let p := c.readRange x.addr x.size
    if p.2.1 then p.2.2.coreAbort n (if ownTcm n r then 6 else 3) x.addr
    else p.2.2.loaded n x (if r = .zoneTable then c.zoneBytes (x.addr - 0x10000000) x.size else p.1)

/-- A core's access to memory that nothing holds back. -/
def Chip.memoryAccess (c : Chip) (n : Nat) (r : Region) (x : CoreAccess) : Chip :=
  if c.cacheable n r x.addr then
    match c.getLine x.addr with
    | (some k, c) => c.lineAccess n k x
    | (none, c) => c
  else c.directAccess n r x

/-- An access that must wait for a slot's decision: one that reaches memory and touches a pending slot. A load
or store that hits a cached line does not (R495). -/
def Chip.mustWaitSlot (c : Chip) (n : Nat) (r : Region) (x : CoreAccess) : Bool :=
  if c.cacheable n r x.addr then
    (c.l2Find x.addr).isNone && c.slotPending (lineOf x.addr) 64
  else c.slotPending x.addr x.size

/-- A speculative prefetch (R28, R298, R493): of a cacheable line that is not cached. One that touches a
pending slot is dropped. The fill has no effect but the line, and the one whose place it takes. -/
def Chip.prefetch (c : Chip) (n addr : Nat) : Chip :=
  match regionOf c.mem c.carveBytes addr with
  | none => c
  | some r =>
    if !c.coreRuns n || !c.cacheable n r addr || (c.l2Find addr).isSome || c.slotPending (lineOf addr) 64 then c
    else match c.makeRoom addr with
      | (none, c) => c
      | (some k, c) => c.setL2 (c.cpu.l2.set k { (c.readLine (lineOf addr)).1 with spec := true })

/-- A core's access to memory (R492 to R497), but for a prefetch. Register pages are not among its regions. -/
def Chip.coreMemory (c : Chip) (n : Nat) (x : CoreAccess) : Chip :=
  if !c.coreRuns n || c.cpu.waits.any (fun w => w.core == n) then c
  else
    let cause := c.accessCause n x
    if cause ≠ 0 then c.coreAbort n cause x.addr
    else match regionOf c.mem c.carveBytes x.addr with
      | none => c
      | some r =>
        if c.mustWaitSlot n r x then
          { c with cpu := { c.cpu with waits := c.cpu.waits ++ [⟨n, x⟩] } }
        else c.memoryAccess n r x

/-- An access that waited goes on, or aborts because its slot was rejected (R297). -/
def Chip.endWait (c : Chip) (w : CoreWait) (conf : Bool) : Chip :=
  if !conf then c.coreAbort w.core 4 w.access.addr
  else match regionOf c.mem c.carveBytes w.access.addr with
    | some r => c.memoryAccess w.core r w.access
    | none => c

/-- Status word 0 of a slot is written (R297): the accesses that waited for it end, in the order they came. -/
def Chip.slotDecided (c : Chip) (slot : Nat) (conf : Bool) : Chip :=
  let hit (w : CoreWait) : Bool :=
    match regionOf c.mem c.carveBytes w.access.addr with
    | some r =>
      if c.cacheable w.core r w.access.addr then touches (lineOf w.access.addr) 64 slot
      else touches w.access.addr w.access.size slot
    | none => false
  let ws := c.cpu.waits.filter hit
  if ws.isEmpty then c
  else
    let c := { c with cpu := { c.cpu with waits := c.cpu.waits.filter (fun w => !hit w) } }
    ws.foldl (fun c w => c.endWait w conf) c

/-! ### Enable and disable (R501 to R503) -/

/-- The L2 is disabled; every L1 with it. -/
def Chip.l2Off (c : Chip) : Chip := { c.setBit R.CPU_L2_CTRL 0 false with cpu := { c.cpu with l2Inv := false } }

/-- A write to CPU_L2_CTRL (R501, R502). -/
def cpuL2Ctrl (c : Chip) (v : Word) : Chip :=
  if !c.alive then c
  else
    let k := R.CPU_L2_CTRL
    let p := c.preWrite k v
    let c := p.1.setReg k (p.1.reg k &&& ~~~ (p.2 &&& 0x18))
    let c := c.setBit k 1 (p.2.getLsbD 1)
    let on := p.2.getLsbD 0
    if on == c.l2On then c
    else if on then
      if c.cpu.l2Inv then c.setBit k 0 true else (c.setBit k 3 true).raise 0x50 3
    else if !c.l2Dirty then c.l2Off
    else if p.2.getLsbD 1 then
      let ks := (c.cpu.l2.filter (fun e => e.2.dirty)).map (·.1)
      (ks.foldl Chip.flushLine c).l2Off
    else (c.setBit k 4 true).raise 0x50 2

/-- CPU_L2_CTRL_WRITE (R502). -/
def execCpuL2CtrlWrite (v : Word) (s : State) : Host.Outcome State Fault Refusal := s.next (cpuL2Ctrl s.chip v)

/-- CPU_L1_CTRL.INV (R501, R514): both L1s of the core are invalidated whole. -/
def cpuL1Inv (c : Chip) (n : Nat) : Chip :=
  if !c.alive then c
  else { c with cpu := { c.cpu with
    l1iInv := insertNat c.cpu.l1iInv n, l1dInv := insertNat c.cpu.l1dInv n } }

/-- CPU_L1_INV (R514). -/
def execCpuL1Inv (n : Fin 6) (s : State) : Host.Outcome State Fault Refusal := s.next (cpuL1Inv s.chip n.val)

/-- One L1 enable bit is written (R501): refused where the L1 was not invalidated since its disable. -/
def Chip.l1Bit (c : Chip) (n bit : Nat) (on inv : Bool) : Chip :=
  let k := R.CPU_L1_CTRL n
  if on == c.bit k bit then c
  else if !on then c.setBit k bit false
  else if inv then c.setBit k bit true
  else (c.setBit k 4 true).raise 0x50 3

/-- A write of the enable bits of a core's L1s. Disabling one asks for an invalidate before it is enabled
again. -/
def cpuL1Enable (c : Chip) (n : Nat) (ien den : Bool) : Chip :=
  if !c.alive then c
  else
    let k := R.CPU_L1_CTRL n
    let offI := c.bit k 0 && !ien
    let offD := c.bit k 1 && !den
    let c := (c.l1Bit n 0 ien (c.cpu.l1iInv.contains n)).l1Bit n 1 den (c.cpu.l1dInv.contains n)
    { c with cpu := { c.cpu with
      l1iInv := if offI then c.cpu.l1iInv.filter (· != n) else c.cpu.l1iInv
      l1dInv := if offD then c.cpu.l1dInv.filter (· != n) else c.cpu.l1dInv } }

/-- CPU_L1_ENABLE (R501). -/
def execCpuL1Enable (n : Fin 6) (ien den : Bool) (s : State) : Host.Outcome State Fault Refusal :=
  s.next (cpuL1Enable s.chip n.val ien den)

/-! ### Maintenance (R504 to R508) -/

/-- What an operation does to a line: 1 CLEAN, 2 INVALIDATE, 3 CLEAN_INV. -/
def Chip.maintain (c : Chip) (op k : Nat) : Chip :=
  if (c.cpu.l2.find? k).isNone then c
  else match op with
    | 1 => c.cleanLine k
    | 2 => c.dropLine k
    | 3 => c.flushLine k
    | _ => c

/-- Apply an operation to its scope; answers the RESULT the set will show (R504, R507, R508). -/
def Chip.applyCm (c : Chip) (n op scope : Nat) : Nat × Chip :=
  match scope with
  | 0 =>
    let addr := c.fld (R.CPU_CM_ADDR_HI n) 3 0 * 2 ^ 32 + (c.reg (R.CPU_CM_ADDR_LO n)).toNat
    match c.l2Find addr with
    | some k => (1, c.maintain op k)
    | none => (1, c)
  | 1 =>
    let sw := c.reg (R.CPU_CM_SETWAY n)
    if field sw 19 16 < c.carvedWays then (2, c) else (1, c.maintain op (l2Key (field sw 10 0) (field sw 19 16)))
  | _ =>
    let c := (c.cpu.l2.map (·.1)).foldl (fun c k => c.maintain op k) c
    (1, if op = 2 ∨ op = 3 then { c with cpu := { c.cpu with l2Inv := true } } else c)

/-- A write to CPU_CM_CMD with GO 1 (R504, R506, R515). -/
def cmGo (c : Chip) (n op scope : Nat) : Chip :=
  if !c.alive then c
  else
    let k := R.CPU_CM_CMD n
    if scope = 3 then c.fault 0x50 3
    else if (c.cpu.cm.find? n).isSome then c.fault 0x50 5
    else
      let r := c.applyCm n op scope
      let c := ((r.2.setFld k 5 4 scope).setFld k 3 2 op).setBit k 6 true
      { c with cpu := { c.cpu with cm := c.cpu.cm.set n r.1 } }

/-- CM_CLEAN (R504). -/
def execCmClean (n : Fin 8) (scope : Fin 4) (s : State) : Host.Outcome State Fault Refusal :=
  s.next (cmGo s.chip n.val 1 scope.val)

/-- CM_INVALIDATE (R504). -/
def execCmInvalidate (n : Fin 8) (scope : Fin 4) (s : State) : Host.Outcome State Fault Refusal :=
  s.next (cmGo s.chip n.val 2 scope.val)

/-- CM_CLEAN_INV (R504). -/
def execCmCleanInv (n : Fin 8) (scope : Fin 4) (s : State) : Host.Outcome State Fault Refusal :=
  s.next (cmGo s.chip n.val 3 scope.val)

/-- An operation completes (R506). -/
def cmDone (c : Chip) (n : Nat) : Chip :=
  match c.cpu.cm.find? n with
  | none => c
  | some r =>
    if !c.alive then c
    else
      let k := R.CPU_CM_CMD n
      let c := { c with cpu := { c.cpu with cm := c.cpu.cm.erase n } }
      (((c.setBit k 6 false).setBit k 7 true).setFld k 9 8 r).raise 0x50 4

/-- CM_DONE (R506). -/
def execCmDone (n : Fin 8) (s : State) : Host.Outcome State Fault Refusal := s.next (cmDone s.chip n.val)

/-! ### Carve-out, locking and windows (R494, R511 to R515) -/

/-- Ways that neither the carve-out nor the lock takes from replacement. -/
def freeWays (carved : Nat) (locked : Word) : Nat :=
  ((List.range 16).filter (fun w => decide (carved ≤ w) && !locked.getLsbD w)).length

/-- The layout of R512 is allowed. -/
def Chip.layoutOk (c : Chip) (carved : Nat) (locked : Word) : Bool :=
  !(List.range carved).any (fun w => locked.getLsbD w) && (!c.l2On || freeWays carved locked != 0)

/-- The bytes of a way's window are zeros. -/
def Mem.zeroWay (m : Mem) (w : Nat) : Mem :=
  let lo := 0x20000000 + w * 0x20000
  { m with bytes := m.bytes.filter (fun e => !(decide (lo ≤ e.1) && decide (e.1 < lo + 0x20000))) }

/-- A way joins the carve-out (R511). -/
def Chip.joinCarve (c : Chip) (w : Nat) : Chip :=
  let ks := (c.cpu.l2.filter (fun e => e.1 % 16 == w)).map (·.1)
  let c := ks.foldl Chip.flushLine c
  { c with mem := c.mem.zeroWay w }

/-- A write to CPU_L2_CARVE (R511, R512, R515). -/
def cpuL2Carve (c : Chip) (v : Word) : Chip :=
  if !c.alive then c
  else
    let k := R.CPU_L2_CARVE
    let c := (c.preWrite k v).1
    let new := field v 4 0
    let old := c.carvedWays
    if 16 < new then c.fault 0x50 3
    else if !c.layoutOk new (c.reg R.CPU_L2_LOCK) then c.fault 0x50 6
    else
      let c := ((List.range new).filter (fun w => decide (old ≤ w))).foldl Chip.joinCarve c
      let c := ((List.range old).filter (fun w => decide (new ≤ w))).foldl
        (fun c w => { c with mem := c.mem.zeroWay w }) c
      c.setFld k 4 0 new

/-- CPU_L2_CARVE (R511). -/
def execCpuL2Carve (v : Word) (s : State) : Host.Outcome State Fault Refusal := s.next (cpuL2Carve s.chip v)

/-- A write to CPU_L2_LOCK (R512, R513, R515). -/
def cpuL2Lock (c : Chip) (v : Word) : Chip :=
  if !c.alive then c
  else
    let k := R.CPU_L2_LOCK
    let p := c.preWrite k v
    let c := p.1
    if field v 19 16 < c.carvedWays then c.fault 0x50 3
    else if !c.layoutOk c.carvedWays v then c.fault 0x50 6
    else c.setReg k p.2

/-- CPU_L2_LOCK (R513). -/
def execCpuL2Lock (v : Word) (s : State) : Host.Outcome State Fault Refusal := s.next (cpuL2Lock s.chip v)

/-- A write to CPU_ATTR_w (R494, R515). -/
def cpuAttr (c : Chip) (w : Nat) (v : Word) : Chip :=
  if !c.alive then c
  else
    let k := R.CPU_ATTR w
    let p := c.preWrite k v
    let c := p.1
    let size := field v 27 24
    let lo := field v 15 0
    if 12 < size ∨ lo % 2 ^ size ≠ 0 ∨ !c.inDram (lo * 2 ^ 20) 1 then c.fault 0x50 3
    else c.setReg k p.2

/-- CPU_ATTR_WRITE (R494). -/
def execCpuAttrWrite (w : Fin 16) (v : Word) (s : State) : Host.Outcome State Fault Refusal :=
  s.next (cpuAttr s.chip w.val v)

/-! ### Parity (R509, R514) -/

/-- A parity error is found (R509). In a speculative line it stands, with no effect, until the line is
consumed. -/
def cacheParityError (c : Chip) (p : ParityAt) : Chip :=
  if !c.alive then c
  else match p with
    | .l1 n data => if c.l2On && c.bit (R.CPU_L1_CTRL n.val) (if data then 1 else 0) then c.parityClean else c
    | .l2 set way dirtyBad =>
      let k := l2Key set.val way.val
      match c.cpu.l2.find? k with
      | none => c
      | some l =>
        if l.spec then { c with cpu := { c.cpu with inject := insertNat c.cpu.inject k } }
        else if l.dirty || dirtyBad then c.clusterFatal k
        else
          let r := (c.setL2 (c.cpu.l2.erase k)).readLine l.addr
          (r.2.setL2 (r.2.cpu.l2.set k r.1)).parityClean
    | .carve n addr =>
      if c.coreRuns n.val && regionOf c.mem c.carveBytes addr == some .carve then c.coreAbort n.val 5 addr else c

/-- CACHE_PARITY_ERROR (R509). -/
def execCacheParityError (p : ParityAt) (s : State) : Host.Outcome State Fault Refusal :=
  s.next (cacheParityError s.chip p)

/-- A write to CPU_INJECT (R514): GO makes the next read of the line find a parity error. -/
def cpuInject (c : Chip) (v : Word) : Chip :=
  if !c.alive then c
  else
    let p := c.preWrite R.CPU_INJECT v
    let c := p.1
    if !c.diagOpen then c
    else
      let c := c.setReg R.CPU_INJECT (p.2 &&& 0x7FFFFFFF)
      if p.2.getLsbD 31 then
        { c with cpu := { c.cpu with
          inject := insertNat c.cpu.inject (l2Key (field v 10 0) (field v 19 16)) } }
      else c

/-- CPU_INJECT (R514). -/
def execCpuInject (v : Word) (s : State) : Host.Outcome State Fault Refusal := s.next (cpuInject s.chip v)

/-! ### Interrupts (R497, R498) -/

/-- The lines a core handles. -/
def Chip.irqOf (c : Chip) (n : Nat) : List (Nat × Nat) := SMap.get (fun _ => []) c.cpu.irq n

def Chip.setIrq (c : Chip) (n : Nat) (xs : List (Nat × Nat)) : Chip :=
  { c with cpu := { c.cpu with irq := SMap.put (fun _ => ([] : List (Nat × Nat))) c.cpu.irq n xs } }

/-- PRIORITY of a line. -/
def Chip.linePri (c : Chip) (l : Nat) : Nat := c.fld (R.INT_ROUTE l) 11 8

/-- Lines pending at a core (R106). -/
def Chip.pendingAt (c : Chip) (n : Nat) : List Nat :=
  let lines := c.lines
  (List.range 64).filter (fun l => lines.getLsbD l && c.bit (R.INT_ROUTE l) n)

/-- The line a core takes: the lowest PRIORITY value, then the lowest number. -/
def Chip.bestLine (c : Chip) : List Nat → Option Nat
  | [] => none
  | l :: ls =>
    match c.bestLine ls with
    | none => some l
    | some m => if c.linePri m < c.linePri l then some m else some l

/-- The ACTIVE fields of CPU_IRQ_n follow the lines handled. -/
def Chip.showIrq (c : Chip) (n : Nat) : Chip :=
  let k := R.CPU_IRQ n
  match c.irqOf n with
  | (l, p) :: _ => c.setReg k (BitVec.ofNat 32 (l + 2 ^ 6 + p * 2 ^ 8))
  | [] => c.setReg k 0x3F

/-- A core takes a pending line (R497). -/
def interruptTaken (c : Chip) (n : Nat) : Chip :=
  if !c.coreRuns n then c
  else match c.bestLine (c.pendingAt n) with
    | none => c
    | some l =>
      let q := c.irqOf n
      let may : Bool := match q with
        | (_, p) :: _ => decide (c.linePri l < p)
        | [] => true
      if may then (c.setIrq n ((l, c.linePri l) :: q)).showIrq n else c

/-- INTERRUPT_TAKEN (R497). -/
def execInterruptTaken (n : Fin 8) (s : State) : Host.Outcome State Fault Refusal :=
  s.next (interruptTaken s.chip n.val)

/-- A write of a line number to CPU_IRQ_n.EOI (R497, R498). -/
def cpuIrqEoi (c : Chip) (n line : Nat) : Chip :=
  if !c.alive then c
  else match c.irqOf n with
    | (l, _) :: q => if l = line then (c.setIrq n q).showIrq n else c.fault 0x50 4
    | [] => c.fault 0x50 4

/-- CPU_IRQ_EOI (R498). -/
def execCpuIrqEoi (n : Fin 8) (line : Fin 64) (s : State) : Host.Outcome State Fault Refusal :=
  s.next (cpuIrqEoi s.chip n.val line.val)

end Sys2Proof.Machine
end

