-- ==== Sys2Proof/Machine/Sha256.lean ====
section
/-! DEFINITION. SHA-256, as the SHA-256 engine of SEC computes it over byte strings (R251), also
piece by piece for the appended bytes of an open value (R170). -/

namespace Sys2Proof.Machine

open Sys2Proof

/-- The largest number whose `e`-th power is not above `n`, found bit by bit below 2 ^ `k`. -/
def natRoot (e n : Nat) : Nat → Nat → Nat
  | 0, r => r
  | k + 1, r => natRoot e n k (if (r + 2 ^ k) ^ e ≤ n then r + 2 ^ k else r)

/-- The first 32 bits of the fractional part of the `e`-th root of a number below 2 ^ 24. -/
def rootWord (e p : Nat) : Word := BitVec.ofNat 32 (natRoot e (p <<< (32 * e)) 44 0)

/-- The primes below a bound, rising. -/
def primesBelow (n : Nat) : List Nat :=
  (List.range n).filter fun p => 2 ≤ p && (List.range 18).all fun d => d < 2 || p ≤ d || p % d != 0

/-- The round constants: from the cube roots of the 64 primes below 312. -/
def shaK : List Word := (primesBelow 312).map (rootWord 3)

/-- The state before the first byte: its words are from the square roots of the first 8 primes. -/
def ShaState.init : ShaState :=
  { h := (primesBelow 20).map (rootWord 2), tail := [], len := 0 }

/-- The big-endian word of four bytes. -/
def beWord (bs : List Byte) : Word :=
  bs.foldl (fun w b => (w <<< 8) ||| b.setWidth 32) 0

/-- The 16 words of a 64-byte chunk. -/
def shaWords : Nat → List Byte → List Word
  | 0, _ => []
  | n + 1, bs => beWord (bs.take 4) :: shaWords n (bs.drop 4)

/-- A word turned right by each of several counts, added bit by bit without carry. -/
def turned (w : Word) (counts : List Nat) : Word :=
  counts.foldl (fun x n => x ^^^ w.rotateRight n) 0

/-- The word of the message schedule that follows those given newest first: the sum of the words 16 and 7
places back and of two mixed words. -/
def shaNext (w : List Word) : Word :=
  let back (n : Nat) : Word := w.getD (n - 1) 0
  back 16 + back 7 + (turned (back 15) [7, 18] ^^^ back 15 >>> 3) + (turned (back 2) [17, 19] ^^^ back 2 >>> 10)

/-- The schedule with `n` words added, newest first. -/
def shaSchedule (n : Nat) (w : List Word) : List Word :=
  n.repeat (fun w => shaNext w :: w) w

/-- For each bit, the second word's where the first has 1 and the third's where it has 0. -/
def bitChoice (x y z : Word) : Word := z ^^^ (x &&& (y ^^^ z))

/-- For each bit, the value at least two of the words have. -/
def bitMajority (x y z : Word) : Word := (x &&& y) ||| (z &&& (x ||| y))

/-- One round over the eight working words, the first and the fifth of which are mixed; `kw` is the sum of
the round's constant and its word of the schedule. -/
def shaRound (v : List Word) (kw : Word) : List Word :=
  let at_ (i : Nat) : Word := v.getD i 0
  let low := at_ 7 + kw + bitChoice (at_ 4) (at_ 5) (at_ 6) + turned (at_ 4) [6, 11, 25]
  let high := bitMajority (at_ 0) (at_ 1) (at_ 2) + turned (at_ 0) [2, 13, 22]
  (low + high) :: (v.take 3 ++ (at_ 3 + low) :: (v.drop 4).take 3)

/-- Absorb one 64-byte chunk. -/
def shaChunk (h : List Word) (bs : List Byte) : List Word :=
  let w := (shaSchedule 48 (shaWords 16 bs).reverse).reverse
  List.zipWith (· + ·) h ((List.zipWith (· + ·) shaK w).foldl shaRound h)

/-- Absorb every whole chunk of a byte string, with as many steps as it has chunks. -/
def shaChunks : Nat → List Word → List Byte → List Word
  | 0, h, _ => h
  | n + 1, h, bs => shaChunks n (shaChunk h (bs.take 64)) (bs.drop 64)

/-- Add bytes to a computation under way. -/
def ShaState.add (s : ShaState) (bs : List Byte) : ShaState :=
  let all := s.tail ++ bs
  let n := all.length / 64
  { h := shaChunks n s.h all, tail := all.drop (64 * n), len := s.len + bs.length }

/-- The digest, its first byte in the highest bits. -/
def ShaState.finish (s : ShaState) : BitVec 256 :=
  let pad := 0x80#8 :: List.replicate ((119 - s.len % 64) % 64) 0#8
    ++ (leBytes 8 (8 * s.len)).reverse
  let all := s.tail ++ pad
  let h := shaChunks (all.length / 64) s.h all
  h.foldl (fun d w => (d <<< 32) ||| w.setWidth 256) 0

/-- SHA-256 of a byte string. -/
def sha256 (bs : List Byte) : BitVec 256 := (ShaState.init.add bs).finish

end Sys2Proof.Machine
end

