-- ==== Sys2Proof/Machine/Sec.lean ====
section
/-! DEFINITION. The jobs of SEC and the draw of its roots (R249, R251, R252), and the checks of a firmware
image (R59). -/

namespace Sys2Proof.Machine

open Sys2Proof

/-- A write of GO to SEC_JOB_CTRL with a KIND (R251, R252): refused with RESULT 2 and FAULT RANGE for KIND 3,
LEN 0, a range outside, or while a job runs; otherwise BUSY. -/
def secGo (c : Chip) (kind : Nat) : Chip :=
  if !c.alive then c
  else
    let a := (c.reg R.SEC_JOB_SRC_LO).toNat + c.fld R.SEC_JOB_SRC_HI 3 0 * 2 ^ 32
    let n := (c.reg R.SEC_JOB_LEN).toNat
    let busy := c.sec.job.isSome
    let c := (c.setFld R.SEC_JOB_CTRL 1 0 kind).setFld R.SEC_JOB_CTRL 19 16 0
    if busy || kind == 3 || n == 0 || !c.memReadable a n then
      (c.setFld R.SEC_JOB_CTRL 26 24 2).fault 0x1A 3
    else
      let c := (c.setFld R.SEC_JOB_CTRL 26 24 0).setBit R.SEC_JOB_CTRL 30 true
      { c with sec := { c.sec with job := some ⟨kind, a, n⟩ } }

/-- SEC_SHA256_JOB (R251). -/
def execSecSha256Job (s : State) : Host.Outcome State Fault Refusal := s.next (secGo s.chip 0)

/-- SEC_CRC32C_JOB (R251). -/
def execSecCrc32cJob (s : State) : Host.Outcome State Fault Refusal := s.next (secGo s.chip 1)

/-- SEC_IMG_VERIFY_JOB (R251). -/
def execSecImgVerifyJob (s : State) : Host.Outcome State Fault Refusal := s.next (secGo s.chip 2)

/-- Step 1 of R59: MAGIC and HDR_LEN, in a header of 256 bytes. -/
def imageMagic (h : List Byte) : Bool :=
  decide (256 ≤ h.length) && decide (leAt h 0 4 = 0x46494C43) && decide (leAt h 4 4 = 256)

/-- Step 2 of R59: IMAGE_LEN, LOAD and ENTRY within their rules, and every reserved byte 0. -/
def Chip.imageFields (c : Chip) (h : List Byte) : Bool :=
  let n := leAt h 12 4
  let load := leAt h 16 8
  let entry := leAt h 24 8
  decide (1 ≤ n) && decide (n ≤ 8388352) && decide (load % 4096 = 0) && c.inDram load n
    && decide (load ≤ entry) && decide (entry < load + n)
    && decide (leAt h 32 4 ≤ 1) && decide (leAt h 36 28 = 0) && decide (leAt h 160 96 = 0)

/-- Step 3 of R59: TEST_KEY 1 is allowed only in BLANK, and in MANUFACTURE before the image key is fused. -/
def Chip.imageKey (c : Chip) (h : List Byte) : Bool :=
  leAt h 32 4 % 2 == 0 || c.effective == 0 || (c.effective == 1 && !c.fuses.imageKey)

/-- Step 4 of R59: the signature verifies under the fused image key or, with TEST_KEY 1, the test key. -/
def Chip.imageSigned (c : Chip) (h : List Byte) (signatureGood : Bool) : Bool :=
  signatureGood && (c.fuses.imageKey || leAt h 32 4 % 2 == 1)

/-- Step 6 of R59: DIGEST is the SHA-256 of the body. -/
def imageDigest (h body : List Byte) : Bool :=
  decide (leNat (slice h 64 32).reverse = (sha256 body).toNat)

/-- The step of R59 at which a header fails, 0 if it passes steps 1 to 4. -/
def Chip.headerStep (c : Chip) (h : List Byte) (signatureGood : Bool) : Nat :=
  if !imageMagic h then 1 else if !c.imageFields h then 2 else if !c.imageKey h then 3
  else if !c.imageSigned h signatureGood then 4 else 0

/-- The step of R59 at which an image in memory fails, 0 if it passes them all. -/
def Chip.imageStep (c : Chip) (image : List Byte) (signatureGood : Bool) : Nat :=
  let h := image.take 256
  let n := leAt h 12 4
  let s := c.headerStep h signatureGood
  if s ≠ 0 then s
  else if image.length < 256 + n then 5
  else if imageDigest h (slice image 256 n) then 0 else 6

/-- The words of a digest enter SEC_DIGEST0 to SEC_DIGEST7, word 0 the first four bytes, least significant byte
first (R6, R252). -/
def Chip.putDigest (c : Chip) (d : BitVec 256) : Chip :=
  let bs := (leBytes 32 d.toNat).reverse
  (List.range 8).foldl (fun c i => c.setReg (R.SEC_DIGEST i) (BitVec.ofNat 32 (leAt bs (4 * i) 4))) c

/-- A job ends (R251, R252): RESULT 3 and no digest where a word of the range carries poison; otherwise the
digest, the CRC or the image's verdict. -/
def secJobDone (c : Chip) (signatureGood : Bool) : Chip :=
  match c.sec.job with
  | none => c
  | some j =>
    if !c.alive then c
    else
      let r := c.readRange j.src j.len
      let c := r.2.2
      let c := ({ c with sec := { c.sec with job := none } }).setBit R.SEC_JOB_CTRL 30 false
      let c :=
        if r.2.1 then c.setFld R.SEC_JOB_CTRL 26 24 3
        else if j.kind = 0 then (c.putDigest (sha256 r.1)).setFld R.SEC_JOB_CTRL 26 24 1
        else if j.kind = 1 then (c.setReg (R.SEC_DIGEST 0) (crc32c r.1)).setFld R.SEC_JOB_CTRL 26 24 1
        else
          let st := c.imageStep r.1 signatureGood
          (c.setFld R.SEC_JOB_CTRL 26 24 (if st = 0 then 1 else 4)).setFld R.SEC_JOB_CTRL 19 16 st
      c.raise 0x1A 0

/-- SEC_JOB_DONE (R252). -/
def execSecJobDone (signatureGood : Bool) (s : State) : Host.Outcome State Fault Refusal :=
  s.next (secJobDone s.chip signatureGood)

/-- A write to SEC_ROOT_INIT (R249, R252): INIT draws both roots in MANUFACTURE; in DIAGNOSTIC it sets FAULT
STATE. The port takes no group once it has failed or is closed (R456, R460). -/
def secRootInit (c : Chip) (v : Word) : Chip :=
  if !c.alive then c
  else
    let p := c.preWrite R.SEC_ROOT_INIT v
    let c := p.1
    if !p.2.getLsbD 0 then c
    else if c.effective ≠ 1 then c.fault 0x1A 4
    else if c.jnl.failed || c.jnl.closed then c
    else
      let x := c.takeRandom 256
      let y := x.2.takeRandom 256
      ((y.2.writeKey 7 1 0 x.1).writeKey 8 2 0 y.1).setBit R.SEC_STATUS 0 true

/-- SEC_ROOT_INIT (R249). -/
def execSecRootInit (s : State) : Host.Outcome State Fault Refusal := s.next (secRootInit s.chip 1)

end Sys2Proof.Machine
end

