-- ==== Sys2Proof/Machine/Mode.lean ====
section
/-! DEFINITION. Mode requests (R31 to R37): the checks of R34, and entry to and exit from REST. -/

namespace Sys2Proof.Machine

open Sys2Proof

/-- A control engine, a channel and a log half by actuator. -/
def Chip.cle (c : Chip) : Act → Cle
  | .A => c.cleA
  | .B => c.cleB

def Chip.setCle (c : Chip) (a : Act) (x : Cle) : Chip :=
  match a with
  | .A => { c with cleA := x }
  | .B => { c with cleB := x }

def Chip.chan (c : Chip) : Act → Chan
  | .A => c.chanA
  | .B => c.chanB

def Chip.setChan (c : Chip) (a : Act) (x : Chan) : Chip :=
  match a with
  | .A => { c with chanA := x }
  | .B => { c with chanB := x }

def Chip.actLog (c : Chip) : Act → ActLog
  | .A => c.logA
  | .B => c.logB

def Chip.setActLog (c : Chip) (a : Act) (x : ActLog) : Chip :=
  match a with
  | .A => { c with logA := x }
  | .B => { c with logB := x }

/-- Retirement has taken effect on the actuator (R392): it is retired, or its retirement is in progress. -/
def Chip.retired (c : Chip) (a : Act) : Bool :=
  (match a with
    | .A => c.chd.retiredA
    | .B => c.chd.retiredB) || c.chd.retiring == some a

/-- The actuator is in calibration (R32). -/
def Chip.calibrating (c : Chip) : Act → Bool
  | .A => c.sys.calA
  | .B => c.sys.calB

/-- The actuator is lost and reloading (R144, R366). -/
def Chip.lostNow (c : Chip) (a : Act) : Bool :=
  match (c.cle a).state with
  | .lost => true
  | .retract => true
  | _ => false

/-- BOOT has completed exactly a step and goes on. -/
def Chip.atStep (c : Chip) (n : Nat) : Bool :=
  c.sys.booting && c.sys.mode == .boot && !c.sys.bootFailed && !c.dbg.scan && c.bootStep == n

/-- The highest step completed (R54). -/
def Chip.step (c : Chip) (n : Nat) : Chip := c.setReg R.SYS_BOOT_STEP (BitVec.ofNat 32 n)

/-- The actuator's heads are loaded and its servo loop is locked; nothing is asked of a retired one. -/
def Chip.servoLocked (c : Chip) (a : Act) : Bool :=
  let loaded : Bool := match a with
    | .A => c.att.loadedA
    | .B => c.att.loadedB
  c.retired a || (loaded && (c.cle a).state == .run && (c.chan a).onTrack)

/-- Step 13 of BOOT (R46): the spindle is at speed, the heads are loaded and both servo loops are locked. -/
def Chip.bootServo (c : Chip) : Chip :=
  if c.atStep 12 && c.att.atSpeed && c.servoLocked .A && c.servoLocked .B then c.step 13 else c

/-- The REFUSE_CODE of a mode request, 0 where it is accepted (R34): the first failing check. -/
def Chip.modeRefusal (c : Chip) (target sub : Nat) (calA calB : Bool) : Nat :=
  let e := c.effective
  if c.sys.trans.isSome then 1
  else match target, c.sys.mode with
    | 1, .service => if e = 0 ∨ e = 4 then 3 else if !calA && !calB then 4 else 0
    | 2, .rest => 0
    | 3, .service => if sub ≠ 1 ∧ sub ≠ 2 then 2 else if e = 0 then 3 else 0
    | 4, .service => if e = 1 ∨ e = 3 then 0 else 3
    | _, _ => 2

/-- A refused SYS_MODE_REQ (R34): REFUSED and the first failing code; GO has returned to 0. -/
def Chip.refuseMode (c : Chip) (code : Nat) : Chip :=
  ((c.setFld R.SYS_MODE_REQ 23 20 code).setBit R.SYS_MODE_REQ 17 true).setBit R.SYS_MODE_REQ 8 false

/-- The mode becomes SERVICE: the page table's area is lent out (R195, R202). -/
def Chip.enterService (c : Chip) : Chip :=
  let c := if c.bit R.DDR_STATUS 1 then c.setBit R.DDR_STATUS 1 false else c
  { c with
    sys := { c.sys with mode := .service, restSub := 0, trans := none, reqBusy := false }
    loc := { c.loc with ptPresent := false, ptBuilding := false, pages := [] }
    nvq := { c.nvq with ps := 0 } }

/-- Entry to REST begins (R34, R588): the request is accepted, TRANSITION rises, and the power state is that of the
sub-state (R121). -/
def Chip.startRest (c : Chip) (sub : Nat) (byReq : Bool) : Chip :=
  { c with
    sys := { c.sys with trans := some ⟨.rest, sub⟩, reqBusy := byReq }
    nvq := { c.nvq with ps := sub } }

/-- REST, or entry to it, ends and the mode is SERVICE (R37). -/
def Chip.leaveRest (c : Chip) : Chip :=
  match c.sys.trans with
  | some t => if t.target = .rest then c.enterService else c
  | none => if c.sys.mode = .rest then c.enterService else c

/-- The boot record names a slot and an attempt count (R49, R470). -/
def Chip.writeBootRecord (c : Chip) (active attempts lastFail version pcc : Nat) : Chip :=
  if c.jnl.failed || c.jnl.closed then c
  else c.writeGroup (bootGroup 0) 0x70
    [(8, 1, active), (9, 1, attempts), (10, 1, lastFail), (12, 4, version), (16, 3, pcc)]

/-- A field of the boot record, 0 where no record passes its check. -/
def Chip.bootField (c : Chip) (start n : Nat) : Nat :=
  match c.group (bootGroup 0) with
  | some bs => leAt bs start n
  | none => 0

end Sys2Proof.Machine
end

