-- ==== Sys2Proof/Machine/Ladder.lean ====
section
/-! DEFINITION. The fields of a descriptor (R270, R319), staging slots (R25, R26), and the sectors on the retry ladder
(R301 to R314): readers that leave it, and its end. -/

namespace Sys2Proof

/-! ### Fields of a descriptor (R270, R319) -/

open Machine in
def DescWords.track (w : DescWords) : Nat := field w.w0 19 0
open Machine in
def DescWords.head (w : DescWords) : Nat := field w.w0 24 20
open Machine in
def DescWords.op (w : DescWords) : Nat := field w.w0 26 25
open Machine in
def DescWords.ann (w : DescWords) : Nat := field w.w0 29 27
open Machine in
def DescWords.sector (w : DescWords) : Nat := field w.w1 10 0
open Machine in
def DescWords.count (w : DescWords) : Nat := field w.w1 24 16
open Machine in
def DescWords.zone (w : DescWords) : Nat := field w.w2 18 0
open Machine in
def DescWords.gen (w : DescWords) : Nat := field w.w2 26 19
open Machine in
def DescWords.unit (w : DescWords) : Nat := field w.w3 15 0
open Machine in
def DescWords.cls (w : DescWords) : Nat := field w.w3 19 16
open Machine in
def DescWords.tgt (w : DescWords) : Nat := field w.w3 21 20
open Machine in
def DescWords.rdmode (w : DescWords) : Nat := field w.w3 24 23
open Machine in
def DescWords.shift (w : DescWords) : Int := signed 4 (field w.w3 28 25)
open Machine in
def DescWords.typ (w : DescWords) : Nat := field w.w2 30 28
open Machine in
def DescWords.tag (w : DescWords) : Nat := field w.w7 31 16
def DescWords.seedAny (w : DescWords) : Bool := w.w2.getLsbD 31
def DescWords.tgtOvr (w : DescWords) : Bool := w.w3.getLsbD 22
def DescWords.syncPre (w : DescWords) : Bool := w.w3.getLsbD 29
def DescWords.seedList (w : DescWords) : Bool := w.w3.getLsbD 16
def DescWords.dir (w : DescWords) : Bool := w.w0.getLsbD 30
open Machine in
def DescWords.data (w : DescWords) : Nat := w.w4.toNat + field w.w5 3 0 * 2 ^ 32
open Machine in
def DescWords.stat (w : DescWords) : Nat := w.w6.toNat + field w.w7 3 0 * 2 ^ 32

/-- Offsets of a descriptor's sectors. -/
def DescWords.offsets (w : DescWords) : List Nat := List.range (w.count + 1)

/-- Bytes of a write descriptor's status record and seed list (R319). -/
def DescWords.statBytes (w : DescWords) : Nat := 16 + (if w.seedList then 8 * (w.count + 1) else 0)

/-- The words with another OP. -/
def DescWords.withOp (w : DescWords) (op : Nat) : DescWords :=
  { w with w0 := Machine.withField w.w0 26 25 op }

def DescWords.toList (w : DescWords) : List Word := [w.w0, w.w1, w.w2, w.w3, w.w4, w.w5, w.w6, w.w7]

end Sys2Proof

namespace Sys2Proof.Machine

open Sys2Proof

/-- A failure kind's code in an event (R311). -/
def FailKind.code : FailKind → Nat
  | .d => 1
  | .s => 2
  | .n => 3
  | .m => 4

/-- The ladder is at step 3 with an offset commanded. -/
def Ladder.offset (l : Ladder) : Bool := l.step == 3 && l.flying

/-- The offset returns to 0 once no ladder of the channel commands one (R303). -/
def Chip.returnOffset (c : Chip) (a : Act) : Chip :=
  if (c.chan a).ladders.any Ladder.offset then c else c.setReg (R.CLE_OFS a) 0

/-- Replace the ladders of a channel. -/
def Chip.setLadders (c : Chip) (a : Act) (ls : List Ladder) : Chip :=
  let had := (c.chan a).ladders.any Ladder.offset
  let c := c.setChan a { c.chan a with ladders := ls }
  if had then c.returnOffset a else c

/-- A reader leaves every ladder it waits for; a ladder left without readers stops (R314). -/
def Chip.dropReaderOn (c : Chip) (r : Reader) (a : Act) : Chip :=
  if (c.chan a).ladders.any (fun l => l.readers.contains r) then
    c.setLadders a ((c.chan a).ladders.filterMap (fun (l : Ladder) =>
      if l.readers.contains r then
        let rs := l.readers.filter (· != r)
        if rs.isEmpty then none else some { l with readers := rs }
      else some l))
  else c

/-- A reader leaves the ladders of both channels. -/
def Chip.dropReader (c : Chip) (r : Reader) : Chip := (c.dropReaderOn r .A).dropReaderOn r .B

/-- The ladders a reader waits for. -/
def Chip.laddersOf (c : Chip) (r : Reader) : List Ladder :=
  ((c.chan .A).ladders ++ (c.chan .B).ladders).filter (fun l => l.readers.contains r)

/-- The counts of the Actuator Status log when a reader's budget stops its ladders on one actuator (R313). -/
def Chip.countStopped (c : Chip) (r : Reader) (a : Act) : Chip :=
  let ls := (c.chan a).ladders.filter (fun l => l.readers.contains r)
  let g := c.actLog a
  c.setActLog a { g with
    unrecovered := g.unrecovered + (ls.filter (·.failed)).length
    beyond3 := g.beyond3 + (ls.filter (fun l => decide (4 ≤ l.step))).length }

/-- Ladders stop without report (R314). -/
def Chip.stopLadders (c : Chip) (a : Act) : Chip := c.setLadders a []

/-- The band that holds a track of a head: the one that begins nearest at or below it. -/
def Chip.bandAt (c : Chip) (a : Act) (head track : Nat) : Option Nat :=
  (c.loc.bands.foldl (fun (best : Option (Nat × Nat)) e =>
    if bandAct e.1 = a ∧ e.2.head = head ∧ e.2.startTrack ≤ track then
      match best with
      | some (_, t) => if t < e.2.startTrack then some (e.1, e.2.startTrack) else best
      | none => some (e.1, e.2.startTrack)
    else best) none).map Prod.fst

/-! ### Staging slots (R25, R26) -/

/-- The sectors of a pushed read await their slots, whose flags are 0. -/
def Chip.fillSlots (c : Chip) (w : DescWords) (readers : Nat → List Reader) : Chip :=
  { c with slots := w.offsets.foldl (fun m i =>
      m.set (w.data / 4096 + i) { zone := w.zone, unit := w.unit + i, readers := readers i }) c.slots }

/-- A reader is served by a slot that is filled, or is to be, for another. -/
def Chip.shareSlot (c : Chip) (addr : Nat) (r : Reader) : Chip :=
  { c with slots := c.slots.update (addr / 4096) (fun (s : Slot) =>
      if s.readers.contains r then s else { s with readers := s.readers ++ [r] }) }

/-- The channel that filled a slot confirms its sector. -/
def Chip.confirmSlot (c : Chip) (addr : Nat) : Chip :=
  { c with slots := c.slots.update (addr / 4096) (fun (s : Slot) => { s with conf := true }) }

/-- A slot held for readers is released once none of them needs it; one that firmware holds stays. -/
def Chip.keepSlots (c : Chip) (needs : Reader → Bool) : Chip :=
  { c with slots := c.slots.filterMap (fun (e : Nat × Slot) =>
      if e.2.readers.isEmpty then some e
      else
        let rs := e.2.readers.filter needs
        if rs.isEmpty then none else some (e.1, { e.2 with readers := rs })) }

end Sys2Proof.Machine
end

