-- ==== Sys2Proof/Machine/Pages.lean ====
section
/-! DEFINITION. The page table as a whole (R195, R202 to R204): its area of the DRAM, its check against descriptors and
hot map, its build, and the entry to REBUILD (R34, R215). -/

namespace Sys2Proof.Machine

open Sys2Proof

/-! ### The area (R202) -/

/-- A slot lies in the area of the page table, 512 MiB of the DRAM. -/
def inPageArea (slot : Nat) : Bool :=
  decide (Config.pageArea ≤ 4096 * slot) && decide (4096 * slot < Config.pageArea + 2 ^ 29)

/-- What the area caches, held for no reader, is evicted. -/
def Chip.evictArea (c : Chip) : Chip :=
  { c with slots := c.slots.filter (fun e => !(inPageArea e.1 && e.2.readers.isEmpty)) }

/-- A read slot in the area is not yet released. -/
def Chip.areaHeld (c : Chip) : Bool := c.slots.any (fun e => inPageArea e.1)

/-! ### Check and build (R203, R204) -/

/-- A KIND 1 or 2 zone's descriptor cannot stand beside the band table and the hot map. -/
def Chip.zoneBad (c : Chip) (i : Nat) : Bool :=
  let z := c.zone i
  (z.kind == 1 || z.kind == 2) &&
    (z.hot != !(c.hotOfZone i).isEmpty || (z.mwp != 0 && (match c.bandOfZone i with
      | none => true
      | some k => (c.band k).isNone || c.loc.zones.any (fun e => e.1 != i && c.bandOfZone e.1 == some k))))

/-- A chunk of a KIND 1 or 2 zone below MWP that the page table does not map to BAND and the chunk of its number, with
STATE 2 exactly where the hot map holds entries (R203). -/
def Chip.badChunk (c : Chip) (i : Nat) : Option Nat :=
  let z := c.zone i
  if z.kind = 1 ∨ z.kind = 2 then
    (List.range ((z.mwp + 255) / 256)).find? (fun k =>
      c.loc.pages.find? (i * 256 + k) != some (pageEntry (if c.hotInChunk i k then 2 else 1) z.band k))
  else none

/-- The first zone and chunk of the map that do not agree. -/
def Chip.mismatch (c : Chip) : Option (Nat × Nat) :=
  c.loc.zones.findSome? (fun e => if c.zoneBad e.1 then some (e.1, 0) else (c.badChunk e.1).map (fun k => (e.1, k)))

/-- The band table REBUILD works on (R215): that of the latest checkpoint that passed its check, beside the keys as they
stand; else every band may hold data. -/
def Loc.rebuildBands (l : Loc) : SMap Band :=
  match l.ckptBands with
  | some bs => bs.map (fun e => (e.1, { e.2 with salt := (l.bands.find? e.1).bind Band.salt }))
  | none => l.bands

/-- The mode becomes REBUILD (R34, R215): the page table is back in its area with every entry not yet
recovered, and the hot map and the stale maps are built anew from the scan. -/
def Chip.enterRebuild (c : Chip) : Chip :=
  let zs := c.loc.zones.map (fun e => (e.1, { e.2 with hot := false }))
  let fresh : Rebuild := { all := c.loc.ckptBands.isNone }
  let c := c.evictArea
  { c with
    sys := { c.sys with mode := .rebuild, trans := none, reqBusy := false, restSub := 0 }
    loc := { c.loc with
      pages := [], ptPresent := true, ptBuilding := true, hot := [], stale := [], zones := zs
      bands := c.loc.rebuildBands, rebuildA := fresh, rebuildB := fresh } }

/-- Locus finds an inconsistency it cannot resolve (R34, R203): INCONSISTENT, its event and, in SERVICE,
REBUILD. -/
def mapInconsistency (c : Chip) (zone chunk : Nat) : Chip :=
  if !c.alive || c.inHoldup || c.effective == 0 then c
  else
    let c := (c.raise 0x18 3).event 0x3001 [zone, chunk]
    if c.sys.mode = .service ∧ c.sys.trans.isNone then c.enterRebuild else c

/-- The page table is built from the live descriptors and hot map (R204); a mismatch found is an inconsistency. -/
def Chip.buildPages (c : Chip) : Chip :=
  match List.find? (fun (e : Nat × Zone) => c.zoneBad e.1) c.loc.zones with
  | some e => mapInconsistency c e.1 0
  | none =>
    let c := { c with loc := { c.loc with pages := [], ptPresent := true, ptBuilding := false } }
    (c.loc.zones.map Prod.fst).foldl Chip.repage c

/-- BUILD (R202, R204): the area is taken back first; a build waits while a read slot in it is not released. -/
def Chip.startBuild (c : Chip) : Chip :=
  let c := c.evictArea
  if c.areaHeld then { c with loc := { c.loc with ptBuilding := true } } else c.buildPages

/-- A build that waited goes on. -/
def Chip.continueBuild (c : Chip) : Chip :=
  if c.loc.ptBuilding && !c.areaHeld && (c.sys.mode == .service || c.sys.mode == .rest) then c.buildPages else c

end Sys2Proof.Machine
end

