-- ==== Sys2Proof/Machine/Work.lean ====
section
/-! DEFINITION. Work that goes on by itself once a command has changed the state: the record of a zone's advance
(R207), redirections (R200, R201), SUSPECT bands and Read Only zones (R193, R194), secure discards (R244), the end
of cleaning jobs (R234 to R236), Segment Store operations (R168, R176), unmapping commands (R242), zone finishes
(R625), flushes (R18, R130) and shutdowns (R134). What needs a record waits, changing nothing, while the record
must (R19). -/

namespace Sys2Proof.Machine

open Sys2Proof

/-- A status as (SCT, SC, DNR). -/
abbrev Status := Nat × Nat × Bool

/-- Decide a command with a status. -/
def Chip.fail (c : Chip) (x : InCmd) (st : Status) : Chip :=
  c.finish (x.status st.1 st.2.1 st.2.2)

/-- `k` slots of the journal must be free below the high-water mark, so that none of several operations in a row
has to wait (R19). -/
def Chip.mustWaitFor (c : Chip) (src : JnlSource) (k : Nat) : Bool :=
  c.mustWait src || (!src.exempt && decide (c.hwmSlots ≤ c.jnl.used + k))

/-- Actuators a namespace lies on (R124, R144). -/
def nsActs (nsid : Nat) : List Act :=
  if nsid = 1 then [.A] else if nsid = 2 then [.B] else if nsid = 3 ∨ nsid = 4 then [.A, .B] else []

/-- The actuators some zones lie on. -/
def actsOf (zs : List Nat) : List Act :=
  (if zs.any (fun i => zoneAct i == .A) then [Act.A] else [])
    ++ (if zs.any (fun i => zoneAct i == .B) then [Act.B] else [])

/-! ### The record of a zone's advance (R207) -/

/-- Staged LBAs of a zone that are on the media, as units in rising order. -/
def Chip.onMedia (c : Chip) (zone : Nat) : List Nat :=
  ((c.nvq.staging.filter (fun u => u.zone == zone)).flatMap
    (fun u => u.media.map (fun o => u.unit + o))).foldl insertNat []

/-- Runs of consecutive units, as (first, count), of a rising list. -/
def runsOf : List Nat → List (Nat × Nat)
  | [] => []
  | u :: us =>
    match runsOf us with
    | (f, n) :: rs => if f = u + 1 ∧ n < 65535 then (u, n + 1) :: rs else (u, 1) :: (f, n) :: rs
    | [] => [(u, 1)]

/-- Hot map entries an advance to `written` removes: units written at the append point after the entry was made
(R200). -/
def Chip.passedHot (c : Chip) (zone : Nat) : List HotRec :=
  let z := c.zone zone
  ((c.hotOfZone zone).filter (fun e => decide (z.mwp ≤ e.1 ∧ e.1 < z.written) && z.passed.contains e.1)).map
    (fun e => ⟨0, zone, e.1, 0, z.gen⟩)

/-- Hot map records of at most four entries of one actuator (R208). -/
def hotRecs (a : Act) : Nat → List HotRec → List Rec
  | 0, _ => []
  | _ + 1, [] => []
  | k + 1, e :: es => .hot a.toNat ((e :: es).take 4) :: hotRecs a k ((e :: es).drop 4)

/-- Locus has an advance of the zone to commit: units written to its band, or sectors of a conventional
zone written in place. -/
def Chip.advanced (c : Chip) (zone : Nat) : Bool :=
  let z := c.zone zone
  if z.kind = 3 then !(c.onMedia zone).isEmpty else decide (z.mwp < z.written)

/-- The records of a zone's advance: MWP with LIVE, which a namespace 4 zone counts by extents, and stamps, or
written-bitmap ranges, at most six to a record (R467); and the entries it removes. -/
def Chip.advanceRecs (c : Chip) (zone : Nat) : List Rec :=
  let z := c.zone zone
  if z.kind = 3 then
    [.mwp zone z.gen 1 0 z.live z.wtime z.tmin z.tmax ((runsOf (c.onMedia zone)).take 6)]
  else
    let es := c.passedHot zone
    let kept := ((c.hotOfZone zone).filter
      (fun e => decide (z.mwp ≤ e.1 ∧ e.1 < z.written) && !z.passed.contains e.1)).length
    .mwp zone z.gen 0 z.written (if z.nsid = 4 then z.live else z.live + (z.written - z.mwp) - kept) z.wtime z.tmin
        z.tmax []
      :: hotRecs (zoneAct zone) es.length es

/-- A zone's advance is committed, unless its record already waits. -/
def Chip.commitMwp (c : Chip) (zone : Nat) : Chip :=
  let waits := c.jnl.waiting.any (fun op => op.recs.any (fun r => match r with
    | .mwp z _ _ _ _ _ _ _ _ => z == zone
    | _ => false))
  if waits || !c.advanced zone then c else (c.commit .locus (c.advanceRecs zone) [])

/-! ### Redirections that wait (R200, R201) -/

/-- An insertion must wait for a slot (R201). -/
def Chip.hotFull (c : Chip) : Chip := (c.setBit R.LOC_MAP 2 true).raise 0x18 1

/-- A unit has no entry, and both its buckets are full. -/
def Chip.noSlot (c : Chip) (zone unit : Nat) : Bool :=
  (c.hotOf zone unit).isNone && (c.bucketFor zone unit).isNone

/-- Commit the hot map entry of a unit written to the media cache; it waits for a slot (R201) or for the journal
(R19). -/
def Chip.redirect (c : Chip) (a : Act) (zone unit csec : Nat) : Chip :=
  let wait : HotWait := ⟨zone, unit, csec⟩
  let held := { c with loc := { c.loc with hotWait := c.loc.hotWait ++ [wait] } }
  if c.noSlot zone unit then held.hotFull
  else if c.mustWait .locus then held
  else c.commit .locus [.hot a.toNat [⟨1, zone, unit, csec, (c.zone zone).gen⟩]] []

/-- The redirections that wait are tried again, in order. -/
def Chip.placeWaits (c : Chip) : List HotWait → Chip
  | [] => c
  | w :: ws =>
    let c := Chip.redirect c (zoneAct w.zone) w.zone w.unit w.csec
    Chip.placeWaits c ws

/-- Redirections that wait and can be committed now. -/
def Chip.retryWaits (c : Chip) : Chip :=
  let ws := c.loc.hotWait
  if c.mustWait .locus || ws.all (fun w => c.noSlot w.zone w.unit) then c
  else ({ c with loc := { c.loc with hotWait := [] } }).placeWaits ws

/-- An insertion waits for a slot: a redirection, or an entry of a deallocation (R201). -/
def Chip.hotStuck (c : Chip) : Bool :=
  c.loc.hotWait.any (fun w => c.noSlot w.zone w.unit) ||
    c.nvq.inflight.any (fun x => x.slotWait && x.result.isNone)

/-- HOT_FULL falls once no insertion waits (R218). -/
def Chip.settleHotFull (c : Chip) : Chip :=
  if c.bit R.LOC_MAP 2 && !c.hotStuck then c.setBit R.LOC_MAP 2 false else c

/-! ### Secure discards (R244) -/

/-- A band's release, and its overwrite where one was due, is complete. -/
def SecureDiscard.released (d : SecureDiscard) (k : Nat) : SecureDiscard :=
  { d with bands := d.bands.filter (· != k) }

/-- The key of a band that a discard waits for is destroyed: the destruction is not final yet (R250). -/
def SecureDiscard.destroyed (d : SecureDiscard) (k : Nat) : SecureDiscard :=
  if d.bands.contains k then { d with final := 1 } else d

/-- A checkpoint starts at once for a discard that waits on a final destruction, or follows the one that runs
(R250). -/
def Chip.seekFinal (c : Chip) : Chip :=
  if c.bcl.discards.any (fun d => d.final == 1) then
    ({ c with jnl := { c.jnl with ckptNext := true } }).maybeCkpt
  else c

/-- Change every secure discard. -/
def Chip.mapDiscards (c : Chip) (f : SecureDiscard → SecureDiscard) : Chip :=
  { c with bcl := { c.bcl with discards := c.bcl.discards.map f } }

/-- The release of a band has destroyed its key. -/
def Chip.keyGone (c : Chip) (k : Nat) : Chip := (c.mapDiscards (fun d => d.destroyed k)).seekFinal

/-- A band's release, and its overwrite where one was due, is complete. -/
def Chip.bandGone (c : Chip) (k : Nat) : Chip := c.mapDiscards (fun d => d.released k)

/-- A job that secure discards wait for failed, or its zone became Read Only (R236): they complete with Internal
Error. -/
def Chip.discardFailed (c : Chip) (zone : Nat) : Chip :=
  let bad := c.bcl.discards.filter (fun d => d.jobs.contains zone)
  let c := { c with bcl := { c.bcl with
    discards := c.bcl.discards.filter (fun d => !d.jobs.contains zone) } }
  bad.foldl (fun c d => match d.post with
    | some r => c.finish { r with sct := 0, sc := 0x06, dnr := false }
    | none => c) c

/-! ### SUSPECT bands and Read Only zones -/

/-- The zone whose band is `k`, if any. -/
def Chip.zoneOfBand (c : Chip) (k : Nat) : Option Nat :=
  (List.find? (fun e => c.bandOfZone e.1 == some k) c.loc.zones).map Prod.fst

/-- A zone becomes Read Only (R194, R208), once its record is complete (R19). -/
def Chip.makeReadOnly (c : Chip) (zone : Nat) : Chip :=
  let z := c.zone zone
  if c.mustWait .locus then
    { c with loc := { c.loc with readOnlyDue := insertNat c.loc.readOnlyDue zone } }
  else
    (((c.commit .locus [.zoneState zone z.gen 5 z.gen z.mwp z.live] []).raise 0x18 7).zoneChanged
      zone).discardFailed zone

/-- A band is found SUSPECT (R193): BAND_SUSPECT and its event. -/
def Chip.noteSuspect (c : Chip) (k : Nat) : Chip :=
  let w := match c.band k with
    | some b => b.wfaults
    | none => 0
  (c.raise 0x18 6).event 0x3002 [(bandAct k).toNat, k % 262144, w]

/-- The zone that a SUSPECT band serves is cleaned with REASON 2, or becomes Read Only where no FREE band lies beyond
the general reserve (R194). -/
def Chip.leaveSuspect (c : Chip) (k : Nat) : Chip :=
  match c.zoneOfBand k with
  | none => c
  | some i =>
    let a := bandAct k
    if (c.zone i).state = 5 ∨ (c.zone i).state = 6 then c
    else if c.freeCount a ≤ c.fld R.LOC_RESERVE 7 0 then c.makeReadOnly i
    else (c.setQueue a ((c.bcl.queue a).filter (fun j => j.zone != i))).queueJob { zone := i, reason := 2 }

/-- A band becomes SUSPECT with its record (R193, R208), and its zone leaves it (R194). -/
def Chip.suspectBand (c : Chip) (k : Nat) : Chip :=
  match c.band k with
  | none => c
  | some b =>
    if b.state = .suspect ∨ b.state = .retired then c
    else if c.mustWait .locus then
      { c with loc := { c.loc with suspects := insertNat c.loc.suspects k } }
    else
      ((c.commit .locus [.bandState k 3 0 b.wfaults] []).noteSuspect k).leaveSuspect k

/-! ### The end of cleaning jobs (R234 to R236) -/

/-- FLAGS of a cleaning record (R238). -/
def jobFlags (reason : Nat) (secure abandoned suspect overwrite : Bool) : Nat :=
  reason % 16 + 16 * b2n secure + 32 * b2n abandoned + 64 * b2n suspect + 128 * b2n overwrite

/-- A job has a destination: BEGIN is written and the commit is not. -/
def Job.begun (j : Job) : Bool := j.state == .copy || j.state == .verify || j.state == .commit

/-- The destination of a running job is released with ABANDONED (R235). -/
def Chip.releaseDst (c : Chip) (j : Job) (suspect : Bool) : Chip :=
  if j.begun then
    let c := c.commit .bcl [.bclRelease (jobFlags j.reason j.secure true suspect false) j.number j.dst] []
    if suspect then c.noteSuspect j.dst else c
  else c

/-- Host work ends a zone's job before its commit (R234): no SUSPECT, no restart. -/
def Chip.dropJobOf (c : Chip) (zone : Nat) : Chip :=
  let a := zoneAct zone
  let c := c.setQueue a ((c.bcl.queue a).filter (fun j => j.zone != zone))
  match c.bcl.job a with
  | none => c
  | some j =>
    if j.zone ≠ zone ∨ j.state = .release ∨ j.state = .overwrite then c
    else
      let c := (c.releaseDst j false).setJob a none
      c.setZone zone { c.zone zone with cleaning := false }

/-- The REASON 4 jobs that discards still want are queued where the queue has room (R234, R244). -/
def Chip.queueDiscards (c : Chip) : Chip :=
  (c.bcl.discards.flatMap SecureDiscard.jobs).foldl (fun c i =>
    if c.jobBars i 4 || !c.mayClean i || decide (64 ≤ (c.bcl.queue (zoneAct i)).length) then c
    else c.queueJob { zone := i, reason := 4 }) c

/-- A secure discard begins its work once its unmapping is committed: the bands now RELEASING, the zones
that need a REASON 4 job, which replaces a job not yet committed (R234), the actuators to purge and the units of
conventional zones to overwrite. `keys`: the bands' keys are destroyed already. -/
def Chip.startDiscard (c : Chip) (post : Option Completion) (bands jobs : List Nat) (acts : List Act)
    (keys : Bool := false) (conv : List (Nat × Nat × Nat) := []) : Chip :=
  let d : SecureDiscard := { post := post, bands := bands, jobs := jobs
                             purgeA := acts.contains .A, purgeB := acts.contains .B, conv := conv
                             final := if keys then 1 else 0 }
  let c := { c with bcl := { c.bcl with discards := c.bcl.discards ++ [d] } }
  (jobs.foldl (fun c i => (c.dropJobOf i).queueJob { zone := i, reason := 4 }) c).seekFinal

/-- A running job is abandoned for a failure of its destination (R235, R236): it starts again, or after
MAX_RESTART restarts it has failed. The abandonment waits for its record (R19). -/
def Chip.abandonJob (c : Chip) (a : Act) (suspect : Bool) : Chip :=
  match c.bcl.job a with
  | none => c
  | some j =>
    if !j.begun then c
    else if c.mustWait .bcl then c.setJob a (some { j with abandon := some suspect })
    else
      let c := c.releaseDst j suspect
      if j.restarts < j.maxRestart then
        ((c.setJob a (some { zone := j.zone, reason := j.reason, ann := j.ann, maxRestart := j.maxRestart
                             restarts := j.restarts + 1, key := j.key })).bump R.BCL_RESTARTS).raise 0x19 1
      else
        let c := (c.bump R.BCL_JOBS_FAILED).event 0x3402 [j.zone, j.reason, j.restarts]
        let c := (c.raise 0x19 0).setJob a none
        let c := (c.setZone j.zone { c.zone j.zone with cleaning := false }).discardFailed j.zone
        if j.reason = 2 then c.makeReadOnly j.zone else c

/-! ### The Segment Store (R168, R173, R176) -/

/-- Everything of a key that is not recorded yet is dropped, its staged data with it. -/
def Chip.dropFresh (c : Chip) (key : List Byte) : Chip :=
  { c with
    seg := { c.seg with
      fresh := c.seg.fresh.filter (fun w => w.key != key)
      pend := c.seg.pend.filter (fun o => o.key != key) }
    nvq := { c.nvq with staging := c.nvq.staging.filter (fun u => !(u.nsid == 4 && u.key == key)) } }

/-- The secure discard of extents begins: bands that were released are waited for, bands that still hold
live data are cleaned (R244). `before` is the chip before the unmapping. -/
def Chip.discardExtents (c before : Chip) (post : Option Completion) (zs : List Nat) : Chip :=
  let kept (i : Nat) : Bool := c.bandOfZone i == before.bandOfZone i
  c.startDiscard post (zs.filterMap (fun i => if kept i then none else before.bandOfZone i))
    (zs.filter (fun i => kept i && c.mayClean i)) (actsOf zs)

/-- The data of an operation is on the media, below MWP of its zones. -/
def Chip.segReady (c : Chip) (o : SegOp) : Bool :=
  c.nvq.staging.all (fun u => !(u.nsid == 4 && u.order == o.order) || u.data.all (fun e => u.media.contains e.1))
    && o.zones.all (fun z => decide (z.2 ≤ (c.zone z.1).mwp))

/-- Record one operation if it is the oldest of its key and ready. -/
def Chip.commitSeg (c : Chip) (o : SegOp) : Chip :=
  match c.seg.pend.find? (fun p => p.key == o.key) with
  | none => c
  | some p =>
    if p ≠ o ∨ !c.segReady o ∨ c.mustWaitFor .seg 3 then c
    else
      let d := c.commit .seg o.recs []
      match o.discard with
      | some (post, zs) => d.discardExtents c (some post) zs
      | none => d

/-- Record every operation that is ready, in order of acceptance. -/
def Chip.commitSegs (c : Chip) : Chip := c.seg.pend.foldl Chip.commitSeg c

/-- A value is marked damaged with its record (R173), which may have to wait (R19). -/
def Chip.markDamaged (c : Chip) (key : List Byte) : Chip :=
  if c.mustWait .seg then
    { c with seg := { c.seg with damagedDue := c.seg.damagedDue.filter (· != key) ++ [key] } }
  else c.commit .seg [.segDamaged key] []

/-! ### Changes that waited for their record (R19) -/

/-- What waited is done, in turn, until a record must wait again. -/
def Chip.takeDue (c : Chip) : Chip :=
  let ks := c.loc.suspects
  let c := ks.foldl (fun (c : Chip) k =>
    ({ c with loc := { c.loc with suspects := c.loc.suspects.filter (· != k) } }).suspectBand k) c
  let is := c.loc.readOnlyDue
  let c := is.foldl (fun (c : Chip) i =>
    ({ c with loc := { c.loc with readOnlyDue := c.loc.readOnlyDue.filter (· != i) } }).makeReadOnly i) c
  let keys := c.seg.damagedDue
  let c := keys.foldl (fun (c : Chip) k =>
    ({ c with seg := { c.seg with damagedDue := c.seg.damagedDue.filter (· != k) } }).markDamaged k) c
  let go (c : Chip) (a : Act) : Chip := match (c.bcl.job a).bind Job.abandon with
    | some s => c.abandonJob a s
    | none => c
  go (go c .A) .B

/-! ### Unmapping (R214, R234, R242, R244) -/

/-- A zone is unmapped whole: its advance is committed (R207), a job on it ends (R234), and one zone-state record
makes it Empty and discards its staged units (R214). -/
def Chip.resetZone (c : Chip) (i : Nat) (posts : List Completion) : Chip :=
  let c := (c.commitMwp i).dropJobOf i
  let g := (c.zone i).gen
  c.commit .locus [.zoneState i g 0 ((g + 1) % 256) 0 0] posts

/-- A zone of a namespace that is unmapped: a conventional one has its written bitmap cleared. -/
def Chip.unmapZone (c : Chip) (i : Nat) : Chip :=
  let z := c.zone i
  if z.state = 0 then c
  else if z.kind = 3 then
    (c.unstage i (fun _ _ => true)).commit .locus
      [.mwp i z.gen 3 0 z.live z.wtime z.tmin z.tmax [(0, 32768), (32768, 32768)]] []
  else c.resetZone i []

/-- Unmap the zones a command has still to unmap, until a record must wait. -/
def Chip.unmapZones (c : Chip) (seq : Nat) : List Nat → Chip
  | [] => c
  | i :: is =>
    if c.mustWaitFor .locus 3 then c
    else Chip.unmapZones ((c.unmapZone i).mapCmd seq (fun y => { y with units := y.units.filter (· != i) })) seq is

/-- Delete the keys a command has still to delete, until a record must wait. -/
def Chip.unmapKeys (c : Chip) (seq : Nat) : List (List Byte) → Chip
  | [] => c
  | k :: ks =>
    if c.mustWaitFor .seg 3 then c
    else
      let c := (c.dropFresh k).commit .seg [.segDelete k 0] []
      Chip.unmapKeys (c.mapCmd seq (fun y => { y with keys := y.keys.filter (· != k) })) seq ks

/-- An unmapping command's discard is secure: a Zone Reset by the namespace's mode (R119), a Format by its SES, a
Sanitize always (R244). -/
def Chip.unmapSecure (c : Chip) (h : HostCmd) : Bool :=
  match h.opcode with
  | 0x79 => c.nvq.secure.contains h.nsid
  | 0x80 => h.cdw10 / 512 % 8 != 0
  | _ => true

/-- The conventional zones of a namespace that have been written. -/
def Chip.convList (c : Chip) (nsid : Nat) : List Nat :=
  (c.loc.zones.filter (fun e => e.2.kind == 3 && e.2.nsid == nsid)).map Prod.fst

/-- All of an unmapping command is committed: it completes, or its secure discard begins (R242, R244). -/
def Chip.unmapDone (c : Chip) (x : InCmd) : Chip :=
  let h := x.cmd
  if !c.unmapSecure h then c.finish x.ok
  else
    let c := c.mapCmd x.seq (fun y => { y with phase := .transferring, safe := [] })
    if h.opcode = 0x79 then c.startDiscard (some x.ok) x.safe [] (nsActs h.nsid)
    else
      let nss := if h.opcode = 0x80 then [h.nsid] else [1, 2, 3, 4]
      c.startDiscard (some x.ok) x.safe [] (if h.opcode = 0x80 then nsActs h.nsid else [.A, .B])
        (h.opcode == 0x84 || h.cdw10 / 512 % 8 == 2)
        ((nss.flatMap c.convList).map (fun i => (i, 0, 65536)))

/-- A command that unmaps whole zones: Zone Reset, Format NVM or Sanitize. -/
def InCmd.unmaps (x : InCmd) : Bool :=
  (x.qid != 0 && x.cmd.opcode == 0x79 && x.cmd.cdw13 % 256 == 4)
    || (x.qid == 0 && (x.cmd.opcode == 0x80 || x.cmd.opcode == 0x84))

/-- An unmapping command goes on. -/
def Chip.unmapMore (c : Chip) (x : InCmd) : Chip :=
  let c := (c.unmapKeys x.seq x.keys).unmapZones x.seq x.units
  match c.nvq.inflight.find? (fun y => y.seq == x.seq) with
  | some y => if y.keys.isEmpty && y.units.isEmpty then c.unmapDone y else c
  | none => c

/-- An unmapping command is taken: the keys and zones to unmap, and the bands a secure discard waits for. -/
def Chip.unmapStart (c : Chip) (x : InCmd) (keys : List (List Byte)) (zones : List Nat) : Chip :=
  let f (y : InCmd) : InCmd :=
    { y with phase := .working, keys := keys, units := zones, safe := zones.filterMap c.bandOfZone }
  (c.mapCmd x.seq f).unmapMore (f x)

/-- Unmapping commands under way go on. -/
def Chip.unmapAll (c : Chip) : Chip :=
  (c.nvq.inflight.filter (fun x => x.unmaps && x.phase == .working && x.result.isNone)).foldl Chip.unmapMore c

/-! ### Commands that end by themselves -/

/-- In-flight commands other than outstanding event requests that are not decided. -/
def Nvq.undecided (n : Nvq) : List InCmd :=
  n.inflight.filter (fun x => x.result.isNone && !x.isAer)

/-- Firmware activation completes when every other fetched command is decided (R136). -/
def Chip.tryActivate (c : Chip) : Chip :=
  match c.nvq.activating with
  | none => c
  | some (cn, q, i) =>
    if (c.nvq.undecided.filter (fun x => !(x.cntl == cn && x.qid == q && x.cid == i))).isEmpty then
      let c := { c with nvq := { c.nvq with
        activating := none, fwRunning := c.nvq.fwNext, fwNext := 0 } }
      (c.finish { cntl := cn, qid := q, cid := i }).raise 0x11 2
    else c

/-- A staged unit's namespace is drained by a Flush of `nsid` (R130). -/
def drains (nsid n : Nat) : Bool := nsid == 0xFFFFFFFF || nsid == n

/-- An I/O command that puts data into staging: Write, Zone Append, Write Zeroes without DEAC. -/
def InCmd.isWrite (x : InCmd) : Bool :=
  x.qid != 0 && (x.cmd.opcode == 0x01 || x.cmd.opcode == 0x7D
    || (x.cmd.opcode == 0x08 && x.cmd.cdw12 / 2 ^ 25 % 2 == 0))

/-- A write fetched before a Flush whose data is not yet all staged. -/
def Nvq.writeBefore (n : Nvq) (f : InCmd) : Bool :=
  n.inflight.any (fun x => x.seq < f.seq && x.isWrite && x.result.isNone
    && drains f.cmd.nsid x.cmd.nsid)

/-- A staged unit that a Flush drains: its write was fetched before the Flush, or restored in BOOT (R18, R130). -/
def Staged.before (u : Staged) (f : InCmd) : Bool :=
  (u.restored || decide (u.seq < f.seq)) && drains f.cmd.nsid u.nsid

/-- A Flush is complete (R18, R130): no earlier write of its namespace is still to be staged, and no
unit staged by one is still to become reachable. -/
def Chip.flushDone (c : Chip) (f : InCmd) : Bool :=
  !c.nvq.writeBefore f && !c.nvq.staging.any (fun u => u.before f)

/-- Flushes that have drained complete. -/
def Chip.finishFlushes (c : Chip) : Chip :=
  (c.nvq.inflight.filter (fun x => x.qid != 0 && x.cmd.opcode == 0 && x.phase == .working
    && x.result.isNone)).foldl (fun c x => if c.flushDone x then c.finish x.ok else c) c

/-- A normal shutdown ends (R134, R477): every fetched command is decided, staging is drained and the
journal committed; group 0 is written with CLEAN 1 and SHST reads 2. -/
def Chip.finishShutdown (c : Chip) (i : Nat) : Chip :=
  if (c.nvq.cntl i).shst = 1 ∧ !(c.nvq.cntl i).abrupt ∧ (c.nvq.undecided.filter (fun x => x.cntl == i)).isEmpty
      ∧ c.nvq.staging.isEmpty ∧ c.jnl.waiting.isEmpty then
    (if c.jnl.failed then c else c.writeGroup0 1).mapCntl i (fun y => { y with shst := 2 })
  else c

/-- A Set Features to a power state (R121): at once where it is already in force; otherwise a mode
request, repeated while a transition is in progress or the mode is CALIBRATE. -/
def Chip.powerState (c : Chip) (x : InCmd) (ps : Nat) : Chip :=
  if ps = c.nvq.ps then c.finish x.ok
  else if ps = 0 then (c.leaveRest).finish x.ok
  else
    let c := if c.sys.mode = .rest ∧ c.sys.trans.isNone then c.leaveRest else c
    match c.modeRefusal 3 ps false false with
    | 0 => (({ c.startRest ps false with nvq := { c.nvq with ps := ps } })).finish x.ok
    | n =>
      if n = 1 ∨ c.sys.mode = .calibrate then c.mapCmd x.seq (fun y => { y with phase := .working })
      else c.fail x (0, 0x0C, true)

/-- Power-state requests that were refused are made again (R121). -/
def Chip.repeatPower (c : Chip) : Chip :=
  (c.nvq.inflight.filter (fun x => x.qid == 0 && x.cmd.opcode == 0x09 && x.phase == .working
    && x.result.isNone)).foldl (fun c x => c.powerState x (x.cmd.cdw11 % 32)) c

/-- A zone may be finished (R234, R625): no unit of it is staged or still to be staged, band cleaning
does not copy it, and its record need not wait. -/
def Chip.mayFinish (c : Chip) (i : Nat) : Bool :=
  !c.nvq.staging.any (fun u => u.zone == i) && !(c.zone i).cleaning && !c.mustWait .locus &&
    !c.nvq.inflight.any (fun x => x.isWrite && x.result.isNone && x.zone == i && x.phase != .fetched)

/-- Commit the zone-state records a Zone Finish still owes; its completion comes with the last. -/
def Chip.finishZones (c : Chip) (x : InCmd) : Chip :=
  let go (r : Chip × Nat) (i : Nat) : Chip × Nat :=
    let c := r.1
    if !c.mayFinish i then r
    else
      let z := c.zone i
      let c := c.mapCmd x.seq (fun y => { y with units := y.units.filter (· != i) })
      (c.commit .locus [.zoneState i z.gen 4 z.gen z.mwp z.live] (if r.2 = 1 then [x.ok] else []),
        r.2 - 1)
  (x.units.foldl go (c, x.units.length)).1

/-- A Zone Finish under way: it has still to make its `units` Full. -/
def InCmd.finishing (x : InCmd) : Bool :=
  x.qid != 0 && x.cmd.opcode == 0x79 && x.cmd.cdw13 % 256 == 2 && x.phase == .working && x.result.isNone

/-- A Delete I/O Submission Queue waits for the completions of the queue's commands to be posted (R144). -/
def Nvq.deleting (n : Nvq) (i qid : Nat) : Bool :=
  n.inflight.any (fun x => x.cntl == i && x.qid == 0 && x.cmd.opcode == 0x00 && x.phase == .working
    && x.result.isNone && x.cmd.cdw10 % 65536 == qid)

/-- A queue whose deletion waits is deleted once every completion of its commands is posted. -/
def Chip.finishDelete (c : Chip) (x : InCmd) : Chip :=
  let qid := x.cmd.cdw10 % 65536
  if c.nvq.inflight.any (fun y => y.cntl == x.cntl && y.qid == qid) then c
  else
    let n := c.nvq
    ({ c with nvq := { n with sqs := n.sqs.filter (fun q => !(q.cntl == x.cntl && q.qid == qid)) } }).finish x.ok

/-- Queue deletions under way. -/
def Chip.finishDeletes (c : Chip) : Chip :=
  (c.nvq.inflight.filter (fun x => x.qid == 0 && x.cmd.opcode == 0x00 && x.phase == .working
    && x.result.isNone)).foldl Chip.finishDelete c

/-- Zone Finishes under way (R625). -/
def Chip.finishFinishes (c : Chip) : Chip :=
  (c.nvq.inflight.filter InCmd.finishing).foldl Chip.finishZones c

/-- Zones a Zone Offline has still to make Offline (R194), each once its record is complete (R19); the command
completes with the last. -/
def Chip.offlineZones (c : Chip) (x : InCmd) : List Nat → Chip
  | [] => c
  | i :: is =>
    if c.mustWait .locus then c
    else
      let z := c.zone i
      let c := c.mapCmd x.seq (fun y => { y with units := is })
      Chip.offlineZones ((c.commit .locus [.zoneState i z.gen 6 z.gen z.mwp z.live]
        (if is.isEmpty then [x.ok] else [])).zoneChanged i) x is

/-- Zone Offlines under way. -/
def Chip.finishOfflines (c : Chip) : Chip :=
  (c.nvq.inflight.filter (fun x => x.qid != 0 && x.cmd.opcode == 0x79 && x.cmd.cdw13 % 256 == 5
    && x.phase == .working && x.result.isNone)).foldl (fun c x => c.offlineZones x x.units) c

/-- A reader still needs the slots held for it (R25): a command until it is decided, a copy until the snapshot is
copied, any other until its ladders end. -/
def Chip.needsSlot (c : Chip) : Reader → Bool
  | .host i q d => c.nvq.inflight.any (fun x => x.cntl == i && x.qid == q && x.cid == d && x.result.isNone)
  | .copy => c.bcl.jobA.any (fun j => j.state == .copy) || c.bcl.jobB.any (fun j => j.state == .copy)
  | r => !(c.laddersOf r).isEmpty

/-- Changes that waited for the journal, or for a slot of the hot map, are made. -/
def Chip.catchUp (c : Chip) : Chip := c.takeDue.retryWaits.settleHotFull.queueDiscards.commitSegs.unmapAll

/-- Work that ends by itself once a command has changed the state: what waited, zone finishes, flushes,
power-state requests, a firmware activation, shutdowns, step 13 of BOOT, slots released. Nothing in HOLDUP. -/
def Chip.progress (c : Chip) : Chip :=
  if c.inHoldup || !c.alive then c
  else
    let c := if c.sys.mode = .boot then c else c.catchUp
    let c := c.finishFinishes.finishOfflines.finishFlushes.finishDeletes.repeatPower.tryActivate
    let c := ((((c.finishShutdown 0).finishShutdown 1).aggregated 0).aggregated 1).bootServo
    (c.keepSlots c.needsSlot).continueBuild

/-- A command's outcome after that work. -/
def State.done (s : State) (c : Chip) : Host.Outcome State Fault Refusal := s.next c.progress

end Sys2Proof.Machine
end

