-- ==== Sys2Proof/Machine/Nvq.lean ====
section
/-! DEFINITION. HIF and NVQ: the link, SMBus, controller enable, reset and shutdown, doorbells, fetch
and the checks of R139 (R110 to R141). -/

namespace Sys2Proof

/-- Fields of an I/O command. -/
def HostCmd.slba (h : HostCmd) : Nat := h.cdw10 % 2 ^ 32 + h.cdw11 % 2 ^ 32 * 2 ^ 32
def HostCmd.nlb (h : HostCmd) : Nat := h.cdw12 % 65536 + 1

/-- The data pointer's length is wrong (R139 step 7, R140). -/
def HostCmd.sglBad (h : HostCmd) : Bool := h.sgl && h.dptr != h.nlb * 4096

/-- Select All of a Zone Management Send, DEAC of a Write Zeroes. -/
def HostCmd.selectAll (h : HostCmd) : Bool := h.cdw13 / 256 % 2 == 1
def HostCmd.deac (h : HostCmd) : Bool := h.cdw12 / 2 ^ 25 % 2 == 1

/-- Fields of a namespace 4 command (R155). -/
def HostCmd.kl (h : HostCmd) : Nat := h.cdw11 % 256
def HostCmd.key (h : HostCmd) : List Byte :=
  (Machine.leBytes 4 h.cdw2 ++ Machine.leBytes 4 h.cdw3 ++ Machine.leBytes 4 h.cdw14 ++ Machine.leBytes 4 h.cdw15).take h.kl

/-- Options of a Store (R155). -/
def HostCmd.kvAppend (h : HostCmd) : Bool := h.cdw13 % 2 == 1
def HostCmd.kvSeal (h : HostCmd) : Bool := h.cdw13 / 2 % 2 == 1
def HostCmd.kvPin (h : HostCmd) : Bool := h.cdw13 / 4 % 2 == 1
def HostCmd.kvHint (h : HostCmd) : Nat := h.cdw13 / 256 % 16
def HostCmd.kvAct (h : HostCmd) : Nat := h.cdw13 / 4096 % 4

/-- The capabilities R111 marks "yes". -/
def PcieCap.present : PcieCap → Bool
  | .msix | .tenBitTags | .extendedTags | .aspmL1 | .aspmL11 | .aer | .ltr | .flr => true
  | .msi | .intx | .aspmL0s | .aspmL12 | .sriov | .ats | .pri | .pasid | .tph | .ptm | .cmb | .pmr => false

end Sys2Proof

namespace Sys2Proof.Machine

open Sys2Proof

/-! ### The link and SMBus -/

/-- Two x1 ports (R55, R110). -/
def Chip.dual (c : Chip) : Bool := c.bit R.HIF_PORT 0

/-- The link state register of a port. -/
def linkReg (port : Nat) : Nat := if port = 0 then R.HIF_LINK0 else R.HIF_LINK1

/-- A port that exists: port 1 only in the dual-port arrangement (R146). -/
def Chip.portHere (c : Chip) (port : Nat) : Bool := port == 0 || c.dual

/-- Set a port's link state; LINK_CHANGE is raised when UP changes (R146). -/
def Chip.setLink (c : Chip) (port : Nat) (up : Bool) (speed width : Nat) : Chip :=
  let was := c.bit (linkReg port) 0
  let c := c.setReg (linkReg port)
    (if up then BitVec.ofNat 32 (1 + speed % 8 * 2 + width % 16 * 16) else 0)
  if was = up then c else c.raise 0x10 0

/-- PCIe errors that a port logged (R146): correctable ones are counted, an uncorrectable one in AER raises
UNCORR. -/
def Chip.linkErrors (c : Chip) (correctable : Nat) (uncorrectable : Bool) : Chip :=
  let c := c.addSat R.HIF_CORR_CNT correctable
  if uncorrectable then c.raise 0x10 4 else c

/-- The link of a port comes up or goes down (R110), no wider than the arrangement's lanes; training starts at
step 4 of R46. The errors logged since are taken up with it. -/
def linkChange (c : Chip) (port : Nat) (link : LinkReport) (speed width : Nat) : Chip :=
  if !c.alive || c.bootStep < 3 || !c.portHere port then c
  else (c.linkErrors link.correctable link.uncorrectable).setLink port link.up (min speed (c.fld R.HIF_PORT 3 1))
    (min width (if c.dual then 1 else 2))

/-- LINK_CHANGE (R110). -/
def execLinkChange (port : Fin 2) (link : LinkReport) (speed width : Nat) (s : State) :
    Host.Outcome State Fault Refusal := s.next (linkChange s.chip port.val link speed width)

/-- MSI-X vectors of a controller (R111). -/
def Chip.vectors (c : Chip) : Nat := if c.dual then 33 else 65

/-- The low and high words of CAP (R41, R117). -/
def capLow : Word := BitVec.ofNat 32 (4095 + 2 ^ 16 + 60 * 2 ^ 24)
def capHigh : Word := BitVec.ofNat 32 (2 ^ 6 * 2 ^ 5 + 4 * 2 ^ 20)

/-- An NVMe register in BAR0 (R112, R117): CAP, VS, CC.EN, CSTS and AQA; a register the host wrote as a whole, of
which the model holds no more, is left open. -/
def Chip.nvmeRegister (c : Chip) (i offset : Nat) : Word × Chip :=
  let y := c.nvq.cntl i
  match offset with
  | 0x00 => (capLow, c)
  | 0x04 => (capHigh, c)
  | 0x08 => (0x00020000, c)
  | 0x14 =>
    let r := c.takeFree 31
    (r.1 ++ BitVec.ofBool y.en, r.2)
  | 0x1C => (BitVec.ofNat 32 (b2n y.rdy + 2 * b2n y.cfs + 4 * y.shst), c)
  | 0x24 => (BitVec.ofNat 32 (y.asqs % 4096 + y.acqs % 4096 * 2 ^ 16), c)
  | 0x28 | 0x2C | 0x30 | 0x34 => c.takeFree 32
  | _ => (0, c)

/-- A word of a controller's BAR0 (R112): registers, the MSI-X table and the pending bits; a doorbell's value is left
open, and the rest reads 0. -/
def Chip.barRead (c : Chip) (i offset : Nat) : Word × Chip :=
  let y := c.nvq.cntl i
  if offset < 0x1000 then c.nvmeRegister i offset
  else if offset < 0x1208 then c.takeFree 32
  else if 0x8000 ≤ offset ∧ offset < 0x8000 + 16 * c.vectors then
    (SMap.get msixReset y.msix ((offset - 0x8000) / 4), c)
  else if 0xC000 ≤ offset ∧ offset < 0xC010 then
    let w := (offset - 0xC000) / 4
    (BitVec.ofNat 32 (((List.range 32).filter (fun b => y.pba.contains (32 * w + b))).foldl
      (fun n b => n + 2 ^ b) 0), c)
  else (0, c)

/-- A write to BAR0 beside the registers and doorbells, whose rows stand by themselves: a word of the MSI-X table,
whose vector's pending message leaves as it is unmasked; a write to the rest is ignored (R112). -/
def Chip.barWrite (c : Chip) (i offset : Nat) (v : Word) : Chip :=
  if 0x8000 ≤ offset ∧ offset < 0x8000 + 16 * c.vectors then
    let w := (offset - 0x8000) / 4
    let c := c.mapCntl i (fun y => { y with msix := SMap.put msixReset y.msix w v })
    if w % 4 = 3 ∧ !v.getLsbD 0 ∧ (c.nvq.cntl i).pba.contains (w / 4) then
      (c.mapCntl i (fun y => { y with pba := y.pba.filter (· != w / 4) })).signal i (w / 4)
    else c
  else c

/-- HIF answers a request as soon as the link is up (R48, R111, R112). What PCIe fixes for another configuration
register is left open. -/
def pcieRequest (c : Chip) (port : Nat) (q : PcieRequest) : Chip :=
  if !c.alive || !c.portHere port || !c.bit (linkReg port) 0 then c
  else
    let answer (n : Nat) : Chip := c.emit (.config (BitVec.ofNat 32 n))
    match q with
    | .capability k => answer (b2n k.present)
    | .maxRate => answer (c.fld R.HIF_PORT 3 1)
    | .maxPayload => answer 512
    | .maxReadRequest => answer 4096
    | .msixVectors => answer c.vectors
    | .other _ =>
      let r := c.takeFree 32
      r.2.emit (.config r.1)
    | .barRead o =>
      let r := c.barRead port o
      r.2.emit (.config r.1)
    | .barWrite o v => c.barWrite port o v

/-- PCIE_CONFIG_REQUEST (R48). -/
def execPcieConfigRequest (port : Fin 2) (request : PcieRequest) (s : State) : Host.Outcome State Fault Refusal :=
  s.next (pcieRequest s.chip port.val request)

/-- What an identifier of Set Features holds where nothing wrote it (R119); 0x104 and 0x204 stand for the over and
under temperature thresholds. The over threshold is a DESIGN CHOICE: R119 gives none. -/
def featDefault (f : Nat) : Nat :=
  match f with
  | 0x01 => 3
  | 0x0B => eventConfigReset
  | 0x104 => 383
  | _ => 0

def Chip.feature (c : Chip) (i f : Nat) : Nat :=
  SMap.get featDefault (c.nvq.cntl i).features f

/-- The composite temperature is over or under a threshold of the controller (R119). -/
def Chip.tempWarning (c : Chip) (i : Nat) : Bool :=
  let k := c.loc.temp + 273
  c.loc.temp != 0xFF && (decide (c.feature i 0x104 ≤ k) || decide (k < c.feature i 0x204))

/-- The SMART critical warning byte for some controllers (R120): bit 1 while the composite temperature is over or
under a threshold, bit 2 while an actuator is retired. -/
def Chip.criticalWarningOf (c : Chip) (is : List Nat) : Nat :=
  2 * b2n (is.any c.tempWarning) + 4 * b2n (c.chd.retiredA || c.chd.retiredB)

/-- The byte for every controller the arrangement has. -/
def Chip.criticalWarning (c : Chip) : Nat := c.criticalWarningOf (if c.dual then [0, 1] else [0])

/-- The status flags of the basic management command (R114): no arbitration was lost, the drive works and asks for
no reset, bit 6 not ready, bits 3 and 2 the link of port 0 and port 1. -/
def Chip.smbusFlags (c : Chip) : Nat :=
  let ready := c.nvq.c1.rdy || c.nvq.c2.rdy
  0xB3 + 0x40 * b2n (!ready) + 8 * b2n (c.bit R.HIF_LINK0 0) + 4 * b2n (c.bit R.HIF_LINK1 0)

/-- The basic management command (R114): the answer when the address matches and SMBus is enabled; a
read at any other command offset returns 0xFF bytes. It works in every mode. -/
def smbusBasicManagement (c : Chip) (address offset : Nat) (percentUsed : Byte) : Chip :=
  if !c.alive || !c.bit R.HIF_SMB 8 || address ≠ c.fld R.HIF_SMB 6 0 then c
  else if offset ≠ 0 then c.emit (.smbus (List.replicate 4 0xFF))
  else
    c.emit (.smbus [BitVec.ofNat 8 c.smbusFlags, BitVec.ofNat 8 c.criticalWarning, BitVec.ofNat 8 c.loc.temp,
      percentUsed])

/-- SMBUS_BASIC_MANAGEMENT (R114). -/
def execSmbusBasicManagement (address offset : Nat) (percentUsed : Byte) (s : State) :
    Host.Outcome State Fault Refusal :=
  s.next (smbusBasicManagement s.chip address offset percentUsed)

/-! ### Discarding commands -/

/-- The host-view write pointer after a discard (R133): rounded down to the first unit of the zone that is not
applied, this command's or an earlier discard's. -/
def Chip.unaccept (c : Chip) (x : InCmd) : Chip :=
  match x.units with
  | [] => c
  | u :: us =>
    let z := c.zone x.zone
    let first := us.foldl min u
    let wp := max x.first (first % 4096 * 16)
    if z.kind = 1 ∧ z.hostWp.isSome ∧ x.cmd.nsid ≠ 4 ∧ z.gen = x.gen then
      c.setZone x.zone { z with hostWp := some (min wp (z.hostWp.getD wp)), state := if z.state = 4 then 1 else z.state }
    else c

/-- A command is discarded (R132, R138): units already power-safe stay, a partly transferred unit is
dropped, and its bands are no longer held. -/
def Chip.discard (c : Chip) (x : InCmd) : Chip :=
  if x.isWrite ∧ (x.phase = .held ∨ x.phase = .transferring ∨ x.phase = .working) then c.unaccept x else c

/-- A controller's commands are discarded without completion (R132). -/
def Chip.discardAll (c : Chip) (i : Nat) : Chip :=
  let c := (c.nvq.inflight.filter (fun x => x.cntl == i)).foldl Chip.discard c
  { c with nvq := { c.nvq with inflight := c.nvq.inflight.filter (fun x => x.cntl != i) } }

/-- New firmware named for the next controller reset becomes active (R135). -/
def Chip.activateAtReset (c : Chip) : Chip :=
  if c.nvq.fwNext = 0 ∨ c.nvq.activating.isSome then c
  else
    let n := c.nvq.fwNext
    let v := if n = 1 then c.nvq.fwSlot1 else c.nvq.fwSlot2
    let c := { c with nvq := { c.nvq with fwRunning := n, fwNext := 0 } }
    c.writeBootRecord n 0 0 v (c.bootField 16 3)

/-- CC.EN goes to 0, or another reset of the controller (R132): fetching stops, commands are discarded,
the queues are deleted, and RDY falls. The MSI-X table belongs to the function, not to the controller, and stays. -/
def Chip.resetController (c : Chip) (i : Nat) : Chip :=
  let c := c.discardAll i
  let n := c.nvq
  let c := { c with nvq := { n with
    sqs := n.sqs.filter (fun q => q.cntl != i), cqs := n.cqs.filter (fun q => q.cntl != i)
    activating := match n.activating with
      | some (k, q, d) => if k = i then none else some (k, q, d)
      | none => none } }
  let keep := c.nvq.cntl i
  (c.mapCntl i (fun _ => { msix := keep.msix, pba := keep.pba })).activateAtReset

/-- CONTROLLER_RESET (R132). -/
def execControllerReset (cntl : Fin 2) (s : State) : Host.Outcome State Fault Refusal :=
  s.done (if s.chip.alive && !s.chip.inHoldup then s.chip.resetController cntl.val else s.chip)

/-- PE_PERST_N falls (R42, R132): the one ball serves both ports (R599), so the link of every port goes down and
every controller is reset, its function with it. -/
def pePerst (c : Chip) (port : Nat) : Chip :=
  if !c.alive || !c.portHere port then c
  else
    let ports := if c.dual then [0, 1] else [0]
    let c := (ports.foldl (fun c p => c.setLink p false 0 0) c).raise 0x10 1
    if c.inHoldup then c
    else ports.foldl (fun c p => (c.resetController p).mapCntl p (fun y => { y with msix := [], pba := [] })) c

/-- PE_PERST (R132). -/
def execPePerst (port : Nat) (s : State) : Host.Outcome State Fault Refusal :=
  s.done (pePerst s.chip port)

/-- The host sets CC.EN (R41, R115): an admin queue of one entry makes CFS 1; else the admin queues
exist and RDY rises, in BOOT only when BOOT ends. -/
def ccEnSet (c : Chip) (i asqs acqs : Nat) : Chip :=
  if !c.alive || c.inHoldup || !c.portHere i || !c.bit (linkReg i) 0 || (c.nvq.cntl i).en then c
  else
    let c := c.mapCntl i (fun y => { y with en := true, asqs := asqs, acqs := acqs })
    if asqs % 4096 = 0 ∨ acqs % 4096 = 0 then c.mapCntl i (fun y => { y with cfs := true })
    else
      let n := c.nvq
      let c := { c with nvq := { n with
        sqs := n.sqs ++ [({ cntl := i, qid := 0, size := asqs % 4096 + 1, cqid := 0 } : Sq)]
        cqs := n.cqs ++ [({ cntl := i, qid := 0, size := acqs % 4096 + 1 } : Cq)] } }
      c.mapCntl i (fun y => { y with rdy := c.sys.mode != Mode.boot })

/-- CC_EN_SET (R115). -/
def execCcEnSet (cntl : Fin 2) (asqs acqs : Nat) (s : State) : Host.Outcome State Fault Refusal :=
  s.done (ccEnSet s.chip cntl.val asqs acqs)

/-- A normal shutdown notification (R134): fetching stops, and SHST reads 2 when the fetched commands
are complete, staging is drained and the journal committed. -/
def shutdownNormal (c : Chip) (i : Nat) : Chip :=
  if !c.alive || c.inHoldup || !(c.nvq.cntl i).rdy then c
  else c.mapCntl i (fun y => { y with shst := if y.shst = 2 then 2 else 1 })

/-- SHUTDOWN_NORMAL (R134). -/
def execShutdownNormal (cntl : Fin 2) (s : State) : Host.Outcome State Fault Refusal :=
  s.done (shutdownNormal s.chip cntl.val)

/-! ### Doorbells (R141) -/

/-- A bad doorbell (R141): ignored, noticed as Invalid Doorbell Write Value, and counted. -/
def Chip.badDoorbell (c : Chip) (i : Nat) : Chip := (c.raise 0x11 4).noticeTo i noticeBadDoorbell

/-- A submission queue tail doorbell. An I/O doorbell ends REST and entry to it (R37). -/
def sqDoorbell (c : Chip) (i qid tail : Nat) : Chip :=
  if !c.alive || c.inHoldup || !(c.nvq.cntl i).rdy then c
  else
    match c.nvq.sqs.find? (fun q => q.cntl == i && q.qid == qid) with
    | none => c.badDoorbell i
    | some q =>
      if q.size ≤ tail then c.badDoorbell i
      else
        let c := { c with nvq := { c.nvq with sqs := c.nvq.sqs.map (fun (x : Sq) =>
          if x.cntl = i ∧ x.qid = qid then { x with tail := tail } else x) } }
        if qid = 0 ∨ tail = q.tail then c else c.leaveRest

/-- SQ_DOORBELL (R141). -/
def execSqDoorbell (cntl : Fin 2) (qid tail : Nat) (s : State) : Host.Outcome State Fault Refusal :=
  s.done (sqDoorbell s.chip cntl.val qid tail)

/-- Every queue of a controller posts what is due and finds room. -/
def Chip.postAll (c : Chip) (i : Nat) : Chip :=
  (c.nvq.sqs.filter (fun q => q.cntl == i)).foldl (fun c q => c.postQueue i q.qid) c

/-- A completion queue head doorbell; completions that had no room are posted. -/
def cqDoorbell (c : Chip) (i qid head : Nat) : Chip :=
  if !c.alive || c.inHoldup || !(c.nvq.cntl i).rdy then c
  else
    match c.nvq.cqs.find? (fun q => q.cntl == i && q.qid == qid) with
    | none => c.badDoorbell i
    | some q =>
      if q.size ≤ head then c.badDoorbell i
      else
        let c := { c with nvq := { c.nvq with cqs := c.nvq.cqs.map (fun (x : Cq) =>
          if x.cntl = i ∧ x.qid = qid then { x with head := head } else x) } }
        c.postAll i

/-- CQ_DOORBELL (R141). -/
def execCqDoorbell (cntl : Fin 2) (qid head : Nat) (s : State) : Host.Outcome State Fault Refusal :=
  s.done (cqDoorbell s.chip cntl.val qid head)

/-! ### Namespaces -/

/-- The namespace is present (R116, R183). -/
def Chip.nsActive (c : Chip) (nsid : Nat) : Bool :=
  nsid == 1 || nsid == 2 || (nsid == 3 && c.loc.part.n3 != 0) || (nsid == 4 && c.lcs.tierS)

/-- Zone index and unit of an LBA (R183). -/
def Loc.place (l : Loc) (nsid lba : Nat) : Nat × Nat :=
  let k := lba / 65536
  match nsid with
  | 1 => (k, lba % 65536)
  | 2 => (262144 + k, lba % 65536)
  | _ =>
    if k % 2 = 0 then (l.part.cA + l.seq .A + k / 2, lba % 65536)
    else (262144 + l.part.cB + l.seq .B + k / 2, lba % 65536)

/-- Zones a range of LBAs touches. -/
def Chip.zonesTouched (c : Chip) (nsid base n : Nat) : List Nat :=
  ((List.range ((base + n - 1) / 65536 + 1 - base / 65536)).map
    (fun j => (c.loc.place nsid ((base / 65536 + j) * 65536)).1))

/-! ### The checks of R139, steps 1 to 5 and 7 -/

/-! A failed check carries DNR 1 unless R144 says otherwise. -/

def stInvalidOpcode : Status := (0, 0x01, true)
def stInvalidField : Status := (0, 0x02, true)
def stInvalidNs : Status := (0, 0x0B, true)
def stSglLength : Status := (0, 0x0F, true)
def stLbaRange : Status := (0, 0x80, true)

/-- Admin opcodes the controller supports (R118). -/
def adminOpcodes : List Nat :=
  [0x00, 0x01, 0x02, 0x04, 0x05, 0x06, 0x08, 0x09, 0x0A, 0x0C, 0x10, 0x11, 0x14, 0x80, 0x84]

/-- I/O opcodes of a namespace's command set (R116, R118, R154). -/
def ioOpcodes (nsid : Nat) : List Nat :=
  if nsid = 4 then [0x01, 0x02, 0x06, 0x10, 0x14]
  else if nsid = 3 then [0x00, 0x01, 0x02, 0x08, 0x09, 0x0C]
  else [0x00, 0x01, 0x02, 0x08, 0x09, 0x0C, 0x79, 0x7A, 0x7D]

/-- The opcode is supported (R118, R139 step 1). -/
def opcodeOk (qid : Nat) (h : HostCmd) : Bool :=
  if qid = 0 then adminOpcodes.contains h.opcode else (ioOpcodes h.nsid).contains h.opcode

/-- Field checks of a namespace 4 command, in the order of R157. -/
def kvFields (h : HostCmd) : Option Status :=
  let list := h.opcode = 0x06
  let sized := h.opcode = 0x01 ∨ h.opcode = 0x02 ∨ list
  if (h.kl = 0 ∧ !list) ∨ 16 < h.kl then some (1, 0x86, true)
  else if sized ∧ (2097152 < h.cdw10 ∨ (list ∧ h.cdw10 < 4)) then some (1, 0x85, true)
  else if h.opcode = 0x01 ∧ (8 < h.cdw13 / 256 % 16 ∨ h.cdw13 / 4096 % 4 = 3) then some stInvalidField
  else if h.opcode = 0x01 ∧ ((h.cdw11 / 256 % 4 = 3) ∨ (h.cdw13 % 4 = 2)) then some stInvalidField
  else if sized ∧ h.sgl ∧ h.dptr ≠ h.cdw10 then some stSglLength
  else none

/-- Field, length and range checks of an I/O command (R139 steps 3 to 5, R140); step 7 for the
commands no zone rule of step 6 bears on. -/
def Chip.ioFields (c : Chip) (h : HostCmd) : Option Status :=
  let size := c.loc.nsze h.nsid
  let range := if size < h.slba + h.nlb then some stLbaRange else none
  if h.nsid = 4 then kvFields h
  else match h.opcode with
    | 0x01 => if 512 < h.nlb then some stInvalidField else range
    | 0x02 =>
      if 512 < h.nlb then some stInvalidField
      else if size < h.slba + h.nlb then some stLbaRange
      else none
    | 0x7D =>
      if 512 < h.nlb ∨ h.slba % 65536 ≠ 0 then some stInvalidField
      else if size ≤ h.slba then some stLbaRange
      else if (c.zone (c.loc.place h.nsid h.slba).1).kind ≠ 1 then some stInvalidField
      else none
    | 0x08 =>
      if size < h.slba + h.nlb then some stLbaRange
      else if h.deac ∧ (c.zonesTouched h.nsid h.slba h.nlb).any (fun i => (c.zone i).kind == 1) then
        some stInvalidField
      else none
    | 0x09 =>
      if h.ranges.any (fun r => r.2 != 0 && size < r.1 + r.2) then some stLbaRange
      else if h.cdw11 / 4 % 2 = 1 ∧ h.nsid ≠ 3 ∧ h.ranges.any (fun r => r.2 != 0 &&
          (c.zonesTouched h.nsid r.1 r.2).any (fun i => (c.zone i).kind == 1)) then some stInvalidField
      else none
    | 0x0C => range
    | 0x79 =>
      if !([1, 2, 3, 4, 5].contains (h.cdw13 % 256)) then some stInvalidField
      else if h.cdw13 / 256 % 2 = 1 then none
      else if size ≤ h.slba then some stLbaRange
      else if h.slba % 65536 ≠ 0 then some stInvalidField
      else none
    | 0x7A =>
      if h.cdw13 % 256 ≠ 0 ∨ 524287 < h.cdw12 ∨ 7 < h.cdw13 / 256 % 256 then some stInvalidField
      else if size ≤ h.slba then some stLbaRange
      else none
    | _ => none

/-- The namespace check (R139 step 2). A Flush also takes 0xFFFF_FFFF (R130). -/
def Chip.nsOk (c : Chip) (h : HostCmd) : Bool :=
  c.nsActive h.nsid || (h.opcode == 0x00 && h.nsid == 0xFFFFFFFF)

/-- What a fetched command fails first of the checks that precede zone rules; a bad opcode is left to
UNSUPPORTED_COMMAND. -/
def Chip.fetchCheck (c : Chip) (qid : Nat) (h : HostCmd) : Option Status :=
  if qid = 0 ∨ !opcodeOk qid h then none
  else if !c.nsOk h then some stInvalidNs
  else c.ioFields h

/-! ### Fetch (R122) -/

/-- Commands in flight a controller may have (R115). -/
def Chip.inflightLimit (c : Chip) : Nat := if c.dual then 8192 else 16384

/-- A controller may fetch (R48, R115, R134, R136, R474). -/
def Chip.mayFetch (c : Chip) (i : Nat) : Bool :=
  let y := c.nvq.cntl i
  c.alive && !c.inHoldup && y.rdy && y.shst == 0 && c.nvq.activating.isNone &&
    decide ((c.nvq.inflight.filter (fun x => x.cntl == i)).length < c.inflightLimit)

/-- The Arbitration Burst of a controller: 2^AB commands, 7 no limit (R119). -/
def Chip.burst (c : Chip) (i : Nat) : Nat :=
  let ab := SMap.get (fun _ => 3) (c.nvq.cntl i).features 0x01 % 8
  if ab = 7 then 4096 else 2 ^ ab

/-- BINDING after one more command (R148, R149). -/
def bindingAfter (b nsid : Nat) : Nat :=
  if nsid = 1 ∨ nsid = 2 then (if b = 0 ∨ b = nsid then nsid else 3)
  else if nsid = 3 ∨ nsid = 4 then 3
  else b

/-- Fetch one command of a queue: the head advances, the command is in flight, and a failing check
decides it. -/
def Chip.fetchOne (c : Chip) (q : Sq) (h : HostCmd) : Chip :=
  let b := if q.qid = 0 then q.binding else bindingAfter q.binding h.nsid
  let n := c.nvq
  let x : InCmd := { cntl := q.cntl, qid := q.qid, cid := h.cid, seq := n.nextSeq, cmd := h }
  let c := { c with nvq := { n with
    sqs := n.sqs.map (fun (y : Sq) => if y.cntl = q.cntl ∧ y.qid = q.qid then
      { y with head := (y.head + 1) % y.size, binding := b } else y)
    inflight := n.inflight ++ [x], nextSeq := n.nextSeq + 1 } }
  let c := if b = 3 ∧ q.binding ≠ 3 then c.raise 0x11 1 else c
  match c.fetchCheck q.qid h with
  | some st => c.finish (x.status st.1 st.2.1 st.2.2)
  | none => c

/-- Fetch up to `k` commands of a queue, from the entries host memory holds. -/
def Chip.fetchQueue (c : Chip) (host : List HostEntry) (i qid : Nat) : Nat → Chip
  | 0 => c
  | k + 1 =>
    match c.nvq.sqs.find? (fun q => q.cntl == i && q.qid == qid) with
    | none => c
    | some q =>
      if q.head = q.tail || !c.mayFetch i || c.nvq.deleting i qid then c
      else
        match host.find? (fun e => e.cntl == i && e.qid == qid && e.slot == q.head) with
        | none => c
        | some e => Chip.fetchQueue (c.fetchOne q e.cmd) host i qid k

/-- The queues in round-robin order, from the one after the queue served last. -/
def Nvq.order (n : Nvq) : List Sq := n.sqs.drop (n.rr % (n.sqs.length + 1)) ++
  n.sqs.take (n.rr % (n.sqs.length + 1))

/-- One round of fetching over every queue with a non-empty doorbell (R122). -/
def commandFetch (c : Chip) (host : List HostEntry) : Chip :=
  let c1 := c.nvq.order.foldl (fun c q => c.fetchQueue host q.cntl q.qid (c.burst q.cntl)) c
  { c1 with nvq := { c1.nvq with rr := if c1.nvq.sqs.isEmpty then 0
      else (c1.nvq.rr + 1) % c1.nvq.sqs.length } }

/-- COMMAND_FETCH (R122). -/
def execCommandFetch (host : List HostEntry) (s : State) : Host.Outcome State Fault Refusal :=
  s.done (commandFetch s.chip host)

/-! ### Taking a fetched command -/

/-- An in-flight command that no command fetched before it from its queue holds back: it is fetched and
every earlier one is taken (R123, R127). -/
def Nvq.ready (n : Nvq) (cntl qid cid : Nat) : Option InCmd :=
  match n.find cntl qid cid with
  | none => none
  | some x =>
    if x.phase = .fetched ∧ !(n.inflight.any (fun y => y.cntl == cntl && y.qid == qid && y.seq < x.seq
        && y.phase == .fetched && !y.isAer)) then some x else none

/-- An admin command of an opcode that may be taken. -/
def Chip.admin (c : Chip) (cntl cid opcode : Nat) : Option InCmd :=
  if !c.alive || c.inHoldup then none
  else match c.nvq.ready cntl 0 cid with
    | some x => if x.cmd.opcode = opcode then some x else none
    | none => none

/-- An I/O command of an opcode on namespaces 1 to 3, or on all, that may be taken. -/
def Chip.io (c : Chip) (cntl qid cid opcode : Nat) : Option InCmd :=
  if !c.alive || c.inHoldup || qid == 0 then none
  else match c.nvq.ready cntl qid cid with
    | some x => if x.cmd.opcode = opcode ∧ x.cmd.nsid ≠ 4 then some x else none
    | none => none

/-- A namespace 4 command of an opcode that may be taken. -/
def Chip.kv (c : Chip) (cntl qid cid opcode : Nat) : Option InCmd :=
  if !c.alive || c.inHoldup || qid == 0 then none
  else match c.nvq.ready cntl qid cid with
    | some x => if x.cmd.opcode = opcode ∧ x.cmd.nsid = 4 then some x else none
    | none => none

/-- A command whose opcode is not supported completes with Invalid Command Opcode (R118, R154). -/
def unsupportedCommand (c : Chip) (cntl qid cid : Nat) : Chip :=
  if !c.alive || c.inHoldup then c
  else match c.nvq.ready cntl qid cid with
    | some x => if opcodeOk qid x.cmd then c else c.fail x stInvalidOpcode
    | none => c

/-- UNSUPPORTED_COMMAND (R118). -/
def execUnsupportedCommand (cntl : Fin 2) (qid cid : Nat) (s : State) :
    Host.Outcome State Fault Refusal := s.done (unsupportedCommand s.chip cntl.val qid cid)

end Sys2Proof.Machine
end

