-- ==== Sys2Proof/Machine/Osp.lean ====
section
/-! DEFINITION. The octal NOR interface (R60, R61). -/

namespace Sys2Proof.Machine

open Sys2Proof

/-- Set OSP_CMD.OP and RESULT; GO has returned to 0. -/
def Chip.ospResult (c : Chip) (op n : Nat) : Chip :=
  ((c.setFld R.OSP_CMD 2 0 op).setFld R.OSP_CMD 26 24 n).setBit R.OSP_CMD 31 false

/-- The boot record's active slot, 1 or 2; slot 1 where no record passes its check (R49, R470). -/
def Chip.activeSlot (c : Chip) : Nat :=
  match c.group (bootGroup 0) with
  | some bs => if leAt bs 8 1 = 2 then 2 else 1
  | none => 1

/-- The NOR bytes of a slot (R60). -/
def slotBase (slot : Nat) : Nat := if slot = 2 then 0x900000 else 0x100000

/-- The range touches the active slot while OSP_PROTECT.EN is 1 (R60). -/
def Chip.ospProtected (c : Chip) (a n : Nat) : Bool :=
  let b := slotBase c.activeSlot
  c.bit R.OSP_PROTECT 0 && decide (a < b + 0x800000) && decide (b < a + n)

/-- The DRAM address of an operation. -/
def Chip.ospDram (c : Chip) : Nat := (c.reg R.OSP_DRAM_LO).toNat + c.fld R.OSP_DRAM_HI 3 0 * 2 ^ 32

/-- Bytes of the device (R61); none while no mode is in force (DESIGN CHOICE). -/
def Chip.norSize (c : Chip) : Nat := if c.fld R.OSP_MODE 1 0 = 0 then 0 else 2 ^ c.fld R.OSP_MODE 15 8

/-- The checks of an operation (R61): length, alignment, device and DRAM range, protection, HOLDUP. DRAM is not
read before its fill (R47). -/
def Chip.ospAllowed (c : Chip) (op : Nat) : Bool :=
  let a := (c.reg R.OSP_ADDR).toNat
  let n := (c.reg R.OSP_LEN).toNat
  let d := c.ospDram
  decide (1 ≤ n) && decide (n ≤ 8388608) && decide (a + n ≤ c.norSize) && !c.inHoldup &&
    (match op with
    | 1 => c.inDram d n && decide (d % 16 = 0)
    | 2 => decide (a % 256 = 0) && c.memReadable d n && decide (d % 16 = 0) && !c.ospProtected a n
    | 3 => decide (a % 65536 = 0) && decide (n % 65536 = 0) && !c.ospProtected a n
    | _ => false)

/-- A write of GO to OSP_CMD with an OP (R61): nothing while BUSY; refused with RESULT 2 and FAULT
RANGE; otherwise the operation starts. -/
def ospGo (c : Chip) (op : Nat) (data : List Byte) : Chip :=
  if !c.alive || c.osp.isSome then c
  else if c.ospAllowed op then
    { c.ospResult op 0 with osp := some ⟨op, (c.reg R.OSP_ADDR).toNat, c.ospDram, (c.reg R.OSP_LEN).toNat, data⟩ }
  else (c.ospResult op 2).fault 0x49 3

/-- GO written to OSP_CMD through the bus: what the NOR holds is free. -/
def ospStart (c : Chip) : Chip :=
  let op := c.fld R.OSP_CMD 2 0
  if op = 1 ∧ c.osp.isNone ∧ c.ospAllowed 1 then
    let p := c.freeBytes (c.reg R.OSP_LEN).toNat
    ospGo p.2 1 p.1
  else ospGo c op []

/-- OSP_READ (R61). -/
def execOspRead (data : List Byte) (s : State) : Host.Outcome State Fault Refusal :=
  s.next (ospGo s.chip 1 data)

/-- OSP_PROGRAM (R61). -/
def execOspProgram (s : State) : Host.Outcome State Fault Refusal := s.next (ospGo s.chip 2 [])

/-- OSP_ERASE (R61). -/
def execOspErase (s : State) : Host.Outcome State Fault Refusal := s.next (ospGo s.chip 3 [])

/-- What the device takes from an operation that has ended well: the bytes of a PROGRAM, or the erase of a
range. -/
def Chip.norTakes (c : Chip) (j : OspJob) (bs : List Byte) : Chip :=
  match j.op with
  | 2 => c.emit (.norProgram j.nor bs)
  | 3 => c.emit (.norErase j.nor j.len)
  | _ => c

/-- The operation ends (R61): a READ has stored its bytes in DRAM, a PROGRAM has sent them to the device; a device
failure is RESULT 3 and counted; DONE is raised. -/
def ospDone (c : Chip) (deviceFailed : Bool) : Chip :=
  match c.osp with
  | none => c
  | some j =>
    if !c.alive then c
    else
      let r := c.readRange j.dram j.len
      let c := if j.op = 1 then c.writeRange j.dram (j.data.take j.len) else if j.op = 2 then r.2.2 else c
      let c := { c with osp := none }
      let c := if deviceFailed ∧ j.op ≠ 1 then (c.ospResult j.op 3).bump R.OSP_ERR_CNT
        else (c.norTakes j r.1).ospResult j.op 1
      c.raise 0x49 0

/-- OSP_DONE (R61). -/
def execOspDone (deviceFailed : Bool) (s : State) : Host.Outcome State Fault Refusal :=
  s.next (ospDone s.chip deviceFailed)

/-- HOLDUP stops a program or an erase with RESULT 2 (R61). -/
def Chip.ospHoldup (c : Chip) : Chip :=
  match c.osp with
  | none => c
  | some j => if j.op = 1 then c else ({ c with osp := none }).ospResult j.op 2

end Sys2Proof.Machine
end

