-- ==== Sys2Proof/Machine/Admin.lean ====
section
/-! DEFINITION. Admin commands but for logs, Identify, Format and Sanitize (R115, R118, R119, R121,
R135 to R138, R144). -/

namespace Sys2Proof.Machine

open Sys2Proof

def stInvalidQid : Status := (1, 0x01, true)
def stQueueSize : Status := (1, 0x02, true)

/-! ### Queues -/

/-- I/O queue pairs a controller may have (R115). -/
def Chip.queuePairs (c : Chip) : Nat := if c.dual then 32 else 64

/-- Create I/O Completion Queue. -/
def createIoCq (c : Chip) (i cid : Nat) : Chip :=
  match c.admin i cid 0x05 with
  | none => c
  | some x =>
    let qid := x.cmd.cdw10 % 65536
    let size := x.cmd.cdw10 / 65536
    if x.cmd.cdw11 % 2 = 0 then c.fail x stInvalidField
    else if qid = 0 ∨ c.queuePairs < qid ∨ c.nvq.cqs.any (fun q => q.cntl == i && q.qid == qid) then
      c.fail x stInvalidQid
    else if size = 0 ∨ 4095 < size then c.fail x stQueueSize
    else if c.queuePairs < x.cmd.cdw11 / 65536 then c.fail x (1, 0x08, true)
    else
      let q : Cq := { cntl := i, qid := qid, size := size + 1, vector := x.cmd.cdw11 / 65536
                      ien := x.cmd.cdw11 / 2 % 2 == 1 }
      ({ c with nvq := { c.nvq with cqs := c.nvq.cqs ++ [q] } }).finish x.ok

/-- CREATE_IO_CQ (R118). -/
def execCreateIoCq (cntl : Fin 2) (cid : Nat) (s : State) : Host.Outcome State Fault Refusal :=
  s.done (createIoCq s.chip cntl.val cid)

/-- Create I/O Submission Queue; QPRIO is ignored. -/
def createIoSq (c : Chip) (i cid : Nat) : Chip :=
  match c.admin i cid 0x01 with
  | none => c
  | some x =>
    let qid := x.cmd.cdw10 % 65536
    let size := x.cmd.cdw10 / 65536
    let cq := x.cmd.cdw11 / 65536
    if x.cmd.cdw11 % 2 = 0 then c.fail x stInvalidField
    else if qid = 0 ∨ c.queuePairs < qid ∨ c.nvq.sqs.any (fun q => q.cntl == i && q.qid == qid) then
      c.fail x stInvalidQid
    else if size = 0 ∨ 4095 < size then c.fail x stQueueSize
    else if cq = 0 ∨ !(c.nvq.cqs.any (fun q => q.cntl == i && q.qid == cq)) then c.fail x (1, 0x00, true)
    else
      let q : Sq := { cntl := i, qid := qid, size := size + 1, cqid := cq }
      ({ c with nvq := { c.nvq with sqs := c.nvq.sqs ++ [q] } }).finish x.ok

/-- CREATE_IO_SQ (R118). -/
def execCreateIoSq (cntl : Fin 2) (cid : Nat) (s : State) : Host.Outcome State Fault Refusal :=
  s.done (createIoSq s.chip cntl.val cid)

/-- Delete I/O Submission Queue: its commands complete with Command Aborted due to SQ Deletion (R144); the queue is
deleted once those completions are posted, which may have to wait for room. -/
def deleteIoSq (c : Chip) (i cid : Nat) : Chip :=
  match c.admin i cid 0x00 with
  | none => c
  | some x =>
    let qid := x.cmd.cdw10 % 65536
    if qid = 0 ∨ !(c.nvq.sqs.any (fun q => q.cntl == i && q.qid == qid)) then c.fail x stInvalidQid
    else
      let mine := c.nvq.inflight.filter (fun y => y.cntl == i && y.qid == qid && y.result.isNone)
      (mine.foldl (fun c y => ((c.discard y).dropReader (.host y.cntl y.qid y.cid)).fail y (0, 0x08, false)) c).mapCmd
        x.seq (fun y => { y with phase := .working })

/-- DELETE_IO_SQ (R144). -/
def execDeleteIoSq (cntl : Fin 2) (cid : Nat) (s : State) : Host.Outcome State Fault Refusal :=
  s.done (deleteIoSq s.chip cntl.val cid)

/-- Delete I/O Completion Queue: refused while a submission queue posts to it. -/
def deleteIoCq (c : Chip) (i cid : Nat) : Chip :=
  match c.admin i cid 0x04 with
  | none => c
  | some x =>
    let qid := x.cmd.cdw10 % 65536
    if qid = 0 ∨ !(c.nvq.cqs.any (fun q => q.cntl == i && q.qid == qid)) then c.fail x stInvalidQid
    else if c.nvq.sqs.any (fun q => q.cntl == i && q.cqid == qid) then c.fail x (1, 0x0C, true)
    else
      let n := c.nvq
      ({ c with nvq := { n with
        cqs := n.cqs.filter (fun q => !(q.cntl == i && q.qid == qid)) } }).finish x.ok

/-- DELETE_IO_CQ (R118). -/
def execDeleteIoCq (cntl : Fin 2) (cid : Nat) (s : State) : Host.Outcome State Fault Refusal :=
  s.done (deleteIoCq s.chip cntl.val cid)

/-! ### Abort (R137, R138) -/

/-- Abort: the command it names and the Abort claim one completion slot; `abortWins` says which claims
it first. -/
def abort (c : Chip) (i cid : Nat) (abortWins : Bool) : Chip :=
  match c.admin i cid 0x08 with
  | none => c
  | some x =>
    let older := c.nvq.inflight.filter (fun y => y.cntl == i && y.qid == 0 && y.cmd.opcode == 0x08
      && y.result.isNone && y.seq < x.seq)
    if 4 ≤ older.length then c.fail x (1, 0x03, true)
    else
      match c.nvq.find i (x.cmd.cdw10 % 65536) (x.cmd.cdw10 / 65536) with
      | none => c.finish { x.ok with dw0 := 1 }
      | some y =>
        if y.isAer || (y.qid == 0 && y.cmd.opcode == 0x08) then c.finish { x.ok with dw0 := 1 }
        else if y.result.isSome || !abortWins then
          (c.bump R.NVQ_ABORT_LOST).finish { x.ok with dw0 := 1 }
        else (((c.discard y).dropReader (.host y.cntl y.qid y.cid)).fail y (0, 0x07, false)).finish x.ok

/-! ### Asynchronous events -/

/-- Asynchronous Event Request: a waiting notice completes it at once, else it stays outstanding; at
most eight are outstanding (R117). -/
def asyncEventRequest (c : Chip) (i cid : Nat) : Chip :=
  if !c.alive || c.inHoldup then c
  else match c.nvq.find i 0 cid with
    | none => c
    | some x =>
      if !x.isAer || x.phase != .fetched || x.result.isSome then c
      else
        let out := c.nvq.inflight.filter (fun y => y.cntl == i && y.isAer && y.phase == .working
          && y.result.isNone)
        if 8 ≤ out.length then c.fail x (1, 0x05, true)
        else match (c.nvq.cntl i).notices with
          | n :: ns => (c.mapCntl i (fun y => { y with notices := ns })).finish { x.ok with dw0 := n }
          | [] => c.mapCmd x.seq (fun y => { y with phase := .working })

/-- ASYNC_EVENT_REQUEST (R118). -/
def execAsyncEventRequest (cntl : Fin 2) (cid : Nat) (s : State) : Host.Outcome State Fault Refusal :=
  s.done (asyncEventRequest s.chip cntl.val cid)

/-- The composite temperature crosses a threshold (R119): the temperature is now `temp`, and the SMART
warning notice is posted. -/
def temperatureThresholdCrossed (c : Chip) (temp : Nat) (_high : Bool) : Chip :=
  if !c.alive || c.inHoldup then c
  else ({ c with loc := { c.loc with temp := temp } }).notice 1 noticeTemp

/-- TEMPERATURE_THRESHOLD_CROSSED (R119). -/
def execTemperatureThresholdCrossed (temp : Nat) (high : Bool) (s : State) :
    Host.Outcome State Fault Refusal := s.done (temperatureThresholdCrossed s.chip temp high)

/-! ### Features (R119, R121, R143) -/

/-- Set Features writes a value; 0x104 and 0x204 stand for the over and under temperature thresholds. -/
def Chip.setFeature (c : Chip) (i f v : Nat) : Chip :=
  c.mapCntl i (fun y => { y with features := SMap.put featDefault y.features f v })

/-- Set Features. -/
def setFeatures (c : Chip) (i cid : Nat) : Chip :=
  match c.admin i cid 0x09 with
  | none => c
  | some x =>
    let v := x.cmd.cdw11
    let f := x.cmd.cdw10 % 256
    let put (k v : Nat) := (c.setFeature i k v).finish x.ok
    if f = 0xC1 ∧ !c.nsActive x.cmd.nsid then c.fail x stInvalidNs
    else if x.cmd.cdw10 / 2 ^ 31 % 2 = 1 then c.fail x (1, 0x0D, true)
    else match f with
      | 0x01 => put 0x01 v
      | 0x02 =>
        if v / 32 % 8 ≠ 0 ∨ 2 < v % 32 then c.fail x stInvalidField else c.powerState x (v % 32)
      | 0x04 =>
        if v / 65536 % 16 ≠ 0 ∧ v / 65536 % 16 ≠ 15 then c.fail x stInvalidField
        else match v / 2 ^ 20 % 4 with
          | 0 => put 0x104 (v % 65536)
          | 1 => put 0x204 (v % 65536)
          | _ => c.fail x stInvalidField
      | 0x05 =>
        if v / 65536 % 2 = 1 then c.fail x stInvalidField
        else (c.setFld R.NVQ_TLER 15 0 (v % 65536)).finish x.ok
      | 0x07 =>
        if v % 65536 = 65535 ∨ v / 65536 = 65535 then c.fail x stInvalidField
        else
          let m := c.queuePairs - 1
          let g := min (v % 65536) m + min (v / 65536 % 65536) m * 65536
          (c.setFeature i 0x07 (2 ^ 32 + g)).finish { x.ok with dw0 := g }
      | 0x08 => put 0x08 (v % 65536)
      | 0x09 =>
        if c.queuePairs < v % 65536 then c.fail x stInvalidField
        else put (0x900 + v % 65536) (v / 65536 % 2)
      | 0x0B => put 0x0B v
      | 0x0E =>
        let now := c.dtm.dtime.toNat / 400000
        put 0x0E ((leNat (x.cmd.data.take 6) + 2 ^ 48 - now % 2 ^ 48) % 2 ^ 48 + 2 ^ 48)
      | 0xC1 =>
        let s := c.nvq.secure.filter (· != x.cmd.nsid)
        let s := if v % 2 = 1 then insertNat s x.cmd.nsid else s
        ({ c with nvq := { c.nvq with secure := s } }).finish x.ok
      | _ => c.fail x stInvalidField

/-- SET_FEATURES (R119). -/
def execSetFeatures (cntl : Fin 2) (cid : Nat) (s : State) : Host.Outcome State Fault Refusal :=
  s.done (setFeatures s.chip cntl.val cid)

/-- The value Get Features returns in double word 0: the current one, or the default for SEL 1 and 2. -/
def Chip.featureValue (c : Chip) (i : Nat) (h : HostCmd) (dflt : Bool) : Option Nat :=
  let get (k : Nat) := if dflt then featDefault k else c.feature i k
  match h.cdw10 % 256 with
  | 0x01 => some (get 0x01)
  | 0x02 => some (if dflt then 0 else c.nvq.ps)
  | 0x04 => some (if h.cdw11 / 2 ^ 20 % 4 = 1 then get 0x204 else get 0x104)
  | 0x05 => some (if dflt then 4 else c.fld R.NVQ_TLER 15 0)
  | 0x07 =>
    let m := c.queuePairs - 1
    some (if dflt ∨ c.feature i 0x07 = 0 then m + m * 65536 else c.feature i 0x07 % 2 ^ 32)
  | 0x08 => some (get 0x08)
  | 0x09 => some (h.cdw11 % 65536 + get (0x900 + h.cdw11 % 65536) * 65536)
  | 0x0B => some (get 0x0B)
  | 0x0E => some 0
  | 0xC1 => some (if !dflt ∧ c.nvq.secure.contains h.nsid then 1 else 0)
  | _ => none

/-- Get Features; the timestamp is transferred as data. -/
def getFeatures (c : Chip) (i cid : Nat) : Chip :=
  match c.admin i cid 0x0A with
  | none => c
  | some x =>
    let sel := x.cmd.cdw10 / 256 % 8
    if x.cmd.cdw10 % 256 = 0xC1 ∧ !c.nsActive x.cmd.nsid then c.fail x stInvalidNs
    else match c.featureValue i x.cmd (sel == 1 || sel == 2) with
    | none => c.fail x stInvalidField
    | some v =>
      if sel = 3 then
        c.finish { x.ok with dw0 := if x.cmd.cdw10 % 256 = 0xC1 then 6 else 4 }
      else if 3 < sel then c.fail x stInvalidField
      else
        let c := if x.cmd.cdw10 % 256 = 0x0E then
            let t := c.feature i 0x0E
            let now := (c.dtm.dtime.toNat / 400000 + t % 2 ^ 48) % 2 ^ 48
            c.emit (.bytes i 0 cid (leBytes 6 now ++ [BitVec.ofNat 8 (if 2 ^ 48 ≤ t then 2 else 0), 0]))
          else c
        c.finish { x.ok with dw0 := v }

/-- GET_FEATURES (R119). -/
def execGetFeatures (cntl : Fin 2) (cid : Nat) (s : State) : Host.Outcome State Fault Refusal :=
  s.done (getFeatures s.chip cntl.val cid)

/-! ### Firmware (R135, R136) -/

/-- Downloaded bytes go to their places in the image. -/
def Chip.storeImage (c : Chip) (o : Nat) (bs : List Byte) : Chip :=
  { c with nvq := { c.nvq with
    image := bs.zipIdx.foldl (fun m e => SMap.put memBlank m (o + e.2) e.1) c.nvq.image } }

/-- Firmware Image Download: OFST and NUMD in dwords, in whole 4 KiB pieces. -/
def firmwareImageDownload (c : Chip) (i cid : Nat) : Chip :=
  match c.admin i cid 0x11 with
  | none => c
  | some x =>
    let n := x.cmd.cdw10 + 1
    let o := x.cmd.cdw11
    if o % 1024 ≠ 0 ∨ n % 1024 ≠ 0 ∨ 524288 < n ∨ 2097152 < o + n then c.fail x stInvalidField
    else (c.storeImage (4 * o) (x.cmd.data.take (4 * n))).finish x.ok

/-- FIRMWARE_IMAGE_DOWNLOAD (R135). -/
def execFirmwareImageDownload (cntl : Fin 2) (cid : Nat) (s : State) :
    Host.Outcome State Fault Refusal := s.done (firmwareImageDownload s.chip cntl.val cid)

/-- The downloaded image as far as its header says: 256 bytes and the body of IMAGE_LEN (R59). A byte that no
download has brought reads 0. -/
def Chip.downloaded (c : Chip) : List Byte :=
  let at_ (n : Nat) : List Byte := (List.range n).map (SMap.get memBlank c.nvq.image)
  at_ (256 + min (leAt (at_ 16) 12 4) 8388352)

/-- The image is programmed into a slot of the octal NOR (R60), whose version the slot then holds. -/
def Chip.storeSlot (c : Chip) (slot : Nat) (image : List Byte) : Chip :=
  let n := c.nvq
  let version := leAt image 8 4
  ({ c with nvq := { n with
    image := []
    fwSlot1 := if slot = 1 then version else n.fwSlot1
    fwSlot2 := if slot = 2 then version else n.fwSlot2 } }).emit (.norProgram (slotBase slot) image)

/-- Name the slot that becomes active at the next controller reset. -/
def Chip.activateNext (c : Chip) (slot : Nat) : Chip :=
  { c with nvq := { c.nvq with fwNext := slot } }

/-- Firmware Commit: the checks of R59 on the downloaded image decide; `signatureGood` is the verdict on its
SIGNATURE. -/
def firmwareCommit (c : Chip) (i cid : Nat) (signatureGood : Bool) : Chip :=
  match c.admin i cid 0x10 with
  | none => c
  | some x =>
    let slot := x.cmd.cdw10 % 8
    let ca := x.cmd.cdw10 / 8 % 8
    if 3 < ca then c.fail x stInvalidField
    else if slot ≠ 1 ∧ slot ≠ 2 then c.fail x (1, 0x06, true)
    else if ca = 2 then
      if (if slot = 1 then c.nvq.fwSlot1 else c.nvq.fwSlot2) = 0 then c.fail x (1, 0x07, true)
      else (c.activateNext slot).finish x.ok
    else if c.imageStep c.downloaded signatureGood ≠ 0 then c.fail x (1, 0x07, true)
    else
      let c := c.storeSlot slot c.downloaded
      match ca with
      | 0 => c.finish x.ok
      | 1 => (c.activateNext slot).fail x (1, 0x11, false)
      | _ =>
        let c := c.activateNext slot
        let c := { c with nvq := { c.nvq with activating := some (i, 0, cid) } }
        let c := c.mapCmd x.seq (fun y => { y with phase := .working })
        c.notice 9 noticeFwStart

/-- FIRMWARE_COMMIT (R135). -/
def execFirmwareCommit (cntl : Fin 2) (cid : Nat) (signatureGood : Bool) (s : State) :
    Host.Outcome State Fault Refusal := s.done (firmwareCommit s.chip cntl.val cid signatureGood)

/-- The fetched commands have not all completed in 4,000 ms (R136): the activation is abandoned and
fetching resumes. -/
def fwActivationTimeout (c : Chip) : Chip :=
  if !c.alive || c.inHoldup then c
  else match c.nvq.activating with
    | none => c
    | some (i, q, d) =>
      let c := { c with nvq := { c.nvq with activating := none, fwNext := 0 } }
      (c.finish { cntl := i, qid := q, cid := d, sct := 1, sc := 0x12 }).raise 0x11 2

/-- FW_ACTIVATION_TIMEOUT (R136). -/
def execFwActivationTimeout (s : State) : Host.Outcome State Fault Refusal :=
  s.done (fwActivationTimeout s.chip)

/-- The running self-test ends with a result: 0 without error, 1 aborted, 6 a failed segment (codes of NVMe). -/
def Chip.selfTestEnds (c : Chip) (result : Nat) : Chip :=
  let n := c.nvq
  if n.selfTest = 0 then c
  else { c with nvq := { n with selfTest := 0, selfResults := ((n.selfTest, result) :: n.selfResults).take 20 } }

/-- Device Self-test (R118): short, extended or abort; a media read scan, which ends REST (R38). -/
def selfTestCommand (c : Chip) (i cid : Nat) : Chip :=
  match c.admin i cid 0x14 with
  | none => c
  | some x =>
    let stc := x.cmd.cdw10 % 16
    if stc = 15 then (c.selfTestEnds 1).finish x.ok
    else if stc ≠ 1 ∧ stc ≠ 2 then c.fail x stInvalidField
    else if c.nvq.selfTest ≠ 0 then c.fail x (1, 0x1D, true)
    else
      let c := c.leaveRest
      ({ c with nvq := { c.nvq with selfTest := stc } }).finish x.ok

/-- The command, or the end of the scan that runs, which has read every sector it tried without error or not. -/
def deviceSelfTest (c : Chip) (i : Nat) (test : SelfTest) : Chip :=
  match test with
  | .command cid => selfTestCommand c i cid
  | .scanned good => if !c.alive || c.inHoldup then c else c.selfTestEnds (if good then 0 else 6)

/-- DEVICE_SELF_TEST (R118). -/
def execDeviceSelfTest (cntl : Fin 2) (test : SelfTest) (s : State) :
    Host.Outcome State Fault Refusal := s.done (deviceSelfTest s.chip cntl.val test)

end Sys2Proof.Machine
end

