-- ==== Sys2Proof/Machine/HostIo.lean ====
section
/-! DEFINITION. Host reads and writes: the device conditions of R144, issue in order (R124),
resolution (R20, R196, R197), write acceptance and staging (R21, R126 to R129), band allocation
(R209 to R211), Flush (R130, R131) and the retry budget (R142). -/

namespace Sys2Proof.Machine

open Sys2Proof

/-! ### Device conditions and issue -/

/-- The actuators of a namespace as a submission queue remembers them. -/
def actsCode (nsid : Nat) : Nat := if nsid = 1 then 1 else if nsid = 2 then 2 else 3

/-- The status a device condition gives I/O that passed the checks of R139 (R40, R144). -/
def Chip.gate (c : Chip) (nsid : Nat) (mutate : Bool) : Option Status :=
  if c.effective = 4 ∨ (nsActs nsid).any c.retired then some (0, 0x82, true)
  else if c.sys.mode = .rebuild then
    if !c.bit R.SYS_REBUILD_POLICY 0 then some (0, 0x82, false)
    else if mutate then some (0, 0x20, false)
    else none
  else none

/-- The queue a command came from. -/
def InCmd.queue (x : InCmd) : Nat := x.cntl * 65536 + x.qid

/-- An earlier command of the queue has media work still to finish (R124); a Flush makes nothing wait. -/
def Chip.earlierWork (c : Chip) (x : InCmd) : Bool :=
  c.nvq.inflight.any (fun y => y.queue == x.queue && decide (y.seq < x.seq) && y.result.isNone
      && !(y.cmd.opcode == 0x00)) ||
    c.nvq.staging.any (fun u => u.queue == x.queue && decide (u.seq < x.seq)
      && u.data.any (fun e => !u.media.contains e.1))

/-- The partition the registers ask for (R187). -/
def Chip.askedPart (c : Chip) : Part :=
  { cA := c.fld R.LOC_PART_CONV 6 0, cB := c.fld R.LOC_PART_CONV 14 8
    n3 := c.fld R.LOC_PART_NS3 17 0, n4A := c.fld R.LOC_PART_NS4_A 17 0, n4B := c.fld R.LOC_PART_NS4_B 17 0
    opA := c.fld R.LOC_OP_A 17 0, opB := c.fld R.LOC_OP_B 17 0 }

/-- A partition would change a zone's KIND or namespace. -/
def Chip.concerned (c : Chip) (p : Part) (zone : Nat) : Bool :=
  c.loc.layout zone != ({ c.loc with part := p } : Loc).layout zone

/-- The zones of namespace 4 on an actuator (R182). -/
def Loc.segZones (l : Loc) (a : Act) : List Nat :=
  (List.range (l.part.n4 a)).map (fun j => a.toNat * 262144 + l.part.conv a + l.seq a + l.part.n3 + j)

/-- The zones a command of an I/O queue works on. -/
def Chip.cmdZones (c : Chip) (h : HostCmd) : List Nat :=
  if h.nsid = 4 then c.loc.segZones .A ++ c.loc.segZones .B
  else match h.opcode with
    | 0x00 => []
    | 0x79 =>
      if h.selectAll then
        (c.loc.zones.filter (fun e => e.2.kind == 1 && e.2.nsid == h.nsid)).map Prod.fst
      else [(c.loc.place h.nsid h.slba).1]
    | 0x7A => []
    | 0x7D => [(c.loc.place h.nsid h.slba).1]
    | 0x09 => h.ranges.flatMap (fun r => if r.2 = 0 then [] else c.zonesTouched h.nsid r.1 r.2)
    | _ => c.zonesTouched h.nsid h.slba h.nlb

/-- A Zone Finish, Zone Reset, Format or Sanitize under way has still to change a zone of the command. -/
def Chip.zonePending (c : Chip) (h : HostCmd) : Bool :=
  c.nvq.inflight.any (fun y => (y.finishing || (y.unmaps && y.phase == .working && y.result.isNone))
    && y.units.any (c.cmdZones h).contains)

/-- A zone of a command that writes is taken: an APPLY would change it (R187), or a command under way will. -/
def Chip.zoneTaken (c : Chip) (h : HostCmd) : Bool :=
  (c.bit R.LOC_PART_CTRL 1 && (c.cmdZones h).any (c.concerned c.askedPart)) || c.zonePending h

/-- A command of an I/O queue is issued (R37, R124, R144): decided by a device condition, held back by
CALIBRATE or REST, by what holds a zone it would write, or by an earlier command for another actuator, or gone on
with (true). A command that needs both actuators waits for every earlier one: a queue issues such commands one at
a time. One issued to a lost actuator waits for it, while its budget runs (R142). -/
def Chip.begin (c : Chip) (x : InCmd) (mutate : Bool) : Bool × Chip :=
  match c.gate x.cmd.nsid mutate with
  | some st => (false, c.fail x st)
  | none =>
    if c.sys.mode = .rest ∨ (nsActs x.cmd.nsid).any c.calibrating ∨ (mutate ∧ c.zoneTaken x.cmd) then
      (false, c)
    else
      let a := actsCode x.cmd.nsid
      let last := match c.nvq.sqs.find? (fun q => q.cntl == x.cntl && q.qid == x.qid) with
        | some q => q.last
        | none => 0
      if last ≠ 0 ∧ (last ≠ a ∨ a = 3) ∧ c.earlierWork x then
        if x.mixed then (false, c)
        else (false, (c.mapCmd x.seq (fun y => { y with mixed := true })).bump R.NVQ_MIXED_CNT)
      else
        let c := { c with nvq := { c.nvq with sqs := c.nvq.sqs.map (fun (q : Sq) =>
          if q.cntl = x.cntl ∧ q.qid = x.qid then { q with last := a } else q) } }
        if (nsActs x.cmd.nsid).any c.lostNow then
          (false, c.mapCmd x.seq (fun y => { y with issued := some (y.issued.getD c.dtm.dtime) }))
        else (true, c)

/-- An earlier write of the queue is not yet all staged: no later write of the queue becomes visible before it
(R123). -/
def Nvq.earlierWrite (n : Nvq) (x : InCmd) : Bool :=
  n.inflight.any (fun y => y.queue == x.queue && decide (y.seq < x.seq) && y.isWrite && y.result.isNone)

/-- The LBA a write's data starts at. -/
def InCmd.base (x : InCmd) : Nat := if x.cmd.opcode = 0x7D then x.cmd.slba + x.first else x.cmd.slba

/-- A read waits for an earlier write of its queue that overlaps it (R123). -/
def Nvq.readWaits (n : Nvq) (x : InCmd) : Bool :=
  n.inflight.any (fun y => y.queue == x.queue && decide (y.seq < x.seq) && y.isWrite && y.result.isNone
    && y.cmd.nsid == x.cmd.nsid && decide (y.base < x.cmd.slba + x.cmd.nlb ∧ x.cmd.slba < y.base + y.cmd.nlb))

/-! ### Resolution -/

/-- What a unit resolves to. -/
inductive Where where
  /-- Never written or deallocated: zeros (R197). -/
  | zeros
  /-- A band, by its key. -/
  | band (key : Nat)
  /-- A media-cache sector of the zone's actuator. -/
  | cache (csec : Nat)
  /-- The conventional region. -/
  | conv
  /-- A page not yet recovered (R40, R202). -/
  | waits
  deriving DecidableEq, Repr

/-- A page table entry: in REBUILD one not yet recovered, else one never written. -/
def Chip.page (c : Chip) (zone chunk : Nat) : Word :=
  (c.loc.pages.find? (zone * 256 + chunk)).getD
    (if c.sys.mode = .rebuild then 0xC0000000#32 else 0)

/-- Where a unit lies (R195, R196). -/
def Chip.resolve (c : Chip) (zone unit : Nat) : Where :=
  let z := c.zone zone
  let inBand (k : Nat) : Where := if z.mwp ≤ unit then .zeros else .band k
  if c.sys.mode = .rebuild then
    let e := c.page zone (unit / 256)
    if field e 31 30 = 3 then .waits
    else match c.hotOf zone unit with
      | some h => if h.kind = 1 then .cache h.csec else .zeros
      | none => if field e 31 30 = 0 then .zeros else inBand (bandKey (zoneAct zone) (field e 25 8))
  else if z.kind = 0 ∨ (z.state = 0 ∧ z.kind ≠ 3) then .zeros
  else match c.hotOf zone unit with
    | some h => if h.kind = 1 then .cache h.csec else .zeros
    | none =>
      if z.kind = 3 then (if z.bitmap.contains unit then .conv else .zeros)
      else match c.bandOfZone zone with
        | some k => inBand k
        | none => .zeros

/-- A block of zeros. -/
def zeroBlock : Block := 0

/-- The newest staged copy of an LBA, which a read returns before anything on the media (R20). -/
def Nvq.stagedAt (n : Nvq) (zone unit : Nat) : Option ReadResult :=
  match n.staging.reverse.find? (fun u => u.nsid != 4 && u.zone == zone && decide (u.unit ≤ unit)
      && (u.data.find? (unit - u.unit)).isSome) with
  | none => none
  | some u =>
    match u.data.find? (unit - u.unit) with
    | none => none
    | some b => some (if u.poison.any (fun w => w / 512 == unit - u.unit) then .poisoned b else .good b)

/-- 0 to 3 by three rising thresholds. -/
def binOf (n t1 t2 t3 : Nat) : Nat := if n < t1 then 0 else if n < t2 then 1 else if n < t3 then 2 else 3

/-- The retention class of a read of a zone, as it is issued (R212, R213). -/
def Chip.retentionClass (c : Chip) (zone : Nat) : Nat :=
  let z := c.zone zone
  let t := c.loc.temp
  let age := (c.jnl.optime / 16 + 2 ^ 24 - z.wtime) % 2 ^ 24 / 16
  let ages := c.reg R.LOC_RET_AGE01
  let temps := c.reg R.LOC_RET_TEMP
  let diff (m : Nat) : Nat := max (t - m) (m - t)
  4 * binOf age (field ages 15 0) (field ages 31 16) (c.fld R.LOC_RET_AGE2 15 0)
    + (if z.tmin = 0xFF ∨ z.tmax = 0xFF ∨ t = 0xFF then 3
      else binOf (max (diff z.tmin) (diff z.tmax)) (field temps 7 0) (field temps 15 8) (field temps 23 16))

/-- The `n`-th track of a run of a head's tracks, the tracks of the defect list left out (R180, R196). -/
def Format.trackOf (f : Format) (head start n : Nat) : Nat :=
  (((f.defects.filter (fun d => d.1 == head && decide (start ≤ d.2))).map Prod.snd).foldl insertNat []).foldl
    (fun t d => if d ≤ t then t + 1 else t) (start + n)

/-- What Locus hands the real-time core for a unit that lies on the media (R196): in a band the head, the track
by the sectors of a track from START_TRACK on, and the sector. -/
def Chip.locateUnit (c : Chip) (lba zone unit : Nat) : Option Out :=
  let a := zoneAct zone
  match c.resolve zone unit with
  | .band k =>
    (c.band k).map (fun b =>
      let spt := max 1 (fmtSpt ((c.chan a).format b.head b.ann))
      .locate lba a 1 (k % 262144) (some (b.head, (c.loc.format a).trackOf b.head b.startTrack (unit / spt), unit % spt)) (c.retentionClass zone))
  | .cache csec => some (.locate lba a 2 csec none (c.retentionClass (c.mcZone a csec)))
  | .conv => some (.locate lba a 3 unit none (c.retentionClass zone))
  | .zeros => none
  | .waits => none

/-- Locus hands the real-time core every LBA that staging does not give. -/
def Chip.locate (c : Chip) (ps : List (Nat × Nat × Nat)) : Chip :=
  { c with out := c.out ++ ps.filterMap (fun p =>
      if (c.nvq.stagedAt p.2.1 p.2.2).isSome then none else c.locateUnit p.1 p.2.1 p.2.2) }

/-- The LBAs of a command with their zones and units. -/
def Chip.places (c : Chip) (nsid base n : Nat) : List (Nat × Nat × Nat) :=
  (List.range n).map (fun j => (base + j, c.loc.place nsid (base + j)))

/-- What each LBA of a read gives without the media, and the bands the rest lie in; none while a page it
needs is not recovered. -/
def Chip.resolveAll (c : Chip) : List (Nat × Nat × Nat) →
    Option (List (Nat × Option ReadResult) × List Nat)
  | [] => some ([], [])
  | (l, zone, unit) :: ps =>
    match Chip.resolveAll c ps with
    | none => none
    | some (rs, bs) =>
      match c.nvq.stagedAt zone unit with
      | some r => some ((l, some r) :: rs, bs)
      | none =>
        match c.resolve zone unit with
        | .zeros => some ((l, some (.good zeroBlock)) :: rs, bs)
        | .band k => some ((l, none) :: rs, insertNat bs k)
        | .cache _ => some ((l, none) :: rs, bs)
        | .conv => some ((l, none) :: rs, bs)
        | .waits => none

/-! ### Reads -/

/-- The block a result carries and its poison mark; none where the media gave nothing. -/
def ReadResult.block? : ReadResult → Option (Block × Bool)
  | .good b => some (b, false)
  | .poisoned b => some (b, true)
  | .marker => none
  | .unrecovered => none

/-- All of a list's values, none if one is missing. -/
def allSome {α : Type} : List (Option α) → Option (List α)
  | [] => some []
  | none :: _ => none
  | some a :: as => (allSome as).map (a :: ·)

/-- Every LBA is known: the data goes to the host and the command completes (R113, R144). A poisoned
block carries EP in every TLP; how many TLPs a block takes follows the link's payload size, which the
spec leaves to PCIe, 8 to 32. -/
def Chip.deliver (c : Chip) (x : InCmd) (transfer : Bool) (rs : List ReadResult) : Chip :=
  match allSome (rs.map ReadResult.block?) with
  | none => c.fail x (2, 0x81, false)
  | some bs =>
    let c := if transfer then c.emit (.blocks x.cntl x.qid x.cid bs) else c
    let bad := (bs.filter (fun b => b.2)).length
    if bad = 0 then c.finish x.ok
    else
      let c := if transfer then
          let r := c.takeFree 5
          (r.2.addSat R.HIF_POISON_TX (bad * (8 + r.1.toNat % 25))).raise 0x10 3
        else c
      c.fail x (2, 0x81, false)

/-- The media has given an LBA of a command: its sector is confirmed for it (R26). -/
def Chip.confirmedFor (c : Chip) (x : InCmd) (lba : Nat) : Bool :=
  let p := c.loc.place x.cmd.nsid lba
  x.got.contains (unitKey p.1 p.2) || c.slots.any (fun e => e.2.conf && e.2.zone == p.1 && e.2.unit == p.2)

/-- What the media has given of an LBA; nothing of a sector that is not confirmed counts (R26). -/
def Chip.given (c : Chip) (x : InCmd) (media : List (Nat × ReadResult)) (lba : Nat) : Option ReadResult :=
  match media.find? (fun m => m.1 == lba) with
  | some (_, .unrecovered) => some .unrecovered
  | some (_, r) => if c.confirmedFor x lba then some r else none
  | none => none

/-- A read goes on with what the media has given (LBA, result). -/
def Chip.readMore (c : Chip) (x : InCmd) (media : List (Nat × ReadResult)) : Chip :=
  match allSome (x.resolved.map (fun e => e.2 <|> c.given x media e.1)) with
  | none => c
  | some rs => c.deliver x (x.cmd.opcode == 0x02) rs

/-- A Read or Verify whose LBAs are not resolved yet is resolved, unless a page it needs is missing. -/
def Chip.readResolve (c : Chip) (x : InCmd) (media : List (Nat × ReadResult)) : Chip :=
  let ps := c.places x.cmd.nsid x.cmd.slba x.cmd.nlb
  match c.resolveAll ps with
  | none => c
  | some (rs, bs) =>
    let x := { x with resolved := rs, bands := bs }
    ((c.mapCmd x.seq (fun y => { y with resolved := rs, bands := bs })).locate ps).readMore x media

/-- Read and Verify (R20, R118, R196): an Offline zone and a wrong SGL length reject it, a device
condition may decide it; then it is issued, its budget starts (R142), and it completes once every LBA is
known. The row is repeated as the media gives more. -/
def readCommand (c : Chip) (i qid cid opcode : Nat) (media : List (Nat × ReadResult)) : Chip :=
  if !c.alive || c.inHoldup || qid == 0 then c
  else match c.io i qid cid opcode with
    | some x =>
      if (c.zonesTouched x.cmd.nsid x.cmd.slba x.cmd.nlb).any (fun z => (c.zone z).state == 6) then
        c.fail x (1, 0xBB, true)
      else if opcode = 0x02 ∧ x.cmd.sglBad then c.fail x stSglLength
      else
        let r := c.begin x false
        if !r.1 || c.nvq.readWaits x then r.2
        else
          let t := some (x.issued.getD c.dtm.dtime)
          let c := r.2.mapCmd x.seq (fun y => { y with phase := .working, issued := t })
          c.readResolve { x with phase := .working, issued := t } media
    | none =>
      match c.nvq.find i qid cid with
      | none => c
      | some x =>
        if x.cmd.opcode ≠ opcode ∨ x.cmd.nsid = 4 ∨ x.phase ≠ .working ∨ x.result.isSome then c
        else if x.resolved.isEmpty then c.readResolve x media
        else c.readMore x media

/-- READ (R196). -/
def execRead (cntl : Fin 2) (qid cid : Nat) (media : List (Nat × ReadResult)) (s : State) :
    Host.Outcome State Fault Refusal := s.done (readCommand s.chip cntl.val qid cid 0x02 media)

/-- VERIFY (R118). -/
def execVerify (cntl : Fin 2) (qid cid : Nat) (media : List (Nat × ReadResult)) (s : State) :
    Host.Outcome State Fault Refusal := s.done (readCommand s.chip cntl.val qid cid 0x0C media)

/-! ### Band allocation (R209 to R211) -/

/-- Annuli 0 to SEG_POP.TARGET are reserved in Tier S. -/
def Chip.outer (c : Chip) (b : Band) : Bool := c.lcs.tierS && decide (b.ann ≤ c.fld R.SEG_POP 27 24)

/-- The distance from one Annulus to another; of two equally near the outer is the nearer. -/
def annDistance (want have' : Nat) : Nat :=
  if have' ≤ want then 2 * (want - have') else 2 * (have' - want) + 1

/-- The bands of the Annulus nearest to the one wanted. -/
def nearest (want : Nat) (bs : List (Nat × Band)) : List (Nat × Band) :=
  let d := bs.foldl (fun m e => min m (annDistance want e.2.ann)) 1000
  bs.filter (fun e => annDistance want e.2.ann == d)

/-- The band an allocation takes (R209 to R211): the least worn FREE band of the Annulus asked for or of
any, outside the reserves the request may not touch; none where it is refused. `newData` may not take the
general reserve; `outerFree` may take any outer band. -/
def Chip.pickBand (c : Chip) (a : Act) (ann : Option Nat) (newData outerFree : Bool) : Option Nat :=
  let free := c.freeBands a
  let outers := (free.filter (fun e => c.outer e.2)).length
  let outerOk := outerFree || decide (c.fld R.LOC_RESERVE 15 8 < outers)
  let inner := free.filter (fun e => !c.outer e.2)
  let pool := if outerOk then free else if inner.isEmpty && !newData then free else inner
  if newData ∧ free.length ≤ c.fld R.LOC_RESERVE 7 0 then none
  else
    let pool := match ann with
      | some n => nearest n pool
      | none =>
        if outerOk then pool
        else match c.leastWorn free with
          | some e => if c.outer e.2 then nearest (c.fld R.SEG_POP 27 24) pool else pool
          | none => pool
    (c.leastWorn pool).map Prod.fst

/-- Locus gives a zone a band: one record, with a new salt (R193, R208, R221). -/
def Chip.allocBand (c : Chip) (zone k : Nat) : Chip :=
  let r := c.takeRandom 128
  let ann := match c.band k with
    | some b => b.ann
    | none => 0
  r.2.commit .locus [.alloc zone (c.zone zone).gen k ann (c.nextRewrites k) r.1] []

/-! ### Write acceptance -/

/-- Zone rules of a Write (R139 step 6, R140): the statuses of a zone that cannot be written, the write
pointer before the boundary. -/
def Chip.writeRules (c : Chip) (nsid base n : Nat) : Option Status :=
  let zs := c.zonesTouched nsid base n
  if zs.any (fun i => (c.zone i).state == 5) then some (1, 0xBA, true)
  else if zs.any (fun i => (c.zone i).state == 6) then some (1, 0xBB, true)
  else
    let i := (c.loc.place nsid base).1
    let z := c.zone i
    if z.kind = 1 then
      if z.state = 4 then some (1, 0xB9, true)
      else if base % 65536 ≠ z.hostWp.getD z.mwp then some (1, 0xBC, true)
      else if 65536 < base % 65536 + n then some (1, 0xB8, true)
      else none
    else if zs.any (fun j => (c.zone j).kind == 1) then some (1, 0xB8, true)
    else none

/-- Zone rules of a Zone Append. -/
def Chip.appendRules (c : Chip) (zone n : Nat) : Option Status :=
  let z := c.zone zone
  if z.state = 5 then some (1, 0xBA, true)
  else if z.state = 6 then some (1, 0xBB, true)
  else if z.state = 4 then some (1, 0xB9, true)
  else if 65536 < z.hostWp.getD z.mwp + n then some (1, 0xB8, true)
  else none

/-- Zones of a sequential namespace that are in one of some states. -/
def Chip.zonesIn (c : Chip) (nsid : Nat) (states : List Nat) : List (Nat × Zone) :=
  c.loc.zones.filter (fun e => e.2.kind == 1 && e.2.nsid == nsid && states.contains e.2.state)

/-- What the open and active limits of R128 say of opening a zone. -/
def Chip.openLimits (c : Chip) (zone : Nat) : Option Status :=
  let z := c.zone zone
  if 128 ≤ (c.zonesIn z.nsid [1, 2]).length ∧ (c.zonesIn z.nsid [1]).isEmpty then some (1, 0xBE, false)
  else if z.state = 0 ∧ 128 ≤ (c.zonesIn z.nsid [1, 2, 3]).length then some (1, 0xBD, false)
  else none

/-- The zone written least recently. -/
def oldestWrite : List (Nat × Zone) → Option (Nat × Zone)
  | [] => none
  | e :: es =>
    match oldestWrite es with
    | none => some e
    | some f => if f.2.lastWrite < e.2.lastWrite then some f else some e

/-- A zone is opened (R128): at 128 open zones the implicitly opened one written least recently is
closed first. -/
def Chip.openZone (c : Chip) (zone state : Nat) : Chip :=
  let n := (c.zone zone).nsid
  let c := if 128 ≤ (c.zonesIn n [1, 2]).length then
      match oldestWrite (c.zonesIn n [1]) with
      | some e => (c.setZone e.1 { e.2 with state := 3 }).zoneChanged e.1
      | none => c
    else c
  c.setZone zone { c.zone zone with state := state, hostWp := some ((c.zone zone).hostWp.getD (c.zone zone).mwp) }

/-- A write needs a new band for the zone (R184). -/
def Chip.needsBand (c : Chip) (zone : Nat) : Bool :=
  let z := c.zone zone
  (z.kind == 1 || z.kind == 2) && !z.hasBand

/-- The new bands a write needs, by zone; none where one is refused (R129, R211). -/
def Chip.newBands (c : Chip) (zs : List Nat) : Option (List (Nat × Nat)) :=
  allSome ((zs.filter c.needsBand).map (fun i => (c.pickBand (zoneAct i) none true false).map (fun k => (i, k))))

/-- A 64 KiB unit's number over all zones. -/
def unitNo (zone unit : Nat) : Nat := zone * 4096 + unit / 16

/-- The aligned 64 KiB units of a list of places, each once. -/
def unitsOf (ps : List (Nat × Nat × Nat)) : List Nat := ps.foldl (fun us p => insertNat us (unitNo p.2.1 p.2.2)) []

/-- Writes whose data transfer is held back (R21). -/
def Nvq.heldWrites (n : Nvq) : List InCmd :=
  n.inflight.filter (fun x => x.phase == .held && x.result.isNone)

/-- Writes whose transfer has started and has not ended. -/
def Nvq.transfers (n : Nvq) : List InCmd :=
  n.inflight.filter (fun x => x.isWrite && x.phase == .transferring && x.result.isNone)

/-- The 64 KiB units staged or reserved by a transfer, and those of some LBAs, each once. -/
def Nvq.spanned (n : Nvq) (us : List Nat) : List Nat :=
  (us ++ (n.transfers.filter (fun x => x.cmd.nsid != 4)).flatMap InCmd.units
    ++ n.staging.map (fun u => unitNo u.zone u.unit)).foldl insertNat []

/-- The dirty limit leaves room for the units `us` and for `n` units of a value besides (R21, R475). -/
def Chip.stagingRoom (c : Chip) (us : List Nat) (n : Nat) : Bool :=
  let values := ((c.nvq.transfers.filter (fun x => x.cmd.nsid == 4)).map (fun x => x.units.length)).foldl (· + ·) 0
  decide ((c.nvq.spanned us).length + values + n ≤ unitsOfMib c.effLimit)

/-- The room a held write needs is there. -/
def Chip.fits (c : Chip) (x : InCmd) : Bool :=
  if x.cmd.nsid = 4 then c.stagingRoom [] x.units.length else c.stagingRoom x.units 0

/-- A write is accepted (R127): its zone opens, the write pointer advances, SECURE is set in secure
discard mode (R188), and its transfer starts or is held (R21). -/
def Chip.accept (c : Chip) (x : InCmd) (zone first : Nat) (ps : List (Nat × Nat × Nat)) : Chip :=
  let order := c.nvq.nextOrder
  let c := { c with nvq := { c.nvq with nextOrder := order + 1 } }
  let z := c.zone zone
  let c := if z.kind = 1 ∧ z.state ≠ 1 ∧ z.state ≠ 2 then c.openZone zone 1 else c
  let z := c.zone zone
  let wp := first + ps.length
  let c := if z.kind = 1 then
      c.setZone zone { z with
        hostWp := some wp, state := if wp = 65536 then 4 else z.state, lastWrite := order + 1 }
    else c
  let c := if c.nvq.secure.contains x.cmd.nsid then
      ps.foldl (fun c p => c.setZone p.2.1 { c.zone p.2.1 with secure := true }) c
    else c
  let us := unitsOf ps
  let go := c.nvq.heldWrites.isEmpty && c.stagingRoom us 0
  c.mapCmd x.seq (fun y => { y with
    zone := zone, first := first, units := us, order := order, gen := (c.zone zone).gen
    phase := if go then .transferring else .held })

/-- A checked Write or Zone Append at `base`: the device conditions, the open limits and the free-band
reserve, then acceptance. It waits, with no effect, while the record of a new band must (R19). -/
def Chip.writeOn (c : Chip) (x : InCmd) (base : Nat) : Chip :=
  let r := c.begin x true
  if !r.1 then r.2
  else
    let c := r.2
    let n := x.cmd.nlb
    let ps := c.places x.cmd.nsid base n
    let zs := c.zonesTouched x.cmd.nsid base n
    let zone := (c.loc.place x.cmd.nsid base).1
    let z := c.zone zone
    match (if z.kind = 1 ∧ z.state ≠ 1 ∧ z.state ≠ 2 then c.openLimits zone else none) with
    | some st => c.fail x st
    | none =>
      match c.newBands zs with
      | none => c.fail x (0, 0x81, false)
      | some bs =>
        if !bs.isEmpty && c.mustWaitFor .locus bs.length then c
        else (bs.foldl (fun c e => c.allocBand e.1 e.2) c).accept x zone (base % 65536) ps

/-- An I/O command of an opcode that may be taken, and whose zones no command under way will change. -/
def Chip.zoneIo (c : Chip) (i qid cid opcode : Nat) : Option InCmd :=
  match c.io i qid cid opcode with
  | some x => if c.zonePending x.cmd then none else some x
  | none => none

/-- Write (R126, R127). -/
def writeCommand (c : Chip) (i qid cid : Nat) : Chip :=
  match c.zoneIo i qid cid 0x01 with
  | none => c
  | some x =>
    match c.writeRules x.cmd.nsid x.cmd.slba x.cmd.nlb with
    | some st => c.fail x st
    | none => if x.cmd.sglBad then c.fail x stSglLength else c.writeOn x x.cmd.slba

/-- WRITE (R126). -/
def execWrite (cntl : Fin 2) (qid cid : Nat) (s : State) : Host.Outcome State Fault Refusal :=
  s.done (writeCommand s.chip cntl.val qid cid)

/-- Zone Append (R127): it takes its LBA at acceptance. -/
def zoneAppend (c : Chip) (i qid cid : Nat) : Chip :=
  match c.zoneIo i qid cid 0x7D with
  | none => c
  | some x =>
    let zone := (c.loc.place x.cmd.nsid x.cmd.slba).1
    match c.appendRules zone x.cmd.nlb with
    | some st => c.fail x st
    | none =>
      if x.cmd.sglBad then c.fail x stSglLength
      else c.writeOn x (x.cmd.slba + (c.zone zone).hostWp.getD (c.zone zone).mwp)

/-- ZONE_APPEND (R127). -/
def execZoneAppend (cntl : Fin 2) (qid cid : Nat) (s : State) : Host.Outcome State Fault Refusal :=
  s.done (zoneAppend s.chip cntl.val qid cid)

/-- The first held write in fetch order starts its transfer once it fits (R21). -/
def writeTransferStart (c : Chip) : Chip :=
  if !c.alive || c.inHoldup then c
  else match c.nvq.heldWrites with
    | [] => c
    | x :: _ =>
      if c.fits x then
        c.mapCmd x.seq (fun y => { y with phase := .transferring })
      else c

/-- WRITE_TRANSFER_START (R21). -/
def execWriteTransferStart (s : State) : Host.Outcome State Fault Refusal :=
  s.done (writeTransferStart s.chip)

/-! ### Staging -/

/-- Put a 64 KiB unit's data into staging for a command. -/
def Chip.stage (c : Chip) (x : InCmd) (no : Nat) (data : SMap Block) : Chip :=
  let u : Staged := { nsid := x.cmd.nsid, zone := no / 4096, unit := no % 4096 * 16, data := data,
                      order := x.order, seq := x.seq, queue := x.queue, stamp := c.nvq.staged }
  let hit (r : Nat × Nat) : Bool :=
    r.1 == u.zone && data.any (fun e => e.1 + u.unit == r.2)
  ({ c with
      nvq := { c.nvq with staging := c.nvq.staging ++ [u], staged := c.nvq.staged + 1 }
      loc := { c.loc with relocs := c.loc.relocs.filter (fun r => !hit r) } }).checkDirty

/-- A poisoned TLP among a write's data (R144): counted, the command's staged units are discarded, the
write pointer does not advance, and the command fails. -/
def Chip.poisonedWrite (c : Chip) (x : InCmd) : Chip :=
  let c := (c.bump R.HIF_POISON_RX).raise 0x10 2
  let c := { c with nvq := { c.nvq with
    staging := c.nvq.staging.filter (fun u => !(u.seq == x.seq)) } }
  let z := c.zone x.zone
  let c := if z.kind = 1 ∧ z.gen = x.gen then
      c.setZone x.zone { z with hostWp := some (min x.first (z.hostWp.getD x.first))
                                state := if z.state = 4 then 1 else z.state }
    else c
  c.fail x (0, 0x04, false)

/-- One unit more is power-safe; the write completes with its last (R126). A Zone Append returns its
LBA (R127). -/
def Chip.unitSafe (c : Chip) (x : InCmd) (unit : Nat) : Chip :=
  let left := x.units.filter (· != unit)
  let c := c.mapCmd x.seq (fun y => { y with units := left, safe := insertNat y.safe unit })
  if left.isEmpty then
    c.finish (if x.cmd.opcode = 0x7D then
      { x.ok with dw0 := x.base % 2 ^ 32, dw1 := x.base / 2 ^ 32 } else x.ok)
  else c

/-- A unit's data enters staging; that of a zone that has been reset since the command's acceptance, or is
Offline, is dropped (R214). -/
def Chip.takeUnit (c : Chip) (x : InCmd) (unit : Nat) (ds : SMap Block) : Chip :=
  let z := c.zone (unit / 4096)
  (if z.kind = 1 ∧ (z.gen ≠ x.gen ∨ z.state = 6) then c else c.stage x unit ds).unitSafe x unit

/-- The last byte of a command's data for a unit is in staging (R126): `data` gives its LBAs by their
offset in the unit. No unit becomes visible before an earlier write of the queue is (R123). -/
def writeUnitPowerSafe (c : Chip) (i qid cid unit : Nat) (data : List (Nat × Block)) (poisonedTlp : Bool) :
    Chip :=
  if !c.alive || c.inHoldup then c
  else match c.nvq.find i qid cid with
    | none => c
    | some x =>
      let wr := x.cmd.opcode = 0x01 ∨ x.cmd.opcode = 0x7D
      if x.phase ≠ .transferring ∨ x.result.isSome ∨ ¬ wr ∨ x.cmd.nsid = 4 ∨ !x.units.contains unit
          ∨ c.nvq.earlierWrite x then c
      else if poisonedTlp then c.poisonedWrite x
      else
        let ps := (c.places x.cmd.nsid x.base x.cmd.nlb).filter (fun p => unitNo p.2.1 p.2.2 == unit)
        match allSome (ps.map (fun p => (data.find? (fun d => d.1 == p.2.2 % 16)))) with
        | none => c
        | some ds => c.takeUnit x unit ds

/-- WRITE_UNIT_POWER_SAFE (R126). -/
def execWriteUnitPowerSafe (cntl : Fin 2) (qid cid unit : Nat) (data : List (Nat × Block))
    (poisonedTlp : Bool) (s : State) : Host.Outcome State Fault Refusal :=
  s.done (writeUnitPowerSafe s.chip cntl.val qid cid unit data poisonedTlp)

/-! ### Flush -/

/-- Staged or expected data a Flush drains lies on a retired actuator (R131). -/
def Chip.flushStuck (c : Chip) (f : InCmd) : Bool :=
  c.nvq.staging.any (fun u => u.before f && c.retired (zoneAct u.zone))
    || c.nvq.inflight.any (fun x => decide (x.seq < f.seq) && x.isWrite && x.result.isNone
      && drains f.cmd.nsid x.cmd.nsid && x.phase != .fetched && x.cmd.nsid != 4
      && x.units.any (fun u => c.retired (zoneAct (u / 4096))))

/-- A Flush that cannot drain completes with Internal Error and an event (R131). -/
def Chip.failFlush (c : Chip) (f : InCmd) : Chip :=
  (c.event 0x2802 [f.cntl + 1, f.qid, f.cid]).fail f (0, 0x06, true)

/-- Flush (R130): issued to no actuator; it completes once what it drains is on the media and
reachable. -/
def flush (c : Chip) (i qid cid : Nat) : Chip :=
  match c.io i qid cid 0x00 with
  | none => c
  | some x =>
    if c.flushStuck x then c.failFlush x
    else match c.gate x.cmd.nsid false with
      | some st => c.fail x st
      | none => c.mapCmd x.seq (fun y => { y with phase := .working })

/-- FLUSH (R130). -/
def execFlush (cntl : Fin 2) (qid cid : Nat) (s : State) : Host.Outcome State Fault Refusal :=
  s.done (flush s.chip cntl.val qid cid)

end Sys2Proof.Machine
end

