-- ==== Sys2Proof/Machine/Bcl.lean ====
section
/-! DEFINITION. Band cleaning (R224 to R237), release and overwrite (R221 to R223), stale sectors and
secure discards (R242 to R244). -/

namespace Sys2Proof.Machine

open Sys2Proof

/-! ### Secure discards (R244) -/

/-- The work of a secure discard is done (R244, R250). -/
def SecureDiscard.complete (d : SecureDiscard) : Bool :=
  d.jobs.isEmpty && d.bands.isEmpty && !d.purgeA && !d.purgeB && d.conv.isEmpty && d.final == 0

/-- Every physical copy of the oldest finished discard's data is gone: its command completes. -/
def secureDiscardDone (c : Chip) : Chip :=
  if !c.alive || c.bclStops then c
  else match c.bcl.discards.find? SecureDiscard.complete with
    | none => c
    | some d =>
      let c := { c with bcl := { c.bcl with discards := c.bcl.discards.erase d } }
      match d.post with
      | some r => c.finish r
      | none => c

/-- SECURE_DISCARD_DONE (R244). -/
def execSecureDiscardDone (s : State) : Host.Outcome State Fault Refusal :=
  s.done (secureDiscardDone s.chip)

/-- The stale sectors of an actuator in ring order, from the sector the ring writes next. -/
def Chip.staleRing (c : Chip) (a : Act) : List Nat :=
  let next := match a with
    | .A => c.loc.mcNextA
    | .B => c.loc.mcNextB
  let ks := c.loc.stale.filter (fun k => k / 2 ^ 27 == a.toNat)
  ks.filter (fun k => decide (next ≤ k % 2 ^ 27)) ++ ks.filter (fun k => decide (k % 2 ^ 27 < next))

/-- A secure discard waits on a purge of the actuator, or on the overwrite of conventional sectors there, that may
run: none of its jobs is still to commit. -/
def SecureDiscard.wantsPurge (d : SecureDiscard) (a : Act) : Bool :=
  d.jobs.isEmpty && ((match a with
    | .A => d.purgeA
    | .B => d.purgeB) || d.conv.any (fun e => zoneAct e.1 == a))

/-- The purge, and the overwrite of conventional sectors in place, is done on an actuator. -/
def SecureDiscard.purged (d : SecureDiscard) (a : Act) : SecureDiscard :=
  let d := { d with conv := d.conv.filter (fun e => zoneAct e.1 != a) }
  match a with
  | .A => { d with purgeA := false }
  | .B => { d with purgeB := false }

/-- Stale sectors are purged (R243, R244): every one where a secure discard waits for it, with the conventional
sectors it discarded, else, once the count has reached PURGE_AT, in ring order until half of it is left. -/
def stalePurge (c : Chip) (a : Act) : Chip :=
  if !c.alive || c.bclStops || c.retired a then c
  else if c.bcl.discards.any (fun d => d.wantsPurge a) then
    let c := { c with loc := { c.loc with
      stale := c.loc.stale.filter (fun k => k / 2 ^ 27 != a.toNat) } }
    { c with bcl := { c.bcl with discards := c.bcl.discards.map (fun (d : SecureDiscard) =>
        if d.wantsPurge a then d.purged a else d) } }
  else
    let purgeAt := c.fld R.BCL_PACE 27 16
    if purgeAt = 0 ∨ c.staleCount a < purgeAt then c
    else
      let gone := (c.staleRing a).take (c.staleCount a - purgeAt / 2)
      { c with loc := { c.loc with stale := c.loc.stale.filter (fun k => !gone.contains k) } }

/-- STALE_PURGE (R243). -/
def execStalePurge (act : Act) (s : State) : Host.Outcome State Fault Refusal :=
  s.done (stalePurge s.chip act)

/-! ### Abandonment -/

/-- WFAULTS of a band is 3. -/
def Chip.worn (c : Chip) (k : Nat) : Bool :=
  match c.band k with
  | some b => b.wfaults == 3
  | none => false

/-- A destination failure (R235): a fault of the destination acts only once WFAULTS is 3; its band is SUSPECT then, and
where a sector fails verification. -/
def bclJobAbandon (c : Chip) (a : Act) (failure : DestFailure) : Chip :=
  if !c.alive || c.bclStops then c
  else match c.bcl.job a with
    | none => c
    | some j =>
      if failure = .worn ∧ !c.worn j.dst then c else c.abandonJob a (failure == .verify || c.worn j.dst)

/-- BCL_JOB_ABANDON (R235). -/
def execBclJobAbandon (act : Act) (failure : DestFailure) (s : State) : Host.Outcome State Fault Refusal :=
  s.done (bclJobAbandon s.chip act failure)

/-! ### Selection -/

/-- KIND 1 hot map entries of a zone, in a 16-bit saturating count (R226). -/
def Chip.redirected (c : Chip) (zone : Nat) : Nat :=
  min ((c.hotOfZone zone).filter (fun e => e.2.kind == 1)).length 0xFFFF

/-- The zone with the greatest key, the lower index among equals; none of key 0. -/
def bestZone (key : Nat → Nat) : List Nat → Option Nat
  | [] => none
  | i :: is =>
    match bestZone key is with
    | none => if key i = 0 then none else some i
    | some j => if key i < key j then some j else some i

/-- The zone BCL takes under hot map pressure. -/
def Chip.hotVictim (c : Chip) (a : Act) : Option Nat :=
  bestZone c.redirected ((c.loc.zones.map Prod.fst).filter
    (fun i => zoneAct i == a && c.mayClean i && !c.inJob i))

/-- The zone BCL takes under free-band pressure: the full KIND 2 zone with the lowest LIVE. -/
def Chip.freeVictim (c : Chip) (a : Act) : Option Nat :=
  let pct := c.fld R.BCL_AUTO 22 16
  if pct = 0 then none
  else bestZone (fun i => 65537 - (c.zone i).live) ((c.loc.zones.map Prod.fst).filter (fun i =>
    let z := c.zone i
    zoneAct i == a && c.mayClean i && !c.inJob i && z.kind == 2 && !z.cleaning && z.mwp == 65536
      && decide (z.live * 100 ≤ pct * 65536)))

/-- BCL works on an actuator: one that keeps serving hosts, also while the other calibrates (R32). -/
def Chip.cleans (c : Chip) (a : Act) : Bool :=
  c.alive && !c.bclStops && !c.retired a
    && (c.sys.mode == .service || (c.sys.mode == .calibrate && !c.calibrating a))

/-- Automatic selection (R226): while a trigger holds and no automatic job of the actuator is queued or
running; hot map pressure comes before free-band pressure (R225). -/
def bclAutoSelect (c : Chip) (a : Act) : Chip :=
  let isAuto (j : Job) : Bool := j.reason == 0 || j.reason == 3
  let busy := (match c.bcl.job a with
    | some j => isAuto j
    | none => false) || (c.bcl.queue a).any isAuto
  if !c.cleans a || busy then c
  else
    let hot := c.bit (pIntStatus 0x18) 0 || c.bit (pIntStatus 0x18) 1
    let start := c.fld R.BCL_AUTO 15 0
    let low := start ≠ 0 ∧ c.freeCount a ≤ start
    match (if hot then c.hotVictim a else none) with
    | some i => c.queueJob { zone := i, reason := 3 }
    | none =>
      match (if low then c.freeVictim a else none) with
      | some i => c.queueJob { zone := i, reason := 0 }
      | none => c

/-- BCL_AUTO_SELECT (R226). -/
def execBclAutoSelect (act : Act) (s : State) : Host.Outcome State Fault Refusal :=
  s.done (bclAutoSelect s.chip act)

/-- The RESULT of a submission (R246). -/
def Chip.jobResult (c : Chip) (zone ann : Nat) : Nat :=
  if c.sys.mode ≠ .service then 6
  else if 8 < ann then 5
  else if !c.mayClean zone then 3
  else if c.inJob zone then 4
  else if 64 ≤ (c.bcl.queue (zoneAct zone)).length then 2
  else 1

/-- BCL_JOB_CTRL.GO: a REASON 1 job for BCL_JOB_ZONE, or the reason why not. -/
def bclJobGo (c : Chip) : Chip :=
  if !c.alive then c
  else
    let zone := c.fld R.BCL_JOB_ZONE 18 0
    let ann := c.fld R.BCL_JOB_CTRL 7 4
    let r := c.jobResult zone ann
    let c := c.setFld R.BCL_JOB_CTRL 11 9 r
    if r = 1 then c.queueJob { zone := zone, reason := 1, ann := ann } else c

/-- BCL_JOB_GO (R246). -/
def execBclJobGo (s : State) : Host.Outcome State Fault Refusal := s.done (bclJobGo s.chip)

/-! ### The steps of a job (R228) -/

/-- The next job's number (R238). -/
def Bcl.nextJob (b : Bcl) : Act → Nat
  | .A => b.nextJobA
  | .B => b.nextJobB

/-- Take a job number. -/
def Chip.bumpJob (c : Chip) (a : Act) : Chip :=
  match a with
  | .A => { c with bcl := { c.bcl with nextJobA := (c.bcl.nextJobA + 1) % 65536 } }
  | .B => { c with bcl := { c.bcl with nextJobB := (c.bcl.nextJobB + 1) % 65536 } }

/-- The Annulus a job's destination is asked in (R228). -/
def Chip.jobAnn (c : Chip) (j : Job) : Nat := if j.ann = 0 then (c.zone j.zone).ann else j.ann - 1

/-- The destination of a migration (R175): the least worn FREE band in the Annulus the job names or, where that is
SEG_POP.TARGET or outward of it, further out, else further in. -/
def Chip.pickMigration (c : Chip) (a : Act) (ann : Nat) : Option Nat :=
  let out : Bool := decide (ann ≤ c.fld R.SEG_POP 27 24)
  (c.leastWorn ((c.freeBands a).filter (fun e => if out then decide (e.2.ann ≤ ann) else decide (ann ≤ e.2.ann)))).map
    Prod.fst

/-- Step 1 of a job: the destination and BEGIN. Without a FREE band a REASON 2 job leaves its zone Read
Only at the general reserve and any other waits (R237). -/
def Chip.beginJob (c : Chip) (a : Act) (j : Job) : Chip :=
  let free := c.freeCount a
  if j.reason = 2 ∧ free ≤ c.fld R.LOC_RESERVE 7 0 then (c.setJob a none).makeReadOnly j.zone
  else if c.lostNow a then c.setJob a (some { j with state := .wait })
  else match (if j.reason = 6 then c.pickMigration a (c.jobAnn j) else c.pickBand a (some (c.jobAnn j)) false true) with
    | none => c.setJob a (some { j with state := .wait })
    | some d =>
      let src := (c.bandOfZone j.zone).getD 0
      let ann := match c.band d with
        | some b => b.ann
        | none => 0
      let sec := c.secureRelease j.zone
      let n := c.bcl.nextJob a
      let c := (c.setJob a (some j)).bumpJob a
      let r := c.takeRandom 128
      r.2.commit .bcl [.bclBegin j.zone (c.zone j.zone).gen (jobFlags j.reason sec false false false)
        n src d ann r.1] []

/-- The seed of a sector as (zone, unit, generation) (R319, R322). -/
def Chip.seedOf (c : Chip) (w : DescWords) (i : Nat) : Nat × Nat × Nat :=
  if w.op = 1 then (0x7FFFF, w.unit + i, w.gen)
  else if w.seedList then
    let s := leNat (c.mem.read (w.stat + 16 + 8 * i) 8)
    (s % 2 ^ 19, s / 2 ^ 19 % 65536, s / 2 ^ 35 % 256)
  else (w.zone, w.unit + i, w.gen)

/-- A write descriptor writes a sector of a zone in its band or space. -/
def Chip.writesZone (c : Chip) (w : DescWords) (zone : Nat) : Bool :=
  w.op == 0 && w.typ != 1 && w.offsets.any (fun i => (c.seedOf w i).1 == zone)

/-- A write of a zone to the media is queued or runs. -/
def Chip.writing (c : Chip) (zone : Nat) : Bool :=
  let x := c.chan (zoneAct zone)
  x.queue.any (fun d => d.write && c.writesZone d.words zone) || (match x.run with
    | some (.wr r) => c.writesZone r.words zone
    | _ => false)

/-- The media writes already issued to a zone's band have finished and are committed (R229). -/
def Chip.sourceSettled (c : Chip) (zone : Nat) : Bool :=
  !c.writing zone && !c.nvq.staging.any (fun u => u.zone == zone && !u.media.isEmpty) &&
    decide ((c.zone zone).written ≤ (c.zone zone).mwp)

/-- The next job of an actuator begins (R224, R229): the one that restarts, or the first queued. A job
whose zone can no longer be cleaned is dropped. -/
def bclJobBegin (c : Chip) (a : Act) : Chip :=
  if !c.cleans a || c.mustWait .bcl then c
  else match c.bcl.job a with
    | some j =>
      if j.state ≠ .alloc ∧ j.state ≠ .wait then c
      else if !c.mayClean j.zone then c.setJob a none
      else if !c.sourceSettled j.zone then c
      else c.beginJob a { j with state := .alloc }
    | none =>
      match c.bcl.queue a with
      | [] => c
      | j :: js =>
        if !c.mayClean j.zone then c.setQueue a js
        else if !c.sourceSettled j.zone then c
        else (c.setQueue a js).beginJob a { j with maxRestart := c.fld R.BCL_PACE 9 8 }

/-- BCL_JOB_BEGIN (R229). -/
def execBclJobBegin (act : Act) (s : State) : Host.Outcome State Fault Refusal :=
  s.done (bclJobBegin s.chip act)

/-- One unit was not recovered and is written as a lost-unit marker (R232). -/
def Chip.lostUnit (c : Chip) (zone unit : Nat) : Chip :=
  ((c.event 0x3401 [zone, unit]).bump R.BCL_LOST_UNITS).raise 0x19 2

/-- Units of a job's snapshot that are not on the destination: those read from a source and neither copied nor
lost (R229). -/
def Chip.uncopied (c : Chip) (j : Job) (lost : List Nat) : List Nat :=
  (List.range j.snapMwp).filter (fun u => !j.copied.contains u && !lost.contains u
    && !(c.hotOf j.zone u).any (fun h => h.kind == 2))

/-- The data of a slot carries poison. -/
def Chip.slotPoisoned (c : Chip) (k : Nat) : Bool :=
  c.mem.synd.any (fun e => e.1 / 512 == k && e.2 == poisonSynd)

/-- Copied units of a job whose source slot carries poison. -/
def Chip.poisonedCopies (c : Chip) (j : Job) : List Nat :=
  (c.slots.filter (fun e => e.2.conf && e.2.readers.contains .copy && e.2.zone == j.zone
    && j.copied.contains e.2.unit && c.slotPoisoned e.1)).map (fun e => e.2.unit)

/-- Step 2 ends (R228 to R230, R233) once every unit of the snapshot is copied from a confirmed slot or was not
recovered: `lost` names those, `tmin` and `tmax` the range of composite temperatures. A unit whose slot carries
poison is read once more; with poison again it is lost. While the actuator is lost the job waits (R237). -/
def bclCopyDone (c : Chip) (a : Act) (lost : List Nat) (tmin tmax : Nat) : Chip :=
  if !c.alive || c.bclStops || c.lostNow a then c
  else match c.bcl.job a with
    | none => c
    | some j =>
      let bad := c.poisonedCopies j
      let again := bad.filter (fun u => !j.reread.contains u)
      let lost := (lost ++ bad).filter (fun u => decide (u < j.snapMwp))
      if j.state ≠ .copy ∨ j.abandon.isSome then c
      else if !again.isEmpty then
        c.setJob a (some { j with copied := j.copied.filter (fun u => !again.contains u), reread := j.reread ++ again })
      else if !(c.uncopied j lost).isEmpty then c
      else
        let c := lost.foldl (fun c u => c.lostUnit j.zone u) c
        c.setJob a (some { j with
          state := .verify, lost := lost.length, copied := [], tmin := tmin % 256, tmax := tmax % 256 })

/-- BCL_COPY_DONE (R228). -/
def execBclCopyDone (act : Act) (lostUnits : List Nat) (tmin tmax : Nat) (s : State) :
    Host.Outcome State Fault Refusal := s.done (bclCopyDone s.chip act lostUnits tmin tmax)

/-- The KIND 1 entries a commit removes (R231): those of the snapshot that still hold the sector read. -/
def Chip.mergedHot (c : Chip) (j : Job) : List Nat :=
  (j.snapHot.filter (fun e => match c.hotOf j.zone e.1 with
    | some h => h.kind == 1 && h.csec == e.2
    | none => false)).map Prod.fst

/-- LIVE after the commit (R233): the copied units no standing entry deallocates or redirects; in
namespace 4 the units values still refer to. -/
def Chip.liveAfter (c : Chip) (j : Job) : Nat :=
  if (c.zone j.zone).nsid = 4 then
    ((c.seg.values.flatMap Value.extents).filter (fun e => e.zone == j.zone)).foldl (fun n e => n + e.count) 0
  else
    let merged := c.mergedHot j
    j.snapMwp - ((c.hotOfZone j.zone).filter (fun e => decide (e.1 < j.snapMwp) && !merged.contains e.1)).length

/-- A migration's records (R176): one per extent of the value in the zone, which keeps its zone and units
in the new band. -/
def Chip.migrated (c : Chip) (j : Job) : Chip :=
  if j.reason ≠ 6 then c
  else match c.seg.find j.key with
    | none => c
    | some v =>
      let g := (c.zone j.zone).gen
      let recs := (v.extents.zipIdx).filterMap (fun e =>
        if e.1.zone = j.zone then
          some (Rec.segMigrate j.key e.2 j.zone e.1.first j.zone e.1.first g e.1.count)
        else none)
      if recs.isEmpty then c else (c.commit .seg recs []).bump R.SEG_MIGRATED

/-- Steps 3 and 4 (R228, R231, R233): every sector written was confirmed again and its CRC matches, and the zone
names the destination from the commit on, which may have to wait (R237); or a sector failed, the destination is
SUSPECT and the job abandoned (R235). -/
def bclVerifyDone (c : Chip) (a : Act) (good : Bool) : Chip :=
  if !c.alive || c.bclStops || c.lostNow a then c
  else match c.bcl.job a with
    | none => c
    | some j =>
      if (j.state ≠ .verify ∧ j.state ≠ .commit) ∨ j.abandon.isSome then c
      else if j.state = .verify ∧ !good then c.abandonJob a true
      else if !(List.range j.snapMwp).all j.copied.contains then c
      else if c.mustWaitFor .bcl 1 then c.setJob a (some { j with state := .commit })
      else
        let z := c.zone j.zone
        let sec := c.secureRelease j.zone
        let n := (c.mergedHot j).length
        let c := c.commit .bcl [.bclCommit j.zone z.gen (jobFlags j.reason sec false false false) j.number
          j.src j.dst j.dstAnn j.snapMwp (c.liveAfter j) n j.lost j.wtime j.tmin j.tmax] []
        let c := c.setJob a (some { j with state := .release, secure := sec })
        (c.bump R.BCL_JOBS_DONE).migrated j

/-- BCL_VERIFY_DONE (R228). -/
def execBclVerifyDone (act : Act) (good : Bool) (s : State) : Host.Outcome State Fault Refusal :=
  s.done (bclVerifyDone s.chip act good)

/-! ### Release (R23, R221 to R223) -/

/-- A read of the media, queued, running or on the ladder, lies in the band. -/
def Chip.mediaReads (c : Chip) (k : Nat) : Bool :=
  let a := bandAct k
  let x := c.chan a
  let at_ (w : DescWords) : Bool := w.op != 3 && c.bandAt a w.head w.track == some k
  x.queue.any (fun d => !d.write && at_ d.words) || x.ladders.any (fun l => c.bandAt a l.head l.track == some k)
    || (match x.run with
      | some (.rd r) => at_ r.words
      | _ => false)

/-- A read resolved to the band before it was unmapped has not finished (R23). -/
def Chip.bandRead (c : Chip) (k : Nat) : Bool :=
  c.nvq.inflight.any (fun x => x.result.isNone && x.bands.contains k) || c.mediaReads k

/-- A release is secure now (R222): by the zone's SECURE bit or by its namespace's mode. -/
def Chip.secureNow (c : Chip) (r : Release) : Bool := r.secure || c.nvq.secure.contains r.nsid

/-- The overwrite of R222 is due: a secure release with METHOD 1, of a band that is not SUSPECT. -/
def Chip.overwriteDue (c : Chip) (r : Release) : Bool :=
  c.secureNow r && c.bit R.BCL_SECURE 0 && (match c.band r.band with
    | some b => b.state != .suspect
    | none => false)

/-- The job that waits for a band's release goes on or ends. -/
def Chip.afterRelease (c : Chip) (k : Nat) (overwrite : Bool) : Chip :=
  match c.bcl.job (bandAct k) with
  | none => c
  | some j =>
    if j.src ≠ k ∨ (j.state ≠ .release ∧ j.state ≠ .overwrite) then c
    else c.setJob (bandAct k) (if overwrite then some { j with state := .overwrite } else none)

/-- A released band loses its key and becomes FREE, or waits for its overwrite (R221 to R223). -/
def bandRelease (c : Chip) (k : Nat) : Chip :=
  if !c.alive || c.bclStops || c.mustWait .bcl then c
  else match c.bcl.releases.find? (fun r => r.band == k && !r.overwriting) with
    | none => c
    | some r =>
      if c.bandRead k then c
      else
        let o := c.overwriteDue r
        let c := c.commit .bcl [.bclRelease (jobFlags r.reason (c.secureNow r) false false o) r.number k] []
        let c := (c.afterRelease k o).keyGone k
        if o then c else c.bandGone k

/-- BAND_RELEASE (R23). -/
def execBandRelease (act : Act) (band : Nat) (s : State) : Host.Outcome State Fault Refusal :=
  s.done (bandRelease s.chip (bandKey act band))

/-- The overwrite of a released band ends: FREE is written (R222). -/
def bclOverwriteDone (c : Chip) (k : Nat) : Chip :=
  if !c.alive || c.bclStops || c.mustWait .bcl then c
  else match c.bcl.releases.find? (fun r => r.band == k && r.overwriting) with
    | none => c
    | some r =>
      let c := c.commit .bcl [.bclFree (jobFlags r.reason (c.secureNow r) false false false) r.number k] []
      (c.afterRelease k false).bandGone k

/-- BCL_OVERWRITE_DONE (R222). -/
def execBclOverwriteDone (act : Act) (band : Nat) (s : State) : Host.Outcome State Fault Refusal :=
  s.done (bclOverwriteDone s.chip (bandKey act band))

end Sys2Proof.Machine
end

