-- ==== Sys2Proof/Machine/HostZone.lean ====
section
/-! DEFINITION. The write-pointer record (R207), zone management (R128, R185, R208, R234, R242, R625),
Write Zeroes and deallocation (R186, R200, R242, R244), Format NVM and Sanitize (R118, R244, R249). -/

namespace Sys2Proof.Machine

open Sys2Proof

/-! ### The record of a zone's advance (R207) -/

/-- The advance of a zone that is not committed, in units. -/
def Chip.advance (c : Chip) (zone : Nat) : Nat :=
  let z := c.zone zone
  if z.kind = 3 then (c.onMedia zone).length else z.written - z.mwp

/-- A drain of staging wants the zone's record: a Flush, a Zone Finish or a shutdown. -/
def Chip.drainWants (c : Chip) (zone : Nat) : Bool :=
  c.nvq.inflight.any (fun f => f.qid != 0 && f.cmd.opcode == 0 && f.phase == .working && f.result.isNone
      && c.nvq.staging.any (fun u => u.zone == zone && u.before f)) ||
    c.nvq.inflight.any (fun y => y.finishing && y.units.contains zone) ||
    c.nvq.c1.shst == 1 || c.nvq.c2.shst == 1

/-- An event of R207 but the timer holds for a zone: the advance reaches LOC_WP_BATCH, a drain wants it, the zone is
Closed or Full, or the dirty count is at its limit. -/
def Chip.mwpDue (c : Chip) (zone : Nat) : Bool :=
  decide (16 * c.fld R.LOC_WP_BATCH 10 0 ≤ c.advance zone) || c.drainWants zone
    || [3, 4].contains (c.zone zone).state
    || decide (unitsOfMib (c.fld R.NVQ_DIRTY_LIMIT 8 0) ≤ c.dirtyUnits)

/-- A trigger of R207 for a zone. The port writes the record again after a failed read-back, twice at
most; a third failure ends the port (R456). -/
def mwpCommit (c : Chip) (zone failed : Nat) : Chip :=
  if !c.alive || c.inHoldup || c.sys.mode == Mode.boot || !c.mwpDue zone then c
  else if failed = 3 ∧ c.advanced zone ∧ !c.mustWait .locus then c.portFailed c.jnl.head
  else (c.commitMwp zone).commitSegs

/-- MWP_COMMIT (R207). -/
def execMwpCommit (zone : Nat) (failed : Fin 4) (s : State) : Host.Outcome State Fault Refusal :=
  s.done (mwpCommit s.chip zone failed.val)

/-- Counts of DTIME in 100 ms. -/
def mwpTimeout : Nat := 40000000

/-- 100 ms without a new media write to the zone (R207). -/
def mwpCommitTimer (c : Chip) (zone : Nat) : Chip :=
  if !c.alive || c.inHoldup || c.sys.mode == Mode.boot
      || decide (c.dtm.dtime.toNat < (c.zone zone).lastMedia.toNat + mwpTimeout) then c
  else (c.commitMwp zone).commitSegs

/-- MWP_COMMIT_TIMER (R207). -/
def execMwpCommitTimer (zone : Nat) (s : State) : Host.Outcome State Fault Refusal :=
  s.done (mwpCommitTimer s.chip zone)

/-! ### Zone Management Send -/

def stTransition : Status := (1, 0xBF, true)

/-- A Zone Management Send of an action that may be taken. -/
def Chip.zoneSend (c : Chip) (i qid cid action : Nat) : Option InCmd :=
  match c.zoneIo i qid cid 0x79 with
  | some x => if x.cmd.cdw13 % 256 = action then some x else none
  | none => none

/-- The zone a Zone Management Send names. -/
def Chip.zoneNamed (c : Chip) (x : InCmd) : Nat := (c.loc.place x.cmd.nsid x.cmd.slba).1

/-- The zones an action works on: those of its namespace in the states Select All takes, or the one
named; a status where the named zone's state does not allow the action, and no zone where the action has
nothing left to do there. -/
def Chip.zoneTargets (c : Chip) (x : InCmd) (all takes noop : List Nat) : Except Status (List Nat) :=
  if x.cmd.selectAll then .ok ((c.zonesIn x.cmd.nsid all).map Prod.fst)
  else
    let i := c.zoneNamed x
    let z := c.zone i
    if z.kind ≠ 1 then .error stTransition
    else if takes.contains z.state then .ok [i]
    else if noop.contains z.state then .ok []
    else .error stTransition

/-- Zone Open (R128). -/
def zoneOpen (c : Chip) (i qid cid : Nat) : Chip :=
  match c.zoneSend i qid cid 3 with
  | none => c
  | some x =>
    match c.zoneTargets x [3] [0, 1, 3] [2] with
    | .error st => c.fail x st
    | .ok zs =>
      let n := x.cmd.nsid
      let room := (c.zonesIn n [1, 2]).length + zs.length ≤ 128 + (c.zonesIn n [1]).length
      let limit : Option Status :=
        if x.cmd.selectAll then (if room then none else some (1, 0xBE, false))
        else match zs with
          | [j] => if (c.zone j).state = 1 then none else c.openLimits j
          | _ => none
      let r := c.begin x true
      if !r.1 then r.2
      else match limit with
        | some st => r.2.fail x st
        | none => (zs.foldl (fun c j =>
            if (c.zone j).state = 1 then c.setZone j { c.zone j with state := 2 } else c.openZone j 2)
            r.2).finish x.ok

/-- ZONE_OPEN (R128). -/
def execZoneOpen (cntl : Fin 2) (qid cid : Nat) (s : State) : Host.Outcome State Fault Refusal :=
  s.done (zoneOpen s.chip cntl.val qid cid)

/-- Zone Close: the state changes without a record; the advance so far is committed (R207, R208). -/
def zoneClose (c : Chip) (i qid cid : Nat) : Chip :=
  match c.zoneSend i qid cid 1 with
  | none => c
  | some x =>
    match c.zoneTargets x [1, 2] [1, 2] [3] with
    | .error st => c.fail x st
    | .ok zs =>
      let r := c.begin x true
      if !r.1 then r.2
      else (zs.foldl (fun c j => (c.setZone j { c.zone j with state := 3 }).commitMwp j) r.2).finish x.ok

/-- ZONE_CLOSE (R208). -/
def execZoneClose (cntl : Fin 2) (qid cid : Nat) (s : State) : Host.Outcome State Fault Refusal :=
  s.done (zoneClose s.chip cntl.val qid cid)

/-- Zone Finish (R625): the zones become Full with their records, and with the last the command completes, once their
staged units are on the media and no cleaning copies them; writes to them wait meanwhile. -/
def zoneFinish (c : Chip) (i qid cid : Nat) : Chip :=
  match c.zoneSend i qid cid 2 with
  | none => c
  | some x =>
    match c.zoneTargets x [1, 2, 3] [0, 1, 2, 3] [4] with
    | .error st => c.fail x st
    | .ok zs =>
      let r := c.begin x true
      if !r.1 then r.2
      else if zs.isEmpty then r.2.finish x.ok
      else r.2.mapCmd x.seq (fun y => { y with phase := .working, units := zs })

/-- ZONE_FINISH (R625). -/
def execZoneFinish (cntl : Fin 2) (qid cid : Nat) (s : State) : Host.Outcome State Fault Refusal :=
  s.done (zoneFinish s.chip cntl.val qid cid)

/-- Zone Reset (R242). A zone whose record must wait stays as it is (R19). -/
def zoneReset (c : Chip) (i qid cid : Nat) : Chip :=
  match c.zoneSend i qid cid 4 with
  | none => c
  | some x =>
    match c.zoneTargets x [1, 2, 3, 4] [1, 2, 3, 4] [0] with
    | .error st => c.fail x st
    | .ok zs =>
      let r := c.begin x true
      if !r.1 then r.2
      else if zs.isEmpty then r.2.finish x.ok
      else r.2.unmapStart x [] zs

/-- ZONE_RESET (R242). -/
def execZoneReset (cntl : Fin 2) (qid cid : Nat) (s : State) : Host.Outcome State Fault Refusal :=
  s.done (zoneReset s.chip cntl.val qid cid)

/-- Zone Offline (R194): a Read Only zone becomes Offline. -/
def zoneOffline (c : Chip) (i qid cid : Nat) : Chip :=
  match c.zoneSend i qid cid 5 with
  | none => c
  | some x =>
    match c.zoneTargets x [5] [5] [6] with
    | .error st => c.fail x st
    | .ok zs =>
      let r := c.begin x true
      if !r.1 then r.2
      else if zs.isEmpty then r.2.finish x.ok
      else r.2.mapCmd x.seq (fun y => { y with phase := .working, units := zs })

/-- ZONE_OFFLINE (R194). -/
def execZoneOffline (cntl : Fin 2) (qid cid : Nat) (s : State) : Host.Outcome State Fault Refusal :=
  s.done (zoneOffline s.chip cntl.val qid cid)

/-! ### Report Zones -/

/-- A zone's state as NVMe codes it in a report; a host-visible conventional zone is Full (R185). -/
def reportState (z : Zone) : Nat :=
  if z.kind = 3 then 14
  else match z.state with
    | 0 => 1
    | 1 => 2
    | 2 => 3
    | 3 => 4
    | 4 => 14
    | 5 => 13
    | _ => 15

/-- The states a Reporting Option selects. -/
def reportSelects (option : Nat) (z : Zone) : Bool :=
  option == 0 || reportState z ==
    (match option with
    | 1 => 1
    | 2 => 2
    | 3 => 3
    | 4 => 4
    | 5 => 14
    | 6 => 13
    | _ => 15)

/-- A 64-byte zone descriptor: type, state, ZCAP, ZSLBA and the host-view write pointer (R185, R205). -/
def Chip.reportEntry (c : Chip) (nsid k : Nat) : List Byte :=
  let z := c.zone (c.loc.place nsid (k * 65536)).1
  let active := [1, 2, 3].contains z.state
  let wp := if z.kind = 3 then 2 ^ 64 - 1 else k * 65536 + (if active then z.hostWp.getD z.mwp else z.mwp)
  layBytes 64 [(0, 1, if z.kind = 3 then 0xF else 2), (1, 1, reportState z * 16), (8, 8, 65536),
    (16, 8, k * 65536), (24, 8, wp)]

/-- Report Zones (R140): whole descriptors only; the count follows the Partial Report bit. -/
def reportZones (c : Chip) (i qid cid : Nat) : Chip :=
  match c.io i qid cid 0x7A with
  | none => c
  | some x =>
    let r := c.begin x false
    if !r.1 then r.2
    else
      let c := r.2
      let h := x.cmd
      let size := (h.cdw12 + 1) * 4
      let first := h.slba / 65536
      let ks := ((List.range (c.loc.nsze h.nsid / 65536 - first)).map (· + first)).filter
        (fun k => reportSelects (h.cdw13 / 256 % 256) (c.zone (c.loc.place h.nsid (k * 65536)).1))
      let sent := ks.take ((size - 64) / 64)
      let n := if h.cdw13 / 65536 % 2 = 1 then sent.length else ks.length
      let data := layBytes 64 [(0, 8, n)] ++ sent.flatMap (c.reportEntry h.nsid)
      (c.emit (.bytes i qid cid (data.take size))).finish x.ok

/-- REPORT_ZONES (R140). -/
def execReportZones (cntl : Fin 2) (qid cid : Nat) (s : State) : Host.Outcome State Fault Refusal :=
  s.done (reportZones s.chip cntl.val qid cid)

/-! ### Deallocation (R186, R200, R242) -/

/-- A range of LBAs by zone: (zone, first unit, count). -/
def Chip.splitRange (c : Chip) (nsid base n : Nat) : List (Nat × Nat × Nat) :=
  if n = 0 then []
  else (List.range ((base + n - 1) / 65536 + 1 - base / 65536)).map (fun j =>
    let lo := max base ((base / 65536 + j) * 65536)
    let hi := min (base + n) ((base / 65536 + j + 1) * 65536)
    ((c.loc.place nsid lo).1, lo % 65536, hi - lo))

/-- The ranges a deallocating command names, by zone; a range of length 0 is ignored (R140). -/
def Chip.deallocList (c : Chip) (h : HostCmd) : List (Nat × Nat × Nat) :=
  if h.opcode = 0x08 then c.splitRange h.nsid h.slba h.nlb
  else h.ranges.flatMap (fun r => c.splitRange h.nsid r.1 r.2)

/-- A unit of a zone lies in one of some ranges. -/
def inRanges (rs : List (Nat × Nat × Nat)) (zone u : Nat) : Bool :=
  rs.any (fun r => r.1 == zone && decide (r.2.1 ≤ u ∧ u < r.2.1 + r.2.2))

/-- Every unit of a KIND 2 zone that holds data lies in the ranges: the units written to its band, the redirected
and the staged ones. -/
def Chip.coversZone (c : Chip) (rs : List (Nat × Nat × Nat)) (zone : Nat) : Bool :=
  let z := c.zone zone
  decide (0 < z.written) && (List.range z.written).all (inRanges rs zone)
    && (c.hotOfZone zone).all (fun e => inRanges rs zone e.1)
    && c.nvq.staging.all (fun u => u.zone != zone || u.data.all (fun e => inRanges rs zone (u.unit + e.1)))

/-- The hot map entries a deallocation in a KIND 2 zone still needs: KIND 2 below MWP, and the removal of
a redirection at or above it. -/
def Chip.deallocEntries (c : Chip) (rs : List (Nat × Nat × Nat)) (zone : Nat) : List HotRec :=
  let z := c.zone zone
  ((rs.filter (fun r => r.1 == zone)).flatMap (fun r => (List.range r.2.2).map (· + r.2.1))).filterMap (fun u =>
    match c.hotOf zone u with
    | some h =>
      if u < z.mwp then (if h.kind = 2 then none else some ⟨2, zone, u, 0, z.gen⟩)
      else some ⟨0, zone, u, 0, z.gen⟩
    | none => if u < z.mwp then some ⟨2, zone, u, 0, z.gen⟩ else none)

/-- The hot map has a slot for every entry of a record (R201). -/
def Chip.slotsFor (c : Chip) : List HotRec → Bool
  | [] => true
  | h :: hs =>
    if h.kind = 0 then Chip.slotsFor (c.hotRemove h.zone h.unit) hs
    else !c.noSlot h.zone h.unit && Chip.slotsFor (c.hotInsert h.zone h.unit h.kind h.csec) hs

/-- Staged data of the units a record deallocates is dropped with it, as is a redirection that waits. -/
def Chip.dropUnits (c : Chip) (zone : Nat) (p : Nat → Bool) : Chip :=
  let c := c.unstage zone (fun _ => p)
  { c with loc := { c.loc with
    relocs := c.loc.relocs.filter (fun r => !(r.1 == zone && p r.2))
    hotWait := c.loc.hotWait.filter (fun h => !(h.zone == zone && p h.unit)) } }

/-- Commit the entries, four to a record, until one must wait for the journal or for a slot; whether a slot is
what it waits for. -/
def Chip.putEntries (c : Chip) (a : Act) (zone : Nat) : Nat → List HotRec → Bool × Chip
  | 0, _ => (false, c)
  | _ + 1, [] => (false, c)
  | k + 1, e :: es =>
    let four := (e :: es).take 4
    if c.mustWait .locus then (false, c)
    else if !c.slotsFor four then (true, c.hotFull)
    else Chip.putEntries ((c.commit .locus [.hot a.toNat four] []).dropUnits zone
      (fun u => four.any (fun h => h.unit == u))) a zone k ((e :: es).drop 4)

/-- Bitmap records of a conventional zone's ranges; a count is at most 16 bits (R467). -/
def Chip.clearBits (c : Chip) (rs : List (Nat × Nat × Nat)) (zone : Nat) : Chip :=
  (rs.filter (fun r => r.1 == zone)).foldl (fun (c : Chip) r =>
    let z := c.zone zone
    let cut := [(r.2.1, min r.2.2 32768), (r.2.1 + 32768, r.2.2 - 32768)].filter (fun p => p.2 != 0)
    (c.commit .locus [.mwp zone z.gen 3 0 z.live z.wtime z.tmin z.tmax cut] []).dropUnits zone
      (fun u => inRanges [r] zone u)) c

/-- How far a deallocation of one zone has come. -/
inductive Dealloc where
  /-- It is committed. -/
  | done
  /-- It waits for the journal, or for media writes of the zone to end. -/
  | waits
  /-- It waits for a slot of the hot map. -/
  | slot
  deriving DecidableEq, Repr

/-- Work on one zone of a deallocation. -/
def Chip.deallocZone (c : Chip) (rs : List (Nat × Nat × Nat)) (zone : Nat) : Dealloc × Chip :=
  if c.mustWaitFor .locus (3 + rs.length) || c.writing zone then (.waits, c)
  else if (c.zone zone).kind = 3 then (.done, c.clearBits rs zone)
  else if c.coversZone rs zone then (.done, c.resetZone zone [])
  else
    let c := c.commitMwp zone
    let es := c.deallocEntries rs zone
    let r := c.putEntries (zoneAct zone) zone es.length es
    if r.1 then (.slot, r.2)
    else if !(r.2.deallocEntries rs zone).isEmpty then (.waits, r.2)
    else (.done, r.2.dropUnits zone (inRanges rs zone))

/-- Work on the zones a deallocation still has (`units`), until one waits; it remembers the bands of the zones it
emptied (`safe`), which a secure discard waits for. -/
def Chip.deallocZones (c : Chip) (x : InCmd) (rs : List (Nat × Nat × Nat)) : List Nat → Chip
  | [] => c
  | zone :: zones =>
    let k := if c.coversZone rs zone ∧ (c.zone zone).kind = 2 then c.bandOfZone zone else none
    let r := c.deallocZone rs zone
    match r.1 with
    | .done =>
      Chip.deallocZones (r.2.mapCmd x.seq (fun y => { y with
        units := zones, slotWait := false
        safe := match k with
          | some b => insertNat y.safe b
          | none => y.safe })) x rs zones
    | .slot => r.2.mapCmd x.seq (fun y => { y with slotWait := true })
    | .waits => r.2.mapCmd x.seq (fun y => { y with slotWait := false })

/-- A deallocation is committed: it completes, or its secure discard begins (R119, R244): the emptied bands, a
REASON 4 job on each band that keeps live data, the stale sectors, and the conventional sectors. -/
def Chip.deallocDone (c : Chip) (x : InCmd) (rs : List (Nat × Nat × Nat)) (bands : List Nat) : Chip :=
  if !c.nvq.secure.contains x.cmd.nsid then c.finish x.ok
  else
    let zs := (rs.map (fun e => e.1)).foldl insertNat []
    let kind (k : Nat) (i : Nat) : Bool := (c.zone i).kind == k
    (c.mapCmd x.seq (fun w => { w with phase := .transferring, safe := [] })).startDiscard (some x.ok) bands
      (zs.filter (fun i => kind 2 i && c.mayClean i)) (actsOf (zs.filter (kind 2))) false
      (rs.filter (fun r => kind 3 r.1))

/-- A deallocating command goes on until all of it is committed. -/
def Chip.deallocMore (c : Chip) (x : InCmd) : Chip :=
  let rs := c.deallocList x.cmd
  let c := c.deallocZones x rs x.units
  match c.nvq.inflight.find? (fun y => y.seq == x.seq) with
  | some y => if y.units.isEmpty then c.deallocDone y rs y.safe else c
  | none => c

/-- A deallocating command is taken. -/
def Chip.deallocStart (c : Chip) (x : InCmd) : Chip :=
  let zs := ((c.deallocList x.cmd).map (fun e => e.1)).foldl insertNat []
  (c.mapCmd x.seq (fun y => { y with phase := .working, units := zs })).deallocMore { x with phase := .working, units := zs }

/-- A deallocating command that goes on with its work. -/
def Chip.deallocating (c : Chip) (i qid cid opcode : Nat) : Option InCmd :=
  if !c.alive || c.inHoldup then none
  else match c.nvq.find i qid cid with
    | some x => if x.cmd.opcode = opcode ∧ x.cmd.nsid ≠ 4 ∧ x.phase = .working ∧ x.result.isNone then some x
        else none
    | none => none

/-- Dataset Management (R242): only AD acts. -/
def datasetManagement (c : Chip) (i qid cid : Nat) : Chip :=
  match c.io i qid cid 0x09 with
  | some x =>
    let r := c.begin x true
    if !r.1 then r.2
    else if x.cmd.cdw11 / 4 % 2 = 0 then r.2.finish x.ok
    else r.2.deallocStart x
  | none =>
    match c.deallocating i qid cid 0x09 with
    | some x => c.deallocMore x
    | none => c

/-- DATASET_MANAGEMENT (R242). -/
def execDatasetManagement (cntl : Fin 2) (qid cid : Nat) (s : State) : Host.Outcome State Fault Refusal :=
  s.done (datasetManagement s.chip cntl.val qid cid)

/-! ### Write Zeroes -/

/-- Stage one unit of zeros. -/
def Chip.zeroUnit (c : Chip) (x : InCmd) (u : Nat) : Chip :=
  let ps := (c.places x.cmd.nsid x.cmd.slba x.cmd.nlb).filter (fun p => unitNo p.2.1 p.2.2 == u)
  c.takeUnit x u (ps.map (fun p => (p.2.2 % 16, zeroBlock)))

/-- The units of a Write Zeroes are staged once the dirty limit lets it go on (R21) and every earlier write of its
queue is (R123). -/
def Chip.zerosMore (c : Chip) (x : InCmd) : Chip :=
  if x.phase ≠ .transferring ∨ c.nvq.earlierWrite x then c
  else x.units.foldl (fun (c : Chip) u =>
    match c.nvq.inflight.find? (fun y => y.seq == x.seq) with
    | some y => c.zeroUnit y u
    | none => c) c

/-- A Write Zeroes that was taken and goes on. -/
def Chip.zeroing (c : Chip) (i qid cid : Nat) : Option InCmd :=
  if !c.alive || c.inHoldup then none
  else match c.nvq.find i qid cid with
    | some x => if x.cmd.opcode = 0x08 ∧ x.cmd.nsid ≠ 4 ∧ !x.cmd.deac ∧ x.result.isNone then some x else none
    | none => none

/-- Write Zeroes (R118): with DEAC a deallocation; else a write of zeros, under the rules of a Write and
the dirty limit, with no transfer from the host. -/
def writeZeroes (c : Chip) (i qid cid : Nat) : Chip :=
  match c.zoneIo i qid cid 0x08 with
  | some x =>
    if x.cmd.deac then
      let r := c.begin x true
      if !r.1 then r.2
      else r.2.deallocStart x
    else match c.writeRules x.cmd.nsid x.cmd.slba x.cmd.nlb with
      | some st => c.fail x st
      | none =>
        let c := c.writeOn x x.cmd.slba
        match c.nvq.find i qid cid with
        | some y => c.zerosMore y
        | none => c
  | none =>
    match c.deallocating i qid cid 0x08 with
    | some x => if x.cmd.deac then c.deallocMore x else c
    | none =>
      match c.zeroing i qid cid with
      | some x => c.zerosMore x
      | none => c

/-- WRITE_ZEROES (R118). -/
def execWriteZeroes (cntl : Fin 2) (qid cid : Nat) (s : State) : Host.Outcome State Fault Refusal :=
  s.done (writeZeroes s.chip cntl.val qid cid)

/-! ### Format NVM and Sanitize (R118, R242, R244, R249) -/

/-- The zones of a namespace that hold anything to unmap. -/
def Chip.unmapList (c : Chip) (nsid : Nat) : List Nat :=
  (c.loc.zones.filter (fun e => e.2.nsid == nsid
    && ((e.2.kind == 1 && [1, 2, 3, 4].contains e.2.state)
      || (e.2.kind == 2 && (e.2.state == 7 || e.2.state == 5))))).map Prod.fst

/-- The zones of a namespace a Format or Sanitize unmaps. -/
def Chip.unmapZonesOf (c : Chip) (nsid : Nat) : List Nat := c.unmapList nsid ++ c.convList nsid

/-- The keys a Format or Sanitize deletes: those of namespace 4. -/
def Chip.unmapKeysOf (c : Chip) (nsid : Nat) : List (List Byte) :=
  if nsid = 4 then (c.seg.values ++ c.seg.fresh.filter (fun v => !c.seg.values.any (fun w => w.key == v.key))).map
    Value.key
  else []

/-- Format NVM (R118): it needs the media, so it ends REST (R38). It waits, with no effect, while its first
record must, and goes on zone by zone (R19). -/
def formatNvm (c : Chip) (i cid : Nat) : Chip :=
  match c.admin i cid 0x80 with
  | none => c
  | some x =>
    let n := x.cmd.nsid
    let ses := x.cmd.cdw10 / 512 % 8
    if !c.nsActive n then c.fail x stInvalidNs
    else if x.cmd.cdw10 % 16 ≠ 0 then c.fail x (1, 0x0A, true)
    else if 2 < ses then c.fail x stInvalidField
    else
      let c := c.leaveRest
      match c.gate n true with
      | some st => c.fail x st
      | none =>
        if c.mustWait .sec then c
        else
          (if ses = 2 then c.commit .sec [.secDestroy 1 n 0] [] else c).unmapStart x (c.unmapKeysOf n)
            (c.unmapZonesOf n)

/-- FORMAT_NVM (R118). -/
def execFormatNvm (cntl : Fin 2) (cid : Nat) (s : State) : Host.Outcome State Fault Refusal :=
  s.done (formatNvm s.chip cntl.val cid)

/-- Sanitize (R118, R249): crypto erase only. A new MEDIA_ROOT replaces the old one in both slots of
group 7, every band salt is cleared, every namespace is unmapped and the media cache purged. -/
def sanitize (c : Chip) (i cid : Nat) : Chip :=
  match c.admin i cid 0x84 with
  | none => c
  | some x =>
    match x.cmd.cdw10 % 8 with
    | 1 => c.finish x.ok
    | 4 =>
      let c := c.leaveRest
      match (if c.chd.retiredA || c.chd.retiredB then some (0, 0x82, true) else c.gate 1 true) with
      | some st => c.fail x st
      | none =>
        if c.mustWait .sec then c
        else
          let r := c.takeRandom 256
          ((r.2.writeKey 7 1 0 r.1).commit .sec [.secDestroy 2 0 0] []).unmapStart x
            ([1, 2, 3, 4].flatMap c.unmapKeysOf) ([1, 2, 3, 4].flatMap c.unmapZonesOf)
    | _ => c.fail x stInvalidField

/-- SANITIZE (R249). -/
def execSanitize (cntl : Fin 2) (cid : Nat) (s : State) : Host.Outcome State Fault Refusal :=
  s.done (sanitize s.chip cntl.val cid)

end Sys2Proof.Machine
end

