-- ==== Sys2Proof/Machine/Seg.lean ====
section
/-! DEFINITION. The Segment Store: Store, Retrieve, Delete, Exist and List (R151 to R169), expiry,
background verify, popularity and migration (R170 to R175). -/

namespace Sys2Proof.Machine

open Sys2Proof

def stNoKey : Status := (1, 0x87, true)
def stKeyExists : Status := (1, 0x89, true)
def stValueSize : Status := (1, 0x85, true)
def stUnrecoveredValue : Status := (1, 0x88, true)
def stUnrecoveredRead : Status := (2, 0x81, false)

/-! ### The index -/

/-- The newest version of the value under a key, expired or not. -/
def Seg.look (s : Seg) (key : List Byte) : Option Value :=
  (s.fresh.find? (fun v => v.key == key)) <|> s.find key

/-- The value a command finds: an expired one is absent (R171). -/
def Seg.present (s : Seg) (key : List Byte) : Option Value :=
  match s.look key with
  | some v => if v.expired then none else some v
  | none => none

/-- Every key's newest version, in key order. -/
def Seg.index (s : Seg) : List Value :=
  s.fresh.foldl insertValue (s.values.filter (fun v => !s.fresh.any (fun f => f.key == v.key)))

/-- SEG_KEY_LIMIT (R152, R177): by the size of the DRAM. -/
def Chip.keyLimit (c : Chip) : Nat := if c.mem.size = 2 then 16777216 else 8388608

/-- Open values (R153). An expired one is absent and not counted (DESIGN CHOICE). -/
def Seg.openCount (s : Seg) : Nat := (s.index.filter (fun v => !v.sealed && !v.expired)).length

/-- Change the newest version of a value. -/
def Chip.mapValue (c : Chip) (key : List Byte) (f : Value → Value) : Chip :=
  let g (v : Value) : Value := if v.key = key then f v else v
  { c with seg := { c.seg with values := c.seg.values.map g, fresh := c.seg.fresh.map g } }

/-- A version that waits for its records is put before the index's own. -/
def Chip.putFresh (c : Chip) (v : Value) : Chip :=
  { c with seg := { c.seg with fresh := insertValue (c.seg.fresh.filter (fun w => w.key != v.key)) v } }

/-- Keys the host sees (R177). -/
def Seg.keyCount (s : Seg) : Nat := (s.index.filter (fun v => !v.expired)).length

/-- KEY_HIGH at 95 % of the key limit, OPEN_HIGH at 4,096 open values (R178). -/
def Chip.checkKeys (c : Chip) (hadKeys hadOpen : Nat) : Chip :=
  let n := c.seg.keyCount
  let c := if hadKeys * 100 < 95 * c.keyLimit ∧ 95 * c.keyLimit ≤ n * 100 then c.raise 0x12 2 else c
  if hadOpen < 4096 ∧ 4096 ≤ c.seg.openCount then c.raise 0x12 3 else c

/-! ### Placement (R151, R161) -/

/-- The unit after everything placed in a zone of namespace 4. -/
def Chip.appendPoint (c : Chip) (zone : Nat) : Nat :=
  let z := c.zone zone
  let p := (c.nvq.staging.filter (fun u => u.zone == zone)).foldl
    (fun m u => max m (u.unit + u.data.length)) (max z.written z.mwp)
  (c.seg.pend.flatMap SegOp.zones).foldl (fun m e => if e.1 = zone then max m e.2 else m) p

/-- A zone of namespace 4 with room for more, in the Annulus of the hint. -/
def Chip.segZone (c : Chip) (a : Act) (hint : Nat) : Option Nat :=
  (List.find? (fun e => e.2.kind == 2 && e.2.nsid == 4 && e.2.state == 7 && e.2.hasBand && !e.2.cleaning
    && zoneAct e.1 == a && (hint == 0 || e.2.ann + 1 == hint) && decide (c.appendPoint e.1 + 2 ≤ 65536))
    c.loc.zones).map Prod.fst

/-- The first Empty zone of namespace 4 on an actuator (R182). -/
def Chip.emptySegZone (c : Chip) (a : Act) : Option Nat :=
  let base := a.toNat * 262144 + c.loc.part.conv a + c.loc.seq a + c.loc.part.n3
  ((List.range (c.loc.part.n4 a)).find? (fun j => (c.zone (base + j)).state == 0)).map (base + ·)

/-- Where data goes: its extents, and the zone that takes a new band for it. -/
structure Placement where
  extents : List Extent
  newBand : Option (Nat × Nat) := none

/-- A place for `need` units behind `head` header units, in a zone with room and, beyond it, in a zone
that takes a new band; none where no band is left (R129, R161). -/
def Chip.placeValue (c : Chip) (a : Act) (hint head need : Nat) (last : Option Nat) : Option Placement :=
  let zone := match last with
    | some z => some z
    | none => c.segZone a hint
  let fresh (first n : Nat) (before : List Extent) : Option Placement :=
    match c.emptySegZone a, c.pickBand a (if hint = 0 then none else some (hint - 1)) true false with
    | some z, some k => some ⟨before ++ [⟨z, first, n⟩], some (z, k)⟩
    | _, _ => none
  if need = 0 then some ⟨[], none⟩
  else match zone with
    | none => fresh head need []
    | some z =>
      let p := c.appendPoint z + head
      let room := 65536 - p
      if need ≤ room then some ⟨[⟨z, p, need⟩], none⟩
      else if room = 0 then fresh head need []
      else fresh 0 (need - room) [⟨z, p, room⟩]

/-- The zone an open value's next bytes may follow on in: that of its last extent, while nothing else was
placed behind it. -/
def Chip.lastZone (c : Chip) (v : Value) : Option Nat :=
  match v.extents.getLast? with
  | some e =>
    if c.appendPoint e.zone = e.first + e.count ∧ e.first + e.count < 65536 ∧ !(c.zone e.zone).cleaning
    then some e.zone else none
  | none => none

/-! ### Staging of a value -/

/-- 4 KiB blocks of a byte string, the last padded with zeros. -/
def blocksOf : Nat → List Byte → List Block
  | 0, _ => []
  | n + 1, bs => BitVec.ofNat 32768 (leNat (bs.take 4096)) :: blocksOf n (bs.drop 4096)

/-- Staged entries of at most sixteen blocks for the data of some extents. -/
def stageExtent (u : Staged) : Nat → List Byte → Nat → List Staged
  | 0, _, _ => []
  | k + 1, bs, unit =>
    if bs.isEmpty then []
    else
      let part := bs.take 65536
      let n := (part.length + 4095) / 4096
      { u with unit := unit, len := part.length
               data := (List.range n).zip (blocksOf n part) }
        :: stageExtent { u with offset := u.offset + part.length } k (bs.drop 65536) (unit + n)

/-- Stage a value's bytes over its extents. -/
def stageValue (u : Staged) : List Extent → List Byte → List Staged
  | [], _ => []
  | e :: es, bs =>
    let part := bs.take (e.count * 4096)
    stageExtent { u with zone := e.zone } (e.count / 16 + 1) part e.first
      ++ stageValue { u with offset := u.offset + part.length } es (bs.drop (e.count * 4096))

/-- The header sector of a value (R151), staged with every operation on it: it stands before the value's first
extent, belongs to none, and carries no byte of the value. -/
def headerUnit (u : Staged) (v : Value) : List Staged :=
  match v.extents with
  | [] => []
  | e :: _ => [{ u with
      zone := e.zone, unit := e.first - 1, data := [(0, Config.segHeader v.key v.length v.sealed v.digest)], len := 0 }]

/-! ### Store -/

/-- The actuator of a new value (R161): the one asked for, else the one with more FREE bands. -/
def Chip.valueAct (c : Chip) (n : Nat) : Act :=
  match n with
  | 1 => .A
  | 2 => .B
  | _ => if c.freeCount .A < c.freeCount .B then .B else .A

/-- EXPIRES of a new value (R171): the operating time at creation plus EXPIRY minutes, in 2^-8 hour. -/
def Chip.expiresAt (c : Chip) (minutes : Nat) : Nat :=
  if minutes = 0 then 0 else c.jnl.optime + (minutes * 256 + 59) / 60

/-- What the key's state makes of a Store (R158): a status, or the value appended to (none: a new one). -/
def Chip.storeCheck (c : Chip) (h : HostCmd) : Except Status (Option Value) :=
  let cur := c.seg.present h.key
  let full := (c.seg.look h.key).isNone && decide (c.keyLimit ≤ c.seg.index.length)
  if h.cdw11 / 256 % 2 = 1 ∧ cur.isNone then .error stNoKey
  else if h.cdw11 / 512 % 2 = 1 ∧ cur.isSome then .error stKeyExists
  else if !h.kvAppend then (if full then .error (1, 0xC3, true) else .ok none)
  else match cur with
    | some v =>
      if v.sealed then .error (1, 0xC1, true)
      else if 1073741824 < v.length + h.cdw10 then .error stValueSize
      else .ok (some v)
    | none =>
      if 4096 ≤ c.seg.openCount ∧ !h.kvSeal then .error (1, 0xC2, true)
      else if full then .error (1, 0xC3, true)
      else .ok none

/-- The extents of an operation that records beside its Store or Append record name (R176): all but the first of a
Store, all but the last of an append that creates its value, those begun by any other. -/
def begunExtents (append created : Bool) (old es : List Extent) : List Extent :=
  match es with
  | [] => []
  | e :: more =>
    if !append then more
    else if created then es.dropLast
    else match old.getLast? with
      | some x => if x.zone = e.zone ∧ x.first + x.count = e.first then more else es
      | none => es

/-- The records of an operation (R176, R468), the Store or Append record first; `old` are the extents before it. -/
def storeRecs (h : HostCmd) (v : Value) (created replaced secure : Bool) (old es : List Extent)
    (gen : Nat → Nat) : List Rec :=
  let flags := b2n h.kvPin + 2 * b2n secure + 4 * b2n replaced
  let begun := begunExtents h.kvAppend created old es
  let skip := if h.kvAppend then old.length else 1
  let more := begun.zipIdx.map (fun x => Rec.segExtent h.key (skip + x.2) x.1.zone x.1.first x.1.count (gen x.1.zone))
  if !h.kvAppend then
    match es with
    | [] => []
    | e :: _ => .segStore h.key flags h.kvHint (v.act.toNat) v.length v.expires e.zone e.first e.count (gen e.zone) :: more
  else
    let last := (v.extents.getLast?).getD ⟨0, 0, 0⟩
    .segAppend h.key (b2n v.sealed + 2 * b2n created) h.kvHint v.act.toNat v.length v.expires last.zone
      (last.first + last.count) (gen last.zone) :: more

/-- A Store is accepted with its place: the value becomes visible, its data is staged and it completes;
its records follow once the data is on the media (R126, R159, R160, R166, R167). A replacing Store in
secure discard mode completes when the old data is gone (R164). -/
def Chip.storeNow (c : Chip) (x : InCmd) (old : Option Value) (p : Placement) (data : List Byte) : Chip :=
  let h := x.cmd
  let keys := c.seg.keyCount
  let opens := c.seg.openCount
  let secure := c.nvq.secure.contains 4
  let replaced := c.seg.look h.key
  let c := match p.newBand with
    | some e => c.allocBand e.1 e.2
    | none => c
  let c := if secure then
      p.extents.foldl (fun c e => c.setZone e.zone { c.zone e.zone with secure := true }) c
    else c
  let c := if old.isNone then c.dropFresh h.key else c
  let base : Value := old.getD
    { key := h.key, sealed := false, length := 0
      act := match p.extents with
        | e :: _ => zoneAct e.zone
        | [] => .A
      pin := h.kvPin, secure := secure, expires := c.expiresAt h.cdw12, hash := some ShaState.init }
  let hash := base.hash.map (fun s => s.add data)
  let sealed := !h.kvAppend || h.kvSeal
  let v : Value := { base with
    sealed := sealed, length := base.length + data.length, hash := if sealed then none else hash
    digest := if sealed then (match hash with
      | some s => s.finish
      | none => base.digest) else base.digest
    extents := p.extents.foldl addExtent base.extents }
  let order := c.nvq.nextOrder
  let u : Staged := { nsid := 4, zone := 0, unit := 0, data := [], order := order, seq := x.seq
                      queue := x.queue, stamp := c.nvq.staged, key := h.key, offset := base.length, cdw12 := h.cdw12
                      cdw13 := h.cdw13 }
  let c := { c with nvq := { c.nvq with
    nextOrder := order + 1, staged := c.nvq.staged + 1
    staging := c.nvq.staging ++ headerUnit u v ++ stageValue u p.extents data } }
  let waitsOld := secure && replaced.isSome && old.isNone
  let oldZones := ((replaced.map Value.extents).getD []).map Extent.zone
  let op : SegOp := { key := h.key, len := v.length
                      order := order
                      recs := storeRecs h v old.isNone replaced.isSome secure base.extents p.extents
                        (fun i => (c.zone i).gen)
                      zones := p.extents.map (fun e => (e.zone, e.first + e.count))
                      discard := if waitsOld then some (x.ok, oldZones) else none }
  let c := (c.putFresh v)
  let c := { c with seg := { c.seg with pend := c.seg.pend ++ [op] } }
  let c := (c.checkKeys keys opens).checkDirty
  let c := if waitsOld then c.mapCmd x.seq (fun y => { y with phase := .working, units := [] })
    else c.finish { x.ok with dw0 := if h.kvAppend then v.length else 0 }
  c.commitSegs

/-- A Store whose data has arrived: the state of its key, a place for it, and acceptance. It waits, with
no effect, for the record of a new band (R19) and for the hash of an open value (R170). -/
def Chip.store (c : Chip) (x : InCmd) (data : List Byte) : Chip :=
  let h := x.cmd
  match c.storeCheck h with
  | .error st => c.fail x st
  | .ok old =>
    let a := match old with
      | some v => v.act
      | none => c.valueAct h.kvAct
    let head := if old.isNone then 1 else 0
    let need := max head ((data.length + 4095) / 4096)
    let last := old.bind c.lastZone
    if old.any (fun v => v.hash.isNone) then c
    else match c.placeValue a (if old.isSome then 0 else h.kvHint) head need last with
      | none => c.fail x (0, 0x81, false)
      | some p => if p.newBand.isSome && c.mustWait .locus then c else c.storeNow x old p data

/-- A Store's data arrives, or a poisoned TLP among it, which fails the command (R113). -/
def Chip.storeData (c : Chip) (x : InCmd) (data : StoreData) : Chip :=
  if data.poisonedTlp then ((c.bump R.HIF_POISON_RX).raise 0x10 2).fail x (0, 0x04, false) else c.store x data.bytes

/-- A Store: issued (R124), held while the dirty limit leaves no room for its data and header (R21), and accepted
with its data. -/
def kvStoreCommand (c : Chip) (i qid cid : Nat) (append : Bool) (data : StoreData) : Chip :=
  match c.kv i qid cid 0x01 with
  | some x =>
    if x.cmd.kvAppend ≠ append ∨ data.bytes.length ≠ x.cmd.cdw10 then c
    else
      let r := c.begin x true
      if !r.1 then r.2
      else
        let c := r.2
        let us := List.range ((data.bytes.length + 65535) / 65536 + 1)
        if c.nvq.heldWrites.isEmpty && c.stagingRoom [] us.length then c.storeData x data
        else c.mapCmd x.seq (fun y => { y with phase := .held, units := us })
  | none =>
    if !c.alive || c.inHoldup then c
    else match c.nvq.find i qid cid with
      | none => c
      | some x =>
        if x.cmd.nsid ≠ 4 ∨ x.cmd.opcode ≠ 0x01 ∨ x.phase ≠ .transferring ∨ x.result.isSome
            ∨ x.cmd.kvAppend ≠ append ∨ data.bytes.length ≠ x.cmd.cdw10 then c
        else c.storeData x data

/-- KV_STORE (R159). -/
def execKvStore (cntl : Fin 2) (qid cid : Nat) (data : StoreData) (s : State) :
    Host.Outcome State Fault Refusal := s.done (kvStoreCommand s.chip cntl.val qid cid false data)

/-- KV_APPEND (R160). -/
def execKvAppend (cntl : Fin 2) (qid cid : Nat) (data : StoreData) (s : State) :
    Host.Outcome State Fault Refusal := s.done (kvStoreCommand s.chip cntl.val qid cid true data)

/-! ### Retrieve -/

/-- Bytes of 4 KiB blocks. -/
def bytesOf (m : SMap Block) : List Byte := m.flatMap (fun e => leBytes 4096 e.2.toNat)

/-- What staging holds of a value. -/
def Nvq.pieces (n : Nvq) (key : List Byte) : List Piece :=
  (n.staging.filter (fun u => u.nsid == 4 && u.key == key)).map (fun u =>
    ⟨u.offset, (bytesOf u.data).take u.len, !u.poison.isEmpty⟩)

/-- Bytes of a piece that lie in a range. -/
def Piece.overlap (p : Piece) (start n : Nat) : Nat :=
  min (start + n) (p.offset + p.bytes.length) - max start p.offset

/-- Put staged bytes over those the media gave for a range. -/
def overlay (start : Nat) (bs : List Byte) (p : Piece) : List Byte :=
  let lo := max start p.offset
  let n := p.overlap start bs.length
  bs.take (lo - start) ++ (p.bytes.drop (lo - p.offset)).take n ++ bs.drop (lo - start + n)

/-- The bytes of a range from staging and the media; nothing while the media has still to give them. `header` is
the digest of a header in staging; `got` counts the sectors confirmed for the reader, without which what the media
gave counts for nothing (R26, R170). -/
def rangeRead (ps : List Piece) (start n : Nat) (header : Option (BitVec 256)) (got : Nat) (media : ValueRead) :
    Option ValueRead :=
  let staged := (ps.map (fun p => p.overlap start n)).foldl (· + ·) 0
  let bad := ps.any (fun p => p.bad && decide (0 < p.overlap start n))
  let join (bs : List Byte) (h : BitVec 256) (bad : Bool) : ValueRead :=
    let all := ps.foldl (overlay start) bs
    if bad then .poisoned all else .good all (header.getD h)
  let confirmed := (n - staged + 4095) / 4096 ≤ got
  if staged = n ∧ header.isSome then some (join (List.replicate n 0) 0 bad)
  else match media with
    | .good bs h => if bs.length = n ∧ confirmed then some (join bs h bad) else none
    | .poisoned bs => if bs.length = n ∧ confirmed then some (join bs 0 true) else none
    | .unrecovered => some .unrecovered

/-- A value fails its digest check (R173): marked damaged with one record and an event. -/
def Chip.valueDamaged (c : Chip) (v : Value) : Chip :=
  let c := (c.markDamaged v.key).event 0x2C01 [v.key.length, leNat (v.key.take 8), leNat (v.key.drop 8)]
  (c.bump R.SEG_VERIFY_FAIL).raise 0x12 0

/-- A Retrieve that has its bytes completes with the value's length, and the value is one more time
popular (R162, R174). -/
def Chip.retrieved (c : Chip) (x : InCmd) (bs : List Byte) : Chip :=
  let c := c.mapValue x.cmd.key (fun v => { v with popularity := satSucc v.popularity 0xFFFF })
  let c := if bs.isEmpty then c else c.emit (.bytes x.cntl x.qid x.cid bs)
  c.finish { x.ok with dw0 := x.length }

/-- Poisoned data goes to the host in TLPs with EP (R113, R144). -/
def Chip.poisonSent (c : Chip) (x : InCmd) (bs : List Byte) : Chip :=
  let r := (c.emit (.bytes x.cntl x.qid x.cid bs true)).takeFree 5
  ((r.2.addSat R.HIF_POISON_TX (8 + r.1.toNat % 25)).raise 0x10 3).fail x stUnrecoveredRead

/-- The digest check of a Retrieve with VERIFY, on the whole value (R163). -/
def Chip.verified (c : Chip) (x : InCmd) (bs : List Byte) (header : BitVec 256) : Chip :=
  if sha256 bs == header then
    c.retrieved x ((bs.drop x.cmd.cdw12).take (min x.cmd.cdw10 (x.length - x.cmd.cdw12)))
  else match c.seg.look x.cmd.key with
    | some v => (c.valueDamaged v).fail x stUnrecoveredValue
    | none => c.fail x stUnrecoveredValue

/-- The value of a Retrieve with VERIFY carried poison twice (R173). -/
def Chip.poisonedTwice (c : Chip) (x : InCmd) : Chip :=
  match c.seg.look x.cmd.key with
  | some v => (c.valueDamaged v).fail x stUnrecoveredValue
  | none => c.fail x stUnrecoveredValue

/-- A Retrieve goes on with what the media has given: with VERIFY the whole value is hashed first, a
second time where the first read carried poison (R163, R173). A value in staging with its header needs no more;
else the header is read from the media with it. -/
def Chip.retrieveMore (c : Chip) (x : InCmd) (media again : ValueRead) : Chip :=
  let n := min x.cmd.cdw10 (x.length - x.cmd.cdw12)
  let got := x.got.length
  if x.cmd.cdw13 % 2 = 1 then
    match rangeRead x.pieces 0 x.length x.digest got media with
    | none => c
    | some (.good bs h) => c.verified x bs h
    | some .unrecovered => c.fail x stUnrecoveredRead
    | some (.poisoned _) =>
      match rangeRead x.pieces 0 x.length x.digest got again with
      | none => c
      | some (.good bs h) => c.verified x bs h
      | some (.poisoned _) => c.poisonedTwice x
      | some .unrecovered => c.fail x stUnrecoveredRead
  else match rangeRead x.pieces x.cmd.cdw12 n (some 0) got media with
    | none => c
    | some (.good bs _) => c.retrieved x bs
    | some (.poisoned bs) => c.poisonSent x bs
    | some .unrecovered => c.fail x stUnrecoveredRead

/-- In REBUILD a page that a value's extents need is not recovered (R40). -/
def Chip.pageMissing (c : Chip) (v : Value) : Bool :=
  c.sys.mode == .rebuild && v.extents.any (fun e =>
    (List.range e.count).any (fun i => field (c.page e.zone ((e.first + i) / 256)) 31 30 == 3))

/-- Retrieve (R162): the first unit of each extent is handed to the real-time core (R196). It waits for a map page
that is not recovered, within its budget (R40). OFFSET is checked before VERIFY on an open value, and that before
the damaged mark (DESIGN CHOICE). -/
def kvRetrieve (c : Chip) (i qid cid : Nat) (media again : ValueRead) : Chip :=
  match c.kv i qid cid 0x02 with
  | some x =>
    let r := c.begin x false
    if !r.1 then r.2
    else
      let c := r.2
      match c.seg.present x.cmd.key with
      | none => c.fail x stNoKey
      | some v =>
        let t := some (x.issued.getD c.dtm.dtime)
        if v.length < x.cmd.cdw12 then c.fail x stInvalidField
        else if x.cmd.cdw13 % 2 = 1 ∧ !v.sealed then c.fail x (1, 0xC0, true)
        else if v.damaged then c.fail x stUnrecoveredValue
        else if c.pageMissing v then c.mapCmd x.seq (fun y => { y with issued := t })
        else
          let staged := c.seg.fresh.any (fun w => w.key == v.key)
          let f (y : InCmd) : InCmd := { y with
            phase := .working, issued := t, length := v.length, digest := if staged then some v.digest else none
            pieces := c.nvq.pieces v.key, bands := v.extents.filterMap (fun e => c.bandOfZone e.zone) }
          ((c.mapCmd x.seq f).locate (v.extents.map (fun e => (e.first, e.zone, e.first)))).retrieveMore (f x) media again
  | none =>
    if !c.alive || c.inHoldup then c
    else match c.nvq.find i qid cid with
      | none => c
      | some x =>
        if x.cmd.nsid ≠ 4 ∨ x.cmd.opcode ≠ 0x02 ∨ x.phase ≠ .working ∨ x.result.isSome then c
        else c.retrieveMore x media again

/-- KV_RETRIEVE (R162). -/
def execKvRetrieve (cntl : Fin 2) (qid cid : Nat) (media again : ValueRead) (s : State) :
    Host.Outcome State Fault Refusal := s.done (kvRetrieve s.chip cntl.val qid cid media again)

/-! ### Delete, Exist, List -/

/-- Jobs end on zones that a deletion leaves with nothing live before their commit (R234). -/
def Chip.endJobs (c : Chip) (v : Value) : Chip :=
  v.extents.foldl (fun c e =>
    let gone := (v.extents.filter (fun f => f.zone == e.zone)).foldl (fun n f => n + f.count) 0
    if (c.zone e.zone).live ≤ gone ∧ !c.segBusy e.zone then c.dropJobOf e.zone else c) c

/-- A value's removal is committed; as a secure discard its completion waits (R164, R244). -/
def Chip.removeValue (c : Chip) (v : Value) (rc : Rec) (post : Option Completion) : Chip :=
  let d := (c.dropFresh v.key).endJobs v
  if c.nvq.secure.contains 4 then
    (d.commit .seg [rc] []).discardExtents d post (v.extents.map Extent.zone)
  else d.commit .seg [rc] post.toList

/-- Delete (R164). -/
def kvDelete (c : Chip) (i qid cid : Nat) : Chip :=
  match c.kv i qid cid 0x10 with
  | none => c
  | some x =>
    let r := c.begin x true
    if !r.1 then r.2
    else
      let c := r.2
      match c.seg.present x.cmd.key with
      | none => c.fail x stNoKey
      | some v =>
        if c.mustWaitFor .seg 3 then c
        else
          let c := c.mapCmd x.seq (fun y => { y with phase := .working })
          c.removeValue v (.segDelete v.key (2 * b2n (c.nvq.secure.contains 4))) (some x.ok)

/-- KV_DELETE (R164). -/
def execKvDelete (cntl : Fin 2) (qid cid : Nat) (s : State) : Host.Outcome State Fault Refusal :=
  s.done (kvDelete s.chip cntl.val qid cid)

/-- Exist (R164). -/
def kvExist (c : Chip) (i qid cid : Nat) : Chip :=
  match c.kv i qid cid 0x14 with
  | none => c
  | some x =>
    let r := c.begin x false
    if !r.1 then r.2
    else if (r.2.seg.present x.cmd.key).isSome then r.2.finish x.ok
    else r.2.fail x stNoKey

/-- KV_EXIST (R164). -/
def execKvExist (cntl : Fin 2) (qid cid : Nat) (s : State) : Host.Outcome State Fault Refusal :=
  s.done (kvExist s.chip cntl.val qid cid)

/-- An entry of a key list: 2-byte length, the key, zeros to a 4-byte boundary (R165). -/
def listEntry (key : List Byte) : List Byte :=
  leBytes 2 key.length ++ key ++ List.replicate ((4 - (2 + key.length) % 4) % 4) 0

/-- The keys that fit a buffer, whole entries only. -/
def fitKeys : Nat → List (List Byte) → List (List Byte)
  | _, [] => []
  | room, k :: ks =>
    let n := (listEntry k).length
    if n ≤ room then k :: fitKeys (room - n) ks else []

/-- List (R165). -/
def kvList (c : Chip) (i qid cid : Nat) : Chip :=
  match c.kv i qid cid 0x06 with
  | none => c
  | some x =>
    let r := c.begin x false
    if !r.1 then r.2
    else
      let h := x.cmd
      let keys := (r.2.seg.index.filter (fun v => !v.expired)).map Value.key
      let keys := if h.kl = 0 then keys
        else keys.filter (fun k => keyLt h.key k || (h.cdw13 % 2 == 0 && k == h.key))
      let sent := fitKeys (h.cdw10 - 4) keys
      let more := sent.length < keys.length
      let data := leBytes 4 sent.length ++ sent.flatMap listEntry
      (r.2.emit (.bytes i qid cid data)).finish
        { x.ok with dw0 := sent.length + (if more then 2 ^ 31 else 0) }

/-- KV_LIST (R165). -/
def execKvList (cntl : Fin 2) (qid cid : Nat) (s : State) : Host.Outcome State Fault Refusal :=
  s.done (kvList s.chip cntl.val qid cid)

/-! ### Background work -/

/-- SEG works: a Tier S part (R150) outside BOOT and HOLDUP. -/
def Chip.segOn (c : Chip) : Bool :=
  c.alive && !c.inHoldup && c.lcs.tierS && c.sys.mode != Mode.boot

/-- Units of a value by number over all zones. -/
def Value.unitNumbers (v : Value) : List Nat :=
  v.extents.flatMap (fun e => (List.range e.count).map (fun i => unitKey e.zone (e.first + i)))

/-- Every sector of a value was confirmed in a slot read for SEG's own work (R26, R170). -/
def Chip.segGot (c : Chip) (v : Value) : Bool := v.unitNumbers.all c.seg.got.contains

/-- The slots read for a value are used. -/
def Chip.segTaken (c : Chip) (v : Value) : Chip :=
  { c with seg := { c.seg with got := c.seg.got.filter (fun u => !v.unitNumbers.contains u) } }

/-- Background verify of one sealed value (R172, R173), once its sectors are confirmed: the value as read with the
digest in its header, read once more where it carried poison; and, where this ends a lap, the lap's hours. LAP_HOURS 0 or RATE 0 stops it. -/
def segBackgroundVerify (c : Chip) (key : List Byte) (first second : ValueRead) (lapHours : Option Nat) :
    Chip :=
  if !c.segOn || c.fld R.SEG_VERIFY 15 0 == 0 || c.fld R.SEG_VERIFY 23 16 == 0 then c
  else
    let c := match c.seg.present key with
      | none => c
      | some v =>
        if !v.sealed || v.damaged || !c.segGot v then c
        else
          let c := c.segTaken v
          match first with
          | .good bs h => if sha256 bs == h then c else c.valueDamaged v
          | .unrecovered => c
          | .poisoned _ =>
            match second with
            | .good bs h => if sha256 bs == h then c else c.valueDamaged v
            | .poisoned _ => c.valueDamaged v
            | .unrecovered => c
    match lapHours with
    | none => c
    | some n =>
      let late := c.fld R.SEG_VERIFY 15 0 < n
      let c := c.setFld R.SEG_VERIFY_LAP 15 0 (min n 0xFFFF)
      if late then c.raise 0x12 1 else c

/-- SEG_BACKGROUND_VERIFY (R172). -/
def execSegBackgroundVerify (key : List Byte) (first second : ValueRead) (lapHours : Option Nat)
    (s : State) : Host.Outcome State Fault Refusal :=
  s.done (segBackgroundVerify s.chip key first second lapHours)

/-- Zone index of restored units of namespace 4 that have no place yet: the save set holds none (R482). -/
def noZone : Nat := 524288

/-- The Store a restored unit of namespace 4 came from (R482). -/
def storeOf (u : Staged) (data : List Byte) : HostCmd :=
  { cid := 0, opcode := 0x01, nsid := 4, cdw2 := leAt u.key 0 4, cdw3 := leAt u.key 4 4, cdw10 := data.length
    cdw11 := u.key.length, cdw12 := u.cdw12, cdw13 := u.cdw13, cdw14 := leAt u.key 8 4, cdw15 := leAt u.key 12 4 }

/-- The poisoned words of restored units, carried over to a unit that holds some of the same bytes (R482). -/
def carryPoison (old : List Staged) (u : Staged) : Staged :=
  let ws := old.flatMap (fun o => o.poison.map (fun n => o.offset + 8 * n))
  { u with
    restored := true
    poison := (ws.filter (fun b => decide (u.offset ≤ b) && decide (b < u.offset + u.len))).map
      (fun b => (b - u.offset) / 8) }

/-- A Store whose units were restored is accepted again (R484), with a place found anew; an append waits for the
hash state of its value (R170), and any for a free band. -/
def Chip.restoreValue (c : Chip) (order : Nat) : Chip :=
  let mine (u : Staged) : Bool := u.nsid == 4 && u.zone == noZone && u.order == order
  let us := c.nvq.staging.filter mine
  match us with
  | [] => c
  | u :: _ =>
    let data := us.flatMap (fun (x : Staged) => (bytesOf x.data).take x.len)
    let h := storeOf u data
    let old := if u.offset = 0 then none else c.seg.look u.key
    let follows : Bool := u.offset == 0 || old.any (fun v => v.hash.isSome && v.length == u.offset)
    let head := if old.isNone then 1 else 0
    let need := max head ((data.length + 4095) / 4096)
    let a := match old with
      | some v => v.act
      | none => c.valueAct h.kvAct
    if !follows then c
    else match c.placeValue a (if old.isSome then 0 else h.kvHint) head need (old.bind c.lastZone) with
      | none => c
      | some p =>
        if p.newBand.isSome && c.mustWait .locus then c
        else
          let x : InCmd := { cntl := 9, qid := 0, cid := 0, seq := 0, cmd := h }
          let rest := c.nvq.staging.filter (fun u => !mine u)
          let next := c.nvq.nextOrder
          let c := ({ c with nvq := { c.nvq with staging := rest } }).storeNow x old p data
          { c with nvq := { c.nvq with staging := c.nvq.staging.map (fun (v : Staged) =>
              if v.order = next ∧ v.nsid = 4 then carryPoison us v else v) } }

/-- Every restored Store that can be placed, in ORDER (R484). -/
def Chip.restoreValues (c : Chip) : Chip :=
  let os := (c.nvq.staging.filter (fun u => u.nsid == 4 && u.zone == noZone)).foldl
    (fun l u => insertNat l u.order) []
  os.foldl Chip.restoreValue c

/-- The hash state of an open value is rebuilt from its bytes (R170). -/
def segOpenValueRebuild (c : Chip) (key : List Byte) (media : ValueRead) : Chip :=
  if !c.segOn then c
  else match c.seg.look key, media with
    | some v, .good bs _ =>
      if v.sealed || v.hash.isSome || bs.length != v.length || !c.segGot v then c
      else ((c.segTaken v).mapValue key (fun w => { w with hash := some (ShaState.init.add bs) })).restoreValues
    | _, _ => c

/-- SEG_OPEN_VALUE_REBUILD (R170). -/
def execSegOpenValueRebuild (key : List Byte) (media : ValueRead) (s : State) :
    Host.Outcome State Fault Refusal := s.done (segOpenValueRebuild s.chip key media)

/-- An expired value is reclaimed with one record (R164, R176). -/
def segExpiryReclaim (c : Chip) (key : List Byte) : Chip :=
  if !c.segOn || c.mustWaitFor .seg 3 then c
  else match c.seg.look key with
    | none => c
    | some v =>
      if !v.expired then c
      else c.removeValue v (.segReclaim key (2 * b2n (c.nvq.secure.contains 4)) v.expires) none

/-- SEG_EXPIRY_RECLAIM (R164). -/
def execSegExpiryReclaim (key : List Byte) (s : State) : Host.Outcome State Fault Refusal :=
  s.done (segExpiryReclaim s.chip key)

/-- HALFLIFE hours have passed: every count is halved (R174); HALFLIFE 0 means no decay. -/
def segPopularityHalve (c : Chip) : Chip :=
  if !c.segOn || c.fld R.SEG_POP 23 16 == 0 then c
  else
    let half (v : Value) : Value := { v with popularity := v.popularity / 2 }
    { c with seg := { c.seg with values := c.seg.values.map half, fresh := c.seg.fresh.map half } }

/-- SEG_POPULARITY_HALVE (R174). -/
def execSegPopularityHalve (s : State) : Host.Outcome State Fault Refusal :=
  s.done (segPopularityHalve s.chip)

/-- PROMOTE (R177): 0xFF stands for 0xFFFF, which disables migration. -/
def Chip.promote (c : Chip) : Nat :=
  if c.fld R.SEG_POP 7 0 = 0xFF then 0xFFFF else c.fld R.SEG_POP 7 0

/-- The Annulus a migration moves a value to (R175), as a job names it: TARGET for a popular value that
lies inward of it; the one inward of TARGET for an unpopular value in the outer Annuli while fewer bands
than the outer reserve are FREE there. -/
def Chip.migrateTo (c : Chip) (v : Value) : Option Nat :=
  match v.extents with
  | [] => none
  | e :: _ =>
    let t := c.fld R.SEG_POP 27 24
    let ann := (c.zone e.zone).ann
    let outers := ((c.freeBands v.act).filter (fun b => c.outer b.2)).length
    if v.pin || c.promote == 0xFFFF then none
    else if c.promote ≤ v.popularity ∧ t < ann then some (t + 1)
    else if v.popularity ≤ c.fld R.SEG_POP 15 8 ∧ ann ≤ t ∧ outers < c.fld R.LOC_RESERVE 15 8 ∧ t < 7 then
      some (t + 2)
    else none

/-- A pinned value has an extent in a zone, whose band therefore stays. -/
def Seg.pinned (s : Seg) (zone : Nat) : Bool := s.index.any (fun v => v.pin && v.extents.any (fun e => e.zone == zone))

/-- A value is queued for migration (R175): a REASON 6 job on each zone that holds an extent of it and none of a
pinned value. -/
def segMigrationQueue (c : Chip) (key : List Byte) : Chip :=
  if !c.segOn then c
  else match c.seg.present key with
    | none => c
    | some v =>
      match c.migrateTo v with
      | none => c
      | some ann =>
        let zs := ((v.extents.map Extent.zone).foldl insertNat []).filter (fun i => !c.seg.pinned i)
        if zs.isEmpty then c
        else (zs.foldl (fun c i => c.queueJob { zone := i, reason := 6, ann := ann, key := key }) c).mapValue key
          (fun w => { w with migrating := true })

/-- SEG_MIGRATION_QUEUE (R175). -/
def execSegMigrationQueue (key : List Byte) (s : State) : Host.Outcome State Fault Refusal :=
  s.done (segMigrationQueue s.chip key)

end Sys2Proof.Machine
end

