-- ==== Sys2Proof/Machine/Media.lean ====
section
/-! DEFINITION. What the media channels put on the media and the settings they read it with: media keys (R249), the
recorded sector (R256 to R260), precompensation (R324), the assist pulse (R330), corrections (R541 to R543), the
tables of the read path and its loops (R253, R254, R261, R278 to R280). -/

namespace Sys2Proof

namespace Machine

/-- The page of a channel: 0x20 read, 0x21 write, 0x22 servo, 0x23 assist, 0x24 engine for actuator A,
eight more for B (R90). -/
def chanPage (a : Act) (p : Nat) : Nat := p + 8 * a.toNat

/-- Change a channel. -/
def Chip.mapChan (c : Chip) (a : Act) (f : Chan → Chan) : Chip := c.setChan a (f (c.chan a))

def fmtBitrate (f : Word) : Nat := field f 12 0
def fmtCode (f : Word) : Nat := field f 15 14

/-- Bits of the preamble (R255). -/
def fmtPreamble (f : Word) : Nat := 32 * (field f 19 16 + 1)

/-! ### Media keys (R249) -/

/-- The bytes of a digest in order. -/
def digestBytes (d : BitVec 256) : List Byte := (leBytes 32 d.toNat).reverse

/-- HMAC over SHA-256 with a key of at most 64 bytes. -/
def hmac (key text : List Byte) : List Byte :=
  let padded := key ++ List.replicate (64 - key.length) 0
  let under (mask : Byte) (t : List Byte) := digestBytes (sha256 (padded.map (· ^^^ mask) ++ t))
  under 0x5C (under 0x36 text)

/-- HKDF over SHA-256 to the 64 bytes of a key. -/
def hkdf (root salt info : List Byte) : List Byte :=
  let prk := hmac salt root
  let t1 := hmac prk (info ++ [1])
  t1 ++ hmac prk (t1 ++ info ++ [2])

/-- A root SEC holds in a group of the journal (R249, R470). -/
def Chip.rootKey (c : Chip) (g : Nat) : Option (List Byte) := (c.group (bootGroup g)).map (fun bs => slice bs 8 32)

/-- The key of one band; none once its salt is cleared. -/
def Chip.bandKeyOf (c : Chip) (k : Nat) : Option (List Byte) :=
  match c.rootKey 7, (c.band k).bind Band.salt with
  | some root, some salt => some (hkdf root (leBytes 16 salt.toNat) (Config.keyInfo 0 (bandAct k).toNat (k % 2 ^ 18)))
  | _, _ => none

/-- The band a place of the media lies in, none in the conventional region (R184, R326). -/
def Chip.bandOver (c : Chip) (a : Act) (head track : Nat) : Option Nat :=
  (c.bandAt a head track).bind (fun k => match c.band k with
    | some b => if b.state = .conventional then none else some k
    | none => none)

/-- The key a sector of a TYPE is encrypted with (R249, R260): that of its band, of the media cache and the
host-visible conventional zones of the actuator, or of the actuator's metadata; none for TYPE 3 and 4. -/
def Chip.sectorKey (c : Chip) (a : Act) (typ head track : Nat) : Option (List Byte) :=
  let cache := (c.rootKey 7).map (fun root => hkdf root [] (Config.keyInfo 1 a.toNat 0))
  if typ = 0 ∨ typ = 5 then (match c.bandOver a head track with
    | some k => c.bandKeyOf k
    | none => cache)
  else if typ = 1 then cache
  else if typ = 2 then (c.rootKey 8).map (fun root => hkdf root [] (Config.keyInfo 2 a.toNat 0))
  else none

/-- The XTS tweak of a sector: its physical address (R249). -/
def xtsTweak (head track sector : Nat) : BitVec 128 :=
  BitVec.ofNat 128 (head % 32 + track % 2 ^ 20 * 2 ^ 5 + sector % 2 ^ 11 * 2 ^ 25)

/-! ### The recorded sector (R256 to R260) -/

/-- The low bits of a number, most significant first. -/
def mostFirst (n v : Nat) : List Bool := ((List.range n).reverse).map v.testBit

/-- A pattern of four bits, repeated. -/
def repeated (pattern : Nat) (n : Nat) : List Bool := (List.range n).map (fun i => pattern.testBit (3 - i % 4))

/-- Parity columns of a code (R257). -/
def parityColumns (code : Nat) : Nat := [8, 10, 12, 16].getD code 16

/-- The codeword (R256, R257): user bytes, metadata bytes, then parity. -/
def codeword (code : Nat) (user : Block) (info : List Byte) : List Bool :=
  let bits := (leBytes 4096 user.toNat ++ info).flatMap (fun b => mostFirst 8 b.toNat)
  bits ++ (List.range (344 * parityColumns code)).map (Config.ldpcParity code bits)

/-- The recorded bits of a sector before and after the wedge that splits it, where one does (R256, R258). -/
def sectorField (f sync : Word) (user : Block) (info : List Byte) (split : Option Nat) : List Bool × List Bool :=
  let body := codeword (fmtCode f) user info ++ repeated 0b0011 16
  let head := repeated 0b1100 (fmtPreamble f) ++ mostFirst 32 sync.toNat
  match split with
  | none => (head ++ body, [])
  | some n => (head ++ body.take n, repeated 0b1100 32 ++ body.drop n)

/-- The 32 metadata bytes of a sector (R259): the CRC is over the user bytes as recorded and bytes 0 to 23. -/
def sectorInfo (user : Block) (seed : Nat) (dtime : BitVec 64) (pcc typ head : Nat) : List Byte :=
  let meta_ := layBytes 24 [(0, 8, seed), (8, 8, dtime.toNat), (16, 3, pcc), (19, 1, typ), (20, 1, head)]
  meta_ ++ leBytes 4 (crc32c (leBytes 4096 user.toNat ++ meta_)).toNat ++ List.replicate 4 0

/-- The delay of each bit's transition (R324), `gap` bits after the transition before it. -/
def earlyTaps (delays : List Nat) : Option Bool → Option Nat → List Bool → List Nat
  | _, _, [] => []
  | last, gap, b :: bs =>
    if last = some (!b) then
      (match gap with
        | some n => delays.getD (n - 1) 0
        | none => 0) :: earlyTaps delays (some b) (some 1) bs
    else 0 :: earlyTaps delays (some b) (gap.map (· + 1)) bs

/-! ### Corrections (R541 to R543) -/

/-- The key of a correction. -/
def corrKey (page kind index ann path : Nat) : Nat :=
  page * 65536 + ((kind * 2 + path) * 8 + ann) * 16 + index

/-- A correction's reset value: 0, and 12 for BOOST. -/
def corrReset (k : Nat) : Word :=
  if (k / 65536 = 0x20 ∨ k / 65536 = 0x28) ∧ k % 65536 / 256 = 1 then 12 else 0

/-- A correction in force. -/
def Chip.corrAt (c : Chip) (k : Nat) : Word := SMap.get corrReset c.corr k

/-- A delay of `v` taps with a correction of the form of PC_DLY (R542). -/
def corrected (w : Word) (v : Nat) : Nat :=
  (clampInt 0 63 (roundDiv (v * (64 + signed 5 (field w 12 8))) 64 + signed 4 (field w 3 0))).toNat

/-- The precompensation a head and Annulus hold before any write: that of profile 0 (R336). -/
def pcReset (_ : Nat) : Word := 0x00010308

/-- The delays of a head and Annulus for distances of 1, 2 and 3 bits (R324). -/
def Chip.pcDelays (c : Chip) (a : Act) (head ann : Nat) : List Nat :=
  let v := SMap.get pcReset (c.chan a).pc (haKey head ann)
  [field v 5 0, field v 13 8, field v 21 16].map (corrected (c.corrAt (corrKey (chanPage a 0x21) 0 0 ann 0)))

/-- The form of the assist for an Annulus (R330, R542). -/
def Chip.assistForm (c : Chip) (a : Act) (ann : Nat) : AssistForm :=
  let t := c.reg (R.AS_TIMING a)
  let w := c.corrAt (corrKey (chanPage a 0x23) 0 0 ann 0)
  { mode := c.fld (R.AS_CFG a) 1 0, rise := corrected w (field t 29 24)
    fall := corrected w (field t 29 24 + field t 21 16), lead := field t 7 0, tail := field t 15 8 }

/-! ### The read path (R253, R254, R261, R278 to R281) -/

/-- The tap a set holds after a full-chip reset (R280), by its key. -/
def tapReset (k : Nat) : Nat :=
  let i := k % 68
  if i = 15 ∨ i = 47 then 256
  else if i < 64 then 0
  else
    let t := [[32, 24, 8, 0], [32, 32, 0, 0], [32, 48, 16, 0], [32, 16, 0xFF8, 0]]
    (t.getD (k / 68 % 4) []).getD (i - 64) 0

/-- A class table entry (R278, R279): LLR 8 - AGE_BIN, BOOST TEMP_BIN, TGT 0 in every profile. -/
def classReset (k : Nat) : Word := BitVec.ofNat 32 ((8 - k / 4 % 4) * 256 + k % 4 * 16)

def Chan.cls (x : Chan) (k : Nat) : Word := SMap.get classReset x.classes k

/-- The key of a tap set. -/
def tapKey (head ann set : Nat) : Nat := (haKey head ann * 4 + set) * 68

/-- The target set a read uses (R270, R279). -/
def Chan.target (x : Chan) (w : DescWords) : Nat := if w.tgtOvr then w.tgt else field (x.cls w.cls) 1 0

/-- The equaliser boost of a path in half-dB: calibrated, and adjusted by the class (R279, R542). -/
def Chip.boostOf (c : Chip) (a : Act) (w : DescWords) (path : Nat) : Nat :=
  let b := c.corrAt (corrKey (chanPage a 0x20) 1 (w.head % 10) w.ann path)
  (clampInt 0 30 (field b 4 0 + signed 4 (field ((c.chan a).cls w.cls) 7 4))).toNat

/-- The offset and gain of a path's ADC (R542). -/
def Chip.adcOf (c : Chip) (a : Act) (path : Nat) : Int × Int :=
  let k := c.corrAt (corrKey (chanPage a 0x20) 0 path 0 0)
  (signed 8 (field k 7 0), signed 10 (field k 25 16))

/-- The loops of a sector (R261): acquisition on the preamble, from zero phase at the bit at which the gain loop first
sees its amplitude, then tracking to the sector's end. -/
def Chip.loopsOf (c : Chip) (a : Act) (f : Word) : List LoopPhase :=
  let q := c.reg (R.RD_ACQ a)
  let t := c.reg (R.RD_TRK a)
  [⟨0, true, field q 15 12, field q 19 16, some (c.fld (R.RD_AGC a) 7 0)⟩,
    ⟨min (field q 8 0) (fmtPreamble f - 32), false, field t 3 0, field t 7 4, none⟩]

/-- The settings a read descriptor starts with. -/
def Chip.readSetup (c : Chip) (a : Act) (w : DescWords) : ReadSetup :=
  let x := c.chan a
  let f := x.format w.head w.ann
  let tap (i : Nat) : Int := signed 12 (SMap.get tapReset x.taps (tapKey w.head w.ann (x.target w) + i))
  let half (reader off : Nat) : List Int :=
    if w.rdmode = 2 - reader then List.replicate 32 0 else (List.range 32).map (fun i => tap (off + i))
  { bitrate := fmtBitrate f, boost := [c.boostOf a w 0, c.boostOf a w 1], adc := [c.adcOf a 0, c.adcOf a 1]
    fir := half 0 0 ++ half 1 32, target := (List.range 4).map (fun i => tap (64 + i))
    llr := field (x.cls w.cls) 11 8 + 8
    mu := if c.bit (R.RD_ADAPT a) 0 then some (c.fld (R.RD_ADAPT a) 7 4) else none
    loops := c.loopsOf a f, blank := c.fld (R.RD_AGC a) 15 8, tol := c.fld (R.RD_SYNC a) 1 0 }

/-- The first position of the sync search at which the 32 bits differ from the pattern in at most TOL (R264), minus
the nominal one. -/
def syncFound (pattern : Word) (tol win : Nat) (window : List Word) : Option Int :=
  let hit (w : Word) : Bool := decide (((mostFirst 32 (w ^^^ pattern).toNat).filter id).length ≤ tol)
  ((window.take win).findIdx? hit).map (fun k => (k : Int) - 8)

end Machine

open Machine in
/-- A converged decode's CRC holds over the user bytes as recorded and metadata bytes 0 to 23 (R259, R267). -/
def SectorInfo.crcOk (x : SectorInfo) : Bool :=
  leAt x.info 24 4 == (crc32c (leBytes 4096 x.data.toNat ++ x.info.take 24)).toNat

/-- The preamble was seen, and the sector is blank (R262). -/
def Sense.preSeen (s : Sense) : Bool := decide (s.phase < 150)
def Sense.blank (s : Sense) (level : Nat) : Bool := decide (s.rms < 256 * level)

end Sys2Proof
end

