-- ==== Sys2Proof/Machine/Channel.lean ====
section
/-! DEFINITION. The read channel's descriptors (R268 to R281): their fields, the checks of a push, the
queue they share with write descriptors (R321), the start of the next one, and aborts (R286). -/

namespace Sys2Proof

namespace Machine

/-- A channel's event code from that of actuator A's block (R521). -/
def actCode (a : Act) (code : Nat) : Nat := code + 0x1400 * a.toNat

/-- Retirement has taken effect on the actuator (R392). -/
def Chip.outOfService (c : Chip) (a : Act) : Bool := c.retired a

/-- Where a slot, a record or staged data may lie (R271, R320). -/
def Chip.stageable (c : Chip) (addr n : Nat) : Bool :=
  (0x10800000 ≤ addr && addr + n ≤ 0x10C00000) || c.inDram addr n

/-- Descriptors of one kind that wait. -/
def Chan.waiting (x : Chan) (write : Bool) : List Desc := x.queue.filter (fun d => d.write == write)

/-- RD_PUSH.RESULT of a push (R271): the first failing check, or 1. -/
def Chip.rdCheck (c : Chip) (a : Act) (w : DescWords) : Nat :=
  let x := c.chan a
  let f := x.format w.head w.ann
  let n := w.count + 1
  if 32 ≤ (x.waiting false).length then 2
  else if w.head / 10 ≠ a.toNat ∨ c.outOfService a ∨ fmtBitrate f = 0 then 3
  else if fmtSpt f ≤ w.sector ∨ fmtSpt f < w.sector + n ∨ 65535 < w.unit + w.count
      ∨ (w.op = 2 ∧ 31 < w.count) ∨ (w.op = 3 ∧ w.count ≠ 0) then 4
  else if w.data % 4096 ≠ 0 ∨ w.stat % 32 ≠ 0 ∨ !c.stageable w.data (4096 * n)
      ∨ !c.stageable w.stat (32 * n) then 5
  else if w.rdmode = 3 ∨ w.shift < -4 ∨ 4 < w.shift
      ∨ (w.seedAny ∧ !(c.sys.mode == .rebuild || c.diagOpen)) then 6
  else if c.inHoldup then 7
  else 1

/-! ### Status records and the end of a descriptor -/

/-- The outcome of one sector (R265, R274, R275). -/
structure Outcome where
  result : Nat
  decOk : Bool := false
  seedOk : Bool := false
  servoOk : Bool := false
  early : Bool := false
  preSeen : Bool := false
  iter : Nat := 0
  ofs : Int := 0
  info : List Byte := []
  deriving DecidableEq, Repr

/-- Confirmation (R275). -/
def Outcome.conf (o : Outcome) : Bool := o.decOk && o.seedOk && o.servoOk

/-- The 32 bytes of a status record (R275). -/
def Outcome.record (o : Outcome) : List Byte :=
  let w0 := b2n o.conf + 2 * b2n o.decOk + 4 * b2n o.seedOk + 8 * b2n o.servoOk + 16 * b2n o.early
    + 32 * b2n o.preSeen + 256 * o.result + 65536 * o.iter + 2 ^ 24 * unsigned 8 o.ofs
  leBytes 4 w0 ++ (if o.conf then slice o.info 24 4 ++ slice o.info 0 24 else List.replicate 28 0)

/-- Write the record of one sector; core accesses that waited for its slot end (R297). -/
def Chip.writeStatus (c : Chip) (w : DescWords) (i : Nat) (o : Outcome) : Chip :=
  (c.writeRange (w.stat + 32 * i) o.record).slotDecided (w.data + 4096 * i) o.conf

/-- A read descriptor is done (R277). -/
def Chip.rdDone (c : Chip) (a : Act) (tag : Nat) (reject : Bool) : Chip :=
  let k := R.RD_DONE a
  let c := c.setReg k (BitVec.ofNat 32 (tag + (c.fld k 31 16 + 1) % 65536 * 65536))
  let c := c.raise (chanPage a 0x20) 0
  if reject then c.raise (chanPage a 0x20) 1 else c

/-- A ladder's sector, by head, track and sector. -/
def Ladder.isAt (l : Ladder) (head track sector : Nat) : Bool :=
  l.head == head && l.track == track && l.sector == sector

/-- Ladders of sectors whose attempt ended with RESULT 5: the attempt is made again (R302). -/
def Chan.unflown (x : Chan) (w : DescWords) (by_ : DescBy) (is : List Nat) : Chan :=
  let hit (l : Ladder) : Bool := match by_ with
    | .firmware => false
    | .capture h t s => l.isAt h t s
    | _ => is.any (fun i => l.isAt w.head w.track (w.sector + i))
  { x with ladders := x.ladders.map (fun (l : Ladder) =>
      if l.flying && hit l then { l with flying := false } else l) }

/-- The undecided sectors `is` of a read descriptor end with RESULT 5, and it is done (R286). -/
def Chip.endRead (c : Chip) (a : Act) (w : DescWords) (by_ : DescBy) (is : List Nat) : Chip :=
  let c := is.foldl (fun c i => c.writeStatus w i { result := 5 }) c
  let c := c.mapChan a (fun x => x.unflown w by_ is)
  c.rdDone a w.tag true

/-- Sectors of the running read that are not decided. -/
def RdRun.open_ (r : RdRun) : List Nat :=
  r.words.offsets.filter (fun i => !r.decided.any (fun e => e.1 == i))

/-- The running read ends with RESULT 5 for every undecided sector. -/
def Chip.endRunningRead (c : Chip) (a : Act) : Chip :=
  match (c.chan a).run with
  | some (.rd r) => (c.mapChan a (fun x => { x with run := none, asked := false })).endRead a r.words r.by_ r.open_
  | _ => c

/-- Every queued read ends with RESULT 5. -/
def Chip.endQueuedReads (c : Chip) (a : Act) : Chip :=
  let ds := (c.chan a).waiting false
  let c := c.mapChan a (fun x => { x with queue := x.queue.filter (·.write) })
  ds.foldl (fun c d => c.endRead a d.words d.by_ d.words.offsets) c

/-- The channel's reads are aborted (R286). -/
def Chip.abortReads (c : Chip) (a : Act) : Chip :=
  let x := c.chan a
  let running := match x.run with | some (.rd _) => true | _ => false
  if !running && (x.waiting false).isEmpty then c
  else ((c.endRunningRead a).endQueuedReads a).raise (chanPage a 0x20) 3

/-! ### Starting the next descriptor (R273, R321, R406) -/

/-- The assist power sent for a head and Annulus: min(AP, AP_MAX) (R340). -/
def Chip.assistPower (c : Chip) (a : Act) (head ann : Nat) : Nat :=
  min (SMap.get (fun _ => 0) (c.chan a).power (haKey head ann)) (c.fld (R.AS_MON a) 23 16)

/-- An Oavin transaction that a descriptor waits for. -/
inductive Need where
  | select | power
  deriving DecidableEq, Repr

/-- What the descriptor still needs over the Oavin link (R331, R406). A re-decode needs nothing. -/
def Chip.need (c : Chip) (a : Act) (d : Desc) : Option Need :=
  let w := d.words
  if !d.write ∧ w.op = 3 then none
  else if (c.chan a).sel ≠ some (w.head % 10, d.write) then some .select
  else if d.write ∧ c.fld (R.AS_CFG a) 1 0 ≠ 0
      ∧ (c.chan a).apSent.find? (w.head % 10) ≠ some (c.assistPower a w.head w.ann) then some .power
  else none

/-- The synthesizer's register of a channel. -/
def synReg : Act → Nat
  | .A => R.CLK_SYN_A
  | .B => R.CLK_SYN_B

/-- The channel's synthesizer is locked at the descriptor's bit rate (R580). -/
def Chip.tuned (c : Chip) (a : Act) (w : DescWords) : Bool :=
  c.bit (synReg a) 31 && c.fld (synReg a) 12 0 == fmtBitrate ((c.chan a).format w.head w.ann)

/-- Calibration holds the channel: a plan, or a direct item of 0, 2 or 3 (R544, R549). -/
def Chip.calOwns (c : Chip) (a : Act) : Bool :=
  c.calibrating a || c.cal.dev.any (fun r => r.act == a && [0, 2, 3].contains r.item)

/-- A self-test of this number runs. -/
def Chip.testing (c : Chip) (n : Nat) : Bool := c.bst.run.any (fun r => r.test == n)

/-- The descriptor at the front may start. A write starts only at offset 0 (R315); none while calibration
holds the channel (R549) or its loop-back is under test (R576). -/
def Chip.mayStart (c : Chip) (a : Act) (d : Desc) : Bool :=
  !c.calOwns a && !c.testing (16 + a.toNat) && (c.need a d).isNone && ((!d.write && d.words.op == 3) || c.tuned a d.words)
    && (!d.write || c.reg (R.CLE_OFS a) == 0)

/-- The soft-buffer entry of a descriptor's first sector (R268, R269). -/
def Chan.softOf (x : Chan) (w : DescWords) : Option Soft :=
  x.soft.find? (fun e => e.head == w.head && e.track == w.track && e.sector == w.sector)

/-- A descriptor starts with a copy of the settings in force (R281, R334). The slot of a re-decode is pending from
its start where it has soft data (R269). -/
def Chip.startDesc (c : Chip) (a : Act) (d : Desc) : Running :=
  let x := c.chan a
  let w := d.words
  if d.write then
    .wr { words := w, taken := d.taken, wrFault := c.fld (R.WR_THRESH a) 7 0, squeeze := c.bit (R.WR_THRESH a) 16
          assist := c.assistForm a w.ann, monLo := c.fld (R.AS_MON a) 7 0, monHi := c.fld (R.AS_MON a) 15 8
          fmt := x.format w.head w.ann, delays := c.pcDelays a w.head w.ann }
  else
    let k := tapKey w.head w.ann (x.target w)
    .rd { words := w, by_ := d.by_, iterFly := c.fld (R.RD_LDPC a) 3 0, iterMax := c.fld (R.RD_LDPC a) 14 8
          win := c.fld (R.RD_SYNC a) 13 8, save := c.bit (R.RD_ADAPT a) 1, setup := c.readSetup a w, tapSet := k
          pend := if w.op = 3 ∧ (x.softOf w).isSome then [0] else []
          taps := (List.range 64).map (fun i => SMap.get tapReset x.taps (k + i)) }

/-- The read path takes the settings of a read that uses the media. -/
def Chip.showSetup (c : Chip) (a : Act) : Running → Chip
  | .rd r => if r.words.op = 3 then c else c.emit (.reads a r.words r.setup)
  | .wr _ => c

/-- Start the front descriptor if it may start and none runs. -/
def Chip.pump (c : Chip) (a : Act) : Chip :=
  let x := c.chan a
  match x.run, x.queue with
  | none, d :: ds =>
    if c.mayStart a d then
      let r := c.startDesc a d
      (c.setChan a { x with run := some r, queue := ds, asked := false }).showSetup a r
    else c
  | _, _ => c

/-! ### Pushing -/

/-- The ladder of a descriptor's sector. -/
def Chan.ladderAt (x : Chan) (w : DescWords) (i : Nat) : Option Ladder :=
  x.ladders.find? (fun l => l.isAt w.head w.track (w.sector + i))

/-- The slots of a pushed read await their sectors for those who wait for them and for `rs` (R25). -/
def Chip.awaitSlots (c : Chip) (a : Act) (w : DescWords) (rs : List Reader) : Chip :=
  if w.op = 0 ∨ w.op = 3 then
    c.fillSlots w (fun i => match (c.chan a).ladderAt w i with
      | some l => l.readers ++ rs.filter (fun r => !l.readers.contains r)
      | none => rs)
  else c

/-- A push of the words in RD_DESC0 to RD_DESC7 (R271, R273), for the readers `rs`. -/
def Chip.rdPush (c : Chip) (a : Act) (w : DescWords) (by_ : DescBy) (rs : List Reader) : Chip :=
  let c := (w.toList.zipIdx).foldl (fun (c : Chip) (e : Word × Nat) => c.setReg (R.RD_DESC a e.2) e.1) c
  let r := c.rdCheck a w
  let c := c.setFld (R.RD_PUSH a) 3 1 r
  if r ≠ 1 then c.fault (chanPage a 0x20) 5
  else
    let c := (c.writeRange w.stat (List.replicate (32 * (w.count + 1)) 0)).awaitSlots a w rs
    c.mapChan a (fun x => { x with queue := x.queue ++ [{ words := w, write := false, by_ := by_ }] })

/-- The result of the latest push. -/
def Chip.rdResult (c : Chip) (a : Act) : Nat := c.fld (R.RD_PUSH a) 3 1

end Machine

end Sys2Proof
end

