-- ==== Sys2Proof/Machine/ReadPath.lean ====
section
/-! DEFINITION. Read descriptors and the retry ladder: pushes (R270), the decision of a sector (R264 to
R277), the ladder of the real-time core (R300 to R314, R627), and the rows that touch them. -/

namespace Sys2Proof.Machine

open Sys2Proof

/-! ### The ladder -/

/-- The track layout of a band (R305): a sector's neighbour on the next track is SPT units further. It is
captured only within the zone's band and below MWP. -/
def Chip.neighbour (c : Chip) (a : Act) (l : Ladder) (up : Bool) : Option Nat :=
  let z := c.zone l.zone
  let spt := fmtSpt ((c.chan a).format l.head l.ann)
  match c.band (bandKey a z.band) with
  | none => none
  | some b =>
    let inBand := decide (z.kind = 1 ∨ z.kind = 2) && z.hasBand && z.gen == l.gen && b.head == l.head
      && zoneAct l.zone == a && decide (b.startTrack ≤ l.track)
    if !inBand then none
    else if up then (if l.unit + spt < z.mwp ∧ l.track < 0xFFFFF then some (l.unit + spt) else none)
    else if spt ≤ l.unit ∧ b.startTrack < l.track ∧ l.unit - spt < z.mwp then some (l.unit - spt) else none

/-- The class with one bin changed (R302), where the changed bin lies in 0 to 3. -/
def classSteps (k : Nat) : List Nat :=
  let age := k / 4
  let temp := k % 4
  (if age < 3 then [k + 4] else []) ++ (if 0 < age then [k - 4] else [])
    ++ (if temp < 3 then [k + 1] else []) ++ (if 0 < temp then [k - 1] else [])

/-- The attempts of a step for a sector whose latest failure the ladder holds (R302). -/
def Chip.attempts (c : Chip) (a : Act) (l : Ladder) (step : Nat) : List Attempt :=
  let d := l.last == .d
  let ds := d || l.last == .s
  match step with
  | 1 => [{}, {}]
  | 2 => if d then [{ op := .redecode }] else []
  | 3 => [{ ofs := 164 }, { ofs := -164 }, { ofs := 328 }, { ofs := -328 }]
  | 4 =>
    let own := field ((c.chan a).cls l.cls) 1 0
    if d then ([0, 1, 2, 3].filter (· != own)).map (fun t => { tgt := some t }) else []
  | 5 =>
    if l.last = .s then [{ pre := true }, { pre := true, shift := 1 }, { pre := true, shift := -1 }]
    else if !d then []
    else if l.early then
      ([1, -1, 2, -2, 3, -3, 4, -4].map (fun s => ({ shift := s } : Attempt))) ++ [{ pre := true }]
    else [{ pre := true }]
  | 6 => if ds then [{ mode := 1 }, { mode := 2 }] else []
  | 7 => if d then (classSteps l.cls).map (fun k => { cls := some k }) else []
  | 8 =>
    let lo := if (c.neighbour a l false).isSome then [{ op := .captureLow }] else []
    let hi := if (c.neighbour a l true).isSome then [{ op := .captureHigh }] else []
    if d && !(lo ++ hi : List Attempt).isEmpty then lo ++ hi ++ [{ iti := true }] else []
  | _ => []

/-- Move to the next attempt: the first of the next step that has one; step 9 where none has. A read with
ITI needs a capture that confirmed (R305). -/
def Chip.advanceLadder (c : Chip) (a : Act) (l : Ladder) : Nat → Ladder
  | 0 => { l with step := 9, todo := [] }
  | n + 1 =>
    match l.todo with
    | t :: _ =>
      if t.iti && l.caps == 0 then c.advanceLadder a { l with todo := [] } n else l
    | [] =>
      let step := l.step + 1
      if 9 ≤ step then { l with step := 9 }
      else
        let todo := c.attempts a l step
        c.advanceLadder a { l with step := step, todo := todo, deep := l.deep || (4 ≤ step && !todo.isEmpty) } n

/-- The failure kind of an attempt (R302). -/
def Outcome.kind (o : Outcome) : FailKind :=
  if o.result = 1 ∨ o.result = 6 then .d
  else if o.result = 2 then .s
  else if o.result = 3 ∨ o.result = 4 then .m
  else .n

/-- The fields of the two events of a ladder (R311, R312). -/
def Ladder.items (l : Ladder) (step : Nat) : List Nat :=
  [l.head, l.track, l.sector, l.zone, l.unit, l.cls, step, l.kind3]

/-- Remove a sector's ladder; an offset it commanded returns to 0. -/
def Chip.removeLadder (c : Chip) (a : Act) (l : Ladder) : Chip :=
  c.setLadders a ((c.chan a).ladders.filter (fun m => !m.isAt l.head l.track l.sector))

/-- Replace a sector's ladder. -/
def Chip.putLadder (c : Chip) (a : Act) (l : Ladder) : Chip :=
  c.setLadders a ((c.chan a).ladders.map (fun m => if m.isAt l.head l.track l.sector then l else m))

/-- A sector reaches step 9 (R312). -/
def Chip.unrecovered (c : Chip) (a : Act) (l : Ladder) : Chip :=
  let c := c.event (actCode a 0x3C02) (l.items 9 ++ [l.lastResult, b2n l.allM])
  let g := c.actLog a
  let c := c.setActLog a { g with unrecovered := g.unrecovered + 1, beyond3 := g.beyond3 + b2n l.deep }
  c.removeLadder a l

/-- A sector confirms (R310, R311). A lost-unit marker is not relocated. -/
def Chip.recovered (c : Chip) (a : Act) (l : Ladder) (marker : Bool) : Chip :=
  let c := c.removeLadder a l
  if l.step < 4 then c
  else
    let c := c.event (actCode a 0x3C01) (l.items l.step)
    let g := c.actLog a
    let c := c.setActLog a { g with beyond3 := g.beyond3 + 1 }
    if marker ∨ (c.zone l.zone).kind = 4 then c
    else { c with loc := { c.loc with relocs := c.loc.relocs ++ [(l.zone, l.unit)] } }

/-- A failed attempt (R302): the next one, or the end of the ladder. Readers without a ladder leave: a
cleaning verify at its first failure, a probe at a sync miss or blank of step 0 (R300). -/
def Chip.attemptFailed (c : Chip) (a : Act) (l : Ladder) (o : Outcome) (kind : FailKind) : Chip :=
  let l := { l with
    failed := true, last := kind, early := o.early, lastResult := o.result, allM := l.allM && kind == .m
    kind3 := if l.step = 3 then kind.code else l.kind3
    todo := l.todo.drop 1, repeats := 0, again := false, flying := false }
  let stay := l.readers.filter (fun r => match r with
    | .verify => false
    | .probe => !(l.step == 0 && kind == .m)
    | _ => true)
  if stay.isEmpty then c.removeLadder a l
  else
    let l := c.advanceLadder a { l with readers := stay } 20
    if l.step = 9 then c.unrecovered a l else c.putLadder a l

/-- An attempt of a sector on the ladder ends (R301, R302, R304). -/
def Chip.attemptDone (c : Chip) (a : Act) (l : Ladder) (o : Outcome) : Chip :=
  let marker := (o.info.getD 19 0).toNat % 8 == 3
  if o.conf then c.recovered a l marker
  else if o.decOk ∧ o.seedOk ∧ l.repeats < 2 then
    c.putLadder a { l with repeats := l.repeats + 1, flying := false }
  else
    let redecode : Bool := match l.todo with
      | t :: _ => t.op == .redecode
      | [] => false
    if redecode ∧ o.result = 6 ∧ !l.reread then
      c.putLadder a { l with reread := true, todo := {} :: l.todo, flying := false }
    else if l.step = 2 ∧ !redecode ∧ o.result = 1 then
      c.putLadder a { l with todo := l.todo.drop 1, flying := false, last := .d, early := o.early }
    else if l.step = 2 ∧ !redecode then
      c.attemptFailed a { l with todo := l.todo.drop 1 } o o.kind
    else if 3 ≤ l.step ∧ o.result = 1 ∧ !l.again then
      c.putLadder a { l with again := true, flying := false, early := o.early }
    else if l.again ∧ (o.result = 1 ∨ o.result = 6) then
      c.attemptFailed a l { o with early := l.early } .d
    else c.attemptFailed a l o o.kind

/-- The descriptor words of an attempt for the sectors `n` from the ladder's own on (R301, R302). -/
def Chip.attemptWords (c : Chip) (a : Act) (l : Ladder) (t : Attempt) (n : Nat) : DescWords :=
  let capture := t.op == .captureLow || t.op == .captureHigh
  let track := if t.op = .captureLow then l.track - 1 else if t.op = .captureHigh then l.track + 1 else l.track
  let unit := if capture then (c.neighbour a l (t.op == .captureHigh)).getD 0 else l.unit
  let op := if capture then 2 else if l.again || t.op == .redecode then 3 else l.op
  let w3 := unit + (t.cls.getD l.cls) * 2 ^ 16 + (t.tgt.getD 0) * 2 ^ 20 + b2n t.tgt.isSome * 2 ^ 22
    + t.mode * 2 ^ 23 + unsigned 4 t.shift * 2 ^ 25 + b2n t.pre * 2 ^ 29 + b2n t.iti * 2 ^ 30
  { w0 := BitVec.ofNat 32 (track + l.head * 2 ^ 20 + op * 2 ^ 25 + l.ann * 2 ^ 27)
    w1 := BitVec.ofNat 32 (l.sector + n * 2 ^ 16)
    w2 := BitVec.ofNat 32 (l.zone + l.gen * 2 ^ 19 + b2n (l.seedAny && !capture) * 2 ^ 31)
    w3 := BitVec.ofNat 32 w3
    w4 := BitVec.ofNat 32 l.data, w5 := BitVec.ofNat 32 (l.data / 2 ^ 32)
    w6 := BitVec.ofNat 32 l.stat, w7 := BitVec.ofNat 32 (l.stat / 2 ^ 32) }

/-- Two ladders stand at the same attempt of one track (R306). -/
def Ladder.together (l m : Ladder) : Bool :=
  m.head == l.head && m.track == l.track && m.step == l.step && m.todo == l.todo && m.again == l.again
    && m.ann == l.ann && m.zone == l.zone && m.gen == l.gen && m.cls == l.cls && m.op == l.op
    && m.seedAny == l.seedAny

/-- The ladder of the next sector of a run, `i` sectors on. -/
def Ladder.follows (l m : Ladder) (i : Nat) : Bool :=
  m.sector == l.sector + i && m.unit == l.unit + i && m.data == l.data + 4096 * i && m.stat == l.stat + 32 * i

/-- Length of the contiguous run of waiting sectors that begins with a ladder. -/
def runLength (ls : List Ladder) (l : Ladder) : Nat → Nat → Nat
  | 0, i => i
  | n + 1, i => if ls.any (fun m => l.follows m i) then runLength ls l n (i + 1) else i

/-- Push one run of a round, and proceed by the RESULT (R306, R627). -/
def Chip.pushRun (c : Chip) (a : Act) (l : Ladder) (t : Attempt) (ms : List Ladder) : Chip :=
  let capture := t.op == .captureLow || t.op == .captureHigh
  let one := l.again || t.op != .read
  let n := if one then 1 else runLength ms l 511 1
  let by_ : DescBy := if capture then .capture l.head l.track l.sector else .ladder
  let c := c.rdPush a (c.attemptWords a l t (n - 1)) by_ []
  let hit (m : Ladder) : Bool := m.head == l.head && m.track == l.track && decide (l.sector ≤ m.sector)
    && decide (m.sector < l.sector + n)
  let r := c.rdResult a
  if r = 1 then
    c.mapChan a (fun x => { x with ladders := x.ladders.map (fun (m : Ladder) =>
      if hit m then { m with flying := true } else m) })
  else if r = 2 then c
  else if r = 7 then c.stopLadders a
  else if r = 3 ∧ c.outOfService a then c.setLadders a ((c.chan a).ladders.filter (fun m => !hit m))
  else ((c.chan a).ladders.filter hit).foldl
    (fun c (m : Ladder) => c.unrecovered a { m with lastResult := 7 }) c

/-- The sectors that begin a run: no sector before them stands at the same attempt. -/
def runHeads (ms : List Ladder) : List Ladder :=
  ms.filter (fun l => !ms.any (fun m => m.follows l 1))

/-- The next round of the ladder, once no attempt of the channel is in flight (R306): the sectors at the
attempt of the ladder longest on the list; step 8 is taken by one sector at a time. -/
def Chip.ladderRound (c : Chip) (a : Act) : Chip :=
  let ls := (c.chan a).ladders
  if ls.any (·.flying) || c.lostNow a || c.calibrating a || !c.alive then c
  else match ls with
    | [] => c
    | l :: _ =>
      match l.todo with
      | [] => c
      | t :: _ =>
        let ms := if l.step = 8 then [l] else ls.filter l.together
        let c := if l.step = 3 then c.setReg (R.CLE_OFS a) (BitVec.ofNat 32 (unsigned 16 t.ofs))
          else if c.reg (R.CLE_OFS a) ≠ 0 then c.setReg (R.CLE_OFS a) 0 else c
        (if l.again || t.op != .read then ms else runHeads ms).foldl (fun c m => c.pushRun a m t ms) c

/-- The channel goes on: the next round of the ladder, then the next descriptor. -/
def Chip.runChannel (c : Chip) (a : Act) : Chip := (c.ladderRound a).pump a

/-! ### Pushes (R270, R273) -/

/-- The sectors of a pushed read begin their ladders (R301). -/
def ladderOf (w : DescWords) (r : Reader) (i : Nat) : Ladder :=
  { head := w.head, track := w.track, sector := w.sector + i, ann := w.ann, zone := w.zone, gen := w.gen
    unit := w.unit + i, cls := w.cls, op := w.op, seedAny := w.seedAny
    data := w.data + 4096 * i, stat := w.stat + 32 * i, readers := [r] }

/-- A reader joins the ladders of sectors already there (R314); the others begin. -/
def Chan.join (x : Chan) (w : DescWords) (r : Reader) : Chan :=
  w.offsets.foldl (fun (x : Chan) i =>
    let at_ (l : Ladder) : Bool := l.isAt w.head w.track (w.sector + i)
    if x.ladders.any at_ then
      { x with ladders := x.ladders.map (fun (l : Ladder) =>
          if at_ l && !l.readers.contains r then { l with readers := l.readers ++ [r] } else l) }
    else { x with ladders := x.ladders ++ [ladderOf w r i] }) x

/-- A reader joins, and is served by the slots of the ladders it joins. -/
def Chip.join (c : Chip) (a : Act) (w : DescWords) (r : Reader) : Chip :=
  let c := (w.offsets.filterMap ((c.chan a).ladderAt w)).foldl (fun (c : Chip) l => c.shareSlot l.data r) c
  c.mapChan a (fun x => x.join w r)

/-- RD_PUSH.GO with an OP (R270 to R273). A read the real-time core makes for a reader climbs the ladder;
one whose sectors are all on it already joins and pushes nothing (R314). -/
def rdDesc (c : Chip) (a : Act) (op : Nat) (w : DescWords) (reader : Option Reader) : Chip :=
  if !c.alive then c
  else
    let w := w.withOp op
    match reader with
    | none => (c.rdPush a w .firmware []).runChannel a
    | some r =>
      let all := w.offsets.all (fun i =>
        (c.chan a).ladders.any (fun l => l.isAt w.head w.track (w.sector + i)))
      if all then c.join a w r
      else
        let c := c.rdPush a w .original [r]
        if c.rdResult a = 1 then (c.join a w r).runChannel a else c

/-- RD_DESC_READ (R270). -/
def execRdDescRead (a : Act) (w : DescWords) (r : Option Reader) (s : State) :
    Host.Outcome State Fault Refusal := s.next (rdDesc s.chip a 0 w r)

/-- RD_DESC_VERIFY (R275). -/
def execRdDescVerify (a : Act) (w : DescWords) (r : Option Reader) (s : State) :
    Host.Outcome State Fault Refusal := s.next (rdDesc s.chip a 1 w r)

/-- RD_DESC_CAPTURE (R275). -/
def execRdDescCapture (a : Act) (w : DescWords) (s : State) : Host.Outcome State Fault Refusal :=
  s.next (rdDesc s.chip a 2 w none)

/-- RD_DESC_REDECODE (R269). -/
def execRdDescRedecode (a : Act) (w : DescWords) (s : State) : Host.Outcome State Fault Refusal :=
  s.next (rdDesc s.chip a 3 w none)

/-! ### The decision of a sector (R264 to R277) -/

/-- The seed read matches ZONE, GEN and the unit expected (R274). -/
def seedOk (w : DescWords) (i : Nat) (info : List Byte) : Bool :=
  let s := leAt info 0 8
  w.seedAny || (s % 2 ^ 19 == w.zone && s / 2 ^ 19 % 65536 == w.unit + i && s / 2 ^ 35 % 256 == w.gen)

/-- The outcome of a decode of at most `limit` iterations (R267): one that converges with a CRC that does not match
is a decode failure. -/
def decodeOutcome (w : DescWords) (i : Nat) (servo : Bool) (limit : Nat) (s : Sense) : Outcome :=
  match s.sector with
  | some x =>
    if s.iter ≤ limit then
      if x.crcOk then
        { result := 0, decOk := true, seedOk := seedOk w i x.info, servoOk := servo, iter := max 1 s.iter
          info := x.info }
      else { result := 1, servoOk := servo, iter := max 1 s.iter }
    else { result := 1, servoOk := servo, iter := limit }
  | none => { result := 1, servoOk := servo, iter := limit }

/-- The outcome of a sector read from the media with a sync pattern (R262 to R267). -/
def mediaOutcome (pattern : Word) (r : RdRun) (i : Nat) (servo : Bool) (s : Sense) : Outcome :=
  let w := r.words
  let blank := s.blank r.setup.blank
  let o := decodeOutcome w i servo r.iterFly s
  if w.syncPre then
    if o.decOk ∨ !blank then { o with preSeen := s.preSeen }
    else { result := 4, servoOk := servo, preSeen := s.preSeen }
  else match syncFound pattern r.setup.tol r.win s.window with
    | some m => { o with early := o.result == 1 && decide (m < 0), preSeen := s.preSeen, ofs := m }
    | none =>
      { result := if s.preSeen then 2 else if blank then 4 else 3, servoOk := servo, preSeen := s.preSeen }

/-- The slot of a sector that has received data (R253, R260, R276): the confirmed bytes as SEC decrypts them, the
fixed bytes of a lost-unit marker, or undefined bytes, as also where the key is destroyed. -/
def Chip.fillSlot (c : Chip) (a : Act) (w : DescWords) (i : Nat) (o : Outcome) (s : Sense) : Chip :=
  let addr := w.data + 4096 * i
  let typ := (o.info.getD 19 0).toNat % 8
  let free := c.takeFree 32768
  let undefined_ := free.2.writeRange addr (leBytes 4096 free.1.toNat)
  if !o.conf ∨ typ = 4 then undefined_
  else if typ = 3 then c.writeRange addr (List.replicate 4096 0xA5)
  else match s.sector, c.sectorKey a typ w.head w.track with
    | some x, some key =>
      c.writeRange addr (leBytes 4096 (Config.xtsDecrypt key (xtsTweak w.head w.track (w.sector + i)) x.data).toNat)
    | _, _ => undefined_

/-- Keep a failed sector's soft output (R268). -/
def Chip.keepSoft (c : Chip) (a : Act) (e : Soft) : Chip :=
  let x := c.chan a
  let rest := x.soft.filter (fun f => !(f.head == e.head && f.track == e.track && f.sector == e.sector))
  if 16 ≤ rest.length then
    (c.setChan a { x with soft := rest.drop 1 ++ [e] }).raise (chanPage a 0x20) 2
  else c.setChan a { x with soft := rest ++ [e] }

/-- A reader has a confirmed sector (R26): a command, a running job, or the work of the Segment Store. -/
def Chip.served (c : Chip) (a : Act) (zone unit : Nat) : Reader → Chip
  | .host i q d => match c.nvq.find i q d with
    | some x => c.mapCmd x.seq (fun y => { y with got := insertNat y.got (unitKey zone unit) })
    | none => c
  | .background => { c with seg := { c.seg with got := insertNat c.seg.got (unitKey zone unit) } }
  | .copy => c.jobTook a .copy zone unit
  | .verify => c.jobTook a .verify zone unit
  | _ => c

/-- A sector confirms: its slot's flag becomes 1 (R25), and those who wait for it have it (R26). -/
def Chip.confirmed (c : Chip) (a : Act) (w : DescWords) (i : Nat) : Chip :=
  let c := if w.op = 0 ∨ w.op = 3 then c.confirmSlot (w.data + 4096 * i) else c
  let rs := if w.op = 2 then [] else (((c.chan a).ladderAt w i).map Ladder.readers).getD []
  rs.foldl (fun (c : Chip) r => c.served a w.zone (w.unit + i) r) c

/-- The ladder hears of a decided sector or capture. -/
def Chip.tellLadder (c : Chip) (a : Act) (r : RdRun) (i : Nat) (o : Outcome) : Chip :=
  let w := r.words
  match r.by_ with
  | .firmware => c
  | .capture h t n =>
    match (c.chan a).ladders.find? (fun l => l.isAt h t n) with
    | none => c
    | some l =>
      if o.result = 5 then c.putLadder a { l with flying := false }
      else
        let l := c.advanceLadder a
          { l with todo := l.todo.drop 1, flying := false, caps := l.caps + b2n o.conf } 20
        if l.step = 9 then c.unrecovered a l else c.putLadder a l
  | _ =>
    match (c.chan a).ladders.find? (fun l => l.isAt w.head w.track (w.sector + i)) with
    | none => c
    | some l =>
      if r.by_ == .original && l.step != 0 then
        (if o.conf then c.removeLadder a l else c)
      else c.attemptDone a l o

/-- What a descriptor's end leaves besides its record: a capture enters the store of two (R275), and SAVE
writes the taps back where every sector confirmed (R280). -/
def Chip.rdFinish (c : Chip) (a : Act) (r : RdRun) (adapted : List (BitVec 12)) : Chip :=
  let w := r.words
  let good := r.decided.all (·.2)
  let taken : Capture := ⟨w.head, w.track, w.sector, r.captured, r.decided.map (·.2)⟩
  let c := if w.op = 2 then
      c.mapChan a (fun x =>
        { x with captures := (x.captures ++ [taken]).drop (x.captures.length - 1) })
    else c
  let c := if r.save ∧ good ∧ w.op ≠ 3 then
      let ts := if adapted.length = 64 then adapted.map BitVec.toNat else r.taps
      let put (m : SMap Nat) (e : Nat × Nat) : SMap Nat := SMap.put tapReset m (r.tapSet + e.2) e.1
      c.mapChan a (fun x => { x with taps := ts.zipIdx.foldl put x.taps })
    else c
  (c.mapChan a (fun x => { x with run := none })).rdDone a w.tag (!good)

/-- A sector is decided with an outcome (R275 to R277). -/
def Chip.decide_ (c : Chip) (a : Act) (r : RdRun) (i : Nat) (o : Outcome) (s : Sense)
    (adapted : List (BitVec 12)) : Chip :=
  let w := r.words
  let c := if (w.op = 0 ∨ w.op = 3) ∧ o.result ≠ 6 then c.fillSlot a w i o s else c
  let c := if o.result = 1 ∧ w.op ≠ 3 then
      c.keepSoft a ⟨w.head, w.track, w.sector + i, w, o.servoOk⟩ else c
  let c := c.writeStatus w i o
  let c := if o.conf then ((c.bump (R.RD_CNT_CONF a)).addSat (R.RD_CNT_ITER a) o.iter).confirmed a w i else c
  let r := { r with
    pend := r.pend.filter (· != i), decided := r.decided ++ [(i, o.conf)]
    captured := if w.op = 2 then r.captured ++ [s] else r.captured }
  let c := c.mapChan a (fun x => { x with run := some (.rd r) })
  let c := c.tellLadder a r i o
  if r.decided.length = w.count + 1 then (c.rdFinish a r adapted).runChannel a else c

/-- A sector's decode result and trailing sample are both known (R274): `inside` samples fell inside it. A
re-decode needs its soft-buffer entry (R269); a media read needs the gate to have been allowed before it. -/
def sectorDecided (c : Chip) (a : Act) (i inside : Nat) (s : Sense) (adapted : List (BitVec 12)) : Chip :=
  if !c.alive then c
  else match (c.chan a).run with
    | some (.rd r) =>
      let w := r.words
      if w.count < i ∨ r.decided.any (fun e => e.1 == i) then c
      else if w.op = 3 then
        match (c.chan a).softOf w with
        | none => c.decide_ a r i { result := 6 } s adapted
        | some e => c.decide_ a r i (decodeOutcome w i e.servoOk r.iterMax s) s adapted
      else
        let vs := (c.chan a).verdicts.take (inside + 2)
        if vs.length < inside + 2 ∨ !(vs.getLastD ⟨false, false⟩).gate then c
        else c.decide_ a r i (mediaOutcome (c.reg (R.SYNC_PAT a)) r i (vs.all (·.pass)) s) s adapted
    | _ => c

/-- SECTOR_DECIDED (R275). -/
def execSectorDecided (a : Act) (index inside : Nat) (sense : Sense) (adapted : List (BitVec 12)) (s : State) :
    Host.Outcome State Fault Refusal := s.next (sectorDecided s.chip a index inside sense adapted)

/-- RD_ABORT (R286). -/
def execRdAbort (a : Act) (s : State) : Host.Outcome State Fault Refusal :=
  s.next (if s.chip.alive then (s.chip.abortReads a).runChannel a else s.chip)

/-- FMT_LOCK (R288). -/
def execFmtLock (a : Act) (s : State) : Host.Outcome State Fault Refusal :=
  s.next (if s.chip.alive then s.chip.setBit (R.FMT_LOCK a) 0 true else s.chip)

/-- No ladder waits for any undecided sector of a read the real-time core made. -/
def Chan.orphan (x : Chan) (w : DescWords) (by_ : DescBy) (is : List Nat) : Bool :=
  match by_ with
  | .firmware => false
  | .capture h t n => !x.ladders.any (fun l => l.isAt h t n)
  | _ => !is.any (fun i => x.ladders.any (fun l => l.isAt w.head w.track (w.sector + i)))

/-- Reads that nobody waits for any longer end with RESULT 5 (R309). -/
def Chip.endOrphans (c : Chip) (a : Act) : Chip :=
  let x := c.chan a
  let c := match x.run with
    | some (.rd r) => if x.orphan r.words r.by_ r.open_ then c.endRunningRead a else c
    | _ => c
  let gone (d : Desc) : Bool := !d.write && x.orphan d.words d.by_ d.words.offsets
  let c := c.mapChan a (fun y => { y with queue := y.queue.filter (fun d => !gone d) })
  (x.queue.filter gone).foldl (fun c d => c.endRead a d.words d.by_ d.words.offsets) c

/-- Ladders were stopped: their attempts in progress end, and the channels go on. -/
def Chip.ladderStopped (c : Chip) : Chip :=
  (((c.endOrphans .A).endOrphans .B).runChannel .A).runChannel .B

/-- ABORT (R137): an aborted read's ladder stops (R314). -/
def execAbort (cntl : Fin 2) (cid : Nat) (abortWins : Bool) (s : State) :
    Host.Outcome State Fault Refusal := s.done (abort s.chip cntl.val cid abortWins).ladderStopped

/-! ### Retry budget (R142, R144, R309, R313) -/

/-- A command's retry budget expires (R142, R144): not ready while it waits for a lost actuator or for a page not yet
recovered; a read's ladders stop, and it is unrecovered, with an event that names the highest step reached. -/
def retryBudgetExpiry (c : Chip) (i qid cid : Nat) : Chip :=
  if !c.alive || c.inHoldup || c.fld R.NVQ_TLER 15 0 == 0 then c
  else match c.nvq.find i qid cid with
    | none => c
    | some x =>
      let reads := if x.cmd.nsid = 4 then x.cmd.opcode = 0x02
        else x.cmd.opcode = 0x02 ∨ x.cmd.opcode = 0x0C
      let waits : Bool := (nsActs x.cmd.nsid).any c.lostNow || (c.sys.mode == .rebuild && x.resolved.isEmpty)
      if qid = 0 ∨ x.issued.isNone ∨ x.result.isSome then c
      else if x.phase = .fetched then
        if waits then (c.raise 0x11 3).fail x (0, 0x82, false) else c
      else if ¬ reads ∨ x.phase ≠ .working then c
      else
        let r : Reader := .host i qid cid
        let step := (c.laddersOf r).foldl (fun m l => max m l.step) 0
        let c := (((c.countStopped r .A).countStopped r .B).dropReader r).ladderStopped.raise 0x11 3
        if waits then
          c.fail x (0, 0x82, false)
        else (c.event 0x2801 [i + 1, qid, cid, step]).fail x (2, 0x81, false)

/-- RETRY_BUDGET_EXPIRY (R142). -/
def execRetryBudgetExpiry (cntl : Fin 2) (qid cid : Nat) (s : State) :
    Host.Outcome State Fault Refusal := s.done (retryBudgetExpiry s.chip cntl.val qid cid)

end Sys2Proof.Machine
end

