-- ==== Sys2Proof/Machine/WritePath.lean ====
section
/-! DEFINITION. The write path and energy assist (R315 to R340, R628): pushes, tries, faults, tail closure,
aborts, and what a written descriptor leaves in Locus. -/

namespace Sys2Proof.Machine

open Sys2Proof

/-! ### Pushes (R319, R320) -/

/-- WR_PUSH.RESULT of a push (R320): the first failing check, or 1. -/
def Chip.wrCheck (c : Chip) (a : Act) (w : DescWords) : Nat :=
  let x := c.chan a
  let f := x.format w.head w.ann
  let n := w.count + 1
  let noPower : Bool := c.fld (R.AS_CFG a) 1 0 != 0
    && SMap.get (fun _ => 0) x.power (haKey w.head w.ann) == 0
  if 16 ≤ (x.waiting true).length then 2
  else if w.head / 10 ≠ a.toNat ∨ c.outOfService a ∨ fmtBitrate f = 0 ∨ noPower then 3
  else if fmtSpt f ≤ w.sector ∨ fmtSpt f < w.sector + n ∨ 65535 < w.unit + w.count then 4
  else if w.data % 4096 ≠ 0 ∨ w.stat % 16 ≠ 0 ∨ (w.op = 0 ∧ !c.stageable w.data (4096 * n))
      ∨ !c.stageable w.stat w.statBytes then 5
  else if 1 < w.op ∨ (w.op = 0 ∧ ¬ (w.typ = 0 ∨ w.typ = 1 ∨ w.typ = 2 ∨ w.typ = 5)) then 6
  else if c.inHoldup then 7
  else 1

/-- WR_PUSH.GO with an OP (R319, R320). -/
def wrDesc (c : Chip) (a : Act) (op : Nat) (w : DescWords) : Chip :=
  if !c.alive then c
  else
    let w := w.withOp op
    let c := (w.toList.zipIdx).foldl (fun (c : Chip) (e : Word × Nat) => c.setReg (R.WR_DESC a e.2) e.1) c
    let r := c.wrCheck a w
    let c := c.setFld (R.WR_PUSH a) 3 1 r
    if r ≠ 1 then c.fault (chanPage a 0x21) 5
    else (c.mapChan a (fun x => { x with queue := x.queue ++
      [{ words := w, write := true, by_ := .firmware, taken := c.nvq.staged }] })).runChannel a

/-- WR_DESC_WRITE (R319). -/
def execWrDescWrite (a : Act) (w : DescWords) (s : State) : Host.Outcome State Fault Refusal :=
  s.next (wrDesc s.chip a 0 w)

/-- WR_DESC_FILL (R319). -/
def execWrDescFill (a : Act) (w : DescWords) (s : State) : Host.Outcome State Fault Refusal :=
  s.next (wrDesc s.chip a 1 w)

/-! ### Where a descriptor writes -/

/-- The band a descriptor writes into, none in the conventional region (R326). -/
def Chip.bandWritten (c : Chip) (a : Act) (w : DescWords) : Option Nat :=
  if w.op = 0 ∧ (w.typ = 1 ∨ w.typ = 2) then none else c.bandOver a w.head w.track

/-- The stamps of a zone after one write descriptor at a temperature (R190). -/
def Zone.stamp (z : Zone) (first : Bool) (wtime temp : Nat) : Zone :=
  if first then { z with wtime := wtime, tmin := temp, tmax := temp }
  else if temp = 0xFF ∨ (z.tmin = 0xFF ∧ z.tmax = 0xFF) then { z with tmin := 0xFF, tmax := 0xFF }
  else { z with tmin := min z.tmin temp, tmax := max z.tmax temp }

/-- The zone has not been written since it was Empty. -/
def Zone.unstamped (z : Zone) : Bool := z.wtime == 0 && z.tmin == 0xFF && z.tmax == 0

/-- A staged copy of an LBA that a descriptor took: one staged before the descriptor was pushed. -/
def Staged.holds (u : Staged) (taken zone unit : Nat) : Bool :=
  u.zone == zone && decide (u.stamp < taken ∧ u.unit ≤ unit) && (u.data.find? (unit - u.unit)).isSome

/-- The staged copies of an LBA that a descriptor took are on the media. -/
def Chip.landUnit (c : Chip) (taken zone unit : Nat) : Chip :=
  { c with nvq := { c.nvq with staging := c.nvq.staging.map (fun (u : Staged) =>
      if u.holds taken zone unit then { u with media := insertNat u.media (unit - u.unit) } else u) } }

/-- Operating time in the unit of WTIME. -/
def Chip.wtimeNow (c : Chip) : Nat := c.jnl.optime / 16 % 2 ^ 24

/-- The zone takes the stamps of one write descriptor (R190), and the time of its latest media write (R207). -/
def Chip.stampZone (c : Chip) (zone temp : Nat) (first : Bool) : Chip :=
  let z := c.zone zone
  c.setZone zone { (z.stamp (first || z.unstamped) c.wtimeNow temp) with lastMedia := c.dtm.dtime }

/-- A unit is on the media in its zone's space (R184, R186, R206): in a band only at the append point, since a later
unit never reaches it before an earlier one, and not while the zone is CLEANING (R234). A redirection made before
ends with the advance (R200). -/
def Chip.landZone (c : Chip) (a : Act) (w : DescWords) (taken temp zone unit : Nat) : Chip :=
  let z := c.zone zone
  if z.kind = 3 then (c.landUnit taken zone unit).stampZone zone temp false
  else if z.kind = 4 then c.stampZone zone temp false
  else if z.cleaning ∨ unit ≠ z.written ∨ c.bandOfZone zone ≠ c.bandOver a w.head w.track then c
  else
    let passed := if (c.hotOf zone unit).isSome then insertNat z.passed unit else z.passed
    ((c.landUnit taken zone unit).setZone zone { z with written := unit + 1, passed := passed }).stampZone zone
      temp false

/-- Sectors of the media cache ring, at most 2^27 (R181). -/
def Loc.mcSectors (l : Loc) (a : Act) : Nat := min (l.format a).mcSize (2 ^ 27)

/-- The ring of the media cache: the next sector (R181). -/
def Loc.mcNext (l : Loc) : Act → Nat
  | .A => l.mcNextA
  | .B => l.mcNextB

def Loc.advanceMc (l : Loc) (a : Act) : Loc :=
  let n := if l.mcSectors a ≤ l.mcNext a + 1 then 0 else l.mcNext a + 1
  match a with
  | .A => { l with mcNextA := n }
  | .B => { l with mcNextB := n }

/-- An LBA of the zone staged earlier than a unit still has to reach the media cache: its media-cache writes are issued
in acceptance order (R206). -/
def Chip.cacheBefore (c : Chip) (taken zone unit : Nat) : Bool :=
  let z := c.zone zone
  let us := c.nvq.staging.filter (fun u => u.zone == zone)
  us.any (fun u => u.holds taken zone unit && us.any (fun v => decide (v.stamp < u.stamp) &&
    v.data.any (fun e => !v.media.contains e.1 && v.unit + e.1 != unit
      && (z.cleaning || decide (v.unit + e.1 < z.written)))))

/-- One sector of a media-cache descriptor is on the media (R181, R190, R200, R243): it takes the ring's next place,
which is no longer stale, and its KIND 4 zone's stamps restart where the ring begins to rewrite the zone. The sector
is stale at once where its seed's GEN is not the zone's, or it comes before an earlier one of its zone. -/
def Chip.landCache (c : Chip) (a : Act) (taken temp : Nat) (seed : Nat × Nat × Nat) : Chip :=
  let csec := c.loc.mcNext a
  let c := ({ c with loc := c.loc.advanceMc a }).clearStale a csec
  let c := c.stampZone (c.mcZone a csec) temp (csec % 65536 == 0)
  if (c.zone seed.1).gen ≠ seed.2.2 ∨ ((c.zone seed.1).kind = 2 ∧ c.cacheBefore taken seed.1 seed.2.1) then
    c.markStale a csec
  else (c.landUnit taken seed.1 seed.2.1).redirect a seed.1 seed.2.1 csec

/-- What the sectors a descriptor has written leave in Locus. A record of an earlier life of a zone leaves nothing
(R191); device metadata leaves its stamps in KIND 4 space (R190). -/
def Chip.landed (c : Chip) (a : Act) (r : WrRun) : Chip :=
  let w := r.words
  if w.op ≠ 0 then c
  else
    (List.range r.next).foldl (fun (c : Chip) i =>
      let s := c.seedOf w i
      if w.typ = 1 then c.landCache a r.taken r.temp s
      else if (c.zone s.1).gen ≠ s.2.2 ∨ (w.typ = 2 ∧ (c.zone s.1).kind ≠ 4) then c
      else c.landZone a w r.taken r.temp s.1 s.2.1) c

/-! ### The end of a descriptor (R328, R335) -/

/-- A write descriptor is done: its status record, words 1 to 3 first (R335). -/
def Chip.wrRecord (c : Chip) (a : Act) (r : WrRun) (result : Nat) : Chip :=
  let w := r.words
  let w0 := 1 + 2 * result + 16 * min r.tries 3 + 256 * r.cause + 65536 * r.next
  let w1 := r.next + 65536 * r.poisoned.length
  let w2 := r.wedge + 65536 * r.pes
  let c := c.writeRange (w.stat + 4) (leBytes 4 w1 ++ leBytes 4 w2 ++ leBytes 4 0)
  let c := c.writeRange w.stat (leBytes 4 w0)
  let k := R.WR_DONE a
  let c := c.setReg k (BitVec.ofNat 32 (w.tag + (c.fld k 31 16 + 1) % 65536 * 65536))
  let c := c.raise (chanPage a 0x21) 0
  let c := if r.poisoned.isEmpty then c
    else (c.event (actCode a 0x4003) [w.tag, r.poisoned.length]).raise (chanPage a 0x21) 3
  if result = 3 then c.raise (chanPage a 0x21) 4 else c

/-- A descriptor that never began ends. -/
def Chip.wrUnwritten (c : Chip) (a : Act) (w : DescWords) (result : Nat) : Chip :=
  c.wrRecord a { words := w, wrFault := 0, squeeze := false, assist := {}, monLo := 0, monHi := 0, fmt := 0,
                  delays := [] } result

/-- The sectors of the try count as written (R325, R331). -/
def Chip.settleTry (c : Chip) (a : Act) (r : WrRun) : Chip × WrRun :=
  (c.addSat (R.WR_CNT_SECT a) (r.next - r.tryFirst), { r with tryFirst := r.next, monDue := false })

/-- The running write ends with a RESULT. -/
def Chip.endWrite (c : Chip) (a : Act) (r : WrRun) (result : Nat) : Chip :=
  let p := c.settleTry a r
  let c := p.1.mapChan a (fun x => { x with run := none, asked := false })
  (c.wrRecord a p.2 result).landed a p.2

/-- Every queued write that `p` picks ends without writing. -/
def Chip.endQueuedWrites (c : Chip) (a : Act) (p : DescWords → Bool) (result : Nat) : Chip :=
  let ds := (c.chan a).queue.filter (fun d => d.write && p d.words)
  let c := c.mapChan a (fun x => { x with queue := x.queue.filter (fun d => !(d.write && p d.words)) })
  ds.foldl (fun c d => c.wrUnwritten a d.words result) c

/-- The channel's writes end with RESULT 2 (R325, R334). -/
def Chip.endWrites (c : Chip) (a : Act) : Chip :=
  let c := match (c.chan a).run with
    | some (.wr r) => c.endWrite a r 2
    | _ => c
  c.endQueuedWrites a (fun _ => true) 2

/-- Tail closure (R328): the descriptor and every queued one of its ZONE and GEN end, MWP is committed at
the first unit not written, and the band is SUSPECT; a cleaning destination is abandoned (R235). -/
def Chip.closeTail (c : Chip) (a : Act) (r : WrRun) (k : Nat) : Chip :=
  let w := r.words
  let c := c.endWrite a r 1
  let c := c.endQueuedWrites a (fun v => v.zone == w.zone && v.gen == w.gen) 1
  let c := (c.event (actCode a 0x4002) [w.head, w.track, w.zone, w.unit + r.next]).bump (R.WR_CNT_CLOSE a)
  let c := c.raise (chanPage a 0x21) 2
  let dest : Bool := match c.bcl.job a with
    | some j => j.begun && j.dst == k
    | none => false
  if dest then c.abandonJob a (c.worn k)
  else (c.commitMwp w.zone).suspectBand k

/-- A descriptor of the conventional region has used its three tries (R326). -/
def Chip.closeConventional (c : Chip) (a : Act) (r : WrRun) : Chip :=
  let w := r.words
  (c.endWrite a r 1).event (actCode a 0x4002) [w.head, w.track, (c.seedOf w 0).1, w.unit + r.next]

/-! ### Tries (R325 to R329) -/

/-- An assist fault of the head (R338). -/
def Chip.assistFault (c : Chip) (a : Act) (head code : Nat) : Chip :=
  let x := c.chan a
  let n := SMap.get (fun _ => 0) x.faults (head % 10)
  let c := c.setChan a { x with faults := SMap.put (fun _ => 0) x.faults (head % 10) (satSucc n 0xFFFFFFFF) }
  c.setFld (R.AS_STATUS a) 3 0 code

/-- A try is faulted (R325, R326): counted, recorded, and either repeated on the next revolution or the
last of three. `sector` is the offset the event names. -/
def Chip.faultTry (c : Chip) (a : Act) (r : WrRun) (cause sector : Nat) : Chip :=
  let w := r.words
  let sv := R.SV_SAMPLE a
  let wedge := c.fld sv 25 16
  let pes := c.fld sv 15 0
  let r := { r with inTry := false, cur := none, cause := cause, wedge := wedge, pes := pes, fresh := true }
  let c := (c.event (actCode a 0x4001)
    [w.head, w.track, w.sector + sector, wedge, unsigned 64 (signed 16 pes), cause]).bump (R.WR_CNT_FAULT a)
  let c := c.raise (chanPage a 0x21) 1
  let c := c.mapChan a (fun x => { x with run := some (.wr r) })
  match c.bandWritten a w with
  | some k =>
    let c := c.mapBand k (fun b => { b with wfaults := min 3 (b.wfaults + 1) })
    let n := match c.band k with
      | some b => b.wfaults
      | none => 0
    if r.tries = 3 ∨ n = 3 then c.closeTail a r k else c
  | none => if r.tries = 3 then c.closeConventional a r else c

/-- A fault takes the gates down in a try, or joins the fault of the same sample interval (R334). -/
def Chip.dropGate (c : Chip) (a : Act) (cause : Nat) : Chip :=
  match (c.chan a).run with
  | some (.wr r) =>
    if r.inTry then
      let due := r.assist.mode != 0 && decide (2 ≤ r.samples)
      let p := if due then (c, { r with monDue := true }) else c.settleTry a r
      p.1.faultTry a p.2 cause (r.cur.getD r.next)
    else if r.fresh then
      c.mapChan a (fun x => { x with run := some (.wr { r with cause := r.cause ||| cause }) })
    else c
  | _ => c

/-- The sector's staged data carries poison (R323). -/
def Chip.dataPoisoned (c : Chip) (r : WrRun) (i : Nat) : Bool :=
  let w := r.words
  let lo := (w.data + 4096 * i) / 8
  let s := c.seedOf w i
  let at_ (u : Staged) : Bool := u.holds r.taken s.1 s.2.1 && u.poison.any (fun n => n / 512 == s.2.1 - u.unit)
  w.op == 0 && (c.mem.synd.any (fun e => decide (lo ≤ e.1) && decide (e.1 < lo + 512) && e.2 == poisonSynd)
    || c.nvq.staging.any at_)

/-- The data of a descriptor's sector: the staged copy of its LBA that the descriptor took, the latest where there are
several, or the bytes at DATA (R319). -/
def Chip.sectorData (c : Chip) (r : WrRun) (i : Nat) : Block :=
  let w := r.words
  let s := c.seedOf w i
  match ((c.nvq.staging.filter (fun u => u.holds r.taken s.1 s.2.1)).getLast?).bind
      (fun u => u.data.find? (s.2.1 - u.unit)) with
  | some b => b
  | none => BitVec.ofNat 32768 (leNat (c.readRange (w.data + 4096 * i) 4096).1)

/-- The user bytes of a sector as recorded (R260, R322, R323): ciphertext under the key of its TYPE, a fill's under its
single-use key; plaintext 0xA5 for a lost-unit marker. A fill's plaintext is not stated, nor what leaves under a key
that is destroyed. -/
def Chip.cipher (c : Chip) (a : Act) (r : WrRun) (i typ : Nat) : Block × Chip :=
  let w := r.words
  let free := c.takeFree 32768
  if typ = 3 then (BitVec.ofNat 32768 (leNat (List.replicate 4096 0xA5)), c)
  else
    let key := if typ = 4 then r.key.map (fun k => leBytes 64 k.toNat) else c.sectorKey a typ w.head w.track
    match key with
    | none => free
    | some k =>
      let p := if typ = 4 then free else (c.sectorData r i, c)
      (Config.xtsEncrypt k (xtsTweak w.head w.track (w.sector + i)) p.1, p.2)

/-- A sector as it leaves (R256, R259, R322, R324, R330), with `typ` and the seed. -/
def Chip.recordSector (c : Chip) (r : WrRun) (i typ seed : Nat) (sync : Word) (user : Block) : Recorded :=
  let w := r.words
  let info := sectorInfo user seed r.dtime c.jnl.pcc typ w.head
  let bits := sectorField r.fmt sync user info (Config.wedgeSplit w.head w.track (w.sector + i))
  { user := user, info := info, field := bits.1 ++ bits.2
    early := earlyTaps r.delays none none bits.1 ++ earlyTaps r.delays none none bits.2, assist := r.assist }

/-- A sector is complete: it leaves with its metadata, or with a lost-unit marker (R322, R323). -/
def Chip.sectorWritten (c : Chip) (a : Act) (r : WrRun) (i : Nat) : Chip × WrRun :=
  let w := r.words
  let s := c.seedOf w i
  let bad := c.dataPoisoned r i
  let typ := if w.op = 1 then 4 else if bad then 3 else w.typ
  let seed := s.1 + s.2.1 * 2 ^ 19 + s.2.2 * 2 ^ 35
  let u := c.cipher a r i typ
  let c := u.2.emit (.sector a w.head w.track (w.sector + i)
    (u.2.recordSector r i typ seed (c.reg (R.SYNC_PAT a)) u.1))
  (c, { r with next := i + 1, poisoned := if bad then insertNat r.poisoned i else r.poisoned })

/-- A try begins at the first sector not written (R321, R325); a fill's single-use key is drawn at its first (R249). -/
def Chip.beginTry (c : Chip) (a : Act) (r : WrRun) : Chip × WrRun :=
  let first := r.tries == 0
  let k : Option (BitVec 512) × Chip :=
    if r.words.op = 1 ∧ r.key.isNone then ((some (c.takeRandom 512).1), (c.takeRandom 512).2) else (r.key, c)
  let c := k.2
  let r := { r with
    tries := if r.freePass then r.tries else r.tries + 1, freePass := false, inTry := true
    tryFirst := r.next, cur := some r.next, samples := 0, key := k.1
    dtime := if first then c.dtm.dtime else r.dtime, temp := if first then c.loc.temp else r.temp }
  (c.setFld (R.AS_STATUS a) 12 8 r.words.head, r)

/-- One sector of the descriptor begins to pass while the gate may be open. -/
def Chip.passSector (a : Act) (permit : Bool) (p : Chip × WrRun) (i : Nat) : Chip × WrRun :=
  let c := p.1
  let r := p.2
  if r.inTry then
    if r.cur = some (i - 1) ∧ 0 < i ∧ i ≤ r.words.count then
      let q := c.sectorWritten a r (i - 1)
      (q.1, { q.2 with cur := some i })
    else p
  else if permit && i == r.next && decide (i ≤ r.words.count) && !r.monDue then c.beginTry a r
  else p

/-- A servo sample reaches the write path (R315 to R318): the sectors that began to pass before it, then
its permission. A withdrawal by an overrun costs no try (R325). -/
def Chip.sampleWrite (c : Chip) (a : Act) (under : List Nat) (permit overrun : Bool) : Chip :=
  let was := (c.chan a).permit
  let c := c.mapChan a (fun x => { x with permit := permit })
  match (c.chan a).run with
  | some (.wr r) =>
    let p := under.foldl (Chip.passSector a was) (c, r)
    let r := { p.2 with samples := if p.2.inTry then p.2.samples + 1 else p.2.samples }
    let c := p.1.mapChan a (fun x => { x with run := some (.wr r) })
    if permit then
      c.mapChan a (fun x => { x with run := some (.wr { r with fresh := false }) })
    else if overrun then
      let q := if r.inTry then c.settleTry a { r with inTry := false, cur := none, freePass := true } else (c, r)
      q.1.mapChan a (fun x => { x with run := some (.wr { q.2 with fresh := false }) })
    else if r.inTry then c.dropGate a 1
    else if r.fresh ∧ was then c.dropGate a 1
    else c.mapChan a (fun x => { x with run := some (.wr { r with fresh := false }) })
  | _ => c

/-- The last sectors of the descriptor are written, and it ends unless a monitor reading is due (R331). -/
def writeDescDone (c : Chip) (a : Act) (monitored : Bool) : Chip :=
  if !c.alive then c
  else match (c.chan a).run with
    | some (.wr r) =>
      if r.monDue ∨ !(r.inTry || (c.chan a).permit) then c
      else
        let p : Chip × WrRun := if r.inTry then (c, r) else c.beginTry a r
        let from_ := p.2.cur.getD p.2.next
        let p := ((List.range (r.words.count + 1)).drop from_).foldl
          (fun (p : Chip × WrRun) i => p.1.sectorWritten a p.2 i) p
        let r : WrRun := { p.2 with inTry := false, cur := none, fresh := false }
        if monitored ∧ r.assist.mode ≠ 0 then
          p.1.mapChan a (fun x => { x with run := some (.wr { r with monDue := true }) })
        else (p.1.endWrite a r 0).runChannel a
    | _ => c

/-- WRITE_DESC_DONE (R326). -/
def execWriteDescDone (a : Act) (monitored : Bool) (s : State) : Host.Outcome State Fault Refusal :=
  s.done (writeDescDone s.chip a monitored)

/-- The assist monitor's reading, or its failure, arrives (R331): the try stands, or is faulted with MON at
its first sector and none of its sectors counts. A try that had faulted already is not counted again. -/
def Chip.monitorRead (c : Chip) (a : Act) (fault : Option Nat) : Chip :=
  match (c.chan a).run with
  | some (.wr r) =>
    if !r.monDue then c
    else
      let faulted := decide (r.next ≤ r.words.count)
      match fault with
      | none =>
        let p := c.settleTry a r
        if faulted then (p.1.mapChan a (fun x => { x with run := some (.wr p.2) })).runChannel a
        else (p.1.endWrite a p.2 0).runChannel a
      | some code =>
        let c := (c.assistFault a r.words.head code).raise (chanPage a 0x23) 0
        let r := { r with next := r.tryFirst, monDue := false }
        let r := { r with poisoned := r.poisoned.filter (fun i => decide (i < r.next)) }
        (if faulted then
          c.mapChan a (fun x => { x with run := some (.wr { r with cause := r.cause ||| 4 }) })
        else c.faultTry a r 4 r.tryFirst).runChannel a
  | _ => c

/-- A descriptor finds no permission for its next sector within WAIT_REV revolutions (R329). -/
def writeNoPermission (c : Chip) (a : Act) : Chip :=
  if !c.alive then c
  else match (c.chan a).run with
    | some (.wr r) =>
      if r.inTry ∨ r.monDue then c else (c.endWrite a r 3).runChannel a
    | _ => c

/-- WRITE_NO_PERMISSION (R329). -/
def execWriteNoPermission (a : Act) (s : State) : Host.Outcome State Fault Refusal :=
  s.done (writeNoPermission s.chip a)

/-- The continuous envelope reaches its limit (R332). -/
def envelopeLimit (c : Chip) (a : Act) : Chip :=
  match (c.chan a).run with
  | some (.wr r) =>
    if r.inTry ∧ r.assist.mode ≠ 0 then
      let c := ((c.assistFault a r.words.head 4).raise (chanPage a 0x23) 2).raise (chanPage a 0x23) 0
      (c.dropGate a 4).runChannel a
    else c
  | _ => c

/-- ENVELOPE_LIMIT (R332). -/
def execEnvelopeLimit (a : Act) (s : State) : Host.Outcome State Fault Refusal :=
  s.done (if s.chip.alive then envelopeLimit s.chip a else s.chip)

/-- WR_ABORT (R334): CHx_WG falls at once; every write descriptor ends with RESULT 2. -/
def execWrAbort (a : Act) (s : State) : Host.Outcome State Fault Refusal :=
  s.done (if s.chip.alive then (s.chip.endWrites a).runChannel a else s.chip)

/-- The sector in progress is completed while permission holds, then the writes end (R334). -/
def Chip.holdupWrites (c : Chip) (a : Act) : Chip :=
  let c := match (c.chan a).run with
    | some (.wr r) =>
      match r.cur with
      | some i =>
        let p := if r.inTry && (c.chan a).permit then c.sectorWritten a r i else (c, r)
        p.1.mapChan a (fun x => { x with run := some (.wr p.2) })
      | none => c
    | _ => c
  c.endWrites a

/-! ### On-time (R333, R338) -/

/-- AS_ONTIME_SET (R338): writes the accumulator of the head in AS_SEL, in MANUFACTURE or DIAGNOSTIC only;
elsewhere the write falls under R93. -/
def asOntimeSet (c : Chip) (a : Act) (v : Word) : Chip :=
  if !c.alive then c
  else if !c.diagOpen then c.ignored (chanPage a 0x23) 1 0xF00
  else
    let head := 10 * a.toNat + c.fld (R.AS_SEL a) 3 0
    let c := { c with assistCycles := SMap.put (fun _ => 0) c.assistCycles head (v.toNat * cyclesPerTick) }
    c.setReg (R.AS_ONTIME_SET a) v

/-- AS_ONTIME_SET (R338). -/
def execAsOntimeSet (a : Act) (v : Word) (s : State) : Host.Outcome State Fault Refusal :=
  s.next (asOntimeSet s.chip a v)

/-- JNL writes the on-times back to the persistent counters. -/
def Chip.saveOnTimes (c : Chip) : Chip :=
  let hs := List.range 20
  { c.writeOnTimes with assistSaved := hs.foldl (fun m h => SMap.put (fun _ => 0) m h (c.onTime h)) [] }

/-- One CK_PER cycle of the envelope (R333): the head's accumulator counts while CHx_AS is enabled, and JNL
writes it back each time it has advanced by 16 units. -/
def Chip.envelopeTick (c : Chip) (a : Act) : Chip :=
  match (c.chan a).run with
  | some (.wr r) =>
    if r.inTry && r.assist.mode != 0 then
      let h := r.words.head
      let n := SMap.get (fun _ => 0) c.assistCycles h + 1
      let c := { c with assistCycles := SMap.put (fun _ => 0) c.assistCycles h n }
      if SMap.get (fun _ => 0) c.assistSaved h + 16 ≤ c.onTime h ∧ !c.jnl.failed ∧ !c.jnl.closed then
        c.saveOnTimes
      else c
    else c
  | _ => c

end Sys2Proof.Machine
end

