-- ==== Sys2Proof/Machine/Chord.lean ====
section
/-! DEFINITION. Chord (R376 to R389): the feedforward paths between the engines and the bound on the
combined VCM current; and the application of a law write (R346, R357 to R359). -/

namespace Sys2Proof.Machine

open Sys2Proof

/-! ### Arithmetic (R342, R343) -/

/-- Round a product sum to S17.14 and saturate; the flag says that it saturated. `d` is the divisor. -/
def fitSignal (n : Int) (d : Nat) : Int × Bool :=
  let r := roundDiv n d
  let s := clampInt (-(2 ^ 31)) (2 ^ 31 - 1) r
  (s, s != r)

/-- A coefficient in S3.28. -/
def Chip.coef (c : Chip) (k : Nat) : Int := (c.reg k).toInt

/-- The output of a section on an input (R344), in direct form I. -/
def Biquad.output (h : Biquad) (b0 b1 b2 a1 a2 w : Int) : Int × Bool :=
  fitSignal (b0 * w + b1 * h.w1 + b2 * h.w2 - a1 * h.y1 - a2 * h.y2) (2 ^ 28)

/-- The histories after an input and its output. -/
def Biquad.shift (h : Biquad) (w y : Int) : Biquad := { w1 := w, w2 := h.w1, y1 := y, y2 := h.y1 }

/-! ### Feedforward (R376 to R379) -/

/-- The engine of an actuator runs. -/
def Cle.running (e : Cle) : Bool := e.state == .run || e.state == .coast

/-- The path that leads out of an engine. -/
def Chd.pathFrom (d : Chd) : Act → Path
  | .A => d.pathAB
  | .B => d.pathBA

def Chip.setPathFrom (c : Chip) (a : Act) (p : Path) : Chip :=
  match a with
  | .A => { c with chd := { c.chd with pathAB := p } }
  | .B => { c with chd := { c.chd with pathBA := p } }

/-- The path out of an engine is enabled. -/
def Chip.pathOn (c : Chip) (a : Act) : Bool := c.bit R.CHD_FF_CTRL a.toNat

/-- The path out of an engine starts from zero history (R378). -/
def Chip.clearPath (c : Chip) (a : Act) : Chip := c.setPathFrom a {}

/-- Coefficient `i` of the path out of an engine. -/
def pathCoef (a : Act) (i : Nat) : Nat :=
  match a with
  | .A => R.CHD_FF_AB i
  | .B => R.CHD_FF_BA i

/-- CK_PER cycles from the hand-over of a sample to the moment its y is visible: 0.33 us. -/
def pathDelay : Nat := 132

/-- The value X that an engine latches (R377, R378): 0 while the path is off or the source does not run. -/
def Chip.chordX (c : Chip) (a : Act) : Int :=
  let src := a.other
  let p := c.chd.pathFrom src
  if !c.pathOn src || !(c.cle src).running || c.outOfService src then 0
  else if p.stamp.toNat + pathDelay < c.dtm.dtime.toNat then p.y else p.prev

/-- A VCM command as sent passes through the path (R376). -/
def Chip.feedPath (c : Chip) (a : Act) (v : Int) : Chip :=
  if !c.pathOn a then c
  else
    let p := c.chd.pathFrom a
    let k (i : Nat) : Int := c.coef (pathCoef a i)
    let u := v * 2 ^ 14
    let y := (p.hist.output (k 0) (k 1) (k 2) (k 3) (k 4) u).1
    c.setPathFrom a { hist := p.hist.shift u y, y := y, prev := p.y, stamp := c.dtm.dtime }

/-- A write to CHD_FF_CTRL (R379): a path whose enable bit changes starts from zero history. -/
def chdFfEnable (c : Chip) (ab ba : Bool) : Chip :=
  if !c.alive then c
  else
    let go (c : Chip) (a : Act) (on : Bool) : Chip :=
      if c.pathOn a = on then c else (c.setBit R.CHD_FF_CTRL a.toNat on).clearPath a
    go (go c .A ab) .B ba

/-- CHD_FF_ENABLE (R379). -/
def execChdFfEnable (ab ba : Bool) (s : State) : Host.Outcome State Fault Refusal :=
  s.next (chdFfEnable s.chip ab ba)

/-! ### Grants (R380 to R384) -/

def Chd.grant (d : Chd) : Act → Nat
  | .A => d.grantA
  | .B => d.grantB

def limReg : Act → Nat
  | .A => R.CHD_LIM_A
  | .B => R.CHD_LIM_B

def seekReg : Act → Nat
  | .A => R.CHD_SEEK_A
  | .B => R.CHD_SEEK_B

/-- The limit of an actuator in force (R380). -/
def Chip.limit (c : Chip) (a : Act) : Nat := c.fld (limReg a) 16 0

/-- The limit a grant stands for (R380). A VCM command is at most 131,071 in magnitude and CHD_LIM_x has bits
16:0, so a larger FULL stands as 131,071 (DEDUCED). -/
def Chip.limitOf (c : Chip) (grant : Nat) : Nat :=
  let isum := c.fld R.CHD_ISUM 17 0
  let itrk := c.fld R.CHD_ITRK 16 0
  match grant with
  | 0 => isum / 2
  | 1 => itrk
  | 2 => min (isum - itrk) 131071
  | _ => 0

/-- The target grant of an actuator (R381, R392). -/
def Chip.targetGrant (c : Chip) (a : Act) : Nat :=
  let own := c.bit (seekReg a) 0
  let their := c.bit (seekReg a.other) 0
  if c.outOfService a then 3
  else if c.outOfService a.other then (if own then 2 else 0)
  else if own && !their then 2
  else if !own && their then 1
  else 0

/-- Put a grant and its limit in force for an actuator. -/
def Chip.putGrant (c : Chip) (a : Act) (grant lim : Nat) : Chip :=
  let c := match a with
    | .A => { c with chd := { c.chd with grantA := grant } }
    | .B => { c with chd := { c.chd with grantB := grant } }
  (c.setFld (limReg a) 16 0 lim).setFld (seekReg a) 5 4 grant

/-- Show whether a change is in progress. -/
def Chip.setChange (c : Chip) (g : Option GrantChange) : Chip :=
  let c := { c with chd := { c.chd with change := g } }
  (c.setBit R.CHD_SEEK_A 8 g.isSome).setBit R.CHD_SEEK_B 8 g.isSome

/-- An engine that sends 0: any of its limit changes takes effect at once (R382). -/
def Chip.silent (c : Chip) (a : Act) : Bool := !(c.cle a).running || c.outOfService a

/-- CK_PER cycles in 1.50 us. -/
def grantWait : Nat := 600

/-- What a change has for an actuator. -/
def GrantChange.falls (g : GrantChange) : Act → Bool
  | .A => g.fallA
  | .B => g.fallB
def GrantChange.rises (g : GrantChange) : Act → Bool
  | .A => g.riseA
  | .B => g.riseB
def GrantChange.to (g : GrantChange) : Act → Nat × Nat
  | .A => (g.toA, g.limA)
  | .B => (g.toB, g.limB)

/-- Plan a change from the limits in force to the target that holds now (R382, R384). `last` is the time of
the last fall that still counts. -/
def Chip.planChange (c : Chip) (last : BitVec 64) (pending : Bool) : Chip :=
  let ta := c.targetGrant .A
  let tb := c.targetGrant .B
  let la := c.limitOf ta
  let lb := c.limitOf tb
  let same := ta == c.chd.grantA && tb == c.chd.grantB && la == c.limit .A && lb == c.limit .B
  if same then (if pending then (c.setChange none).raise 0x30 0 else c)
  else
    let g : GrantChange := {
      toA := ta, toB := tb, limA := la, limB := lb
      fallA := la < c.limit .A, fallB := lb < c.limit .B
      riseA := c.limit .A < la, riseB := c.limit .B < lb, last := last }
    let c := if la = c.limit .A then c.putGrant .A ta la else c
    let c := if lb = c.limit .B then c.putGrant .B tb lb else c
    c.setChange (some g)

/-- The limit changes of one actuator that may take effect now: at a boundary of its engine, or at once
where the engine is silent. -/
def Chip.stepGrant (c : Chip) (a : Act) (boundary : Bool) : Chip :=
  match c.chd.change with
  | none => c
  | some g =>
    let may := boundary || c.silent a
    let t := g.to a
    if g.falls a ∧ may then
      (c.putGrant a t.1 t.2).setChange (some (match a with
        | .A => { g with fallA := false, last := c.dtm.dtime }
        | .B => { g with fallB := false, last := c.dtm.dtime }))
    else if g.rises a ∧ may ∧ !g.fallA ∧ !g.fallB
        ∧ (c.silent a ∨ g.last.toNat = 0 ∨ g.last.toNat + grantWait ≤ c.dtm.dtime.toNat) then
      (c.putGrant a t.1 t.2).setChange (some (match a with
        | .A => { g with riseA := false }
        | .B => { g with riseB := false }))
    else c

/-- A phase is over: plan again where REQ or a parameter changed (R384), or end the change. -/
def Chip.closePhase (c : Chip) : Chip :=
  match c.chd.change with
  | none => c
  | some g =>
    if g.fallA || g.fallB then c
    else if g.riseA || g.riseB then
      if g.replan then c.planChange g.last true else c
    else
      let c := (c.setChange none).raise 0x30 0
      if g.replan then c.planChange g.last false else c

/-- Limit changes of silent engines, as far as they go. -/
def Chip.silentGrants (c : Chip) : Nat → Chip
  | 0 => c
  | n + 1 => (((c.stepGrant .A false).stepGrant .B false).closePhase).silentGrants n

/-- A sample boundary of an engine (R382). -/
def Chip.grantBoundary (c : Chip) (a : Act) : Chip := ((c.stepGrant a true).closePhase).silentGrants 4

/-- REQ, ISUM or ITRK changed, or an actuator left service (R384). -/
def Chip.retarget (c : Chip) : Chip :=
  match c.chd.change with
  | none => (c.planChange 0 false).silentGrants 4
  | some g => ({ c with chd := { c.chd with change := some { g with replan := true } } }).silentGrants 4

/-- Writes to CHD_SEEK_A and CHD_SEEK_B that fall in one cycle (R381, R384). -/
def chdSeekReq (c : Chip) (ra rb : Option Bool) : Chip :=
  if !c.alive then c
  else
    let put (c : Chip) (a : Act) (r : Option Bool) : Chip :=
      match r with
      | some b => c.setBit (seekReg a) 0 b
      | none => c
    let d := put (put c .A ra) .B rb
    if d.bit R.CHD_SEEK_A 0 == c.bit R.CHD_SEEK_A 0 && d.bit R.CHD_SEEK_B 0 == c.bit R.CHD_SEEK_B 0 then d
    else d.retarget

/-- CHD_SEEK_REQ (R381). -/
def execChdSeekReq (ra rb : Option Bool) (s : State) : Host.Outcome State Fault Refusal :=
  s.next (chdSeekReq s.chip ra rb)

/-! ### Law writes (R346, R357 to R359) -/

/-- The ORDER and SECT_EN of a stage in a CLE_STRUCT value. -/
def structOrder (v : Word) (isV : Bool) : Nat := if isV then field v 2 0 else field v 6 4
def structEn (v : Word) (isV : Bool) (n : Nat) : Bool := v.getLsbD ((if isV then 8 else 16) + n)

/-- A stage after CLE_STRUCT changes (R346): a section that is or was disabled has zero history, and a state
that is or was beyond ORDER is 0. -/
def Stage.restruct (s : Stage) (old new : Word) (isV : Bool) : Stage :=
  { xp := s.xp.zipIdx.map (fun e =>
      if e.2 < structOrder old isV ∧ e.2 < structOrder new isV then e.1 else 0)
    sects := s.sects.zipIdx.map (fun e =>
      if structEn old isV e.2 && structEn new isV e.2 then e.1 else {}) }

/-- A law write takes effect (R357). -/
def Chip.applyLaw (c : Chip) (a : Act) (k : Nat) (v : Word) : Chip :=
  let old := c.reg (R.CLE_STRUCT a)
  let c := c.setReg k v
  if k = R.CLE_STRUCT a then
    let e := c.cle a
    c.setCle a { e with v := e.v.restruct old v true, m := e.m.restruct old v false }
  else c

/-- The oldest pending write takes effect; COEF_APPLIED when none is left (R357, R358). -/
def Chip.applyOldest (c : Chip) (a : Act) : Chip :=
  let e := c.cle a
  match e.pend with
  | [] => c
  | p :: ps =>
    let c := (c.setCle a { e with pend := ps }).applyLaw a p.1 p.2
    if ps.isEmpty then c.raise (chanPage a 0x24) 6 else c

/-- Every pending write takes effect, in order (R359). -/
def Chip.applyPending (c : Chip) (a : Act) : Nat → Chip
  | 0 => c
  | n + 1 => (c.applyOldest a).applyPending a n

/-- An accepted write to a queued register (R357 to R359). -/
def Chip.queueLaw (c : Chip) (a : Act) (k : Nat) (v : Word) : Chip :=
  let e := c.cle a
  if e.state = .off ∨ e.state = .lost then c.applyLaw a k v
  else if 8 ≤ e.pend.length then c.fault (chanPage a 0x24) 4
  else c.setCle a { e with pend := e.pend ++ [(k, v)] }

/-- The retract of an engine is complete (R367, R368): LOST or OFF, and pending writes take effect (R359). -/
def Chip.retractDone (c : Chip) (a : Act) : Chip :=
  let e := c.cle a
  if e.state = .retract then
    ((c.setCle a { e with state := if e.loss then .lost else .off }).applyPending a 8).raise (chanPage a 0x24) 3
  else c

end Sys2Proof.Machine
end

