-- ==== Sys2Proof/Machine/Links.lean ====
section
/-! DEFINITION. The Oavin link (R398 to R410), the motor link (R411 to R424), the sensors (R425 to R428),
and the channel synthesizers' lock (R580). -/

namespace Sys2Proof.Machine

open Sys2Proof

/-! ### Oavin link -/

/-- The calibrated monitor value of a head and Annulus, where it is VALID (R331, R543). -/
def Chip.monRef (c : Chip) (a : Act) (head ann : Nat) : Option Nat :=
  let w := c.corrAt (corrKey (chanPage a 0x23) 1 (head % 10) ann 0)
  if w.getLsbD 31 then some (field w 11 0) else none

/-- The 40-bit request of a transaction (R401, R402). -/
def OvlTx.frame (t : OvlTx) : BitVec 40 :=
  let v := t.cmd % 256 * 2 ^ 24 + t.head % 16 * 2 ^ 20 + t.reg % 16 * 2 ^ 16 + t.data % 65536
  BitVec.ofNat 40 (v * 256 + (crc8 32 v).toNat)

/-- The transaction at the front goes out. -/
def Chip.ovlSend (c : Chip) : Chip :=
  match c.links.ovl with
  | t :: _ => c.emit (.ovlFrame t.preamp t.frame)
  | [] => c

/-- A transaction is requested (R406, R407); none in HOLDUP (R409). -/
def Chip.ovlAsk (c : Chip) (t : OvlTx) : Chip :=
  if c.links.ovlStop then c
  else
    let idle := c.links.ovl.isEmpty
    let c := { c with links := { c.links with ovl := c.links.ovl ++ [t] } }
    if idle then c.ovlSend else c

/-- The firmware transaction in progress: OVL_TX_CTRL.BUSY. -/
def Chip.ovlBusy (c : Chip) : Bool := c.links.ovl.any (fun t => t.who == .firmware)

/-- OVL_TX_CTRL.GO with a command (R409, R410). -/
def ovlFirmware (c : Chip) (cmd : Nat) (preamp : Act) (head reg data : Nat) : Chip :=
  if !c.alive then c
  else
    let k := R.OVL_TX_CMD
    let c := c.setReg k (BitVec.ofNat 32
      (cmd + reg % 16 * 2 ^ 8 + head % 16 * 2 ^ 12 + preamp.toNat * 2 ^ 16))
    let c := c.setReg R.OVL_TX_DATA (BitVec.ofNat 32 (data % 65536))
    if c.ovlBusy then c
    else if (cmd = 0x09 ∨ cmd = 0x0A) ∧ !c.bit (pCtrl 0x38) 31 then c.setFld R.OVL_TX_CTRL 6 4 4
    else if c.inHoldup then c.setFld R.OVL_TX_CTRL 6 4 5
    else c.ovlAsk { who := .firmware, preamp := preamp, cmd := cmd, head := head, reg := reg, data := data }

/-- The descriptor a channel would start next. -/
def Chan.front (x : Chan) : Option Desc :=
  match x.run, x.queue with
  | none, d :: _ => some d
  | _, _ => none

/-- The channel asks for the SELECT or the assist power its next descriptor needs (R331, R406). -/
def Chip.askNeed (c : Chip) (a : Act) (n : Need) : Chip :=
  let x := c.chan a
  match x.front with
  | none => c
  | some d =>
    if x.asked ∨ c.need a d ≠ some n then c
    else
      let h := d.words.head % 10
      let t : OvlTx := match n with
        | .select => { who := .select a, preamp := a, cmd := 0x01, head := h, reg := 0, data := b2n d.write }
        | .power =>
          { who := .ap a, preamp := a, cmd := 0x04, head := h, reg := 0
            data := c.assistPower a d.words.head d.words.ann }
      if c.links.ovlStop then c else (c.mapChan a (fun x => { x with asked := true })).ovlAsk t

/-- The channel reads the assist monitor at the end of a try (R331). -/
def Chip.askMonitor (c : Chip) (a : Act) : Chip :=
  let x := c.chan a
  match x.run with
  | some (.wr r) =>
    if r.monDue ∧ !x.asked ∧ !c.links.ovlStop then
      (c.mapChan a (fun x => { x with asked := true })).ovlAsk
        { who := .amon a, preamp := a, cmd := 0x05, head := r.words.head % 10, reg := 0, data := 0 }
    else c
  | _ => c

/-- A row that a channel or firmware originates. -/
def ovlBy (c : Chip) (cmd : Nat) (by_ : OvlBy) (hw : Act → Chip) : Chip :=
  match by_ with
  | .channel a => if c.alive then hw a else c
  | .firmware p h r d => ovlFirmware c cmd p h r d

/-- OVL_SELECT (R403). -/
def execOvlSelect (b : OvlBy) (s : State) : Host.Outcome State Fault Refusal :=
  s.next (ovlBy s.chip 0x01 b (fun a => s.chip.askNeed a .select))

/-- OVL_WCUR (R403). -/
def execOvlWcur (p : Act) (head reg data : Nat) (s : State) : Host.Outcome State Fault Refusal :=
  s.next (ovlFirmware s.chip 0x02 p head reg data)

/-- OVL_HEAT (R403). -/
def execOvlHeat (p : Act) (head reg data : Nat) (s : State) : Host.Outcome State Fault Refusal :=
  s.next (ovlFirmware s.chip 0x03 p head reg data)

/-- OVL_AP (R331). -/
def execOvlAp (b : OvlBy) (s : State) : Host.Outcome State Fault Refusal :=
  s.next (ovlBy s.chip 0x04 b (fun a => s.chip.askNeed a .power))

/-- OVL_AMON (R331). -/
def execOvlAmon (b : OvlBy) (s : State) : Host.Outcome State Fault Refusal :=
  s.next (ovlBy s.chip 0x05 b (fun a => s.chip.askMonitor a))

/-- OVL_TEMP (R403). -/
def execOvlTemp (p : Act) (head reg data : Nat) (s : State) : Host.Outcome State Fault Refusal :=
  s.next (ovlFirmware s.chip 0x06 p head reg data)

/-- OVL_FCODE (R403). -/
def execOvlFcode (p : Act) (head reg data : Nat) (s : State) : Host.Outcome State Fault Refusal :=
  s.next (ovlFirmware s.chip 0x07 p head reg data)

/-- OVL_FCLR (R405). -/
def execOvlFclr (p : Act) (head reg data : Nat) (s : State) : Host.Outcome State Fault Refusal :=
  s.next (ovlFirmware s.chip 0x08 p head reg data)

/-- OVL_RDREG (R403). -/
def execOvlRdreg (p : Act) (head reg data : Nat) (s : State) : Host.Outcome State Fault Refusal :=
  s.next (ovlFirmware s.chip 0x09 p head reg data)

/-- OVL_WRREG (R403). -/
def execOvlWrreg (p : Act) (head reg data : Nat) (s : State) : Host.Outcome State Fault Refusal :=
  s.next (ovlFirmware s.chip 0x0A p head reg data)

/-- OVL_PING (R403). -/
def execOvlPing (p : Act) (head reg data : Nat) (s : State) : Host.Outcome State Fault Refusal :=
  s.next (ovlFirmware s.chip 0x0F p head reg data)

/-- OVL_TEMP_POLL (R406): every TEMP_MS, unless TEMP_MS is 0. -/
def ovlTempPoll (c : Chip) : Chip :=
  if !c.alive || c.fld R.OVL_CFG 15 8 == 0 then c
  else
    let t (p : Act) : OvlTx := { who := .poll, preamp := p, cmd := 0x06, head := 0, reg := 0, data := 0 }
    (c.ovlAsk (t .A)).ovlAsk (t .B)

/-- OVL_TEMP_POLL (R406). -/
def execOvlTempPoll (s : State) : Host.Outcome State Fault Refusal := s.next (ovlTempPoll s.chip)

/-- The preamplifier on an actuator's side changes. -/
def Chip.mapPreamp (c : Chip) (a : Act) (f : Preamp → Preamp) : Chip :=
  match a with
  | .A => { c with att := { c.att with preA := f c.att.preA } }
  | .B => { c with att := { c.att with preB := f c.att.preB } }

/-- CHx_FLT_N falls (R332, R406): the gates fall, a running try faults with FLT, and FCODE is read. -/
def preampFault (c : Chip) (a : Act) : Chip :=
  if !c.alive || (c.chan a).fltLow then c
  else
    let x := c.chan a
    let head := match x.run, x.sel with
      | some (.wr r), _ => r.words.head
      | _, some (h, _) => h
      | _, none => 0
    let c := (c.mapChan a (fun x => { x with fltLow := true, permit := false })).mapPreamp a
      (fun p => { p with fault := none })
    let c := (c.assistFault a head 1).raise (chanPage a 0x23) 1
    let c := c.raise 0x38 (2 + a.toNat)
    let c := c.ovlAsk { who := .fault, preamp := a, cmd := 0x07, head := 0, reg := 0, data := 0 }
    (c.dropGate a 2).runChannel a

/-- PREAMP_FAULT (R406). -/
def execPreampFault (a : Act) (s : State) : Host.Outcome State Fault Refusal := s.done (preampFault s.chip a)

/-- The fields of OVL_SEL of a preamplifier (R410). -/
def Chip.setSel (c : Chip) (a : Act) (head : Nat) (write : Bool) : Chip :=
  let lo := 8 * a.toNat
  (c.setFld R.OVL_SEL (lo + 3) lo head).setBit R.OVL_SEL (lo + 4) write

/-- An acknowledged SELECT or AP, whoever sent it, is what the preamplifier now holds (R403, R406). -/
def Chip.preampHolds (c : Chip) (t : OvlTx) : Chip :=
  if t.cmd = 0x01 then
    let write := t.data % 2 == 1
    (c.mapChan t.preamp (fun x => { x with sel := some (t.head, write) })).setSel t.preamp t.head write
  else if t.cmd = 0x04 then
    let hs := if t.head = 15 then List.range 10 else [t.head]
    let put (m : SMap Nat) (h : Nat) : SMap Nat := m.set h (t.data % 256)
    c.mapChan t.preamp (fun x => { x with apSent := hs.foldl put x.apSent })
  else c

/-- The heads a transaction names: 15 stands for all ten. -/
def OvlTx.heads (t : OvlTx) : List Nat := if t.head = 15 then List.range 10 else [t.head]

/-- What an acknowledged transaction leaves in the preamplifier (R403, R405), with the response's DATA. -/
def Preamp.take (p : Preamp) (t : OvlTx) (data : Nat) : Preamp :=
  let put (f : Nat → Nat) (v : Nat) (m : SMap Nat) : SMap Nat :=
    t.heads.foldl (fun m h => SMap.put (fun _ => 0) m (f h) v) m
  match t.cmd with
  | 0x01 => { p with sel := some (t.head, t.data % 2 == 1) }
  | 0x02 => { p with wcur := put id (t.data % 32768) p.wcur }
  | 0x03 => { p with heat := put (fun h => h * 2 + t.reg % 2) (t.data % 1024) p.heat }
  | 0x04 => { p with ap := put id (t.data % 256) p.ap }
  | 0x07 => { p with fault := some (data % 256) }
  | 0x08 => { p with fault := some (data % 256) }
  | 0x09 => { p with regs := put (fun h => h * 16 + t.reg % 16) data p.regs }
  | 0x0A => { p with regs := put (fun h => h * 16 + t.reg % 16) (t.data % 65536) p.regs }
  | _ => p

/-- An acknowledged write of the motor chip (R418). -/
def Chip.motorTakes (c : Chip) (request : BitVec 32) : Chip :=
  let reg := request.toNat / 2 ^ 24 % 32
  if request.toNat / 2 ^ 30 = 2 ∧ (reg = 3 ∨ reg = 4 ∨ reg = 5 ∨ reg = 8) then
    { c with att := { c.att with motor := SMap.put motorReset c.att.motor reg (request.toNat / 256 % 65536) } }
  else c

/-- What STATUS of the motor chip says (R418). -/
def Attached.status (a : Attached) (v : Nat) : Attached :=
  { a with atSpeed := v.testBit 0, loadedA := v.testBit 1, loadedB := v.testBit 2 }

/-- What IRQ of the motor chip says (R418): a retract or a load is done, the speed is reached or lost. -/
def Attached.events (a : Attached) (v : Nat) : Attached :=
  { a with
    atSpeed := (a.atSpeed || v.testBit 4) && !v.testBit 5
    loadedA := (a.loadedA || v.testBit 2) && !v.testBit 0
    loadedB := (a.loadedB || v.testBit 3) && !v.testBit 1 }

/-- Step 10 of BOOT (R46): firmware's request for spin-up, a write of run to SPIN_CTRL, is acknowledged. -/
def Chip.bootSpin (c : Chip) (request : BitVec 32) : Chip :=
  if c.atStep 9 && !c.sys.blankBoot && decide (request.toNat / 2 ^ 24 = 2 * 64 + 4) &&
      decide (request.toNat / 256 % 65536 = 1) then c.step 10
  else c

/-- A transaction is acknowledged with DATA (R403, R406). -/
def Chip.ovlAcked (c : Chip) (t : OvlTx) (response : BitVec 32) : Chip :=
  let data := response.toNat / 256 % 65536
  let c := (c.preampHolds t).mapPreamp t.preamp (fun p => p.take t data)
  let c := if t.cmd = 0x08 ∧ data % 256 = 0 then c.mapChan t.preamp (fun x => { x with fltLow := false }) else c
  let lo := 16 * t.preamp.toNat
  let temp (c : Chip) : Chip := c.setFld R.OVL_TEMP (lo + 15) lo data
  match t.who with
  | .select a => (c.mapChan a (fun x => { x with asked := false })).runChannel a
  | .ap a => (c.mapChan a (fun x => { x with asked := false })).runChannel a
  | .amon a =>
    let c := c.mapChan a (fun x => { x with asked := false })
    match (c.chan a).run with
    | some (.wr r) =>
      match c.monRef a r.words.head r.words.ann with
      | none => c.monitorRead a none
      | some ref =>
        let v := data % 4096
        if v * 100 < ref * r.monLo then c.monitorRead a (some 2)
        else if ref * r.monHi < v * 100 then c.monitorRead a (some 3)
        else c.monitorRead a none
    | _ => c
  | .fault => c.setReg (R.AS_FAULT_CODE t.preamp) (BitVec.ofNat 32 (data % 256))
  | .poll => temp c
  | .firmware =>
    let c := (c.setReg R.OVL_RX (BitVec.ofNat 32 (response.toNat / 256))).setFld R.OVL_TX_CTRL 6 4 1
    let c := if t.cmd = 0x06 then temp c
      else if t.cmd = 0x07 then c.setReg (R.AS_FAULT_CODE t.preamp) (BitVec.ofNat 32 (data % 256))
      else c
    c.raise 0x38 0

/-- A transaction ends failed (R408). -/
def Chip.ovlFailed (c : Chip) (t : OvlTx) (err : Nat) (response : BitVec 32) (status : Bool) : Chip :=
  let c := ((c.bump R.OVL_CNT_GIVEUP).raise 0x38 1).event 0x6801 [t.preamp.toNat, t.cmd, t.head, err]
  match t.who with
  | .select a =>
    let c := c.mapChan a (fun x => { x with asked := false })
    match (c.chan a).front with
    | none => c
    | some d =>
      let c := c.mapChan a (fun x => { x with queue := x.queue.drop 1 })
      (if d.write then c.wrUnwritten a d.words 2
       else c.endRead a d.words d.by_ d.words.offsets).runChannel a
  | .ap a =>
    let c := c.mapChan a (fun x => { x with asked := false })
    match (c.chan a).front with
    | none => c
    | some d =>
      let c := c.mapChan a (fun x => { x with queue := x.queue.drop 1 })
      ((c.wrUnwritten a d.words 4).setFld (R.AS_STATUS a) 3 0 5).runChannel a
  | .amon a => (c.mapChan a (fun x => { x with asked := false })).monitorRead a (some 2)
  | .fault => c.setReg (R.AS_FAULT_CODE t.preamp) 0xFF
  | .poll => c
  | .firmware =>
    let c := if status then c.setReg R.OVL_RX (BitVec.ofNat 32 (response.toNat / 256)) else c
    (c.setFld R.OVL_TX_CTRL 6 4 (if status then 2 else 3)).raise 0x38 0

/-- The response of the transaction in progress (R408): acknowledged, repeated, or ended failed. In HOLDUP
it is not repeated and no other starts (R409). -/
def ovlResponse (c : Chip) (response : BitVec 32) : Chip :=
  if !c.alive then c
  else match c.links.ovl with
    | [] => c
    | t :: ts =>
      let err := response.toNat / 2 ^ 25 % 8
      let bad := (crc8 24 (response.toNat / 256)).toNat != response.toNat % 256 || response.getLsbD 30
      let fails : Bool := bad || err == 1 || err == 5
      let rest := if c.links.ovlStop then [] else ts
      if fails ∧ t.repeats < c.fld R.OVL_CFG 1 0 ∧ !c.links.ovlStop then
        (({ c with links := { c.links with ovl := { t with repeats := t.repeats + 1 } :: ts } }).bump
          R.OVL_CNT_RETRY).ovlSend
      else
        let c := ({ c with links := { c.links with ovl := rest } }).ovlSend
        if fails then c.ovlFailed t err response false
        else if err = 0 then c.ovlAcked t response
        else c.ovlFailed t err response true

/-- OVL_RESPONSE (R408). -/
def execOvlResponse (response : BitVec 32) (s : State) : Host.Outcome State Fault Refusal :=
  s.done (ovlResponse s.chip response)

/-! ### Motor link -/

/-- A 32-bit frame of the motor link with its CRC (R414, R417). -/
def mlkWord (v : Nat) : BitVec 32 := BitVec.ofNat 32 (v * 256 + (crc8 24 v).toNat)

/-- The request of a control transaction (R417). -/
def mlkRequest (read : Bool) (reg data : Nat) : BitVec 32 :=
  mlkWord ((if read then 3 else 2) * 2 ^ 22 + reg % 32 * 2 ^ 16 + (if read then 0 else data % 65536))

/-- The verdict on one response (R423): 1 done, 2 NAK, 3 no valid response. -/
def mlkVerdict (request response : BitVec 32) : Nat :=
  let good := (crc8 24 (response.toNat / 256)).toNat == response.toNat % 256
  if !good then 3
  else if response.getLsbD 29 then 2
  else if response.toNat / 2 ^ 30 ≠ request.toNat / 2 ^ 30
      ∨ response.toNat / 2 ^ 24 % 32 ≠ request.toNat / 2 ^ 24 % 32 then 3
  else 1

/-- A control transaction with its repeats (R423): the responses, one for each try made, none standing for
no response. Answers the RESULT, the DATA and the tries' frames. -/
def mlkTries (request : BitVec 32) (responses : List (BitVec 32)) : Nat → Nat × BitVec 32
  | 0 => (3, 0)
  | n + 1 =>
    match responses with
    | [] => (3, 0)
    | r :: rs =>
      let v := mlkVerdict request r
      if v = 1 ∨ n = 0 ∨ rs.isEmpty then (v, r) else mlkTries request rs n

/-- Tries a control transaction has. -/
def Chip.mlkLimit (c : Chip) : Nat := c.fld R.MLK_CFG 1 0 + 1

/-- MLK_TX_CTRL.GO (R417, R423, R424): no effect while BUSY, refused in HOLDUP. -/
def mlkGo (c : Chip) (read : Bool) (reg : Nat) (data : Nat) : Chip :=
  if !c.alive then c
  else
    let c := c.setReg R.MLK_TX (BitVec.ofNat 32 (data % 65536 + reg * 2 ^ 16 + b2n read * 2 ^ 31))
    if c.links.mlk.isSome then c
    else if c.inHoldup then c.setFld R.MLK_TX_CTRL 6 4 4
    else
      let q := mlkRequest read reg data
      ({ c with links := { c.links with mlk := some q } }).emit (.mlkFrame q)

/-- MLK_WRITE (R417). -/
def execMlkWrite (reg : Fin 32) (data : BitVec 16) (s : State) : Host.Outcome State Fault Refusal :=
  s.next (mlkGo s.chip false reg.val data.toNat)

/-- MLK_READ (R417). -/
def execMlkRead (reg : Fin 32) (s : State) : Host.Outcome State Fault Refusal :=
  s.next (mlkGo s.chip true reg.val 0)

/-- A control transaction gives up (R423). -/
def Chip.mlkGiveUp (c : Chip) (reg result : Nat) : Chip := (c.raise 0x39 2).event 0x6C01 [reg, result]

/-- The firmware transaction ends (R423). -/
def mlkTxDone (c : Chip) (replies : List (BitVec 32)) : Chip :=
  if !c.alive then c
  else match c.links.mlk with
    | none => c
    | some q =>
      let p := mlkTries q replies c.mlkLimit
      let c := { c with links := { c.links with mlk := none } }
      let c := if p.1 = 1 then (c.motorTakes q).bootSpin q else c
      let c := if p.1 = 1 ∧ q.toNat / 2 ^ 24 = 3 * 64 + 1 then
          { c with att := c.att.status (p.2.toNat / 256) } else c
      let c := if p.1 = 3 then c else c.setReg R.MLK_RX
        (BitVec.ofNat 32 (p.2.toNat / 256 % 65536 + b2n (p.2.getLsbD 29) * 65536))
      let c := (c.setFld R.MLK_TX_CTRL 6 4 p.1).raise 0x39 0
      if p.1 = 1 then c else c.mlkGiveUp (q.toNat / 2 ^ 24 % 32) p.1

/-- MLK_TX_DONE (R423). -/
def execMlkTxDone (replies : List (BitVec 32)) (s : State) : Host.Outcome State Fault Refusal :=
  s.done (mlkTxDone s.chip replies)

/-- The motor chip's IRQ is read, written back, and passed on (R422). A failed transaction gives up and the
handling restarts after 100 us (R423). -/
def mlkIrq (c : Chip) (reads writes : List (BitVec 32)) : Chip :=
  let rq := mlkRequest true 2 0
  let c := c.emit (.mlkFrame rq)
  let c := { c with links := { c.links with irqWait := false, irqLow := true } }
  let p := mlkTries rq reads c.mlkLimit
  let giveUp (c : Chip) (v : Nat) : Chip :=
    ({ c with links := { c.links with irqWait := true } }).mlkGiveUp 2 v
  if p.1 ≠ 1 then giveUp c p.1
  else
    let v := p.2.toNat / 256 % 65536
    let wq := mlkRequest false 2 v
    let c := c.emit (.mlkFrame wq)
    let q := mlkTries wq writes c.mlkLimit
    if q.1 ≠ 1 then giveUp c q.1
    else
      let c := c.setReg R.MLK_IRQ_LAST (BitVec.ofNat 32 (v % 2048))
      let c := { c with links := { c.links with irqLow := false }, att := c.att.events v }
      let c := if v.testBit 0 then (c.retractDone .A).raise 0x39 4 else c
      let c := if v.testBit 1 then (c.retractDone .B).raise 0x39 5 else c
      if v % 2048 / 4 ≠ 0 then c.raise 0x39 1 else c

/-- MLK_IRQ (R422). -/
def execMlkIrq (reads writes : List (BitVec 32)) (s : State) : Host.Outcome State Fault Refusal :=
  s.done (if s.chip.alive && !s.chip.links.irqWait then mlkIrq s.chip reads writes else s.chip)

/-- MLK_IRQ_RETRY (R423). -/
def execMlkIrqRetry (reads writes : List (BitVec 32)) (s : State) : Host.Outcome State Fault Refusal :=
  s.done (if s.chip.alive && s.chip.links.irqWait then mlkIrq s.chip reads writes else s.chip)

/-- RETRACT_N follows MLK_CTRL.RETRACT (R420); a write of 0 in HOLDUP has no effect. -/
def mlkRetract (c : Chip) (retract : Bool) : Chip :=
  if !c.alive || (c.inHoldup && !retract) then c
  else c.setBit R.MLK_CTRL 0 retract

/-- MLK_RETRACT_CTRL (R420). -/
def execMlkRetractCtrl (retract : Bool) (s : State) : Host.Outcome State Fault Refusal :=
  s.next (mlkRetract s.chip retract)

/-! ### Sensors -/

/-- A code with its correction (R542), held in 12 bits. -/
def Chip.sensorCode (c : Chip) (n : Nat) (raw : Int) : Int :=
  let w := c.corrAt (corrKey 0x3A 0 n 0 0)
  let v := (raw + signed 8 (field w 7 0)) * (4096 + signed 10 (field w 25 16))
  clampInt (-2048) 2047 (roundDiv v 4096)

/-- CAL runs item 7 (R552). -/
def Chip.sensorsInTest (c : Chip) : Bool := c.cal.dev.any (fun r => r.item == 7)

/-- Write permission of both channels is withdrawn without a servo sample (R315, R426). -/
def Chip.withdraw (c : Chip) : Chip :=
  let go (c : Chip) (a : Act) : Chip :=
    ((c.mapChan a (fun x => { x with permit := false })).dropGate a 8).runChannel a
  go (go c .A) .B

/-- An event begins or is extended (R426). -/
def Chip.sensorEvent (c : Chip) (bit count code peak : Nat) : Chip :=
  if c.bit R.SNS_EVENT bit then c
  else (((c.setBit R.SNS_EVENT bit true).bump count).raise 0x3A bit).event code [peak]

/-- A conversion of the three sensors (R425, R426). -/
def snsSample (c : Chip) (s0 s1 s2 : BitVec 12) : Chip :=
  if !c.alive || c.sensorsInTest then c
  else
    let v0 := c.sensorCode 0 s0.toInt
    let v1 := c.sensorCode 1 s1.toInt
    let v2 := c.sensorCode 2 s2.toInt
    let put (c : Chip) (k : Nat) (v : Int) : Chip := c.setReg k (BitVec.ofInt 32 v)
    let c := put (put (put c R.SNS_S0 v0) R.SNS_S1 v1) R.SNS_S2 v2
    let diff := (v0 - v1).natAbs
    let run := if c.fld R.SNS_RV 10 0 ≤ diff then min (c.links.rvRun + 1) 15 else 0
    let c := { c with links := { c.links with rvRun := run } }
    let active := c.bit R.SNS_EVENT 0 || c.bit R.SNS_EVENT 1
    let c := if c.fld R.SNS_SHOCK 10 0 ≤ v2.natAbs then
        c.sensorEvent 0 R.SNS_CNT_SHOCK 0x7001 v2.natAbs else c
    let c := if c.fld R.SNS_RV 19 16 ≤ run then c.sensorEvent 1 R.SNS_CNT_RV 0x7002 diff else c
    let now := c.bit R.SNS_EVENT 0 || c.bit R.SNS_EVENT 1
    if now && !active then c.withdraw else c

/-- SNS_SAMPLE (R426). -/
def execSnsSample (s0 s1 s2 : BitVec 12) (s : State) : Host.Outcome State Fault Refusal :=
  s.done (snsSample s.chip s0 s1 s2)

/-- SNS_EVENT_END (R426). -/
def execSnsEventEnd (shock : Bool) (s : State) : Host.Outcome State Fault Refusal :=
  s.next (if s.chip.alive then s.chip.setBit R.SNS_EVENT (if shock then 0 else 1) false else s.chip)

/-! ### Synthesizers -/

/-- A channel synthesizer retunes to the bit rate of the next descriptor (R580): locked, or SYN_UNLOCK
after 10 us. -/
def synthLock (c : Chip) (a : Act) (locked : Bool) : Chip :=
  if !c.alive then c
  else match (c.chan a).front with
    | none => c
    | some d =>
      let mhz := fmtBitrate ((c.chan a).format d.words.head d.words.ann)
      if mhz = 0 then c
      else
        let c := (c.setFld (synReg a) 12 0 mhz).setBit (synReg a) 31 locked
        if locked then c.runChannel a else c.raise 0x01 1

/-- SYNTH_LOCK (R580). -/
def execSynthLock (a : Act) (locked : Bool) (s : State) : Host.Outcome State Fault Refusal :=
  s.done (synthLock s.chip a locked)

end Sys2Proof.Machine
end

