-- ==== Sys2Proof/Machine/Cal.lean ====
section
/-! DEFINITION. The calibration engine (R538 to R557): plans, direct items, the derivation of each result,
its limits, and the ends of a calibration. -/

namespace Sys2Proof.Machine

open Sys2Proof

/-! ### Registers of an actuator -/

def calPlanReg : Act → Nat
  | .A => R.CAL_PLAN_A
  | .B => R.CAL_PLAN_B

def calResultReg : Act → Nat
  | .A => R.CAL_RESULT_A
  | .B => R.CAL_RESULT_B

/-- The plan that runs for an actuator. -/
def Cal.plan (x : Cal) : Act → Option CalRun
  | .A => x.a
  | .B => x.b

def Chip.setPlan (c : Chip) (a : Act) (r : Option CalRun) : Chip :=
  match a with
  | .A => { c with cal := { c.cal with a := r } }
  | .B => { c with cal := { c.cal with b := r } }

def Chip.setCalBit (c : Chip) (a : Act) (on : Bool) : Chip :=
  match a with
  | .A => { c with sys := { c.sys with calA := on } }
  | .B => { c with sys := { c.sys with calB := on } }

/-- Write a correction field. -/
def Chip.setCorr (c : Chip) (k : Nat) (v : Word) : Chip := { c with corr := SMap.put corrReset c.corr k v }

/-! ### Targets (R540, R548) -/

/-- A head and Annulus have a format. -/
def Chan.hasFormat (x : Chan) (head ann : Nat) : Bool := fmtBitrate (x.format head ann) != 0

/-- The targets of one item over heads and Annuli, in ascending head, Annulus and path order. -/
def Chan.calTargets (x : Chan) (item : Nat) (heads anns : List Nat) : List CalTarget :=
  match item with
  | 0 => [{ item := 0, path := 0 }, { item := 0, path := 1 }]
  | 1 =>
    heads.flatMap (fun h => (anns.filter (x.hasFormat h)).flatMap (fun n =>
      [{ item := 1, head := h, ann := n, path := 0 }, { item := 1, head := h, ann := n, path := 1 }]))
  | 4 => heads.flatMap (fun h => (anns.filter (x.hasFormat h)).map (fun n => { item := 4, head := h, ann := n }))
  | 6 =>
    (heads.filter (fun h => (List.range 8).any (x.hasFormat h))).map (fun h => { item := 6, head := h })
  | 2 => (anns.filter (fun n => (List.range 10).any (fun h => x.hasFormat h n))).map
      (fun n => { item := 2, ann := n })
  | 3 => (anns.filter (fun n => (List.range 10).any (fun h => x.hasFormat h n))).map
      (fun n => { item := 3, ann := n })
  | 5 => [{ item := 5 }]
  | 7 => [{ item := 7, path := 0 }, { item := 7, path := 1 }, { item := 7, path := 2 }]
  | 8 => (List.range 8).map (fun n => { item := 8, path := n })
  | _ => []

/-- The targets of an actuator's plan. -/
def Chip.planTargets (c : Chip) (a : Act) : List CalTarget :=
  let k := calPlanReg a
  let items := (List.range 7).filter (fun n => c.bit k n && n != 5)
  let anns := (List.range 8).filter (fun n => c.bit k (8 + n))
  let heads := (List.range 10).filter (fun n => c.bit k (16 + n))
  items.flatMap (fun n => (c.chan a).calTargets n heads anns)

/-! ### The end of a calibration (R549, R554) -/

/-- A result register's value (R555). -/
def CalRun.word (r : CalRun) (result : Nat) : Word :=
  BitVec.ofNat 32 (r.item + result * 2 ^ 4 + min 255 r.accepted * 2 ^ 8 + min 255 r.rejected * 2 ^ 16)

/-- The RESULT of a run that came to its end. -/
def CalRun.result (r : CalRun) : Nat := if r.refBad then 6 else if r.rejected ≠ 0 then 2 else 1

/-- The mode is SERVICE again once no actuator is in calibration (R32). -/
def Chip.calLeaves (c : Chip) : Chip :=
  if c.sys.mode = .calibrate ∧ !c.sys.calA ∧ !c.sys.calB then c.enterService else c

/-- A calibration that completed watches the temperature from now on (R553). -/
def Chip.setWatch (c : Chip) (a : Act) (on : Bool) : Chip :=
  match a with
  | .A => { c with cal := { c.cal with watchA := on } }
  | .B => { c with cal := { c.cal with watchB := on } }

/-- The calibration of an actuator ends with a RESULT (R549); HOLDUP abandons it (R554). -/
def Chip.finishPlan (c : Chip) (a : Act) (r : CalRun) (result : Nat) : Chip :=
  let c := ((c.setPlan a none).setCalBit a false).setReg (calResultReg a) (r.word result)
  if result = 5 then c
  else
    let c := c.raise 0x06 a.toNat
    let c := c.setFld R.CAL_TEMP_LAST (8 * a.toNat + 7) (8 * a.toNat) c.loc.temp
    (c.setWatch a true).calLeaves

/-- A direct item ends with a RESULT. -/
def Chip.finishDirect (c : Chip) (r : CalRun) (result : Nat) : Chip :=
  let c := { c with cal := { c.cal with dev := c.cal.dev.filter (fun (x : CalRun) => !(x.item == r.item && x.act == r.act)) } }
  (c.setReg R.CAL_RESULT_DEV (r.word result)).raise 0x06 2

/-- Whatever CAL does for an actuator's channel ends: 4 by loss or retirement (R554). -/
def Chip.endCal (c : Chip) (a : Act) (result : Nat) : Chip :=
  let c := match c.cal.plan a with
    | some r => c.finishPlan a r result
    | none => c
  (c.cal.dev.filter (fun r => r.act == a && [0, 2, 3].contains r.item)).foldl
    (fun c r => c.finishDirect r result) c

/-- HOLDUP begins (R554): every item is abandoned. -/
def Chip.holdupCal (c : Chip) : Chip :=
  let c := (c.endCal .A 5).endCal .B 5
  c.cal.dev.foldl (fun c r => c.finishDirect r 5) c

/-- A calibration of a selected actuator begins (R549, R554): a retired actuator's ends with RESULT 4, an
empty plan's with RESULT 1. -/
def Chip.startCal (c : Chip) (a : Act) : Chip :=
  let c := { c.setCalBit a true with sys := { (c.setCalBit a true).sys with mode := .calibrate } }
  let r : CalRun := { act := a, todo := c.planTargets a }
  if c.outOfService a then c.finishPlan a r 4
  else match r.todo with
    | [] => c.finishPlan a r 1
    | t :: _ => c.setPlan a (some { r with item := t.item })

/-! ### Results (R542, R546) -/

/-- A derived result: the correction it writes, the value and limit an event gives if it is rejected, and
whether it is within its limits. -/
structure CalOutcome where
  key : Nat
  word : Word
  good : Bool
  value : Int := 0
  limit : Nat := 0

/-- The correction a target writes. -/
def calKey (a : Act) (t : CalTarget) : Nat :=
  match t.item with
  | 0 => corrKey (chanPage a 0x20) 0 t.path 0 0
  | 1 => corrKey (chanPage a 0x20) 1 t.head t.ann t.path
  | 2 => corrKey (chanPage a 0x21) 0 0 t.ann 0
  | 3 => corrKey (chanPage a 0x23) 0 0 t.ann 0
  | 4 => corrKey (chanPage a 0x23) 1 t.head t.ann 0
  | 5 => corrKey (chanPage a 0x24) 0 0 0 0
  | 6 => corrKey (chanPage a 0x20) 2 t.head 0 0
  | _ => corrKey 0x3A 0 t.path 0 0

/-- How an offset and gain pair is derived and held: the scales of OFS and GAIN, the ideal span times ten,
the limits of each from below and above, and the place and width of each field. -/
structure SpanRule where
  ofsScale : Nat
  gainScale : Nat
  ideal10 : Nat
  ofsLo : Int
  ofsHi : Int
  gainLo : Int
  gainHi : Int
  ofsPos : Nat
  ofsWidth : Nat
  gainPos : Nat
  gainWidth : Nat

def spanRule : Nat → SpanRule
  | 0 => ⟨16, 4096, 960, -96, 96, -409, 409, 0, 8, 16, 10⟩
  | 5 => ⟨1, 16384, 327680, -256, 256, -819, 819, 16, 10, 0, 12⟩
  | 7 => ⟨1, 4096, 16384, -40, 40, -204, 204, 0, 8, 16, 10⟩
  | _ => ⟨1, 64, 480, -8, 7, -16, 15, 0, 4, 8, 5⟩

/-- GAIN = round(scale * (ideal / span - 1)); a span that is not positive has none within its limits. -/
def SpanRule.gain (u : SpanRule) (span : Int) : Option Int :=
  if span ≤ 0 then none
  else
    let d := 10 * span.toNat
    some (roundDiv (u.gainScale * (u.ideal10 * 4096 - d)) d)

/-- The bound a value crosses. -/
def boundOf (lo hi v : Int) : Nat := (if v < lo then lo else hi).natAbs

/-- Items 0, 2, 3, 5 and 7. -/
def spanOutcome (a : Act) (t : CalTarget) (zero span : Int) : CalOutcome :=
  let u := spanRule t.item
  let ofs := -(roundDiv (u.ofsScale * zero) 4096)
  let k := calKey a t
  if ofs < u.ofsLo ∨ u.ofsHi < ofs then
    { key := k, word := 0, good := false, value := ofs, limit := boundOf u.ofsLo u.ofsHi ofs }
  else match u.gain span with
    | none => { key := k, word := 0, good := false, value := roundDiv span 4096, limit := u.gainHi.natAbs }
    | some g =>
      if g < u.gainLo ∨ u.gainHi < g then
        { key := k, word := 0, good := false, value := g, limit := boundOf u.gainLo u.gainHi g }
      else
        { key := k, good := true
          word := BitVec.ofNat 32 (2 ^ 31 + unsigned u.ofsWidth ofs * 2 ^ u.ofsPos
            + unsigned u.gainWidth g * 2 ^ u.gainPos) }

/-- Settings whose sectors all confirmed. -/
def confirmedOf (gs : List (Bool × Nat)) : List (Nat × Nat) :=
  gs.zipIdx.filterMap (fun e => if e.1.1 ∧ e.2 ≤ 30 then some (e.2, e.1.2) else none)

/-- The longest run of adjacent numbers in a rising list. -/
def longestRun : List Nat → Nat → Nat → Nat
  | [], run, best => max run best
  | [_], run, best => max (run + 1) best
  | m :: n :: ms, run, best =>
    if n = m + 1 then longestRun (n :: ms) (run + 1) best else longestRun (n :: ms) 0 (max (run + 1) best)

/-- Item 1 (R546): the lowest mean ITER; ties to the setting nearest the value in force, and between two
equally near ones `up` decides. -/
def pickBoost (cs : List (Nat × Nat)) (now : Nat) (up : Bool) : Nat :=
  let low := cs.foldl (fun m e => min m e.2) 0xFFFFFFFF
  let ties := (cs.filter (fun e => e.2 == low)).map (·.1)
  let dist (n : Nat) : Nat := ((n : Int) - now).natAbs
  let near := ties.foldl (fun m n => min m (dist n)) 0xFFFFFFFF
  let best := ties.filter (fun n => dist n == near)
  if up then best.getLastD 0 else best.headD 0

/-- A VALID result within its absolute limit is also held to its drift limit where the correction in force
is VALID (R546). -/
def drifted (old : Word) (top : Nat) (v limit : Nat) (percent : Bool) : Option Nat :=
  let o := field old top 0
  let d := ((v : Int) - o).natAbs
  if !old.getLsbD 31 then none
  else if percent then (if o * limit < d * 100 then some limit else none)
  else if limit < d then some limit else none

/-- The outcome of an item whose result is one number (items 1, 4 and 6). -/
def levelOutcome (k : Nat) (old : Word) (top v lo hi : Nat) (good : Bool) (limit : Nat) (percent : Bool) :
    CalOutcome :=
  if v < lo ∨ hi < v ∨ !good then
    { key := k, word := 0, good := false, value := v, limit := if v < lo then lo else hi }
  else match drifted old top v limit percent with
    | some l => { key := k, word := 0, good := false, value := v, limit := l }
    | none => { key := k, good := true, word := BitVec.ofNat 32 (2 ^ 31 + v) }

/-- The outcome of a target's measurement. None where the measurement is not of the item's kind. -/
def Chip.calOutcome (c : Chip) (a : Act) (t : CalTarget) (m : CalMeasure) (up : Bool) : Option CalOutcome :=
  let k := calKey a t
  let old := c.corrAt k
  let drift := c.reg R.CAL_DRIFT
  match t.item, m with
  | 1, .boost gs =>
    let cs := confirmedOf gs
    let run := longestRun (cs.map (·.1)) 0 0
    if run < 3 then some { key := k, word := 0, good := false, value := run, limit := 3 }
    else some (levelOutcome k old 4 (pickBoost cs (field old 4 0) up) 0 30 true (field drift 4 0) false)
  | 4, .level v good => some (levelOutcome k old 11 v 0x040 0xFC0 good (field drift 14 8) true)
  | 6, .level v good => some (levelOutcome k old 7 v 20 230 good (field drift 22 16) true)
  | 8, .temp r =>
    let ofs : Int := c.fld R.CAL_TEMP_KNOWN 10 0 - r
    some { key := k, word := BitVec.ofNat 32 (2 ^ 31 + unsigned 12 ofs), good := ofs.natAbs ≤ 128
           value := ofs, limit := 128 }
  | 0, .span z s => some (spanOutcome a t z s)
  | 2, .span z s => some (spanOutcome a t z s)
  | 3, .span z s => some (spanOutcome a t z s)
  | 5, .span z s => some (spanOutcome a t z s)
  | 7, .span z s => some (spanOutcome a t z s)
  | _, _ => none

/-- The head or path a REJECT event names: the head within the drive, the path, input or sensor, or the
Annulus of items 2 and 3. -/
def CalTarget.place (t : CalTarget) (a : Act) : Nat :=
  if t.item ∈ [1, 4, 6] then a.toNat * 10 + t.head
  else if t.item ∈ [2, 3] then t.ann
  else if t.item = 5 then a.toNat
  else t.path

/-- An accepted result is written with VALID 1; a rejected one writes nothing (R547). -/
def Chip.applyOutcome (c : Chip) (r : CalRun) (t : CalTarget) (o : CalOutcome) : Chip × CalRun :=
  if o.good then
    (if t.item = 8 then c.setReg (R.CAL_TEMP_OFS t.path) o.word else c.setCorr o.key o.word,
      { r with accepted := r.accepted + 1 })
  else
    (((c.bump R.CAL_REJECT_CNT).raise 0x06 3).event 0x1801
        [t.item, t.place r.act, unsigned 64 o.value, o.limit],
      { r with rejected := r.rejected + 1 })

/-- One target of a run is measured (R539, R546). Answers the run with what remains. -/
def Chip.calStep (c : Chip) (r : CalRun) (reference : BitVec 16) (m : CalMeasure) : Option (Chip × CalRun) :=
  match r.todo with
  | [] => none
  | t :: ts =>
    let r := { r with item := t.item }
    let volts := [0, 5, 7, 8].contains t.item
    let c := if volts then c.setReg R.CAL_REF_MEAS (reference.setWidth 32) else c
    if volts ∧ 240 < ((reference.toNat : Int) - 24000).natAbs then
      some (c, { r with refBad := true, todo := ts.filter (fun x => x.item != t.item) })
    else if t.item = 4 ∧ c.fld (R.AS_CFG r.act) 1 0 = 0 then some (c, { r with todo := ts })
    else
      let p := c.takeFree 1
      match p.2.calOutcome r.act t m (p.1 == 1) with
      | none => none
      | some o =>
        let q := p.2.applyOutcome { r with todo := ts } t o
        some q

/-- The channel of an actuator has ended its descriptor, so CAL may have it (R549). -/
def Chip.channelFree (c : Chip) (a : Act) : Bool := (c.chan a).run.isNone

/-- CAL finishes one target (R546, R549); during TEST 21 it waits (R576). -/
def calTargetResult (c : Chip) (u : CalUnit) (reference : BitVec 16) (m : CalMeasure) : Chip :=
  if !c.alive || c.inHoldup || c.testing 21 then c
  else match u with
    | .plan a =>
      match c.cal.plan a with
      | none => c
      | some r =>
        if !c.channelFree a then c
        else match c.calStep r reference m with
          | none => c
          | some (c, r) =>
            if r.todo.isEmpty then (c.finishPlan a r r.result).runChannel a
            else c.setPlan a (some { r with item := (r.todo.headD { item := r.item }).item })
    | .direct item a =>
      match c.cal.dev.find? (fun r => r.item == item && r.act == a) with
      | none => c
      | some r =>
        match c.calStep r reference m with
        | none => c
        | some (c, r) =>
          if r.todo.isEmpty then ((c.finishDirect r r.result).runChannel .A).runChannel .B
          else { c with cal := { c.cal with dev := c.cal.dev.map (fun (x : CalRun) =>
                  if x.item == item && x.act == a then r else x) } }

/-- CAL_TARGET_RESULT (R546). -/
def execCalTargetResult (u : CalUnit) (reference : BitVec 16) (m : CalMeasure) (s : State) :
    Host.Outcome State Fault Refusal := s.done (calTargetResult s.chip u reference m)

/-- A calibration reaches CAL_LIMIT (R550). -/
def calLimitReached (c : Chip) (a : Act) : Chip :=
  if !c.alive || c.inHoldup then c
  else match c.cal.plan a with
    | none => c
    | some r => ((c.finishPlan a r 3).raise 0x06 4).runChannel a

/-- CAL_LIMIT_REACHED (R550). -/
def execCalLimitReached (a : Act) (s : State) : Host.Outcome State Fault Refusal :=
  s.done (calLimitReached s.chip a)

/-! ### Direct items (R552) -/

/-- The channel holds a queued or running descriptor. -/
def Chan.busy (x : Chan) : Bool := x.run.isSome || !x.queue.isEmpty

/-- The RESULT of a direct request. An item whose target is the one of a running direct item meets a busy
target. -/
def Chip.directResult (c : Chip) (item : Nat) (a : Act) : Nat :=
  if !([0, 2, 3, 5, 7, 8].contains item) then 2
  else if c.inHoldup then 5
  else if item = 8 ∧ !c.diagOpen then 4
  else if item = 7 ∨ item = 8 then (if c.cal.dev.isEmpty then 1 else 3)
  else if item = 5 then
    let e := (c.cle a).state
    if (e == .off || e == .lost) && !c.cal.dev.any (fun r => r.item == 5 && r.act == a) then 1 else 3
  else if c.calOwns a || (c.chan a).busy then 3
  else 1

/-- A direct request (R552): CAL_DIRECT holds ITEM and ACT, GO returns to 0, and RESULT says what came of
it. -/
def calDirect (c : Chip) (item : Nat) (a : Act) : Chip :=
  if !c.alive then c
  else
    let r := c.directResult item a
    let c := c.setReg R.CAL_DIRECT (BitVec.ofNat 32 (item + a.toNat * 2 ^ 8 + r * 2 ^ 16))
    if r ≠ 1 then c
    else
      let x : CalRun :=
        { act := a, item := item, todo := (c.chan a).calTargets item (List.range 10) (List.range 8) }
      if x.todo.isEmpty then c.finishDirect x 1
      else
        let c := { c with cal := { c.cal with dev := c.cal.dev ++ [x] } }
        if item = 7 then c.withdraw else c

/-- CAL_DIRECT_ADC (R552). -/
def execCalDirectAdc (a : Act) (s : State) : Host.Outcome State Fault Refusal := s.done (calDirect s.chip 0 a)

/-- CAL_DIRECT_PRECOMP_DELAY (R552). -/
def execCalDirectPrecompDelay (a : Act) (s : State) : Host.Outcome State Fault Refusal :=
  s.done (calDirect s.chip 2 a)

/-- CAL_DIRECT_ASSIST_DELAY (R552). -/
def execCalDirectAssistDelay (a : Act) (s : State) : Host.Outcome State Fault Refusal :=
  s.done (calDirect s.chip 3 a)

/-- CAL_DIRECT_MA_DAC (R552). -/
def execCalDirectMaDac (a : Act) (s : State) : Host.Outcome State Fault Refusal := s.done (calDirect s.chip 5 a)

/-- CAL_DIRECT_SENSORS (R552). -/
def execCalDirectSensors (s : State) : Host.Outcome State Fault Refusal := s.done (calDirect s.chip 7 .A)

/-- CAL_DIRECT_TEMP (R552). -/
def execCalDirectTemp (s : State) : Host.Outcome State Fault Refusal := s.done (calDirect s.chip 8 .A)

/-! ### Temperature drift (R553) -/

/-- The composite temperature reads `temp`: TEMP_DRIFT the first time it differs from CAL_TEMP_LAST by
TEMP_C or more. -/
def tempDrift (c : Chip) (a : Act) (temp : Nat) : Chip :=
  if !c.alive then c
  else
    let c := { c with loc := { c.loc with temp := temp } }
    let last := c.fld R.CAL_TEMP_LAST (8 * a.toNat + 7) (8 * a.toNat)
    let lim := c.fld R.CAL_DRIFT 29 24
    let watch := match a with | .A => c.cal.watchA | .B => c.cal.watchB
    if watch && lim != 0 && decide (lim ≤ ((temp : Int) - last).natAbs) then (c.setWatch a false).raise 0x06 5
    else c

/-- TEMP_DRIFT (R553). -/
def execTempDrift (a : Act) (temp : Nat) (s : State) : Host.Outcome State Fault Refusal :=
  s.next (tempDrift s.chip a temp)

end Sys2Proof.Machine
end

