-- ==== Sys2Proof/Machine/Bst.lean ====
section
/-! DEFINITION. The self-test engine and the repair of arrays (R558 to R578). -/

namespace Sys2Proof.Machine

open Sys2Proof

/-! ### The tests (R558 to R560) -/

/-- A memory test: its segments and its repair sub-arrays; none for another TEST. -/
def memoryTest : Nat → Option (Nat × Nat)
  | 0 => some (2048, 32)
  | 1 => some (1024, 16)
  | 2 => some (512, 8)
  | 3 => some (512, 8)
  | 4 => some (96, 12)
  | 5 => some (64, 1)
  | 6 => some (64, 1)
  | 7 => some (8, 1)
  | 8 => some (8, 1)
  | _ => none

/-- Planned patterns of an analog test (R558). -/
def analogTest : Nat → Option Nat
  | 16 => some 8
  | 17 => some 8
  | 18 => some 17
  | 19 => some 17
  | 20 => some 7
  | 21 => some 16
  | _ => none

/-- Elements of an algorithm (R559). -/
def elementsOf : Nat → Nat
  | 0 => 6
  | 1 => 4
  | _ => 12

/-- The page a test occupies (R558). -/
def testPage : Nat → Nat
  | 0 => 0x42
  | 1 => 0x42
  | 2 => 0x42
  | 7 => 0x24
  | 8 => 0x2C
  | 16 => 0x21
  | 17 => 0x29
  | 18 => 0x24
  | 19 => 0x2C
  | 20 => 0x01
  | 21 => 0x06
  | _ => 0x50

/-- The condition of R558 for a test outside BOOT. -/
def Chip.testAllowed (c : Chip) (test : Nat) : Bool :=
  let idle (a : Act) : Bool := (c.cle a).state == .off || (c.cle a).state == .lost
  match test with
  | 5 => !c.bit R.CPU_RELEASE 6
  | 6 => !c.bit R.CPU_RELEASE 7
  | 7 => idle .A
  | 8 => idle .B
  | 16 => !(c.chan .A).busy
  | 17 => !(c.chan .B).busy
  | 18 => idle .A
  | 19 => idle .B
  | 21 => c.cal.a.isNone && c.cal.b.isNone && c.cal.dev.isEmpty
  | _ => true

/-- The window of VDD_CORE (R562), in tenths of a millivolt. -/
def vddGood (t : Nat) : Bool := decide (7200 ≤ t) && decide (t ≤ 7875)

/-- The test's clock lies within 2 %, in units of 0.1 %; TEST 20 checks none (R562). -/
def clockGood (test : Nat) (dev : Int) : Bool := test == 20 || decide (dev.natAbs ≤ 20)

/-- BST_PRECOND reports what BST measured (R562). -/
def Chip.showPrecond (c : Chip) (t : Nat) (dev : Int) : Chip :=
  c.setReg R.BST_PRECOND (BitVec.ofNat 32 (t / 10 % 1024 + unsigned 8 dev * 2 ^ 16))

/-! ### Results (R567, R568) -/

/-- Planned patterns of a run. -/
def BstRun.planned (r : BstRun) : Nat :=
  match memoryTest r.test with
  | some (segs, _) => (segs - r.start) * elementsOf r.algo
  | none => (analogTest r.test).getD 0

/-- The running test is shown, or none. -/
def Chip.showRun (c : Chip) (r : Option BstRun) : Chip :=
  let c := { c with bst := { c.bst with run := r } }
  match r with
  | some r => c.setReg R.BST_STATUS (BitVec.ofNat 32 (1 + r.test * 2 ^ 8 + r.seg * 2 ^ 16))
  | none => c.setReg R.BST_STATUS 0

/-- A test ends (R567, R568): COMPLETE, the counts, the first failure, the signatures, RESULT in its order of
precedence, and the events. The signature's rule is not stated: SIG equals SIG_EXP where a test completed
without failure, and is a free value otherwise. -/
def Chip.endTest (c : Chip) (r : BstRun) (cause : Nat) : Chip :=
  let complete : Bool := cause == 0
  let result := if r.fails ≠ 0 then 2 else if complete ∧ r.done = r.planned then 1 else 3
  let c := (c.showRun none).setBit (pStatus (testPage r.test)) 31 false
  let c := c.setReg R.BST_RESULT (BitVec.ofNat 32
    (result + b2n complete * 2 ^ 3 + cause * 2 ^ 4 + r.test * 2 ^ 8 + r.algo * 2 ^ 16))
  let c := c.setReg R.BST_PLANNED (BitVec.ofNat 32 r.planned)
  let c := c.setReg R.BST_PATTERN_COUNT (BitVec.ofNat 32 r.done)
  let c := c.setReg R.BST_FAIL_CNT (BitVec.ofNat 32 (min r.fails 0xFFFF))
  let c := c.setReg R.BST_NEXT_SEG (BitVec.ofNat 32 r.seg)
  let c := match r.first with
    | some (addr, bit, el) =>
      (c.setReg R.BST_FAIL_ADDR (BitVec.ofNat 32 addr)).setReg R.BST_FAIL_INFO (BitVec.ofNat 32 (bit + el % 16 * 2 ^ 8))
    | none => (c.setReg R.BST_FAIL_ADDR 0).setReg R.BST_FAIL_INFO 0
  let c := c.setReg R.BST_SIG_EXP r.sig
  let p : Word × Chip := if complete ∧ r.fails = 0 then (r.sig, c) else c.takeFree 32
  let c := (p.2.setReg R.BST_SIG p.1).raise 0x07 0
  if result = 2 then c.raise 0x07 1
  else if result = 3 then (c.raise 0x07 2).event 0x1C02 [r.test, r.done]
  else c

/-- Failures found in the segment at hand, or among the patterns; the first of the test is recorded (R568). -/
def Chip.noteFails (c : Chip) (r : BstRun) (fs : List BstFail) : Chip × BstRun :=
  match fs with
  | [] => (c, r)
  | f :: _ =>
    let addr := if (memoryTest r.test).isSome then r.seg * 4096 + f.place % 512 * 8 else f.place
    let bit := if (memoryTest r.test).isSome then f.bit % 128 else 0
    let n := match memoryTest r.test with
      | some _ => (fs.foldl (fun l x => insertNat l (x.place % 512)) []).length
      | none => (fs.foldl (fun l x => insertNat l x.place) []).length
    if r.first.isSome then (c, { r with fails := r.fails + n })
    else (c.event 0x1C01 [r.test, addr, bit], { r with fails := r.fails + n, first := some (addr, bit, f.element) })

/-! ### Segments (R564) -/

/-- The L2 lines of a segment of TEST 3 are cleaned and invalidated, except in carved-out ways (R564). -/
def Chip.clearSegment (c : Chip) (test seg : Nat) : Chip :=
  if test ≠ 3 ∨ seg / 32 < c.carvedWays then c
  else
    let ks := (c.cpu.l2.filter (fun e => e.1 % 16 == seg / 32 && e.1 / 16 / 64 == seg % 32)).map (·.1)
    ks.foldl Chip.flushLine c

/-- Segments of one sub-array of a test. -/
def segsPerSub (test : Nat) : Nat :=
  match memoryTest test with
  | some (segs, subs) => segs / subs
  | none => 1

/-- A spare of a sub-array is in use. -/
def Bst.spareUsed (b : Bst) (test sub spare : Nat) : Bool :=
  b.soft.any (fun e => e.test == test && e.sub == sub && e.spare == spare)

/-- The spare a failing word and bit takes (R571, R573): a free spare row for its row, else a free spare column
for its bit; none where an entry already replaces that row. -/
def Bst.spareFor (b : Bst) (test seg word bit : Nat) : Option RepairEntry :=
  let n := segsPerSub test
  let sub := seg / n
  let row := seg % n * 8 + word / 64
  if b.soft.any (fun e => e.test == test && e.sub == sub && decide (e.spare < 2) && e.position == row) then none
  else match [0, 1].find? (fun s => !b.spareUsed test sub s) with
    | some s => some ⟨test, sub, s, row⟩
    | none =>
      if b.soft.any (fun e => e.test == test && e.sub == sub && decide (2 ≤ e.spare) && e.position == bit) then none
      else match [2, 3].find? (fun s => !b.spareUsed test sub s) with
        | some s => if bit < 72 then some ⟨test, sub, s, bit⟩ else none
        | none => none

/-- Put a soft entry in force. -/
def Chip.addRepair (c : Chip) (e : RepairEntry) : Chip := { c with bst := { c.bst with soft := c.bst.soft ++ [e] } }

/-- AUTO_REPAIR of a finished segment (R573). -/
def Chip.autoRepair (c : Chip) (r : BstRun) (fs : List BstFail) : Chip :=
  if !r.repair then c
  else fs.foldl (fun c f =>
    match c.bst.spareFor r.test r.seg (f.place % 512) f.bit with
    | some e => c.addRepair e
    | none => c) c

/-- The test that ran has ended: a descriptor that waited for a channel's loop-back starts (R576). -/
def Chip.afterTest (c : Chip) (was : Option BstRun) : Chip :=
  match was with
  | none => c
  | some r =>
    if c.bst.run.isSome then c
    else if r.test = 16 then c.runChannel .A
    else if r.test = 17 then c.runChannel .B
    else c

/-- The elements of the segment at hand, or the patterns of an analog test, finish (R564, R560): the next
segment begins, or the test ends. -/
def bstSegmentDone (c : Chip) (fs : List BstFail) : Chip :=
  if !c.alive then c
  else match c.bst.run with
    | none => c
    | some r =>
      let p := c.noteFails r fs
      match memoryTest r.test with
      | none => p.1.endTest { p.2 with done := r.planned } 0
      | some (segs, _) =>
        let c := p.1.autoRepair r fs
        let r := { p.2 with done := r.done + elementsOf r.algo, seg := r.seg + 1 }
        if r.seg < segs then (c.showRun (some r)).clearSegment r.test r.seg else c.endTest r 0

/-- BST_SEGMENT_DONE (R564). -/
def execBstSegmentDone (fs : List BstFail) (s : State) : Host.Outcome State Fault Refusal :=
  s.next ((bstSegmentDone s.chip fs).afterTest s.chip.bst.run)

/-- The running test is cut short with a CAUSE (R565, R566): the segment at hand is restored, its completed
elements count. -/
def Chip.cutTest (c : Chip) (cause elements : Nat) (fs : List BstFail) : Chip :=
  match c.bst.run with
  | none => c
  | some r =>
    let top := match memoryTest r.test with
      | some _ => elementsOf r.algo - 1
      | none => r.planned - 1
    let p := c.noteFails r fs
    p.1.endTest { p.2 with done := r.done + min elements top } cause

/-- A test is cut short by HOLDUP or the end of DIAGNOSTIC; how far its segment had come is open. -/
def Chip.cutTestNow (c : Chip) (cause : Nat) : Chip :=
  if c.bst.run.isNone then c
  else
    let p := c.takeFree 4
    p.2.cutTest cause p.1.toNat []

/-! ### GO (R561 to R563) -/

/-- The CAUSE that refuses a GO, 0 where it is taken (R563). -/
def Chip.goCause (c : Chip) (sel : Word) (t : Nat) (dev : Int) : Nat :=
  let test := field sel 4 0
  let bad : Bool := match memoryTest test with
    | some (segs, _) => field sel 9 8 == 3 || decide (segs ≤ field sel 27 16)
    | none => (analogTest test).isNone || field sel 9 8 == 3 || field sel 27 16 == 0xFFF
  if !vddGood t then 5
  else if !bad && !clockGood test dev then 6
  else if !bad && !c.testAllowed test then 7
  else if c.inHoldup then 8
  else if bad then 9
  else 0

/-- BST_TEST is written and BST_CTRL.GO set (R561 to R564). -/
def bstGo (c : Chip) (sel : Word) (t : Nat) (dev : Int) : Chip :=
  if !c.alive then c
  else
    let p := c.preWrite R.BST_TEST sel
    let q := p.1.preWrite R.BST_CTRL 1
    let c := q.1
    if q.2 = 0 then c
    else
      let c := c.setReg R.BST_TEST p.2
      if c.bst.run.isSome then c.fault 0x07 3
      else
        let test := field sel 4 0
        let algo := field sel 9 8
        let c := c.showPrecond t dev
        let cause := c.goCause sel t dev
        if cause ≠ 0 then
          c.setReg R.BST_RESULT (BitVec.ofNat 32 (4 + cause * 2 ^ 4 + test * 2 ^ 8 + algo * 2 ^ 16))
        else
          let f := c.takeFree 32
          let start := if (memoryTest test).isSome then field sel 27 16 else 0
          let r : BstRun := { test := test, algo := algo, repair := sel.getLsbD 12, start := start, seg := start
                              sig := f.1 }
          ((f.2.showRun (some r)).setBit (pStatus (testPage test)) 31 true).clearSegment test start

/-- BST_MEMORY_TEST (R564). -/
def execBstMemoryTest (sel : Word) (t : Nat) (dev : Int) (s : State) : Host.Outcome State Fault Refusal :=
  s.next (bstGo s.chip sel t dev)

/-- BST_ANALOG_TEST (R560). -/
def execBstAnalogTest (sel : Word) (t : Nat) (dev : Int) (s : State) : Host.Outcome State Fault Refusal :=
  s.next (bstGo s.chip sel t dev)

/-- BST_CTRL.ABORT (R566). -/
def bstAbort (c : Chip) (elements : Nat) (fs : List BstFail) : Chip :=
  if !c.alive then c
  else
    let p := c.preWrite R.BST_CTRL 2
    if p.2 = 0 then p.1 else p.1.cutTest 4 elements fs

/-- BST_ABORT (R566). -/
def execBstAbort (elements : Nat) (fs : List BstFail) (s : State) : Host.Outcome State Fault Refusal :=
  s.next ((bstAbort s.chip elements fs).afterTest s.chip.bst.run)

/-- BST_YIELD_EXPIRY (R565). -/
def execBstYieldExpiry (elements : Nat) (fs : List BstFail) (s : State) : Host.Outcome State Fault Refusal :=
  s.next (if s.chip.alive then (s.chip.cutTest 1 elements fs).afterTest s.chip.bst.run else s.chip)

/-- BST measures its preconditions while a test runs (R562). -/
def bstPrecondCheck (c : Chip) (t : Nat) (dev : Int) (elements : Nat) (fs : List BstFail) : Chip :=
  match c.bst.run with
  | none => c
  | some r =>
    if !c.alive then c
    else
      let c := c.showPrecond t dev
      if !vddGood t then c.cutTest 5 elements fs
      else if !clockGood r.test dev then c.cutTest 6 elements fs
      else c

/-- BST_PRECOND_CHECK (R562). -/
def execBstPrecondCheck (t : Nat) (dev : Int) (elements : Nat) (fs : List BstFail) (s : State) :
    Host.Outcome State Fault Refusal := s.next ((bstPrecondCheck s.chip t dev elements fs).afterTest s.chip.bst.run)

/-! ### The power-on profile (R570, R571) -/

/-- An entry in force replaces the row or the column of a failure. -/
def Bst.covered (b : Bst) (f : PostFail) : Bool :=
  let n := segsPerSub f.test
  b.soft.any (fun e => e.test == f.test && e.sub == f.seg / n &&
    (if e.spare < 2 then e.position == f.seg % n * 8 + f.word / 64 else e.position == f.bit))

/-- One failure of the profile: its row or column takes a spare where one is free and none is given already;
where none is, or the failure remains, POST.UNREPAIRED, POST_FAIL and an event. Answers the spares given so far. -/
def Chip.postFailure (p : Chip × Nat) (f : PostFail) : Chip × Nat :=
  let c := p.1.setBit R.BST_POST 1 true
  let addr := f.seg * 4096 + f.word * 8
  let left (c : Chip) : Chip :=
    ((c.setBit R.BST_POST 2 true).raise 0x07 3).event 0x1C01 [f.test, addr, f.bit]
  match c.bst.spareFor f.test f.seg f.word f.bit with
  | none => (if f.fixed && c.bst.covered f then c else left c, p.2)
  | some e => (if f.fixed then c.addRepair e else left (c.addRepair e), p.2 + 1)

/-- The power-on profile is complete (R570): BST_POST says what it found. -/
def Chip.bstPost (c : Chip) (skipped : Bool) (fails : List PostFail) (analog : List Nat) : Chip :=
  let fails := if skipped then [] else fails
  let p := fails.foldl Chip.postFailure (c.setReg R.BST_POST 0, 0)
  let c := p.1
  let c := analog.foldl (fun c n => (c.setBit R.BST_POST 3 true).event 0x1C01 [n, 0, 0]) c
  let first := match fails, analog with
    | f :: _, _ => f.test
    | [], n :: _ => n
    | [], [] => 0
  let c := (c.setFld R.BST_POST 20 16 first).setFld R.BST_POST 15 8 (min p.2 255)
  (c.setBit R.BST_POST 0 true).setBit R.BST_POST 4 skipped

/-! ### Repair (R572 to R575) -/

/-- The entry BST_REPAIR_SEL names: TEST, sub-array and spare. -/
def Chip.repairSel (c : Chip) : Nat × Nat × Nat :=
  (c.fld R.BST_REPAIR_SEL 4 0, c.fld R.BST_REPAIR_SEL 12 8, c.fld R.BST_REPAIR_SEL 17 16)

/-- A soft entry by its place. -/
def Bst.entry (b : Bst) (sel : Nat × Nat × Nat) : Option RepairEntry :=
  b.soft.find? (fun e => e.test == sel.1 && e.sub == sel.2.1 && e.spare == sel.2.2)

/-- A TARGET is in range for the array and spare (R577). -/
def targetOk (sel : Nat × Nat × Nat) (target : Nat) : Bool :=
  match memoryTest sel.1 with
  | none => false
  | some (_, subs) =>
    decide (sel.2.1 < subs) && (if sel.2.2 < 2 then decide (target < segsPerSub sel.1 * 8) else decide (target < 72))

/-- Segments an entry covers: one for a row, its whole sub-array for a column (R574). -/
def entrySegs (e : RepairEntry) : List Nat :=
  let n := segsPerSub e.test
  if e.spare < 2 then [e.sub * n + e.position / 8] else (List.range n).map (fun i => e.sub * n + i)

/-- The entry of a command with its CMD_RESULT (R574): the chip with the entry applied or cleared. -/
def Chip.repairResult (c : Chip) (target : Nat) (clear : Bool) : Nat × Chip :=
  let sel := c.repairSel
  if c.bst.run.isSome then (4, c)
  else if !targetOk sel target then (2, c)
  else match clear, c.bst.entry sel with
    | false, some _ => (2, c)
    | false, none =>
      let e : RepairEntry := ⟨sel.1, sel.2.1, sel.2.2, target⟩
      (1, (entrySegs e).foldl (fun c s => c.clearSegment e.test s) (c.addRepair e))
    | true, none => (2, c)
    | true, some e =>
      if c.fuses.repairs.contains e then (3, c)
      else
        let c := { c with bst := { c.bst with soft := c.bst.soft.filter (· != e) } }
        (1, (entrySegs e).foldl (fun c s => c.clearSegment e.test s) c)

/-- A write of BST_REPAIR_CMD with GO (R574). -/
def bstRepair (c : Chip) (target : Nat) (clear : Bool) : Chip :=
  if !c.alive then c
  else
    let v := BitVec.ofNat 32 (2 ^ 31 + b2n clear * 2 ^ 30 + target)
    let p := c.preWrite R.BST_REPAIR_CMD v
    if p.2 = 0 then p.1
    else
      let r := p.1.repairResult target clear
      r.2.setReg R.BST_REPAIR_CMD (BitVec.ofNat 32 (b2n clear * 2 ^ 30 + r.1 * 2 ^ 27 + target))

/-- BST_REPAIR_APPLY (R574). -/
def execBstRepairApply (target : BitVec 12) (s : State) : Host.Outcome State Fault Refusal :=
  s.next (bstRepair s.chip target.toNat false)

/-- BST_REPAIR_CLEAR (R574). -/
def execBstRepairClear (target : BitVec 12) (s : State) : Host.Outcome State Fault Refusal :=
  s.next (bstRepair s.chip target.toNat true)

/-- BST_FUSE_STATUS follows the rows used and FUSE_PENDING. -/
def Chip.showFuse (c : Chip) (full failed : Bool) : Chip :=
  c.setReg R.BST_FUSE_STATUS (BitVec.ofNat 32
    (c.fuses.repairRows + b2n c.bst.fusePending * 2 ^ 8 + b2n full * 2 ^ 9 + b2n failed * 2 ^ 10))

/-- Programming goes on with the rows given, or ends: every row is done, or the rows have run out (R575). -/
def Chip.fuseNext (c : Chip) (es : List (RepairEntry × Bool)) (failed : Bool) : Chip :=
  let full := !es.isEmpty && decide (96 ≤ c.fuses.repairRows)
  if es.isEmpty || full then
    (({ c with bst := { c.bst with fusing := [], fusePending := full || failed } }).showFuse full failed).raise 0x07 4
  else ({ c with bst := { c.bst with fusing := es, fusePending := true } }).showFuse false failed

/-- The repair row at hand is programmed and read back (R575). -/
def Chip.repairRowDone (c : Chip) : Chip :=
  match c.bst.fusing with
  | [] => c
  | e :: es =>
    let failed := c.bit R.BST_FUSE_STATUS 10 || !e.2
    let f := c.fuses
    let f := { f with repairRows := f.repairRows + 1, repairs := if e.2 then f.repairs ++ [e.1] else f.repairs }
    ({ c with fuses := f }).fuseNext es failed

/-- HOLDUP abandons the programming of repair rows (R73, R575): the row at hand reads as unprogrammed (R62), and
FUSE_PENDING stays 1. -/
def Chip.fuseHoldup (c : Chip) : Chip := { c with bst := { c.bst with fusing := [] } }

/-- BST_FUSE_CTRL.PROGRAM (R575): one row per soft entry not yet fused; `verified` is each row's read-back. A
PROGRAM while rows are being programmed has no effect (DESIGN CHOICE). -/
def bstFuseProgram (c : Chip) (verified : List Bool) : Chip :=
  if !c.alive then c
  else
    let p := c.preWrite R.BST_FUSE_CTRL 1
    let c := p.1
    if p.2 = 0 then c
    else if c.effective ≠ 1 then c.fault 0x07 4
    else
      let es := c.bst.soft.filter (fun e => !c.fuses.repairs.contains e)
      if c.bst.fusing.isEmpty then c.fuseNext (es.zipIdx.map (fun e => (e.1, verified.getD e.2 true))) false
      else c

/-- BST_FUSE_PROGRAM (R575). -/
def execBstFuseProgram (verified : List Bool) (s : State) : Host.Outcome State Fault Refusal :=
  s.next (bstFuseProgram s.chip verified)

end Sys2Proof.Machine
end

