-- ==== Sys2Proof/Machine/Lcs.lean ====
section
/-! DEFINITION. The life cycle (R62 to R79): the advance of the fused state, fuse programming and the
unlock token. -/

namespace Sys2Proof.Machine

open Sys2Proof

/-- Set LCS_TOKEN_STATUS.RESULT. -/
def Chip.lcsResult (c : Chip) (n : Nat) : Chip := { c with lcs := { c.lcs with result := n } }

/-- A fuse repair is incomplete: programming is pending or a soft entry is not fused (R575). -/
def Chip.repairIncomplete (c : Chip) : Bool :=
  c.bst.fusePending || c.bst.soft.any (fun e => !c.fuses.repairs.contains e)

/-- LCS_TOKEN_STATUS.BUSY (R78): a verification, or the programming of a fuse row, repair rows among them. -/
def Chip.lcsBusy (c : Chip) : Bool := c.lcs.job.isSome || !c.bst.fusing.isEmpty

/-- LCS starts to program the row of a fused state. -/
def Chip.programRow (c : Chip) (t : Life) (byToken : Bool) : Chip :=
  { c with lcs := { c.lcs with job := some (.program t byToken) } }

/-- A write to LCS_ADVANCE (R64, R79): nothing while BUSY; an allowed advance starts programming;
anything else is refused with RESULT 5. -/
def lcsAdvance (c : Chip) (target key : Nat) : Chip :=
  if !c.alive || c.lcsBusy then c
  else
    let c := c.setReg R.LCS_ADVANCE (BitVec.ofNat 32 (target + key * 65536))
    if key ≠ 0xA11C then c.lcsResult 5
    else if target = 1 ∧ c.lcs.fused = .blank then c.programRow .manufacture false
    else if target = 2 ∧ c.lcs.fused = .manufacture ∧ c.fuses.imageKey ∧ c.fuses.unlockKey
        ∧ !c.repairIncomplete then c.programRow .deployed false
    else c.lcsResult 5

/-- LCS_ADVANCE (R64). -/
def execLcsAdvance (target : Fin 4) (key : BitVec 16) (s : State) : Host.Outcome State Fault Refusal :=
  s.next (lcsAdvance s.chip target.val key.toNat)

/-- The code of a fused state, as LCS_STATE.FUSED gives it. -/
def Life.code : Life → Nat
  | .blank => 0
  | .manufacture => 1
  | .deployed => 2
  | .retired => 3

/-- Program a life-cycle row. -/
def Fuses.setRow (f : Fuses) (t : Life) (r : FuseRow) : Fuses :=
  match t with
  | .blank => f
  | .manufacture => { f with rowManufacture := r }
  | .deployed => { f with rowDeployed := r }
  | .retired => { f with rowRetired := r }

/-- The fused state the rows give: the latest row that is fully programmed (R62). -/
def Fuses.life (f : Fuses) : Life :=
  if f.rowRetired = .programmed then .retired
  else if f.rowDeployed = .programmed then .deployed
  else if f.rowManufacture = .programmed then .manufacture
  else .blank

/-- The 128 bytes of the token buffer. -/
def Chip.tokenBytes (c : Chip) : List Byte :=
  (List.range 32).flatMap (fun i => leBytes 4 (SMap.get (fun _ => (0 : Word)) c.lcs.token i).toNat)

/-- The first failing field of a token, in the order of its layout (R68, R69): RESULT 2 malformed,
3 serial, 4 nonce, 5 wrong state (R72: DEDUCED to stand after the fields before SIGNATURE, as the worked case of
the chapter has a used KIND 1 token fail in DIAGNOSTIC with RESULT 4); 0 when every check passes. -/
def Chip.tokenCheck (c : Chip) : Nat :=
  let b := leAt c.tokenBytes
  let kind := b 6 1
  if b 0 4 ≠ 0x4E554C4B then 2
  else if b 4 2 ≠ 16 then 2
  else if kind ≠ 1 ∧ kind ≠ 2 then 2
  else if b 7 1 ≠ 0 then 2
  else if b 8 8 ≠ c.fuses.serial.toNat then 3
  else if b 16 8 ≠ c.lcs.nonce.toNat then 4
  else if b 24 40 ≠ 0 then 2
  else if kind = 1 ∧ c.effective ≠ 2 then 5
  else if kind = 2 ∧ c.effective ≠ 2 ∧ c.effective ≠ 3 then 5
  else 0

/-- A new LCS_NONCE (R70). -/
def Chip.newNonce (c : Chip) : Chip :=
  let r := c.takeRandom 64
  { r.2 with lcs := { r.2.lcs with nonce := r.1 } }

/-- A token's result is known: RESULT, an event and a history record (R466, R470, R521). -/
def Chip.tokenResult (c : Chip) (kind n : Nat) : Chip :=
  ((c.lcsResult n).event 0x0C01 [kind, n]).history 3 (kind + n * 256)

/-- A write of 1 to LCS_TOKEN_CTRL.START (R68 to R71, R79): nothing while BUSY; counted; refused with
RESULT 7 after eight starts without success; otherwise verification starts, and RESULT keeps what it read until
it ends (DESIGN CHOICE: R78 gives no value while BUSY is 1). A new nonce follows. -/
def tokenStart (c : Chip) : Chip :=
  if !c.alive || c.lcsBusy then c
  else
    let kind := leAt c.tokenBytes 6 1
    let early := c.tokenCheck
    let c := { c with lcs := { c.lcs with attempts := satSucc c.lcs.attempts 255 } }
    let c := if 8 ≤ c.lcs.failures then c.tokenResult kind 7
      else { c with lcs := { c.lcs with job := some (.verify early kind) } }
    c.newNonce

/-- TOKEN_START (R68). -/
def execTokenStart (s : State) : Host.Outcome State Fault Refusal := s.next (tokenStart s.chip)

/-- Verification ends (R63 to R65, R69): the first failing field, else the signature, decides. KIND 1
enters DIAGNOSTIC; KIND 2 destroys every band key and starts to program RETIRED. A success leaves the count of
failures as it is (DESIGN CHOICE: R71 does not say that it starts anew). -/
def tokenVerifyDone (c : Chip) (signatureGood : Bool) : Chip :=
  match c.lcs.job with
  | some (.verify early kind) =>
    if !c.alive || c.inHoldup then c
    else
      let r := if early ≠ 0 then early else if signatureGood then 1 else 6
      let c := { c with lcs := { c.lcs with job := none } }
      if r ≠ 1 then
        ({ c with lcs := { c.lcs with failures := c.lcs.failures + 1 } }).tokenResult kind r
      else if kind = 1 then
        ({ c with lcs := { c.lcs with diagnostic := true } }).tokenResult kind 1
      else
        let c := c.commit .sec [.secDestroy 2 0 0] []
        ((c.event 0x0C01 [kind, 1]).history 3 (kind + 256)).programRow .retired true
  | _ => c

/-- TOKEN_VERIFY_DONE (R69). -/
def execTokenVerifyDone (signatureGood : Bool) (s : State) : Host.Outcome State Fault Refusal :=
  s.next (tokenVerifyDone s.chip signatureGood)

/-- HOLDUP abandons a verification or a programming (R64, R73): RESULT reads 8, and a row under way is
partly programmed. -/
def Chip.lcsHoldup (c : Chip) : Chip :=
  match c.lcs.job with
  | none => c
  | some (.verify _ _) => { c with lcs := { c.lcs with job := none, result := 8 } }
  | some (.program t _) =>
    { c with fuses := c.fuses.setRow t .partly, lcs := { c.lcs with job := none, result := 8 } }

end Sys2Proof.Machine
end

