-- ==== Sys2Proof/Machine/Diag.lean ====
section
/-! DEFINITION. The end of DIAGNOSTIC (R67), by RELOCK (R63) or by the row of RETIRED (R64), and the
programming of a life-cycle row. -/

namespace Sys2Proof.Machine

open Sys2Proof

/-- The bits of a register that stand in RWD fields, the W1S bits of RWD registers among them. -/
def RegDesc.diagMask (d : RegDesc) : Word :=
  d.fields.foldl (fun m f => if f.acc = .rwd ∨ f.acc = .w1sd then m ||| mask f.hi f.lo else m) 0

/-- Every RWD field of a page reads its reset value. -/
def Chip.resetDiagPage (c : Chip) (page : Nat) : Chip :=
  (pageRegs page).foldl (fun (c : Chip) (d : RegDesc) =>
    if d.diagMask = 0 then c
    else
      let k := page * 4096 + d.off
      c.setReg k ((c.reg k &&& ~~~ d.diagMask) ||| (d.reset &&& d.diagMask))) c

/-- Every RWD field that is not fuse-backed reads its reset value (R67, R99). That of LOC_OP_x is the
over-provision of the format in force. -/
def Chip.resetDiag (c : Chip) : Chip :=
  let c := linePages.foldl Chip.resetDiagPage c
  (c.setReg R.LOC_OP_A (BitVec.ofNat 32 c.loc.part.opA)).setReg R.LOC_OP_B (BitVec.ofNat 32 c.loc.part.opB)

/-- DIAGNOSTIC ends (R67): a self-test is cut short, RWD fields return to reset, and JTAG and the trace port
close with the effective state. -/
def Chip.endDiagnostic (c : Chip) : Chip :=
  let d := c.cutTestNow 2
  (({ d with lcs := { d.lcs with diagnostic := false } }).resetDiag).afterTest c.bst.run

/-- RELOCK (R63, R79): nothing outside DIAGNOSTIC. -/
def relock (c : Chip) : Chip := if !c.alive || !c.lcs.diagnostic then c else c.endDiagnostic

/-- RELOCK (R63). -/
def execRelock (s : State) : Host.Outcome State Fault Refusal := s.next (relock s.chip)

/-- The key destruction that goes before the row of RETIRED still waits for the journal (R19, R65). -/
def Chip.destroyWaits (c : Chip) : Bool :=
  c.jnl.waiting.any (fun o => o.recs.any (fun r => match r with
    | .secDestroy 2 _ _ => true
    | _ => false))

/-- The row is programmed and verified (R64): BUSY falls, RESULT reads 1, the advance enters the
history, and RETIRED ends DIAGNOSTIC. With no life-cycle row under way it is the repair row at hand (R575), which
leaves RESULT alone (DESIGN CHOICE). -/
def fuseRowProgrammed (c : Chip) : Chip :=
  match c.lcs.job with
  | some (.program t _) =>
    if !c.alive || c.inHoldup || (t == Life.retired && c.destroyWaits) then c
    else
      let c := { c with
        fuses := c.fuses.setRow t .programmed
        lcs := { c.lcs with job := none, fused := t, result := 1 } }
      let c := if c.lcs.diagnostic && t == Life.retired then c.endDiagnostic else c
      c.history 2 t.code
  | _ => if !c.alive || c.inHoldup then c else c.repairRowDone

/-- FUSE_ROW_PROGRAMMED (R64). -/
def execFuseRowProgrammed (s : State) : Host.Outcome State Fault Refusal :=
  s.next (fuseRowProgrammed s.chip)

end Sys2Proof.Machine
end

