-- ==== Sys2Proof/Machine/JnlPort.lean ====
section
/-! DEFINITION. The JNL and NFC pages: the firmware port, checkpoints, JNL_INIT, operating time, the
NAND's erased blocks and bad blocks, firmware page reads, and the save of HOLDUP (R456 to R489). -/

namespace Sys2Proof.Machine

open Sys2Proof

/-! ### The firmware port -/

/-- The record in JNL_PORT_DATA0 to 15. -/
def Chip.portBytes (c : Chip) : List Byte :=
  (List.range 16).flatMap (fun i => leBytes 4 (c.reg (R.JNL_PORT_DATA i)).toNat)

/-- TYPEs R459 lists for a region of the firmware port. TYPE 0xFF stands in no record but the blank
one (R457). -/
def typeListed (region t : Nat) : Bool :=
  match region with
  | 0 => (t ∈ [0x01, 0x02, 0x10, 0x11, 0x12, 0x13, 0x14, 0x15, 0x20, 0x21, 0x22, 0x23, 0x30, 0x31, 0x32,
      0x33, 0x34, 0x35, 0x36, 0x40, 0x50, 0x51] : Bool) || (0x80 ≤ t && t ≤ 0xBF)
  | 2 => t == 0x60 || (0x80 ≤ t && t ≤ 0xBF)
  | 3 => 0x70 ≤ t && t ≤ 0x75
  | _ => false

/-- Firmware owns the group it writes (R460). -/
def groupOwned (region group : Nat) : Bool :=
  match region with
  | 0 => true
  | 2 => 8 ≤ group
  | 3 => group == 0
  | _ => false

/-- The firmware port's record is written after `failed` failed read-backs (R456): a third refuses it
with RESULT 6. -/
def Chip.fwWrite (c : Chip) (region group failed : Nat) (bs : List Byte) : Chip :=
  if failed = 3 then (c.portFailed c.jnl.head).fwDone 6
  else if region = 0 then
    let c := c.commitNow ⟨.firmware, [.firmware (slotType bs) (leAt bs 1 1) (bs.drop 8)], []⟩
    if c.jnl.openOp.isNone then c.resume else c
  else
    let first := if region = 2 then ctrGroup group else bootGroup group
    (c.writeGroup first (slotType bs) [(8, 56, leNat (bs.drop 8))]).fwDone 1

/-- A GO of the firmware port (R459 to R461, R486, R487): nothing while BUSY; the refusals; a wait
under R19 or after a failure; else the record is written. -/
def jnlPortWrite (c : Chip) (poisoned : Bool) (failed : Nat) : Chip :=
  if !c.alive || c.jnl.waiting.any (fun o => o.src == .firmware) then c
  else
    let bs := c.portBytes
    let region := c.fld R.JNL_PORT_CTRL 2 1
    let group := c.fld R.JNL_PORT_GROUP 6 0
    if c.inHoldup then c.fwDone 5
    else if poisoned then c.fwDone 2
    else if !groupOwned region group then c.fwDone 4
    else if !partFollows c.jnl.openOp (leAt bs 1 1) then c.fwDone 3
    else if !typeListed region (slotType bs) then c.fwDone 4
    else if c.jnl.failed || (region == 0 && c.mustWait .firmware) then
      c.waitOp ⟨.firmware, [.firmware (slotType bs) (leAt bs 1 1) (bs.drop 8)], []⟩
    else c.fwWrite region group failed bs

/-- JNL_PORT_WRITE (R460). -/
def execJnlPortWrite (poisoned : Bool) (failed : Fin 4) (s : State) : Host.Outcome State Fault Refusal :=
  s.next (jnlPortWrite s.chip poisoned failed.val)

/-- Waiting operations proceed once the journal is below its high-water mark (R19). -/
def journalHwmResume (c : Chip) : Chip :=
  if !c.alive || c.inHoldup then c else c.resume

/-- JOURNAL_HWM_RESUME (R19). -/
def execJournalHwmResume (s : State) : Host.Outcome State Fault Refusal :=
  s.next (journalHwmResume s.chip)

/-! ### Checkpoints -/

/-- A write of 1 to JNL_CTRL.CKPT (R471): one checkpoint runs at a time. -/
def jnlCtrlCkpt (c : Chip) : Chip :=
  if !c.alive || c.jnl.ckpt.isSome then c
  else ({ c with jnl := { c.jnl with ckptNext := true } }).maybeCkpt

/-- JNL_CTRL_CKPT (R471). -/
def execJnlCtrlCkpt (s : State) : Host.Outcome State Fault Refusal := s.next (jnlCtrlCkpt s.chip)

/-- The retirement and root groups of the boot region. JNL_ROOT names the tail, the SET and the
epoch (R462, R470). -/
def Chip.writeJnlRoot (c : Chip) : Chip :=
  c.writeGroup (bootGroup 1) 0x71
    [(8, 2, c.jnl.tail), (10, 2, c.jnl.tailSeq), (12, 4, c.jnl.set), (16, 1, c.jnl.epoch)]

/-- Steps 5 and 6 of R472: CKPT_DONE and JNL_ROOT are written, the slots before the cut become free,
the previous epoch key is blanked, the destructions it covered are final (R250), and groups 3 and 4
are written (R465). -/
def checkpointDone (c : Chip) (place dirA dirB dirNand pages crc : Nat) : Chip :=
  match c.jnl.ckpt with
  | none => c
  | some k =>
    if !c.alive || c.inHoldup || c.jnl.failed || c.jnl.openOp.isSome then c
    else
      let c := c.appendRecs [.ckptDone k.set place dirA dirB dirNand pages crc]
      let old := c.jnl.epoch
      let covered := c.sec.finalCovered
      let used := (c.jnl.head + ringSlots - k.cutSlot) % ringSlots
      let ds := c.bcl.discards.map (fun d => if d.final = 2 then { d with final := 0 } else d)
      let more := ds.any (fun d => d.final == 1)
      let c := { c with
        jnl := { c.jnl with
          ckpt := none, set := k.set, epoch := k.epoch, tail := k.cutSlot, tailSeq := k.cutSeq
          used := used, ckptNext := c.jnl.ckptNext || more }
        sec := { c.sec with finalCovered := 0 }
        bcl := { c.bcl with discards := ds }
        loc := { c.loc with ckptBands := some c.loc.cutBands } }
      let c := (c.writeJnlRoot.blankGroup old).writeWear
      let c := if c.sec.finalOpen == 0 && covered != 0 then Chip.raise c 0x1A 1 else c
      let c := (c.bump R.JNL_CKPT_CNT).raise 0x05 0
      (c.resume).maybeCkpt

/-- CHECKPOINT_DONE (R472). -/
def execCheckpointDone (place dirA dirB dirNand pages crc : Nat) (s : State) :
    Host.Outcome State Fault Refusal :=
  s.next (checkpointDone s.chip place dirA dirB dirNand pages crc)

/-- A step of the checkpoint fails (R473): reported, and restarted with a new CKPT_START, three
starts in all. -/
def checkpointFail (c : Chip) (step : Nat) : Chip :=
  match c.jnl.ckpt with
  | none => c
  | some k =>
    if !c.alive || c.inHoldup then c
    else
      let c := (c.raise 0x05 2).event 0x1401 [step, k.starts]
      let c := { c with jnl := { c.jnl with ckpt := none } }
      if k.starts < 3 ∧ !c.jnl.failed then c.startCkpt (k.starts + 1) else c

/-- CHECKPOINT_FAIL (R473). -/
def execCheckpointFail (step : Nat) (s : State) : Host.Outcome State Fault Refusal :=
  s.next (checkpointFail s.chip step)

/-- A write of 1 to JNL_INIT.INIT (R457, R486): only in MANUFACTURE every slot becomes blank. -/
def jnlInit (c : Chip) : Chip :=
  if !c.alive then c
  else if !c.diagOpen then c.ignored 0x05 1 0xF00
  else if c.effective = 3 then c.fault 0x05 5
  else { c with
    mram := []
    jnl := { optime := c.jnl.optime, pcc := c.jnl.pcc, unsafeCount := c.jnl.unsafeCount }
    evr := { queue := c.evr.queue, started := c.evr.started } }

/-- JNL_INIT (R457). -/
def execJnlInit (s : State) : Host.Outcome State Fault Refusal := s.next (jnlInit s.chip)

/-! ### Operating time -/

/-- The operating time advances by 2^-8 hour (R465): it counts from the commit of the power-cycle
count (R53); group 0 is rewritten with CLEAN 0 and values expire. -/
def optimeTick (c : Chip) : Chip :=
  if !c.alive || c.inHoldup || !c.sys.pccCommitted then c
  else
    let c := { c with jnl := { c.jnl with optime := (c.jnl.optime + 1) % 2 ^ 32 } }
    let c := if c.jnl.failed then c else c.writeGroup0 0
    c.expireValues

/-- OPTIME_TICK (R465). -/
def execOptimeTick (s : State) : Host.Outcome State Fault Refusal := s.next (optimeTick s.chip)

/-! ### The NAND -/

/-- A block fails erase or program (R479): listed and skipped; a 57th sets BB_FULL. The lists cannot be
written once the port is closed (R460). -/
def Chip.badBlock (c : Chip) (die block : Nat) : Chip :=
  let c := c.bump R.NFC_PROG_FAIL
  if c.jnl.closed then c
  else
    let bb := c.nand.badBlocks
    if 56 ≤ bb.length then ({ c with nfc := { c.nfc with bbFull := true } }).raise 0x48 3
    else
      let bb := bb ++ [block % 2 ^ 24 + die % 4 * 2 ^ 24]
      let g := (bb.length - 1) / 14
      let es := (List.range 14).map (fun i => bb.getD (14 * g + i) 0xFFFFFFFF)
      ({ c with nand := { c.nand with badBlocks := bb } }).writeGroup (bootGroup (3 + g)) 0x73
        (spread 8 4 es)

/-- ERASE_SHORT when NFC_ERASED is below NVQ_DIRTY_LIMIT + 32 MiB (R475). -/
def Chip.checkErased (c : Chip) : Chip :=
  if c.fld R.NFC_ERASED 15 0 < c.fld R.NVQ_DIRTY_LIMIT 8 0 + 32 then c.raise 0x48 2 else c

/-- NFC erases ahead of the write point, outside HOLDUP (R479): the capacity now erased, and a block
that failed. -/
def nfcEraseAhead (c : Chip) (erasedMib : Nat) (failed : Option (Nat × Nat)) : Chip :=
  if !c.alive || c.inHoldup then c
  else
    let c := match failed with
      | some b => c.badBlock b.1 b.2
      | none => c
    (c.setFld R.NFC_ERASED 15 0 (min erasedMib 0xFFFF)).checkErased

/-- NFC_ERASE_AHEAD (R479). -/
def execNfcEraseAhead (erasedMib : Nat) (failed : Option (Nat × Nat)) (s : State) :
    Host.Outcome State Fault Refusal := s.next (nfcEraseAhead s.chip erasedMib failed)

/-- A page as NFC delivers it (R481): an erased page reads all ones. -/
def pageBytes (p : NandRead) : List Byte := if p.status = 3 then p.data.map (fun _ => 0xFF) else p.data

/-- A firmware page read (R488, R489): refused in HOLDUP or outside DRAM; else the page is stored and
STATUS, KIND and SET follow. -/
def nfcFirmwareRead (c : Chip) (p : NandRead) : Chip :=
  if !c.alive then c
  else
    let d := c.fld R.NFC_RD_DST_LO 31 12 * 4096 + c.fld R.NFC_RD_DST_HI 3 0 * 2 ^ 32
    if c.inHoldup || !c.inDram d p.data.length then c.fault 0x48 4
    else
      let c := c.writeRange d (pageBytes p)
      let c := c.setFld R.NFC_RD_CTRL 6 4 p.status.val
      let c := c.setFld R.NFC_RD_CTRL 31 16 (p.kind % 256 * 256 + p.set % 256)
      (c.setBit R.NFC_RD_CTRL 0 false).raise 0x48 4

/-- NFC_FIRMWARE_READ (R488). -/
def execNfcFirmwareRead (page : NandRead) (s : State) : Host.Outcome State Fault Refusal :=
  s.next (nfcFirmwareRead s.chip page)

/-- The latest valid save set (R483). -/
def Nand.validSet (n : Nand) : Option SaveSet := (n.saves.filter SaveSet.committed).getLast?

/-- The save set of the dirty staging (R482), in the order of its acceptance. -/
def Chip.buildSave (c : Chip) : SaveSet :=
  let act := (c.loc.zones.filterMap (fun e => (e.2.hostWp).map (fun w => (e.1, w)))).take 256
  { set := c.nand.nextSet, units := c.nvq.staging, active := act, pcc := c.jnl.pcc, committed := false }

/-- The save set numbered `n` is to be retired once its units are on the media. -/
def Chip.keepSave (c : Chip) (n : Nat) : Chip :=
  { c with nfc := { c.nfc with restoredSet := some n, savedOrder := c.nvq.nextOrder } }

/-- Data, directory and trailer are programmed and the trailer reads back good (steps 8 to 11 of
R474): SAVE_COMMIT makes the set valid, with the retirement of an older one in the same operation
(R485). -/
def Chip.saveStaging (c : Chip) (trailerPage duration : Nat) : Chip :=
  let set := c.buildSave
  let old := c.nand.validSet
  let c := { c with
    nand := { c.nand with saves := c.nand.saves ++ [set], nextSet := (c.nand.nextSet + 1) % 2 ^ 32 }
    nfc := { c.nfc with saving := false, restoredSet := none } }
  let recs := Rec.saveCommit set.set trailerPage set.units.length ::
    (match old with
    | some o => [Rec.saveRetire o.set]
    | none => [])
  let c := c.commit .nfc recs []
  let c := c.setReg R.NFC_LAST_SAVE
    (BitVec.ofNat 32 (min duration 0xFFFF + min ((set.units.length + 15) / 16) 0x1FF * 65536))
  c.raise 0x48 0

/-- The save of HOLDUP completes (R474). -/
def nandSaveDataDone (c : Chip) (trailerPage duration : Nat) (trailerGood : Bool) : Chip :=
  match c.sys.holdup with
  | none => c
  | some h =>
    if !h.saveDue || h.saved || h.parked || !trailerGood then c
    else
      let c := c.saveStaging trailerPage duration
      { c with sys := { c.sys with holdup := some { h with saved := true } } }

/-- NAND_SAVE_DATA_DONE (R474). -/
def execNandSaveDataDone (trailerPage durationTenthsMs : Nat) (trailerGood : Bool) (s : State) :
    Host.Outcome State Fault Refusal :=
  s.next (nandSaveDataDone s.chip trailerPage durationTenthsMs trailerGood)

/-- Step 12 of R474: the save is complete or was omitted, and the chip parks. -/
def chipPark (c : Chip) : Chip :=
  match c.sys.holdup with
  | none => c
  | some h =>
    if h.saveDue && !h.saved then c
    else { c with sys := { c.sys with holdup := some { h with parked := true } }
                  nfc := { c.nfc with parked := true } }

/-- CHIP_PARK (R474). -/
def execChipPark (s : State) : Host.Outcome State Fault Refusal := s.next (chipPark s.chip)

/-- A page fails to program during the save; it is programmed again in the next erased block (R474,
R479). -/
def nandProgramFail (c : Chip) (die block : Nat) : Chip :=
  match c.sys.holdup with
  | none => c
  | some h => if h.parked then c else c.badBlock die block

/-- NAND_PROGRAM_FAIL (R474). -/
def execNandProgramFail (die block : Nat) (s : State) : Host.Outcome State Fault Refusal :=
  s.next (nandProgramFail s.chip die block)

/-- Every restored unit is on the media and its records are complete: SAVE_RETIRE (R484). -/
def saveRetire (c : Chip) : Chip :=
  match c.nfc.restoredSet with
  | none => c
  | some n =>
    if !c.alive || c.inHoldup || c.nvq.staging.any (fun u => u.restored || decide (u.order < c.nfc.savedOrder))
    then c
    else ({ c with nfc := { c.nfc with restoredSet := none } }).commit .nfc [.saveRetire n] []

/-- SAVE_RETIRE (R484). -/
def execSaveRetire (s : State) : Host.Outcome State Fault Refusal := s.next (saveRetire s.chip)

end Sys2Proof.Machine
end

