-- ==== Sys2Proof/Machine/Engine.lean ====
section
/-! DEFINITION. The servo demodulator (R282 to R285), the gates it governs (R293, R294, R315), and the
closed-loop control engine (R341 to R372). -/

namespace Sys2Proof.Machine

open Sys2Proof

/-! ### The law (R343 to R345) -/

/-- The registers of one stage's law. -/
structure LawKeys where
  sect : Nat → Nat → Nat
  a : Nat → Nat
  b : Nat → Nat
  l : Nat → Nat
  c : Nat → Nat
  k : Nat → Nat
  g : Nat

/-- Stage V at 0x800 and stage M at 0xA00 (R373). -/
def lawKeys (a : Act) (isV : Bool) : LawKeys :=
  let base := chanPage a 0x24 * 4096 + (if isV then 0x800 else 0xA00)
  { sect := fun n i => base + 0x20 * n + 4 * i
    a := fun n => base + 0x100 + 4 * n
    b := fun n => base + 0x140 + 4 * n
    l := fun n => base + 0x150 + 4 * n
    c := fun n => base + 0x160 + 4 * n
    k := fun n => base + 0x170 + 4 * n
    g := base + 0x180 }

/-- The sum of the products of coefficients and states. -/
def Chip.dot (c : Chip) (key : Nat → Nat) (xs : List Int) : Int :=
  xs.zipIdx.foldl (fun s e => s + c.coef (key e.2) * e.1) 0

/-- A stage's evaluation at one sample: the corrected states, the chain's output, the histories, and
whether a value saturated. -/
structure StageOut where
  xh : List Int
  w : Int
  sects : List Biquad
  sat : Bool

/-- One section of the chain, if enabled (R344). -/
def Chip.section_ (c : Chip) (keys : LawKeys) (v : Word) (isV : Bool) (o : StageOut) (e : Biquad × Nat) :
    StageOut :=
  if structEn v isV e.2 then
    let k (i : Nat) : Int := c.coef (keys.sect e.2 i)
    let y := e.1.output (k 0) (k 1) (k 2) (k 3) (k 4) o.w
    { o with w := y.1, sects := o.sects ++ [e.1.shift o.w y.1], sat := o.sat || y.2 }
  else { o with sects := o.sects ++ [e.1] }

/-- A stage on an input: correction, which is zero when coasting, state feedback, and the chain (R344). -/
def Chip.stage_ (c : Chip) (a : Act) (isV : Bool) (s : Stage) (input : Int) (coasting : Bool) : StageOut :=
  let keys := lawKeys a isV
  let v := c.reg (R.CLE_STRUCT a)
  let xp := s.xp.take (structOrder v isV)
  let e := fitSignal (input * 2 ^ 28 - c.dot keys.c xp) (2 ^ 28)
  let upd := xp.zipIdx.map (fun (p : Int × Nat) => fitSignal (p.1 * 2 ^ 28 + c.coef (keys.l p.2) * e.1) (2 ^ 28))
  let xh := if coasting then xp else upd.map (·.1)
  let w := fitSignal (c.coef keys.g * input - c.dot keys.k xh) (2 ^ 28)
  let sat := w.2 || (!coasting && (upd.any (·.2) || (!xp.isEmpty && e.2)))
  s.sects.zipIdx.foldl (c.section_ keys v isV) { xh := xh, w := w.1, sects := [], sat := sat }

/-- A stage's output in codes: round(w * 2^SHIFT) saturated to its format. -/
def stageCode (w : Int) (shift : Nat) (top : Int) : Int × Bool :=
  let r := roundDiv (w * 2 ^ shift) (2 ^ 14)
  let s := clampInt (-top) top r
  (s, s != r)

/-- The two commands of a sample, the stages behind them, and what saturated. -/
structure LawOut where
  v : StageOut
  m : StageOut
  outV : Int
  outM : Int
  sat : Bool
  clamped : Bool

/-- The prediction of Ec from stage V (R362). -/
def Chip.predicted (c : Chip) (a : Act) : Int :=
  let e := c.cle a
  let n := structOrder (c.reg (R.CLE_STRUCT a)) true
  if n = 0 then e.ec else (fitSignal (c.dot (lawKeys a true).c (e.v.xp.take n)) (2 ^ 28)).1

/-- The law at one sample (R344, R380). -/
def Chip.law (c : Chip) (a : Act) (ec : Int) (coasting : Bool) (ff x : Int) (lim : Nat) : LawOut :=
  let e := c.cle a
  let sh := c.reg (R.CLE_SHIFT a)
  let m := c.stage_ a false e.m ec coasting
  let om := stageCode m.w (field sh 7 4) 32767
  let inV := fitSignal (ec * 2 ^ 14 + c.coef (R.CLE_MVG a) * om.1) (2 ^ 14)
  let v := c.stage_ a true e.v inV.1 coasting
  let ov := stageCode v.w (field sh 3 0) 131071
  let rm := om.1 + roundDiv (c.coef (R.CLE_XGM a) * x) (2 ^ 42)
  let rv := ov.1 + ff + roundDiv (c.coef (R.CLE_XGV a) * x) (2 ^ 42)
  let mlim : Int := c.fld (R.CLE_MLIM a) 14 0
  let vlim : Int := c.fld (R.CLE_VLIM a) 16 0
  let vm := clampInt (-mlim) mlim rm
  let vv := clampInt (-vlim) vlim rv
  let vc := clampInt (-lim) lim vv
  { v := v, m := m, outV := vc, outM := vm
    sat := m.sat || v.sat || om.2 || ov.2 || inV.2 || vm != rm || vv != rv || vc != vv
    clamped := vc != vv }

/-- A stage's prediction (R345): xp = A xh + B out. -/
def Chip.predictStage (c : Chip) (a : Act) (isV : Bool) (o : StageOut) (out : Int) : Stage × Bool :=
  let keys := lawKeys a isV
  let ps := (List.range o.xh.length).map (fun i =>
    fitSignal (c.dot (fun j => keys.a (4 * i + j)) o.xh + c.coef (keys.b i) * out * 2 ^ 14) (2 ^ 28))
  ({ xp := ps.map (·.1) ++ List.replicate (4 - o.xh.length) 0, sects := o.sects }, ps.any (·.2))

/-! ### Output -/

/-- CK_PER cycles of a VCM frame: 80 ns (R413). -/
def frameTime : Nat := 32

/-- A VCM frame follows the other engine's where that is in progress (R415); MLK_WAIT_MAX keeps the longest wait
in CK_FAB cycles, of which a CK_PER cycle has two (R424). -/
def Chip.frameSlot (c : Chip) (a : Act) : Chip :=
  let now := c.dtm.dtime.toNat
  let wait := match c.links.frameEnd with
    | some (b, e) => if b = a then 0 else min frameTime (e - now)
    | none => 0
  let c := { c with links := { c.links with frameEnd := some (a, now + wait + frameTime) } }
  if c.fld R.MLK_WAIT_MAX 6 0 < 2 * wait then c.setReg R.MLK_WAIT_MAX (BitVec.ofNat 32 (2 * wait)) else c

/-- A VCM frame (R414) and a microactuator code with its correction (R542) leave the chip. RETRACT is set
while RETRACT_N is low (R369). -/
def Chip.sendCommands (c : Chip) (a : Act) (v m : Int) (rtr : Bool) : Chip :=
  let e := c.cle a
  let rtr := rtr || c.bit R.MLK_CTRL 0 || c.inHoldup
  let w := a.toNat * 2 ^ 22 + unsigned 18 v * 2 ^ 4 + b2n rtr * 2 ^ 3 + e.seq * 2
  let k := c.corrAt (corrKey (chanPage a 0x24) 0 0 0 0)
  let dac := clampInt (-32767) 32767
    (roundDiv (m * (16384 + signed 12 (field k 11 0))) 16384 + signed 10 (field k 25 16))
  let c := (c.setCle a { e with seq := (e.seq + 1) % 4 }).frameSlot a
  let c := (c.emit (.mlkFrame (mlkWord w))).emit (.dac a dac)
  let c := c.setReg (R.CLE_OUT_V a) (BitVec.ofNat 32 (unsigned 18 v))
  c.setReg (R.CLE_OUT_M a) (BitVec.ofNat 32 (unsigned 16 m))

/-- The engine starts a retract (R367, R368): commands 0 with the RETRACT flag, X 0 for the other engine. -/
def Chip.startRetract (c : Chip) (a : Act) (loss : Bool) : Chip :=
  let c := c.sendCommands a 0 0 true
  let e := c.cle a
  let c := c.setCle a { e with state := .retract, loss := loss, armed := false, park := false }
  let c := (c.clearPath a).silentGrants 4
  let c := c.mapChan a (fun x => { x with permit := false })
  ((c.abortReads a).endWrites a).runChannel a

/-- The engine declares the actuator lost (R286, R325, R366, R367); its calibration ends (R554). -/
def Chip.lose (c : Chip) (a : Act) (cause wedge : Nat) : Chip :=
  let c := c.bump (R.CLE_LOST_CNT a)
  let g := c.actLog a
  let c := c.setActLog a { g with lost := g.lost + 1 }
  let c := (c.event (actCode a 0x4C02) [cause, wedge]).raise (chanPage a 0x24) 0
  let e := c.cle a
  ((c.setCle a { e with cause := cause }).endCal a 4).startRetract a true

/-! ### The sample (R347, R353, R362 to R371) -/

/-- A servo sample as it is handed to the engine (R282). -/
structure Sample where
  valid : Bool
  samMiss : Bool := false
  gray : Bool := false
  seq : Bool := false
  amp : Bool := false
  wedge : Nat
  track : Nat
  pes : Int
  deriving DecidableEq, Repr

/-- The target track in force (R350). -/
def Cle.target (e : Cle) : Nat := field e.ref 31 12

/-- PES of a position against a target track (R282). -/
def pesOf (pos : Int) (target : Nat) : Int :=
  let d := pos - 4096 * target
  if d ≤ -32768 then -32768 else if 32768 ≤ d then 32767 else d

/-- The error of a sample in S17.14 (R351). -/
def Chip.errorOf (c : Chip) (a : Act) (s : Sample) : Int × Bool :=
  let e := c.cle a
  let d : Int := s.track - e.target
  let base := if -8 < d ∧ d < 8 then s.pes else 4096 * d
  fitSignal ((base - field e.ref 11 0 - signed 16 (c.fld (R.CLE_OFS a) 15 0)) * 4) 1

/-- The repetitive bin of a wedge in the table of CLE_HEAD (R354), `ahead` bins on. -/
def Chip.rcKey (c : Chip) (a : Act) (wedge ahead : Nat) : Nat :=
  let n := c.fld (R.SV_WEDGES a) 10 0
  c.fld (R.CLE_HEAD a) 3 0 * 1024 + (wedge * 1024 / n + ahead) % 1024

def Cle.bin (e : Cle) (k : Nat) : Int := SMap.get (fun _ => 0) e.rc k

/-- rc_adjust (R355). -/
def Chip.rcAdjust (c : Chip) (a : Act) (wedge : Nat) (e : Int) : Int × Bool :=
  let cfg := c.reg (R.CLE_RC_CFG a)
  match field cfg 1 0 with
  | 1 => fitSignal (e - (c.cle a).bin (c.rcKey a wedge 0)) 1
  | 2 => fitSignal (e + (c.cle a).bin (c.rcKey a wedge (field cfg 26 24))) 1
  | _ => (e, false)

/-- The table learns from a sample (R355). -/
def Chip.rcLearn (c : Chip) (a : Act) (wedge : Nat) (err : Int) : Chip :=
  let cfg := c.reg (R.CLE_RC_CFG a)
  let e := c.cle a
  if !c.bit (R.CLE_RC_CTRL a) 0 ∨ field cfg 1 0 = 0 ∨ !(c.chan a).onTrack ∨ !e.dry then c
  else
    let k := c.rcKey a wedge 0
    let r := e.bin k
    let leak := field cfg 19 16
    let gain := field cfg 11 8
    let sum := r * 2 ^ 30 - (if leak = 0 then 0 else r * 2 ^ (30 - leak)) + err * 2 ^ (30 - gain)
    let v := clampInt (-32768) 32767 (roundDiv sum (2 ^ 30))
    c.setCle a { e with rc := SMap.put (fun _ => 0) e.rc k v }

/-- Every bin of a head is 0 (R356). -/
def Cle.clearBins (e : Cle) (head : Nat) : Cle :=
  { e with rc := e.rc.filter (fun b => b.1 / 1024 != head), clrRc := false }

/-- The FIFO gives REF and FF of the next sample (R350). -/
def Chip.popRef (c : Chip) (a : Act) : Chip :=
  let e := c.cle a
  match e.fifo with
  | (r, f) :: es => c.setCle a { e with fifo := es, ref := r, ff := f, dry := false }
  | [] =>
    let c := c.setCle a { e with ff := 0, dry := true }
    if e.dry then c else c.raise (chanPage a 0x24) 5

/-- The engine starts at a valid sample (R353): states and histories 0; REF from the first entry pushed
since RUN, or the sample's own track. -/
def Chip.startEngine (c : Chip) (a : Act) (track : Nat) : Chip :=
  let e := c.cle a
  let e := { e with
    state := .run, armed := false, v := {}, m := {}, ec := 0, coast := 0, overruns := 0
    pesRun := 0, wedgeRun := 0, lastPes := none, lastWedge := none, park := false
    fifo := if e.pushed then e.fifo else [] }
  let e := match e.fifo with
    | (r, f) :: es => { e with fifo := es, ref := r, ff := f, dry := false }
    | [] => { e with ref := BitVec.ofNat 32 (track * 4096), ff := 0, dry := true }
  (c.setCle a e).clearPath a

/-- The runs of R363 after a sample. -/
def Cle.freeze (e : Cle) (s : Sample) : Cle :=
  let p := unsigned 16 s.pes
  let e := if p = 0x7FFF ∨ p = 0x8000 then { e with pesRun := 0, lastPes := none }
    else { e with pesRun := if e.lastPes = some p then e.pesRun + 1 else 1, lastPes := some p }
  { e with wedgeRun := if e.lastWedge = some s.wedge then e.wedgeRun + 1 else 0, lastWedge := some s.wedge }

/-- The values of CLE_PROFILE (R374): VLIM, MLIM, FAULT_CFG and RC_CFG. -/
def Chip.loadCleProfile (c : Chip) (a : Act) (p : Nat) : Chip :=
  let f := [0x00020603, 0x00010401, 0x00020603].getD p 0
  let r := [0x000C0601, 0x000C0701, 0x030A0502].getD p 0
  let c := c.clearOverrides (chanPage a 0x24)
  (((c.setReg (R.CLE_VLIM a) 131071).setReg (R.CLE_MLIM a) 32767).setReg (R.CLE_FAULT_CFG a)
    (BitVec.ofNat 32 f)).setReg (R.CLE_RC_CFG a) (BitVec.ofNat 32 r)

/-- Step 2 of R347: grants, a profile load, the oldest pending write and a clearing of bins. -/
def Chip.boundary (c : Chip) (a : Act) : Chip :=
  let c := c.grantBoundary a
  let c := match (c.cle a).profile with
    | some p => (c.setCle a { c.cle a with profile := none }).loadCleProfile a p
    | none => c
  let c := c.applyOldest a
  let e := c.cle a
  let c := if e.clrRc then c.setCle a (e.clearBins (c.fld (R.CLE_HEAD a) 3 0)) else c
  c.setCle a { c.cle a with x := c.chordX a }

/-- Memory errors of a sample (R365, R371). -/
def Chip.engineErrors (c : Chip) (a : Act) (x : EngErrors) : Chip :=
  let c := x.corr.foldl (fun c n =>
    let c := (c.bump (R.CLE_ECC_CORR a)).fault (chanPage a 0x24) 9
    let e := c.cle a
    if e.corrected.contains n then c.event (actCode a 0x4C03) [n]
    else c.setCle a { e with corrected := insertNat e.corrected n }) c
  if x.uncorr then c.fault (chanPage a 0x24) 8 else c

/-- The cause of a loss after a sample, in the priority order of R366; 0 none. -/
def Chip.lossCause (c : Chip) (a : Act) (uncorr : Bool) : Nat :=
  let e := c.cle a
  let f := c.reg (R.CLE_FAULT_CFG a)
  if uncorr then 5
  else if e.overruns ≠ 0 ∧ field f 19 16 ≤ e.overruns then 4
  else if field f 3 0 < e.coast then 1
  else if field f 11 8 ≤ e.pesRun then 2
  else if field f 11 8 ≤ e.wedgeRun then 3
  else 0

/-- The last steps of a sample whose commands were sent: counts, the path, the prediction, the FIFO. -/
def Chip.postOutput (c : Chip) (a : Act) (o : LawOut) : Chip :=
  let pv := c.predictStage a true o.v o.outV
  let pm := c.predictStage a false o.m o.outM
  let c := c.feedPath a o.outV
  let c := if o.sat || pv.2 || pm.2 then (c.bump (R.CLE_SAT_CNT a)).raise (chanPage a 0x24) 4 else c
  let c := if o.clamped then (c.bump (match a with | .A => R.CHD_CLAMP_A | .B => R.CHD_CLAMP_B)).raise 0x30 2 else c
  c.setCle a { c.cle a with v := pv.1, m := pm.1 }

/-- A sample handed off in time (R344, R362). -/
def Chip.timelySample (c : Chip) (a : Act) (s : Sample) : Chip :=
  let e := c.cle a
  let err := c.errorOf a s
  let adj := c.rcAdjust a s.wedge err.1
  let ec := if s.valid then adj.1 else c.predicted a
  let o := c.law a ec (!s.valid) e.ff e.x (c.limit a)
  let o := { o with sat := o.sat || (s.valid && (err.2 || adj.2)) }
  let c := c.setReg (R.CLE_ERR a) (BitVec.ofInt 32 ec)
  let c := c.sendCommands a o.outV o.outM false
  let c := if s.valid then c.setCle a { c.cle a with ec := ec } else c
  let c := c.postOutput a o
  let c := if s.valid then c.rcLearn a s.wedge err.1 else c
  c.popRef a

/-- The commands of an overrun sample (R364): the hold commands evaluated before, with the law in force
then, or the commands of the sample before where that evaluation had not completed. -/
def Chip.holdCommands (c : Chip) (a : Act) (evaluated : Bool) (lim : Nat) : LawOut :=
  let e := c.cle a
  let o := c.law a (c.predicted a) true e.ff e.x lim
  if evaluated then o
  else
    let v := c.reg (R.CLE_STRUCT a)
    let keep (s : Stage) (isV : Bool) : StageOut :=
      { xh := s.xp.take (structOrder v isV), w := 0, sects := s.sects, sat := false }
    { v := keep e.v true, m := keep e.m false
      outV := signed 18 (c.fld (R.CLE_OUT_V a) 17 0), outM := signed 16 (c.fld (R.CLE_OUT_M a) 15 0)
      sat := false, clamped := false }

/-- The overrun of a sample is counted and recorded (R364). -/
def Chip.countOverrun (c : Chip) (a : Act) (wedge : Nat) : Chip :=
  let e := c.cle a
  let c := (c.setCle a { e with overruns := e.overruns + 1 }).bump (R.CLE_OVERRUN a)
  let g := c.actLog a
  let c := c.setActLog a { g with overrun := g.overrun + 1 }
  (c.raise (chanPage a 0x24) 1).event (actCode a 0x4C01) [wedge, e.overruns + 1]

/-- One sample of an engine in RUN or COAST (R347). -/
def Chip.engineSample (c : Chip) (a : Act) (s : Sample) (overrun evaluated : Bool) (x : EngErrors) : Chip :=
  let late := overrun || x.uncorr || c.bit (R.CLE_INJECT a) 0
  let old := c
  let c := (c.boundary a).setBit (R.CLE_INJECT a) 0 false
  let c := c.engineErrors a x
  let n := c.fld (R.CLE_SEQ a) 15 0
  let c := c.setReg (R.CLE_SEQ a) (BitVec.ofNat 32 ((n + 1) % 65536 + s.wedge * 65536))
  let e := (c.cle a).freeze s
  let c := c.setCle a e
  let c :=
    if late then c.countOverrun a s.wedge
    else if s.valid then c.setCle a { e with overruns := 0, coast := 0, state := .run }
    else
      let c := if e.coast = 0 then c.raise (chanPage a 0x24) 2 else c
      c.setCle a { e with overruns := 0, coast := min 15 (e.coast + 1), state := .coast }
  let cause := c.lossCause a x.uncorr
  if cause ≠ 0 then c.lose a cause s.wedge
  else if (c.cle a).park then c.startRetract a false
  else if late then
    let o := old.holdCommands a evaluated (c.limit a)
    let c := (c.sendCommands a o.outV o.outM false).postOutput a o
    c.popRef a
  else c.timelySample a s

/-! ### The demodulator and the gates -/

/-- |value| in 1/4,096 of track pitch is below a threshold in percent (R285). -/
def below (v : Int) (percent : Nat) : Bool := decide (v.natAbs * 100 < percent * 4096)

/-- The read gate and on-track after a sample, and its verdict (R24, R293 to R295). -/
def Chip.gates (c : Chip) (a : Act) (s : Sample) : Chip :=
  let th := c.reg (R.SV_THRESH a)
  let off := s.pes - signed 16 (c.fld (R.CLE_OFS a) 15 0)
  let stay := s.valid && below off (field th 23 16)
  c.mapChan a (fun x =>
    let gate := if x.gate then stay else s.valid && below off (field th 15 8)
    let near := s.valid && below off (field th 7 0)
    let count := if near then min 2 (x.onCount + 1) else 0
    let onTrack := stay && (x.onTrack || count == 2)
    { x with
      gate := gate, onCount := if stay then count else 0, onTrack := onTrack
      verdicts := ({ pass := s.valid && below s.pes (field th 23 16), gate := gate } : Verdict)
        :: x.verdicts.take 15 })

/-- Sectors of the running read that began to pass the open gate: their slots are pending (R296). -/
def Chip.beginSectors (c : Chip) (a : Act) (under : List Nat) : Chip :=
  let x := c.chan a
  match x.run with
  | some (.rd r) =>
    if r.words.op = 0 ∧ x.gate then
      let new := under.filter (fun i => decide (i ≤ r.words.count)
        && !r.decided.any (fun e => e.1 == i) && !r.pend.contains i)
      c.mapChan a (fun x => { x with run := some (.rd { r with pend := r.pend ++ new }) })
    else c
  | _ => c

/-- Write permission of a sample (R315). -/
def Chip.permission (c : Chip) (a : Act) (s : Sample) (late : Bool) : Bool :=
  let x := c.chan a
  let wf := match x.run with
    | some (.wr r) => r.wrFault
    | _ => c.fld (R.WR_THRESH a) 7 0
  s.valid && below s.pes wf && x.onTrack && !late && (c.cle a).state == .run
    && !c.bit R.SNS_EVENT 0 && !c.bit R.SNS_EVENT 1 && !c.sensorsInTest && !x.fltLow && !c.inHoldup

/-- The registers of the servo page after a sample (R290, R292). -/
def Chip.showSample (c : Chip) (a : Act) (s : Sample) : Chip :=
  let v := b2n s.valid * 2 ^ 31 + b2n s.samMiss * 2 ^ 30 + b2n s.gray * 2 ^ 29 + b2n s.seq * 2 ^ 28
    + b2n s.amp * 2 ^ 27 + s.wedge % 1024 * 2 ^ 16 + unsigned 16 s.pes
  let c := c.setReg (R.SV_SAMPLE a) (BitVec.ofNat 32 v)
  let c := c.setReg (R.SV_TRACK a) (BitVec.ofNat 32 (s.track + b2n (c.chan a).search * 2 ^ 31))
  if s.valid then c else (c.bump (R.SV_INVALID_CNT a)).raise (chanPage a 0x22) 0

/-- The values of SV_PROFILE (R291): SV_THRESH, SV_SAM and SV_AMP. -/
def Chip.loadSvProfile (c : Chip) (a : Act) (p : Nat) : Chip :=
  let t := [0x000F0C08, 0x000C0A06, 0x00120F08].getD p 0
  let m := [0x0000283C, 0x0000203C, 0x00003050].getD p 0
  let v := [0x00009632, 0x00008C3C, 0x0000A028].getD p 0
  let c := c.clearOverrides (chanPage a 0x22)
  ((c.setReg (R.SV_THRESH a) (BitVec.ofNat 32 t)).setReg (R.SV_SAM a) (BitVec.ofNat 32 m)).setReg (R.SV_AMP a)
    (BitVec.ofNat 32 v)

/-- A sample reaches the servo page, the gates, the engine and the write path, in that order. -/
def Chip.handOverSample (c : Chip) (a : Act) (s : Sample) (under : List Nat) (overrun evaluated : Bool)
    (x : EngErrors) : Chip :=
  let ch := c.chan a
  let c := c.mapChan a (fun y => { y with
    prevWedge := if y.search then y.prevWedge else some s.wedge
    lastValid := if s.valid then s.wedge else ch.lastValid })
  let c := c.beginSectors a under
  let c := (c.showSample a s).gates a s
  let taken := (c.cle a).running
  let late := taken && (overrun || x.uncorr || c.bit (R.CLE_INJECT a) 0)
  let c := if taken then c.engineSample a s overrun evaluated x else c
  (c.sampleWrite a under (c.permission a s late) late).runChannel a

/-- A miss (R284): an invalid sample at the expected time, with PES and TRACK as last found; after eight in
a row the demodulator searches and repeats the last valid WEDGE. -/
def Chip.missedMark (c : Chip) (a : Act) (under : List Nat) (overrun evaluated : Bool) (x : EngErrors) : Chip :=
  let ch := c.chan a
  let n := c.fld (R.SV_WEDGES a) 10 0
  let misses := min 8 (ch.misses + 1)
  let enters := !ch.search && misses == 8
  let c := c.mapChan a (fun y => { y with misses := misses, search := y.search || misses == 8 })
  let c := if enters then (c.bump (R.SV_SEARCH_CNT a)).raise (chanPage a 0x22) 1 else c
  let wedge := if (c.chan a).search then ch.lastValid
    else match ch.prevWedge with
      | some w => (w + 1) % n
      | none => 0
  c.handOverSample a
    { valid := false, samMiss := true, wedge := wedge, track := c.fld (R.SV_TRACK a) 19 0
      pes := signed 16 (c.fld (R.SV_SAMPLE a) 15 0) } under overrun evaluated x

/-- The burst amplitude is outside its limits; not evaluated without a calibrated amplitude (R283, R543). -/
def Chip.ampBad (c : Chip) (a : Act) (amp : Nat) : Bool :=
  let k := c.corrAt (corrKey (chanPage a 0x20) 2 (c.fld (R.CLE_HEAD a) 3 0) 0 0)
  let lim := c.reg (R.SV_AMP a)
  k.getLsbD 31 && !(decide (field lim 7 0 ≤ amp) && decide (amp ≤ field lim 15 8))

/-- A wedge whose mark was found in its window (R282, R283). `prev` is the wedge its number must follow. -/
def Chip.foundWedge (c : Chip) (a : Act) (b : Burst) (prev : Option Nat) (under : List Nat)
    (overrun evaluated : Bool) (x : EngErrors) : Chip :=
  let n := c.fld (R.SV_WEDGES a) 10 0
  let seqBad := match prev with
    | some w => (w + 1) % n != b.wedge
    | none => false
  let amp := c.ampBad a b.amp
  let valid := b.gray && !seqBad && !amp
  let c := c.mapChan a (fun y => { y with misses := 0 })
  let c := if (c.cle a).armed && valid then c.startEngine a b.track.toNat else c
  c.handOverSample a
    { valid := valid, gray := !b.gray, seq := seqBad, amp := amp, wedge := b.wedge, track := b.track.toNat
      pes := pesOf b.pos (c.cle a).target } under overrun evaluated x

/-- A wedge is the boundary at which a pending profile load of the servo page takes effect (R95, R291). -/
def Chip.svBoundary (c : Chip) (a : Act) : Chip :=
  match (c.chan a).svProfile with
  | some p => (c.mapChan a (fun y => { y with svProfile := none })).loadSvProfile a p
  | none => c

/-- One wedge passes (R282 to R284): nothing while SV_WEDGES is 0. A pending profile load takes effect. -/
def servoWedge (c : Chip) (a : Act) (b : Option Burst) (under : List Nat) (overrun evaluated : Bool)
    (x : EngErrors) : Chip :=
  let n := c.fld (R.SV_WEDGES a) 10 0
  if !c.alive || n == 0 then c
  else
    let c := c.svBoundary a
    let win := c.fld (R.SV_SAM a) 15 8
    match b with
    | none => c.missedMark a under overrun evaluated x
    | some b =>
      let inWindow : Bool := match b.mark with
        | some m => decide (m.natAbs ≤ win)
        | none => false
      if inWindow && !(c.chan a).search && decide (b.wedge < n) then
        c.foundWedge a b (c.chan a).prevWedge under overrun evaluated x
      else c.missedMark a under overrun evaluated x

/-- SERVO_SAMPLE (R282). -/
def execServoSample (a : Act) (b : Burst) (under : List Nat) (x : EngErrors) (s : State) :
    Host.Outcome State Fault Refusal := s.done (servoWedge s.chip a (some b) under false true x)

/-- SERVO_MARK_MISS (R284). -/
def execServoMarkMiss (a : Act) (under : List Nat) (x : EngErrors) (s : State) :
    Host.Outcome State Fault Refusal := s.done (servoWedge s.chip a none under false true x)

/-- The demodulator finds two marks one wedge period apart and leaves search (R284): the second mark's
wedge is checked against the first's. -/
def servoSearchExit (c : Chip) (a : Act) (first : Nat) (b : Burst) (x : EngErrors) : Chip :=
  if !c.alive || !(c.chan a).search || c.fld (R.SV_WEDGES a) 10 0 ≤ b.wedge then c
  else
    let c := ((c.svBoundary a).mapChan a (fun y => { y with search := false })).raise (chanPage a 0x22) 2
    c.foundWedge a b (some first) [] false true x

/-- SERVO_SEARCH_EXIT (R284). -/
def execServoSearchExit (a : Act) (first : Nat) (b : Burst) (x : EngErrors) (s : State) :
    Host.Outcome State Fault Refusal := s.done (servoSearchExit s.chip a first b x)

/-- CLE_OVERRUN (R364): a wedge whose commands are not handed off at the deadline. -/
def execCleOverrun (a : Act) (b : Option Burst) (under : List Nat) (evaluated : Bool) (x : EngErrors)
    (s : State) : Host.Outcome State Fault Refusal :=
  s.done (servoWedge s.chip a b under true evaluated x)

/-! ### Commands of the engine page -/

/-- CLE_CMD.RUN (R353, R370, R392): arms the engine in OFF or LOST, unless the actuator is retired or HOLDUP
has begun. -/
def cleRun (c : Chip) (a : Act) : Chip :=
  let e := c.cle a
  if !c.alive || c.inHoldup || c.outOfService a || !(e.state == .off || e.state == .lost) then c
  else c.setCle a { e with armed := true, pushed := false }

/-- CLE_RUN (R353). -/
def execCleRun (a : Act) (s : State) : Host.Outcome State Fault Refusal := s.next (cleRun s.chip a)

/-- CLE_CMD.PARK (R368, R370): in RUN or COAST the retract starts at the next boundary. -/
def clePark (c : Chip) (a : Act) : Chip :=
  if !c.alive || !(c.cle a).running then c else c.setCle a { c.cle a with park := true }

/-- CLE_PARK (R368). -/
def execClePark (a : Act) (s : State) : Host.Outcome State Fault Refusal := s.next (clePark s.chip a)

/-- CLE_CLR_RC (R356): at the next sample. -/
def execCleClrRc (a : Act) (s : State) : Host.Outcome State Fault Refusal :=
  s.next (if s.chip.alive then s.chip.setCle a { s.chip.cle a with clrRc := true } else s.chip)

/-- A write to CLE_REF_FF (R350, R372): the pair is pushed, or REF_FULL. -/
def cleRefPush (c : Chip) (a : Act) (v : Word) : Chip :=
  if !c.alive then c
  else
    let e := c.cle a
    if 64 ≤ e.fifo.length then c.fault (chanPage a 0x24) 5
    else
      let ff := v &&& 0x3FFFF
      let c := if v = ff then c else c.ignored (chanPage a 0x24) 2 0x098
      (c.setReg (R.CLE_REF_FF a) ff).setCle a { e with
        fifo := e.fifo ++ [(c.reg (R.CLE_REF_TRK a), signed 18 ff.toNat)], pushed := true }

/-- CLE_REF_PUSH (R350). -/
def execCleRefPush (a : Act) (v : Word) (s : State) : Host.Outcome State Fault Refusal :=
  s.next (cleRefPush s.chip a v)

/-- CLE_RC_SEL.BIN advances under AUTOINC (R373). -/
def Chip.advanceBin (c : Chip) (a : Act) : Chip :=
  let k := R.CLE_RC_SEL a
  if c.bit k 31 then c.setFld k 9 0 ((c.fld k 9 0 + 1) % 1024) else c

/-- An access to CLE_RC_DATA (R356): a read, or a write of a bin; a bin that may be learned is not
written. -/
def cleRcData (c : Chip) (a : Act) (v : Option Word) : Chip :=
  if !c.alive then c
  else
    let sel := c.reg (R.CLE_RC_SEL a)
    let head := field sel 19 16
    let e := c.cle a
    match v with
    | none => c.advanceBin a
    | some v =>
      if head = c.fld (R.CLE_HEAD a) 3 0 ∧ c.bit (R.CLE_RC_CTRL a) 0 then c.fault (chanPage a 0x24) 7
      else
        let c := if v.toNat < 65536 then c else c.ignored (chanPage a 0x24) 2 0x0CC
        let rc := SMap.put (fun _ => 0) e.rc (head * 1024 + field sel 9 0) (signed 16 (v.toNat % 65536))
        (c.setCle a { e with rc := rc }).advanceBin a

/-- CLE_INJECT.OVERRUN (R364): writable in MANUFACTURE and DIAGNOSTIC only (R93). -/
def cleInject (c : Chip) (a : Act) : Chip :=
  if !c.alive then c
  else if c.diagOpen then c.setBit (R.CLE_INJECT a) 0 true
  else c.ignored (chanPage a 0x24) 1 0xF00

/-- CLE_INJECT_OVERRUN (R364). -/
def execCleInjectOverrun (a : Act) (s : State) : Host.Outcome State Fault Refusal :=
  s.next (cleInject s.chip a)

end Sys2Proof.Machine
end

