-- ==== Sys2Proof/Machine/Retire.lean ====
section
/-! DEFINITION. Retirement of an actuator and its reversal (R390 to R393). -/

namespace Sys2Proof.Machine

open Sys2Proof

/-- In-flight I/O on namespaces of an actuator that leaves service completes with Namespace Not Ready (R144,
R392, R394). Commands not yet begun meet the same status when they are issued. -/
def Chip.failActuatorIo (c : Chip) (a : Act) : Chip :=
  (c.nvq.inflight.filter (fun x => x.qid != 0 && x.cmd.opcode != 0 && x.result.isNone && x.phase != .fetched
      && (nsActs x.cmd.nsid).contains a)).foldl
    (fun c x => (c.discard x).fail x (0, 0x82, true)) c

/-- Every Flush under way that drains a write of a retired actuator fails (R131), one that still waits to be
taken too. -/
def Chip.failStuckFlushes (c : Chip) : Chip :=
  (c.nvq.inflight.filter (fun x => x.qid != 0 && x.cmd.opcode == 0 && x.result.isNone)).foldl
    (fun c x => if c.flushStuck x then c.failFlush x else c) c

/-- An accepted retirement, up to the retract (steps 1 and 2 of R391; R392, R394). -/
def Chip.beginRetire (c : Chip) (a : Act) : Chip :=
  let c := c.setFld R.CHD_RETIRE 14 12 6
  let c := { c.endCal a 4 with chd := { (c.endCal a 4).chd with retiring := some a } }
  let e := c.cle a
  let c := c.setCle a { e with armed := false, park := e.park || e.running }
  let c := c.stopLadders a
  let c := if e.running then c else (c.abortReads a).endWrites a
  ((c.failStuckFlushes.failActuatorIo a).clearPath a).retarget

/-- A write to CHD_RETIRE (R390): refused by the first check that fails, or accepted. -/
def chdRetire (c : Chip) (v : Word) : Chip :=
  if !c.alive then c
  else
    let c := (c.preWrite R.CHD_RETIRE v).1
    let act := field v 1 0
    let a := actOf (act - 1)
    let refuse (n : Nat) : Chip := c.setFld R.CHD_RETIRE 14 12 n
    if c.fld R.CHD_RETIRE 14 12 = 6 then c
    else if field v 31 16 ≠ 0x7E71 ∨ act = 0 ∨ act = 3 then refuse 2
    else if c.sys.mode = .boot ∨ c.sys.mode = .rebuild ∨ c.inHoldup ∨ c.sys.trans.isSome then refuse 3
    else if c.retired a then refuse 4
    else if c.effective = 0 ∨ c.effective = 4 then refuse 5
    else (c.setFld R.CHD_RETIRE 1 0 act).beginRetire a

/-- CHD_RETIRE (R390). -/
def execChdRetire (v : Word) (s : State) : Host.Outcome State Fault Refusal := s.done (chdRetire s.chip v)

/-- The bits of an actuator pair. -/
def actBits (x y : Bool) : Nat := b2n x + 2 * b2n y

/-- The retirement record of boot group 2 (R470). -/
def Chip.writeRetireRecord (c : Chip) : Chip :=
  c.writeGroup (bootGroup 2) 0x72
    [(8, 1, actBits c.chd.retiredA c.chd.retiredB), (9, 1, actBits c.chd.unretA c.chd.unretB)]

/-- The actuator's band-cleaning jobs are abandoned (R237). -/
def Chip.dropJobs (c : Chip) (a : Act) : Chip :=
  let c := c.setQueue a []
  match c.bcl.job a with
  | some j => c.dropJobOf j.zone
  | none => c

/-- Staged units of an actuator are discarded (step 4 of R391): Flushes that drain them fail (R131), values
whose data they held lose what was not recorded, and the units are counted. -/
def Chip.dropStaged (c : Chip) (a : Act) : Chip :=
  let mine (u : Staged) : Bool := zoneAct u.zone == a
  let us := c.nvq.staging.filter mine
  let c := c.failStuckFlushes
  let c := (us.filter (fun u => u.nsid == 4)).foldl (fun c u => c.dropFresh u.key) c
  let c := { c with
    nvq := { c.nvq with staging := c.nvq.staging.filter (fun u => !mine u) }
    loc := { c.loc with
      hotWait := c.loc.hotWait.filter (fun w => zoneAct w.zone != a)
      relocs := c.loc.relocs.filter (fun r => zoneAct r.1 != a) } }
  let n := (stagedUnits us).length
  (c.addSat R.CHD_RETIRE_LOST n).event 0x6401 [a.toNat, n]

def Chip.setRetired (c : Chip) (a : Act) (on : Bool) : Chip :=
  match a with
  | .A => { c with chd := { c.chd with retiredA := on } }
  | .B => { c with chd := { c.chd with retiredB := on } }

/-- The retract of a retiring actuator is complete (steps 3 to 6 of R391): nothing while its engine still
moves, or once the journal port takes no more. -/
def retirementCommit (c : Chip) : Chip :=
  match c.chd.retiring with
  | none => c
  | some a =>
    let e := c.cle a
    if !c.alive || c.inHoldup || c.jnl.failed || c.jnl.closed || e.running || e.state == .retract then c
    else
      let c := c.setCle a { e with state := .off }
      let c := (c.dropJobs a).dropStaged a
      let c := c.setRetired a true
      let c := ({ c with chd := { c.chd with retiring := none } }).writeRetireRecord
      let c := (c.history 4 a.toNat).setFld R.CHD_RETIRE 14 12 1
      (c.raise 0x30 1).nsChanged (a.toNat + 1)

/-- RETIREMENT_COMMIT (R391). -/
def execRetirementCommit (s : State) : Host.Outcome State Fault Refusal := s.done (retirementCommit s.chip)

/-- An unretirement is pending or the actuator is not retired. -/
def Chip.mayUnretire (c : Chip) : Act → Bool
  | .A => c.chd.retiredA && !c.chd.unretA
  | .B => c.chd.retiredB && !c.chd.unretB

/-- A write to CHD_UNRETIRE (R393): one record for the actuators whose unretirement it begins. -/
def chdUnretire (c : Chip) (v : Word) : Chip :=
  if !c.alive then c
  else
    let p := c.preWrite R.CHD_UNRETIRE v
    let c := p.1
    let ua := p.2.getLsbD 0 && c.mayUnretire .A
    let ub := p.2.getLsbD 1 && c.mayUnretire .B
    if (!ua && !ub) || c.jnl.failed || c.jnl.closed then c
    else
      let c := { c with chd := { c.chd with unretA := c.chd.unretA || ua, unretB := c.chd.unretB || ub } }
      let c := c.writeRetireRecord
      let c := if ua then c.history 5 0 else c
      if ub then c.history 5 1 else c

/-- CHD_UNRETIRE (R393). -/
def execChdUnretire (v : Word) (s : State) : Host.Outcome State Fault Refusal := s.next (chdUnretire s.chip v)

end Sys2Proof.Machine
end

