-- ==== Sys2Proof/Machine/Dbg.lean ====
section
/-! DEFINITION. Clocks and their gating (R579 to R585, R595), and the debug ports: JTAG's instructions, the trace
port and the console UART (R619 to R623). -/

namespace Sys2Proof.Machine

open Sys2Proof

/-! ### Clocks -/

/-- XIN_LOST (R582). -/
def execXinLost (s : State) : Host.Outcome State Fault Refusal :=
  let c := s.chip
  s.next (if c.dtm.running then (c.setBit R.CLK_STATUS 1 true).raise 0x01 0 else c)

/-- XIN_RETURN (R582). -/
def execXinReturn (s : State) : Host.Outcome State Fault Refusal :=
  let c := s.chip
  s.next (if c.dtm.running then c.setBit R.CLK_STATUS 1 false else c)

/-- A block that the spec calls never idle, or whose work the state shows (R585). -/
def Chip.blockBusy (c : Chip) (page : Nat) : Bool :=
  let eng (a : Act) : Bool := (c.cle a).running || (c.cle a).state == .retract
  let moving (a : Act) : Bool := c.fld (R.SV_WEDGES a) 10 0 != 0 && eng a
  match page with
  | 0x04 => c.evr.started && !c.evr.queue.isEmpty
  | 0x05 => c.jnl.ckpt.isSome || c.jnl.openOp.isSome || !c.jnl.waiting.isEmpty
  | 0x06 => c.cal.a.isSome || c.cal.b.isSome || !c.cal.dev.isEmpty
  | 0x07 => c.bst.run.isSome
  | 0x08 => true
  | 0x51 => true
  | 0x39 => true
  | 0x11 => !c.nvq.undecided.isEmpty || !c.nvq.staging.isEmpty
  | 0x18 => !c.nvq.staging.isEmpty
  | 0x19 => c.bcl.jobA.isSome || c.bcl.jobB.isSome
  | 0x1A => c.sec.job.isSome
  | 0x20 => (c.chan .A).busy
  | 0x21 => (c.chan .A).busy
  | 0x28 => (c.chan .B).busy
  | 0x29 => (c.chan .B).busy
  | 0x22 => moving .A
  | 0x2A => moving .B
  | 0x24 => eng .A
  | 0x2C => eng .B
  | 0x38 => !c.links.ovl.isEmpty
  | 0x48 => c.nfc.saving
  | 0x49 => c.osp.isSome
  | 0x58 => !c.dbg.uartTx.isEmpty
  | _ => false

/-- A block has been idle for IDLE cycles and gates its clocks, or wakes (R585). -/
def blockIdleGate (c : Chip) (page : Nat) (wake : Bool) : Chip :=
  if !c.alive || !populated page then c
  else if wake then c.wake page
  else if !c.bit (pPower page) 0 || c.bit R.CLK_FORCE_ON 0 || c.blockBusy page then c
  else { c with pwr := { c.pwr with gated := insertNat c.pwr.gated page } }

/-- BLOCK_IDLE_GATE (R585). -/
def execBlockIdleGate (page : Nat) (wake : Bool) (s : State) : Host.Outcome State Fault Refusal :=
  s.next (blockIdleGate s.chip page wake)

/-- A write to CLK_FORCE_ON (R595). -/
def clkForceOn (c : Chip) (v : Word) : Chip :=
  if !c.alive then c
  else
    let p := c.preWrite R.CLK_FORCE_ON v
    let c := p.1
    if !c.diagOpen then c
    else
      let c := c.setReg R.CLK_FORCE_ON p.2
      if p.2.getLsbD 0 then { c with pwr := { c.pwr with gated := [] } } else c

/-- CLK_FORCE_ON (R595). -/
def execClkForceOn (v : Word) (s : State) : Host.Outcome State Fault Refusal := s.next (clkForceOn s.chip v)

/-- CLK_GATED_NOW (R595): the domains whose page is gated. -/
def Chip.gatedNow (c : Chip) : Nat :=
  ((List.range 224).filter (fun d => c.pwr.gated.contains (Config.domainPage d))).length

/-! ### JTAG (R619) -/

/-- JTAG is open in the effective life-cycle state (R66). -/
def Chip.jtagOpen (c : Chip) : Bool := c.effective == 0 || c.effective == 1 || c.effective == 3

/-- The instruction a code selects: BYPASS where it is not available. -/
def Chip.jtagCode (c : Chip) (code : Nat) : Nat :=
  if code = 0x00 ∨ code = 0x01 ∨ code = 0x02 then code
  else if (code = 0x10 ∨ code = 0x11) ∧ c.jtagOpen then code
  else if code = 0x12 ∧ c.effective = 0 ∧ c.dbg.testEn then code
  else 0xFF

/-- An instruction is loaded; EXTEST drives the boundary-scan register at the balls, SCAN enters scan test. -/
def jtagSelect (c : Chip) (code : Nat) : Chip :=
  let i := c.jtagCode code
  let c := { c with dbg := { c.dbg with ir := i, driving := i == 0, scan := c.dbg.scan || i == 0x12 } }
  if i = 0 then c.emit (.balls c.dbg.boundary) else c

/-- JTAG_EXTEST (R619). -/
def execJtagExtest (s : State) : Host.Outcome State Fault Refusal := s.next (jtagSelect s.chip 0x00)

/-- SAMPLE/PRELOAD: the boundary-scan register takes new values (R619). -/
def jtagPreload (c : Chip) (preload : List Bool) : Chip :=
  let c := jtagSelect c 0x01
  { c with dbg := { c.dbg with boundary := preload } }

/-- JTAG_SAMPLE_PRELOAD (R619). -/
def execJtagSamplePreload (preload : List Bool) (s : State) : Host.Outcome State Fault Refusal :=
  s.next (jtagPreload s.chip preload)

/-- JTAG_IDCODE (R619). -/
def execJtagIdcode (s : State) : Host.Outcome State Fault Refusal :=
  s.next ((jtagSelect s.chip 0x02).emit (.jtag 32 0xB4860E35))

/-- JTAG_BYPASS (R619). -/
def execJtagBypass (code : BitVec 8) (s : State) : Host.Outcome State Fault Refusal :=
  s.next (jtagSelect s.chip code.toNat)

/-- JTAG_CORE_DEBUG (R619). -/
def execJtagCoreDebug (s : State) : Host.Outcome State Fault Refusal := s.next (jtagSelect s.chip 0x11)

/-- JTAG_SCAN (R604, R619). -/
def execJtagScan (s : State) : Host.Outcome State Fault Refusal := s.next (jtagSelect s.chip 0x12)

/-! ### Trace port (R620) -/

/-- A byte string's CRC of R402, most significant bit of the first byte first. -/
def crc8Bytes (bs : List Byte) : Byte := crc8 (8 * bs.length) (bs.foldl (fun n b => n * 256 + b.toNat) 0)

/-- A packet: TYPE, LEN, PAYLOAD and CRC. -/
def tracePacket (typ : Nat) (payload : List Byte) : List Byte :=
  let bs := BitVec.ofNat 8 typ :: BitVec.ofNat 8 payload.length :: payload
  bs ++ [crc8Bytes bs]

/-- The TYPE of a source. -/
def traceType : TraceSource → Nat
  | .flow n _ => 0x10 + n.val
  | .event _ _ _ => 0x20
  | .sample a => 0x30 + a.toNat
  | .watch _ _ _ _ => 0x40

/-- The bit of DBG_TRC_SEL that selects a source. -/
def traceBit : TraceSource → Nat
  | .flow n _ => 8 + n.val
  | .event _ _ _ => 0
  | .sample a => 1 + a.toNat
  | .watch _ _ _ _ => 16

/-- A sample's payload (R620). -/
def Chip.samplePayload (c : Chip) (a : Act) : List Byte :=
  let e := c.cle a
  let seq := c.reg (R.CLE_SEQ a)
  let v := signed 18 (c.fld (R.CLE_OUT_V a) 17 0)
  let st : Nat := match e.state with
    | .off => 0
    | .run => 1
    | .coast => 2
    | .retract => 3
    | .lost => 4
  leBytes 2 (field seq 15 0) ++ leBytes 2 (field seq 31 16) ++ leBytes 2 (c.fld (R.SV_SAMPLE a) 15 0)
    ++ leBytes 4 (c.reg (R.CLE_ERR a)).toNat ++ leBytes 4 (unsigned 32 v) ++ leBytes 2 (c.fld (R.CLE_OUT_M a) 15 0)
    ++ leBytes 1 (st + b2n (e.overruns != 0) * 8 + b2n (c.chan a).permit * 16) ++ leBytes 8 c.dtm.dtime.toNat

/-- A source's payload. -/
def Chip.tracePayload (c : Chip) : TraceSource → List Byte
  | .flow _ bs => bs.take 62
  | .event n last bs => BitVec.ofNat 8 (n.val + b2n last * 128) :: bs.take 61
  | .sample a => c.samplePayload a
  | .watch addr data m w =>
    leBytes 5 addr.toNat ++ leBytes 4 data.toNat ++ leBytes 1 (m.toNat + b2n w * 128)
      ++ leBytes 8 c.dtm.dtime.toNat

/-- The bus watch matches an address: MASK bits leave address bits 19:4 out (R623). -/
def Chip.watchHit (c : Chip) (addr : Nat) : Bool :=
  let want := c.fld R.DBG_WATCH_HI 3 0 * 2 ^ 32 + (c.reg R.DBG_WATCH_LO).toNat
  ((addr ^^^ want) &&& (2 ^ 36 - 1 - c.fld R.DBG_WATCH_HI 23 8 * 16)) == 0

/-- The port sends (R66, R620). -/
def Chip.traceOn (c : Chip) : Bool := c.bit R.DBG_TRC_CTRL 0 && c.jtagOpen

/-- Put a packet into the buffer; it leaves the chip in its turn. -/
def Chip.sendTrace (c : Chip) (p : List Byte) : Chip :=
  let d := c.dbg
  { c.emit (.trace p) with dbg := { d with
      traceUsed := d.traceUsed + p.length, traceSince := d.traceSince.map (· + p.length) } }

/-- Bytes the trace buffer holds. -/
def traceRoom : Nat := 16384

/-- A sync packet first after the enable and after every 4,096 bytes (R620). -/
def Chip.traceSync (c : Chip) : Chip :=
  let due : Bool := match c.dbg.traceSince with
    | none => true
    | some n => decide (4096 ≤ n)
  if due then
    let c := c.sendTrace (tracePacket 0x01 (leBytes 8 c.dtm.dtime.toNat))
    { c with dbg := { c.dbg with traceSince := some 0 } }
  else c

/-- A selected source has a packet (R620): it enters the buffer, behind a sync or an overflow packet that is
due, or is dropped and counted. `drained` is how many bytes have left the buffer since the packet before. -/
def traceIn (c : Chip) (src : TraceSource) (drained : Nat) : Chip :=
  let hit : Bool := match src with
    | .watch addr _ _ _ => c.watchHit addr.toNat
    | _ => true
  if !c.alive || !c.traceOn || !c.bit R.DBG_TRC_SEL (traceBit src) || !hit then c
  else
    let c := { c with dbg := { c.dbg with traceUsed := c.dbg.traceUsed - drained } }
    let p := tracePacket (traceType src) (c.tracePayload src)
    let c := c.traceSync
    if traceRoom < c.dbg.traceUsed + p.length + (if c.dbg.traceLost = 0 then 0 else 7) then
      let c := { c with dbg := { c.dbg with traceLost := satSucc c.dbg.traceLost 0xFFFFFFFF } }
      (c.bump R.DBG_TRC_DROP).raise 0x58 2
    else
      let c := if c.dbg.traceLost = 0 then c
        else
          let c := c.sendTrace (tracePacket 0x02 (leBytes 4 c.dbg.traceLost))
          { c with dbg := { c.dbg with traceLost := 0 } }
      c.sendTrace p

/-- TRACE_PACKET (R620). -/
def execTracePacket (src : TraceSource) (drained : Nat) (s : State) : Host.Outcome State Fault Refusal :=
  s.next (traceIn s.chip src drained)

/-! ### Console UART (R622, R623) -/

/-- A write to DBG_UART_TX (R623). -/
def dbgUartTx (c : Chip) (v : Word) : Chip :=
  if !c.alive then c
  else
    let p := c.preWrite R.DBG_UART_TX v
    let c := p.1
    if 32 ≤ c.dbg.uartTx.length then c.fault 0x58 4
    else { c with dbg := { c.dbg with uartTx := c.dbg.uartTx ++ [p.2.setWidth 8] } }

/-- DBG_UART_TX (R623). -/
def execDbgUartTx (v : Word) (s : State) : Host.Outcome State Fault Refusal := s.next (dbgUartTx s.chip v)

/-- A byte arrives (R623). -/
def dbgUartRxByte (c : Chip) (b : Byte) : Chip :=
  if !c.alive then c
  else if 32 ≤ c.dbg.uartRx.length then c.setBit R.DBG_UART_STATUS 16 true
  else ({ c with dbg := { c.dbg with uartRx := c.dbg.uartRx ++ [b] } }).raise 0x58 0

/-- DBG_UART_RX_BYTE (R623). -/
def execDbgUartRxByte (b : Byte) (s : State) : Host.Outcome State Fault Refusal := s.next (dbgUartRxByte s.chip b)

/-- A read of DBG_UART_RX removes the oldest byte (R623). -/
def dbgUartRxRead (c : Chip) : Chip :=
  if !c.alive then c else { c with dbg := { c.dbg with uartRx := c.dbg.uartRx.drop 1 } }

/-- A read of DBG_UART_STATUS clears RX_OVF (R623). -/
def dbgUartStatusRead (c : Chip) : Chip := if !c.alive then c else c.setBit R.DBG_UART_STATUS 16 false

/-- The baud rate in force (R623). -/
def Chip.baud (c : Chip) : Nat :=
  match c.fld R.DBG_UART_CFG 1 0 with
  | 1 => 921600
  | 2 => 115200
  | _ => 1500000

/-- One CK_PER cycle of sending: a byte takes ten bits (R57, R622); TX_EMPTY when the last has left. -/
def Chip.uartTick (c : Chip) : Chip :=
  match c.dbg.uartTx with
  | [] => c
  | b :: bs =>
    let acc := c.dbg.uartAcc + c.baud
    if acc < 4000000000 then { c with dbg := { c.dbg with uartAcc := acc } }
    else
      let c := { c.emit (.uart b) with dbg := { c.dbg with uartTx := bs, uartAcc := 0 } }
      if bs.isEmpty then c.raise 0x58 1 else c

end Sys2Proof.Machine
end

