-- ==== Sys2Proof/Machine/Locus.lean ====
section
/-! DEFINITION. Locus's own commands: the partition, band commands, the page table, freed hot map slots,
relocations and REBUILD (R187, R193, R201 to R204, R215 to R219, R311). -/

namespace Sys2Proof.Machine

open Sys2Proof

/-! ### The partition (R187) -/

/-- A partition fits an actuator (the third check of R187). -/
def Loc.fits (l : Loc) (a : Act) : Bool :=
  let p := l.part
  let used := p.n3 + p.n4 a
  decide (used ≤ l.zonesOf a) &&
    decide (p.conv a + (l.zonesOf a - used) + p.n3 + p.n4 a + (l.format a).devZones ≤ 262144)

/-- Zones of writes accepted and not yet decided; those of namespace 4 stand in the Segment Store's own queue. -/
def Chip.acceptedZones (c : Chip) : List Nat :=
  (c.nvq.inflight.filter (fun x => x.isWrite && x.result.isNone && x.phase != .fetched && x.cmd.nsid != 4)).flatMap
    (fun x => c.cmdZones x.cmd)

/-- A zone is unwritten (the fifth check of R187), accepted writes included (R214). -/
def Chip.unwritten (c : Chip) (i : Nat) : Bool :=
  let z := c.zone i
  !c.segBusy i && !c.acceptedZones.contains i && (match z.kind with
    | 0 => true
    | 3 => z.bitmap.isEmpty && !z.hot
    | _ => z.state == 0 && z.live == 0 && !z.hot)

/-- The RESULT an APPLY is refused with, 0 where every check passes (R187). -/
def Chip.partRefusal (c : Chip) (p : Part) : Nat :=
  let new := { c.loc with part := p }
  if c.sys.mode ≠ .service ∨ c.sys.trans.isSome ∨ c.bit R.LOC_PART_CTRL 1 then 6
  else if !c.lcs.tierS ∧ p.n4A + p.n4B ≠ 0 then 4
  else if !new.fits .A ∨ !new.fits .B then 3
  else if c.loc.formatA.convHost < p.cA ∨ c.loc.formatB.convHost < p.cB then 5
  else
    let zs := c.loc.zones.map Prod.fst ++ c.nvq.staging.map Staged.zone ++ c.acceptedZones
    if zs.any (fun i => c.loc.layout i != new.layout i && !c.unwritten i) then 2 else 0

/-- A write of 1 to LOC_PART_CTRL.APPLY (R187): refused, or committed with one record. -/
def locPartApply (c : Chip) : Chip :=
  if !c.alive then c
  else
    let p := c.askedPart
    match c.partRefusal p with
    | 0 => (c.setBit R.LOC_PART_CTRL 1 true).commit .locus
        [.partition p.cA p.cB p.n3 p.n4A p.n4B p.opA p.opB] []
    | n => c.setFld R.LOC_PART_CTRL 6 4 n

/-- LOC_PART_APPLY (R187). -/
def execLocPartApply (s : State) : Host.Outcome State Fault Refusal := s.done (locPartApply s.chip)

/-! ### Band commands (R193, R219) -/

/-- The band that LOC_BAND_SEL names. -/
def Chip.selBand (c : Chip) : Nat := b2n (c.bit R.LOC_BAND_SEL 31) * 262144 + c.fld R.LOC_BAND_SEL 17 0

/-- A write of CMD to LOC_BAND_CMD: a SUSPECT band becomes FREE (1) or RETIRED (2) with one record; a band
that is not SUSPECT sets FAULT BAND_STATE. -/
def locBandCmd (c : Chip) (cmd : Nat) : Chip :=
  if !c.alive ∨ (cmd ≠ 1 ∧ cmd ≠ 2) then c
  else match c.band c.selBand with
    | none => c.fault 0x18 5
    | some b =>
      if b.state ≠ .suspect then c.fault 0x18 5
      else c.commit .locus [.bandState c.selBand (if cmd = 1 then 0 else 4) 0 b.wfaults] []

/-- LOC_BAND_CMD_FREE (R219). -/
def execLocBandCmdFree (s : State) : Host.Outcome State Fault Refusal := s.done (locBandCmd s.chip 1)

/-- LOC_BAND_CMD_RETIRE (R219). -/
def execLocBandCmdRetire (s : State) : Host.Outcome State Fault Refusal := s.done (locBandCmd s.chip 2)

/-! ### The page table (R202, R204) -/

/-- MAP_INCONSISTENCY (R34). -/
def execMapInconsistency (zone chunk : Nat) (s : State) : Host.Outcome State Fault Refusal :=
  s.done (mapInconsistency s.chip zone chunk)

/-- A write to LOC_PT_CTRL (R204), an RWD register: BUILD and RELEASE act where the table's area is lent
out. -/
def locPtCtrl (c : Chip) (v : Word) : Chip :=
  if !c.alive then c
  else
    let p := c.preWrite R.LOC_PT_CTRL v
    let c := p.1
    if c.sys.mode ≠ .service ∧ c.sys.mode ≠ .rest then c
    else
      let c := if p.2.getLsbD 0 then c.startBuild else c
      if p.2.getLsbD 1 && c.sys.mode != Mode.rebuild then
        { c with loc := { c.loc with pages := [], ptPresent := false, ptBuilding := false } }
      else c

/-- LOC_PT_BUILD (R204). -/
def execLocPtBuild (s : State) : Host.Outcome State Fault Refusal := s.done (locPtCtrl s.chip 1)

/-- LOC_PT_RELEASE (R204). -/
def execLocPtRelease (s : State) : Host.Outcome State Fault Refusal := s.done (locPtCtrl s.chip 2)

/-! ### The hot map and relocations -/

/-- Cleaning has freed a slot (R201): the waiting writes are offered it, and HOT_FULL falls when none waits. -/
def hotMapSlotFreed (c : Chip) : Chip :=
  if !c.alive || c.inHoldup then c else c.retryWaits.settleHotFull

/-- HOT_MAP_SLOT_FREED (R201). -/
def execHotMapSlotFreed (s : State) : Host.Outcome State Fault Refusal := s.done (hotMapSlotFreed s.chip)

/-- The media of an actuator takes background work. -/
def Chip.mediaOpen (c : Chip) (a : Act) : Bool :=
  c.alive && (c.sys.mode == .service || c.sys.mode == .calibrate) && !c.retired a && !c.calibrating a
    && !c.lostNow a

/-- A queued relocation (R311): a unit of KIND 1 or 2 goes to the media cache, one of KIND 3 is written in
place; one that no longer holds data is dropped. -/
def relocation (c : Chip) (a : Act) (zone unit : Nat) : Chip :=
  if !c.mediaOpen a || zoneAct zone != a || !c.loc.relocs.contains (zone, unit) then c
  else
    let c := { c with loc := { c.loc with relocs := c.loc.relocs.erase (zone, unit) } }
    let k := (c.zone zone).kind
    if c.resolve zone unit = .zeros then c
    else if k = 1 ∨ k = 2 then c.landCache a 0 c.loc.temp (zone, unit, (c.zone zone).gen)
    else if k = 3 then c.stampZone zone c.loc.temp false
    else c

/-- RELOCATION (R311). -/
def execRelocation (act : Act) (zone unit : Nat) (s : State) : Host.Outcome State Fault Refusal :=
  s.done (relocation s.chip act zone unit)

/-! ### REBUILD (R215 to R217) -/

/-- REBUILD progress of an actuator. -/
def Loc.rebuild (l : Loc) : Act → Rebuild
  | .A => l.rebuildA
  | .B => l.rebuildB

/-- Replace it. -/
def Chip.setRebuild (c : Chip) (a : Act) (r : Rebuild) : Chip :=
  match a with
  | .A => { c with loc := { c.loc with rebuildA := r } }
  | .B => { c with loc := { c.loc with rebuildB := r } }

/-- REBUILD scans an actuator, once every read slot in the page table's area is released (R202). -/
def Chip.rebuilding (c : Chip) (a : Act) : Bool :=
  c.alive && c.sys.mode == .rebuild && !c.areaHeld && !c.retired a && !(c.loc.rebuild a).done

/-- One sector of the media cache is read (step 3 of R215): where two name one unit the newer tag wins, and the sector of
the other is stale (R243). Each 1 MiB keeps its newest tag. -/
def Chip.scanSector (c : Chip) (a : Act) (h : CacheSector) : Chip :=
  let r := c.loc.rebuild a
  let mib := h.csec / 256
  let r := { r with mibs := r.mibs.set mib (max h.tag ((r.mibs.find? mib).getD 0)) }
  let z := c.zone h.zone
  let u := unitKey h.zone h.unit
  let newer : Bool := match r.tags.find? u with
    | some t => decide (t < h.tag)
    | none => true
  if zoneAct h.zone ≠ a ∨ (z.kind ≠ 1 ∧ z.kind ≠ 2) ∨ !newer then (c.setRebuild a r).markStale a h.csec
  else (c.setRebuild a { r with tags := r.tags.set u h.tag }).hotInsert h.zone h.unit 1 h.csec

/-- The ring goes on behind the sector written last. -/
def Chip.resumeRing (c : Chip) (a : Act) (found : List CacheSector) : Chip :=
  let last := found.foldl (fun (b : Option CacheSector) h => match b with
    | some m => if m.tag < h.tag then some h else some m
    | none => some h) none
  match last with
  | none => c
  | some h =>
    let loc := match a with
      | .A => { c.loc with mcNextA := h.csec }
      | .B => { c.loc with mcNextB := h.csec }
    { c with loc := loc.advanceMc a }

/-- Bands REBUILD probes (step 4 of R215): those not FREE in the band table, or all where none passed its check,
outside the conventional region. -/
def Chip.toProbe (c : Chip) (a : Act) : List Nat :=
  (c.loc.bands.filter (fun e => bandAct e.1 == a && ((c.loc.rebuild a).all || e.2.state != .free)
    && e.2.state != .conventional)).map Prod.fst

/-- An actuator's scan has nothing left to read. -/
def Chip.scanned (c : Chip) (a : Act) : Bool :=
  c.retired a || ((c.loc.rebuild a).mcDone && (c.toProbe a).all (c.loc.rebuild a).probed.contains)

/-- DONE rises with an actuator's last probe (R215). -/
def Chip.noteScanned (c : Chip) (a : Act) : Chip :=
  if c.scanned a then c.setRebuild a { c.loc.rebuild a with done := true } else c

/-- The media cache is read in ring order (step 3 of R215): MC_DONE rises. -/
def rebuildMediaCacheScan (c : Chip) (a : Act) (found : List CacheSector) : Chip :=
  if !c.rebuilding a || (c.loc.rebuild a).mcDone then c
  else
    let c := (found.foldl (fun (c : Chip) h => c.scanSector a h) c).resumeRing a found
    (c.setRebuild a { c.loc.rebuild a with mcDone := true }).noteScanned a

/-- REBUILD_MEDIA_CACHE_SCAN (R215). -/
def execRebuildMediaCacheScan (act : Act) (found : List CacheSector) (s : State) :
    Host.Outcome State Fault Refusal := s.done (rebuildMediaCacheScan s.chip act found)

/-- Units of a zone that lie in its band or the media cache: LIVE of a rebuilt zone. -/
def Chip.liveBelow (c : Chip) (zone mwp : Nat) : Nat :=
  mwp - ((c.hotOfZone zone).filter (fun e => decide (e.1 < mwp))).length

/-- A tag that belongs to a band's present content: not blank, and not older than sector 0's. -/
def freshTag (first : Nat) : Option Nat → Bool
  | some t => decide (first ≤ t)
  | none => false

/-- Halving between a unit of the last chunk that holds data and one that does not (R216), in at most 8 reads; `tail`
gives what was read by unit. -/
def halveChunk (first : Nat) (tail : List (Nat × Option Nat)) (base : Nat) : Nat → Nat → Nat → Nat
  | 0, _, hi => hi
  | n + 1, lo, hi =>
    if hi ≤ lo + 1 then hi
    else
      let mid := (lo + hi) / 2
      let read := ((tail.find? (fun e => e.1 == base + mid)).map Prod.snd).getD none
      if freshTag first read then halveChunk first tail base n mid hi else halveChunk first tail base n lo mid

/-- The units a band holds (R216), by the first sectors of chunk 1 and the following ones. -/
def scanEnd (first : Nat) (chunks : List (Option Nat)) (tail : List (Nat × Option Nat)) : Nat :=
  let n := ((chunks.take 255).takeWhile (freshTag first)).length
  256 * n + halveChunk first tail (256 * n) 8 0 256

/-- A hot map entry is older than sector 0 of the zone's band (R216): by the newest tag of its 1 MiB, or where sector
0's lies within that range by its own. -/
def Rebuild.older (r : Rebuild) (tag zone : Nat) (e : Nat × Hot) : Bool :=
  decide ((r.mibs.find? (e.2.csec / 256)).getD 0 < tag) || decide ((r.tags.find? (unitKey zone e.1)).getD 0 < tag)

/-- The probe of a band finds a zone (R216, R217): its page entries and descriptor, and its band OPEN or FULL (R193); an
entry older than the band's first sector is dropped. -/
def Chip.foundZone (c : Chip) (a : Act) (k : Nat) (b : BandHead) (mwp : Nat) : Chip :=
  let old := c.zone b.zone
  let dropped := (c.hotOfZone b.zone).filter (fun e => (c.loc.rebuild a).older b.tag b.zone e)
  let c := dropped.foldl (fun (c : Chip) e => c.hotRemove b.zone e.1) c
  let live := c.liveBelow b.zone mwp
  let ann := match c.band k with
    | some v => v.ann
    | none => old.ann
  let c := c.setZone b.zone { c.zone b.zone with
    band := k % 262144, hasBand := true, ann := ann, gen := b.gen, mwp := mwp, written := mwp, live := live
    wtime := 0, tmin := 0, tmax := 110, cleaning := false, hostWp := none, passed := []
    state := if old.kind = 2 then 7 else if mwp = 65536 then 4 else 3 }
  let c := c.mapBand k (fun v => if v.state = .suspect ∨ v.state = .retired then v
    else { v with state := if mwp = 65536 then .full else .opened })
  c.repage b.zone

/-- A band is probed (R216): FREE where its first sector is blank or missed, but for a band that only LOC_BAND_CMD frees
(R193); otherwise its zone is found, and of two bands that name one zone the older becomes RELEASING. -/
def rebuildBandProbe (c : Chip) (a : Act) (band : Nat) (found : Option BandHead) (chunks : List (Option Nat))
    (tail : List (Nat × Option Nat)) : Chip :=
  let k := bandKey a band
  let r := c.loc.rebuild a
  if !c.rebuilding a || !r.mcDone || r.probed.contains k || !(c.toProbe a).contains k then c
  else
    let r := { r with probed := insertNat r.probed k }
    let c := c.setRebuild a r
    let done : Chip := match found with
      | none => c.mapBand k (fun (b : Band) => if b.state = .suspect ∨ b.state = .retired then b else { b with state := .free })
      | some b =>
        let z := c.zone b.zone
        if zoneAct b.zone ≠ a ∨ (z.kind ≠ 1 ∧ z.kind ≠ 2) then c
        else
          let mwp := scanEnd b.tag chunks tail
          let c := c.setRebuild a { r with firsts := r.firsts.set k (b.zone, b.tag) }
          match List.find? (fun (e : Nat × Nat × Nat) => e.2.1 == b.zone && c.bandOfZone b.zone == some e.1) r.firsts with
          | none => c.foundZone a k b mwp
          | some e =>
            if b.tag < e.2.2 then c.unmapBand k 0 z.secure 0 z.nsid
            else (c.unmapBand e.1 0 z.secure 0 z.nsid).foundZone a k b mwp
    done.noteScanned a

/-- REBUILD_BAND_PROBE (R216). -/
def execRebuildBandProbe (act : Act) (band : Nat) (found : Option BandHead) (chunks : List (Option Nat))
    (tail : List (Nat × Option Nat)) (s : State) : Host.Outcome State Fault Refusal :=
  s.done (rebuildBandProbe s.chip act band found chunks tail)

/-- A KIND 1 or 2 zone no band was found for is Empty, with a new GEN where it was not (R188). -/
def Chip.emptyUnfound (c : Chip) (i : Nat) : Chip :=
  let z := c.zone i
  let found : Bool := (c.loc.rebuild (zoneAct i)).firsts.any (fun e => e.2.1 == i)
  if (z.kind = 1 ∨ z.kind = 2) ∧ !found ∧ !c.retired (zoneAct i) then
    c.setZone i { c.loc.freshZone i with gen := if z.state = 0 then z.gen else (z.gen + 1) % 256, hot := z.hot }
  else c

/-- The tag of sector 0 of a zone's band. -/
def Chip.firstTag (c : Chip) (i : Nat) : Nat :=
  match List.find? (fun (e : Nat × Nat × Nat) => e.2.1 == i && c.bandOfZone i == some e.1)
      (c.loc.rebuild (zoneAct i)).firsts with
  | some e => e.2.2
  | none => 0

/-- Insert a zone behind those with older tags. -/
def Chip.insertByTag (c : Chip) : List Nat → Nat → List Nat
  | [], i => [i]
  | j :: js, i => if c.firstTag i < c.firstTag j then i :: j :: js else j :: c.insertByTag js i

/-- The zones of a namespace beyond 128 Closed ones are finished (R217), those with the oldest first-sector tags
first, each with its record (R193, R625). -/
def Chip.finishExcess (c : Chip) (nsid : Nat) : Chip :=
  let closed := (c.loc.zones.filter (fun e => e.2.nsid == nsid && e.2.kind == 1 && e.2.state == 3)).map Prod.fst
  let order := closed.foldl c.insertByTag []
  (order.take (closed.length - 128)).foldl (fun (c : Chip) i =>
    let z := c.zone i
    (c.commit .locus [.zoneState i z.gen 4 z.gen z.mwp z.live] []).zoneChanged i) c

/-- A value as an image of the index gives it. -/
def imageValue (v : ValueImage) : Value :=
  { key := v.key, sealed := v.isSealed, length := v.length, act := v.act, pin := v.pin, secure := v.secure
    damaged := v.damaged, expires := v.expires, popularity := v.popularity, digest := v.digest
    extents := v.extents.map (fun e => ⟨e.1, e.2.1, e.2.2⟩) }

/-- Replace the Segment Store index by an image of it. -/
def Chip.loadValues (c : Chip) (vs : List ValueImage) : Chip :=
  vs.foldl (fun c v => c.putValue (imageValue v)) { c with seg := { c.seg with values := [] } }

/-- Every band is probed (step 5 of R215, R217): the descriptors and hot map stand, a checkpoint starts, DONE
and REBUILD_DONE are set, and the mode becomes SERVICE. SEG rebuilds its index from the value headers found on each
actuator. -/
def rebuildDone (c : Chip) (valuesA valuesB : List ValueImage) : Chip :=
  if !c.alive || c.sys.mode != .rebuild || !c.scanned .A || !c.scanned .B then c
  else
    let c := (c.loc.zones.map Prod.fst).foldl Chip.emptyUnfound c
    let c := if c.lcs.tierS then (c.loadValues (valuesA ++ valuesB)).expireValues else c
    let c := c.setRebuild .A { c.loc.rebuild .A with done := true }
    let c := (c.setRebuild .B { c.loc.rebuild .B with done := true }).enterService
    let c := (c.finishExcess 1).finishExcess 2
    let c := { c with jnl := { c.jnl with ckptNext := true } }
    (c.maybeCkpt).raise 0x18 5

/-- REBUILD_DONE (R215). -/
def execRebuildDone (valuesA valuesB : List ValueImage) (s : State) : Host.Outcome State Fault Refusal :=
  s.done (rebuildDone s.chip valuesA valuesB)

end Sys2Proof.Machine
end

