-- ==== Sys2Proof/Machine/ModeReq.lean ====
section
/-! DEFINITION. SYS_MODE_REQ and the entry to and exit from REST (R34 to R37, R588). -/

namespace Sys2Proof.Machine

open Sys2Proof

/-- A write of GO to SYS_MODE_REQ (R34, R35): refused with the first failing code, or accepted. GO has returned
to 0. -/
def modeReq (c : Chip) (target sub : Nat) (calA calB : Bool) : Chip :=
  if !c.alive then c
  else
    let k := R.SYS_MODE_REQ
    let c := (((c.setFld k 2 0 target).setBit k 4 calA).setBit k 5 calB).setFld k 7 6 sub
    let c := c.setBit k 8 false
    match c.modeRefusal target sub calA calB with
    | 0 =>
      let c := (c.setBit k 17 false).setFld k 23 20 0
      match target with
      | 1 =>
        let c := if calA then c.startCal .A else c
        if calB then c.startCal .B else c
      | 2 => c.leaveRest
      | 3 => c.startRest sub true
      | _ => c.enterRebuild
    | n => c.refuseMode n

/-- MODE_REQ_CALIBRATE (R34). -/
def execModeReqCalibrate (calA calB : Bool) (s : State) : Host.Outcome State Fault Refusal :=
  s.done (modeReq s.chip 1 0 calA calB)

/-- MODE_REQ_SERVICE (R34). -/
def execModeReqService (s : State) : Host.Outcome State Fault Refusal :=
  s.done (modeReq s.chip 2 0 false false)

/-- MODE_REQ_REST (R34). -/
def execModeReqRest (restSub : Fin 4) (s : State) : Host.Outcome State Fault Refusal :=
  s.done (modeReq s.chip 3 restSub.val false false)

/-- MODE_REQ_REBUILD (R34). -/
def execModeReqRebuild (s : State) : Host.Outcome State Fault Refusal :=
  s.done (modeReq s.chip 4 0 false false)

/-- An I/O doorbell, or an admin command that needs the media, comes during REST or entry to it (R37). An
admin doorbell alone changes nothing. -/
def restExitOnIo (c : Chip) (admin : Bool) : Chip :=
  if !c.alive || c.inHoldup then c
  else
    let needs : Bool := c.nvq.undecided.any (fun x =>
      if x.qid = 0 then x.cmd.opcode == 0x80 || x.cmd.opcode == 0x84 || x.cmd.opcode == 0x14 else !admin)
    let rung : Bool := !admin && c.nvq.sqs.any (fun q => q.qid != 0 && q.head != q.tail)
    if needs || rung then c.leaveRest else c

/-- REST_EXIT_ON_IO (R37). -/
def execRestExitOnIo (admin : Bool) (s : State) : Host.Outcome State Fault Refusal :=
  s.done (restExitOnIo s.chip admin)

end Sys2Proof.Machine
end

