-- ==== Sys2Proof/Machine/Holdup.lean ====
section
/-! DEFINITION. HOLDUP and the reset sources that run it (R42 to R45, R474 to R477, R593), the full-chip reset,
the abrupt shutdown (R476) and the end of entry to REST (R588). -/

namespace Sys2Proof.Machine

open Sys2Proof

/-! ### Entry to REST (R588) -/

/-- A page's work holds entry to REST: any of R588's list, and any other work of a block whose policy is not to
run on. A control engine that runs and its servo path run on under every policy (R587). -/
def Chip.holdsRest (c : Chip) (page : Nat) : Bool :=
  let listed : Bool := [0x05, 0x11, 0x18, 0x20, 0x21, 0x28, 0x29].contains page
  let exempt : Bool := [0x08, 0x51, 0x39, 0x19, 0x22, 0x2A, 0x24, 0x2C].contains page
  let ladders : Bool := (page == 0x20 && !c.chanA.ladders.isEmpty) || (page == 0x28 && !c.chanB.ladders.isEmpty)
  (c.blockBusy page && !exempt && (listed || c.fld (pPower page) 5 4 != 0)) || ladders

/-- Blocks whose policy is off lose their state but for their register page (R586); NFC keeps its ring position
(R587), and BST its soft entries, which the always-on domain holds (R572). -/
def Chip.turnOff (c : Chip) : Chip :=
  let off (page : Nat) : Bool := c.fld (pPower page) 5 4 == 3
  let c := if off 0x06 then { c with cal := {} } else c
  let c := if off 0x49 then { c with osp := none } else c
  if off 0x58 then
    let d := c.dbg
    { c with dbg := { d with
        uartTx := [], uartAcc := 0, uartRx := [], traceUsed := 0, traceSince := none, traceLost := 0 } }
  else c

/-- Every block has reached its policy (R588): REST_SUB is set and REST_IN raised. A block that holds the entry
is named in PWR_REST_WAIT: of several, the one with the highest page. -/
def restEntered (c : Chip) : Chip :=
  match c.sys.trans with
  | none => c
  | some t =>
    if !c.alive || c.inHoldup || t.target != .rest then c
    else match (linePages.filter c.holdsRest).getLast? with
      | some page => c.setReg R.PWR_REST_WAIT (BitVec.ofNat 32 (page + 2 ^ 31))
      | none =>
        let c := c.turnOff
        let selfRefresh : Bool := t.sub == 2 && c.fld (pPower 0x40) 5 4 == 2
        let c := c.setBit R.DDR_STATUS 1 selfRefresh
        let c := { c with sys := { c.sys with mode := .rest, restSub := t.sub, trans := none, reqBusy := false } }
        (c.setBit R.PWR_REST_WAIT 31 false).raise 0x02 1

/-- REST_ENTERED (R588). -/
def execRestEntered (s : State) : Host.Outcome State Fault Refusal := s.next (restEntered s.chip)

/-! ### HOLDUP -/

/-- The bit of SYS_RESET_CAUSE that records a source when it arrives (R44); a supply event's is set at the
restart. -/
def Chip.recordCause (c : Chip) : HoldupCause → Chip
  | .supply => c
  | .pin => c.setBit R.SYS_RESET_CAUSE 1 true
  | .wdog => c.setBit R.SYS_RESET_CAUSE 2 true
  | .swreset => c.setBit R.SYS_RESET_CAUSE 3 true

/-- What every block stops when HOLDUP begins (R286, R314, R334, R369, R409, R474, R554, R565; R61, R73). -/
def Chip.holdupStops (c : Chip) : Chip :=
  let c := ((c.holdupWrites .A).holdupWrites .B).stopLadders .A
  let c := ((c.stopLadders .B).abortReads .A).abortReads .B
  let c := { c with links := { c.links with ovlStop := true } }
  let c := (((c.holdupCal.cutTestNow 3).lcsHoldup).fuseHoldup).ospHoldup
  let parkIt (e : Cle) : Cle := { e with park := e.park || e.running }
  { c with cleA := parkIt c.cleA, cleB := parkIt c.cleB }

/-- JNL's part (step 6 of R474; R53, R240, R477): any open operation is left incomplete and a checkpoint stops;
counter groups 0 to 4 are written with CLEAN 1 where the power-cycle count is committed; from then on the port
takes only NFC's save. -/
def Chip.holdupJournal (c : Chip) : Chip :=
  let c := { c with jnl := { c.jnl with openOp := none, ckpt := none } }
  let c := if c.sys.pccCommitted && !c.jnl.failed then ((c.writeGroup0 1).saveOnTimes).writeWear else c
  { c with jnl := { c.jnl with closed := true } }

/-- Write staging is dirty and is to be saved (R53, R476). -/
def Chip.saveNeeded (c : Chip) (inBoot : Bool) : Bool :=
  if inBoot then c.nvq.staging.any (fun u => !u.restored) else !c.nvq.staging.isEmpty

/-- HOLDUP begins (R36, R44, R474): it overrides a transition, discards a pending mode request, and stops every
block. A second source changes nothing but its bit of SYS_RESET_CAUSE; none acts before BOOT begins. -/
def Chip.holdupBegin (c : Chip) (cause : HoldupCause) : Chip :=
  if !c.sys.booting then c
  else
    let c := c.recordCause cause
    match c.sys.holdup with
    | some h =>
      if cause = .supply then { c with sys := { c.sys with holdup := some { h with cause := .supply } } } else c
    | none =>
      let inBoot : Bool := c.sys.mode == .boot
      let c := { c with
        sys := { c.sys with
          mode := .holdup, trans := none, reqBusy := false, restSub := 0
          holdup := some ⟨cause, inBoot, false, false, false⟩ }
        pwr := { c.pwr with gated := [] } }
      let c := if c.bit R.DDR_STATUS 1 then c.setBit R.DDR_STATUS 1 false else c
      let c := c.nvq.inflight.foldl Chip.discard c
      let c := { c with nvq := { c.nvq with activating := none } }
      let c := c.holdupStops.holdupJournal
      let due := c.saveNeeded inBoot
      { c with
        evr := { c.evr with stopped := true }
        nfc := { c.nfc with saving := due }
        sys := { c.sys with holdup := some ⟨cause, inBoot, due, false, false⟩ } }

/-- PWRFAIL_N falls (R421). -/
def pwrfail (c : Chip) : Chip := ({ c with links := { c.links with pwrfailLow := true } }).holdupBegin .supply

/-- PWRFAIL (R421). -/
def execPwrfail (s : State) : Host.Outcome State Fault Refusal := s.next (pwrfail s.chip)

/-- SYS_RESET_N_LOW (R42). -/
def execSysResetNLow (s : State) : Host.Outcome State Fault Refusal := s.next (s.chip.holdupBegin .pin)

/-- The timeout of the watchdog in counts of DTIME: TIMEOUT is zero-based in ms (R74). -/
def Chip.wdogTime (c : Chip) : Nat := (c.fld R.SYS_WDOG_CTRL 15 0 + 1) * 400000

/-- The watchdog expires (R45): EN is 1 and no kick has come within the timeout. -/
def watchdogExpiry (c : Chip) : Chip :=
  if c.bit R.SYS_WDOG_CTRL 31 && decide (c.sys.wdogFrom.toNat + c.wdogTime ≤ c.dtm.dtime.toNat) then
    c.holdupBegin .wdog
  else c

/-- WATCHDOG_EXPIRY (R45). -/
def execWatchdogExpiry (s : State) : Host.Outcome State Fault Refusal := s.next (watchdogExpiry s.chip)

/-- A write to SYS_WDOG_KICK (R45). -/
def sysWdogKick (c : Chip) (v : Word) : Chip :=
  if !c.alive || v != 0x5AA5#32 then c else { c with sys := { c.sys with wdogFrom := c.dtm.dtime } }

/-- SYS_WDOG_KICK (R45). -/
def execSysWdogKick (v : Word) (s : State) : Host.Outcome State Fault Refusal := s.next (sysWdogKick s.chip v)

/-- A write to SYS_SWRESET (R44). -/
def sysSwreset (c : Chip) (v : Word) : Chip := if !c.alive || v != 0xA5A5#32 then c else c.holdupBegin .swreset

/-- SYS_SWRESET (R44). -/
def execSysSwreset (v : Word) (s : State) : Host.Outcome State Fault Refusal := s.next (sysSwreset s.chip v)

/-! ### Supplies (R590, R593) -/

/-- Min and Max of rails 0 to 10, in tenths of a millivolt. -/
def railLimits : List (Nat × Nat) :=
  [(17100, 18900), (11640, 12360), (11400, 12600), (11400, 12600), (10100, 11200), (8730, 9270), (7125, 7875),
   (7600, 8400), (7125, 7875), (7125, 7875), (4700, 5700)]

/-- One rail's measurement: its PWR_RAILS bit, and the count and cause of an excursion, which begins when the bit
falls. -/
def Chip.railBit (c : Chip) (n v : Nat) : Chip :=
  let l := railLimits.getD n (0, 0)
  let was := c.bit R.PWR_RAILS n
  let c := c.setBit R.PWR_RAILS n (decide (l.1 ≤ v) && decide (v ≤ l.2))
  if v < l.1 ∧ was then (c.bump R.PWR_UV_CNT).raise 0x02 0 else c

/-- PWR measures every rail (R593): HOLDUP begins where VDD_CORE or VDD_AN is below its Min at two consecutive
measurements. A rail the measurement does not give keeps its last value. -/
def railMeasure (c : Chip) (tenthsMv : List Nat) : Chip :=
  if !c.dtm.running then c
  else
    let vs := tenthsMv.take 11
    let c := vs.zipIdx.foldl (fun c e => c.railBit e.2 e.1) c
    let low (n : Nat) : Bool := match vs[n]? with
      | some v => decide (v < (railLimits.getD n (0, 0)).1)
      | none => false
    let now := low 6 || low 1
    let was := c.sys.railLow
    let c := { c with
      sys := { c.sys with railLow := now }
      pwr := { c.pwr with mv := vs.map (· / 10) ++ c.pwr.mv.drop vs.length } }
    if now && was then c.holdupBegin .supply else c

/-- RAIL_MEASURE (R593). -/
def execRailMeasure (tenthsMv : List Nat) (s : State) : Host.Outcome State Fault Refusal :=
  s.next (railMeasure s.chip tenthsMv)

/-! ### Full-chip reset -/

/-- Registers of the always-on domain that a reset other than power-on leaves alone (R75, R76, R532). -/
def aonKeys : List Nat :=
  [R.SYS_RESET_CAUSE, R.SYS_ALERT, R.EVR_LW_STATUS] ++ (List.range 8).map R.EVR_LASTWORD

/-- A full-chip reset: what is not volatile stays, with the always-on registers `aon`; everything else is as
after reset. The place and sequence of the next history record, the operating time, the power-cycle and unsafe
shutdown counts and the firmware slots' versions follow from the MRAM and the NOR. -/
def Chip.fullReset (c : Chip) (aon : SMap Word) (soft : List RepairEntry) : Chip :=
  { regs := aon, fuses := c.fuses, mram := c.mram, nand := c.nand, logA := c.logA, logB := c.logB
    jnl := { histSlot := c.jnl.histSlot, histSeq := c.jnl.histSeq, optime := c.jnl.optime, pcc := c.jnl.pcc
             unsafeCount := c.jnl.unsafeCount }
    nvq := { fwSlot1 := c.nvq.fwSlot1, fwSlot2 := c.nvq.fwSlot2, fwRunning := c.nvq.fwRunning }
    bst := { soft := soft }, att := c.att, out := c.out, freeCtr := c.freeCtr }

/-- POWER_ON_RESET (R42, R75): the always-on domain is lost too, POR is set, and the attached chips are at
their power-up values (R405, R418). -/
def powerOnReset (c : Chip) : Chip := { c.fullReset [(R.SYS_RESET_CAUSE, 1)] [] with att := {} }

/-- POWER_ON_RESET (R42). -/
def execPowerOnReset (s : State) : Host.Outcome State Fault Refusal := s.next (powerOnReset s.chip)

/-- The parked chip begins BOOT when all conditions of R629 hold: a full-chip reset with SAVED and
HOLDUP_RESTART as they apply. The hot map takes the size asked for (R218). -/
def holdupRestart (c : Chip) (pwrfailHigh railsInRange resetHigh : Bool) : Chip :=
  match c.sys.holdup with
  | none => c
  | some h =>
    let c := if pwrfailHigh then { c with links := { c.links with pwrfailLow := false } } else c
    if !h.parked || !pwrfailHigh || !railsInRange || !resetHigh then c
    else
      let c := if h.saved then c.setBit R.SYS_RESET_CAUSE 8 true else c
      let c := if h.cause = .supply then c.setBit R.SYS_RESET_CAUSE 4 true else c
      let size := BitVec.ofNat 32 (c.fld R.LOC_HOT_CFG 4 0 * (1 + 2 ^ 16))
      (c.fullReset (c.regs.filter (fun e => aonKeys.contains e.1)) c.bst.soft).setReg R.LOC_HOT_CFG size

/-- HOLDUP_RESTART (R629). -/
def execHoldupRestart (pwrfailHigh railsInRange resetHigh : Bool) (s : State) :
    Host.Outcome State Fault Refusal := s.next (holdupRestart s.chip pwrfailHigh railsInRange resetHigh)

/-! ### The abrupt shutdown (R134, R476) -/

/-- SHN 2: fetching stops; once every fetched command of the controller is decided, steps 3 and 6 to 11 of R474
run without retract and SHST reads 2. While a command is undecided the notification stands, and the sequence
runs when the sender repeats it. -/
def shutdownAbrupt (c : Chip) (i trailerPage : Nat) : Chip :=
  if !c.alive || c.inHoldup || !(c.nvq.cntl i).rdy || (c.nvq.cntl i).shst == 2 then c
  else
    let c := c.mapCntl i (fun y => { y with shst := 1, abrupt := true })
    if !(c.nvq.undecided.filter (fun x => x.cntl == i)).isEmpty then c
    else
      let c := (c.holdupWrites .A).holdupWrites .B
      let c := if c.jnl.failed then c else ((c.writeGroup0 1).saveOnTimes).writeWear
      let n := c.nand.nextSet
      let c := if c.nvq.staging.isEmpty then c else (c.saveStaging trailerPage 0).keepSave n
      c.mapCntl i (fun y => { y with shst := 2 })

/-- SHUTDOWN_ABRUPT (R476). -/
def execShutdownAbrupt (cntl : Fin 2) (trailerPage : Nat) (s : State) : Host.Outcome State Fault Refusal :=
  s.done (shutdownAbrupt s.chip cntl.val trailerPage)

end Sys2Proof.Machine
end

