-- ==== Sys2Proof/Machine/Recorder.lean ====
section
/-! DEFINITION. The event recorder (R516 to R537): its log in the MRAM, one operation at a time, the
freeze, the mirror, the last word, and firmware events. -/

namespace Sys2Proof.Machine

open Sys2Proof

/-- The two areas of the log and their size in words (R522). -/
inductive Area where
  | general | floor
  deriving DecidableEq, Repr

def Area.words : Area → Nat
  | .general => 5104
  | .floor => 1024

/-- MRAM word of the first word of an area. -/
def Area.base : Area → Nat
  | .general => (evrSlot0 + 2) * 8
  | .floor => (evrSlot0 + 640) * 8

/-- Head, tail and used words of an area. -/
def Evr.head (v : Evr) : Area → Nat
  | .general => v.ghead
  | .floor => v.fhead

def Evr.tail (v : Evr) : Area → Nat
  | .general => v.gtail
  | .floor => v.ftail

def Evr.used (v : Evr) : Area → Nat
  | .general => v.gused
  | .floor => v.fused

/-- Set head and used words of an area. -/
def Evr.setHead (v : Evr) (a : Area) (h u : Nat) : Evr :=
  match a with
  | .general => { v with ghead := h, gused := u }
  | .floor => { v with fhead := h, fused := u }

/-- Set tail and used words of an area. -/
def Evr.setTail (v : Evr) (a : Area) (t u : Nat) : Evr :=
  match a with
  | .general => { v with gtail := t, gused := u }
  | .floor => { v with ftail := t, fused := u }

/-- Fields of word 0 of a record (R516). -/
def recLen (w : DWord) : Nat := w.toNat % 64
def recSev (w : DWord) : Nat := w.toNat / 64 % 4
def recCode (w : DWord) : Nat := w.toNat / 256 % 65536

/-- Add to the count of records held of a severity. -/
def Evr.count (v : Evr) (sev : Nat) (up : Bool) : Evr :=
  let f (n : Nat) := if up then n + 1 else n - 1
  match sev with
  | 0 => { v with nInfo := f v.nInfo }
  | 1 => { v with nNotice := f v.nNotice }
  | 2 => { v with nError := f v.nError }
  | _ => { v with nFatal := f v.nFatal }

/-- Every operation ends with one root write (R523, R524), into the other root slot. -/
def Chip.writeRoot (c : Chip) : Chip :=
  let v := c.evr
  let slot := 1 - v.rootSlot
  let seq := (v.rootSeq + 1) % 65536
  let bs := layBytes 64
    [(0, 2, seq), (8, 2, v.gtail), (10, 2, v.ghead), (12, 2, v.ftail), (14, 2, v.fhead),
     (16, 2, v.gused), (18, 2, v.fused), (20, 2, v.nInfo), (22, 2, v.nNotice), (24, 2, v.nError),
     (26, 2, v.nFatal), (28, 4, v.dropQ), (32, 4, v.dropF)]
  let bs := bs.take 4 ++ leBytes 4 (slotCrc bs) ++ bs.drop 8
  let c := c.writeSlot (evrSlot0 + slot) bs
  { c with evr := { v with rootSlot := slot, rootSeq := seq } }

/-- Write words of an area from an index upwards. -/
def Chip.logWords (c : Chip) (a : Area) (i : Nat) : List DWord → Chip
  | [] => c
  | w :: ws => Chip.logWords (c.setMramWord (a.base + i) w) a (i + 1) ws

/-- A fill record over the rest of an area (R517). -/
def fillWords (n : Nat) : List DWord := BitVec.ofNat 64 n :: List.replicate (n - 1) 0

/-- Put record words at the head, behind a fill record if they do not fit before the area's end. -/
def Chip.putWords (c : Chip) (a : Area) (ws : List DWord) : Chip :=
  let h := c.evr.head a
  let n := ws.length
  if h + n ≤ a.words then
    let c := c.logWords a h ws
    { c with evr := c.evr.setHead a ((h + n) % a.words) (c.evr.used a + n) }
  else
    let gap := a.words - h
    let c := (c.logWords a h (fillWords gap)).logWords a 0 ws
    { c with evr := c.evr.setHead a n (c.evr.used a + gap + n) }

/-- Words a record of `n` words takes at the head, its fill record included. -/
def Chip.cost (c : Chip) (a : Area) (n : Nat) : Nat :=
  let h := c.evr.head a
  if h + n ≤ a.words then n else a.words - h + n

/-- The last record written, none where it is the record that starts at word `t` of the area: a record that is
freed takes no repeats. -/
def LastRec.without (l : LastRec) (a : Area) (t : Nat) : LastRec :=
  match a, l with
  | .general, .general i k => if i = t then .nowhere else .general i k
  | .floor, .floor i k => if i = t then .nowhere else .floor i k
  | _, l => l

/-- Free the record at the tail (R527, R528). -/
def Chip.freeTail (c : Chip) (a : Area) : Chip :=
  let t := c.evr.tail a
  let w := c.mramWord (a.base + t)
  let n := recLen w
  let v := c.evr.setTail a ((t + n) % a.words) (c.evr.used a - n)
  let v := { v with last := v.last.without a t }
  { c with evr := if recCode w = 0 then v else v.count (recSev w) false }

/-- Records the area holds of severity at most `s` (R528). -/
def Evr.atMost (v : Evr) (s : Nat) : Nat :=
  (if 0 ≤ s then v.nInfo else 0) + (if 1 ≤ s then v.nNotice else 0) + (if 2 ≤ s then v.nError else 0)

/-- Take the head of the intake queue. -/
def Chip.dequeue (c : Chip) : Chip := { c with evr := { c.evr with queue := c.evr.queue.drop 1 } }

/-- Words of a mirror page: the NAND page size in words (R533). -/
def Chip.mirrorPage (c : Chip) : Nat := 2 ^ (c.fld R.NFC_GEOM 11 8 - 3)

/-- Program the mirror page being filled (R533). -/
def Chip.programMirror (c : Chip) : Chip :=
  if c.evr.mirror.isEmpty then c
  else
    let v := c.evr
    let last := match v.last with | .mirror _ _ => LastRec.nowhere | l => l
    let c := { c with evr := { v with mirror := [], mirrorIndex := v.mirrorIndex + 1, last := last } }
    (c.bump R.EVR_MIRROR_CNT).emit (.nandPage 5 c.jnl.pcc v.mirrorIndex)

/-- Send the words of a record to the mirror (R532, R533): a page it does not fit is programmed first, and an
ERROR or FATAL record, or a full page, programs the page it entered. -/
def Chip.mirrorWords (c : Chip) (ws : List DWord) (code sev : Nat) : Chip :=
  let c := if c.mirrorPage < c.evr.mirror.length + ws.length then c.programMirror else c
  let at0 := c.evr.mirror.length
  let c := { c with evr := { c.evr with
    mirror := c.evr.mirror ++ ws, last := .mirror at0 code } }
  if 2 ≤ sev ∨ c.mirrorPage ≤ c.evr.mirror.length then c.programMirror else c

/-- Send an event to the mirror as a record (R532). -/
def Chip.mirrorRecord (c : Chip) (e : Event) : Chip :=
  c.mirrorWords (eventWords e c.jnl.pcc c.jnl.optime) e.code e.sev

/-- Add repeats to the record whose words 0 and 1 stand at an MRAM word (R525): REPEAT saturates and
the CRC is computed anew. -/
def Chip.addRepeats (c : Chip) (i n : Nat) : Chip :=
  let w0 := (c.mramWord i).toNat
  let rp := w0 / 2 ^ 24 % 2 ^ 16
  let w0 := w0 - rp * 2 ^ 24 + min (rp + n) 0xFFFF * 2 ^ 24
  let len := w0 % 64
  let opt := (c.mramWord (i + 1)).toNat % 2 ^ 32
  let rest := (List.range (len - 2)).flatMap (fun j => leBytes 8 (c.mramWord (i + 2 + j)).toNat)
  let crc := (crc32c (leBytes 8 w0 ++ leBytes 8 opt ++ rest)).toNat
  (c.setMramWord i (BitVec.ofNat 64 w0)).setMramWord (i + 1) (BitVec.ofNat 64 (opt + crc * 2 ^ 32))

/-- A record counted as written. -/
def Chip.recordWritten (c : Chip) (a : Area) (start : Nat) (e : Event) : Chip :=
  let c := { c with evr := { c.evr.count e.sev true with
    last := match a with | .general => .general start e.code | .floor => .floor start e.code } }
  c.writeRoot

/-- The DROPPED record (R526): when either count is above 0 and the queue has a free entry. -/
def Chip.queueDropped (c : Chip) : Chip :=
  let v := c.evr
  if v.pendQ + v.pendF = 0 ∨ 32 ≤ v.queue.length then c
  else
    let e : Event := { code := 0x1001, sev := v.pendSev, dtime := c.dtm.dtime
                       items := [BitVec.ofNat 64 v.pendQ, BitVec.ofNat 64 v.pendF, v.pendFirst, v.pendLast] }
    { c with evr := { v with queue := v.queue ++ [e], pendQ := 0, pendF := 0, pendSev := 0 } }

/-- The recorder is frozen (R529). The copy of log page 0xC0 is one command, so its freeze holds no other
operation back (DESIGN CHOICE). -/
def Chip.frozen (c : Chip) : Bool := c.bit R.EVR_FREEZE 0

/-- Make room on the FATAL floor by freeing at FTAIL (R527), at most as often as the floor has words. -/
def Chip.makeFloor (c : Chip) (n : Nat) : Nat → Chip
  | 0 => c
  | k + 1 => if c.evr.fused + c.cost .floor n ≤ 1024 then c else Chip.makeFloor (c.freeTail .floor) n k

/-- Write a FATAL record to the floor (R527, R529). -/
def Chip.writeFatal (c : Chip) (e : Event) : Chip :=
  let ws := eventWords e c.jnl.pcc c.jnl.optime
  let c := c.makeFloor ws.length 1024
  let start := if c.evr.fhead + ws.length ≤ 1024 then c.evr.fhead else 0
  let c := (c.putWords .floor ws).recordWritten .floor start e
  let c := if c.frozen then c.raise 0x04 4 else c
  (c.dequeue).raise 0x04 0

/-- What the operation for an event does (R525, R527, R528): add repeats to the record at a word, write to the
floor, write at GHEAD, drop the event, or make room by one free or one move of the record at GTAIL. -/
inductive LogOp where
  | repeats (a : Area) (i : Nat)
  | floor
  | write
  | drop
  | free
  | move
  deriving DecidableEq, Repr

/-- The words of the record at GTAIL. -/
def Chip.tailWords (c : Chip) : List DWord :=
  let at0 := Area.general.base + c.evr.gtail
  (List.range (recLen (c.mramWord at0))).map (fun j => c.mramWord (at0 + j))

/-- The operation for a record of `n` words and severity `s` at most 2 (R528). -/
def Chip.roomOp (c : Chip) (n s : Nat) : LogOp :=
  let w := c.mramWord (Area.general.base + c.evr.gtail)
  if c.evr.gused + c.cost .general n ≤ 5072 then .write
  else if c.evr.atMost s = 0 then .drop
  else if recCode w = 0 ∨ recSev w ≤ s then .free
  else if 5104 < c.evr.gused + c.cost .general (recLen w) then .drop
  else .move

/-- The operation for an event: its CODE is the last record's, or its severity decides (R525, R527, R528). -/
def Chip.logOp (c : Chip) (e : Event) : LogOp :=
  let op := if e.sev = 3 then .floor else c.roomOp (eventWords e c.jnl.pcc c.jnl.optime).length e.sev
  match c.evr.last with
  | .general i k => if k = e.code ∧ e.sev ≠ 3 then .repeats .general i else op
  | .floor i k => if k = e.code ∧ e.sev = 3 then .repeats .floor i else op
  | _ => op

/-- Write a record of SEV at most 2 at GHEAD. -/
def Chip.writeGeneral (c : Chip) (e : Event) : Chip :=
  let ws := eventWords e c.jnl.pcc c.jnl.optime
  let h := c.evr.ghead
  let start := if h + ws.length ≤ 5104 then h else 0
  ((c.putWords .general ws).recordWritten .general start e).dequeue

/-- Move the record at GTAIL to GHEAD (R528): it stays the last record written where it was. -/
def Chip.moveTail (c : Chip) : Chip :=
  let t := c.evr.gtail
  let sev := recSev (c.mramWord (Area.general.base + t))
  let ws := c.tailWords
  let h := c.evr.ghead
  let start := if h + ws.length ≤ 5104 then h else 0
  let last := match c.evr.last with
    | .general i k => if i = t then LastRec.general start k else .general i k
    | l => l
  let c := c.putWords .general ws
  let c := { c with evr := { c.evr.count sev true with last := last } }
  (c.freeTail .general).writeRoot

/-- Perform an operation in the log. -/
def Chip.logEvent (c : Chip) (e : Event) : LogOp → Chip
  | .repeats a i => ((c.addRepeats (a.base + i) (e.repeats + 1)).writeRoot).dequeue
  | .floor => c.writeFatal e
  | .write => c.writeGeneral e
  | .drop => (c.countDrop true e).dequeue
  | .free => (c.freeTail .general).writeRoot
  | .move => c.moveTail

/-- The first slot of the event log region an operation writes, none for a drop. -/
def Chip.opSlot (c : Chip) : LogOp → Option Nat
  | .repeats a i => some ((a.base + i) / 8 - evrSlot0)
  | .floor => some ((Area.floor.base + c.evr.fhead) / 8 - evrSlot0)
  | .write | .move => some ((Area.general.base + c.evr.ghead) / 8 - evrSlot0)
  | .free => some (1 - c.evr.rootSlot)
  | .drop => none

/-- An event whose CODE is the mirror's last record adds its repeats to it (R525, R533). -/
def Chip.mirrorRepeats (c : Chip) (i n : Nat) : Chip :=
  let w0 := (c.evr.mirror.getD i 0).toNat
  let rp := w0 / 2 ^ 24 % 2 ^ 16
  let w0' := w0 - rp * 2 ^ 24 + min (rp + n) 0xFFFF * 2 ^ 24
  let len := w0' % 64
  let opt := (c.evr.mirror.getD (i + 1) 0).toNat % 2 ^ 32
  let rest := (List.range (len - 2)).flatMap (fun j => leBytes 8 (c.evr.mirror.getD (i + 2 + j) 0).toNat)
  let crc := (crc32c (leBytes 8 w0' ++ leBytes 8 opt ++ rest)).toNat
  let m := (c.evr.mirror.set i (BitVec.ofNat 64 w0')).set (i + 1) (BitVec.ofNat 64 (opt + crc * 2 ^ 32))
  { c with evr := { c.evr with mirror := m } }

/-- An event goes to the mirror: its repeats to the last record where that has its CODE and its page is
unwritten, else a record (R525, R533). -/
def Chip.mirrorEvent (c : Chip) (e : Event) : Chip :=
  match c.evr.last with
  | .mirror i k => if k = e.code then c.mirrorRepeats i (e.repeats + 1) else c.mirrorRecord e
  | _ => c.mirrorRecord e

/-- The slot write of an operation failed: R532, and the event goes to the mirror, behind the record a move held
(R535). -/
def Chip.logRefused (c : Chip) (e : Event) (op : LogOp) (slot failed : Nat) : Chip :=
  let ws := c.tailWords
  let w := ws.getD 0 0
  let c := if failed = 3 then c.portFailed slot else c.logFail slot 6
  let c := c.setBit R.EVR_INJECT 0 false
  let c := if op = .move then c.mirrorWords ws (recCode w) (recSev w) else c
  (c.mirrorEvent e).dequeue

/-- The entry an operation takes, moved to the head of the queue: the head, or while frozen the first FATAL
one (R529). -/
def Evr.nextEvent (v : Evr) (frozen : Bool) : Option (Event × List Event) :=
  match v.queue with
  | [] => none
  | e :: rest =>
    if frozen ∧ e.sev ≠ 3 then (v.queue.find? (fun x => x.sev == 3)).map (fun f => (f, v.queue.erase f))
    else some (e, rest)

/-- One operation for the entry at the head of the queue (R525, R527, R528): in the mirror after a failure
(R532), else in the log. A failed slot write, or an armed LOGFAIL (R536), is the failure of the log memory. -/
def Chip.recordEvent (c : Chip) (e : Event) (failed : Nat) : Chip :=
  if c.evr.degraded then (c.mirrorEvent e).dequeue
  else
    let op := c.logOp e
    match c.opSlot op with
    | none => c.logEvent e op
    | some slot => if failed = 3 ∨ c.bit R.EVR_INJECT 0 then c.logRefused e op slot failed else c.logEvent e op

/-- The next operation of the recorder (R524), after queueing a DROPPED record that is due (R526). -/
def evrOperation (c : Chip) (failed : Nat) : Chip :=
  if !c.alive || !c.evr.started || c.evr.stopped then c
  else
    let c := c.queueDropped
    match c.evr.nextEvent c.frozen with
    | none => c
    | some (e, rest) => ({ c with evr := { c.evr with queue := e :: rest } }).recordEvent e failed

/-- EVR_OPERATION (R524). -/
def execEvrOperation (failed : Fin 4) (s : State) : Host.Outcome State Fault Refusal :=
  s.next (evrOperation s.chip failed.val)

/-- A block hands an event over (R519, R525): an item that carries the poison mark is written as all
ones. Codes that R521 does not list are never written (R520), nor codes of the recorder itself. -/
def eventHandover (c : Chip) (code : Nat) (items : List (Option DWord)) : Chip :=
  if !c.alive then c
  else if code ∈ [0x0001, 0x0002, 0x0C01, 0x1002, 0x1003, 0x1401, 0x1402, 0x1801, 0x1C01, 0x1C02,
      0x2801, 0x2802, 0x2803, 0x2C01, 0x3001, 0x3002, 0x3401, 0x3402, 0x3C01, 0x3C02, 0x5001, 0x5002,
      0x4001, 0x4002, 0x4003, 0x5401, 0x5402, 0x5403, 0x4C01, 0x4C02, 0x4C03, 0x6001, 0x6002, 0x6003,
      0x6401, 0x6801, 0x6C01, 0x7001, 0x7002, 0x7401, 0x7801, 0x7C01, 0x7802, 0x7C02, 0x8001, 0x8801]
  then
    c.handOver { code := code, sev := eventSev code
                 items := (items.take 29).map (fun i => i.getD 0xFFFFFFFFFFFFFFFF)
                 dtime := c.dtm.dtime }
  else c

/-- EVENT_HANDOVER (R525). -/
def execEventHandover (code : Nat) (items : List (Option DWord)) (s : State) :
    Host.Outcome State Fault Refusal := s.next (eventHandover s.chip code items)

/-- A write to EVR_FREEZE freezes or unfreezes the general area (R529). -/
def evrFreeze (c : Chip) (v : Word) : Chip :=
  if !c.alive then c
  else
    let c := if v &&& 0x0000FFFE#32 = 0 then c else c.ignored 0x04 2 0x080
    c.setReg R.EVR_FREEZE (v &&& 0xFFFF0001#32)

/-- EVR_FREEZE (R529). -/
def execEvrFreeze (v : Word) (s : State) : Host.Outcome State Fault Refusal :=
  s.next (evrFreeze s.chip v)

/-- FREEZE has stayed set longer than MAX ms (R529); MAX 0 is no limit. -/
def evrFreezeExpired (c : Chip) : Chip :=
  if !c.alive || !c.bit R.EVR_FREEZE 0 || c.fld R.EVR_FREEZE 31 16 == 0 then c
  else (c.setBit R.EVR_FREEZE 0 false).raise 0x04 3

/-- EVR_FREEZE_EXPIRED (R529). -/
def execEvrFreezeExpired (s : State) : Host.Outcome State Fault Refusal :=
  s.next (evrFreezeExpired s.chip)

/-- Set EVR_POST_CTRL.RESULT; GO has returned to 0. -/
def Chip.postResult (c : Chip) (n : Nat) : Chip :=
  (c.setFld R.EVR_POST_CTRL 26 24 n).setBit R.EVR_POST_CTRL 31 false

/-- A firmware event (R536, R537): CODE is checked, then NWORDS; the event is queued or merged, or
dropped under R525 with RESULT 4. -/
def evrPost (c : Chip) : Chip :=
  if !c.alive then c
  else
    let code := c.fld R.EVR_POST_CTRL 9 0
    let n := c.fld R.EVR_POST_CTRL 19 16
    if code < 0x200 then (c.postResult 2).fault 0x04 3
    else if 8 < n then (c.postResult 3).fault 0x04 3
    else
      let item (i : Nat) : DWord := BitVec.ofNat 64
        ((c.reg (R.EVR_POST_DATA (2 * i))).toNat + (c.reg (R.EVR_POST_DATA (2 * i + 1))).toNat * 2 ^ 32)
      let e : Event := { code := 4 * 1024 + code, sev := c.fld R.EVR_POST_CTRL 13 12
                         items := (List.range n).map item, dtime := c.dtm.dtime }
      let d := c.handOver e
      let merged := match c.evr.queue.getLast? with | some l => l.code == e.code | none => false
      let kept := merged || d.evr.queue.getLast? == some e
      d.postResult (if kept then 1 else 4)

/-- EVR_POST (R537). -/
def execEvrPost (s : State) : Host.Outcome State Fault Refusal := s.next (evrPost s.chip)

/-- Every queued event goes to the mirror (R534). -/
def Chip.drainMirror (c : Chip) : Chip :=
  let c := c.evr.queue.foldl Chip.mirrorEvent c
  { c with evr := { c.evr with queue := [] } }

/-- The mirror page is programmed: when it is full, on an ERROR or FATAL record, 1 s after its first
unwritten record or in HOLDUP (R533), where the entries still queued and the drop counts go with it (R534). -/
def evrMirrorProgram (c : Chip) (_timer : Bool) : Chip :=
  if c.parked || !c.dtm.running then c
  else
    (if c.inHoldup then c.drainMirror.queueDropped.drainMirror else c).programMirror

/-- EVR_MIRROR_PROGRAM (R533). -/
def execEvrMirrorProgram (timer : Bool) (s : State) : Host.Outcome State Fault Refusal :=
  s.next (evrMirrorProgram s.chip timer)

/-- EVR_INJECT.LOGFAIL arms a refusal of the next slot write (R536); an RWD register. -/
def evrInjectLogfail (c : Chip) : Chip :=
  if !c.alive then c
  else if !c.diagOpen then c.ignored 0x04 1 0xF00
  else c.setBit R.EVR_INJECT 0 true

/-- EVR_INJECT_LOGFAIL (R536). -/
def execEvrInjectLogfail (s : State) : Host.Outcome State Fault Refusal :=
  s.next (evrInjectLogfail s.chip)

/-! ### BOOT (R534) -/

/-- LEN of a record is possible for its CODE (R516). -/
def lenPossible (w : DWord) : Bool :=
  if recCode w = 0 then 1 ≤ recLen w && recLen w ≤ 31 else 3 ≤ recLen w && recLen w ≤ 32

/-- Walk an area from its tail (R534): the words kept, the records kept by severity, and whether the
walk reached the head. -/
def Chip.walk (c : Chip) (a : Area) (i kept : Nat) (v : Evr) (used : Nat) : Nat → Nat × Evr × Bool
  | 0 => (kept, v, kept == used)
  | n + 1 =>
    if kept = used then (kept, v, true)
    else
      let w := c.mramWord (a.base + i)
      let len := recLen w
      if !lenPossible w || used < kept + len || a.words < i + len then (kept, v, false)
      else
        let v := if recCode w = 0 then v else v.count (recSev w) true
        Chip.walk c a ((i + len) % a.words) (kept + len) v used n

/-- At step 11 the recorder reads its root, walks both areas and truncates damaged tails, recording
LOG_LOST once, and then RESET or WDOG_RESET (R534). -/
def evrBoot (c : Chip) : Chip :=
  let b0 := c.slotBytes evrSlot0
  let b1 := c.slotBytes (evrSlot0 + 1)
  let newer := match slotGood b0, slotGood b1 with
    | false, false => none
    | true, false => some (0, b0)
    | false, true => some (1, b1)
    | true, true =>
      let d := (leAt b1 0 2 + 65536 - leAt b0 0 2) % 65536
      if 1 ≤ d ∧ d ≤ 32767 then some (1, b1) else some (0, b0)
  let fresh : Evr := { queue := c.evr.queue, started := true, pendQ := c.evr.pendQ, pendF := c.evr.pendF
                       pendFirst := c.evr.pendFirst, pendLast := c.evr.pendLast, pendSev := c.evr.pendSev }
  let r : Chip × Bool := match newer with
    | none =>
      (({ c with evr := fresh }).writeRoot, !(slotBlank b0 && slotBlank b1))
    | some (n, bs) =>
      let f := leAt bs
      let v := { fresh with
        rootSlot := n, rootSeq := f 0 2, gtail := f 8 2, ghead := f 10 2, ftail := f 12 2, fhead := f 14 2
        gused := f 16 2, fused := f 18 2, dropQ := f 28 4, dropF := f 32 4 }
      let g := c.walk .general v.gtail 0 v v.gused 5104
      let h := c.walk .floor v.ftail 0 g.2.1 v.fused 1024
      let v := h.2.1
      let v := if g.2.2 then v else v.setHead .general ((v.gtail + g.1) % 5104) g.1
      let v := if h.2.2 then v else v.setHead .floor ((v.ftail + h.1) % 1024) h.1
      let c := { c with evr := v }
      (if g.2.2 ∧ h.2.2 then c else c.writeRoot, !(g.2.2 && h.2.2))
  let c := r.1
  let c := if r.2 then c.event 0x1003 [] else c
  let cause := (c.reg R.SYS_RESET_CAUSE).toNat
  if c.bit R.SYS_RESET_CAUSE 2 then c.event 0x0002 [cause, c.bootStep] else c.event 0x0001 [cause]

end Sys2Proof.Machine
end

