-- ==== Sys2Proof/Machine/Boot.lean ====
section
/-! DEFINITION. The boot sequence (R46 to R60, R436, R462, R463, R484, R203, R551) and the UART download. -/

namespace Sys2Proof.Machine

open Sys2Proof

/-- Both controllers report a fatal status (R49). -/
def Chip.setCfs (c : Chip) : Chip :=
  (c.mapCntl 0 (fun y => { y with cfs := true })).mapCntl 1 (fun y => { y with cfs := true })

/-! ### Steps 1 to 8 -/

/-- The internal reset rises (step 1). -/
def bootStart (c : Chip) : Chip :=
  if c.sys.booting then c else ({ c with sys := { c.sys with booting := true } }).step 1

/-- BOOT_START (R46). -/
def execBootStart (s : State) : Host.Outcome State Fault Refusal := s.next (bootStart s.chip)

/-- SYS_STRAP and HIF_PORT from the sampled pins (R55, R56). -/
def Chip.sampleStraps (c : Chip) (cfg : Nat) : Chip :=
  let uartOk : Bool := c.lcs.fused == .blank || c.lcs.fused == .manufacture
  let invalid : Bool := decide (5 ≤ cfg) || (cfg == 4 && !uartOk)
  let eff := if 5 ≤ cfg then 0 else cfg
  let dual := eff % 2
  let rate := if eff = 2 ∨ eff = 3 then 4 else 5
  (c.setReg R.SYS_STRAP (BitVec.ofNat 32 (cfg + 8 * b2n invalid))).setReg R.HIF_PORT
    (BitVec.ofNat 32 (dual + 2 * rate))

/-- The fused repairs are in force from step 3 (R570). -/
def Chip.loadRepairs (c : Chip) : Chip :=
  let more := c.fuses.repairs.filter (fun e => !c.bst.soft.contains e)
  let c := { c with bst := { c.bst with soft := c.bst.soft ++ more } }
  if c.fuses.repairRows = 0 then c else c.showFuse false false

/-- The PLL locks (steps 2 to 4): the clocks run, DTIME starts at 0, the fuses and straps are read, a new nonce
is drawn (R70) and link training may start. With TEST_EN high in BLANK the chip enters scan test (R604). -/
def pllLocked (c : Chip) (f : FuseImage) (cfg : Nat) (testEn : Bool) : Chip :=
  if !c.atStep 1 then c
  else
    let fs := { c.fuses with
      tierS := f.tierS, serial := f.serial, imageKey := f.imageKey, unlockKey := f.unlockKey }
    let life := fs.life
    let blank : Bool := life == .blank
    let c := { c with
      fuses := fs
      lcs := { fused := life, tierS := fs.tierS }
      dtm := { running := true }
      sys := { c.sys with blankBoot := blank }
      dbg := { c.dbg with testEn := testEn, scan := blank && testEn } }
    let c := (c.setBit R.CLK_STATUS 0 true).newNonce
    (c.sampleStraps cfg).loadRepairs.step 4

/-- PLL_LOCKED (R46). -/
def execPllLocked (f : FuseImage) (cfg : Fin 8) (testEn : Bool) (s : State) :
    Host.Outcome State Fault Refusal := s.next (pllLocked s.chip f cfg.val testEn)

/-- The power-on profile is complete (step 5). -/
def powerOnProfileDone (c : Chip) (skipped : Bool) (fails : List PostFail) (analog : List Nat) : Chip :=
  if !c.atStep 4 then c else (c.bstPost skipped fails analog).step 5

/-- POWER_ON_PROFILE_DONE (R570). -/
def execPowerOnProfileDone (skipped : Bool) (fails : List PostFail) (analog : List Nat) (s : State) :
    Host.Outcome State Fault Refusal := s.next (powerOnProfileDone s.chip skipped fails analog)

/-- A boot failure is recorded in the boot record and the history (R49, R470). -/
def Chip.recordBootFail (c : Chip) (lastFail : Nat) : Chip :=
  let c := c.writeBootRecord c.activeSlot (c.bootField 9 1) lastFail (c.bootField 12 4) (c.bootField 16 3)
  (c.history 1 lastFail).setBit R.SYS_ALERT 1 true

/-- DRAM training ends (step 6, R430): trained, or BOOT ends with the step at 5. -/
def ddrTrainingDone (c : Chip) (t : Training) : Chip :=
  if !c.atStep 5 then c
  else
    let n := match t with
      | .trained n => n.val
      | _ => 0
    if n ≠ 0 then
      let c := { c with mem := { c.mem with size := n } }
      ((c.setFld R.DDR_CFG 1 0 n).setBit R.DDR_STATUS 0 true).step 6
    else
      let c := { c with mem := { c.mem with trainFail := true }, sys := { c.sys with bootFailed := true } }
      ((c.setBit R.DDR_STATUS 2 true).recordBootFail 2).setCfs

/-- DDR_TRAINING_DONE (R430). -/
def execDdrTrainingDone (t : Training) (s : State) : Host.Outcome State Fault Refusal :=
  s.next (ddrTrainingDone s.chip t)

/-- A fill ends (step 7, R436, R500): when all have, core 0 is released at the boot ROM (step 8). -/
def memoryFillDone (c : Chip) (m : FillMem) : Chip :=
  if !c.atStep 6 then c
  else
    let c := { c with mem := c.mem.fill m }
    let c := match m with
      | .dram => ({ c with mem := { c.mem with filledDram := true } }).setReg R.MEC_FILL (BitVec.ofNat 32 (1 + 2 * 1000))
      | .sram => ({ c with mem := { c.mem with filledSram := true } }).setReg R.SEE_FILL 1
      | .l2 => { c with mem := { c.mem with filledL2 := true }, cpu := { c.cpu with l2 := [], l2Inv := true } }
    if c.mem.filledDram && c.mem.filledSram && c.mem.filledL2 then
      let c := c.setBit R.CPU_RELEASE 0 true
      ({ c with cpu := { c.cpu with l1iInv := [0], l1dInv := [0] } }).step 8
    else c

/-- MEMORY_FILL_DONE (R436). -/
def execMemoryFillDone (m : FillMem) (s : State) : Host.Outcome State Fault Refusal :=
  s.next (memoryFillDone s.chip m)

/-! ### Step 9: the firmware image -/

/-- The boot ROM enables the watchdog with 5,000 ms and enters the image (R50). -/
def Chip.enterImage (c : Chip) : Chip :=
  let c := c.setReg R.SYS_WDOG_CTRL (BitVec.ofNat 32 (2 ^ 31 + 4999))
  ({ c with sys := { c.sys with wdogFrom := c.dtm.dtime } }).step 9

/-- The firmware comes over the UART (R57). -/
def Chip.uartBoot (c : Chip) : Bool := c.fld R.SYS_STRAP 2 0 == 4 && !c.bit R.SYS_STRAP 3

/-- The slot to try first, its attempt count and LAST_FAIL so far (step 3 of R49). -/
def Chip.firstSlot (c : Chip) : Nat × Nat × Nat :=
  let n := c.bootField 9 1
  if 3 ≤ n then (3 - c.activeSlot, 0, 3) else (c.activeSlot, n, c.bootField 10 1)

/-- The step of R59 at which a slot's image fails (R60), 0 if it passes them all. BLANK accepts no image from the
octal NOR (R66): there a slot counts as failing step 3. -/
def Chip.slotStep (c : Chip) (s : SlotImage) : Nat :=
  let n := leAt s.header 12 4
  let h := c.headerStep s.header s.signatureGood
  if h ≠ 0 then h
  else if c.effective = 0 then 3
  else if s.body.length < n then 5
  else if imageDigest s.header (s.body.take n) then 0 else 6

/-- The boot ROM reads a slot's body into DRAM at LOAD (R60) where checks 1 to 4 of R59 pass: it is there whether
or not check 6 then fails. -/
def Chip.loadSlot (c : Chip) (s : SlotImage) : Chip :=
  let st := c.slotStep s
  if st = 0 ∨ st = 6 then c.writeRange (leAt s.header 16 8) (s.body.take (leAt s.header 12 4)) else c

/-- The boot ROM loads the firmware from the octal NOR (R49, R50, R60): the slot of the boot record, or the
other, is entered, or the boot failure is recorded. `nor` is OSP_MODE.MODE; with no device both slots fail. Where
the image comes over the UART the boot ROM does no more than find the device (R614). -/
def firmwareImageLoaded (c : Chip) (s1 s2 : SlotImage) (nor norLog2 : Nat) : Chip :=
  if !c.atStep 8 then c
  else
    let c := c.setReg R.OSP_MODE (BitVec.ofNat 32 (nor + norLog2 % 256 * 256))
    if c.uartBoot then c
    else
      let f := c.firstSlot
      let of (n : Nat) : SlotImage := if n = 1 then s1 else s2
      let good (n : Nat) : Bool := nor != 0 && c.slotStep (of n) == 0
      let stored (n : Nat) : Nat := leAt (of n).header 8 4
      let version (n : Nat) : Nat := if good n then stored n else 0
      let first : Chip := if nor = 0 then c else c.loadSlot (of f.1)
      let second : Chip := if nor = 0 then c else first.loadSlot (of (3 - f.1))
      let enter (c : Chip) (n att last : Nat) : Chip :=
        let c := c.writeBootRecord n (att + 1) last (stored n) (c.bootField 16 3)
        ({ c with nvq := { c.nvq with fwSlot1 := version 1, fwSlot2 := version 2, fwRunning := n } }).enterImage
      if good f.1 then enter first f.1 f.2.1 f.2.2
      else if good (3 - f.1) then enter second (3 - f.1) f.2.1 1
      else
        let c := { second with sys := { second.sys with bootFailed := true } }
        ((c.recordBootFail 4).setCfs).step 0xF

/-- FIRMWARE_IMAGE_LOADED (R49). -/
def execFirmwareImageLoaded (s1 s2 : SlotImage) (nor : Fin 3) (norLog2 : Nat) (s : State) :
    Host.Outcome State Fault Refusal := s.next (firmwareImageLoaded s.chip s1 s2 nor.val norLog2)

/-- A write to SYS_BOOT_OK (R49): bit 0 clears the attempt count, and the cycle is the last successful one. -/
def sysBootOk (c : Chip) (v : Word) : Chip :=
  if !c.alive then c
  else
    let p := c.preWrite R.SYS_BOOT_OK v
    let c := p.1
    if !p.2.getLsbD 0 then c
    else c.writeBootRecord c.activeSlot 0 (c.bootField 10 1) (c.bootField 12 4) c.jnl.pcc

/-- SYS_BOOT_OK (R49). -/
def execSysBootOk (v : Word) (s : State) : Host.Outcome State Fault Refusal := s.next (sysBootOk s.chip v)

/-! ### The UART download (R57 to R59) -/

/-- The boot ROM takes packets. -/
def Chip.uartOpen (c : Chip) : Bool := c.atStep 8 && c.uartBoot

/-- UART_SYNC_BYTE (R57). -/
def execUartSyncByte (s : State) : Host.Outcome State Fault Refusal :=
  let c := s.chip
  s.next (if c.uartOpen && !c.uart.started then c.emit (.uart 0x55) else c)

/-- The boot ROM's answers. -/
def Chip.uartAck (c : Chip) : Chip := c.emit (.uart 0x06)
def Chip.uartNak (c : Chip) (reason : Nat) : Chip :=
  (c.emit (.uart 0x15)).emit (.uart (BitVec.ofNat 8 reason))

/-- Replace the load in progress. -/
def Chip.setLoad (c : Chip) (h : Option (List Byte)) (n : Nat) : Chip :=
  { c with uart := { c.uart with header := h, received := n } }

/-- TYPE or LEN is refused (R58). -/
def packetRefused (p : List Byte) : Bool :=
  let n := leAt p 2 2
  match leAt p 1 1 with
  | 1 => n != 256
  | 2 => decide (n < 5) || decide (1024 < n)
  | 3 => n != 0
  | _ => true

/-- The CRC of a packet holds (R58). -/
def packetGood (p : List Byte) : Bool :=
  let n := leAt p 2 2
  decide (8 + n ≤ p.length) && decide (leAt p (4 + n) 4 = (crc32c (slice p 1 (3 + n))).toNat)

/-- A packet of a TYPE (R58): ignored without its start byte, answered NAK 2 or 1, or acted on. A packet of
another valid TYPE belongs to another row. -/
def Chip.packet (c : Chip) (typ : Nat) (p : List Byte) (act : Chip → List Byte → Chip) : Chip :=
  let t := leAt p 1 1
  if !c.uartOpen || leAt p 0 1 != 0xA5 || (t != typ && decide (1 ≤ t) && decide (t ≤ 3)) then c
  else
    let c := { c with uart := { c.uart with started := true } }
    if packetRefused p then c.uartNak 2
    else if !packetGood p then c.uartNak 1
    else act c (slice p 4 (leAt p 2 2))

/-- A HEADER: steps 1 to 4 of R59; a new load starts. -/
def Chip.takeHeader (c : Chip) (signatureGood : Bool) (h : List Byte) : Chip :=
  match c.headerStep h signatureGood with
  | 0 => (c.setLoad (some h) 0).uartAck
  | n => (c.setLoad none 0).uartNak (if n = 4 then 5 else 4)

/-- UART_HEADER (R58). -/
def execUartHeader (p : List Byte) (signatureGood : Bool) (s : State) : Host.Outcome State Fault Refusal :=
  s.next (s.chip.packet 1 p (fun c bs => c.takeHeader signatureGood bs))

/-- DATA: body bytes at LOAD + OFFSET, if OFFSET follows. -/
def Chip.takeData (c : Chip) (bs : List Byte) : Chip :=
  let off := leAt bs 0 4
  let body := bs.drop 4
  match c.uart.header with
  | none => c.uartNak 3
  | some h =>
    if off ≠ c.uart.received ∨ leAt h 12 4 < off + body.length then c.uartNak 3
    else ((c.writeRange (leAt h 16 8 + off) body).setLoad (some h) (off + body.length)).uartAck

/-- UART_DATA (R58). -/
def execUartData (p : List Byte) (s : State) : Host.Outcome State Fault Refusal :=
  s.next (s.chip.packet 2 p Chip.takeData)

/-- RUN: steps 5 and 6 of R59; the image is entered after the ACK. -/
def Chip.takeRun (c : Chip) (_bs : List Byte) : Chip :=
  match c.uart.header with
  | none => c.uartNak 3
  | some h =>
    let n := leAt h 12 4
    let r := c.readRange (leAt h 16 8) n
    let c := r.2.2
    if c.uart.received = n ∧ !r.2.1 ∧ imageDigest h r.1 then c.uartAck.enterImage
    else (c.setLoad none 0).uartNak 5

/-- UART_RUN (R58). -/
def execUartRun (p : List Byte) (s : State) : Host.Outcome State Fault Refusal :=
  s.next (s.chip.packet 3 p Chip.takeRun)

/-- A packet that has begun breaks off (R57): it is discarded with NAK 6. Its start was a packet start, so the
sync bytes end. -/
def uartTimeout (c : Chip) : Chip :=
  if c.uartOpen then ({ c with uart := { c.uart with started := true } }).uartNak 6 else c

/-- UART_PACKET_TIMEOUT (R57). -/
def execUartPacketTimeout (s : State) : Host.Outcome State Fault Refusal := s.next (uartTimeout s.chip)

/-! ### Step 11: journal replay (R462, R463) -/

/-- A walk of the map journal: where it stands, the records read with their PART and PARTS, the epoch in force,
and whether a failed record ended it. -/
structure Walk where
  slot : Nat
  seq : Nat
  epoch : Nat
  recs : List (Nat × Nat × Rec) := []
  failed : Bool := false

/-- The walk of R462 from a slot on. -/
def Chip.replayWalk (c : Chip) (w : Walk) : Nat → Walk
  | 0 => w
  | n + 1 =>
    let bs := c.slotBytes w.slot
    let next := (w.slot + 1) % ringSlots
    let seq := (w.seq + 1) % 65536
    if slotBlank bs then w
    else if slotGood bs then
      if slotSeq bs ≠ w.seq then w
      else match readRec (c.epochKey w.epoch) bs with
        | none => { w with failed := true }
        | some r =>
          let e := match r with
            | .ckptStart _ e => e
            | _ => w.epoch
          Chip.replayWalk c
            { w with slot := next, seq := seq, epoch := e, recs := w.recs ++ [(slotPart bs, slotParts bs, r)] } n
    else
      let nb := c.slotBytes next
      { w with failed := !slotBlank nb && slotGood nb && slotSeq nb == seq }

/-- The complete operations among records (R168, R461): one whose last record is missing is discarded. -/
def opsOf : List (Nat × Nat × Rec) → List Rec → List (List Rec)
  | [], _ => []
  | (part, parts, r) :: rs, cur =>
    let cur := if part = 0 then [r] else if cur.isEmpty then [] else cur ++ [r]
    if cur.isEmpty then opsOf rs []
    else if part = parts then cur :: opsOf rs []
    else opsOf rs cur

/-- What the records leave of cleaning jobs (R241): destinations of a BEGIN without COMMIT or RELEASE, and
sources of a COMMIT without RELEASE, each with the RELEASE to be written. A SUSPECT source is not overwritten: it
does not become FREE. -/
def jobsLeft (overwrite : Bool) (rs : List Rec) : List (Nat × Rec) :=
  rs.foldl (fun l r =>
    match r with
    | .bclBegin _ _ f j _ d _ _ => l ++ [(d, .bclRelease (f % 32 + 32) j d)]
    | .bclCommit _ _ f j s d _ _ _ _ _ _ _ _ =>
      let bad : Bool := f % 16 == 2 || rs.any (fun r => match r with
        | .bandState k 3 _ _ => k == s
        | _ => false)
      let o := overwrite && f / 16 % 2 == 1 && !bad
      l.filter (fun e => e.1 != d) ++ [(s, .bclRelease (f % 32 + 128 * b2n o) j s)]
    | .bclRelease _ _ b => l.filter (fun e => e.1 != b)
    | _ => l) []

/-- JNL_ROOT as replay finds it: tail, its SEQ, SET and the epoch; an empty journal without one. -/
def Chip.rootOf (c : Chip) : Nat × Nat × Nat × Nat :=
  match c.group (bootGroup 1) with
  | some bs => (leAt bs 8 2, leAt bs 10 2, leAt bs 12 4, leAt bs 16 1)
  | none => (0, 0, 0, 9)

/-- A record written during replay takes part in it. -/
def Chip.replayWrite (c : Chip) (r : Rec) : Chip :=
  let c := c.appendRecs [r]
  { c with jnl := { c.jnl with replayed := c.jnl.replayed ++ [[r]] } }

/-- The map journal is replayed (R241, R462). -/
def Chip.replayMap (c : Chip) : Chip :=
  let t := c.rootOf
  let w := c.replayWalk { slot := t.1, seq := t.2.1, epoch := t.2.2.2 } ringSlots
  let ops := opsOf w.recs []
  let c := { c with jnl := { c.jnl with
    tail := t.1, tailSeq := t.2.1, set := t.2.2.1, epoch := t.2.2.2, writeEpoch := w.epoch
    head := w.slot, headSeq := w.seq, used := w.recs.length, replayed := ops } }
  let n := (ops.map List.length).foldl (· + ·) 0
  let c := c.setReg R.JNL_REPLAY (BitVec.ofNat 32 (n % 4096 + b2n w.failed * 2 ^ 28 + 2 ^ 31))
  if w.failed then c
  else (jobsLeft (c.bit R.BCL_SECURE 0) ops.flatten).foldl (fun c e => c.replayWrite e.2) c

/-- Counter group 0 is read: an unsafe shutdown is counted and recorded (R477), and the power-cycle count is
incremented and committed (R463). -/
def Chip.replayCounts (c : Chip) : Chip :=
  let c := match c.group (ctrGroup 0) with
    | none => { c with jnl := { c.jnl with optime := 0, pcc := 0, unsafeCount := 0 } }
    | some bs =>
      let pcc := leAt bs 12 3
      let n := leAt bs 16 4
      let clean : Bool := leAt bs 15 1 == 1
      let n' := if clean then n else satSucc n 0xFFFFFFFF
      let c := { c with jnl := { c.jnl with optime := leAt bs 8 4, pcc := pcc, unsafeCount := n' } }
      if clean then c else (c.event 0x1402 [pcc, n']).history 6 pcc
  let c := { c with jnl := { c.jnl with pcc := (c.jnl.pcc + 1) % 2 ^ 24 }, sys := { c.sys with pccCommitted := true } }
  c.writeGroup0 0

/-- The on-time accumulators are loaded (R333). -/
def Chip.replayOnTimes (c : Chip) : Chip :=
  let at_ (h : Nat) : Nat := match c.group (ctrGroup (1 + h / 10)) with
    | some bs => leAt bs (8 + 4 * (h % 10)) 4
    | none => 0
  (List.range 20).foldl (fun c h => { c with
    assistCycles := SMap.put (fun _ => 0) c.assistCycles h (at_ h * cyclesPerTick)
    assistSaved := SMap.put (fun _ => 0) c.assistSaved h (at_ h) }) c

/-- NFC's bad-block lists are read (R466). -/
def Chip.replayBadBlocks (c : Chip) : Chip :=
  let of (g : Nat) : List Nat := match c.group (bootGroup (3 + g)) with
    | some bs => ((List.range 14).map (fun i => leAt bs (8 + 4 * i) 4)).filter (· != 0xFFFFFFFF)
    | none => []
  { c with nand := { c.nand with badBlocks := (List.range 4).flatMap of } }

/-- The retirement record is read, and unretirements that wait take effect (R393). -/
def Chip.replayRetirement (c : Chip) : Chip :=
  match c.group (bootGroup 2) with
  | none => c
  | some bs =>
    let r := leAt bs 8 1
    let u := leAt bs 9 1
    let on (i : Nat) : Bool := r.testBit i && !u.testBit i
    let c := { c with chd := { c.chd with retiredA := on 0, retiredB := on 1 } }
    if u % 4 = 0 then c else c.writeRetireRecord

/-- Step 11 (R462, R463, R534, R333, R393). -/
def journalReplay (c : Chip) : Chip :=
  if !c.atStep 10 || c.sys.blankBoot then c
  else
    let c := evrBoot c
    let c := c.replayMap.replayCounts.replayOnTimes.replayBadBlocks.replayRetirement
    let ready : Bool := (c.group (bootGroup 7)).isSome && (c.group (bootGroup 8)).isSome
    (c.setBit R.SEC_STATUS 0 ready).step 11

/-- JOURNAL_REPLAY (R462). -/
def execJournalReplay (s : State) : Host.Outcome State Fault Refusal := s.next (journalReplay s.chip)

/-! ### Step 12: the save set (R484) -/

/-- A unit as it returns to staging: its media copies count for nothing, and namespace 4's has no place yet. -/
def restoredUnit (u : Staged × Nat) : Staged :=
  let v : Staged := { u.1 with restored := true, media := [] }
  if v.nsid = 4 then { v with zone := noZone, unit := 16 * u.2 } else v

/-- Words of a page of a unit, by page size (R485). -/
def pageWords (log2 page : Nat) : List Nat :=
  let n := 2 ^ log2 / 8
  ((List.range n).map (· + page * n)).filter (fun i => decide (i < 8192))

/-- Step 12: NFC reads the geometry and restores the latest valid set; `bad` names the UNCORRECTABLE pages, by
ring page, unit and page within the unit. -/
def saveSetRestore (c : Chip) (geom : Word) (bad : List (Nat × Nat × Nat)) : Chip :=
  if !c.atStep 11 then c
  else
    let c := c.setReg R.NFC_GEOM (geom &&& definedMask [⟨2, 0, .ro⟩, ⟨11, 8, .ro⟩, ⟨27, 16, .ro⟩])
    match c.nand.validSet with
    | none => c.step 12
    | some set =>
      let poisonOf (i : Nat) : List Nat := (bad.filter (fun b => b.2.1 == i)).flatMap
        (fun b => pageWords (c.fld R.NFC_GEOM 11 8) b.2.2)
      let us := set.units.zipIdx.map (fun u =>
        let v := restoredUnit u
        { v with poison := (poisonOf u.2).foldl insertNat v.poison })
      let next := us.foldl (fun m u => max m (u.order + 1)) c.nvq.nextOrder
      let c := { c with
        nvq := { c.nvq with staging := us, nextOrder := next }
        nfc := { c.nfc with restoredSet := some set.set } }
      let c := set.active.foldl (fun c e => c.setZone e.1 { c.zone e.1 with hostWp := some e.2 }) c
      let c := bad.foldl (fun c b => c.event 0x8001 [b.1, b.2.1]) c
      (c.raise 0x48 1).step 12

/-- SAVE_SET_RESTORE (R484). -/
def execSaveSetRestore (geom : Word) (bad : List (Nat × Nat × Nat)) (s : State) :
    Host.Outcome State Fault Refusal := s.next (saveSetRestore s.chip geom bad)

/-! ### Step 14: the map (R203) -/

/-- A zone as its descriptor in an image gives it; a band number beyond the range stands for no band. -/
def Chip.imageZone (c : Chip) (z : ZoneImage) : Zone :=
  { c.loc.freshZone z.index with
    state := z.state, gen := z.gen, ann := z.ann, band := z.band % 262144
    hasBand := z.state != 0 && decide (z.band < 262144), mwp := z.mwp, written := z.mwp, live := z.live
    wtime := z.wtime, tmin := z.tmin, tmax := z.tmax, bitmap := z.bitmap, secure := z.secure }

/-- A band as the band table in an image gives it. -/
def imageBand (b : BandImage) : Band :=
  { state := .ofCode b.state, head := b.head, ann := b.ann, rewrites := b.rewrites, wfaults := b.wfaults
    startTrack := b.startTrack, salt := b.salt }

/-- The tables of an image. -/
def Chip.loadImage (c : Chip) (m : MapImage) : Chip :=
  let p (i : Nat) : Nat := m.part.getD i 0
  let f (i : Nat) : Nat := m.format.getD i 0
  let c := { c with loc := {
    part := ⟨p 0, p 1, p 2, p 3, p 4, p 5, p 6⟩
    formatA := ⟨f 0, f 1, f 2, m.mcSize.1, m.defects.1⟩, formatB := ⟨f 3, f 4, f 5, m.mcSize.2, m.defects.2⟩
    temp := c.loc.temp } }
  let c := m.zones.foldl (fun c z => c.setZone z.index (c.imageZone z)) c
  let bands := m.bands.foldl (fun (t : SMap Band) b => t.set b.key (imageBand b)) []
  let c := { c with loc := { c.loc with bands := bands, ckptBands := if m.valid then some bands else none } }
  let c := m.hot.foldl (fun c h => c.hotInsert h.zone h.unit h.kind h.csec) c
  let c := m.stale.1.foldl (fun c n => c.markStale .A n) c
  let c := m.stale.2.foldl (fun c n => c.markStale .B n) c
  let c := if c.lcs.tierS then c.loadValues m.values else c
  let c := { c with loc := { c.loc with pages := m.pages.foldl (fun (t : SMap Word) e =>
    t.set (e.1 * 256 + e.2.1) (pageEntry e.2.2.1 e.2.2.2 e.2.1)) [] } }
  m.jobs.foldl (fun c j =>
    let job : Job := { zone := j.zone, reason := j.reason, state := .copy, secure := j.secure, number := j.number
                       src := j.src, dst := j.dst, dstAnn := j.dstAnn, snapMwp := j.snapMwp, snapHot := j.snapHot }
    (c.setJob (bandAct j.dst) (some job)).setZone j.zone { c.zone j.zone with cleaning := true }) c

/-- A job of the checkpoint that no replayed record ends: its destination is released (R240, R241). -/
def Chip.endImageJob (c : Chip) (rs : List Rec) (j : JobImage) : Chip :=
  let ended : Bool := rs.any (fun r => match r with
    | .bclCommit _ _ _ _ _ d _ _ _ _ _ _ _ _ => d == j.dst
    | .bclRelease _ _ b => b == j.dst
    | _ => false)
  if ended then c
  else
    let r : Rec := .bclRelease (jobFlags j.reason j.secure true false false) j.number j.dst
    let c := (c.appendRecs [r]).applyRec r
    c.setZone j.zone { c.zone j.zone with cleaning := false }

/-- A band still RELEASING waits for its release, or where its key is gone for its overwrite (R241). -/
def Chip.awaitRelease (c : Chip) (e : Nat × Band) : Chip :=
  if e.2.state ≠ .releasing ∨ c.bcl.releases.any (fun r => r.band == e.1) then c
  else { c with bcl := { c.bcl with releases := c.bcl.releases ++ [⟨e.1, 0, e.2.salt.isNone, 0, 0, e.2.salt.isNone⟩] } }

/-- A zone after BOOT (R467): an active zone's host-view write pointer returns, and an open zone is Closed. -/
def Chip.closeZone (c : Chip) (wps : List (Nat × Nat)) (i : Nat) : Chip :=
  let z := c.zone i
  let wp := (wps.find? (fun e => e.1 == i)).map Prod.snd
  let closed := if z.state = 1 ∨ z.state = 2 then 3 else z.state
  let st := match wp with
    | some w => if z.kind = 1 ∧ closed = 0 ∧ 0 < w then 3 else if z.kind = 1 ∧ w = 65536 ∧ closed = 3 then 4 else closed
    | none => if closed = 3 ∧ !z.hasBand ∧ z.mwp = 0 then 0 else closed
  let ptr := match wp with
    | some w => some w
    | none => if z.kind = 1 ∧ st = 3 then some z.mwp else none
  c.setZone i { z with state := st, hostWp := ptr }

/-- Restored units whose LBAs all lie below MWP are dropped (R484). -/
def Chip.dropWritten (c : Chip) : Chip :=
  let below (u : Staged) : Bool := u.restored && u.nsid != 4 && (c.zone u.zone).kind != 3
    && u.data.all (fun e => decide (u.unit + e.1 < (c.zone u.zone).mwp))
  { c with nvq := { c.nvq with staging := c.nvq.staging.filter (fun u => !below u) } }

/-- The replayed operations take effect on the loaded map, and what BOOT ends is ended. -/
def Chip.replayOnMap (c : Chip) (m : MapImage) (wps : List (Nat × Nat)) : Chip :=
  let ops := c.jnl.replayed
  let c := ops.foldl Chip.applyOp c
  let c := m.jobs.foldl (fun c j => c.endImageJob ops.flatten j) c
  let c := { c with bcl := { c.bcl with jobA := none, jobB := none }, jnl := { c.jnl with replayed := [] } }
  let c := c.loc.bands.foldl Chip.awaitRelease c
  let is := (c.loc.zones.map Prod.fst ++ wps.map Prod.fst).foldl insertNat []
  (is.foldl (fun c i => c.closeZone wps i) c).dropWritten.expireValues

/-- RDY rises for every controller the host has enabled (R41). -/
def Chip.riseRdy (c : Chip) : Chip :=
  let up (y : Cntl) : Cntl := { y with rdy := y.en && !y.cfs }
  (c.mapCntl 0 up).mapCntl 1 up

/-- CAL_PLAN names an item for an actuator in service (R551). -/
def Chip.calDue (c : Chip) (a : Act) : Bool :=
  !c.outOfService a && (List.range 7).any (fun n => n != 5 && c.bit (calPlanReg a) n)

/-- A zone whose band is SUSPECT is queued for cleaning (R241). -/
def Chip.queueSuspects (c : Chip) : Chip :=
  (c.loc.bands.filter (fun e => e.2.state == .suspect)).foldl (fun (c : Chip) e => c.leaveSuspect e.1) c

/-- BOOT ends (R34, R551). A calibration entered from BOOT holds the page table (R195). -/
def Chip.leaveBoot (c : Chip) (rebuild : Bool) : Chip :=
  if rebuild then c.enterRebuild
  else
    let a := c.calDue .A
    let b := c.calDue .B
    let d := c.enterService
    let d := if a then d.startCal .A else d
    let d := if b then d.startCal .B else d
    let held : Loc := { d.loc with pages := c.loc.pages, ptPresent := c.loc.ptPresent }
    (if a || b then { d with loc := held } else d).queueSuspects

/-- Step 14: the map is loaded, the replayed records take effect, and the descriptors are checked (R203). A
failed record, a failed checkpoint, a mismatch or FORCE leads to REBUILD (R51). -/
def mapLoad (c : Chip) (m : MapImage) : Chip :=
  if !c.atStep 13 then c
  else
    let wps := c.loc.zones.filterMap (fun e => e.2.hostWp.map (fun w => (e.1, w)))
    let c := ((c.loadImage m).replayOnMap m wps).showPart
    let failed : Bool := c.fld R.JNL_REPLAY 30 28 == 1
    let c := if !m.valid && !failed then c.setFld R.JNL_REPLAY 30 28 2 else c
    let bad := if m.valid && !failed then c.mismatch else none
    let c := match bad with
      | some e => (c.raise 0x18 3).event 0x3001 [e.1, e.2]
      | none => c
    let mismatch := bad.isSome
    let rebuild : Bool := failed || !m.valid || mismatch || c.bit R.SYS_REBUILD_POLICY 8
    let c := (c.leaveBoot rebuild).riseRdy.step 14
    if rebuild then c else c.restoreValues

/-- MAP_LOAD (R203). -/
def execMapLoad (m : MapImage) (s : State) : Host.Outcome State Fault Refusal := s.done (mapLoad s.chip m)

end Sys2Proof.Machine
end

