-- ==== Sys2Proof/Machine/Tick.lean ====
section
/-! DEFINITION. Device time (R107 to R109), and the software interrupts (R104). -/

namespace Sys2Proof.Machine

open Sys2Proof

/-- An armed comparison of the DTM page fires while CMP_EN is 1 and DTIME has reached the compare
value; it is then disarmed (R109). -/
def compareMatch (c : Chip) : Chip :=
  if c.dtm.armed ∧ c.bit (pCtrl 0x08) 0 ∧ c.dtm.compare.toNat ≤ c.dtm.dtime.toNat then
    ({ c with dtm := { c.dtm with armed := false } }).raise 0x08 0
  else c

/-- The comparison is armed (R109). -/
def Chip.armCompare (c : Chip) : Chip := compareMatch { c with dtm := { c.dtm with armed := true } }

/-- DTIME_COMPARE_MATCH (R109). -/
def execDtimeCompareMatch (s : State) : Host.Outcome State Fault Refusal :=
  s.next (if s.chip.dtm.running then compareMatch s.chip else s.chip)

/-- A read of DTM_DTIME_LO copies DTIME[63:32] into the reading master's latch (R108). -/
def dtimeLoRead (c : Chip) (m : Master) : Chip :=
  if !c.alive then c
  else
    let hi : Word := (c.dtm.dtime >>> 32).setWidth 32
    { c with dtm := { c.dtm with latches := SMap.put (fun _ => (0 : Word)) c.dtm.latches m.toNat hi } }

/-- A write to DTM_CMP_HI forms a compare value from it and the held low half, and arms the
comparison (R109). -/
def dtmCmpHiWrite (c : Chip) (v : Word) : Chip :=
  if !c.alive then c
  else
    let c := c.setReg R.DTM_CMP_HI v
    let cmp : BitVec 64 := v ++ c.reg R.DTM_CMP_LO
    ({ c with dtm := { c.dtm with compare := cmp } }).armCompare

/-- DTM_CMP_HI_WRITE (R109). -/
def execDtmCmpHiWrite (value : Word) (s : State) : Host.Outcome State Fault Refusal :=
  s.next (dtmCmpHiWrite s.chip value)

/-- A write to INT_SWI_SET: bit n written 1 sets INT_SWI bit n (R104); bits 31:16 are reserved (R94). -/
def intSwiSet (c : Chip) (v : Word) : Chip :=
  if !c.alive then c
  else
    let c := if v &&& 0xFFFF0000#32 = 0 then c else c.ignored 0x51 2 0x08C
    c.setReg R.INT_SWI (c.reg R.INT_SWI ||| (v &&& 0x0000FFFF#32))

/-- INT_SWI_SET (R106). -/
def execIntSwiSet (value : Word) (s : State) : Host.Outcome State Fault Refusal :=
  s.next (intSwiSet s.chip value)

end Sys2Proof.Machine
end

