-- ==== Sys2Proof/Machine/RegRead.lean ====
section
/-! DEFINITION. What a read of a register returns (R85 to R88): the word the register holds, or the view of
the state its map states. -/

namespace Sys2Proof.Machine

open Sys2Proof

/-! ### Views by page -/

def natW (n : Nat) : Word := BitVec.ofNat 32 n

/-- The actuator whose block a channel or engine page belongs to. -/
def pageAct (page : Nat) : Act := if page < 0x28 then .A else .B

/-- A signed value as a register of `w` bits shows it. -/
def intW (w : Nat) (v : Int) : Word := natW (unsigned w v)

/-- SYS (R74). -/
def Chip.viewSys (c : Chip) (k : Nat) : Word :=
  if k = R.SYS_MODE then
    natW (c.sys.mode.code + b2n (c.calibrating .A) * 2 ^ 4 + b2n (c.calibrating .B) * 2 ^ 5
      + c.sys.restSub * 2 ^ 6 + b2n c.sys.trans.isSome * 2 ^ 8)
  else if k = R.SYS_MODE_REQ then withField (c.reg k) 16 16 (b2n c.sys.reqBusy)
  else c.reg k

/-- CLK (R595). -/
def Chip.viewClk (c : Chip) (k : Nat) : Word :=
  if k = R.CLK_DOM_STATE then
    let d := c.fld R.CLK_DOM_SEL 7 0
    let p := Config.domainPage d
    natW (b2n (c.pwr.gated.contains p) + Config.domainClock d % 8 * 2 ^ 8 + p % 256 * 2 ^ 16)
  else if k = R.CLK_GATED_NOW then natW c.gatedNow
  else c.reg k

/-- PWR (R596). -/
def Chip.viewPwr (c : Chip) (k : Nat) : Word :=
  if k = R.PWR_MON then natW (c.pwr.mv.getD (c.fld R.PWR_MON_SEL 3 0) 0) else c.reg k

/-- FUSED of LCS_STATE (R78). -/
def Lcs.fusedCode (l : Lcs) : Nat :=
  match l.fused with
  | .blank => 0
  | .manufacture => 1
  | .deployed => 2
  | .retired => 3

/-- LCS (R78). -/
def Chip.viewLcs (c : Chip) (k : Nat) : Word :=
  let l := c.lcs
  if k = R.LCS_STATE then
    let prog := (match l.job with | some (.program _ _) => true | _ => false) || !c.bst.fusing.isEmpty
    natW (l.fusedCode + c.effective * 2 ^ 8 + b2n prog * 2 ^ 11)
  else if k = R.LCS_TIER then natW (b2n l.tierS)
  else if k = R.LCS_NONCE_LO then l.nonce.setWidth 32
  else if k = R.LCS_NONCE_HI then (l.nonce >>> 32).setWidth 32
  else if k = R.LCS_TOKEN_STATUS then
    natW (b2n c.lcsBusy + l.result * 2 + l.attempts * 2 ^ 8)
  else if k = R.LCS_SERIAL_LO then c.fuses.serial.setWidth 32
  else if k = R.LCS_SERIAL_HI then (c.fuses.serial >>> 32).setWidth 32
  else c.reg k

/-- EVR (R537). -/
def Chip.viewEvr (c : Chip) (k : Nat) : Word :=
  let v := c.evr
  if k = R.EVR_STATUS then
    natW (b2n (c.bit R.EVR_FREEZE 0) + b2n v.degraded * 2 + v.queue.length * 2 ^ 8)
  else if k = R.EVR_USED then natW (v.gused + v.fused * 2 ^ 16)
  else if k = R.EVR_CNT_LO then natW (v.nInfo + v.nNotice * 2 ^ 16)
  else if k = R.EVR_CNT_HI then natW (v.nError + v.nFatal * 2 ^ 16)
  else c.reg k

/-- JNL (R486). -/
def Chip.viewJnl (c : Chip) (k : Nat) : Word :=
  let j := c.jnl
  if k = R.JNL_STATUS then
    natW (b2n j.ckpt.isSome + b2n c.atHwm * 2 + b2n (j.openOp.isSome || !j.waiting.isEmpty) * 2 ^ 2
      + b2n j.failed * 2 ^ 3 + j.used * 2 ^ 16)
  else if k = R.JNL_HEAD then natW (j.head + j.headSeq % 65536 * 2 ^ 16)
  else if k = R.JNL_TAIL then natW (j.tail + j.tailSeq % 65536 * 2 ^ 16)
  else if k = R.JNL_PORT_CTRL then
    withField (c.reg k) 8 8 (b2n (j.waiting.any (fun o => o.src == .firmware)))
  else c.reg k

/-- The item a calibration has at hand. -/
def CalRun.atHand (r : CalRun) : Nat := (r.todo.head?.map CalTarget.item).getD r.item

/-- CAL (R555). -/
def Chip.viewCal (c : Chip) (k : Nat) : Word :=
  let x := c.cal
  if k = R.CAL_STATUS then
    let item (r : Option CalRun) : Nat := (r.map CalRun.atHand).getD 0
    natW (b2n x.a.isSome + b2n x.b.isSome * 2 + b2n (!x.dev.isEmpty) * 2 ^ 2 + item x.a * 2 ^ 8
      + item x.b * 2 ^ 12)
  else c.reg k

/-- BST (R576): the entry BST_REPAIR_SEL names. -/
def Chip.viewBst (c : Chip) (k : Nat) : Word :=
  if k = R.BST_REPAIR_DATA then
    match c.bst.entry c.repairSel with
    | some e => natW (e.position + b2n (c.fuses.repairs.contains e) * 2 ^ 30 + 2 ^ 31)
    | none => 0
  else c.reg k

/-- DTM, as a master reads it (R108). -/
def Chip.viewDtm (c : Chip) (m : Master) (k : Nat) : Word :=
  if k = R.DTM_DTIME_LO then c.dtm.dtime.setWidth 32
  else if k = R.DTM_DTIME_HI then SMap.get (fun _ => 0) c.dtm.latches m.toNat
  else c.reg k

/-- NVQ_FETCH (R147): nothing is fetched where no controller may fetch. Of several causes HOLDUP stands
first, then RDY 0, firmware activation, shutdown and the limit. DESIGN CHOICE: the spec gives no order. -/
def Chip.fetchState (c : Chip) : Nat :=
  let both (p : Cntl → Bool) : Bool := p c.nvq.c1 && (!c.dual || p c.nvq.c2)
  if c.mayFetch 0 || (c.dual && c.mayFetch 1) then 0
  else if c.inHoldup then 5
  else if both (fun y => !y.rdy) then 11
  else if c.nvq.activating.isSome then 3
  else if both (fun y => !y.rdy || y.shst != 0) then 9
  else 7

/-- NVQ (R147 to R149). -/
def Chip.viewNvq (c : Chip) (k : Nat) : Word :=
  let n := c.nvq
  if k = R.NVQ_INFLIGHT then natW n.inflight.length
  else if k = R.NVQ_DIRTY then natW c.dirtyUnits
  else if k = R.NVQ_FETCH then natW c.fetchState
  else if k = R.NVQ_SQ_STATE then
    let q := c.fld R.NVQ_SQ_SEL 7 0
    let i := c.fld R.NVQ_SQ_SEL 8 8
    match n.sqs.find? (fun s => s.cntl == i && s.qid == q) with
    | some s =>
      let f := (n.inflight.filter (fun x => x.cntl == i && x.qid == q)).length
      natW (f + s.binding * 2 ^ 29 + 2 ^ 31)
    | none => 0
  else c.reg k

/-- SEG (R177). -/
def Chip.viewSeg (c : Chip) (k : Nat) : Word :=
  if k = R.SEG_KEYS then natW (c.seg.index.filter (fun v => !v.expired)).length
  else if k = R.SEG_KEY_LIMIT then natW (if c.mem.size = 0 then 0 else c.keyLimit)
  else if k = R.SEG_OPEN then natW c.seg.openCount
  else if k = R.SEG_EXPIRED then natW (c.seg.index.filter (fun v => v.expired)).length
  else c.reg k

/-- A band table entry as R192 lays it out. -/
def Band.entry (b : Band) : Nat :=
  b.state.code + b.head * 2 ^ 3 + b.ann * 2 ^ 8 + b.rewrites % 2 ^ 24 * 2 ^ 12 + b.wfaults % 4 * 2 ^ 36
    + b.startTrack % 2 ^ 20 * 2 ^ 40

/-- LOC (R218). -/
def Chip.viewLoc (c : Chip) (k : Nat) : Word :=
  let l := c.loc
  let entry := ((c.band c.selBand).map Band.entry).getD 0
  let free (a : Act) : Word := natW (l.bands.filter (fun e => bandAct e.1 == a && e.2.state == .free)).length
  let devz (f : Format) : Word := natW (f.devZones + f.convHost * 2 ^ 24)
  let reb (r : Rebuild) : Word := natW (r.probed.length + b2n r.mcDone * 2 ^ 30 + b2n r.done * 2 ^ 31)
  if k = R.LOC_MAP then
    natW (b2n l.ptPresent + b2n (l.ptBuilding || c.sys.mode == .rebuild) * 2 + c.fld k 2 2 * 4)
  else if k = R.LOC_HOT_COUNT then natW l.hot.length
  else if k = R.LOC_ZONES_A then natW (l.zonesOf .A)
  else if k = R.LOC_ZONES_B then natW (l.zonesOf .B)
  else if k = R.LOC_SEQ_A then natW (l.seq .A)
  else if k = R.LOC_SEQ_B then natW (l.seq .B)
  else if k = R.LOC_FREE_A then free .A
  else if k = R.LOC_FREE_B then free .B
  else if k = R.LOC_BAND_LO then natW entry
  else if k = R.LOC_BAND_HI then natW (entry / 2 ^ 32)
  else if k = R.LOC_REBUILD_A then reb l.rebuildA
  else if k = R.LOC_REBUILD_B then reb l.rebuildB
  else if k = R.LOC_DEVZ_A then devz l.formatA
  else if k = R.LOC_DEVZ_B then devz l.formatB
  else c.reg k

/-- The codes of BCL_STATE_x.STATE (R246). -/
def JobState.code : JobState → Nat
  | .idle => 0
  | .alloc => 1
  | .copy => 2
  | .verify => 3
  | .commit => 4
  | .release => 5
  | .overwrite => 6
  | .wait => 7

/-- BCL (R246). A job that REST holds shows WAIT (R588). -/
def Chip.viewBcl (c : Chip) (k : Nat) : Word :=
  let st (j : Option Job) : Word :=
    match j with
    | none => 0
    | some j =>
      let s := if c.sys.mode = .rest || c.lostNow (zoneAct j.zone) then 7 else j.state.code
      natW (j.zone + j.reason * 2 ^ 22 + b2n j.secure * 2 ^ 26 + j.restarts % 4 * 2 ^ 27 + s * 2 ^ 29)
  if k = R.BCL_STATE_A then st c.bcl.jobA
  else if k = R.BCL_STATE_B then st c.bcl.jobB
  else if k = R.BCL_QUEUE then natW (c.bcl.queueA.length + c.bcl.queueB.length * 2 ^ 8)
  else if k = R.BCL_STALE_A then natW (c.staleCount .A)
  else if k = R.BCL_STALE_B then natW (c.staleCount .B)
  else c.reg k

/-- SEC (R252). -/
def Chip.viewSec (c : Chip) (k : Nat) : Word :=
  if k = R.SEC_STATUS then
    natW (c.fld k 0 0 + b2n (c.jnl.epoch == 10) * 2
      + min (c.sec.finalCovered + c.sec.finalOpen) 65535 * 2 ^ 16)
  else c.reg k

/-- The key of the tap that TAP_SEL names (R280). -/
def Chip.tapSel (c : Chip) (a : Act) : Nat :=
  let s := c.reg (R.TAP_SEL a)
  tapKey (field s 19 16) (field s 14 12) (field s 9 8) + field s 6 0

/-- The head and Annulus that a SEL register names; none for heads 10 to 15. -/
def Chip.haSel (c : Chip) (k : Nat) : Option Nat :=
  if c.fld k 3 0 < 10 then some (haKey (c.fld k 3 0) (c.fld k 10 8)) else none

/-- What a KIND of a page is selected by (R542): INDEX, ANN and PATH. -/
def corrUses (page kind : Nat) : Bool × Bool × Bool :=
  match (if page = 0x28 ∨ page = 0x29 ∨ page = 0x2B ∨ page = 0x2C then page - 8 else page), kind with
  | 0x20, 1 => (true, true, true)
  | 0x20, _ => (true, false, false)
  | 0x21, _ => (false, true, false)
  | 0x23, 0 => (false, true, false)
  | 0x23, _ => (true, true, false)
  | 0x3A, _ => (true, false, false)
  | _, _ => (false, false, false)

/-- The correction that a page's CORR_SEL names (R541). The register stands at 0x600 of the page. A selector
that the KIND does not use is not looked at (DESIGN CHOICE). -/
def Chip.corrSel (c : Chip) (page : Nat) : Nat :=
  let s := c.reg (page * 4096 + 0x600)
  let u := corrUses page (field s 18 16)
  corrKey page (field s 18 16) (if u.1 then field s 3 0 else 0) (if u.2.1 then field s 10 8 else 0)
    (if u.2.2 then field s 12 12 else 0)

/-- CHx_RD (R276, R287). -/
def Chip.viewRd (c : Chip) (a : Act) (k : Nat) : Word :=
  let x := c.chan a
  if k = R.RD_QUEUE a then
    let active := match x.run with | some (.rd _) => true | _ => false
    natW ((x.waiting false).length + b2n active * 2 ^ 8)
  else if k = R.SPEC_PENDING a then natW x.pendingSlots.length
  else if k = R.TAP_DATA a then natW (SMap.get tapReset x.taps (c.tapSel a))
  else if k = R.CLASS_DATA a then x.cls (c.fld (R.CLASS_SEL a) 3 0)
  else if k = R.FMT_DATA a then
    match c.haSel (R.FMT_SEL a) with
    | some n => SMap.get (fun _ => 0) x.fmt n
    | none => 0
  else c.reg k

/-- CHx_WR (R335). -/
def Chip.viewWr (c : Chip) (a : Act) (k : Nat) : Word :=
  let x := c.chan a
  if k = R.WR_QUEUE a then
    let active := match x.run with | some (.wr _) => true | _ => false
    natW ((x.waiting true).length + b2n active * 2 ^ 8)
  else if k = R.PC_DATA a then
    SMap.get pcReset x.pc (haKey (c.fld (R.PC_SEL a) 3 0) (c.fld (R.PC_SEL a) 10 8))
  else c.reg k

/-- CHx_SV (R290). -/
def Chip.viewSv (c : Chip) (a : Act) (k : Nat) : Word :=
  if k = R.SV_TRACK a then withField (c.reg k) 31 31 (b2n (c.chan a).search) else c.reg k

/-- CHx_AS (R338). -/
def Chip.viewAs (c : Chip) (a : Act) (k : Nat) : Word :=
  let x := c.chan a
  let head := c.fld (R.AS_SEL a) 3 0
  if k = R.AS_ONTIME a then natW (c.onTime (10 * a.toNat + head))
  else if k = R.AS_FAULT_CNT a then natW (SMap.get (fun _ => 0) x.faults (head % 10))
  else if k = R.AS_POWER a then
    natW (SMap.get (fun _ => 0) x.power (haKey head (c.fld (R.AS_SEL a) 10 8)))
  else c.reg k

/-- The codes of CLE_STATE.STATE (R370). -/
def EngState.code : EngState → Nat
  | .off => 0
  | .run => 1
  | .coast => 2
  | .retract => 3
  | .lost => 4

/-- CLE (R372, R373). -/
def Chip.viewCle (c : Chip) (a : Act) (k : Nat) : Word :=
  let e := c.cle a
  let x := c.chan a
  if k = R.CLE_STATE a then
    natW (e.state.code + b2n x.onTrack * 2 ^ 4 + b2n x.permit * 2 ^ 5 + b2n e.armed * 2 ^ 6
      + e.coast % 16 * 2 ^ 12 + min (max e.pesRun e.wedgeRun) 15 * 2 ^ 16 + e.overruns % 16 * 2 ^ 20
      + e.cause * 2 ^ 24)
  else if k = R.CLE_REF_LEVEL a then natW (e.fifo.length + e.target * 2 ^ 12)
  else if k = R.CLE_COEF_PEND a then natW e.pend.length
  else if k = R.CLE_RC_DATA a then
    let s := c.reg (R.CLE_RC_SEL a)
    intW 16 (e.bin (field s 19 16 * 1024 + field s 9 0))
  else c.reg k

/-- CHD (R395). -/
def Chip.viewChd (c : Chip) (k : Nat) : Word :=
  if k = R.CHD_X_A then intW 32 c.cleA.x
  else if k = R.CHD_X_B then intW 32 c.cleB.x
  else if k = R.CHD_RETIRE then withField (c.reg k) 9 8 (b2n c.chd.retiredA + b2n c.chd.retiredB * 2)
  else if k = R.CHD_UNRETIRE then withField (c.reg k) 9 8 (b2n c.chd.unretA + b2n c.chd.unretB * 2)
  else c.reg k

/-- OVL and MLK: BUSY and the pins (R410, R424). -/
def Chip.viewLinks (c : Chip) (k : Nat) : Word :=
  if k = R.OVL_TX_CTRL then withField (c.reg k) 1 1 (b2n c.ovlBusy)
  else if k = R.MLK_TX_CTRL then withField (c.reg k) 1 1 (b2n c.links.mlk.isSome)
  else if k = R.MLK_PINS then
    natW (b2n (!c.links.pwrfailLow) + b2n (!c.links.irqLow) * 2 + b2n (pinsOf c).retractN * 4)
  else c.reg k

/-- MEC and SEE: the tracking tables (R451, R453). -/
def Chip.viewEcc (c : Chip) (k : Nat) : Word :=
  if k = R.MEC_TRACK then withField (c.reg k) 6 0 c.mem.mecTrack.length
  else if k = R.SEE_TRACK then withField (c.reg k) 4 0 c.mem.seeTrack.length
  else c.reg k

/-- NFC (R488). RESTORING is 1 only while a restore runs, which is one command here. -/
def Chip.viewNfc (c : Chip) (k : Nat) : Word :=
  if k = R.NFC_STATUS then
    let ready := c.dies != 0 && decide (10 ≤ c.bootStep)
    natW (b2n ready + b2n c.nfc.saving * 2
      + b2n c.nand.validSet.isSome * 2 ^ 3
      + b2n (decide (c.fld R.NFC_ERASED 15 0 < c.fld R.NVQ_DIRTY_LIMIT 8 0 + 32)) * 2 ^ 4
      + b2n c.nfc.bbFull * 2 ^ 5 + b2n c.nfc.parked * 2 ^ 6)
  else if k = R.NFC_EFF_LIMIT then natW c.effLimit
  else if k = R.NFC_SET then natW ((c.nand.validSet.map SaveSet.set).getD 0)
  else if k = R.NFC_BAD_BLOCKS then natW c.nand.badBlocks.length
  else c.reg k

/-- OSP (R61). -/
def Chip.viewOsp (c : Chip) (k : Nat) : Word :=
  if k = R.OSP_CMD then withField (c.reg k) 30 30 (b2n c.osp.isSome) else c.reg k

/-- CPU and INT (R106, R514). -/
def Chip.viewCpu (c : Chip) (k : Nat) : Word :=
  if k = R.CPU_L2_CTRL then withField (c.reg k) 2 2 (b2n c.l2Dirty)
  else if k = R.INT_LINE_LO then (pinsOf c).lines.setWidth 32
  else if k = R.INT_LINE_HI then ((pinsOf c).lines >>> 32).setWidth 32
  else c.reg k

/-- DBG (R623). -/
def Chip.viewDbg (c : Chip) (k : Nat) : Word :=
  let d := c.dbg
  if k = R.DBG_JTAG then withField (c.reg k) 0 0 (b2n c.jtagOpen)
  else if k = R.DBG_UART_RX then
    match d.uartRx with
    | b :: _ => natW (b.toNat + 2 ^ 31)
    | [] => 0
  else if k = R.DBG_UART_STATUS then natW (d.uartTx.length + d.uartRx.length * 2 ^ 8 + c.fld k 16 16 * 2 ^ 16)
  else c.reg k

/-- STATUS of a page (R91, R100). -/
def Chip.viewStatus (c : Chip) (page : Nat) : Word :=
  let testing : Bool := match c.bst.run with
    | some r => testPage r.test == page
    | none => false
  natW (b2n testing * 2 ^ 31 + b2n (c.overrides.any (fun k => k / 4096 == page)) * 2 ^ 30)

/-- POWER of a page (R584, R586): GATED while its clocks are gated, or stopped by its policy in REST; RETAINED
while the policy in REST keeps it in retention or off. -/
def Chip.viewPower (c : Chip) (page : Nat) : Word :=
  let k := pPower page
  let pol := if c.sys.mode = .rest && !c.blockBusy page then c.fld k 5 4 else 0
  let gated := c.pwr.gated.contains page || pol != 0
  withField (withField (c.reg k) 31 31 (b2n gated)) 30 30 (b2n (decide (2 ≤ pol)))

/-- The Tier M part has no Segment Store: its page reads 0 beyond ID and VERSION (R150). -/
def Chip.segDead (c : Chip) (k : Nat) : Bool := k / 4096 == 0x12 && !c.lcs.tierS && decide (4 < k % 4096)

/-- What a read of a register by a master returns (R85 to R88). -/
def Chip.regRead (c : Chip) (m : Master) (k : Nat) : Word :=
  let page := k / 4096
  let off := k % 4096
  if (regDesc k).isNone || c.segDead k then 0
  else if off = 0x00C then c.viewStatus page
  else if off = 0x01C then c.viewPower page
  else if off < 0x80 then c.reg k
  else if off = 0x604 then c.corrAt (c.corrSel page)
  else match page with
    | 0x00 => c.viewSys k
    | 0x01 => c.viewClk k
    | 0x02 => c.viewPwr k
    | 0x03 => c.viewLcs k
    | 0x04 => c.viewEvr k
    | 0x05 => c.viewJnl k
    | 0x06 => c.viewCal k
    | 0x07 => c.viewBst k
    | 0x08 => c.viewDtm m k
    | 0x11 => c.viewNvq k
    | 0x12 => c.viewSeg k
    | 0x18 => c.viewLoc k
    | 0x19 => c.viewBcl k
    | 0x1A => c.viewSec k
    | 0x20 => c.viewRd .A k
    | 0x28 => c.viewRd .B k
    | 0x21 => c.viewWr .A k
    | 0x29 => c.viewWr .B k
    | 0x22 => c.viewSv .A k
    | 0x2A => c.viewSv .B k
    | 0x23 => c.viewAs .A k
    | 0x2B => c.viewAs .B k
    | 0x24 => c.viewCle .A k
    | 0x2C => c.viewCle .B k
    | 0x30 => c.viewChd k
    | 0x38 => c.viewLinks k
    | 0x39 => c.viewLinks k
    | 0x41 => c.viewEcc k
    | 0x42 => c.viewEcc k
    | 0x48 => c.viewNfc k
    | 0x49 => c.viewOsp k
    | 0x50 => c.viewCpu k
    | 0x51 => c.viewCpu k
    | 0x58 => c.viewDbg k
    | _ => c.reg k

/-- A register read by a master, with the side effects some reads have (R88): DTM_DTIME_LO (R108),
CLE_RC_DATA (R356), DBG_UART_RX and DBG_UART_STATUS (R623). Any access wakes the page (R585). -/
def Chip.busRead (c : Chip) (m : Master) (k : Nat) : Word × Chip :=
  let v := c.regRead m k
  let c := c.wake (k / 4096)
  let c := if k = R.DTM_DTIME_LO then dtimeLoRead c m
    else if k = R.CLE_RC_DATA .A then cleRcData c .A none
    else if k = R.CLE_RC_DATA .B then cleRcData c .B none
    else if k = R.DBG_UART_RX then dbgUartRxRead c
    else if k = R.DBG_UART_STATUS then dbgUartStatusRead c
    else c
  (v, c)

/-- A register read that is a row of its own: the value goes back to the master. -/
def registerRead (c : Chip) (m : Master) (k : Nat) : Chip :=
  if !c.alive then c
  else
    let p := c.busRead m k
    p.2.emit (.read (leBytes 4 p.1.toNat))

/-- DBG_UART_RX_READ (R623): the oldest received byte is returned, with VALID. -/
def execDbgUartRxRead (s : State) : Host.Outcome State Fault Refusal :=
  s.next (registerRead s.chip (.core 0) R.DBG_UART_RX)

/-- DBG_UART_STATUS_READ (R623): the queue counts and RX_OVF are returned. -/
def execDbgUartStatusRead (s : State) : Host.Outcome State Fault Refusal :=
  s.next (registerRead s.chip (.core 0) R.DBG_UART_STATUS)

/-- CLE_RC_DATA_ACCESS (R356): a read returns the bin, a write stores it. -/
def execCleRcDataAccess (a : Act) (v : Option Word) (s : State) : Host.Outcome State Fault Refusal :=
  match v with
  | none => s.next (registerRead s.chip (.core 0) (R.CLE_RC_DATA a))
  | some v => s.next (cleRcData s.chip a (some v))

end Sys2Proof.Machine
end

