-- ==== Sys2Proof/Machine/Profile.lean ====
section
/-! DEFINITION. Profiles (R95, R96): what each basic control loads into its page's expert registers. -/

namespace Sys2Proof.Machine

open Sys2Proof

/-- The register that selects a page's profile, by its offset; none for pages without one. -/
def profileOff : Nat → Option Nat
  | 0x06 => some 0x080
  | 0x12 => some 0x090
  | 0x18 => some 0x084
  | 0x19 => some 0x080
  | 0x20 => some 0x080
  | 0x28 => some 0x080
  | 0x21 => some 0x080
  | 0x29 => some 0x080
  | 0x22 => some 0x080
  | 0x2A => some 0x080
  | 0x23 => some 0x080
  | 0x2B => some 0x080
  | 0x24 => some 0x080
  | 0x2C => some 0x080
  | 0x30 => some 0x080
  | 0x3A => some 0x080
  | 0x40 => some 0x088
  | 0x41 => some 0x0B0
  | 0x42 => some 0x0AC
  | _ => none

/-- The expert registers a page's profiles load, by offset, with the values of profiles 0 to 2. -/
def profileTable : Nat → List (Nat × List Nat)
  /- CAL_DRIFT (R556) -/
  | 0x06 => [(0x400, [0x0A1E1906, 0x050F0A02, 0x0064641E])]
  /- SEG_POP and SEG_VERIFY (R178) -/
  | 0x12 => [(0x400, [0x01180240, 0x000000FF, 0x02060110]), (0x404, [0x002802D0, 0x00140870, 0x002802D0])]
  /- LOC_WEAR, LOC_RET_AGE01, LOC_RET_AGE2 and LOC_RET_TEMP (R220) -/
  | 0x18 => [(0x400, [0x0110, 0x0404, 0x0110]), (0x404, [0x02D00018, 0x02D00018, 0x0168000C]),
      (0x408, [8760, 8760, 4380]), (0x40C, [0x1E0F05, 0x1E0F05, 0x140A04])]
  /- BCL_AUTO and BCL_PACE (R248) -/
  | 0x19 => [(0x400, [0x00320040, 0x001E0020, 0x00460100]), (0x404, [0x02000314, 0x0400030A, 0x00800328])]
  /- RD_ACQ, RD_TRK, RD_SYNC, RD_LDPC, RD_ADAPT and RD_AGC (R278) -/
  | 0x20 => [(0x404, [0x73040, 0x84060, 0x62030]), (0x408, [0xA5, 0xB6, 0x95]), (0x40C, [0x1802, 0x1001, 0x2002]),
      (0x410, [0x400C, 0x400C, 0x400C]), (0x414, [0x61, 0x71, 0x51]), (0x418, [0x0630, 0x0630, 0x0630])]
  /- WR_THRESH (R336) -/
  | 0x21 => [(0x400, [0x1100A, 0x12008, 0x1100A])]
  /- AS_TIMING and AS_MON (R339) -/
  | 0x23 => [(0x400, [0x10200A28, 0x00200A3C, 0x00201478]), (0x408, [0xC87850, 0xA07850, 0xB47355])]
  /- CHD_ISUM, CHD_ITRK and CHD_ARB (R396) -/
  | 0x30 => [(0x400, [160000, 120000, 160000]), (0x404, [32000, 24000, 32000]), (0x408, [0x248, 0x248, 0x844])]
  /- SNS_SHOCK and SNS_RV (R428) -/
  | 0x3A => [(0x400, [0x320190, 0x3200FA, 0x1E02BC]), (0x404, [0x1404012C, 0x140200C8, 0x0A0801F4])]
  /- DDR_MAINT (R450) -/
  | 0x40 => [(0x400, [0x1310, 0x0340, 0x1304])]
  /- MEC_SCRUB_CFG (R452) -/
  | 0x41 => [(0x400, [0x02580040, 0x0E100010, 0x007800FF])]
  /- SEE_SCRUB_CFG (R454) -/
  | 0x42 => [(0x400, [16, 4, 64])]
  | _ => []

/-- The page whose table serves a page: channel B has that of channel A. -/
def profilePage (page : Nat) : Nat :=
  if page = 0x28 ∨ page = 0x29 ∨ page = 0x2A ∨ page = 0x2B ∨ page = 0x2C then page - 8 else page

/-- Every value of a profile is put in force at once. -/
def Chip.loadTable (c : Chip) (page p : Nat) : Chip :=
  let c := c.clearOverrides page
  (profileTable (profilePage page)).foldl
    (fun (c : Chip) (e : Nat × List Nat) => c.setReg (page * 4096 + e.1) (natW (e.2.getD p 0))) c

/-- Precompensation of every head and Annulus (R336). -/
def pcProfile (p : Nat) : SMap Word :=
  if p = 2 then (List.range 80).map (fun k => (k, (0x00000104 : Word))) else []

/-- A profile is loaded at the boundary its chapter names (R95): for CLE the next sample boundary (R374), for
SV the next wedge (R291), for the others the function's next use, which here reads the registers as they
stand. -/
def Chip.loadProfile (c : Chip) (page p : Nat) : Chip :=
  let a := pageAct page
  match profilePage page with
  | 0x24 => c.setCle a { c.cle a with profile := some p }
  | 0x22 => c.mapChan a (fun x => { x with svProfile := some p })
  | 0x20 => (c.loadTable page p).mapChan a (fun x => { x with classes := [] })
  | 0x21 => (c.loadTable page p).mapChan a (fun x => { x with pc := pcProfile p })
  | 0x30 => (c.loadTable page p).retarget
  | _ => c.loadTable page p

/-- A write of PROFILE to a page's basic control: PROFILE 3 has no effect and sets FAULT bit 3. -/
def Chip.selectProfile (c : Chip) (page p : Nat) : Chip :=
  match profileOff page with
  | none => c
  | some off => if p = 3 then c.fault page 3 else (c.setFld (page * 4096 + off) 1 0 p).loadProfile page p

/-- PROFILE_LOAD: a write of PROFILE to the profile register at an address. At any other address nothing
happens (DESIGN CHOICE: the row is the write to a PROFILE register). -/
def profileLoad (c : Chip) (addr : Nat) (p : Nat) : Chip :=
  let page := (addr - 0x40000000) / 4096
  if !c.alive || addr < 0x40000000 || profileOff page != some (addr % 4096) || c.segDead (addr - 0x40000000) then c
  else (c.wake page).selectProfile page p

/-- PROFILE_LOAD (R95). -/
def execProfileLoad (addr : Nat) (profile : Fin 4) (s : State) : Host.Outcome State Fault Refusal :=
  s.next (profileLoad s.chip addr profile.val)

end Sys2Proof.Machine
end

