-- ==== Sys2Proof/Machine/RegRange.lean ====
section
/-! DEFINITION. The values a register does not take: each page's ranges, orders and locks, and the bit of FAULT
that a write of such a value sets. -/

namespace Sys2Proof.Machine

open Sys2Proof

/-- The FAULT bit of the first condition that holds. -/
def firstBad : List (Bool × Nat) → Option Nat
  | [] => none
  | (b, n) :: xs => if b then some n else firstBad xs

/-- A value lies outside `lo` to `hi`. -/
def outside (lo hi v : Nat) : Bool := decide (v < lo) || decide (hi < v)

/-- Three values do not rise. -/
def notRising (a b c : Nat) : Bool := !(decide (a < b) && decide (b < c))

/-- FMT_LOCK holds the format registers of a channel (R288, R339). -/
def Chip.formatLocked (c : Chip) (a : Act) : Bool := c.bit (R.FMT_LOCK a) 0 && !c.diagOpen

/-- SYS to DTM: CLK (R595), PWR (R596), JNL (R487) and CAL (R557). -/
def rejectCtl (page off : Nat) (v : Word) : Option Nat :=
  match page, off with
  | 0x01, 0x08C => firstBad [(decide (224 ≤ field v 7 0), 3)]
  | 0x02, 0x084 => firstBad [(decide (11 ≤ field v 3 0), 3)]
  | 0x05, 0x080 => firstBad
    [(outside 10 90 (field v 7 0), 3), (outside 20 95 (field v 15 8), 3), (decide (field v 15 8 ≤ field v 7 0), 4)]
  | 0x06, 0x084 => firstBad [(v.getLsbD 5, 3)]
  | 0x06, 0x088 => firstBad [(v.getLsbD 5, 3)]
  | 0x06, 0x08C => firstBad [(outside 10 2000 (field v 10 0), 3)]
  | 0x06, 0x400 => firstBad
    [(decide (50 < field v 29 24), 3), (outside 1 100 (field v 22 16), 3), (outside 1 100 (field v 14 8), 3),
      (outside 1 30 (field v 4 0), 3)]
  | 0x06, 0xF00 => firstBad [(decide (1760 < field v 10 0), 3)]
  | _, _ => none

/-- NVQ (R148), LOC (R219), BCL (R247). -/
def Chip.rejectFlow (c : Chip) (page off : Nat) (v : Word) : Option Nat :=
  let t1 := c.fld R.LOC_RET_AGE01 15 0
  let t2 := c.fld R.LOC_RET_AGE01 31 16
  let t3 := c.fld R.LOC_RET_AGE2 15 0
  match page, off with
  | 0x11, 0x088 => firstBad [(outside 64 256 (field v 8 0), 3)]
  | 0x18, 0x088 => firstBad [(decide (field v 7 0 < 4), 3)]
  | 0x18, 0x08C => firstBad [(outside 1 1024 (field v 10 0), 3)]
  | 0x18, 0x090 => firstBad [(outside 20 24 (field v 4 0), 3)]
  | 0x18, 0x098 => firstBad [(decide (64 < field v 6 0), 3), (decide (64 < field v 14 8), 3)]
  | 0x18, 0x404 => firstBad [(notRising (field v 15 0) (field v 31 16) t3, 4)]
  | 0x18, 0x408 => firstBad [(notRising t1 t2 (field v 15 0), 4)]
  | 0x18, 0x40C => firstBad [(notRising (field v 7 0) (field v 15 8) (field v 23 16), 4)]
  | 0x19, 0x400 => firstBad [(decide (100 < field v 22 16), 3)]
  | 0x19, 0x404 => firstBad [(outside 1 100 (field v 6 0), 3)]
  | _, _ => none

/-- CORR_SEL names a KIND and INDEX that the page holds (R542, R557). -/
def corrHeld (page : Nat) (v : Word) : Bool :=
  let i := field v 3 0
  match profilePage page, field v 18 16 with
  | 0x20, 0 => decide (i < 2)
  | 0x20, 1 => decide (i < 10)
  | 0x20, 2 => decide (i < 10)
  | 0x21, 0 => true
  | 0x23, 0 => true
  | 0x23, 1 => decide (i < 10)
  | 0x24, 0 => true
  | 0x3A, 0 => decide (i < 3)
  | _, _ => false

/-- The bits a correction has, beside VALID (R542). -/
def corrMask (page kind : Nat) : Word :=
  match profilePage page, kind with
  | 0x20, 0 => 0x03FF00FF
  | 0x20, 1 => 0x1F
  | 0x20, 2 => 0xFF
  | 0x21, _ => 0x1F0F
  | 0x23, 0 => 0x1F0F
  | 0x23, _ => 0xFFF
  | 0x24, _ => 0x03FF0FFF
  | 0x3A, _ => 0x03FF00FF
  | _, _ => 0

/-- The channel pages (R288, R289, R292, R337, R339, R340). -/
def Chip.rejectChannel (c : Chip) (page off : Nat) (v : Word) : Option Nat :=
  let a := pageAct page
  let locked := c.formatLocked a
  let head := decide (9 < field v 3 0)
  match profilePage page, off with
  | 0x20, 0x0C4 => firstBad [(decide (9 < field v 19 16), 3), (decide (67 < field v 6 0), 3)]
  | 0x20, 0x0D0 => firstBad
    [(locked, 6), (field v 12 0 != 0 && outside 1500 6000 (field v 12 0), 3), (field v 19 16 == 0, 3),
      (field v 30 20 == 0, 3)]
  | 0x20, 0x0D4 => firstBad [(locked, 6)]
  | 0x20, 0x404 => firstBad [(outside 32 256 (field v 8 0), 3)]
  | 0x20, 0x40C => firstBad [(outside 16 48 (field v 13 8), 3)]
  | 0x20, 0x410 => firstBad
    [(outside 1 12 (field v 3 0), 3), (outside 12 64 (field v 14 8), 3),
      (decide (field v 14 8 < field v 3 0), 4)]
  | 0x20, 0x414 => firstBad [(outside 2 12 (field v 7 4), 3)]
  | 0x20, 0x418 => firstBad [(outside 16 100 (field v 7 0), 3), (outside 1 32 (field v 15 8), 3)]
  | 0x21, 0x0C0 => firstBad [(head, 3)]
  | 0x21, 0x400 => firstBad [(outside 1 50 (field v 7 0), 3), (field v 15 8 == 0, 3)]
  | 0x22, 0x084 => firstBad [(field v 1 0 == 3, 3)]
  | 0x22, 0x098 => firstBad [(locked, 6), (field v 10 0 != 0 && outside 256 1024 (field v 10 0), 3)]
  | 0x22, 0x400 => firstBad
    [(outside 1 50 (field v 7 0), 3), (outside 1 50 (field v 15 8), 3), (outside 1 50 (field v 23 16), 3),
      (!(decide (field v 7 0 ≤ field v 15 8) && decide (field v 15 8 ≤ field v 23 16)), 4)]
  | 0x22, 0x404 => firstBad [(outside 20 200 (field v 7 0), 3), (outside 8 120 (field v 15 8), 3)]
  | 0x22, 0x408 => firstBad [(outside 10 90 (field v 7 0), 3), (outside 110 250 (field v 15 8), 3)]
  | 0x23, 0x084 => firstBad [(locked, 6)]
  | 0x23, 0x08C => firstBad [(head, 3)]
  | 0x23, 0x400 => firstBad
    [(field v 21 16 == 0, 3), (decide (200 < field v 7 0), 3), (decide (200 < field v 15 8), 3)]
  | 0x23, 0x404 => firstBad [(decide (c.fld (R.AS_MON a) 23 16 < field v 7 0), 3)]
  | 0x23, 0x408 => firstBad
    [(outside 50 99 (field v 7 0), 3), (outside 101 200 (field v 15 8), 3), (field v 23 16 == 0, 3)]
  | _, _ => none

/-- CLE (R375). -/
def rejectCle (off : Nat) (v : Word) : Option Nat :=
  match off with
  | 0x08C => firstBad [(decide (9 < field v 3 0), 3)]
  | 0x090 => firstBad [(decide (2047 < signed 16 (field v 15 0)), 3),
      (decide (signed 16 (field v 15 0) < -2048), 3)]
  | 0x0C8 => firstBad [(decide (9 < field v 19 16), 3)]
  | 0x400 => firstBad [(decide (4 < field v 2 0), 3), (decide (4 < field v 6 4), 3)]
  | 0x414 => firstBad [(field v 16 0 == 0, 3)]
  | 0x418 => firstBad [(field v 14 0 == 0, 3)]
  | 0x41C => firstBad
    [(outside 1 8 (field v 19 16), 3), (decide (field v 11 8 < 2), 3), (decide (8 < field v 3 0), 3)]
  | 0x420 => firstBad [(field v 1 0 == 3, 3), (field v 11 8 == 0, 3)]
  | _ => none

/-- CHD (R379, R397): a path's coefficients are held while its enable bit is 1. -/
def Chip.rejectChd (c : Chip) (off : Nat) (v : Word) : Option Nat :=
  match off with
  | 0x400 => firstBad
    [(outside 2 262142 (field v 17 0), 3), (decide (field v 17 0 < 2 * c.fld R.CHD_ITRK 16 0), 4)]
  | 0x404 => firstBad
    [(field v 16 0 == 0, 3), (decide (c.fld R.CHD_ISUM 17 0 < 2 * field v 16 0), 4)]
  | 0x408 => firstBad [(field v 3 0 == 0, 3), (field v 7 4 == 0, 3), (field v 11 8 == 0, 3)]
  | _ =>
    if 0x440 ≤ off ∧ off < 0x454 then firstBad [(c.pathOn .A, 5)]
    else if 0x460 ≤ off ∧ off < 0x474 then firstBad [(c.pathOn .B, 5)]
    else none

/-- Links, sensors, memories, NAND, cores and debug (R410, R428, R450, R452, R454, R489, R623). -/
def rejectRest (page off : Nat) (v : Word) : Option Nat :=
  match page, off with
  | 0x39, 0x084 => firstBad [(field v 5 4 == 0, 3)]
  | 0x3A, 0x400 => firstBad [(field v 10 0 == 0, 3), (field v 23 16 == 0, 3)]
  | 0x3A, 0x404 => firstBad [(field v 10 0 == 0, 3), (field v 19 16 == 0, 3), (field v 31 24 == 0, 3)]
  | 0x40, 0x400 => firstBad [(field v 7 0 == 0, 3)]
  | 0x41, 0x400 => firstBad [(field v 7 0 == 0, 3), (field v 31 16 == 0, 3)]
  | 0x42, 0x400 => firstBad [(outside 1 64 (field v 6 0), 3)]
  | 0x48, 0x08C => firstBad [(outside 96 1023 (field v 9 0), 3)]
  | 0x58, 0x080 => firstBad [(field v 5 4 == 3, 3)]
  | 0x58, 0x098 => firstBad [(field v 1 0 == 3, 3)]
  | _, _ => none

/-- The FAULT bit that a value of a register sets where the register does not take it; none where it does. -/
def Chip.rejects (c : Chip) (page off : Nat) (v : Word) : Option Nat :=
  if off = 0x600 then firstBad [(!corrHeld page v, 3)]
  else if page < 0x10 then rejectCtl page off v
  else if page < 0x20 then c.rejectFlow page off v
  else if profilePage page = 0x24 then rejectCle off v
  else if page < 0x30 then c.rejectChannel page off v
  else if page = 0x30 then c.rejectChd off v
  else rejectRest page off v

/-- A profile loads the register (R95), so that an expert write to it sets STATUS.OVERRIDE (R100). -/
def profileLoads (page off : Nat) : Bool :=
  (profileTable (profilePage page)).any (fun e => e.1 == off) ||
  match profilePage page with
  | 0x20 => off == 0x400
  | 0x21 => off == 0x404
  | 0x22 => off == 0x400 || off == 0x404 || off == 0x408
  | 0x24 => off == 0x414 || off == 0x418 || off == 0x41C || off == 0x420
  | _ => false

end Sys2Proof.Machine
end

