-- ==== Sys2Proof/Machine/RegWrite.lean ====
section
/-! DEFINITION. What a write to a register does (R85 to R94): the writable fields take the value, and a
register whose map states an action carries it out. Where a GO needs what no register holds (the NOR's and the
NAND's content, a read-back, a measurement), a write through the bus takes it free; the row of its own gives it. -/

namespace Sys2Proof.Machine

open Sys2Proof

/-! ### The fields a write changes -/

/-- Fields that take the value written. -/
def Acc.stores : Acc → Bool
  | .rw => true
  | .rwx => true
  | .rwd => true
  | _ => false

/-- The bits of a register that stand in the fields `p` picks and that a write may change now. -/
def Chip.pickMask (c : Chip) (page : Nat) (fs : List Field) (p : Acc → Bool) : Word :=
  c.writeMask page (fs.filter (fun f => p f.acc))

/-- What a register that holds `old` holds after a write of `v`, by the access of its fields alone (R9): stored
fields take it, W1C bits written 1 clear, and W1S and WO bits are not held. -/
def Chip.merged (c : Chip) (page : Nat) (fs : List Field) (old v : Word) : Word :=
  let m := c.pickMask page fs Acc.stores
  let w := c.pickMask page fs (· == .w1c)
  ((old &&& ~~~ m) ||| (v &&& m)) &&& ~~~ (v &&& w)

/-- An expert write took effect (R100). -/
def Chip.noteOverride (c : Chip) (k : Nat) (fs : List Field) : Chip :=
  if c.bit (pCtrl (k / 4096)) 31 && fs.any (fun f => f.acc == .rwx) && profileLoads (k / 4096) (k % 4096) then
    { c with overrides := insertNat c.overrides k }
  else c

/-- A write of `v` to the register at `k`, whose value is held by `put` and reads `old`. -/
def Chip.writeEntry (c : Chip) (k : Nat) (v old : Word) (put : Chip → Word → Chip) : Chip :=
  match regDesc k with
  | none => c
  | some d =>
    let c := (c.preWrite k v).1
    let page := k / 4096
    if c.pickMask page d.fields (fun a => a.stores || a == .w1c) = 0 then c
    else
      let new := c.merged page d.fields old v
      match c.rejects page (k % 4096) new with
      | some b => c.fault page b
      | none => (put c new).noteOverride k d.fields

/-- A write to a register that is held as a word. -/
def Chip.storeReg (c : Chip) (k : Nat) (v : Word) : Chip := c.writeEntry k v (c.reg k) (fun c w => c.setReg k w)

/-- A write to a register with a W1S bit that starts something: its fields are stored, and the bit, where the
write may set it, starts it and returns to 0. -/
def Chip.storeGo (c : Chip) (k : Nat) (v : Word) (b : Nat) (f : Chip → Chip) : Chip :=
  let d := c.storeReg k v
  if (c.preWrite k v).2.getLsbD b then f d else d

/-! ### Common registers (R91) -/

/-- INT_SET (R92): each cause written 1 is raised. -/
def Chip.intSet (c : Chip) (page : Nat) (v : Word) : Chip :=
  let p := c.preWrite (page * 4096 + 0x018) v
  (List.range 32).foldl (fun (c : Chip) i => if p.2.getLsbD i then c.raise page i else c) p.1

/-- COLLIDE.CLR (R91): COUNT and OFFSET return to 0. -/
def Chip.collideClear (c : Chip) (page : Nat) : Chip := c.setReg (pCollide page) 0

/-- One collision (R101). -/
def Chip.collided (c : Chip) (page off : Nat) : Chip :=
  let k := pCollide page
  (c.setFld k 15 0 (satSucc (c.fld k 15 0) 0xFFFF)).setFld k 27 16 off

/-- POWER (R584): a REST_POL that ALLOWED does not name is not taken, and sets RSVD_WR. -/
def Chip.writePower (c : Chip) (page : Nat) (v : Word) : Chip :=
  let k := pPower page
  let pol := field v 5 4
  if (c.reg k).getLsbD (20 + pol) then c.storeReg k v
  else (c.storeReg k (withField v 5 4 (c.fld k 5 4))).ignored page 2 0x01C

/-- CTRL: a rise of CMP_EN arms the comparison of DTM (R109). -/
def Chip.writeCtrl (c : Chip) (page : Nat) (v : Word) : Chip :=
  let k := pCtrl page
  let d := c.storeReg k v
  if page = 0x08 && !c.bit k 0 && d.bit k 0 then d.armCompare else d

/-- FAULT: bits written 1 clear, but for what the write itself raises (R94, R101). -/
def Chip.writeFault (c : Chip) (page : Nat) (v : Word) : Chip :=
  let k := pFault page
  ((c.setReg k (c.reg k &&& ~~~ (v &&& 0x0000FFFF))).preWrite k v).1

/-- A common register. -/
def Chip.writeCommon (c : Chip) (page off : Nat) (v : Word) : Chip :=
  match off with
  | 0x008 => c.writeCtrl page v
  | 0x018 => c.intSet page v
  | 0x01C => c.writePower page v
  | 0x020 => c.writeFault page v
  | 0x024 =>
    let p := c.preWrite (pCollide page) v
    if p.2.getLsbD 31 then p.1.collideClear page else p.1
  | _ => c.storeReg (page * 4096 + off) v

/-! ### Pages -/

/-- SYS (R75). WDOG_CTRL.EN, once 1, stays 1. -/
def Chip.writeSys (c : Chip) (k : Nat) (v : Word) : Chip :=
  if k = R.SYS_MODE_REQ then
    c.storeGo k v 8 (fun c => modeReq c (c.fld k 2 0) (c.fld k 7 6) (c.bit k 4) (c.bit k 5))
  else if k = R.SYS_SWRESET then sysSwreset c v
  else if k = R.SYS_WDOG_KICK then sysWdogKick c v
  else if k = R.SYS_BOOT_OK then sysBootOk c v
  else if k = R.SYS_WDOG_CTRL then
    let on := c.bit k 31
    let c := c.storeReg k (if on then v ||| bitW 31 else v)
    if !on && c.bit k 31 then { c with sys := { c.sys with wdogFrom := c.dtm.dtime } } else c
  else c.storeReg k v

/-- LCS (R78, R79). -/
def Chip.writeLcs (c : Chip) (k : Nat) (v : Word) : Chip :=
  let off := k % 4096
  if k = R.LCS_TOKEN_CTRL then
    let p := c.preWrite k v
    let c := if p.2.getLsbD 0 then tokenStart p.1 else p.1
    if p.2.getLsbD 1 then relock c else c
  else if k = R.LCS_ADVANCE then lcsAdvance (c.preWrite k v).1 (field v 1 0) (field v 31 16)
  else if 0x100 ≤ off ∧ off < 0x180 then
    { c with lcs := { c.lcs with token := SMap.put (fun _ => (0 : Word)) c.lcs.token ((off - 0x100) / 4) v } }
  else c.storeReg k v

/-- GO of NFC_RD_CTRL: the page's status and content are free. -/
def nfcReadStart (c : Chip) : Chip :=
  let p := c.freeBytes (2 ^ c.fld R.NFC_GEOM 11 8)
  let q := p.2.takeFree 18
  let n := q.1.toNat
  nfcFirmwareRead q.2
    { status := Fin.ofNat 4 n, set := n / 4 % 256, kind := n / 1024 % 256, index := 0, data := p.1 }

/-- GO of JNL_PORT_CTRL: how many read-backs fail is free. -/
def jnlPortStart (c : Chip) : Chip :=
  let p := c.takeFree 2
  jnlPortWrite p.2 false p.1.toNat

/-- SYS_ALERT.LASTWORD mirrors LW_VALID (R76). -/
def Chip.mirrorLast (c : Chip) : Chip := c.setBit R.SYS_ALERT 0 (c.bit R.EVR_LW_STATUS 0)

/-- EVR (R537) and JNL (R486). Clearing LW_VALID clears the last-word bit of SYS_ALERT (R76). -/
def Chip.writeRec (c : Chip) (k : Nat) (v : Word) : Chip :=
  if k = R.EVR_FREEZE then evrFreeze c v
  else if k = R.EVR_POST_CTRL then c.storeGo k v 31 evrPost
  else if k = R.EVR_INJECT then c.storeGo k v 0 evrInjectLogfail
  else if k = R.EVR_LW_STATUS then
    (c.storeReg k v).mirrorLast
  else if k = R.JNL_CTRL then c.storeGo k v 0 jnlCtrlCkpt
  else if k = R.JNL_INIT then c.storeGo k v 0 jnlInit
  else if k = R.JNL_PORT_CTRL then c.storeGo k v 0 jnlPortStart
  else c.storeReg k v

/-- BST_CTRL: the voltage and the clock deviation measured at GO, and the elements an ABORT finds complete, are
free. -/
def Chip.writeBstCtrl (c : Chip) (v : Word) : Chip :=
  let w := c.preWrite R.BST_CTRL v
  let c := if w.2.getLsbD 0 then
      let p := w.1.takeFree 22
      bstGo p.2 (p.2.reg R.BST_TEST) (p.1.toNat % 16384) (signed 8 (p.1.toNat / 16384))
    else w.1
  if w.2.getLsbD 1 then
    let p := c.takeFree 32
    bstAbort p.2 p.1.toNat []
  else c

/-- BST_FUSE_CTRL: each row's read-back is free. -/
def Chip.writeFuseCtrl (c : Chip) (v : Word) : Chip :=
  let w := c.preWrite R.BST_FUSE_CTRL v
  if w.2.getLsbD 0 then
    let p := w.1.takeFree 96
    bstFuseProgram p.2 ((List.range 96).map p.1.getLsbD)
  else w.1

/-- CLK, PWR, CAL, BST, DTM, NFC and OSP. -/
def Chip.writeCtl (c : Chip) (k : Nat) (v : Word) : Chip :=
  if k = R.CLK_FORCE_ON then clkForceOn c v
  else if k = R.CAL_DIRECT then c.storeGo k v 31 (fun c => calDirect c (c.fld k 3 0) (actOf (c.fld k 8 8)))
  else if k = R.BST_REPAIR_CMD then
    if (c.preWrite k v).2.getLsbD 31 then bstRepair (c.preWrite k v).1 (field v 11 0) (v.getLsbD 30) else c.storeReg k v
  else if k = R.BST_CTRL then c.writeBstCtrl v
  else if k = R.BST_FUSE_CTRL then c.writeFuseCtrl v
  else if k = R.DTM_CMP_HI then dtmCmpHiWrite c v
  else if k = R.OSP_CMD then c.storeGo k v 31 ospStart
  else if k = R.NFC_RD_CTRL then c.storeGo k v 0 nfcReadStart
  else c.storeReg k v

/-- LOC, BCL and SEC. -/
def Chip.writeFlow (c : Chip) (k : Nat) (v : Word) : Chip :=
  if k = R.LOC_PART_CTRL then c.storeGo k v 0 locPartApply
  else if k = R.LOC_BAND_CMD then locBandCmd (c.preWrite k v).1 (field v 1 0)
  else if k = R.LOC_PT_CTRL then locPtCtrl c v
  else if k = R.BCL_JOB_CTRL then c.storeGo k v 0 bclJobGo
  else if k = R.SEC_JOB_CTRL then c.storeGo k v 31 (fun c => secGo c (field v 1 0))
  else if k = R.SEC_ROOT_INIT then secRootInit c v
  else c.storeReg k v

/-- SEG: a TARGET of 8 to 15 is not taken; the other fields are (R177). -/
def Chip.writeSeg (c : Chip) (k : Nat) (v : Word) : Chip :=
  if k = 0x12400 ∧ 7 < field v 27 24 ∧ c.bit (pCtrl 0x12) 31 then
    (c.storeReg k (withField v 27 24 (c.fld k 27 24))).fault 0x12 3
  else c.storeReg k v

/-- The descriptor that eight registers hold. -/
def Chip.descWords (c : Chip) (key : Nat → Nat) : DescWords :=
  { w0 := c.reg (key 0), w1 := c.reg (key 1), w2 := c.reg (key 2), w3 := c.reg (key 3)
    w4 := c.reg (key 4), w5 := c.reg (key 5), w6 := c.reg (key 6), w7 := c.reg (key 7) }

/-- CHx_RD (R276, R287, R288). -/
def Chip.writeRd (c : Chip) (a : Act) (k : Nat) (v : Word) : Chip :=
  if k = R.RD_ABORT a then
    let p := c.preWrite k v
    if p.2.getLsbD 0 then (p.1.abortReads a).runChannel a else p.1
  else if k = R.RD_PUSH a then
    c.storeGo k v 0 (fun c => let w := c.descWords (R.RD_DESC a); rdDesc c a w.op w none)
  else if k = R.FMT_LOCK a then c.storeGo k v 0 (fun c => c.setBit k 0 true)
  else if k = R.TAP_DATA a then
    let i := c.tapSel a
    let old := natW (SMap.get tapReset (c.chan a).taps i)
    let top := c.fld (R.TAP_SEL a) 6 0
    c.writeEntry k v old (fun c w =>
      let t := if 64 ≤ top then unsigned 12 (signed 8 (w.toNat % 256)) else w.toNat
      c.mapChan a (fun x => { x with taps := SMap.put tapReset x.taps i t }))
  else if k = R.CLASS_DATA a then
    let i := c.fld (R.CLASS_SEL a) 3 0
    c.writeEntry k v ((c.chan a).cls i) (fun c w =>
      c.mapChan a (fun x => { x with classes := SMap.put classReset x.classes i w }))
  else if k = R.FMT_DATA a then
    match c.haSel (R.FMT_SEL a) with
    | some n => c.writeEntry k v (SMap.get (fun _ => 0) (c.chan a).fmt n) (fun c w =>
        c.mapChan a (fun x => { x with fmt := SMap.put (fun _ => (0 : Word)) x.fmt n w }))
    | none => (c.preWrite k v).1
  else c.storeReg k v

/-- CHx_WR and CHx_AS (R335, R338). -/
def Chip.writeWr (c : Chip) (a : Act) (k : Nat) (v : Word) : Chip :=
  if k = R.WR_ABORT a then
    let p := c.preWrite k v
    if p.2.getLsbD 0 then (p.1.endWrites a).runChannel a else p.1
  else if k = R.WR_PUSH a then
    c.storeGo k v 0 (fun c => let w := c.descWords (R.WR_DESC a); wrDesc c a w.op w)
  else if k = R.PC_DATA a then
    let i := haKey (c.fld (R.PC_SEL a) 3 0) (c.fld (R.PC_SEL a) 10 8)
    c.writeEntry k v (SMap.get pcReset (c.chan a).pc i) (fun c w =>
      c.mapChan a (fun x => { x with pc := SMap.put pcReset x.pc i w }))
  else if k = R.AS_POWER a then
    let i := haKey (c.fld (R.AS_SEL a) 3 0) (c.fld (R.AS_SEL a) 10 8)
    c.writeEntry k v (natW (SMap.get (fun _ => 0) (c.chan a).power i)) (fun c w =>
      c.mapChan a (fun x => { x with power := SMap.put (fun _ => 0) x.power i w.toNat }))
  else if k = R.AS_ONTIME_SET a then asOntimeSet c a v
  else c.storeReg k v

/-- A law register of an engine page, which takes writes through the pending queue (R357). -/
def lawOffset (off : Nat) : Bool :=
  off == 0x400 || off == 0x404 || off == 0x408 || off == 0x40C || off == 0x410 ||
    (decide (0x800 ≤ off) && decide (off < 0xC00))

/-- A write to a law register (R357, R358, R375): a queued write out of range takes no entry. -/
def Chip.writeLaw (c : Chip) (a : Act) (k : Nat) (v : Word) : Chip :=
  c.writeEntry k v (c.reg k) (fun c w => c.queueLaw a k w)

/-- CLE (R372). -/
def Chip.writeCle (c : Chip) (a : Act) (k : Nat) (v : Word) : Chip :=
  if k = R.CLE_CMD a then
    let p := c.preWrite k v
    let c := if p.2.getLsbD 0 then cleRun p.1 a else p.1
    let c := if p.2.getLsbD 1 then clePark c a else c
    if p.2.getLsbD 2 then c.setCle a { c.cle a with clrRc := true } else c
  else if k = R.CLE_REF_FF a then cleRefPush c a v
  else if k = R.CLE_RC_DATA a then cleRcData c a (some v)
  else if lawOffset (k % 4096) then c.writeLaw a k v
  else c.storeReg k v

/-- CHD (R395, R396). -/
def Chip.writeChd (c : Chip) (k : Nat) (v : Word) : Chip :=
  if k = R.CHD_FF_CTRL then chdFfEnable (c.preWrite k v).1 (v.getLsbD 0) (v.getLsbD 1)
  else if k = R.CHD_SEEK_A then chdSeekReq (c.preWrite k v).1 (some (v.getLsbD 0)) none
  else if k = R.CHD_SEEK_B then chdSeekReq (c.preWrite k v).1 none (some (v.getLsbD 0))
  else if k = R.CHD_ISUM ∨ k = R.CHD_ITRK then
    let d := c.storeReg k v
    if d.reg k = c.reg k then d else d.retarget
  else if k = R.CHD_RETIRE then chdRetire c v
  else if k = R.CHD_UNRETIRE then chdUnretire c v
  else c.storeReg k v

/-- OVL and MLK (R410, R424). -/
def Chip.writeLinks (c : Chip) (k : Nat) (v : Word) : Chip :=
  if k = R.OVL_TX_CTRL then
    let t := c.reg R.OVL_TX_CMD
    c.storeGo k v 0 (fun c => ovlFirmware c (field t 7 0) (actOf (field t 16 16)) (field t 15 12) (field t 11 8)
      (c.fld R.OVL_TX_DATA 15 0))
  else if k = R.MLK_CTRL then mlkRetract (c.preWrite k v).1 (v.getLsbD 0)
  else if k = R.MLK_TX_CTRL then
    let t := c.reg R.MLK_TX
    c.storeGo k v 0 (fun c => mlkGo c (t.getLsbD 31) (field t 20 16) (field t 15 0))
  else c.storeReg k v

/-- MEC and SEE (R451, R453): WRITE_RAW before READ_RAW where both are written. -/
def Chip.writeEcc (c : Chip) (e : Ecc) (k : Nat) (v : Word) : Chip :=
  if k = e.rCmd then
    let p := c.preWrite k v
    let c := if p.2.getLsbD 0 then p.1.rawAccess e true else p.1
    if p.2.getLsbD 1 then c.rawAccess e false else c
  else c.storeReg k v

/-- A write to CPU_L1_CTRL_n (R514): REFUSED, then INV, then the enables. -/
def Chip.writeL1 (c : Chip) (n : Nat) (k : Nat) (v : Word) : Chip :=
  let p := c.preWrite k v
  let c := if p.2.getLsbD 4 then p.1.setBit k 4 false else p.1
  let c := if p.2.getLsbD 3 then cpuL1Inv c n else c
  cpuL1Enable c n (p.2.getLsbD 0) (p.2.getLsbD 1)

/-- A write to CPU_CM_CMD of a set (R504, R506, R515). -/
def Chip.writeCm (c : Chip) (n : Nat) (k : Nat) (v : Word) : Chip :=
  let go := v.getLsbD 0
  if field v 5 4 = 3 then ((c.preWrite k v).1).fault 0x50 3
  else if go && (c.cpu.cm.find? n).isSome then ((c.preWrite k v).1).fault 0x50 5
  else
    let c := c.storeReg k v
    if go then cmGo c n (field v 3 2) (field v 5 4) else c

/-- CPU (R514). Clearing VALID of a core's abort clears OVF with it. -/
def Chip.writeCpu (c : Chip) (k : Nat) (v : Word) : Chip :=
  let off := k % 4096
  if k = R.CPU_RELEASE then cpuRelease c v
  else if k = R.CPU_L2_CTRL then cpuL2Ctrl c v
  else if k = R.CPU_L2_CARVE then cpuL2Carve c v
  else if k = R.CPU_L2_LOCK then cpuL2Lock c v
  else if 0x0E0 ≤ off ∧ off < 0x0F8 then c.writeL1 ((off - 0x0E0) / 4) k v
  else if 0x100 ≤ off ∧ off < 0x200 ∧ off % 32 = 12 then c.writeCm ((off - 0x100) / 32) k v
  else if 0x200 ≤ off ∧ off < 0x240 then cpuAttr c ((off - 0x200) / 4) v
  else if 0x300 ≤ off ∧ off < 0x380 ∧ off % 16 = 0 then
    let d := c.storeReg k v
    if d.bit k 31 then d else d.setBit k 30 false
  else if 0x300 ≤ off ∧ off < 0x380 ∧ off % 16 = 12 then
    cpuIrqEoi (c.preWrite k v).1 ((off - 0x300) / 16) (field v 21 16)
  else if k = R.CPU_INJECT then cpuInject c v
  else c.storeReg k v

/-- INT and DBG (R106, R623). Trace that starts begins with a sync packet (R620). -/
def Chip.writeDbg (c : Chip) (k : Nat) (v : Word) : Chip :=
  if k = R.INT_SWI_SET then intSwiSet c v
  else if k = R.DBG_UART_TX then dbgUartTx c v
  else if k = R.DBG_TRC_CTRL then
    let d := c.storeReg k v
    if !c.bit k 0 && d.bit k 0 then { d with dbg := { d.dbg with traceSince := none } } else d
  else c.storeReg k v

/-- CORR_DATA of a page (R541, R542): bits that the KIND does not have stay 0 and set RSVD_WR; a BOOST above 30
is out of range. -/
def Chip.writeCorr (c : Chip) (page : Nat) (v : Word) : Chip :=
  let k := page * 4096 + 0x604
  let kind := c.fld (page * 4096 + 0x600) 18 16
  let m := corrMask page kind ||| bitW 31
  let c := if v &&& ~~~ m = 0 then (c.preWrite k v).1 else ((c.preWrite k v).1).ignored page 2 0x604
  if !c.bit (pCtrl page) 31 then c
  else if profilePage page = 0x20 ∧ kind = 1 ∧ 30 < field v 4 0 then c.fault page 3
  else c.setCorr (c.corrSel page) (v &&& m)

/-! ### Ownership (R360, R545) -/

/-- The pages that a running item of calibration owns. -/
def Chip.ownedPages (c : Chip) : List Nat :=
  let of (r : CalRun) : List Nat := if r.item = 8 then [] else (r.todo.take 1).map (fun t => calKey r.act t / 65536)
  (c.cal.a.toList ++ c.cal.b.toList ++ c.cal.dev).flatMap of

/-- The FAULT bit of a write to what calibration owns. -/
def Chip.ownedBit (c : Chip) (page off : Nat) : Option Nat :=
  let cle := profilePage page == 0x24
  if cle && c.calibrating (pageAct page) && decide (0x400 ≤ off) && decide (off < 0xF00) then some 6
  else if off = 0x604 && c.ownedPages.contains page then some (if cle then 6 else 7)
  else none

/-! ### Any register -/

/-- A write to a register of a page's own map. -/
def Chip.writeOwn (c : Chip) (page : Nat) (k : Nat) (v : Word) : Chip :=
  let a := pageAct page
  if profileOff page = some (k % 4096) then ((c.preWrite k v).1).selectProfile page (field v 1 0)
  else if k % 4096 = 0x604 then c.writeCorr page v
  else match profilePage page with
    | 0x00 => c.writeSys k v
    | 0x03 => c.writeLcs k v
    | 0x04 => c.writeRec k v
    | 0x05 => c.writeRec k v
    | 0x12 => c.writeSeg k v
    | 0x18 => c.writeFlow k v
    | 0x19 => c.writeFlow k v
    | 0x1A => c.writeFlow k v
    | 0x20 => c.writeRd a k v
    | 0x21 => c.writeWr a k v
    | 0x23 => c.writeWr a k v
    | 0x24 => c.writeCle a k v
    | 0x30 => c.writeChd k v
    | 0x38 => c.writeLinks k v
    | 0x39 => c.writeLinks k v
    | 0x41 => c.writeEcc .mec k v
    | 0x42 => c.writeEcc .see k v
    | 0x50 => c.writeCpu k v
    | 0x51 => c.writeDbg k v
    | 0x58 => c.writeDbg k v
    | _ => c.writeCtl k v

/-- A write of a word to the register at a key. An offset that no map defines ignores it (R86), as does a read-only
register (R94). Any access wakes the page (R585). -/
def Chip.busWrite (c : Chip) (k : Nat) (v : Word) : Chip :=
  let page := k / 4096
  let off := k % 4096
  let c := c.wake page
  match regDesc k with
  | none => c
  | some d =>
    if d.readOnly || c.segDead k then c
    else match c.ownedBit page off with
      | some b => c.fault page b
      | none => if off < 0x80 then c.writeCommon page off v else c.writeOwn page k v

/-- A write in whose cycle hardware sets and clears bits of the same register (R101), and whether they collide.
Bits that software clears and hardware sets, or the reverse, read 1, but for the W1S bits, which start a new
request. Other bits that hardware changes belong to the events that change them (DESIGN CHOICE). -/
def Chip.busWriteWith (c : Chip) (k : Nat) (v hwSet hwClear : Word) : Chip × Bool :=
  match regDesc k with
  | none => (c.busWrite k v, false)
  | some d =>
    let page := k / 4096
    let rw := c.pickMask page d.fields Acc.stores
    let w1c := c.pickMask page d.fields (· == .w1c)
    let w1s := c.pickMask page d.fields (fun a => a == .w1s || a == .w1sd)
    let cleared := (v &&& w1c) ||| (c.reg k &&& ~~~ v &&& rw)
    let up := v &&& (rw ||| w1s)
    let both := (cleared &&& hwSet) ||| (up &&& hwClear)
    let d := c.busWrite k v
    if both = 0 then (d, false)
    else
      let e := d.setReg k (d.reg k ||| (both &&& ~~~ w1s))
      (if k = R.EVR_LW_STATUS then e.mirrorLast else e, true)

/-- The registers of one cycle's collisions, by key: each page counts one, at its lowest offset (R101). -/
def Chip.collisions (c : Chip) (ks : List Nat) : Chip :=
  linePages.foldl (fun c page =>
    match (ks.filter (fun k => k / 4096 == page)).map (· % 4096) with
    | [] => c
    | off :: offs => c.collided page (offs.foldl min off)) c

end Sys2Proof.Machine
end

