-- ==== Sys2Proof/Machine/Access.lean ====
section
/-! DEFINITION. Accesses by the bus masters (R80 to R89): the cores, JTAG and the Smigon port, and the commands
that are register accesses. -/

namespace Sys2Proof.Machine

open Sys2Proof

/-! ### Cores -/

/-- The key of a register at an address of the register region. -/
def regKey (addr : Nat) : Nat := addr - 0x40000000

/-- A core's access (R85, R492 to R497): to a register page, or to memory. -/
def Chip.coreAccess (c : Chip) (n : Fin 8) (x : CoreAccess) : Chip :=
  if x.kind = .prefetch then c.prefetch n.val x.addr
  else if !c.coreRuns n.val || c.cpu.waits.any (fun w => w.core == n.val) then c
  else
    let cause := c.accessCause n.val x
    if cause ≠ 0 then c.coreAbort n.val cause x.addr
    else if regionOf c.mem c.carveBytes x.addr = some .regs then
      if x.kind = .store then c.busWrite (regKey x.addr) (BitVec.ofNat 32 (leNat x.data))
      else
        let p := c.busRead (.core n) (regKey x.addr)
        p.2.loaded n.val x (leBytes 4 p.1.toNat)
    else c.coreMemory n.val x

/-- CORE_ABORT (R496): an access of a core, which aborts where the spec names a cause for it and otherwise has
its effect. -/
def execCoreAbort (core : Fin 8) (access : CoreAccess) (s : State) : Host.Outcome State Fault Refusal :=
  s.done (s.chip.coreAccess core access)

/-! ### Debug ports (R47, R66, R89, R436, R619) -/

/-- What a debug access returns: STATUS of R619, the word read, whether it carries the poison mark, and the
chip after it. -/
structure DebugResult where
  status : Nat
  data : Word := 0
  poison : Bool := false
  chip : Chip

/-- The memory of a region has been filled (R436). -/
def Chip.filled (c : Chip) (r : Region) : Bool :=
  match r with
  | .dram => c.mem.filledDram
  | .carve => c.mem.filledL2
  | .zoneTable => c.mem.filledSram
  | .staging => c.mem.filledSram
  | .ldpc => c.mem.filledSram
  | .tcmA => c.mem.filledSram
  | .tcmB => c.mem.filledSram
  | _ => true

/-- A 32-bit read by a debug port of a region other than the register pages. Memory whose fill has not ended
returns what it holds, which is open, with the mark (R436). -/
def Chip.debugRead (c : Chip) (r : Region) (addr : Nat) : DebugResult :=
  match r with
  | .bootRom => { status := 1, data := Config.bootRom (addr / 4 * 4), chip := c }
  | .mram => { status := 1, data := c.mramRead (addr - 0x30000000), chip := c }
  | r =>
    if c.filled r then
      let p := c.readRange addr 4
      let bs := if r = .zoneTable then c.zoneBytes (addr - 0x10000000) 4 else p.1
      { status := 1, data := BitVec.ofNat 32 (leNat bs), poison := p.2.1, chip := p.2.2 }
    else
      let p := c.takeFree 32
      { status := 1, data := p.1, poison := true, chip := p.2 }

/-- A 32-bit access by a debug port. Where R66 closes the port it is refused; without clocks, and to a pending
slot (R297), the port shows busy. -/
def Chip.debugAccess (c : Chip) (m : Master) (addr : Nat) (write : Option Word) : DebugResult :=
  if !c.jtagOpen then { status := 4, chip := c }
  else if !c.alive then { status := 3, chip := c }
  else if addr % 4 ≠ 0 then { status := 2, chip := c }
  else match regionOf c.mem c.carveBytes addr with
    | none => { status := 2, chip := c }
    | some .regs =>
      if !populated (regKey addr / 4096) then { status := 2, chip := c }
      else match write with
        | some v => { status := 1, chip := c.busWrite (regKey addr) v }
        | none =>
          let p := c.busRead m (regKey addr)
          { status := 1, data := p.1, chip := p.2 }
    | some r =>
      if write.isSome && !r.writable then { status := 2, chip := c }
      else if c.slotPending addr 4 then { status := 3, chip := c }
      else match write with
        | some v => { status := 1, chip := c.writeRange addr (leBytes 4 v.toNat) }
        | none => c.debugRead r addr

/-- An Update-DR of REG_ACCESS (R619): the access, whose result the next Capture-DR returns. Where JTAG is closed
the code selects BYPASS, and no access starts; where it closed after the code was loaded, the access is
refused. -/
def jtagRegAccess (c : Chip) (addr : Nat) (data : Word) (write : Bool) : Chip :=
  if !c.jtagOpen && c.dbg.ir != 0x10 then jtagSelect c 0x10
  else
    let c := if c.jtagOpen then jtagSelect c 0x10 else c
    let r := c.debugAccess .jtag addr (if write then some data else none)
    let d := { r.chip with dbg := { r.chip.dbg with
      regStatus := r.status, regData := if write then data else r.data } }
    if r.poison then d.setBit R.DBG_JTAG 1 true else d

/-- JTAG_REG_ACCESS (R619). -/
def execJtagRegAccess (addr : BitVec 36) (data : Word) (write : Bool) (s : State) :
    Host.Outcome State Fault Refusal := s.done (jtagRegAccess s.chip addr.toNat data write)

/-! ### Register writes (R85 to R94) -/

/-- A 32-bit write by a master. -/
def Chip.masterWrite (c : Chip) (m : Master) (addr : Nat) (v : Word) : Chip :=
  match m with
  | .core n => c.coreAccess n { kind := .store, addr := addr, size := 4, data := leBytes 4 v.toNat }
  | m => (c.debugAccess m addr (some v)).chip

/-- The master's access to a register at the address is carried out. -/
def Chip.mayReach (c : Chip) (m : Master) (addr : Nat) : Bool :=
  let free : Bool := match m with
    | .core n => c.coreRuns n.val && !c.cpu.waits.any (fun w => w.core == n.val)
    | _ => c.jtagOpen && c.alive
  free && addr % 4 == 0 && regionOf c.mem c.carveBytes addr == some .regs && populated (regKey addr / 4096)

/-- A read of DTM_DTIME_LO by a master (R89, R108): nothing where the master may not make it. -/
def dtimeLoReadBy (c : Chip) (m : Master) : Chip :=
  if c.mayReach m (0x40000000 + R.DTM_DTIME_LO) then registerRead c m R.DTM_DTIME_LO else c

/-- DTIME_LO_READ (R108): DTIME[31:0] is returned. -/
def execDtimeLoRead (master : Master) (s : State) : Host.Outcome State Fault Refusal :=
  s.next (dtimeLoReadBy s.chip master)

/-- One write of a cycle, with the key of the register where it collides with hardware. A write that does not
reach a register has the effect of the master's access. -/
def Chip.cycleWrite (p : Chip × List Nat) (w : BusWrite) : Chip × List Nat :=
  if p.1.mayReach w.master w.addr then
    let q := p.1.busWriteWith (regKey w.addr) w.value w.hwSet w.hwClear
    (q.1, p.2 ++ (if q.2 then [regKey w.addr] else []))
  else (p.1.masterWrite w.master w.addr w.value, p.2)

/-- REGISTER_WRITE (R93): the writes masters make in one cycle, each with what hardware sets and clears in the same
register in that cycle (R101). -/
def registerWrite (c : Chip) (ws : List BusWrite) : Chip :=
  let p := ws.foldl Chip.cycleWrite (c, [])
  p.1.collisions p.2

/-- REGISTER_WRITE (R93). -/
def execRegisterWrite (master : Master) (addr : Nat) (data : CycleData) (hwSet hwClear : Word) (s : State) :
    Host.Outcome State Fault Refusal :=
  s.done (registerWrite s.chip (⟨master, addr, data.value, hwSet, hwClear⟩ :: data.also))

/-- A write of a law register of an engine page (R357). -/
def cleLawWrite (c : Chip) (m : Master) (a : Act) (off : Nat) (v : Word) : Chip :=
  if lawOffset off then c.masterWrite m (0x40000000 + chanPage a 0x24 * 4096 + off) v else c

/-- CLE_LAW_WRITE (R357). -/
def execCleLawWrite (m : Master) (a : Act) (off : Nat) (v : Word) (s : State) :
    Host.Outcome State Fault Refusal := s.next (cleLawWrite s.chip m a off v)

/-- A write to INT_SET of a page (R92). -/
def intSetWrite (c : Chip) (page : Nat) (v : Word) : Chip :=
  if !c.alive || !populated page then c else c.busWrite (page * 4096 + 0x018) v

/-- INT_SET (R92). -/
def execIntSet (page : Nat) (v : Word) (s : State) : Host.Outcome State Fault Refusal :=
  s.next (intSetWrite s.chip page v)

/-- A write of 1 to COLLIDE.CLR of a page, and the register of a collision in the same cycle, if any (R102). -/
def collideClr (c : Chip) (page : Nat) (collision : Option Nat) : Chip :=
  if !c.alive || !populated page then c
  else
    let c := c.busWrite (pCollide page) 0x80000000
    match collision with
    | none => c
    | some off => c.collided page (off % 4096)

/-- COLLIDE_CLR (R102). -/
def execCollideClr (page : Nat) (collision : Option Nat) (s : State) : Host.Outcome State Fault Refusal :=
  s.next (collideClr s.chip page collision)

end Sys2Proof.Machine
end

