-- ==== Sys2Proof/Machine/Log.lean ====
section
/-! DEFINITION. Get Log Page and Identify (R117, R118, R120, R121, R530, R531). Byte positions inside the
standard structures are those of NVMe 2.0 (PRESUMED). -/

namespace Sys2Proof.Machine

open Sys2Proof

/-- Replace bytes of a page from an offset upwards. -/
def putBytes (bs : List Byte) (start : Nat) (xs : List Byte) : List Byte :=
  bs.take start ++ xs ++ bs.drop (start + xs.length)

/-! ### Log pages -/

/-- An Error Information entry: its count, the command's queue and identifier, and its status field. -/
def errorEntry (count : Nat) (e : Completion) : List Byte :=
  layBytes 64 [(0, 8, count), (8, 2, e.qid), (10, 2, e.cid),
    (12, 2, 2 * (e.sc % 256 + e.sct % 8 * 256 + b2n e.dnr * 16384))]

/-- Error Information: 64 entries, newest first. -/
def Chip.errorLog (c : Chip) : List Byte :=
  let used := (c.nvq.errors.zipIdx).flatMap (fun e => errorEntry (c.nvq.errorCount - e.2) e.1)
  used ++ List.replicate (4096 - used.length) 0

/-- SMART / Health Information: the fields the spec gives; those NVMe defines and the spec does not are
free. -/
def Chip.smartLog (c : Chip) (i : Nat) : List Byte × Chip :=
  let r := c.takeFree 728
  let f := leBytes 91 r.1.toNat
  let kelvin := c.loc.temp + 273
  let bs := layBytes 512 [(0, 1, c.criticalWarningOf [i]), (1, 2, kelvin), (112, 16, c.jnl.pcc),
    (128, 16, c.jnl.optime / 256), (144, 16, c.jnl.unsafeCount),
    (160, 16, c.logA.unrecovered + c.logB.unrecovered), (176, 16, c.nvq.errorCount)]
  (putBytes (putBytes (putBytes bs 3 (f.take 3)) 32 (slice f 3 80)) 192 (slice f 83 8), r.2)

/-- Firmware Slot Information: the running slot, the one named next, and both versions. -/
def Chip.slotLog (c : Chip) : List Byte :=
  layBytes 512 [(0, 1, c.nvq.fwRunning + c.nvq.fwNext * 16), (8, 8, c.nvq.fwSlot1), (16, 8, c.nvq.fwSlot2)]

/-- Changed Namespace List. -/
def Chip.nsLog (c : Chip) : List Byte :=
  layBytes 4096 ((c.nvq.changedNs.zipIdx).map (fun e => (4 * e.2, 4, e.1)))

/-- Commands Supported and Effects for a command set: bit 0 supported, bit 1 changes the content of logical
blocks. -/
def effectsLog (csi : Nat) : List Byte :=
  let io := if csi = 1 then ioOpcodes 4 else if csi = 2 then ioOpcodes 1 else ioOpcodes 3
  let writes := if csi = 1 then [0x01, 0x10] else [0x01, 0x08, 0x09, 0x79, 0x7D]
  layBytes 4096 (adminOpcodes.map (fun o => (4 * o, 4, if o = 0x80 ∨ o = 0x84 then 3 else 1))
    ++ io.map (fun o => (1024 + 4 * o, 4, if writes.contains o then 3 else 1)))

/-- Device Self-test: the operation running with its free percentage, and twenty results. -/
def Chip.selfTestLog (c : Chip) : List Byte × Chip :=
  let r := c.takeFree 7
  let entry (i : Nat) : Nat :=
    match c.nvq.selfResults[i]? with
    | some e => e.2 + e.1 * 16
    | none => 15
  (layBytes 564 ([(0, 1, c.nvq.selfTest), (1, 1, if c.nvq.selfTest = 0 then 0 else r.1.toNat)]
    ++ (List.range 20).map (fun i => (4 + 28 * i, 1, entry i))), r.2)

/-- The first LBA of a zone in its namespace. -/
def zoneLba (zone : Nat) : Nat := zone % 262144 * 65536

/-- Changed Zone List of namespace 1 or 2. -/
def Chip.zoneLog (c : Chip) (nsid : Nat) : List Byte :=
  let zs := c.nvq.changedZones.filter (fun z => (c.zone z).nsid == nsid)
  layBytes 4096 ((0, 2, if 511 < zs.length then 0xFFFF else zs.length)
    :: (if 511 < zs.length then [] else (zs.zipIdx).map (fun e => (8 + 8 * e.2, 8, zoneLba e.1))))

/-- A half of the Calken Actuator Status log (R120). -/
def Chip.actuatorHalf (c : Chip) (a : Act) : List (Nat × Nat × Nat) :=
  let l := c.actLog a
  let base := 32 * a.toNat
  let state := if c.retired a then 3 else if c.lostNow a then 2 else if c.calibrating a then 1 else 0
  [(base, 1, state), (base + 4, 4, min l.lost 0xFFFFFFFF), (base + 8, 4, min l.overrun 0xFFFFFFFF),
    (base + 12, 4, min l.beyond3 0xFFFFFFFF), (base + 16, 8, min l.unrecovered (2 ^ 64 - 1))]

/-- Calken Actuator Status. -/
def Chip.actuatorLog (c : Chip) : List Byte := layBytes 64 (c.actuatorHalf .A ++ c.actuatorHalf .B)

/-- A record of the log as the read-out orders it (R388, R530): power cycle, DTIME, group and page of its
source. -/
structure LogRecord where
  pcc : Nat
  dtime : Nat
  group : Nat
  page : Nat
  words : List DWord

/-- The record that begins with these words. -/
def logRecord (ws : List DWord) : LogRecord :=
  let w0 := (ws.getD 0 0).toNat
  let page := linePages.getD (w0 / 2 ^ 18 % 64) 0xFF
  { pcc := w0 / 2 ^ 40 % 2 ^ 24, dtime := (ws.getD 2 0).toNat, page := page
    group := if 0x20 ≤ page ∧ page ≤ 0x24 then 0 else if 0x28 ≤ page ∧ page ≤ 0x2C then 1 else 2
    words := ws }

/-- One record is read out before another; of equals the first in log order. -/
def LogRecord.before (x y : LogRecord) : Bool :=
  x.pcc < y.pcc || (x.pcc == y.pcc && (x.dtime < y.dtime || (x.dtime == y.dtime &&
    (x.group < y.group || (x.group == y.group && x.page < y.page)))))

/-- Insert a record before the first one it must precede. -/
def insertRecord (x : LogRecord) : List LogRecord → List LogRecord
  | [] => [x]
  | y :: ys => if x.before y then x :: y :: ys else y :: insertRecord x ys

/-- The CRC of a record holds (R516). -/
def recGood (ws : List DWord) : Bool :=
  match ws with
  | w0 :: w1 :: rest =>
    let bytes := leBytes 8 w0.toNat ++ leBytes 8 (w1.toNat % 2 ^ 32) ++ rest.flatMap (fun w => leBytes 8 w.toNat)
    w1.toNat / 2 ^ 32 == (crc32c bytes).toNat
  | _ => false

/-- Read an area from a word: fills and records that fail their CRC are skipped by their LEN, and an
impossible LEN ends the read-out (R530). The last argument bounds the walk. -/
def Chip.readArea (c : Chip) (a : Area) (i left : Nat) : Nat → List LogRecord
  | 0 => []
  | n + 1 =>
    if left = 0 then []
    else
      let w := c.mramWord (a.base + i)
      let len := recLen w
      if !lenPossible w || left < len then []
      else
        let rest := Chip.readArea c a ((i + len) % a.words) (left - len) n
        let ws := (List.range len).map (fun j => c.mramWord (a.base + i + j))
        if recCode w = 0 || !recGood ws then rest else logRecord ws :: rest

/-- The records in read-out order. -/
def Chip.logRecords (c : Chip) : List LogRecord :=
  let v := c.evr
  (c.readArea .general v.gtail v.gused 5104 ++ c.readArea .floor v.ftail v.fused 1024).foldl
    (fun l x => insertRecord x l) []

/-- Log page 0xC0 (R531). -/
def Chip.eventLog (c : Chip) : List Byte :=
  let rs := c.logRecords
  layBytes 48 ([(0, 4, rs.length), (4, 4, (c.reg R.EVR_DROPPED).toNat),
      (8, 1, b2n c.evr.degraded + 2 * b2n (c.bit R.EVR_LW_STATUS 0))]
    ++ (List.range 8).map (fun i => (16 + 4 * i, 4, (c.reg (R.EVR_LASTWORD i)).toNat)))
    ++ rs.flatMap (fun r => r.words.flatMap (fun w => leBytes 8 w.toNat))

/-- A log page by its identifier, none for an invalid one (R120). -/
def Chip.logPage (c : Chip) (x : InCmd) : Option (List Byte × Chip) :=
  match x.cmd.cdw10 % 256 with
  | 0x01 => some (c.errorLog, c)
  | 0x02 => some (c.smartLog x.cntl)
  | 0x03 => some (c.slotLog, c)
  | 0x04 => some (c.nsLog, c)
  | 0x05 => some (effectsLog (x.cmd.cdw14 / 2 ^ 24 % 256), c)
  | 0x06 => some c.selfTestLog
  | 0xBF => some (c.zoneLog x.cmd.nsid, c)
  | 0xC0 => some (c.eventLog, c)
  | 0xC1 => some (c.actuatorLog, c)
  | _ => none

/-- A read of a change list with RAE 0 empties it (PRESUMED). -/
def Chip.logRead (c : Chip) (x : InCmd) : Chip :=
  if x.cmd.cdw10 / 2 ^ 15 % 2 = 1 then c
  else match x.cmd.cdw10 % 256 with
    | 0x04 => { c with nvq := { c.nvq with changedNs := [] } }
    | 0xBF =>
      let zs := c.nvq.changedZones.filter (fun z => (c.zone z).nsid != x.cmd.nsid)
      { c with nvq := { c.nvq with changedZones := zs } }
    | _ => c

/-- Get Log Page: NUMD dwords from the byte offset of LPOL and LPOU, at most 2 MiB and inside the page (R140). -/
def getLogPage (c : Chip) (i cid : Nat) : Chip :=
  match c.admin i cid 0x02 with
  | none => c
  | some x =>
    let n := 4 * (x.cmd.cdw10 / 65536 % 65536 + x.cmd.cdw11 % 65536 * 65536 + 1)
    let start := x.cmd.cdw12 + x.cmd.cdw13 * 2 ^ 32
    match c.logPage x with
    | none => c.fail x (1, 0x09, true)
    | some r =>
      if x.cmd.cdw10 % 256 = 0xBF ∧ x.cmd.nsid ≠ 1 ∧ x.cmd.nsid ≠ 2 then c.fail x stInvalidNs
      else if start % 4 ≠ 0 ∨ 2097152 < n ∨ r.1.length < start + n then c.fail x stInvalidField
      else ((r.2.emit (.bytes i 0 cid (slice r.1 start n))).logRead x).finish x.ok

/-- GET_LOG_PAGE (R120). -/
def execGetLogPage (cntl : Fin 2) (cid : Nat) (s : State) : Host.Outcome State Fault Refusal :=
  s.done (getLogPage s.chip cntl.val cid)

/-! ### Identify -/

/-- The version of the running firmware. -/
def Chip.runningVersion (c : Chip) : Nat := if c.nvq.fwRunning = 2 then c.nvq.fwSlot2 else c.nvq.fwSlot1

/-- Number of namespaces NN (R116). -/
def Chip.nn (c : Chip) : Nat := if c.lcs.tierS then 4 else 3

/-- Identify Controller (R117, R119, R121, R136). -/
def Chip.identifyController (c : Chip) (i : Nat) : List Byte :=
  layBytes 4096 [
    (64, 8, c.runningVersion), (76, 1, if c.dual then 3 else 0), (77, 1, 9), (78, 2, i + 1), (80, 4, 0x20000),
    (84, 4, 25000000), (88, 4, 8000000), (92, 4, 0x08000300), (111, 1, 1), (256, 2, 0x16), (258, 1, 3),
    (259, 1, 7), (260, 1, 0x14), (261, 1, 6), (262, 1, 63), (263, 1, 2), (270, 2, 50), (319, 1, 1),
    (328, 4, 1), (512, 1, 0x66), (513, 1, 0x44), (514, 2, c.inflightLimit), (516, 4, c.nn),
    (520, 2, 0xCC), (524, 1, 4), (525, 1, 0), (526, 2, 15), (528, 2, 15), (536, 4, 1),
    (2048, 2, 520), (2080, 2, 140), (2083, 1, 2), (2084, 4, 100000), (2088, 4, 5000),
    (2112, 2, 45), (2115, 1, 2), (2116, 4, 2000000),
    (2120, 4, c.fld R.SYS_SPINUP 15 0 * 1000 + 500000)]

/-- Identify Namespace of the NVM command set (R116, R117, R183). -/
def Chip.identifyNs (c : Chip) (nsid : Nat) : List Byte :=
  let n := c.loc.nsze nsid
  layBytes 4096 [
    (0, 8, n), (8, 8, n), (16, 8, n), (24, 1, 0x12), (30, 1, b2n c.dual), (34, 2, 15), (36, 2, 15),
    (44, 2, 15), (46, 2, 16), (64, 2, 15), (72, 2, 15), (130, 1, 12)]

/-- The Zoned Namespace structure of namespaces 1 and 2 (R117): RAZB, MAR, MOR and the zone size. -/
def identifyZoned : List Byte :=
  layBytes 4096 [(2, 2, 1), (4, 4, 127), (8, 4, 127), (2816, 8, 65536)]

/-- The Key Value structure of namespace 4 (R152): one format with its key and value limits. -/
def Chip.identifyKv (c : Chip) : List Byte :=
  layBytes 4096 [(26, 1, b2n c.dual), (72, 2, 16), (76, 4, 2097152)]

/-- The command set of a namespace (R116). -/
def csiOf (nsid : Nat) : Nat := if nsid = 4 then 1 else if nsid = 3 then 0 else 2

/-- A list of the active namespaces above an identifier, of one command set where one is named. -/
def Chip.activeList (c : Chip) (above : Nat) (csi : Option Nat) : List Byte :=
  let ns := [1, 2, 3, 4].filter (fun n => decide (above < n) && c.nsActive n && csi.all (· == csiOf n))
  layBytes 4096 ((ns.zipIdx).map (fun e => (4 * e.2, 4, e.1)))

/-- What Identify answers: a structure, or a status. -/
def Chip.identifyData (c : Chip) (i : Nat) (h : HostCmd) : List Byte ⊕ Status :=
  let n := h.nsid
  let csi := h.cdw11 / 2 ^ 24 % 256
  let zero : List Byte := List.replicate 4096 0
  let known := 1 ≤ n ∧ n ≤ c.nn
  match h.cdw10 % 256 with
  | 0x00 =>
    if !known then .inr stInvalidNs
    else if !c.nsActive n then .inl zero
    else if n = 4 then .inr (1, 0x2C, true)
    else .inl (c.identifyNs n)
  | 0x01 => .inl (c.identifyController i)
  | 0x02 => if 0xFFFFFFFE ≤ n then .inr stInvalidNs else .inl (c.activeList n none)
  | 0x03 =>
    if !known || !c.nsActive n then .inr stInvalidNs
    else .inl (layBytes 4096 [(0, 1, 4), (1, 1, 1), (4, 1, csiOf n)])
  | 0x05 =>
    if !known then .inr stInvalidNs
    else if !c.nsActive n then .inl zero
    else if csi ≠ csiOf n then .inr (1, 0x2C, true)
    else .inl (if csi = 2 then identifyZoned else if csi = 1 then c.identifyKv else zero)
  | 0x06 => if 2 < csi then .inr stInvalidField else .inl zero
  | 0x07 =>
    if 0xFFFFFFFE ≤ n then .inr stInvalidNs
    else if 2 < csi then .inr stInvalidField
    else .inl (c.activeList n (some csi))
  | 0x08 =>
    if !known then .inr stInvalidNs
    else if !c.nsActive n then .inl zero
    else .inl (layBytes 4096 [(1, 1, b2n c.dual), (14, 1, 1)])
  | 0x1C => .inl (layBytes 4096 [(0, 8, if c.lcs.tierS then 7 else 5)])
  | _ => .inr stInvalidField

/-- Identify. -/
def identify (c : Chip) (i cid : Nat) : Chip :=
  match c.admin i cid 0x06 with
  | none => c
  | some x =>
    match c.identifyData i x.cmd with
    | .inl bs => (c.emit (.bytes i 0 cid bs)).finish x.ok
    | .inr st => c.fail x st

/-- IDENTIFY (R117). -/
def execIdentify (cntl : Fin 2) (cid : Nat) (s : State) : Host.Outcome State Fault Refusal :=
  s.done (identify s.chip cntl.val cid)

end Sys2Proof.Machine
end

