-- ==== Sys2Proof/Machine/Dispatch.lean ====
section
/-! DEFINITION. The one dispatch from a command to its meaning. -/

namespace Sys2Proof.Machine

open Sys2Proof

/-- The effect of a command on everything but the queue. -/
def exec (i : Instr) (s : State) : Host.Outcome State Fault Refusal :=
  match i with
  | .powerOnReset => Sys2Proof.Machine.execPowerOnReset s
  | .sysResetNLow => Sys2Proof.Machine.execSysResetNLow s
  | .watchdogExpiry => Sys2Proof.Machine.execWatchdogExpiry s
  | .sysWdogKick value => Sys2Proof.Machine.execSysWdogKick value s
  | .sysSwreset value => Sys2Proof.Machine.execSysSwreset value s
  | .sysBootOk value => Sys2Proof.Machine.execSysBootOk value s
  | .holdupRestart pwrfailHigh railsInRange resetHigh => Sys2Proof.Machine.execHoldupRestart pwrfailHigh railsInRange resetHigh s
  | .pePerst port => Sys2Proof.Machine.execPePerst port s
  | .pwrfail => Sys2Proof.Machine.execPwrfail s
  | .railMeasure tenthsMv => Sys2Proof.Machine.execRailMeasure tenthsMv s
  | .nandSaveDataDone trailerPage durationTenthsMs trailerGood => Sys2Proof.Machine.execNandSaveDataDone trailerPage durationTenthsMs trailerGood s
  | .chipPark => Sys2Proof.Machine.execChipPark s
  | .nandProgramFail die block => Sys2Proof.Machine.execNandProgramFail die block s
  | .bootStart => Sys2Proof.Machine.execBootStart s
  | .pllLocked fuses cfg testEn => Sys2Proof.Machine.execPllLocked fuses cfg testEn s
  | .powerOnProfileDone skipped fails analog => Sys2Proof.Machine.execPowerOnProfileDone skipped fails analog s
  | .ddrTrainingDone result => Sys2Proof.Machine.execDdrTrainingDone result s
  | .memoryFillDone mem => Sys2Proof.Machine.execMemoryFillDone mem s
  | .firmwareImageLoaded slot1 slot2 nor norLog2 => Sys2Proof.Machine.execFirmwareImageLoaded slot1 slot2 nor norLog2 s
  | .journalReplay => Sys2Proof.Machine.execJournalReplay s
  | .saveSetRestore geom bad => Sys2Proof.Machine.execSaveSetRestore geom bad s
  | .saveRetire => Sys2Proof.Machine.execSaveRetire s
  | .mapLoad image => Sys2Proof.Machine.execMapLoad image s
  | .uartSyncByte => Sys2Proof.Machine.execUartSyncByte s
  | .uartHeader packet signatureGood => Sys2Proof.Machine.execUartHeader packet signatureGood s
  | .uartData packet => Sys2Proof.Machine.execUartData packet s
  | .uartRun packet => Sys2Proof.Machine.execUartRun packet s
  | .uartPacketTimeout => Sys2Proof.Machine.execUartPacketTimeout s
  | .modeReqCalibrate calA calB => Sys2Proof.Machine.execModeReqCalibrate calA calB s
  | .modeReqService => Sys2Proof.Machine.execModeReqService s
  | .modeReqRest restSub => Sys2Proof.Machine.execModeReqRest restSub s
  | .modeReqRebuild => Sys2Proof.Machine.execModeReqRebuild s
  | .restEntered => Sys2Proof.Machine.execRestEntered s
  | .restExitOnIo admin => Sys2Proof.Machine.execRestExitOnIo admin s
  | .mapInconsistency zone chunk => Sys2Proof.Machine.execMapInconsistency zone chunk s
  | .lcsAdvance target key => Sys2Proof.Machine.execLcsAdvance target key s
  | .fuseRowProgrammed => Sys2Proof.Machine.execFuseRowProgrammed s
  | .tokenStart => Sys2Proof.Machine.execTokenStart s
  | .tokenVerifyDone signatureGood => Sys2Proof.Machine.execTokenVerifyDone signatureGood s
  | .relock => Sys2Proof.Machine.execRelock s
  | .ospRead data => Sys2Proof.Machine.execOspRead data s
  | .ospProgram => Sys2Proof.Machine.execOspProgram s
  | .ospErase => Sys2Proof.Machine.execOspErase s
  | .ospDone deviceFailed => Sys2Proof.Machine.execOspDone deviceFailed s
  | .registerWrite master addr data hwSet hwClear => Sys2Proof.Machine.execRegisterWrite master addr data hwSet hwClear s
  | .profileLoad addr profile => Sys2Proof.Machine.execProfileLoad addr profile s
  | .intSet page bits => Sys2Proof.Machine.execIntSet page bits s
  | .collideClr page collision => Sys2Proof.Machine.execCollideClr page collision s
  | .dtimeLoRead master => Sys2Proof.Machine.execDtimeLoRead master s
  | .dtmCmpHiWrite value => Sys2Proof.Machine.execDtmCmpHiWrite value s
  | .dtimeCompareMatch => Sys2Proof.Machine.execDtimeCompareMatch s
  | .intSwiSet value => Sys2Proof.Machine.execIntSwiSet value s
  | .interruptTaken core => Sys2Proof.Machine.execInterruptTaken core s
  | .cpuIrqEoi core line => Sys2Proof.Machine.execCpuIrqEoi core line s
  | .pcieConfigRequest port request => Sys2Proof.Machine.execPcieConfigRequest port request s
  | .linkChange port link speed width => Sys2Proof.Machine.execLinkChange port link speed width s
  | .smbusBasicManagement address offset percentUsed => Sys2Proof.Machine.execSmbusBasicManagement address offset percentUsed s
  | .ccEnSet cntl asqs acqs => Sys2Proof.Machine.execCcEnSet cntl asqs acqs s
  | .controllerReset cntl => Sys2Proof.Machine.execControllerReset cntl s
  | .shutdownNormal cntl => Sys2Proof.Machine.execShutdownNormal cntl s
  | .shutdownAbrupt cntl trailerPage => Sys2Proof.Machine.execShutdownAbrupt cntl trailerPage s
  | .sqDoorbell cntl qid tail => Sys2Proof.Machine.execSqDoorbell cntl qid tail s
  | .cqDoorbell cntl qid head => Sys2Proof.Machine.execCqDoorbell cntl qid head s
  | .commandFetch host => Sys2Proof.Machine.execCommandFetch host s
  | .unsupportedCommand cntl qid cid => Sys2Proof.Machine.execUnsupportedCommand cntl qid cid s
  | .createIoSq cntl cid => Sys2Proof.Machine.execCreateIoSq cntl cid s
  | .createIoCq cntl cid => Sys2Proof.Machine.execCreateIoCq cntl cid s
  | .deleteIoSq cntl cid => Sys2Proof.Machine.execDeleteIoSq cntl cid s
  | .deleteIoCq cntl cid => Sys2Proof.Machine.execDeleteIoCq cntl cid s
  | .getLogPage cntl cid => Sys2Proof.Machine.execGetLogPage cntl cid s
  | .identify cntl cid => Sys2Proof.Machine.execIdentify cntl cid s
  | .abort cntl cid abortWins => Sys2Proof.Machine.execAbort cntl cid abortWins s
  | .setFeatures cntl cid => Sys2Proof.Machine.execSetFeatures cntl cid s
  | .getFeatures cntl cid => Sys2Proof.Machine.execGetFeatures cntl cid s
  | .asyncEventRequest cntl cid => Sys2Proof.Machine.execAsyncEventRequest cntl cid s
  | .firmwareImageDownload cntl cid => Sys2Proof.Machine.execFirmwareImageDownload cntl cid s
  | .firmwareCommit cntl cid signatureGood => Sys2Proof.Machine.execFirmwareCommit cntl cid signatureGood s
  | .fwActivationTimeout => Sys2Proof.Machine.execFwActivationTimeout s
  | .formatNvm cntl cid => Sys2Proof.Machine.execFormatNvm cntl cid s
  | .sanitize cntl cid => Sys2Proof.Machine.execSanitize cntl cid s
  | .deviceSelfTest cntl test => Sys2Proof.Machine.execDeviceSelfTest cntl test s
  | .read cntl qid cid media => Sys2Proof.Machine.execRead cntl qid cid media s
  | .write cntl qid cid => Sys2Proof.Machine.execWrite cntl qid cid s
  | .zoneAppend cntl qid cid => Sys2Proof.Machine.execZoneAppend cntl qid cid s
  | .flush cntl qid cid => Sys2Proof.Machine.execFlush cntl qid cid s
  | .writeZeroes cntl qid cid => Sys2Proof.Machine.execWriteZeroes cntl qid cid s
  | .datasetManagement cntl qid cid => Sys2Proof.Machine.execDatasetManagement cntl qid cid s
  | .verify cntl qid cid media => Sys2Proof.Machine.execVerify cntl qid cid media s
  | .zoneOpen cntl qid cid => Sys2Proof.Machine.execZoneOpen cntl qid cid s
  | .zoneClose cntl qid cid => Sys2Proof.Machine.execZoneClose cntl qid cid s
  | .zoneFinish cntl qid cid => Sys2Proof.Machine.execZoneFinish cntl qid cid s
  | .zoneReset cntl qid cid => Sys2Proof.Machine.execZoneReset cntl qid cid s
  | .zoneOffline cntl qid cid => Sys2Proof.Machine.execZoneOffline cntl qid cid s
  | .reportZones cntl qid cid => Sys2Proof.Machine.execReportZones cntl qid cid s
  | .writeTransferStart => Sys2Proof.Machine.execWriteTransferStart s
  | .writeUnitPowerSafe cntl qid cid unit data poisonedTlp => Sys2Proof.Machine.execWriteUnitPowerSafe cntl qid cid unit data poisonedTlp s
  | .retryBudgetExpiry cntl qid cid => Sys2Proof.Machine.execRetryBudgetExpiry cntl qid cid s
  | .kvStore cntl qid cid data => Sys2Proof.Machine.execKvStore cntl qid cid data s
  | .kvAppend cntl qid cid data => Sys2Proof.Machine.execKvAppend cntl qid cid data s
  | .kvRetrieve cntl qid cid media again => Sys2Proof.Machine.execKvRetrieve cntl qid cid media again s
  | .kvDelete cntl qid cid => Sys2Proof.Machine.execKvDelete cntl qid cid s
  | .kvExist cntl qid cid => Sys2Proof.Machine.execKvExist cntl qid cid s
  | .kvList cntl qid cid => Sys2Proof.Machine.execKvList cntl qid cid s
  | .segBackgroundVerify key first second lapHours => Sys2Proof.Machine.execSegBackgroundVerify key first second lapHours s
  | .segOpenValueRebuild key media => Sys2Proof.Machine.execSegOpenValueRebuild key media s
  | .segExpiryReclaim key => Sys2Proof.Machine.execSegExpiryReclaim key s
  | .segPopularityHalve => Sys2Proof.Machine.execSegPopularityHalve s
  | .segMigrationQueue key => Sys2Proof.Machine.execSegMigrationQueue key s
  | .locPartApply => Sys2Proof.Machine.execLocPartApply s
  | .locBandCmdFree => Sys2Proof.Machine.execLocBandCmdFree s
  | .locBandCmdRetire => Sys2Proof.Machine.execLocBandCmdRetire s
  | .locPtBuild => Sys2Proof.Machine.execLocPtBuild s
  | .locPtRelease => Sys2Proof.Machine.execLocPtRelease s
  | .mwpCommit zone failedReadBacks => Sys2Proof.Machine.execMwpCommit zone failedReadBacks s
  | .mwpCommitTimer zone => Sys2Proof.Machine.execMwpCommitTimer zone s
  | .hotMapSlotFreed => Sys2Proof.Machine.execHotMapSlotFreed s
  | .rebuildMediaCacheScan act found => Sys2Proof.Machine.execRebuildMediaCacheScan act found s
  | .rebuildBandProbe act band found chunks tail => Sys2Proof.Machine.execRebuildBandProbe act band found chunks tail s
  | .rebuildDone valuesA valuesB => Sys2Proof.Machine.execRebuildDone valuesA valuesB s
  | .relocation act zone unit => Sys2Proof.Machine.execRelocation act zone unit s
  | .bclAutoSelect act => Sys2Proof.Machine.execBclAutoSelect act s
  | .bclJobGo => Sys2Proof.Machine.execBclJobGo s
  | .bclJobBegin act => Sys2Proof.Machine.execBclJobBegin act s
  | .bclCopyDone act lostUnits tmin tmax => Sys2Proof.Machine.execBclCopyDone act lostUnits tmin tmax s
  | .bclVerifyDone act good => Sys2Proof.Machine.execBclVerifyDone act good s
  | .bandRelease act band => Sys2Proof.Machine.execBandRelease act band s
  | .bclOverwriteDone act band => Sys2Proof.Machine.execBclOverwriteDone act band s
  | .bclJobAbandon act failure => Sys2Proof.Machine.execBclJobAbandon act failure s
  | .stalePurge act => Sys2Proof.Machine.execStalePurge act s
  | .secureDiscardDone => Sys2Proof.Machine.execSecureDiscardDone s
  | .secSha256Job => Sys2Proof.Machine.execSecSha256Job s
  | .secCrc32cJob => Sys2Proof.Machine.execSecCrc32cJob s
  | .secImgVerifyJob => Sys2Proof.Machine.execSecImgVerifyJob s
  | .secJobDone signatureGood => Sys2Proof.Machine.execSecJobDone signatureGood s
  | .secRootInit => Sys2Proof.Machine.execSecRootInit s
  | .rdDescRead act words reader => Sys2Proof.Machine.execRdDescRead act words reader s
  | .rdDescVerify act words reader => Sys2Proof.Machine.execRdDescVerify act words reader s
  | .rdDescCapture act words => Sys2Proof.Machine.execRdDescCapture act words s
  | .rdDescRedecode act words => Sys2Proof.Machine.execRdDescRedecode act words s
  | .sectorDecided act index inside sense adapted => Sys2Proof.Machine.execSectorDecided act index inside sense adapted s
  | .rdAbort act => Sys2Proof.Machine.execRdAbort act s
  | .fmtLock act => Sys2Proof.Machine.execFmtLock act s
  | .servoSample act burst under errors => Sys2Proof.Machine.execServoSample act burst under errors s
  | .servoMarkMiss act under errors => Sys2Proof.Machine.execServoMarkMiss act under errors s
  | .servoSearchExit act first burst errors => Sys2Proof.Machine.execServoSearchExit act first burst errors s
  | .cleOverrun act burst under evaluated errors => Sys2Proof.Machine.execCleOverrun act burst under evaluated errors s
  | .cleRun act => Sys2Proof.Machine.execCleRun act s
  | .clePark act => Sys2Proof.Machine.execClePark act s
  | .cleClrRc act => Sys2Proof.Machine.execCleClrRc act s
  | .cleRefPush act value => Sys2Proof.Machine.execCleRefPush act value s
  | .cleLawWrite master act off value => Sys2Proof.Machine.execCleLawWrite master act off value s
  | .cleRcDataAccess act value => Sys2Proof.Machine.execCleRcDataAccess act value s
  | .cleInjectOverrun act => Sys2Proof.Machine.execCleInjectOverrun act s
  | .chdSeekReq reqA reqB => Sys2Proof.Machine.execChdSeekReq reqA reqB s
  | .chdFfEnable ab ba => Sys2Proof.Machine.execChdFfEnable ab ba s
  | .chdRetire value => Sys2Proof.Machine.execChdRetire value s
  | .retirementCommit => Sys2Proof.Machine.execRetirementCommit s
  | .chdUnretire value => Sys2Proof.Machine.execChdUnretire value s
  | .ovlSelect by_ => Sys2Proof.Machine.execOvlSelect by_ s
  | .ovlWcur preamp head reg data => Sys2Proof.Machine.execOvlWcur preamp head reg data s
  | .ovlHeat preamp head reg data => Sys2Proof.Machine.execOvlHeat preamp head reg data s
  | .ovlAp by_ => Sys2Proof.Machine.execOvlAp by_ s
  | .ovlAmon by_ => Sys2Proof.Machine.execOvlAmon by_ s
  | .ovlTemp preamp head reg data => Sys2Proof.Machine.execOvlTemp preamp head reg data s
  | .ovlFcode preamp head reg data => Sys2Proof.Machine.execOvlFcode preamp head reg data s
  | .ovlFclr preamp head reg data => Sys2Proof.Machine.execOvlFclr preamp head reg data s
  | .ovlRdreg preamp head reg data => Sys2Proof.Machine.execOvlRdreg preamp head reg data s
  | .ovlWrreg preamp head reg data => Sys2Proof.Machine.execOvlWrreg preamp head reg data s
  | .ovlPing preamp head reg data => Sys2Proof.Machine.execOvlPing preamp head reg data s
  | .ovlResponse response => Sys2Proof.Machine.execOvlResponse response s
  | .ovlTempPoll => Sys2Proof.Machine.execOvlTempPoll s
  | .preampFault act => Sys2Proof.Machine.execPreampFault act s
  | .mlkWrite reg data => Sys2Proof.Machine.execMlkWrite reg data s
  | .mlkRead reg => Sys2Proof.Machine.execMlkRead reg s
  | .mlkTxDone replies => Sys2Proof.Machine.execMlkTxDone replies s
  | .mlkIrq reads writes => Sys2Proof.Machine.execMlkIrq reads writes s
  | .mlkIrqRetry reads writes => Sys2Proof.Machine.execMlkIrqRetry reads writes s
  | .mlkRetractCtrl retract => Sys2Proof.Machine.execMlkRetractCtrl retract s
  | .snsSample s0 s1 s2 => Sys2Proof.Machine.execSnsSample s0 s1 s2 s
  | .snsEventEnd shock => Sys2Proof.Machine.execSnsEventEnd shock s
  | .wrDescWrite act words => Sys2Proof.Machine.execWrDescWrite act words s
  | .wrDescFill act words => Sys2Proof.Machine.execWrDescFill act words s
  | .writeDescDone act monitored => Sys2Proof.Machine.execWriteDescDone act monitored s
  | .writeNoPermission act => Sys2Proof.Machine.execWriteNoPermission act s
  | .envelopeLimit act => Sys2Proof.Machine.execEnvelopeLimit act s
  | .wrAbort act => Sys2Proof.Machine.execWrAbort act s
  | .asOntimeSet act value => Sys2Proof.Machine.execAsOntimeSet act value s
  | .synthLock act locked => Sys2Proof.Machine.execSynthLock act locked s
  | .ddrRetrain mr4a mr4b moved => Sys2Proof.Machine.execDdrRetrain mr4a mr4b moved s
  | .mecScrubBurst flips lapSeconds => Sys2Proof.Machine.execMecScrubBurst flips lapSeconds s
  | .seeScrubWord addr flips lapMs => Sys2Proof.Machine.execSeeScrubWord addr flips lapMs s
  | .mecWriteRaw => Sys2Proof.Machine.execMecWriteRaw s
  | .mecReadRaw => Sys2Proof.Machine.execMecReadRaw s
  | .seeWriteRaw => Sys2Proof.Machine.execSeeWriteRaw s
  | .seeReadRaw => Sys2Proof.Machine.execSeeReadRaw s
  | .jnlPortWrite poisoned failedReadBacks => Sys2Proof.Machine.execJnlPortWrite poisoned failedReadBacks s
  | .journalHwmResume => Sys2Proof.Machine.execJournalHwmResume s
  | .jnlCtrlCkpt => Sys2Proof.Machine.execJnlCtrlCkpt s
  | .checkpointDone place dirA dirB dirNand pages crc => Sys2Proof.Machine.execCheckpointDone place dirA dirB dirNand pages crc s
  | .checkpointFail step => Sys2Proof.Machine.execCheckpointFail step s
  | .jnlInit => Sys2Proof.Machine.execJnlInit s
  | .optimeTick => Sys2Proof.Machine.execOptimeTick s
  | .nfcEraseAhead erasedMib failed => Sys2Proof.Machine.execNfcEraseAhead erasedMib failed s
  | .nfcFirmwareRead page => Sys2Proof.Machine.execNfcFirmwareRead page s
  | .cpuRelease value => Sys2Proof.Machine.execCpuRelease value s
  | .cpuL2CtrlWrite value => Sys2Proof.Machine.execCpuL2CtrlWrite value s
  | .cpuL1Inv core => Sys2Proof.Machine.execCpuL1Inv core s
  | .cpuL1Enable core ien den => Sys2Proof.Machine.execCpuL1Enable core ien den s
  | .cmClean set scope => Sys2Proof.Machine.execCmClean set scope s
  | .cmInvalidate set scope => Sys2Proof.Machine.execCmInvalidate set scope s
  | .cmCleanInv set scope => Sys2Proof.Machine.execCmCleanInv set scope s
  | .cmDone set => Sys2Proof.Machine.execCmDone set s
  | .cpuL2Carve value => Sys2Proof.Machine.execCpuL2Carve value s
  | .cpuL2Lock value => Sys2Proof.Machine.execCpuL2Lock value s
  | .cpuAttrWrite window value => Sys2Proof.Machine.execCpuAttrWrite window value s
  | .coreAbort core access => Sys2Proof.Machine.execCoreAbort core access s
  | .cacheParityError place => Sys2Proof.Machine.execCacheParityError place s
  | .cpuInject value => Sys2Proof.Machine.execCpuInject value s
  | .eventHandover code items => Sys2Proof.Machine.execEventHandover code items s
  | .evrOperation failedReadBacks => Sys2Proof.Machine.execEvrOperation failedReadBacks s
  | .evrFreeze value => Sys2Proof.Machine.execEvrFreeze value s
  | .evrFreezeExpired => Sys2Proof.Machine.execEvrFreezeExpired s
  | .evrPost => Sys2Proof.Machine.execEvrPost s
  | .evrMirrorProgram timer => Sys2Proof.Machine.execEvrMirrorProgram timer s
  | .evrInjectLogfail => Sys2Proof.Machine.execEvrInjectLogfail s
  | .calTargetResult unit reference measure => Sys2Proof.Machine.execCalTargetResult unit reference measure s
  | .calLimitReached act => Sys2Proof.Machine.execCalLimitReached act s
  | .calDirectAdc act => Sys2Proof.Machine.execCalDirectAdc act s
  | .calDirectPrecompDelay act => Sys2Proof.Machine.execCalDirectPrecompDelay act s
  | .calDirectAssistDelay act => Sys2Proof.Machine.execCalDirectAssistDelay act s
  | .calDirectMaDac act => Sys2Proof.Machine.execCalDirectMaDac act s
  | .calDirectSensors => Sys2Proof.Machine.execCalDirectSensors s
  | .calDirectTemp => Sys2Proof.Machine.execCalDirectTemp s
  | .tempDrift act temp => Sys2Proof.Machine.execTempDrift act temp s
  | .bstMemoryTest selection tenthsMv clockDev => Sys2Proof.Machine.execBstMemoryTest selection tenthsMv clockDev s
  | .bstAnalogTest selection tenthsMv clockDev => Sys2Proof.Machine.execBstAnalogTest selection tenthsMv clockDev s
  | .bstSegmentDone fails => Sys2Proof.Machine.execBstSegmentDone fails s
  | .bstAbort elements fails => Sys2Proof.Machine.execBstAbort elements fails s
  | .bstYieldExpiry elements fails => Sys2Proof.Machine.execBstYieldExpiry elements fails s
  | .bstPrecondCheck tenthsMv clockDev elements fails => Sys2Proof.Machine.execBstPrecondCheck tenthsMv clockDev elements fails s
  | .bstRepairApply target => Sys2Proof.Machine.execBstRepairApply target s
  | .bstRepairClear target => Sys2Proof.Machine.execBstRepairClear target s
  | .bstFuseProgram verified => Sys2Proof.Machine.execBstFuseProgram verified s
  | .xinLost => Sys2Proof.Machine.execXinLost s
  | .xinReturn => Sys2Proof.Machine.execXinReturn s
  | .blockIdleGate page wake => Sys2Proof.Machine.execBlockIdleGate page wake s
  | .clkForceOn value => Sys2Proof.Machine.execClkForceOn value s
  | .jtagExtest => Sys2Proof.Machine.execJtagExtest s
  | .jtagSamplePreload preload => Sys2Proof.Machine.execJtagSamplePreload preload s
  | .jtagIdcode => Sys2Proof.Machine.execJtagIdcode s
  | .jtagBypass code => Sys2Proof.Machine.execJtagBypass code s
  | .jtagRegAccess addr data write => Sys2Proof.Machine.execJtagRegAccess addr data write s
  | .jtagCoreDebug => Sys2Proof.Machine.execJtagCoreDebug s
  | .jtagScan => Sys2Proof.Machine.execJtagScan s
  | .tracePacket source drained => Sys2Proof.Machine.execTracePacket source drained s
  | .dbgUartTx value => Sys2Proof.Machine.execDbgUartTx value s
  | .dbgUartRxByte byte => Sys2Proof.Machine.execDbgUartRxByte byte s
  | .dbgUartRxRead => Sys2Proof.Machine.execDbgUartRxRead s
  | .dbgUartStatusRead => Sys2Proof.Machine.execDbgUartStatusRead s
  | .temperatureThresholdCrossed temp high => Sys2Proof.Machine.execTemperatureThresholdCrossed temp high s

end Sys2Proof.Machine
end

