-- ==== Sys2Proof/Machine/Idle.lean ====
section
/-! DEFINITION. One cycle of CK_PER: what the block does while no command waits. -/

namespace Sys2Proof.Machine

open Sys2Proof

/-- DTIME counts and is compared (R107, R109), the on-time of a head whose envelope is asserted counts (R333),
and the console UART sends (R622). Nothing while the device clocks stand. -/
def Chip.cycle (c : Chip) : Chip :=
  if !c.dtm.running then c
  else
    let c := compareMatch { c with dtm := { c.dtm with dtime := c.dtm.dtime + 1 } }
    if c.parked then c else ((c.envelopeTick .A).envelopeTick .B).uartTick

/-- The step on an empty queue (DESIGN CHOICE). -/
def tick (s : State) : Host.Outcome State Fault Refusal := s.next s.chip.cycle

end Sys2Proof.Machine
end

