-- ==== Sys2Proof/Safety.lean ====
section
/-! DEFINITION. What the statements are about: the pins that follow from the state, tables in canonical form, how a
command completes, and what it leaves as it was. -/

namespace Sys2Proof.Machine

open Sys2Proof

/-- The pins stand as the state makes them (R105). -/
def State.Settled (s : State) : Prop := s.chip.pins = pinsOf s.chip

/-- Registers and memory bytes are listed in canonical form. -/
def Chip.Canonical (c : Chip) : Prop := SMap.wf regReset c.regs = true ∧ c.mem.wf = true

/-- A command completes: `exec` answers a next state, with the commands that wait unchanged, and `P` holds of the
chip. -/
def Completes (i : Instr) (s : State) (P : Chip → Prop) : Prop :=
  ∃ d, exec i s = .next { s with chip := d } ∧ P d

/-- A command completes with its own effect, of which `P` holds, after which the work that other commands wait
for and that it lets end, ends (`Chip.progress`), and the pins settle. -/
def CompletesThen (i : Instr) (s : State) (P : Chip → Prop) : Prop :=
  ∃ d, exec i s = .next { s with chip := d.progress.settle } ∧ P d

/-- Nothing waits that a command could let end: no host command, activation, shutdown, held interrupt, slot,
page-table build or step of BOOT; outside BOOT no change is due either. `Chip.progress` then does nothing. -/
structure Chip.Quiet (c : Chip) : Prop where
  inflight : c.nvq.inflight = []
  activating : c.nvq.activating = none
  shst : ∀ i, (c.nvq.cntl i).shst ≠ 1
  since : ∀ i, (c.nvq.cntl i).since = []
  slots : c.slots = []
  build : c.loc.ptBuilding = false
  step : c.atStep 12 = false
  due : c.sys.mode ≠ .boot → c.catchUp = c

/-! ### What a command leaves as it was -/

/-- The parts of the chip; its pins follow from them. -/
inductive ChipPart where
  | regs | overrides | sys | fuses | lcs | uart | dtm | evr | mram | jnl | nvq | loc | bcl | sec | seg | nand
  | nfc | osp | mem | pwr | assistCycles | assistSaved | cleA | cleB | slots | chanA | chanB | chd | links
  | logA | logB | att | cpu | corr | cal | bst | dbg | out | freeCtr
  deriving DecidableEq, Repr

/-- A part of two chips is the same. -/
def ChipPart.Same (c d : Chip) : ChipPart → Prop
  | .regs => d.regs = c.regs
  | .overrides => d.overrides = c.overrides
  | .sys => d.sys = c.sys
  | .fuses => d.fuses = c.fuses
  | .lcs => d.lcs = c.lcs
  | .uart => d.uart = c.uart
  | .dtm => d.dtm = c.dtm
  | .evr => d.evr = c.evr
  | .mram => d.mram = c.mram
  | .jnl => d.jnl = c.jnl
  | .nvq => d.nvq = c.nvq
  | .loc => d.loc = c.loc
  | .bcl => d.bcl = c.bcl
  | .sec => d.sec = c.sec
  | .seg => d.seg = c.seg
  | .nand => d.nand = c.nand
  | .nfc => d.nfc = c.nfc
  | .osp => d.osp = c.osp
  | .mem => d.mem = c.mem
  | .pwr => d.pwr = c.pwr
  | .assistCycles => d.assistCycles = c.assistCycles
  | .assistSaved => d.assistSaved = c.assistSaved
  | .cleA => d.cleA = c.cleA
  | .cleB => d.cleB = c.cleB
  | .slots => d.slots = c.slots
  | .chanA => d.chanA = c.chanA
  | .chanB => d.chanB = c.chanB
  | .chd => d.chd = c.chd
  | .links => d.links = c.links
  | .logA => d.logA = c.logA
  | .logB => d.logB = c.logB
  | .att => d.att = c.att
  | .cpu => d.cpu = c.cpu
  | .corr => d.corr = c.corr
  | .cal => d.cal = c.cal
  | .bst => d.bst = c.bst
  | .dbg => d.dbg = c.dbg
  | .out => d.out = c.out
  | .freeCtr => d.freeCtr = c.freeCtr

/-- Every part of the chip is as before but for those listed. -/
def Keeps (changed : List ChipPart) (c d : Chip) : Prop := ∀ p, p ∉ changed → p.Same c d

/-- Every register but those listed reads as before. -/
def OnlyRegs (ks : List Nat) (c d : Chip) : Prop := ∀ k, k ∉ ks → d.reg k = c.reg k

/-- Every register reads as before, but for those of the pages named. -/
def SameRegs (pages : List Nat) (c d : Chip) : Prop := ∀ k, k / 4096 ∉ pages → d.reg k = c.reg k

/-- Every byte of memory and every stored check reads as before. -/
def SameMem (c d : Chip) : Prop :=
  (∀ a, d.mem.byte a = c.mem.byte a) ∧ (∀ a, d.mem.syndAt a = c.mem.syndAt a)

/-- The parts a journal commit may change. -/
def commitParts : List ChipPart :=
  [.regs, .evr, .mram, .jnl, .nvq, .loc, .bcl, .sec, .seg, .nand, .nfc, .pwr, .out, .freeCtr]

/-- The parts that media work on the channels may change. -/
def mediaParts : List ChipPart := commitParts ++ [.mem, .slots, .chanA, .chanB, .logA, .logB, .cpu]

/-- The parts a servo sample may change: the media work it governs, the engines, Chord and calibration. -/
def sampleParts : List ChipPart := mediaParts ++ [.overrides, .sys, .cleA, .cleB, .chd, .cal, .links]

/-- Only some registers change: no part but the registers and the gated clocks, and of the registers those
listed. -/
def RegsOnly (ks : List Nat) (c d : Chip) : Prop := Keeps [.regs, .pwr] c d ∧ OnlyRegs ks c d

/-- The command changes nothing but the pins that follow from the state. -/
def Still (c d : Chip) : Prop := d = c.settle

/-- The registers an event changes where the recorder's queue is full (R526). -/
def dropRegs : List Nat := [R.EVR_DROPPED, pIntStatus 4]

end Sys2Proof.Machine
end

