-- ==== Sys2Proof/Certificates/Slice0/Obligations.lean ====
section
/-! DEFINITION. The statements for the provers, family by family. -/

open Sys2Proof Sys2Proof.Machine

/-- For every command c, every queue rest and every state s: a step of s with c in front of rest is exec of c
on s with the queue rest. -/
def Obligations.StepRunsTheFrontCommand : Prop :=
  ∀ (c : Instr) (rest : List Instr) (s : State),
    step { s with pending := c :: rest } = exec c { s with pending := rest }

/-- The model's choice (log entry 2): a step on an empty queue is one cycle of CK_PER. While the device clocks
run, DTIME counts one (R107); of the registers only INT_STATUS of DTM and DBG may change, and beside these
only the parts that a cycle can move: device time, the on-time counts with their MRAM slots, the clock gates,
the debug block and what is sent out. While the clocks stand nothing changes but the pins that follow from the
state. -/
def Obligations.IdleStepCountsDeviceTime : Prop :=
  (∀ s : State, s.pending = [] → s.chip.dtm.running = true →
    ∃ d, step s = .next { s with chip := d } ∧ d.dtm.dtime = s.chip.dtm.dtime + 1 ∧
      OnlyRegs [pIntStatus 0x08, pIntStatus 0x58] s.chip d ∧
      Keeps [.regs, .dtm, .mram, .pwr, .assistCycles, .assistSaved, .dbg, .out] s.chip d) ∧
  (∀ s : State, s.pending = [] → s.chip.dtm.running = false →
    ∃ d, step s = .next { s with chip := d } ∧ Still s.chip d)

/-- For every command and every state, exec answers a next state, never a fault or a refusal, and the queue of
waiting commands is as before: no command of the table stops the block. -/
def Obligations.EveryCommandEndsInANextState : Prop :=
  ∀ (i : Instr) (s : State), Completes i s (fun _ => True)

/-- Whatever the state, if a step answers a next state then in it ALERT_N is low exactly while a bit of
SYS_ALERT is 1 (R76), RETRACT_N is low exactly while MLK_CTRL.RETRACT is 1 or the mode is HOLDUP (R420), and
interrupt lines 0 to 63 are those of the pages' summaries and the software interrupts (R104, R105). -/
def Obligations.EveryStepSettlesThePins : Prop :=
  ∀ s s' : State, step s = .next s' →
    s'.Settled ∧
    (s'.chip.pins.alertN = true ↔ s'.chip.reg R.SYS_ALERT = 0) ∧
    (s'.chip.pins.retractN = true ↔ s'.chip.bit R.MLK_CTRL 0 = false ∧ s'.chip.sys.mode ≠ .holdup) ∧
    s'.chip.pins.lines = s'.chip.lines

/-- In the state after reset the mode is BOOT and BOOT has not begun, SYS_RESET_CAUSE holds POR alone (R75),
every other register reads its reset value, memory lists no byte, the pins follow from the state, the tables
are in canonical form and the queue is empty. -/
def Obligations.ResetStateHoldsTheStatedValues : Prop :=
  State.reset.pending = [] ∧ State.reset.chip.sys.mode = .boot ∧ State.reset.chip.sys.booting = false ∧
  State.reset.chip.reg R.SYS_RESET_CAUSE = 1 ∧
  (∀ k, k ≠ R.SYS_RESET_CAUSE → State.reset.chip.reg k = regReset k) ∧
  State.reset.chip.mem.bytes = [] ∧ State.reset.Settled ∧ State.reset.chip.Canonical

/-- In every state POWER_ON_RESET clears SYS_RESET_CAUSE and sets POR, returns every other register to its
reset value and every part that is not kept to what it is after reset, with the mode BOOT. Fuses, journal
MRAM, NAND, the actuators' logs and what has been sent out stay. Of the journal's part the counts and the
place of the next history record stay, and of the queue's the firmware slots' versions and the slot that runs:
they follow from the MRAM and the NOR (log entry 9). -/
def Obligations.PowerOnResetKeepsOnlyWhatIsNotVolatile : Prop :=
  ∀ s : State, Completes .powerOnReset s (fun d =>
    d.reg R.SYS_RESET_CAUSE = 1 ∧ (∀ k, k ≠ R.SYS_RESET_CAUSE → d.reg k = regReset k) ∧
    d.sys.mode = .boot ∧ d.fuses = s.chip.fuses ∧ d.mram = s.chip.mram ∧ d.nand = s.chip.nand ∧
    d.logA = s.chip.logA ∧ d.logB = s.chip.logB ∧ d.out = s.chip.out ∧
    d.jnl = { histSlot := s.chip.jnl.histSlot, histSeq := s.chip.jnl.histSeq, optime := s.chip.jnl.optime,
              pcc := s.chip.jnl.pcc, unsafeCount := s.chip.jnl.unsafeCount } ∧
    d.nvq = { fwSlot1 := s.chip.nvq.fwSlot1, fwSlot2 := s.chip.nvq.fwSlot2, fwRunning := s.chip.nvq.fwRunning } ∧
    Keeps [.regs, .fuses, .mram, .nand, .logA, .logB, .jnl, .nvq, .out, .freeCtr] State.reset.chip d)

/-- HOLDUP_RESTART with all three conditions of R629 in a parked chip: the mode is BOOT, every register
outside the always-on domain is at its reset value but LOC_HOT_CFG, which has the hot map's size asked for in
both its fields (the model's choice, log entry 170), SYS_ALERT and the always-on event words stay, and
SYS_RESET_CAUSE keeps its bits, with SAVED set where the save was made and HOLDUP_RESTART set where a supply
event began the HOLDUP (R42, R75, R76). Fuses, MRAM, NAND and the attached chips stay. With a condition
missing the system state stays, and only the sense of PWRFAIL_N may change. -/
def Obligations.ParkedChipRestartsWhenAllConditionsHold : Prop :=
  (∀ (s : State) (h : Holdup), s.chip.sys.holdup = some h → h.parked = true →
    Completes (.holdupRestart true true true) s (fun d =>
      d.sys.mode = .boot ∧ d.sys.holdup = none ∧
      (∀ k, k ∉ aonKeys → k ≠ R.LOC_HOT_CFG → d.reg k = regReset k) ∧
      d.reg R.LOC_HOT_CFG = BitVec.ofNat 32 (s.chip.fld R.LOC_HOT_CFG 4 0 * (1 + 2 ^ 16)) ∧
      (∀ k ∈ aonKeys, k ≠ R.SYS_RESET_CAUSE → d.reg k = s.chip.reg k) ∧
      d.bit R.SYS_RESET_CAUSE 8 = (s.chip.bit R.SYS_RESET_CAUSE 8 || h.saved) ∧
      d.bit R.SYS_RESET_CAUSE 4 = (s.chip.bit R.SYS_RESET_CAUSE 4 || decide (h.cause = .supply)) ∧
      (∀ n, n ≠ 4 → n ≠ 8 → d.bit R.SYS_RESET_CAUSE n = s.chip.bit R.SYS_RESET_CAUSE n) ∧
      d.fuses = s.chip.fuses ∧ d.mram = s.chip.mram ∧ d.nand = s.chip.nand ∧
      d.att = s.chip.att ∧
      Keeps [.regs, .fuses, .mram, .nand, .logA, .logB, .jnl, .nvq, .att, .bst, .out, .freeCtr] State.reset.chip d)) ∧
  (∀ (s : State) (a b e : Bool), (a && b && e) = false →
    Completes (.holdupRestart a b e) s (fun d => d.sys = s.chip.sys ∧ Keeps [.links] s.chip d))

/-- In a chip whose BOOT has begun and that is not in HOLDUP: a fall of PWRFAIL_N, SYS_RESET_N low, expiry of
the enabled watchdog once its timeout has passed without a kick, and a write of 0x0000_A5A5 to SYS_SWRESET
while the chip runs each begin HOLDUP. The mode is HOLDUP, a transition is discarded, a checkpoint and an open
journal operation stop, the journal port closes and the event recorder stops; the reset sources set bits 1, 2
and 3 of SYS_RESET_CAUSE. Device time, the retirement state, the correction values, the debug ports and both
actuators' logs stay, and so do the registers of the DTM and DBG pages. -/
def Obligations.EveryResetSourceButPowerOnBeginsHoldup : Prop :=
  ∀ s : State, s.chip.sys.booting = true → s.chip.sys.holdup = none →
    let begun (cause : HoldupCause) (d : Chip) : Prop :=
      d.sys.mode = .holdup ∧ d.sys.trans = none ∧ d.sys.reqBusy = false ∧
      (∃ due, d.sys.holdup = some ⟨cause, s.chip.sys.mode == .boot, due, false, false⟩ ∧ d.nfc.saving = due) ∧
      d.evr.stopped = true ∧ d.jnl.closed = true ∧ d.jnl.ckpt = none ∧ d.jnl.openOp = none ∧
      (∀ k, k / 4096 ∈ [0x08, 0x58] → d.reg k = s.chip.reg k) ∧
      Keeps [.regs, .sys, .fuses, .lcs, .evr, .mram, .jnl, .nvq, .loc, .bcl, .sec, .seg, .nand, .nfc, .osp, .mem,
        .pwr, .assistSaved, .cleA, .cleB, .chanA, .chanB, .links, .cpu, .cal, .bst, .out, .freeCtr] s.chip d
    Completes .pwrfail s (fun d => begun .supply d ∧ d.links.pwrfailLow = true) ∧
    Completes .sysResetNLow s (fun d => begun .pin d ∧ d.bit R.SYS_RESET_CAUSE 1 = true) ∧
    (s.chip.bit R.SYS_WDOG_CTRL 31 = true → s.chip.sys.wdogFrom.toNat + s.chip.wdogTime ≤ s.chip.dtm.dtime.toNat →
      Completes .watchdogExpiry s (fun d => begun .wdog d ∧ d.bit R.SYS_RESET_CAUSE 2 = true)) ∧
    (s.chip.alive = true →
      Completes (.sysSwreset 0x0000A5A5#32) s (fun d => begun .swreset d ∧ d.bit R.SYS_RESET_CAUSE 3 = true))

/-- A write to SYS_SWRESET of any value other than 0x0000_A5A5 changes nothing. In HOLDUP, SYS_RESET_N low,
expiry of the enabled watchdog and a software reset each set their bit of SYS_RESET_CAUSE and change nothing
else. -/
def Obligations.SecondResetSourceOnlyLeavesItsCause : Prop :=
  (∀ (s : State) (v : Word), v ≠ 0x0000A5A5#32 → Completes (.sysSwreset v) s (Still s.chip)) ∧
  (∀ (s : State) (h : Holdup), s.chip.sys.booting = true → s.chip.sys.holdup = some h →
    let recorded (n : Nat) (d : Chip) : Prop :=
      d.bit R.SYS_RESET_CAUSE n = true ∧
      (∀ m, m ≠ n → d.bit R.SYS_RESET_CAUSE m = s.chip.bit R.SYS_RESET_CAUSE m) ∧
      OnlyRegs [R.SYS_RESET_CAUSE] s.chip d ∧ Keeps [.regs] s.chip d
    Completes .sysResetNLow s (recorded 1) ∧
    (s.chip.bit R.SYS_WDOG_CTRL 31 = true → s.chip.sys.wdogFrom.toNat + s.chip.wdogTime ≤ s.chip.dtm.dtime.toNat →
      Completes .watchdogExpiry s (recorded 2)) ∧
    (s.chip.alive = true → Completes (.sysSwreset 0x0000A5A5#32) s (recorded 3)))

/-- A write of 0x0000_5AA5 to SYS_WDOG_KICK by a running chip restarts the watchdog timeout at the present
DTIME and changes nothing else; any other value has no effect (R45). A write of 1 to SYS_BOOT_OK writes the
boot record anew with attempt count 0, with the same slot, LAST_FAIL and version and the present power cycle
(R49, R470), while the journal takes records; it changes the MRAM alone. Without the bit nothing but a
reserved-bit report on the SYS page changes. RAIL_MEASURE with the device clocks running records, for each
rail measured, whether the value lies between Min and Max in its PWR_RAILS bit (R593, R590); where VDD_CORE
and VDD_AN are not below Min it begins no HOLDUP and changes only the PWR page's registers and the measured
values. PE_PERST of a running chip that is not in HOLDUP, named by a port that exists, acts on every port that
exists, since one ball serves them (R599): it takes the link down, sets INT_STATUS.PERST and resets the
controller: its commands are discarded, its queues are deleted and CSTS.RDY is 0 (R42, R132). -/
def Obligations.SupervisionKicksRailsAndPerst : Prop :=
  (∀ s : State, s.chip.alive = true → Completes (.sysWdogKick 0x00005AA5#32) s (fun d =>
    d.sys.wdogFrom = s.chip.dtm.dtime ∧ d.sys = { s.chip.sys with wdogFrom := s.chip.dtm.dtime } ∧
    Keeps [.sys] s.chip d)) ∧
  (∀ (s : State) (v : Word), v ≠ 0x00005AA5#32 → Completes (.sysWdogKick v) s (Still s.chip)) ∧
  (∀ s : State, s.chip.alive = true → s.chip.jnl.failed = false → s.chip.jnl.closed = false →
    Completes (.sysBootOk 1) s (fun d =>
      d.mram = (s.chip.writeGroup (bootGroup 0) 0x70 [(8, 1, s.chip.activeSlot), (9, 1, 0),
        (10, 1, s.chip.bootField 10 1), (12, 4, s.chip.bootField 12 4), (16, 3, s.chip.jnl.pcc)]).mram ∧
      Keeps [.mram] s.chip d)) ∧
  (∀ (s : State) (v : Word), s.chip.alive = true → v.getLsbD 0 = false → Completes (.sysBootOk v) s (fun d =>
    OnlyRegs [pFault 0x00, pIntStatus 0x00] s.chip d ∧ Keeps [.regs, .pwr] s.chip d)) ∧
  (∀ (s : State) (mv : List Nat), s.chip.dtm.running = true → mv.length = 11 →
    (∀ n ∈ [1, 6], (railLimits.getD n (0, 0)).1 ≤ mv.getD n 0) →
    Completes (.railMeasure mv) s (fun d =>
      (∀ n < 11, d.bit R.PWR_RAILS n =
        (decide ((railLimits.getD n (0, 0)).1 ≤ mv.getD n 0) && decide (mv.getD n 0 ≤ (railLimits.getD n (0, 0)).2))) ∧
      d.sys = { s.chip.sys with railLow := false } ∧
      OnlyRegs [R.PWR_RAILS, R.PWR_UV_CNT, pIntStatus 0x02] s.chip d ∧ Keeps [.regs, .sys, .pwr] s.chip d)) ∧
  (∀ (s : State) (port : Fin 2), s.chip.alive = true → s.chip.inHoldup = false → s.chip.portHere port = true →
    CompletesThen (.pePerst port) s (fun d =>
      (∀ p : Fin 2, s.chip.portHere p = true →
        d.reg (linkReg p) = 0 ∧ (d.nvq.cntl p).rdy = false ∧ (∀ q ∈ d.nvq.sqs, q.cntl ≠ p) ∧
        (∀ q ∈ d.nvq.cqs, q.cntl ≠ p) ∧ (∀ x ∈ d.nvq.inflight, x.cntl ≠ p)) ∧
      d.bit (pIntStatus 0x10) 1 = true ∧
      OnlyRegs [R.HIF_LINK0, R.HIF_LINK1, pIntStatus 0x10] s.chip d ∧ Keeps [.regs, .mram, .nvq, .loc, .pwr] s.chip d))

/-- NAND_SAVE_DATA_DONE in a HOLDUP whose save is due and whose trailer reads back good records the save: the
sequence is marked saved, the next set's number counts one, the staging is no longer being saved and
NFC_LAST_SAVE takes the duration and the size, INT_STATUS.SAVE_DONE is set (R474, R485). CHIP_PARK parks the
chip and NFC once the save is complete or was omitted, and changes nothing else; while a save is due and not
complete it changes nothing. NAND_PROGRAM_FAIL before the chip is parked counts in NFC_PROG_FAIL and, while
the journal port is open and the list has room, adds the block to the bad-block list (R479, R466); with the
port closed the list stays. A chip that is not in HOLDUP is unchanged by all three. -/
def Obligations.HoldupSavesThenParks : Prop :=
  (∀ (s : State) (h : Holdup) (page dur : Nat), s.chip.sys.holdup = some h → h.saveDue = true → h.saved = false →
    h.parked = false → Completes (.nandSaveDataDone page dur true) s (fun d =>
      d.sys = { s.chip.sys with holdup := some { h with saved := true } } ∧ d.nfc.saving = false ∧
      d.nand.nextSet = (s.chip.nand.nextSet + 1) % 2 ^ 32 ∧
      d.bit (pIntStatus 0x48) 0 = true ∧
      d.reg R.NFC_LAST_SAVE = BitVec.ofNat 32
        (min dur 0xFFFF + min ((s.chip.nvq.staging.length + 15) / 16) 0x1FF * 65536) ∧
      Keeps [.regs, .sys, .mram, .jnl, .nvq, .loc, .bcl, .sec, .seg, .nand, .nfc, .pwr, .out, .freeCtr] s.chip d)) ∧
  (∀ (s : State) (h : Holdup), s.chip.sys.holdup = some h → (h.saveDue = false ∨ h.saved = true) →
    Completes .chipPark s (fun d =>
      d.sys = { s.chip.sys with holdup := some { h with parked := true } } ∧
      d.nfc = { s.chip.nfc with parked := true } ∧ Keeps [.sys, .nfc] s.chip d)) ∧
  (∀ (s : State) (h : Holdup), s.chip.sys.holdup = some h → h.saveDue = true → h.saved = false →
    Completes .chipPark s (Still s.chip)) ∧
  (∀ (s : State) (h : Holdup) (die block : Nat), s.chip.sys.holdup = some h → h.parked = false →
    Completes (.nandProgramFail die block) s (fun d =>
      d.reg R.NFC_PROG_FAIL = BitVec.ofNat 32 (min ((s.chip.reg R.NFC_PROG_FAIL).toNat + 1) 0xFFFFFFFF) ∧
      (s.chip.jnl.closed = true → d.nand = s.chip.nand) ∧
      (s.chip.jnl.closed = false → s.chip.nand.badBlocks.length < 56 →
        d.nand.badBlocks = s.chip.nand.badBlocks ++ [block % 2 ^ 24 + die % 4 * 2 ^ 24]) ∧
      OnlyRegs [R.NFC_PROG_FAIL, pIntStatus 0x48] s.chip d ∧ Keeps [.regs, .mram, .nand, .nfc, .pwr] s.chip d)) ∧
  (∀ s : State, s.chip.sys.holdup = none →
    Completes .chipPark s (Still s.chip) ∧
    (∀ page dur b, Completes (.nandSaveDataDone page dur b) s (Still s.chip)) ∧
    (∀ die block, Completes (.nandProgramFail die block) s (Still s.chip)))

/-- BOOT_START before BOOT has begun completes step 1 and changes nothing else but the record that BOOT has
begun; afterwards it changes nothing. PLL_LOCKED after step 1 starts the clocks with DTIME 0, sets LOCK of the
root PLL, reads the life-cycle state and the tier from the fuses, samples CFG0 to CFG2 into SYS_STRAP with
INVALID as R56 has it, puts the host port and maximum rate of R55 into HIF_PORT, draws a new nonce (the value
is free) and completes step 4. Memory, MRAM, NAND, the map, the queues and the logs stay, and so does every
register but these and the repair-fuse status. PLL_LOCKED is one row for steps 2 to 4 (log entry 20).
POWER_ON_PROFILE_DONE after step 4 completes step 5 with BST_POST.DONE set and SKIPPED as given; with no
failure nothing else of the chip changes. DDR_TRAINING_DONE after step 5 with a size completes step 6, with
the size in DDR_CFG and TRAINED set; a failure sets TRAIN_FAIL and SYS_ALERT.BOOT_FAIL, makes CSTS.CFS 1 for
both controllers and leaves the step at 5. MEMORY_FILL_DONE after step 6 writes zeros with good check bits to
every word it fills and records it; the last of the three completes step 8 and releases application core 0 and
no other (R430, R436, R46). -/
def Obligations.BootStartsLocksTestsTrainsAndFills : Prop :=
  (∀ s : State, s.chip.sys.booting = false → Completes .bootStart s (fun d =>
    d.sys = { s.chip.sys with booting := true } ∧ d.reg R.SYS_BOOT_STEP = 1 ∧
    OnlyRegs [R.SYS_BOOT_STEP] s.chip d ∧ Keeps [.regs, .sys] s.chip d)) ∧
  (∀ s : State, s.chip.sys.booting = true → Completes .bootStart s (Still s.chip)) ∧
  (∀ (s : State) (f : FuseImage) (cfg : Fin 8) (testEn : Bool), s.chip.atStep 1 = true →
    Completes (.pllLocked f cfg testEn) s (fun d =>
      d.dtm.running = true ∧ d.dtm.dtime = 0 ∧ d.bit R.CLK_STATUS 0 = true ∧ d.reg R.SYS_BOOT_STEP = 4 ∧
      d.lcs.fused = s.chip.fuses.life ∧ d.lcs.tierS = f.tierS ∧ d.fuses.life = s.chip.fuses.life ∧
      d.lcs.nonce = Config.random 64 s.chip.freeCtr ∧
      d.reg R.SYS_STRAP = BitVec.ofNat 32 (cfg.val + 8 * b2n (decide (5 ≤ cfg.val) ||
        (cfg.val == 4 && s.chip.fuses.life != .blank && s.chip.fuses.life != .manufacture))) ∧
      d.reg R.HIF_PORT = BitVec.ofNat 32
        ((if cfg = 1 ∨ cfg = 3 then 1 else 0) + 2 * (if cfg = 2 ∨ cfg = 3 then 4 else 5)) ∧
      OnlyRegs [R.CLK_STATUS, R.SYS_STRAP, R.HIF_PORT, R.BST_FUSE_STATUS, R.SYS_BOOT_STEP] s.chip d ∧
      Keeps [.regs, .sys, .fuses, .lcs, .dtm, .bst, .dbg, .freeCtr] s.chip d)) ∧
  (∀ (s : State) (skipped : Bool), s.chip.atStep 4 = true →
    Completes (.powerOnProfileDone skipped [] []) s (fun d =>
      d.reg R.SYS_BOOT_STEP = 5 ∧ d.reg R.BST_POST = BitVec.ofNat 32 (1 + 16 * b2n skipped) ∧
      OnlyRegs [R.SYS_BOOT_STEP, R.BST_POST] s.chip d ∧ Keeps [.regs] s.chip d)) ∧
  (∀ (s : State) (skipped : Bool) (fails : List PostFail) (analog : List Nat), s.chip.atStep 4 = true →
    Completes (.powerOnProfileDone skipped fails analog) s (fun d =>
      d.reg R.SYS_BOOT_STEP = 5 ∧ d.bit R.BST_POST 0 = true ∧ d.bit R.BST_POST 4 = skipped ∧
      Keeps [.regs, .pwr, .evr, .bst] s.chip d)) ∧
  (∀ (s : State) (n : Fin 3), s.chip.atStep 5 = true → n ≠ 0 →
    Completes (.ddrTrainingDone (.trained n)) s (fun d =>
      d.mem = { s.chip.mem with size := n.val } ∧ d.fld R.DDR_CFG 1 0 = n.val ∧ d.bit R.DDR_STATUS 0 = true ∧
      d.reg R.SYS_BOOT_STEP = 6 ∧ OnlyRegs [R.DDR_CFG, R.DDR_STATUS, R.SYS_BOOT_STEP] s.chip d ∧
      Keeps [.regs, .mem] s.chip d)) ∧
  (∀ (s : State) (t : Training), s.chip.atStep 5 = true → (t = .densityMismatch ∨ t = .failed) →
    Completes (.ddrTrainingDone t) s (fun d =>
      d.mem = { s.chip.mem with trainFail := true } ∧ d.sys = { s.chip.sys with bootFailed := true } ∧
      d.bit R.DDR_STATUS 2 = true ∧ d.bit R.SYS_ALERT 1 = true ∧ d.pins.alertN = false ∧
      d.nvq.c1.cfs = true ∧ d.nvq.c2.cfs = true ∧ d.reg R.SYS_BOOT_STEP = s.chip.reg R.SYS_BOOT_STEP ∧
      OnlyRegs [R.DDR_STATUS, R.SYS_ALERT] s.chip d ∧ Keeps [.regs, .sys, .mem, .mram, .jnl, .nvq] s.chip d)) ∧
  (∀ (s : State) (m : FillMem), s.chip.atStep 6 = true → Completes (.memoryFillDone m) s (fun d =>
    d.mem = { s.chip.mem.fill m with
      filledDram := s.chip.mem.filledDram || decide (m = .dram)
      filledSram := s.chip.mem.filledSram || decide (m = .sram)
      filledL2 := s.chip.mem.filledL2 || decide (m = .l2) } ∧
    ((d.mem.filledDram && d.mem.filledSram && d.mem.filledL2) = true →
      d.reg R.SYS_BOOT_STEP = 8 ∧ d.bit R.CPU_RELEASE 0 = true ∧
      (∀ n, n ≠ 0 → d.bit R.CPU_RELEASE n = s.chip.bit R.CPU_RELEASE n)) ∧
    ((d.mem.filledDram && d.mem.filledSram && d.mem.filledL2) = false →
      d.reg R.SYS_BOOT_STEP = s.chip.reg R.SYS_BOOT_STEP ∧ d.reg R.CPU_RELEASE = s.chip.reg R.CPU_RELEASE) ∧
    OnlyRegs [R.MEC_FILL, R.SEE_FILL, R.CPU_RELEASE, R.SYS_BOOT_STEP] s.chip d ∧
    Keeps [.regs, .mem, .cpu] s.chip d))

/-- FIRMWARE_IMAGE_LOADED after step 8 of a boot from the octal NOR checks the slots' bytes by the steps of
R59 (a BLANK part accepts none, R66): if the slot to try first (R49) passes it is entered, else the other slot
if that one does: the watchdog is enabled with 5,000 ms, the running slot is named and step 9 is complete. If
the device is missing or both slots fail, SYS_BOOT_STEP is 0xF, SYS_ALERT.BOOT_FAIL is set so that ALERT_N is
low, CSTS.CFS is 1 for both controllers and the mode does not change. Beside what reading the bodies into DRAM
changes (R60), only SYS_WDOG_CTRL, SYS_BOOT_STEP, SYS_ALERT and OSP_MODE change among the registers. In a UART
boot nothing but OSP_MODE changes. -/
def Obligations.BootEntersFirmwareOrReportsFailure : Prop :=
  (∀ (s : State) (s1 s2 : SlotImage) (nor : Fin 3) (log2 : Nat), s.chip.atStep 8 = true → s.chip.uartBoot = true →
    Completes (.firmwareImageLoaded s1 s2 nor log2) s (fun d =>
      d.reg R.OSP_MODE = BitVec.ofNat 32 (nor.val + log2 % 256 * 256) ∧
      OnlyRegs [R.OSP_MODE] s.chip d ∧ Keeps [.regs] s.chip d)) ∧
  ∀ (s : State) (s1 s2 : SlotImage) (nor : Fin 3) (log2 : Nat), s.chip.atStep 8 = true → s.chip.uartBoot = false →
    let slot (n : Nat) : SlotImage := if n = 1 then s1 else s2
    let passes (n : Nat) : Prop := s.chip.slotStep (slot n) = 0
    let first := s.chip.firstSlot.1
    let once := s.chip.loadSlot (slot first)
    let twice := once.loadSlot (slot (3 - first))
    let frame (c d : Chip) : Prop :=
      OnlyRegs [R.OSP_MODE, R.SYS_WDOG_CTRL, R.SYS_BOOT_STEP, R.SYS_ALERT] c d ∧
      Keeps [.regs, .sys, .mram, .jnl, .nvq] c d
    let entered (n : Nat) (c d : Chip) : Prop :=
      d.reg R.SYS_BOOT_STEP = 9 ∧ d.nvq.fwRunning = n ∧ d.sys = { s.chip.sys with wdogFrom := s.chip.dtm.dtime } ∧
      d.bit R.SYS_WDOG_CTRL 31 = true ∧ d.fld R.SYS_WDOG_CTRL 15 0 = 4999 ∧ frame c d
    (nor ≠ 0 → passes first →
      Completes (.firmwareImageLoaded s1 s2 nor log2) s (entered first once)) ∧
    (nor ≠ 0 → ¬passes first → passes (3 - first) →
      Completes (.firmwareImageLoaded s1 s2 nor log2) s (entered (3 - first) twice)) ∧
    (nor = 0 ∨ (¬passes 1 ∧ ¬passes 2) →
      Completes (.firmwareImageLoaded s1 s2 nor log2) s (fun d =>
        d.reg R.SYS_BOOT_STEP = 0xF ∧ d.bit R.SYS_ALERT 1 = true ∧ d.pins.alertN = false ∧
        d.nvq.c1.cfs = true ∧ d.nvq.c2.cfs = true ∧ d.sys = { s.chip.sys with bootFailed := true } ∧
        frame (if nor = 0 then s.chip else twice) d))

/-- JOURNAL_REPLAY after step 10 of a part that is not BLANK completes step 11: bit 31 of JNL_REPLAY is set,
the event recorder has started and the power-cycle count is marked committed (R462, R463, R534).
SAVE_SET_RESTORE after step 11 completes step 12: the units of the latest valid set return to staging in their
number, RESTORE_DONE is raised and the set waits to be retired; without a valid set nothing but NFC_GEOM and
the step changes (R484). SAVE_RETIRE once no restored or saved unit is staged commits the retirement (R484).
MAP_LOAD after step 13 completes step 14, the mode is no longer BOOT, and CSTS.RDY rises for each enabled
controller that reports no fatal status (R41); a checkpoint that fails its checks, a failed record of the
journal or FORCE leads to REBUILD (R51, R203). -/
def Obligations.BootReplaysRestoresAndLoadsTheMap : Prop :=
  (∀ s : State, s.chip.atStep 10 = true → s.chip.sys.blankBoot = false →
    Completes .journalReplay s (fun d =>
      d.reg R.SYS_BOOT_STEP = 11 ∧ d.bit R.JNL_REPLAY 31 = true ∧ d.evr.started = true ∧
      d.sys = { s.chip.sys with pccCommitted := true } ∧
      OnlyRegs ([R.SYS_BOOT_STEP, R.JNL_REPLAY, R.SEC_STATUS, pIntStatus 0x05] ++ dropRegs) s.chip d ∧
      Keeps [.regs, .sys, .evr, .mram, .jnl, .nand, .pwr, .assistCycles, .assistSaved, .chd] s.chip d)) ∧
  (∀ (s : State) (geom : Word) (bad : List (Nat × Nat × Nat)), s.chip.atStep 11 = true →
    Completes (.saveSetRestore geom bad) s (fun d =>
      d.reg R.SYS_BOOT_STEP = 12 ∧
      d.reg R.NFC_GEOM = geom &&& definedMask [⟨2, 0, .ro⟩, ⟨11, 8, .ro⟩, ⟨27, 16, .ro⟩] ∧
      (∀ set, s.chip.nand.validSet = some set →
        d.nvq.staging.length = set.units.length ∧ (∀ u ∈ d.nvq.staging, u.restored = true ∧ u.media = []) ∧
        d.nfc.restoredSet = some set.set ∧ d.bit (pIntStatus 0x48) 1 = true) ∧
      (s.chip.nand.validSet = none → OnlyRegs [R.SYS_BOOT_STEP, R.NFC_GEOM] s.chip d ∧ Keeps [.regs] s.chip d) ∧
      OnlyRegs ([R.SYS_BOOT_STEP, R.NFC_GEOM, pIntStatus 0x48] ++ dropRegs) s.chip d ∧
      Keeps [.regs, .pwr, .evr, .nvq, .loc, .nfc] s.chip d)) ∧
  (∀ (s : State) (n : Nat), s.chip.nfc.restoredSet = some n → s.chip.alive = true → s.chip.inHoldup = false →
    (∀ u ∈ s.chip.nvq.staging, u.restored = false ∧ s.chip.nfc.savedOrder ≤ u.order) →
    Completes .saveRetire s (fun d =>
      d = (({ s.chip with nfc := { s.chip.nfc with restoredSet := none } }).commit .nfc [.saveRetire n] []).settle ∧
      Keeps [.regs, .mram, .jnl, .nvq, .loc, .bcl, .sec, .seg, .nand, .nfc, .pwr, .out, .freeCtr] s.chip d)) ∧
  (∀ (s : State) (m : MapImage), s.chip.atStep 13 = true → CompletesThen (.mapLoad m) s (fun d =>
    d.reg R.SYS_BOOT_STEP = 14 ∧ d.sys.mode ≠ .boot ∧
    d.nvq.c1.rdy = (s.chip.nvq.c1.en && !s.chip.nvq.c1.cfs) ∧
    d.nvq.c2.rdy = (s.chip.nvq.c2.en && !s.chip.nvq.c2.cfs) ∧
    (m.valid = false → s.chip.fld R.JNL_REPLAY 30 28 ≠ 1 → d.fld R.JNL_REPLAY 30 28 = 2) ∧
    (m.valid = false ∨ s.chip.fld R.JNL_REPLAY 30 28 = 1 ∨ s.chip.bit R.SYS_REBUILD_POLICY 8 = true →
      d.sys.mode = .rebuild) ∧
    Keeps [.regs, .sys, .evr, .mram, .jnl, .nvq, .loc, .bcl, .sec, .seg, .nand, .nfc, .pwr, .slots, .cal, .out,
      .freeCtr] s.chip d))

/-- At step 8 of a UART boot, before the first packet start the sync byte 0x55 is sent and after it no more; a
packet that breaks off is answered NAK 6. A packet of the row's TYPE with its CRC right: HEADER is answered
ACK and starts a load of no bytes where steps 1 to 4 of R59 pass, NAK 5 where the signature fails and NAK 4
where an earlier step does; DATA is answered ACK and counted where a header is held, OFFSET follows and the
body ends within IMAGE_LEN, NAK 3 otherwise; RUN with the whole body received and its digest right is answered
ACK and enters the image with the watchdog enabled, with part of the body NAK 5, and without an accepted
HEADER NAK 3. A refused TYPE or LEN is NAK 2, a wrong CRC NAK 1. HEADER changes nothing else of the chip, DATA
only memory and what its checks report. -/
def Obligations.UartDownloadAnswersEveryPacket : Prop :=
  (∀ s : State, s.chip.uartOpen = true → s.chip.uart.started = false →
    Completes .uartSyncByte s (fun d => d.out = s.chip.out ++ [.uart 0x55] ∧ Keeps [.out] s.chip d)) ∧
  (∀ s : State, s.chip.uart.started = true → Completes .uartSyncByte s (Still s.chip)) ∧
  (∀ s : State, s.chip.uartOpen = true →
    Completes .uartPacketTimeout s (fun d =>
      d.uart = { s.chip.uart with started := true } ∧ d.out = s.chip.out ++ [.uart 0x15] ++ [.uart 6] ∧
      Keeps [.uart, .out] s.chip d)) ∧
  (∀ (s : State) (p : List Byte) (g : Bool), s.chip.uartOpen = true → leAt p 0 1 = 0xA5 → leAt p 1 1 = 1 →
    packetRefused p = false → packetGood p = true →
    let h := slice p 4 256
    let c : Chip := { s.chip with uart := { s.chip.uart with started := true } }
    let n := c.headerStep h g
    Completes (.uartHeader p g) s (fun d =>
      (n = 0 → d.uart = ⟨true, some h, 0⟩ ∧ d.out = s.chip.out ++ [.uart 0x06]) ∧
      (n ≠ 0 → d.uart = ⟨true, none, 0⟩ ∧
        d.out = s.chip.out ++ [.uart 0x15] ++ [.uart (if n = 4 then 5 else 4)]) ∧
      Keeps [.uart, .out] s.chip d)) ∧
  (∀ (s : State) (p h : List Byte), s.chip.uartOpen = true → leAt p 0 1 = 0xA5 → leAt p 1 1 = 2 →
    packetRefused p = false → packetGood p = true → s.chip.uart.header = some h →
    let c : Chip := { s.chip with uart := { s.chip.uart with started := true } }
    let off := leAt p 4 4
    let n := leAt p 2 2 - 4
    (off = s.chip.uart.received → off + n ≤ leAt h 12 4 → Completes (.uartData p) s (fun d =>
      d.uart = ⟨true, some h, off + n⟩ ∧ d.out = s.chip.out ++ [.uart 0x06] ∧
      d.mem = (c.writeRange (leAt h 16 8 + off) (slice p 8 n)).mem ∧
      Keeps [.regs, .pwr, .evr, .uart, .mem, .out] s.chip d)) ∧
    (off ≠ s.chip.uart.received ∨ leAt h 12 4 < off + n → Completes (.uartData p) s (fun d =>
      d.out = s.chip.out ++ [.uart 0x15] ++ [.uart 3] ∧ Keeps [.uart, .out] s.chip d))) ∧
  (∀ (s : State) (p : List Byte), s.chip.uartOpen = true → leAt p 0 1 = 0xA5 → leAt p 1 1 = 2 →
    packetRefused p = false → packetGood p = true → s.chip.uart.header = none →
    Completes (.uartData p) s (fun d =>
      d.out = s.chip.out ++ [.uart 0x15] ++ [.uart 3] ∧ Keeps [.uart, .out] s.chip d)) ∧
  (∀ (s : State) (p h : List Byte), s.chip.uartOpen = true → leAt p 0 1 = 0xA5 → leAt p 1 1 = 3 →
    packetRefused p = false → packetGood p = true → s.chip.uart.header = some h →
    let c : Chip := { s.chip with uart := { s.chip.uart with started := true } }
    let r := c.readRange (leAt h 16 8) (leAt h 12 4)
    (s.chip.uart.received ≠ leAt h 12 4 → Completes (.uartRun p) s (fun d =>
      d.out = s.chip.out ++ [.uart 0x15] ++ [.uart 5] ∧
      Keeps [.regs, .pwr, .evr, .uart, .mem, .out] s.chip d)) ∧
    (s.chip.uart.received = leAt h 12 4 → r.2.1 = false → imageDigest h r.1 = true →
    Completes (.uartRun p) s (fun d =>
      d.out = s.chip.out ++ [.uart 0x06] ∧ d.reg R.SYS_BOOT_STEP = 9 ∧ d.bit R.SYS_WDOG_CTRL 31 = true ∧
      d.sys = { s.chip.sys with wdogFrom := s.chip.dtm.dtime } ∧
      Keeps [.regs, .pwr, .sys, .evr, .uart, .mem, .out] s.chip d))) ∧
  (∀ (s : State) (p : List Byte), s.chip.uartOpen = true → leAt p 0 1 = 0xA5 → leAt p 1 1 = 3 →
    packetRefused p = false → packetGood p = true → s.chip.uart.header = none →
    Completes (.uartRun p) s (fun d => d.out = s.chip.out ++ [.uart 0x15] ++ [.uart 3] ∧ Keeps [.uart, .out] s.chip d)) ∧
  (∀ (s : State) (p : List Byte) (g : Bool), s.chip.uartOpen = true → leAt p 0 1 = 0xA5 →
    ∀ e ∈ ([(1, .uartHeader p g), (2, .uartData p), (3, .uartRun p)] : List (Nat × Instr)),
    leAt p 1 1 ∉ [1, 2, 3].erase e.1 →
    (packetRefused p = true → Completes e.2 s (fun d =>
      d.out = s.chip.out ++ [.uart 0x15] ++ [.uart 2] ∧ Keeps [.uart, .out] s.chip d)) ∧
    (packetRefused p = false → packetGood p = false → Completes e.2 s (fun d =>
      d.out = s.chip.out ++ [.uart 0x15] ++ [.uart 1] ∧ Keeps [.uart, .out] s.chip d)))

/-- In a running chip with no transition in progress: from SERVICE, TARGET 1 with an actuator selected in a
state other than BLANK and RETIRED starts calibration of the selected actuators; TARGET 3 with REST_SUB 1 or 2
outside BLANK puts the transition to REST in progress and takes the power state of the sub-state (R121);
TARGET 4 in MANUFACTURE or DIAGNOSTIC enters REBUILD. From REST, TARGET 2 returns to SERVICE. An accepted
request clears REFUSED and REFUSE_CODE. A request that a check of R34 fails sets REFUSED and the code and
changes nothing else: 1 with a transition in progress, 2 for SERVICE from another mode than REST, 3 for
CALIBRATE in RETIRED, 4 for CALIBRATE with no actuator. In every case GO reads 0 afterwards. -/
def Obligations.ModeRequestsFollowTheTable : Prop :=
  let accepted (d : Chip) : Prop :=
    d.bit R.SYS_MODE_REQ 17 = false ∧ d.fld R.SYS_MODE_REQ 23 20 = 0 ∧ d.bit R.SYS_MODE_REQ 8 = false
  (∀ s : State, s.chip.alive = true → s.chip.sys.trans = none → s.chip.sys.mode = .service →
    (∀ a b : Bool, (a || b) = true → s.chip.effective ≠ 0 → s.chip.effective ≠ 4 →
      CompletesThen (.modeReqCalibrate a b) s (fun d =>
        accepted d ∧
        d.bit R.SYS_MODE_REQ 4 = a ∧ d.bit R.SYS_MODE_REQ 5 = b ∧
        (∀ x ∈ [Act.A, Act.B], (if x = .A then a else b) = true → s.chip.outOfService x = false →
          s.chip.planTargets x ≠ [] → d.sys.mode = .calibrate ∧ d.calibrating x = true) ∧
        Keeps [.regs, .sys, .nvq, .loc, .pwr, .cal] s.chip d)) ∧
    (∀ sub : Fin 4, sub = 1 ∨ sub = 2 → s.chip.effective ≠ 0 →
      CompletesThen (.modeReqRest sub) s (fun d =>
        d.sys = { s.chip.sys with trans := some ⟨.rest, sub.val⟩, reqBusy := true } ∧
        d.nvq = { s.chip.nvq with ps := sub.val } ∧ accepted d ∧
        OnlyRegs [R.SYS_MODE_REQ] s.chip d ∧ Keeps [.regs, .sys, .nvq] s.chip d)) ∧
    (s.chip.effective = 1 ∨ s.chip.effective = 3 →
      CompletesThen .modeReqRebuild s (fun d =>
        d.sys = { s.chip.sys with mode := .rebuild, trans := none, reqBusy := false, restSub := 0 } ∧
        d.loc.hot = [] ∧ d.loc.ptBuilding = true ∧ accepted d ∧
        OnlyRegs [R.SYS_MODE_REQ] s.chip d ∧ Keeps [.regs, .sys, .loc, .slots] s.chip d))) ∧
  (∀ s : State, s.chip.alive = true → s.chip.sys.trans = none → s.chip.sys.mode = .rest →
    CompletesThen .modeReqService s (fun d =>
      d.sys = { s.chip.sys with mode := .service, restSub := 0, trans := none, reqBusy := false } ∧
      accepted d ∧ d.nvq.ps = 0 ∧
      OnlyRegs [R.SYS_MODE_REQ, R.DDR_STATUS] s.chip d ∧ Keeps [.regs, .sys, .nvq, .loc] s.chip d)) ∧
  (∀ s : State, s.chip.alive = true →
    let refused (n : Nat) (d : Chip) : Prop :=
      d.bit R.SYS_MODE_REQ 17 = true ∧ d.fld R.SYS_MODE_REQ 23 20 = n ∧ d.bit R.SYS_MODE_REQ 8 = false ∧
      OnlyRegs [R.SYS_MODE_REQ] s.chip d ∧ Keeps [.regs] s.chip d
    (s.chip.sys.trans ≠ none → CompletesThen .modeReqService s (refused 1)) ∧
    (s.chip.sys.trans = none → s.chip.sys.mode ≠ .rest → CompletesThen .modeReqService s (refused 2)) ∧
    (s.chip.sys.trans = none → s.chip.sys.mode = .service → s.chip.effective = 4 →
      CompletesThen (.modeReqCalibrate true true) s (refused 3)) ∧
    (s.chip.sys.trans = none → s.chip.sys.mode = .service → s.chip.effective ≠ 0 → s.chip.effective ≠ 4 →
      CompletesThen (.modeReqCalibrate false false) s (refused 4)))

/-- REST_ENTERED in a transition to REST that no page holds makes the mode REST with the sub-state asked for
and raises PWR INT_STATUS.REST_IN; while a page holds it, PWR_REST_WAIT names the last such page and the mode
stays (R588). REST_EXIT_ON_IO in REST or in entry to it returns to SERVICE where an I/O submission queue is
rung, and where an admin command that needs the media is under way (R37); an admin doorbell alone with no
command under way changes nothing. MAP_INCONSISTENCY in a running chip outside HOLDUP and BLANK raises
INT_STATUS.INCONSISTENT, and in SERVICE with no transition the mode becomes REBUILD (R34, R203). -/
def Obligations.RestIsEnteredWhenIdleAndLeftOnWork : Prop :=
  (∀ (s : State) (t : Transition), s.chip.alive = true → s.chip.inHoldup = false → s.chip.sys.trans = some t →
    t.target = .rest →
    ((∀ page ∈ linePages, s.chip.holdsRest page = false) → Completes .restEntered s (fun d =>
      d.sys = { s.chip.sys with mode := .rest, restSub := t.sub, trans := none, reqBusy := false } ∧
      d.bit (pIntStatus 0x02) 1 = true ∧ d.bit R.PWR_REST_WAIT 31 = false ∧
      OnlyRegs [R.DDR_STATUS, R.PWR_REST_WAIT, pIntStatus 0x02] s.chip d ∧
      Keeps [.regs, .sys, .osp, .pwr, .cal, .dbg] s.chip d)) ∧
    (∀ page, (linePages.filter s.chip.holdsRest).getLast? = some page → Completes .restEntered s (fun d =>
      d.reg R.PWR_REST_WAIT = BitVec.ofNat 32 (page + 2 ^ 31) ∧ OnlyRegs [R.PWR_REST_WAIT] s.chip d ∧
      Keeps [.regs] s.chip d))) ∧
  (∀ s : State, s.chip.alive = true → s.chip.inHoldup = false →
    (s.chip.sys.mode = .rest ∧ s.chip.sys.trans = none ∨ s.chip.sys.trans.map Transition.target = some .rest) →
    ∀ admin : Bool,
    ((admin = false ∧ (s.chip.nvq.sqs.any (fun q => q.qid != 0 && q.head != q.tail)) = true) ∨
      ∃ x ∈ s.chip.nvq.undecided, x.qid = 0 ∧ x.cmd.opcode ∈ [0x14, 0x80, 0x84]) →
    CompletesThen (.restExitOnIo admin) s (fun d =>
      d.sys = { s.chip.sys with mode := .service, restSub := 0, trans := none, reqBusy := false } ∧
      OnlyRegs [R.DDR_STATUS] s.chip d ∧ Keeps [.regs, .sys, .nvq, .loc] s.chip d)) ∧
  (∀ s : State, s.chip.nvq.inflight = [] → CompletesThen (.restExitOnIo true) s (fun d => d = s.chip)) ∧
  (∀ (s : State) (zone chunk : Nat), s.chip.alive = true → s.chip.inHoldup = false → s.chip.effective ≠ 0 →
    CompletesThen (.mapInconsistency zone chunk) s (fun d =>
      d.bit (pIntStatus 0x18) 3 = true ∧
      (s.chip.sys.mode = .service → s.chip.sys.trans = none → d.sys.mode = .rebuild) ∧
      (s.chip.sys.mode ≠ .service → d.sys = s.chip.sys) ∧
      OnlyRegs ([pIntStatus 0x18] ++ dropRegs) s.chip d ∧ Keeps [.regs, .sys, .evr, .loc, .pwr, .slots] s.chip d))

/-- In a running chip with BUSY 0: a write to LCS_ADVANCE with KEY 0xA11C starts to program MANUFACTURE from
BLANK for TARGET 1, and DEPLOYED from MANUFACTURE for TARGET 2 where both key rows are programmed and no
repair is incomplete; any other write sets RESULT 5 and changes nothing but LCS_ADVANCE itself (R64). While
BUSY is 1 neither LCS_ADVANCE nor START changes anything (R79). FUSE_ROW_PROGRAMMED ends the programming of a
life-cycle row: the row is programmed, the fused state advances and RESULT is 1, but for RETIRED while the
destruction of the keys still waits for the journal, when nothing happens (R19, R65). With no such row it ends
the repair row at hand, which is one more row used and fuses the entry where it reads back good (R575); that
RESULT then stays is the model's choice (log entry 171). TOKEN_START counts in ATTEMPTS, draws a new nonce and
starts verification, or is refused with RESULT 7 after eight failures (R70, R71). TOKEN_VERIFY_DONE of a KIND
1 token whose fields and signature pass enters DIAGNOSTIC with RESULT 1; a failing field gives its own RESULT
and a wrong signature 6, and no state of the life cycle changes (R69). RELOCK in DIAGNOSTIC ends it; outside
it nothing changes (R63). -/
def Obligations.LifeCycleAdvancesOnlyAsStated : Prop :=
  (∀ s : State, s.chip.lcsBusy = true →
    (∀ (t : Fin 4) (k : BitVec 16), Completes (.lcsAdvance t k) s (Still s.chip)) ∧
    Completes .tokenStart s (Still s.chip)) ∧
  (∀ (s : State) (e : RepairEntry) (good : Bool) (more : List (RepairEntry × Bool)), s.chip.alive = true →
    s.chip.inHoldup = false → s.chip.bst.fusing = (e, good) :: more → (∀ t b, s.chip.lcs.job ≠ some (.program t b)) →
    Completes .fuseRowProgrammed s (fun d =>
      d.fuses = { s.chip.fuses with
        repairRows := s.chip.fuses.repairRows + 1
        repairs := if good then s.chip.fuses.repairs ++ [e] else s.chip.fuses.repairs } ∧
      (more = [] → d.bst.fusing = [] ∧ d.bit (pIntStatus 0x07) 4 = true ∧
        d.bst.fusePending = (s.chip.bit R.BST_FUSE_STATUS 10 || !good)) ∧
      (more ≠ [] → s.chip.fuses.repairRows < 95 → d.bst.fusing = more ∧ d.bst.fusePending = true) ∧
      OnlyRegs [R.BST_FUSE_STATUS, pIntStatus 0x07] s.chip d ∧ Keeps [.regs, .fuses, .bst, .pwr] s.chip d)) ∧
  (∀ s : State, s.chip.alive = true → s.chip.lcsBusy = false →
    (s.chip.lcs.fused = .blank → Completes (.lcsAdvance 1 0xA11C) s (fun d =>
      d.lcs = { s.chip.lcs with job := some (.program .manufacture false) } ∧
      OnlyRegs [R.LCS_ADVANCE] s.chip d ∧ Keeps [.regs, .lcs] s.chip d)) ∧
    (s.chip.lcs.fused = .manufacture → s.chip.fuses.imageKey = true → s.chip.fuses.unlockKey = true →
      s.chip.repairIncomplete = false → Completes (.lcsAdvance 2 0xA11C) s (fun d =>
      d.lcs = { s.chip.lcs with job := some (.program .deployed false) } ∧
      OnlyRegs [R.LCS_ADVANCE] s.chip d ∧ Keeps [.regs, .lcs] s.chip d)) ∧
    (∀ (t : Fin 4) (k : BitVec 16),
      k ≠ 0xA11C ∨ t = 0 ∨ t = 3 ∨ (t = 1 ∧ s.chip.lcs.fused ≠ .blank) ∨ (t = 2 ∧ s.chip.lcs.fused ≠ .manufacture) ∨
        (t = 2 ∧ (s.chip.fuses.imageKey && s.chip.fuses.unlockKey && !s.chip.repairIncomplete) = false) →
      Completes (.lcsAdvance t k) s (fun d => d.lcs = { s.chip.lcs with result := 5 } ∧
        OnlyRegs [R.LCS_ADVANCE] s.chip d ∧ Keeps [.regs, .lcs] s.chip d)) ∧
    Completes .tokenStart s (fun d =>
      d.lcs.attempts = satSucc s.chip.lcs.attempts 255 ∧ d.lcs.fused = s.chip.lcs.fused ∧
      d.lcs.diagnostic = s.chip.lcs.diagnostic ∧
      d.lcs.nonce = Config.random 64 s.chip.freeCtr ∧
      (s.chip.lcs.failures < 8 →
        d.lcs.job = some (.verify s.chip.tokenCheck (leAt s.chip.tokenBytes 6 1)) ∧
        Keeps [.lcs, .freeCtr] s.chip d) ∧
      (8 ≤ s.chip.lcs.failures → d.lcs.job = none ∧ d.lcs.result = 7) ∧
      OnlyRegs dropRegs s.chip d ∧ Keeps [.regs, .lcs, .evr, .mram, .jnl, .pwr, .freeCtr] s.chip d)) ∧
  (∀ (s : State) (t : Life) (b : Bool), s.chip.alive = true → s.chip.inHoldup = false →
    s.chip.lcs.job = some (.program t b) → t = .retired → s.chip.destroyWaits = true →
      Completes .fuseRowProgrammed s (Still s.chip)) ∧
  (∀ (s : State) (t : Life) (b : Bool), s.chip.alive = true → s.chip.inHoldup = false →
    s.chip.lcs.job = some (.program t b) → (t = .retired → s.chip.destroyWaits = false) →
    Completes .fuseRowProgrammed s (fun d =>
      d.fuses = s.chip.fuses.setRow t .programmed ∧ d.lcs.job = none ∧ d.lcs.fused = t ∧ d.lcs.result = 1 ∧
      (s.chip.lcs.diagnostic = false → OnlyRegs dropRegs s.chip d ∧
        Keeps [.regs, .fuses, .lcs, .evr, .mram, .jnl, .pwr] s.chip d) ∧
      (t = .retired → d.lcs.diagnostic = false) ∧
      (s.chip.testing 16 = false → s.chip.testing 17 = false →
        Keeps [.regs, .fuses, .lcs, .evr, .mram, .jnl, .pwr, .bst, .freeCtr] s.chip d) ∧
      Keeps ([.fuses, .lcs, .bst] ++ mediaParts) s.chip d)) ∧
  (∀ (s : State) (early : Nat), s.chip.alive = true → s.chip.inHoldup = false →
    s.chip.lcs.job = some (.verify early 1) → early ≠ 1 →
    (early = 0 → Completes (.tokenVerifyDone true) s (fun d =>
      d.lcs = { s.chip.lcs with job := none, diagnostic := true, result := 1 } ∧ d.effective = 3 ∧
      OnlyRegs dropRegs s.chip d ∧ Keeps [.regs, .lcs, .evr, .mram, .jnl, .pwr] s.chip d)) ∧
    (∀ g : Bool, early ≠ 0 ∨ g = false → Completes (.tokenVerifyDone g) s (fun d =>
      d.lcs = { s.chip.lcs with job := none, failures := s.chip.lcs.failures + 1,
                                result := if early ≠ 0 then early else 6 } ∧
      OnlyRegs dropRegs s.chip d ∧ Keeps [.regs, .lcs, .evr, .mram, .jnl, .pwr] s.chip d))) ∧
  (∀ s : State, s.chip.alive = true → s.chip.lcs.diagnostic = true → Completes .relock s (fun d =>
    d.lcs = { s.chip.lcs with diagnostic := false } ∧ (s.chip.testing 16 = false → s.chip.testing 17 = false →
      Keeps [.regs, .lcs, .evr, .pwr, .bst, .freeCtr] s.chip d) ∧ Keeps ([.lcs, .bst] ++ mediaParts) s.chip d)) ∧
  (∀ s : State, s.chip.lcs.diagnostic = false → Completes .relock s (Still s.chip))

/-- In a running chip with the octal NOR idle, an operation whose length, alignment, ranges, protection and
mode pass (R60, R61) starts: BUSY reads 1, OP names it and RESULT is 0. Otherwise RESULT is 2, FAULT.RANGE is
set and nothing runs. A GO while BUSY has no effect. OSP_DONE ends the operation with RESULT 1, or 3 and one
more in OSP_ERR_CNT where the device failed a program or an erase, and raises DONE; a READ has stored its
bytes in DRAM, a PROGRAM that ends well has sent the bytes of its DRAM range to the device, and an ERASE
changes no memory. -/
def Obligations.NorOperationsAreCheckedAndRun : Prop :=
  (∀ (s : State), s.chip.alive = true → s.chip.osp = none →
    ∀ e ∈ ([(.ospProgram, 2), (.ospErase, 3)] : List (Instr × Nat)) ++ [(.ospRead [], 1)],
      ((s.chip.ospAllowed e.2 = true → Completes e.1 s (fun d =>
        d.osp = some ⟨e.2, (s.chip.reg R.OSP_ADDR).toNat, s.chip.ospDram, (s.chip.reg R.OSP_LEN).toNat, []⟩ ∧
        d.fld R.OSP_CMD 2 0 = e.2 ∧ d.fld R.OSP_CMD 26 24 = 0 ∧ (d.viewOsp R.OSP_CMD).getLsbD 30 = true ∧
        OnlyRegs [R.OSP_CMD] s.chip d ∧ Keeps [.regs, .osp] s.chip d)) ∧
      (s.chip.ospAllowed e.2 = false → Completes e.1 s (fun d =>
        d.osp = none ∧ d.fld R.OSP_CMD 26 24 = 2 ∧ d.bit (pFault 0x49) 3 = true ∧
        OnlyRegs [R.OSP_CMD, pFault 0x49, pIntStatus 0x49] s.chip d ∧ Keeps [.regs, .pwr] s.chip d)))) ∧
  (∀ (s : State) (data : List Byte), s.chip.alive = true → s.chip.osp = none → s.chip.ospAllowed 1 = true →
    Completes (.ospRead data) s (fun d =>
      d.osp = some ⟨1, (s.chip.reg R.OSP_ADDR).toNat, s.chip.ospDram, (s.chip.reg R.OSP_LEN).toNat, data⟩ ∧ d.fld R.OSP_CMD 2 0 = 1 ∧
      OnlyRegs [R.OSP_CMD] s.chip d ∧ Keeps [.regs, .osp] s.chip d)) ∧
  (∀ s : State, s.chip.alive = true → s.chip.osp = none →
    let job (op : Nat) : OspJob := ⟨op, (s.chip.reg R.OSP_ADDR).toNat, s.chip.ospDram, (s.chip.reg R.OSP_LEN).toNat, []⟩
    (s.chip.ospAllowed 2 = true → Completes .ospProgram s (fun d => d.osp = some (job 2))) ∧
    (s.chip.ospAllowed 3 = true → Completes .ospErase s (fun d => d.osp = some (job 3)))) ∧
  (∀ (s : State) (j : OspJob), s.chip.osp = some j →
    (∀ data, Completes (.ospRead data) s (Still s.chip)) ∧ Completes .ospProgram s (Still s.chip) ∧
    Completes .ospErase s (Still s.chip)) ∧
  (∀ (s : State) (j : OspJob) (f : Bool), s.chip.alive = true → s.chip.osp = some j →
    Completes (.ospDone f) s (fun d =>
      d.osp = none ∧ d.bit (pIntStatus 0x49) 0 = true ∧ d.fld R.OSP_CMD 2 0 = j.op % 8 ∧
      d.fld R.OSP_CMD 26 24 = (if f = true ∧ j.op ≠ 1 then 3 else 1) ∧
      (j.op = 1 → d.mem = (s.chip.writeRange j.dram (j.data.take j.len)).mem) ∧
      (j.op = 2 → f = false → d.out = s.chip.out ++ [.norProgram j.nor (s.chip.readRange j.dram j.len).1]) ∧
      (j.op = 3 → d.mem = s.chip.mem ∧
        d.out = s.chip.out ++ (if f then [] else [.norErase j.nor j.len]) ∧
        OnlyRegs [R.OSP_CMD, R.OSP_ERR_CNT, pIntStatus 0x49] s.chip d) ∧
      Keeps [.regs, .pwr, .evr, .osp, .mem, .out] s.chip d))

/-- A write that reaches a register of a page without actions of its own (HIF, NVQ, SV, SNS, DDR, NFC, OSP;
offsets of the page's own map) and starts no operation of OSP or NFC: writable RW, RWX and RWD fields take the
value written, W1C bits written 1 clear, every other bit stays. A 1 in a reserved field sets FAULT.RSVD_WR, an
RWX field without CTRL.EXPERT IGN_EXPERT, an RWD field outside MANUFACTURE and DIAGNOSTIC IGN_LCS, and
IGN_OFFSET takes the offset (R93, R94). A value out of the register's range is not taken and sets the FAULT
bit of its rule. Nothing else changes but the page's FAULT and INT_STATUS, the note of an expert override
(R100) and the page's clock. A read-only register and an offset that no map defines take nothing and report
nothing (R86, R94). -/
def Obligations.RegisterWriteTakesTheFieldsItMayChange : Prop :=
  (∀ (s : State) (m : Master) (k : Nat) (v : Word) (r : RegDesc),
    s.chip.mayReach m (0x40000000 + k) = true → regDesc k = some r → r.readOnly = false →
    k / 4096 ∈ [0x10, 0x11, 0x22, 0x2A, 0x3A, 0x40, 0x48, 0x49] → 0x80 ≤ k % 4096 → k % 4096 ≠ 0x604 →
    (k = R.OSP_CMD → v.getLsbD 31 = false) → (k = R.NFC_RD_CTRL → v.getLsbD 0 = false) →
    profileOff (k / 4096) ≠ some (k % 4096) →
    let page := k / 4096
    let c := ((s.chip.wake page).preWrite k v).1
    let stored := s.chip.pickMask page r.fields Acc.stores
    let cleared := v &&& s.chip.pickMask page r.fields (· == .w1c)
    let new := ((s.chip.reg k &&& ~~~ stored) ||| (v &&& stored)) &&& ~~~ cleared
    CompletesThen (.registerWrite m (0x40000000 + k) ⟨v, []⟩ 0 0) s (fun d =>
      (c.rejects page (k % 4096) new = none → d.reg k = new) ∧
      (∀ b < 32, c.rejects page (k % 4096) new = some b →
        s.chip.pickMask page r.fields (fun a => a.stores || a == .w1c) ≠ 0 →
        d.reg k = s.chip.reg k ∧ d.bit (pFault page) b = true) ∧
      (v &&& ~~~ definedMask r.fields ≠ 0 →
        d.bit (pFault page) 2 = true ∧ d.fld (pFault page) 31 20 = k % 4096) ∧
      ((∃ f ∈ r.fields, f.acc = .rwx) → s.chip.bit (pCtrl page) 31 = false →
        d.bit (pFault page) 0 = true ∧ d.fld (pFault page) 31 20 = k % 4096) ∧
      ((∃ f ∈ r.fields, f.acc = .rwd) → s.chip.diagOpen = false →
        d.bit (pFault page) 1 = true ∧ d.fld (pFault page) 31 20 = k % 4096) ∧
      OnlyRegs [k, pFault page, pIntStatus page] s.chip d ∧ Keeps [.regs, .overrides, .pwr] s.chip d)) ∧
  (∀ (s : State) (m : Master) (k : Nat) (v : Word), s.chip.mayReach m (0x40000000 + k) = true →
    (regDesc k = none ∨ ∃ r, regDesc k = some r ∧ r.readOnly = true) →
    CompletesThen (.registerWrite m (0x40000000 + k) ⟨v, []⟩ 0 0) s (fun d => Keeps [.pwr] s.chip d))

/-- On a running chip and for every populated page: INT_SET sets in INT_STATUS exactly the bits written 1, as
if hardware had raised them (R92). A write to INT_ENABLE stores the word, and one to INT_STATUS clears exactly
the bits written 1 (R91). A bit of INT_STATUS that software clears in the cycle hardware sets it reads 1
afterwards and the page counts one collision at the register's offset; a second master's write to FAULT of the
page in the same cycle makes it no second one, and the lower offset is reported (R101). COLLIDE.CLR sets COUNT
and OFFSET to 0, and with a collision in the same cycle COUNT reads 1 and OFFSET names its register (R102).
Each write alone changes the register named alone, and COLLIDE where a collision is counted. -/
def Obligations.CommonRegistersOfEveryPage : Prop :=
  (∀ (s : State) (page : Nat) (v : Word), s.chip.alive = true → populated page = true →
    (page = 0x12 → s.chip.lcs.tierS = true) →
    Completes (.intSet page v) s (fun d =>
      d.reg (pIntStatus page) = s.chip.reg (pIntStatus page) ||| v ∧
      OnlyRegs [pIntStatus page] s.chip d ∧ Keeps [.regs, .pwr] s.chip d) ∧
    Completes (.collideClr page none) s (fun d =>
      d.reg (pCollide page) = 0 ∧ OnlyRegs [pCollide page] s.chip d ∧ Keeps [.regs, .pwr] s.chip d) ∧
    (∀ off < 4096, Completes (.collideClr page (some off)) s (fun d =>
      d.fld (pCollide page) 15 0 = 1 ∧ d.fld (pCollide page) 27 16 = off ∧
      OnlyRegs [pCollide page] s.chip d ∧ Keeps [.regs, .pwr] s.chip d))) ∧
  (∀ (s : State) (m : Master) (page : Nat) (v hw : Word), populated page = true →
    (page = 0x12 → s.chip.lcs.tierS = true) →
    (s.chip.mayReach m (0x40000000 + pIntEnable page) = true →
      CompletesThen (.registerWrite m (0x40000000 + pIntEnable page) ⟨v, []⟩ 0 0) s (fun d =>
        d.reg (pIntEnable page) = v ∧ OnlyRegs [pIntEnable page] s.chip d ∧ Keeps [.regs, .pwr] s.chip d)) ∧
    (s.chip.mayReach m (0x40000000 + pIntStatus page) = true →
      CompletesThen (.registerWrite m (0x40000000 + pIntStatus page) ⟨v, []⟩ hw 0) s (fun d =>
        d.reg (pIntStatus page) = (s.chip.reg (pIntStatus page) &&& ~~~ v) ||| (v &&& hw) ∧
        (v &&& hw = 0 → OnlyRegs [pIntStatus page] s.chip d) ∧
        (v &&& hw ≠ 0 →
          d.fld (pCollide page) 15 0 = satSucc (s.chip.fld (pCollide page) 15 0) 0xFFFF ∧
          d.fld (pCollide page) 27 16 = 0x010) ∧
        OnlyRegs [pIntStatus page, pCollide page] s.chip d ∧ Keeps [.regs, .pwr] s.chip d) ∧
      (∀ (m2 : Master) (v2 hw2 : Word), s.chip.mayReach m2 (0x40000000 + pFault page) = true → v &&& hw ≠ 0 →
        CompletesThen (.registerWrite m (0x40000000 + pIntStatus page)
            ⟨v, [⟨m2, 0x40000000 + pFault page, v2, hw2, 0⟩]⟩ hw 0) s (fun d =>
          d.fld (pCollide page) 15 0 = satSucc (s.chip.fld (pCollide page) 15 0) 0xFFFF ∧
          d.fld (pCollide page) 27 16 = 0x010 ∧
          OnlyRegs [pIntStatus page, pFault page, pCollide page] s.chip d ∧ Keeps [.regs, .pwr] s.chip d))))

/-- PROFILE_LOAD on a running chip at the address of a page's PROFILE register: PROFILE 3 has no effect but
FAULT bit 3 of the page; 0 to 2 sets PROFILE. For the engine pages the load takes effect at the next sample
boundary and for SV at the next wedge (R95, R291, R374); for the other pages every register of the page's
profile table reads the profile's value at once, OVERRIDE falls for the page, and (but for Chord's page, whose
grant may follow) no register of another page changes. At any other address nothing happens. -/
def Obligations.ProfileLoadsItsTable : Prop :=
  (∀ (s : State) (page off : Nat), s.chip.alive = true → profileOff page = some off →
    (page = 0x12 → s.chip.lcs.tierS = true) →
    let addr := 0x40000000 + page * 4096 + off
    Completes (.profileLoad addr 3) s (fun d =>
      d.bit (pFault page) 3 = true ∧ OnlyRegs [pFault page, pIntStatus page] s.chip d ∧
      Keeps [.regs, .pwr] s.chip d) ∧
    (∀ p : Fin 4, p ≠ 3 →
      Completes (.profileLoad addr p) s (fun d =>
        d.fld (page * 4096 + off) 1 0 = p.val ∧
        (page ∉ [0x22, 0x2A, 0x24, 0x2C] → ∀ e ∈ profileTable (profilePage page),
          d.reg (page * 4096 + e.1) = natW (e.2.getD p.val 0)) ∧
        (page ∉ [0x22, 0x2A, 0x24, 0x2C] → ∀ k ∈ d.overrides, k / 4096 ≠ page) ∧
        (page = 0x24 → d.cleA.profile = some p.val) ∧ (page = 0x2C → d.cleB.profile = some p.val) ∧
        (page = 0x22 → d.chanA.svProfile = some p.val) ∧ (page = 0x2A → d.chanB.svProfile = some p.val) ∧
        (page ≠ 0x30 → SameRegs [page] s.chip d) ∧
        Keeps [.regs, .pwr, .overrides, .cleA, .cleB, .chanA, .chanB, .chd] s.chip d))) ∧
  (∀ (s : State) (addr : Nat) (p : Fin 4), profileOff ((addr - 0x40000000) / 4096) ≠ some (addr % 4096) →
    Completes (.profileLoad addr p) s (Still s.chip))

/-- On a running chip: a read of DTM_DTIME_LO by a master that reaches it answers DTIME[31:0] and copies
DTIME[63:32] into that master's latch and no other (R108). A write to DTM_CMP_HI forms the compare value from
it and the held low half and arms the comparison; where CMP_EN is 1 and DTIME has reached it, CMP is set at
once and the comparison is disarmed, otherwise it stays armed (R109). DTIME_COMPARE_MATCH sets CMP only while
the comparison is armed and DTIME has reached the value. A write to INT_SWI_SET sets the software interrupts
written 1 (R104). INTERRUPT_TAKEN by a core that runs with a pending line and none in service takes the line
of lowest PRIORITY, which CPU_IRQ_n then shows; CPU_IRQ_EOI of the active line ends it, and any other EOI has
no effect but FAULT bit 4 (R106, R497, R498). -/
def Obligations.DeviceTimeAndInterruptLines : Prop :=
  (∀ (s : State) (m : Master), s.chip.alive = true → s.chip.mayReach m (0x40000000 + R.DTM_DTIME_LO) = true →
    Completes (.dtimeLoRead m) s (fun d =>
    SMap.get (fun _ => (0 : Word)) d.dtm.latches m.toNat = (s.chip.dtm.dtime >>> 32).setWidth 32 ∧
    (∀ n, n ≠ m.toNat → SMap.get (fun _ => (0 : Word)) d.dtm.latches n =
      SMap.get (fun _ => (0 : Word)) s.chip.dtm.latches n) ∧
    d.out = s.chip.out ++ [.read (leBytes 4 (s.chip.dtm.dtime.toNat % 2 ^ 32))] ∧
    d.dtm.dtime = s.chip.dtm.dtime ∧ d.dtm.compare = s.chip.dtm.compare ∧ Keeps [.dtm, .pwr, .out] s.chip d)) ∧
  (∀ (s : State) (v : Word), s.chip.alive = true → Completes (.dtmCmpHiWrite v) s (fun d =>
    let value : BitVec 64 := v ++ s.chip.reg R.DTM_CMP_LO
    d.reg R.DTM_CMP_HI = v ∧ d.dtm.compare = value ∧
    (s.chip.bit (pCtrl 0x08) 0 = true → value.toNat ≤ s.chip.dtm.dtime.toNat →
      d.bit (pIntStatus 0x08) 0 = true ∧ d.dtm.armed = false) ∧
    (s.chip.bit (pCtrl 0x08) 0 = false ∨ s.chip.dtm.dtime.toNat < value.toNat →
      d.reg (pIntStatus 0x08) = s.chip.reg (pIntStatus 0x08) ∧ d.dtm.armed = true) ∧
    OnlyRegs [R.DTM_CMP_HI, pIntStatus 0x08] s.chip d ∧ Keeps [.regs, .dtm, .pwr] s.chip d)) ∧
  (∀ s : State, s.chip.dtm.running = true →
    (s.chip.dtm.armed = true → s.chip.bit (pCtrl 0x08) 0 = true →
      s.chip.dtm.compare.toNat ≤ s.chip.dtm.dtime.toNat → Completes .dtimeCompareMatch s (fun d =>
        d.bit (pIntStatus 0x08) 0 = true ∧ d.dtm = { s.chip.dtm with armed := false } ∧
        OnlyRegs [pIntStatus 0x08] s.chip d ∧ Keeps [.regs, .dtm, .pwr] s.chip d)) ∧
    (s.chip.dtm.armed = false ∨ s.chip.bit (pCtrl 0x08) 0 = false ∨
      s.chip.dtm.dtime.toNat < s.chip.dtm.compare.toNat → Completes .dtimeCompareMatch s (Still s.chip))) ∧
  (∀ (s : State) (v : Word), s.chip.alive = true → Completes (.intSwiSet v) s (fun d =>
    d.reg R.INT_SWI = s.chip.reg R.INT_SWI ||| (v &&& 0x0000FFFF#32) ∧
    (v &&& 0xFFFF0000#32 = 0 → OnlyRegs [R.INT_SWI] s.chip d) ∧
    (v &&& 0xFFFF0000#32 ≠ 0 → d.bit (pFault 0x51) 2 = true ∧ d.fld (pFault 0x51) 31 20 = 0x08C) ∧
    OnlyRegs [R.INT_SWI, pFault 0x51, pIntStatus 0x51] s.chip d ∧ Keeps [.regs, .pwr] s.chip d)) ∧
  (∀ (s : State) (n : Fin 8) (l : Nat), s.chip.coreRuns n.val = true → s.chip.irqOf n.val = [] →
    l ∈ s.chip.pendingAt n.val →
    (∀ m ∈ s.chip.pendingAt n.val, s.chip.linePri l < s.chip.linePri m ∨ (s.chip.linePri l = s.chip.linePri m ∧ l ≤ m)) →
    Completes (.interruptTaken n) s (fun d =>
      d.irqOf n.val = [(l, s.chip.linePri l)] ∧
      d.reg (R.CPU_IRQ n.val) = BitVec.ofNat 32 (l + 2 ^ 6 + s.chip.linePri l * 2 ^ 8) ∧
      OnlyRegs [R.CPU_IRQ n.val] s.chip d ∧ Keeps [.regs, .cpu] s.chip d)) ∧
  (∀ (s : State) (n : Fin 8) (l m : Fin 64) (p : Nat) (q : List (Nat × Nat)), s.chip.alive = true →
    s.chip.irqOf n.val = (l.val, p) :: q →
    Completes (.cpuIrqEoi n l) s (fun d =>
      d.irqOf n.val = q ∧ OnlyRegs [R.CPU_IRQ n.val] s.chip d ∧ Keeps [.regs, .cpu] s.chip d) ∧
    (m ≠ l → Completes (.cpuIrqEoi n m) s (fun d =>
      d.bit (pFault 0x50) 4 = true ∧ OnlyRegs [pFault 0x50, pIntStatus 0x50] s.chip d ∧
      Keeps [.regs, .pwr] s.chip d)))

/-- Deciding a command (Chip.finish) changes the host queues and the output alone. In HOLDUP, for a command
not in flight and for one already decided, nothing changes (R38). Otherwise its completion is kept with it.
While the command of the same queue fetched first is undecided, nothing is posted (R123). When the command is
alone in its queue and the completion queue has room, its completion leaves the chip, followed by at most one
interrupt message of the controller, the command is no longer in flight, and an error heads the Error
Information log and is counted (R111, R120). Without room it is kept and nothing is posted. -/
def Obligations.CompletionsAreDecidedOnceAndPostedInOrder : Prop :=
  ∀ (c : Chip) (r : Completion),
    Keeps [.nvq, .out] c (c.finish r) ∧
    (c.inHoldup = true → c.finish r = c) ∧
    (c.nvq.find r.cntl r.qid r.cid = none → c.finish r = c) ∧
    (∀ x, c.nvq.find r.cntl r.qid r.cid = some x → x.result ≠ none → c.finish r = c) ∧
    (∀ x, c.inHoldup = false → c.nvq.find r.cntl r.qid r.cid = some x → x.result = none →
      r.seq = some x.seq →
      let d := c.finish r
      let mine := c.nvq.inflight.filter (fun y => y.cntl == r.cntl && y.qid == r.qid)
      let decided (y : InCmd) : InCmd :=
        if y.seq = x.seq then { y with result := some { r with seq := none }, phase := .done } else y
      (∀ y ys, mine = y :: ys → y.result = none → y.seq ≠ x.seq → (∀ z ∈ mine, z.isAer = false) →
        d.out = c.out ∧ d.nvq.inflight = c.nvq.inflight.map decided) ∧
      (mine = [x] → c.nvq.room r.cntl r.qid = 0 →
        d.out = c.out ∧ d.nvq.inflight = c.nvq.inflight.map decided) ∧
      (mine = [x] → 0 < c.nvq.room r.cntl r.qid →
        (d.out = c.out ++ [.completion { r with seq := none }] ∨
          ∃ v a w, d.out = c.out ++ [.completion { r with seq := none }] ++ [.msix r.cntl v a w]) ∧ (∀ y ∈ d.nvq.inflight, y.seq ≠ x.seq) ∧
        (r.isError = true → d.nvq.errors.head? = some { r with seq := none } ∧
          d.nvq.errorCount = c.nvq.errorCount + 1) ∧
        (r.isError = false → d.nvq.errors = c.nvq.errors.take 64 ∧ d.nvq.errorCount = c.nvq.errorCount)))

/-- On a running chip from step 3 of BOOT, LINK_CHANGE of an existing port writes the port's link register:
UP, the speed not above HIF_PORT.GEN and the width not above the arrangement's lanes, or 0 where the link is
down; LINK_CHANGE is raised where UP changes; correctable errors are counted in HIF_CORR_CNT, an uncorrectable
one raises UNCORR (R110, R146). A PCIe request of a port whose link is up is answered at once, whatever
CSTS.RDY is (R48): the payload and read request limits, the vectors, the rate and the capabilities of R111,
CAP, VS, CSTS and the words of the MSI-X table of R112 and R117 with their values, 0 outside the map, and
anything else with an open value. A BAR0 write to the MSI-X table sets its word; one outside it, of the
registers whose rows stand by themselves, changes nothing. With the link down nothing is answered. The SMBus
command at the enabled address is answered with the flags (bit 6 while no controller is ready, bits 3 and 2
the links of ports 0 and 1), the SMART critical warning, the composite temperature and the percentage used,
and another offset with 0xFF bytes; a wrong address or disabled SMBus with nothing (R114). Nothing else
changes. -/
def Obligations.LinkConfigurationAndManagementBus : Prop :=
  (∀ (s : State) (port : Fin 2) (up uncorr : Bool) (corr speed width : Nat), s.chip.alive = true →
    3 ≤ s.chip.bootStep → s.chip.portHere port.val = true →
    Completes (.linkChange port ⟨up, corr, uncorr⟩ speed width) s (fun d =>
      d.bit (linkReg port.val) 0 = up ∧
      d.fld (linkReg port.val) 3 1 = (if up then min speed (s.chip.fld R.HIF_PORT 3 1) else 0) ∧
      d.fld (linkReg port.val) 7 4 = (if up then min width (if s.chip.dual then 1 else 2) else 0) ∧
      d.reg R.HIF_CORR_CNT = BitVec.ofNat 32 (min ((s.chip.reg R.HIF_CORR_CNT).toNat + corr) 0xFFFFFFFF) ∧
      (s.chip.bit (linkReg port.val) 0 ≠ up → d.bit (pIntStatus 0x10) 0 = true) ∧
      (uncorr = true → d.bit (pIntStatus 0x10) 4 = true) ∧
      (s.chip.bit (linkReg port.val) 0 = up → uncorr = false →
        OnlyRegs [linkReg port.val, R.HIF_CORR_CNT] s.chip d) ∧
      OnlyRegs [linkReg port.val, R.HIF_CORR_CNT, pIntStatus 0x10] s.chip d ∧ Keeps [.regs, .pwr] s.chip d)) ∧
  (∀ (s : State) (port : Fin 2), s.chip.alive = true → s.chip.portHere port.val = true →
    (s.chip.bit (linkReg port.val) 0 = true →
      (∀ e ∈ ([(.maxPayload, 512), (.maxReadRequest, 4096), (.msixVectors, if s.chip.dual then 33 else 65),
          (.maxRate, s.chip.fld R.HIF_PORT 3 1), (.capability .msix, 1), (.capability .aer, 1), (.capability .ltr, 1),
          (.capability .flr, 1), (.capability .sriov, 0), (.capability .ats, 0), (.capability .cmb, 0),
          (.barRead 0, 0x3C010FFF), (.barRead 4, 0x00400800), (.barRead 8, 0x00020000), (.barRead 0x2000, 0)] :
          List (PcieRequest × Nat)),
        Completes (.pcieConfigRequest port e.1) s (fun d =>
          d.out = s.chip.out ++ [.config (BitVec.ofNat 32 e.2)] ∧ Keeps [.out] s.chip d)) ∧
      Completes (.pcieConfigRequest port (.barRead 0x1C)) s (fun d =>
        (∃ v : Word, d.out = s.chip.out ++ [.config v] ∧ v.getLsbD 0 = (s.chip.nvq.cntl port.val).rdy ∧
          v.getLsbD 1 = (s.chip.nvq.cntl port.val).cfs) ∧ Keeps [.out] s.chip d) ∧
      (∀ w < 4 * s.chip.vectors, Completes (.pcieConfigRequest port (.barRead (0x8000 + 4 * w))) s (fun d =>
        d.out = s.chip.out ++ [.config (SMap.get msixReset (s.chip.nvq.cntl port.val).msix w)] ∧
        Keeps [.out] s.chip d)) ∧
      (∀ (w : Nat) (v : Word), w < 4 * s.chip.vectors →
        Completes (.pcieConfigRequest port (.barWrite (0x8000 + 4 * w) v)) s (fun d =>
          SMap.get msixReset (d.nvq.cntl port.val).msix w = v ∧ Keeps [.nvq, .out] s.chip d)) ∧
      (∀ (o : Nat) (v : Word), o < 0x8000 ∨ 0x8000 + 16 * s.chip.vectors ≤ o →
        Completes (.pcieConfigRequest port (.barWrite o v)) s (Still s.chip)) ∧
      (∀ n : Nat, ∀ q ∈ [PcieRequest.other n, .barRead n], Completes (.pcieConfigRequest port q) s (fun d =>
        (∃ v, d.out = s.chip.out ++ [.config v]) ∧ Keeps [.out, .freeCtr] s.chip d))) ∧
    (s.chip.bit (linkReg port.val) 0 = false → ∀ q, Completes (.pcieConfigRequest port q) s (Still s.chip))) ∧
  (∀ (s : State) (address offset : Nat) (used : Byte), s.chip.alive = true →
    (s.chip.bit R.HIF_SMB 8 = true → address = s.chip.fld R.HIF_SMB 6 0 →
      Completes (.smbusBasicManagement address offset used) s (fun d =>
        (offset = 0 → ∃ flags : Byte,
          flags.getLsbD 6 = !(s.chip.nvq.c1.rdy || s.chip.nvq.c2.rdy) ∧
          flags.getLsbD 3 = s.chip.bit R.HIF_LINK0 0 ∧ flags.getLsbD 2 = s.chip.bit R.HIF_LINK1 0 ∧
          d.out = s.chip.out ++ [.smbus [flags, BitVec.ofNat 8 s.chip.criticalWarning,
            BitVec.ofNat 8 s.chip.loc.temp, used]]) ∧
        (offset ≠ 0 → d.out = s.chip.out ++ [.smbus (List.replicate 4 0xFF)]) ∧
        Keeps [.out] s.chip d)) ∧
    (s.chip.bit R.HIF_SMB 8 = false ∨ address ≠ s.chip.fld R.HIF_SMB 6 0 →
      Completes (.smbusBasicManagement address offset used) s (Still s.chip)))

/-- Outside HOLDUP on a running chip: CC.EN set on a port whose link is up enables the controller with its
admin queue pair; RDY rises unless the mode is BOOT (R41); an admin queue of one entry sets CFS and creates
none (R115). CONTROLLER_RESET leaves the controller as at reset but for the MSI-X table of its function (the
model's choice, log entry 172), with none of its queues and none of its commands in flight, and the other
controller as it was; a slot named for the next reset becomes the running one (R132, R135). SHUTDOWN_NORMAL
sets SHST 1, and SHST becomes 2 in the work that ends by itself exactly when the controller's commands are
decided, staging is empty and no record waits (R134, R477). SHUTDOWN_ABRUPT with an undecided command sets
SHST 1 and stops band cleaning; with none SHST becomes 2 (R476). -/
def Obligations.ControllersAreEnabledResetAndShutDown : Prop :=
  (∀ (s : State) (i : Fin 2) (asqs acqs : Nat), s.chip.alive = true → s.chip.inHoldup = false →
    s.chip.portHere i.val = true → s.chip.bit (linkReg i.val) 0 = true → (s.chip.nvq.cntl i.val).en = false →
    (asqs % 4096 ≠ 0 → acqs % 4096 ≠ 0 → CompletesThen (.ccEnSet i asqs acqs) s (fun d =>
      (d.nvq.cntl i.val).en = true ∧ (d.nvq.cntl i.val).rdy = (s.chip.sys.mode != .boot) ∧
      d.nvq.sqs = s.chip.nvq.sqs ++ [{ cntl := i.val, qid := 0, size := asqs % 4096 + 1, cqid := 0 }] ∧
      d.nvq.cqs = s.chip.nvq.cqs ++ [{ cntl := i.val, qid := 0, size := acqs % 4096 + 1 }] ∧
      d.nvq.inflight = s.chip.nvq.inflight ∧ d.nvq.cntl (1 - i.val) = s.chip.nvq.cntl (1 - i.val) ∧
      Keeps [.nvq] s.chip d)) ∧
    (asqs % 4096 = 0 ∨ acqs % 4096 = 0 → CompletesThen (.ccEnSet i asqs acqs) s (fun d =>
      (d.nvq.cntl i.val).en = true ∧ (d.nvq.cntl i.val).cfs = true ∧
      (d.nvq.cntl i.val).rdy = (s.chip.nvq.cntl i.val).rdy ∧ d.nvq.sqs = s.chip.nvq.sqs ∧
      d.nvq.cqs = s.chip.nvq.cqs ∧ Keeps [.nvq] s.chip d))) ∧
  (∀ (s : State) (i : Fin 2), s.chip.alive = true → s.chip.inHoldup = false →
    CompletesThen (.controllerReset i) s (fun d =>
      d.nvq.cntl i.val = { msix := (s.chip.nvq.cntl i.val).msix, pba := (s.chip.nvq.cntl i.val).pba } ∧ d.nvq.cntl (1 - i.val) = s.chip.nvq.cntl (1 - i.val) ∧
      d.nvq.inflight = s.chip.nvq.inflight.filter (fun x => x.cntl != i.val) ∧
      d.nvq.sqs = s.chip.nvq.sqs.filter (fun q => q.cntl != i.val) ∧
      d.nvq.cqs = s.chip.nvq.cqs.filter (fun q => q.cntl != i.val) ∧
      d.nvq.staging = s.chip.nvq.staging ∧
      (s.chip.nvq.fwNext ≠ 0 → s.chip.nvq.activating = none →
        d.nvq.fwRunning = s.chip.nvq.fwNext ∧ d.nvq.fwNext = 0) ∧
      (s.chip.nvq.fwNext = 0 → d.nvq.fwRunning = s.chip.nvq.fwRunning ∧ d.mram = s.chip.mram) ∧
      Keeps [.nvq, .loc, .mram] s.chip d) ∧
    ((s.chip.nvq.cntl i.val).rdy = true → (s.chip.nvq.cntl i.val).shst = 0 →
      CompletesThen (.shutdownNormal i) s (fun d =>
        (d.nvq.cntl i.val).shst = 1 ∧ d.nvq.inflight = s.chip.nvq.inflight ∧ Keeps [.nvq] s.chip d)) ∧
    ((s.chip.nvq.cntl i.val).rdy = true → (s.chip.nvq.cntl i.val).shst ≠ 2 → ∀ page : Nat,
      ((∃ x ∈ s.chip.nvq.undecided, x.cntl = i.val) → CompletesThen (.shutdownAbrupt i page) s (fun d =>
        (d.nvq.cntl i.val).shst = 1 ∧ d.bclStops = true ∧ d.nvq.inflight = s.chip.nvq.inflight ∧
        Keeps [.nvq] s.chip d)) ∧
      ((∀ x ∈ s.chip.nvq.undecided, x.cntl ≠ i.val) → CompletesThen (.shutdownAbrupt i page) s (fun d =>
        (d.nvq.cntl i.val).shst = 2 ∧
        Keeps [.regs, .evr, .mram, .jnl, .nvq, .loc, .bcl, .sec, .seg, .nand, .nfc, .mem, .pwr, .assistSaved,
          .chanA, .chanB, .out, .freeCtr] s.chip d)))) ∧
  (∀ (c : Chip) (i : Fin 2), (c.nvq.cntl i.val).shst = 1 → (c.nvq.cntl i.val).abrupt = false →
    ((∀ x ∈ c.nvq.undecided, x.cntl ≠ i.val) → c.nvq.staging = [] → c.jnl.waiting = [] →
      ((c.finishShutdown i.val).nvq.cntl i.val).shst = 2) ∧
    ((∃ x ∈ c.nvq.undecided, x.cntl = i.val) ∨ c.nvq.staging ≠ [] ∨ c.jnl.waiting ≠ [] →
      c.finishShutdown i.val = c))

/-- On a ready controller outside HOLDUP, a tail doorbell of an existing submission queue with a tail inside
it sets that queue's tail alone; an I/O queue's new tail also ends REST and entry to it (R37). A head doorbell
of an existing completion queue sets its head, and what it posts are completions and the controller's
interrupt messages. A doorbell that names a queue that does not exist, or a tail or head outside the queue, is
ignored: it raises BAD_DOORBELL and posts the Invalid Doorbell Write Value notice. A tail equal to the current
tail has no effect. -/
def Obligations.DoorbellsMoveTailsAndHeads : Prop :=
  ∀ (s : State) (i : Fin 2) (qid n : Nat), s.chip.alive = true → s.chip.inHoldup = false →
    (s.chip.nvq.cntl i.val).rdy = true →
    let sq := s.chip.nvq.sqs.find? (fun q => q.cntl == i.val && q.qid == qid)
    let cq := s.chip.nvq.cqs.find? (fun q => q.cntl == i.val && q.qid == qid)
    let bad (d : Chip) : Prop :=
      d = (s.chip.raise 0x11 4).noticeTo i.val noticeBadDoorbell ∧ d.bit (pIntStatus 0x11) 4 = true ∧
      OnlyRegs [pIntStatus 0x11] s.chip d ∧ d.nvq.sqs = s.chip.nvq.sqs ∧
      (∀ q ∈ s.chip.nvq.cqs, ∃ p ∈ d.nvq.cqs, p.cntl = q.cntl ∧ p.qid = q.qid ∧ p.head = q.head) ∧
      Keeps [.nvq, .out, .regs, .pwr] s.chip d
    ((sq = none ∨ ∃ q, sq = some q ∧ q.size ≤ n) → CompletesThen (.sqDoorbell i qid n) s bad) ∧
    ((cq = none ∨ ∃ q, cq = some q ∧ q.size ≤ n) → CompletesThen (.cqDoorbell i qid n) s bad) ∧
    (∀ q, sq = some q → n < q.size →
      CompletesThen (.sqDoorbell i qid n) s (fun d =>
        d.nvq.sqs = s.chip.nvq.sqs.map (fun x =>
          if x.cntl = i.val ∧ x.qid = qid then { x with tail := n } else x) ∧
        d.nvq.cqs = s.chip.nvq.cqs ∧ d.nvq.inflight = s.chip.nvq.inflight ∧
        (qid ≠ 0 → n ≠ q.tail → s.chip.sys.trans = none → s.chip.sys.mode = .rest → d.sys.mode = .service) ∧
        (qid = 0 ∨ n = q.tail ∨ (s.chip.sys.trans = none ∧ s.chip.sys.mode ≠ .rest) →
          Keeps [.nvq] s.chip d) ∧
        Keeps [.nvq, .sys, .loc, .regs] s.chip d) ∧
      (n = q.tail → (∀ x ∈ s.chip.nvq.sqs, x.cntl = i.val → x.qid = qid → x = q) →
        CompletesThen (.sqDoorbell i qid n) s (fun d => d = s.chip))) ∧
    (∀ q, cq = some q → n < q.size → CompletesThen (.cqDoorbell i qid n) s (fun d =>
      d.nvq.sqs = s.chip.nvq.sqs ∧ (∃ p ∈ d.nvq.cqs, p.cntl = i.val ∧ p.qid = qid ∧ p.head = n) ∧
      (∃ sent : List Out, d.out = s.chip.out ++ sent ∧
        ∀ o ∈ sent, (∃ r, o = .completion r) ∨ ∃ v a w, o = .msix i.val v a w) ∧
      Keeps [.nvq, .out] s.chip d))

/-- Fetching a command (Chip.fetchOne) advances the queue's head, counts one more command number and updates
BINDING (R123, R148); BINDING_MIXED is raised where it becomes 3 (R149). A command of the admin queue, one
with an unsupported opcode and one that passes the checks of R139 stands in flight behind every other,
undecided; one for a namespace that is not there completes with Invalid Namespace where nothing else is in
flight and there is room. COMMAND_FETCH changes nothing but the turn of the queues while no queue's controller
may fetch (before RDY, after a shutdown notification, during an activation, at the limit of R115: R48, R122,
R134, R136); with one queue that holds one command that passes the checks, it takes it. UNSUPPORTED_COMMAND of
a command that may be taken: an unsupported opcode is decided with Invalid Command Opcode, which leaves at
once where the command is alone in its queue and there is room, and a supported one is left alone (R118). -/
def Obligations.FetchTakesCommandsInOrderAndChecksThem : Prop :=
  (∀ (c : Chip) (q : Sq) (h : HostCmd), q ∈ c.nvq.sqs →
    let x : InCmd := { cntl := q.cntl, qid := q.qid, cid := h.cid, seq := c.nvq.nextSeq, cmd := h }
    let b := if q.qid = 0 then q.binding else bindingAfter q.binding h.nsid
    let d := c.fetchOne q h
    ((∃ p ∈ d.nvq.sqs, p.cntl = q.cntl ∧ p.qid = q.qid ∧ p.head = (q.head + 1) % q.size ∧ p.binding = b) ∧
      d.nvq.nextSeq = c.nvq.nextSeq + 1 ∧ (b = 3 → q.binding ≠ 3 → d.bit (pIntStatus 0x11) 1 = true) ∧
      (¬ (b = 3 ∧ q.binding ≠ 3) → Keeps [.nvq, .out] c d) ∧
      OnlyRegs [pIntStatus 0x11] c d ∧ Keeps [.nvq, .out, .regs, .pwr] c d) ∧
    ((q.qid = 0 ∨ opcodeOk q.qid h = false ∨ (c.nsOk h = true ∧ c.ioFields h = none)) →
      d.nvq.inflight = c.nvq.inflight ++ [x] ∧ d.out = c.out) ∧
    (q.qid ≠ 0 → opcodeOk q.qid h = true → c.inHoldup = false → c.nsOk h = false →
      c.nvq.inflight = [] → 0 < c.nvq.room q.cntl q.qid →
      (d.out = c.out ++ [.completion { x.status 0 0x0B true with seq := none }] ∨ ∃ v a w,
        d.out = c.out ++ [.completion { x.status 0 0x0B true with seq := none }] ++ [.msix q.cntl v a w]) ∧
      d.nvq.inflight = [])) ∧
  (∀ (s : State) (host : List HostEntry), (∀ q ∈ s.chip.nvq.sqs, s.chip.mayFetch q.cntl = false) →
    CompletesThen (.commandFetch host) s (fun d =>
      d.nvq.inflight = s.chip.nvq.inflight ∧ d.nvq.sqs = s.chip.nvq.sqs ∧ Keeps [.nvq] s.chip d)) ∧
  (∀ (s : State) (e : HostEntry) (q : Sq), s.chip.nvq.sqs = [q] → e.cntl = q.cntl → e.qid = q.qid →
    e.slot = q.head → q.head < q.size → q.tail = (q.head + 1) % q.size → 1 < q.size →
    s.chip.mayFetch q.cntl = true → s.chip.nvq.deleting q.cntl q.qid = false →
    CompletesThen (.commandFetch [e]) s (fun d =>
      d = { s.chip.fetchOne q e.cmd with nvq := { (s.chip.fetchOne q e.cmd).nvq with rr := 0 } } ∧
      (s.chip.fetchCheck q.qid e.cmd = none →
        d.nvq.inflight = s.chip.nvq.inflight ++
          [{ cntl := q.cntl, qid := q.qid, cid := e.cmd.cid, seq := s.chip.nvq.nextSeq, cmd := e.cmd }] ∧
        d.nvq.sqs.map Sq.head = [q.tail] ∧ d.out = s.chip.out))) ∧
  (∀ (s : State) (i : Fin 2) (qid cid : Nat) (x : InCmd), s.chip.alive = true → s.chip.inHoldup = false →
    s.chip.nvq.ready i.val qid cid = some x →
    (opcodeOk qid x.cmd = false → CompletesThen (.unsupportedCommand i qid cid) s (fun d =>
      d = s.chip.finish (x.status 0 0x01 true) ∧
      (s.chip.nvq.inflight.filter (fun y => y.cntl == i.val && y.qid == qid) = [x] →
        0 < s.chip.nvq.room i.val qid → x.isAer = false → x.result = none →
        (∀ y ∈ d.nvq.inflight, y.seq ≠ x.seq) ∧
        .completion { x.status 0 0x01 true with seq := none } ∈ d.out))) ∧
    (opcodeOk qid x.cmd = true → CompletesThen (.unsupportedCommand i qid cid) s (fun d => d = s.chip)))

/-- An admin command of the opcode that may be taken, with a contiguous queue where one is created: Create I/O
CQ with an unused identifier within the pairs of R115, 2 to 4,096 entries and an interrupt vector within the
pairs adds the queue, with its vector and interrupt enable, and succeeds; Create I/O SQ likewise with an
existing completion queue. An identifier 0, too high or in use is Invalid Queue Identifier; a QSIZE of 0 or
over 4,095 Invalid Queue Size (R140). Delete I/O SQ of a queue with no command in flight only marks itself
under way; of a queue with one undecided command it also completes that command with Command Aborted due to SQ
Deletion (R144). A deletion under way removes the queue and succeeds once no command of the queue is in
flight, and changes nothing before. Delete I/O CQ removes a queue to which no submission queue posts, else it
is Invalid Queue Deletion. The created and deleted completion queue and the created submission queue change
the host queues and the output alone. -/
def Obligations.QueuesAreCreatedAndDeleted : Prop :=
  ∀ (s : State) (i : Fin 2) (cid : Nat) (x : InCmd),
    let c := s.chip
    let qid := x.cmd.cdw10 % 65536
    let size := x.cmd.cdw10 / 65536
    let cqUsed := c.nvq.cqs.any (fun q => q.cntl == i.val && q.qid == qid)
    let sqUsed := c.nvq.sqs.any (fun q => q.cntl == i.val && q.qid == qid)
    (c.admin i.val cid 0x05 = some x → x.cmd.cdw11 % 2 = 1 →
      (1 ≤ qid → qid ≤ c.queuePairs → cqUsed = false → 1 ≤ size → size ≤ 4095 →
        x.cmd.cdw11 / 65536 ≤ c.queuePairs → CompletesThen (.createIoCq i cid) s (fun d =>
          d = ({ c with nvq := { c.nvq with
            cqs := c.nvq.cqs ++ [({
              cntl := i.val, qid := qid, size := size + 1
              vector := x.cmd.cdw11 / 65536, ien := x.cmd.cdw11 / 2 % 2 == 1 } : Cq)] } }).finish x.ok ∧
          Keeps [.nvq, .out] c d)) ∧
      (qid = 0 ∨ c.queuePairs < qid ∨ cqUsed = true →
        CompletesThen (.createIoCq i cid) s (fun d => d = c.finish (x.status 1 0x01 true))) ∧
      (1 ≤ qid → qid ≤ c.queuePairs → cqUsed = false → (size = 0 ∨ 4095 < size) →
        CompletesThen (.createIoCq i cid) s (fun d => d = c.finish (x.status 1 0x02 true)))) ∧
    (c.admin i.val cid 0x01 = some x → x.cmd.cdw11 % 2 = 1 →
      let cq := x.cmd.cdw11 / 65536
      let cqThere := c.nvq.cqs.any (fun q => q.cntl == i.val && q.qid == cq)
      (1 ≤ qid → qid ≤ c.queuePairs → sqUsed = false → 1 ≤ size → size ≤ 4095 → cq ≠ 0 → cqThere = true →
        CompletesThen (.createIoSq i cid) s (fun d =>
          d = ({ c with nvq := { c.nvq with
            sqs := c.nvq.sqs ++ [({ cntl := i.val, qid := qid, size := size + 1, cqid := cq } : Sq)] } }).finish x.ok ∧
          Keeps [.nvq, .out] c d)) ∧
      (qid = 0 ∨ c.queuePairs < qid ∨ sqUsed = true →
        CompletesThen (.createIoSq i cid) s (fun d => d = c.finish (x.status 1 0x01 true))) ∧
      (1 ≤ qid → qid ≤ c.queuePairs → sqUsed = false → (size = 0 ∨ 4095 < size) →
        CompletesThen (.createIoSq i cid) s (fun d => d = c.finish (x.status 1 0x02 true)))) ∧
    (c.admin i.val cid 0x00 = some x → qid ≠ 0 → sqUsed = true →
      let working (e : Chip) : Chip := e.mapCmd x.seq (fun y => { y with phase := .working })
      let open_ := c.nvq.inflight.filter (fun z => z.cntl == i.val && z.qid == qid && z.result.isNone)
      (open_ = [] → CompletesThen (.deleteIoSq i cid) s (fun d => d = working c ∧ Keeps [.nvq] c d)) ∧
      (∀ y, open_ = [y] → CompletesThen (.deleteIoSq i cid) s (fun d =>
        d = working (((c.discard y).dropReader (.host y.cntl y.qid y.cid)).finish (y.status 0 0x08 false)) ∧
        Keeps [.regs, .nvq, .loc, .chanA, .chanB, .out] c d)) ∧
      ((∀ y ∈ c.nvq.inflight, ¬ (y.cntl = x.cntl ∧ y.qid = qid)) →
        c.finishDelete x = ({ c with nvq := { c.nvq with
          sqs := c.nvq.sqs.filter (fun q => !(q.cntl == x.cntl && q.qid == qid)) } }).finish x.ok) ∧
      ((∃ y ∈ c.nvq.inflight, y.cntl = x.cntl ∧ y.qid = qid) → c.finishDelete x = c)) ∧
    (c.admin i.val cid 0x04 = some x → qid ≠ 0 → cqUsed = true →
      let used := c.nvq.sqs.any (fun q => q.cntl == i.val && q.cqid == qid)
      (used = false → CompletesThen (.deleteIoCq i cid) s (fun d =>
        d = ({ c with nvq := { c.nvq with
          cqs := c.nvq.cqs.filter (fun q => !(q.cntl == i.val && q.qid == qid)) } }).finish x.ok ∧
        Keeps [.nvq, .out] c d)) ∧
      (used = true → CompletesThen (.deleteIoCq i cid) s (fun d => d = c.finish (x.status 1 0x0C true))))

/-- Identify of a supported CNS sends its 4,096 bytes and succeeds, else it fails with the status of the check
(R117, R118). Get Log Page of a page of R120 (the Changed Zone List for namespaces 1 and 2 only) sends the
bytes from the offset and succeeds when offset and length lie inside it, the offset is in whole double words
and NUMD is at most 524,287 (R140); another identifier is Invalid Log Page. Set Features with SV 1 is Feature
Identifier Not Saveable (R119), after the namespace check for Secure Discard Mode; Arbitration, Interrupt
Coalescing and Asynchronous Event Configuration are kept for the controller and Get Features returns them; a
Number of Queues request is granted up to the pairs and reported in double word 0; Error Recovery writes
NVQ_TLER and reads it back (R143); Secure Discard Mode adds or removes its namespace; a feature of no row is
Invalid Field in Command. Sending changes the host queues, the output and the free-value counter alone. -/
def Obligations.IdentifyLogsAndFeatures : Prop :=
  (∀ (s : State) (i : Fin 2) (cid : Nat) (x : InCmd), s.chip.admin i.val cid 0x06 = some x →
    (∀ bs, s.chip.identifyData i.val x.cmd = .inl bs → bs.length = 4096 ∧
      CompletesThen (.identify i cid) s (fun d =>
        d = (s.chip.emit (.bytes i.val 0 cid bs)).finish x.ok ∧ Keeps [.nvq, .out] s.chip d)) ∧
    (∀ st, s.chip.identifyData i.val x.cmd = .inr st →
      CompletesThen (.identify i cid) s (fun d => d = s.chip.fail x st))) ∧
  (∀ (s : State) (i : Fin 2) (cid : Nat) (x : InCmd), s.chip.admin i.val cid 0x02 = some x →
    let n := 4 * (x.cmd.cdw10 / 65536 % 65536 + x.cmd.cdw11 % 65536 * 65536 + 1)
    let start := x.cmd.cdw12 + x.cmd.cdw13 * 2 ^ 32
    let page := x.cmd.cdw10 % 256
    (page ∉ [1, 2, 3, 4, 5, 6, 0xBF, 0xC0, 0xC1] →
      CompletesThen (.getLogPage i cid) s (fun d => d = s.chip.finish (x.status 1 0x09 true))) ∧
    (page = 0xBF → x.cmd.nsid ≠ 1 → x.cmd.nsid ≠ 2 →
      CompletesThen (.getLogPage i cid) s (fun d => d = s.chip.finish (x.status 0 0x0B true))) ∧
    (page ∈ [1, 2, 3, 4, 5, 6, 0xBF, 0xC0, 0xC1] → (page = 0xBF → x.cmd.nsid = 1 ∨ x.cmd.nsid = 2) → ∃ bs c, s.chip.logPage x = some (bs, c) ∧
      Keeps [.freeCtr] s.chip c ∧
      (start % 4 = 0 → n ≤ 2097152 → start + n ≤ bs.length → CompletesThen (.getLogPage i cid) s (fun d =>
        d = ((c.emit (.bytes i.val 0 cid (slice bs start n))).logRead x).finish x.ok ∧
        Keeps [.nvq, .out, .freeCtr] s.chip d)) ∧
      (start % 4 ≠ 0 ∨ 2097152 < n ∨ bs.length < start + n →
        CompletesThen (.getLogPage i cid) s (fun d => d = s.chip.fail x stInvalidField)))) ∧
  (∀ (s : State) (i : Fin 2) (cid : Nat) (x : InCmd), s.chip.admin i.val cid 0x09 = some x →
    let c := s.chip
    let f := x.cmd.cdw10 % 256
    let v := x.cmd.cdw11
    (f = 0xC1 → c.nsActive x.cmd.nsid = false →
      CompletesThen (.setFeatures i cid) s (fun d => d = c.finish (x.status 0 0x0B true))) ∧
    (x.cmd.cdw10 / 2 ^ 31 % 2 = 1 → (f = 0xC1 → c.nsActive x.cmd.nsid = true) →
      CompletesThen (.setFeatures i cid) s (fun d => d = c.finish (x.status 1 0x0D true))) ∧
    (x.cmd.cdw10 / 2 ^ 31 % 2 = 0 →
      (f ∈ [0x01, 0x0B] → CompletesThen (.setFeatures i cid) s (fun d =>
        d = (c.setFeature i.val f v).finish x.ok ∧ d.feature i.val f = v ∧ Keeps [.nvq, .out] c d)) ∧
      (f = 0x08 → CompletesThen (.setFeatures i cid) s (fun d =>
        d = (c.setFeature i.val 0x08 (v % 65536)).finish x.ok ∧ d.feature i.val 0x08 = v % 65536 ∧
        Keeps [.nvq, .out] c d)) ∧
      (f = 0x07 → v % 65536 ≠ 65535 → v / 65536 ≠ 65535 → v < 2 ^ 32 → CompletesThen (.setFeatures i cid) s (fun d =>
        let m := c.queuePairs - 1
        let g := min (v % 65536) m + min (v / 65536) m * 65536
        d = (c.setFeature i.val 0x07 (2 ^ 32 + g)).finish { x.ok with dw0 := g } ∧ Keeps [.nvq, .out] c d)) ∧
      (f = 0x05 → v / 65536 % 2 = 0 → CompletesThen (.setFeatures i cid) s (fun d =>
        d = (c.setFld R.NVQ_TLER 15 0 (v % 65536)).finish x.ok ∧ d.fld R.NVQ_TLER 15 0 = v % 65536 ∧
        OnlyRegs [R.NVQ_TLER] c d ∧ Keeps [.regs, .nvq, .out] c d)) ∧
      (f = 0xC1 → c.nsActive x.cmd.nsid = true → CompletesThen (.setFeatures i cid) s (fun d =>
        (x.cmd.nsid ∈ d.nvq.secure ↔ v % 2 = 1) ∧
        (∀ n, n ≠ x.cmd.nsid → (n ∈ d.nvq.secure ↔ n ∈ c.nvq.secure)) ∧ Keeps [.nvq, .out] c d)) ∧
      (f ∉ [0x01, 0x02, 0x04, 0x05, 0x07, 0x08, 0x09, 0x0B, 0x0E, 0xC1] →
        CompletesThen (.setFeatures i cid) s (fun d => d = c.fail x stInvalidField)))) ∧
  (∀ (s : State) (i : Fin 2) (cid : Nat) (x : InCmd), s.chip.admin i.val cid 0x0A = some x →
    let c := s.chip
    let f := x.cmd.cdw10 % 256
    (f = 0xC1 → c.nsActive x.cmd.nsid = false →
      CompletesThen (.getFeatures i cid) s (fun d => d = c.finish (x.status 0 0x0B true))) ∧
    (x.cmd.cdw10 / 256 % 8 = 0 →
      (f ∈ [0x01, 0x08, 0x0B] → CompletesThen (.getFeatures i cid) s (fun d =>
        d = c.finish { x.ok with dw0 := c.feature i.val f } ∧ Keeps [.nvq, .out] c d)) ∧
      (f = 0x05 → CompletesThen (.getFeatures i cid) s (fun d =>
        d = c.finish { x.ok with dw0 := c.fld R.NVQ_TLER 15 0 })) ∧
      (f = 0x02 → CompletesThen (.getFeatures i cid) s (fun d => d = c.finish { x.ok with dw0 := c.nvq.ps }))) ∧
    (f ∉ [0x01, 0x02, 0x04, 0x05, 0x07, 0x08, 0x09, 0x0B, 0x0E, 0xC1] →
      CompletesThen (.getFeatures i cid) s (fun d => d = c.fail x stInvalidField)))

/-- An Abort that wins decides the command it names with Command Abort Requested and itself with CDW0 0; one
that loses counts in NVQ_ABORT_LOST and answers 1; one that names no command in flight, an Abort or an event
request answers 1; a fifth concurrent one fails (R137, R138). An Asynchronous Event Request takes the oldest
notice or stays outstanding; a ninth fails (R117). A download in whole 4 KiB pieces inside 8 MiB is stored at
its place in the image, any other is Invalid Field (R135). Commit actions 0, 1 and 3 program an image that
passes the checks of R59 into the slot and clear the downloaded one, naming the slot for the next reset (1, 3)
and beginning an activation (3); action 2 names a slot that holds an image. A bad image or slot changes no
slot. FW_ACTIVATION_TIMEOUT abandons the activation (R136). Device Self-test starts, is refused while one
runs, and stops (R118); the end of its scan records result 0 without an error and 6 with one (the codes are
NVMe's). A temperature crossing sets the composite temperature and posts its notice (R119). -/
def Obligations.AbortEventsFirmwareAndSelfTest : Prop :=
  (∀ (s : State) (i : Fin 2) (cid : Nat) (wins : Bool) (x : InCmd), s.chip.admin i.val cid 0x08 = some x →
    let c := s.chip
    let older := c.nvq.inflight.filter (fun y => y.cntl == i.val && y.qid == 0 && y.cmd.opcode == 0x08 &&
      y.result.isNone && y.seq < x.seq)
    let named := c.nvq.find i.val (x.cmd.cdw10 % 65536) (x.cmd.cdw10 / 65536)
    (4 ≤ older.length → CompletesThen (.abort i cid wins) s (fun d =>
      d = (c.finish (x.status 1 0x03 true)).ladderStopped)) ∧
    (older.length < 4 →
      (named = none ∨ (∃ y, named = some y ∧ (y.isAer = true ∨ (y.qid = 0 ∧ y.cmd.opcode = 0x08))) →
        CompletesThen (.abort i cid wins) s (fun d => d = (c.finish { x.ok with dw0 := 1 }).ladderStopped)) ∧
      (∀ y, named = some y → y.isAer = false → ¬ (y.qid = 0 ∧ y.cmd.opcode = 0x08) →
        (y.result ≠ none ∨ wins = false → CompletesThen (.abort i cid wins) s (fun d =>
          d = ((c.bump R.NVQ_ABORT_LOST).finish { x.ok with dw0 := 1 }).ladderStopped)) ∧
        (y.result = none → wins = true → CompletesThen (.abort i cid wins) s (fun d =>
          d = ((((c.discard y).dropReader (.host y.cntl y.qid y.cid)).finish (y.status 0 0x07 false)).finish
            x.ok).ladderStopped ∧
          Keeps mediaParts c d))))) ∧
  (∀ (s : State) (i : Fin 2) (cid : Nat) (x : InCmd), s.chip.alive = true → s.chip.inHoldup = false →
    s.chip.nvq.find i.val 0 cid = some x → x.isAer = true → x.phase = .fetched → x.result = none →
    let c := s.chip
    let outstanding := c.nvq.inflight.filter (fun y => y.cntl == i.val && y.isAer && y.phase == .working &&
      y.result.isNone)
    (8 ≤ outstanding.length → CompletesThen (.asyncEventRequest i cid) s (fun d =>
      d = c.finish (x.status 1 0x05 true))) ∧
    (outstanding.length < 8 →
      (∀ n ns, (c.nvq.cntl i.val).notices = n :: ns → CompletesThen (.asyncEventRequest i cid) s (fun d =>
        d = (c.mapCntl i.val (fun y => { y with notices := ns })).finish { x.ok with dw0 := n } ∧
        (d.nvq.cntl i.val).notices = ns ∧ Keeps [.nvq, .out] c d)) ∧
      ((c.nvq.cntl i.val).notices = [] → CompletesThen (.asyncEventRequest i cid) s (fun d =>
        d = c.mapCmd x.seq (fun y => { y with phase := .working }) ∧ Keeps [.nvq] c d)))) ∧
  (∀ (s : State) (i : Fin 2) (cid : Nat) (x : InCmd), s.chip.admin i.val cid 0x11 = some x →
    let n := x.cmd.cdw10 + 1
    let o := x.cmd.cdw11
    (o % 1024 = 0 → n % 1024 = 0 → n ≤ 524288 → o + n ≤ 2097152 →
      CompletesThen (.firmwareImageDownload i cid) s (fun d =>
        d = (s.chip.storeImage (4 * o) (x.cmd.data.take (4 * n))).finish x.ok ∧ Keeps [.nvq, .out] s.chip d)) ∧
    (o % 1024 ≠ 0 ∨ n % 1024 ≠ 0 ∨ 524288 < n ∨ 2097152 < o + n →
      CompletesThen (.firmwareImageDownload i cid) s (fun d => d = s.chip.fail x stInvalidField))) ∧
  (∀ (s : State) (i : Fin 2) (cid : Nat) (x : InCmd) (good : Bool), s.chip.admin i.val cid 0x10 = some x →
    let c := s.chip
    let slot := x.cmd.cdw10 % 8
    let ca := x.cmd.cdw10 / 8 % 8
    (ca ≤ 3 → slot ≠ 1 → slot ≠ 2 → CompletesThen (.firmwareCommit i cid good) s (fun d =>
      d = c.finish (x.status 1 0x06 true))) ∧
    (slot = 1 ∨ slot = 2 →
      (ca ∈ [0, 1, 3] → c.imageStep c.downloaded good ≠ 0 → CompletesThen (.firmwareCommit i cid good) s (fun d =>
        d = c.finish (x.status 1 0x07 true) ∧ d.nvq.fwSlot1 = c.nvq.fwSlot1 ∧ d.nvq.fwSlot2 = c.nvq.fwSlot2)) ∧
      (ca ∈ [0, 1, 3] → c.imageStep c.downloaded good = 0 → CompletesThen (.firmwareCommit i cid good) s (fun d =>
        d.nvq.fwSlot1 = (if slot = 1 then leAt c.downloaded 8 4 else c.nvq.fwSlot1) ∧
        d.nvq.fwSlot2 = (if slot = 2 then leAt c.downloaded 8 4 else c.nvq.fwSlot2) ∧
        .norProgram (slotBase slot) c.downloaded ∈ d.out ∧ d.nvq.image = [] ∧
        d.nvq.fwRunning = c.nvq.fwRunning ∧ d.nvq.fwNext = (if ca = 0 then c.nvq.fwNext else slot) ∧
        d.nvq.activating = (if ca = 3 then some (i.val, 0, cid) else c.nvq.activating) ∧
        Keeps [.nvq, .out] c d)) ∧
      (ca = 2 → (if slot = 1 then c.nvq.fwSlot1 else c.nvq.fwSlot2) ≠ 0 →
        CompletesThen (.firmwareCommit i cid good) s (fun d =>
          d.nvq.fwNext = slot ∧ d.nvq.fwRunning = c.nvq.fwRunning ∧ Keeps [.nvq, .out] c d)))) ∧
  (∀ (s : State) (i q k : Nat), s.chip.alive = true → s.chip.inHoldup = false →
    s.chip.nvq.activating = some (i, q, k) → CompletesThen .fwActivationTimeout s (fun d =>
      d.nvq.activating = none ∧ d.nvq.fwRunning = s.chip.nvq.fwRunning ∧ d.bit (pIntStatus 0x11) 2 = true ∧
      OnlyRegs [pIntStatus 0x11] s.chip d ∧ Keeps [.regs, .nvq, .pwr, .out] s.chip d)) ∧
  (∀ (s : State) (i : Fin 2) (cid : Nat) (x : InCmd), s.chip.admin i.val cid 0x14 = some x →
    let c := s.chip
    let stc := x.cmd.cdw10 % 16
    ((stc = 1 ∨ stc = 2) → c.nvq.selfTest = 0 → CompletesThen (.deviceSelfTest i (.command cid)) s (fun d =>
      d.nvq.selfTest = stc ∧ (c.sys.mode = .rest → c.sys.trans = none → d.sys.mode = .service) ∧
      Keeps [.regs, .sys, .nvq, .loc, .out] c d)) ∧
    ((stc = 1 ∨ stc = 2) → c.nvq.selfTest ≠ 0 → CompletesThen (.deviceSelfTest i (.command cid)) s (fun d =>
      d = c.finish (x.status 1 0x1D true))) ∧
    (stc = 15 → CompletesThen (.deviceSelfTest i (.command cid)) s (fun d =>
      d.nvq.selfTest = 0 ∧ (c.nvq.selfTest ≠ 0 → d.nvq.selfResults.head? = some (c.nvq.selfTest, 1)) ∧
      Keeps [.nvq, .out] c d)) ∧
    (stc ∉ [1, 2, 15] → CompletesThen (.deviceSelfTest i (.command cid)) s (fun d => d = c.fail x stInvalidField))) ∧
  (∀ (s : State) (i : Fin 2) (good : Bool), s.chip.alive = true → s.chip.inHoldup = false → s.chip.nvq.selfTest ≠ 0 →
    CompletesThen (.deviceSelfTest i (.scanned good)) s (fun d => d.nvq.selfTest = 0 ∧
      d.nvq.selfResults.head? = some (s.chip.nvq.selfTest, if good then 0 else 6) ∧ Keeps [.nvq] s.chip d)) ∧
  (∀ (s : State) (temp : Nat) (high : Bool), s.chip.alive = true → s.chip.inHoldup = false →
    CompletesThen (.temperatureThresholdCrossed temp high) s (fun d =>
      d = ({ s.chip with loc := { s.chip.loc with temp := temp } }).notice 1 noticeTemp ∧ d.loc.temp = temp ∧
      Keeps [.nvq, .loc, .out] s.chip d))

/-- In SERVICE with no transition: Format NVM of an active namespace with LBAF 0 begins to unmap the keys and
zones that the namespace holds, with SES 2 after a record that destroys its keys (R118, R242, R244). Sanitize
crypto erase draws a new media root, which it writes to both slots of group 7, destroys every band key by a
record and begins to unmap every namespace; exit failure mode succeeds; block erase, overwrite and the other
actions are Invalid Field (R118, R249). A device condition of R144 decides either first; while the journal is
at its high-water mark neither has an effect (R19). A namespace that is not active, LBAF above 0 and SES above
2 are refused. An unmapping command with nothing left to unmap succeeds where its discard is not secure, and
else a secure discard begins that holds its completion: for SES 1 and 2 of the namespace's actuators, for
Sanitize of both (R244). One whose next zone must wait for the journal changes nothing but what it remembers.
-/
def Obligations.FormatAndSanitizeUnmapTheirNamespaces : Prop :=
  (∀ (s : State) (i : Fin 2) (cid : Nat) (x : InCmd), s.chip.admin i.val cid 0x80 = some x →
    let c := s.chip
    let n := x.cmd.nsid
    let ses := x.cmd.cdw10 / 512 % 8
    (c.nsActive n = false → CompletesThen (.formatNvm i cid) s (fun d => d = c.finish (x.status 0 0x0B true))) ∧
    (c.nsActive n = true →
      (x.cmd.cdw10 % 16 ≠ 0 → CompletesThen (.formatNvm i cid) s (fun d =>
        d = c.finish (x.status 1 0x0A true))) ∧
      (x.cmd.cdw10 % 16 = 0 → 2 < ses → CompletesThen (.formatNvm i cid) s (fun d =>
        d = c.finish (x.status 0 0x02 true))) ∧
      (x.cmd.cdw10 % 16 = 0 → ses ≤ 2 → c.sys.mode = .service → c.sys.trans = none →
        (∀ st, c.gate n true = some st → CompletesThen (.formatNvm i cid) s (fun d => d = c.fail x st)) ∧
        (c.gate n true = none → c.mustWait .sec = true →
          CompletesThen (.formatNvm i cid) s (fun d => d = c)) ∧
        (c.gate n true = none → c.mustWait .sec = false → CompletesThen (.formatNvm i cid) s (fun d =>
          let e := if ses = 2 then c.commit .sec [.secDestroy 1 n 0] [] else c
          d = e.unmapStart x (e.unmapKeysOf n) (e.unmapZonesOf n) ∧ Keeps commitParts c d))))) ∧
  (∀ (s : State) (i : Fin 2) (cid : Nat) (x : InCmd), s.chip.admin i.val cid 0x84 = some x →
    let c := s.chip
    let act := x.cmd.cdw10 % 8
    (act = 1 → CompletesThen (.sanitize i cid) s (fun d => d = c.finish x.ok)) ∧
    (act ≠ 1 → act ≠ 4 → CompletesThen (.sanitize i cid) s (fun d => d = c.finish (x.status 0 0x02 true))) ∧
    (act = 4 → c.sys.mode = .service → c.sys.trans = none →
      (c.chd.retiredA = true ∨ c.chd.retiredB = true → CompletesThen (.sanitize i cid) s (fun d =>
        d = c.finish (x.status 0 0x82 true))) ∧
      (c.chd.retiredA = false → c.chd.retiredB = false →
        (∀ st, c.gate 1 true = some st → CompletesThen (.sanitize i cid) s (fun d => d = c.fail x st)) ∧
        (c.gate 1 true = none → c.mustWait .sec = true → CompletesThen (.sanitize i cid) s (fun d => d = c)) ∧
        (c.gate 1 true = none → c.mustWait .sec = false → CompletesThen (.sanitize i cid) s (fun d =>
          let e := ((c.takeRandom 256).2.writeKey 7 1 0 (c.takeRandom 256).1).commit .sec [.secDestroy 2 0 0] []
          d = e.unmapStart x ([1, 2, 3, 4].flatMap e.unmapKeysOf) ([1, 2, 3, 4].flatMap e.unmapZonesOf) ∧
          Keeps commitParts c d))))) ∧
  (∀ (c : Chip) (x : InCmd) (zones : List Nat),
    let went := c.mapCmd x.seq (fun y => { y with
      phase := .working, keys := [], units := zones, safe := zones.filterMap c.bandOfZone })
    (zones ≠ [] → c.mustWaitFor .locus 3 = true → c.unmapStart x [] zones = went) ∧
    (zones = [] → c.nvq.inflight = [x] → x.cmd.opcode ∈ [0x80, 0x84] →
      let secure := x.cmd.opcode = 0x84 ∨ x.cmd.cdw10 / 512 % 8 ≠ 0
      (¬ secure → c.unmapStart x [] [] = went.finish x.ok) ∧
      (secure → ∃ w, (c.unmapStart x [] []).bcl.discards.map (fun d => (d.post, d.purgeA, d.purgeB)) =
          (c.bcl.discards.map (fun d => (d.post, d.purgeA, d.purgeB))) ++ [w] ∧ w = (some x.ok,
            decide (x.cmd.opcode = 0x84) || (nsActs x.cmd.nsid).contains .A,
            decide (x.cmd.opcode = 0x84) || (nsActs x.cmd.nsid).contains .B))))

/-- The device conditions of R144 (Chip.gate): an actuator of the namespace retired, or life-cycle RETIRED, is
Namespace Not Ready with DNR; REBUILD is Not Ready without it, or under POLICY 1 Operation Denied for a
command that changes the media and none for another (R40). Issuing an I/O command (Chip.begin): a device
condition decides it with that status. Without one it waits, with no effect, in REST, while an actuator of its
namespace is calibrated, and, if it writes, while a zone of it would be changed by the APPLY that runs or has
still to be changed by a Zone Finish, Zone Reset, Format or Sanitize under way (R37, R144, R187). Behind
earlier unfinished work of its queue for another actuator, or for both, it waits; the first time it does so
NVQ_MIXED_CNT counts one (R124). Otherwise its queue remembers the actuators and it is issued; where an
actuator of its namespace is lost it waits for it, and its budget starts (R142). Nothing else changes. -/
def Obligations.IssueFollowsDeviceConditionsAndQueueOrder : Prop :=
  (∀ (c : Chip) (n : Nat) (m : Bool),
    (c.effective = 4 → c.gate n m = some (0, 0x82, true)) ∧
    (c.retired .A = true → n ∈ [1, 3, 4] → c.gate n m = some (0, 0x82, true)) ∧
    (c.retired .B = true → n ∈ [2, 3, 4] → c.gate n m = some (0, 0x82, true)) ∧
    (c.effective ≠ 4 → c.retired .A = false → c.retired .B = false →
      (c.sys.mode ≠ .rebuild → c.gate n m = none) ∧
      (c.sys.mode = .rebuild → c.bit R.SYS_REBUILD_POLICY 0 = false → c.gate n m = some (0, 0x82, false)) ∧
      (c.sys.mode = .rebuild → c.bit R.SYS_REBUILD_POLICY 0 = true →
        c.gate n m = if m then some (0, 0x20, false) else none))) ∧
  (∀ (c : Chip) (x : InCmd) (m : Bool),
    (∀ st, c.gate x.cmd.nsid m = some st → c.begin x m = (false, c.fail x st)) ∧
    (c.gate x.cmd.nsid m = none →
      (c.sys.mode = .rest ∨ (nsActs x.cmd.nsid).any c.calibrating = true ∨
        (m = true ∧ c.zoneTaken x.cmd = true) → c.begin x m = (false, c)) ∧
      (c.sys.mode ≠ .rest → (nsActs x.cmd.nsid).any c.calibrating = false →
        (m = true → c.zoneTaken x.cmd = false) →
        (c.earlierWork x = false →
          let d : Chip := { c with nvq := { c.nvq with sqs := c.nvq.sqs.map (fun q =>
            if q.cntl = x.cntl ∧ q.qid = x.qid then { q with last := actsCode x.cmd.nsid } else q) } }
          ((nsActs x.cmd.nsid).any c.lostNow = false → c.begin x m = (true, d)) ∧
          ((nsActs x.cmd.nsid).any c.lostNow = true → c.begin x m = (false,
            d.mapCmd x.seq (fun y => { y with issued := some (y.issued.getD c.dtm.dtime) })))) ∧
        (∀ q, c.earlierWork x = true → c.nvq.sqs.find? (fun q => q.cntl == x.cntl && q.qid == x.qid) = some q →
          q.last ≠ 0 → (q.last ≠ actsCode x.cmd.nsid ∨ actsCode x.cmd.nsid = 3) →
          (x.mixed = true → c.begin x m = (false, c)) ∧
          (x.mixed = false → (c.begin x m).1 = false ∧
            (c.begin x m).2.reg R.NVQ_MIXED_CNT =
              BitVec.ofNat 32 (min ((c.reg R.NVQ_MIXED_CNT).toNat + 1) 0xFFFFFFFF) ∧
            OnlyRegs [R.NVQ_MIXED_CNT] c (c.begin x m).2 ∧ Keeps [.regs, .nvq] c (c.begin x m).2))))) ∧
  (∀ (c : Chip) (h : HostCmd), c.zoneTaken h = true ↔
    (c.bit R.LOC_PART_CTRL 1 = true ∧ ∃ i ∈ c.cmdZones h, c.concerned c.askedPart i = true) ∨
    (∃ y ∈ c.nvq.inflight, (y.finishing = true ∨ (y.unmaps = true ∧ y.phase = .working ∧ y.result = none)) ∧
      ∃ i ∈ y.units, i ∈ c.cmdZones h))

/-- The newest staged copy of an LBA is what a read of it gives (R20); an LBA of an Empty zone, and one at or
above the write pointer of a sequential zone that no hot map entry redirects, gives zeros with no media access
outside REBUILD (R144, R197). What the media gives counts only where its sector is confirmed, or is
unrecovered (R26). A Read or Verify goes on as that comes: once every LBA is known it is delivered; a Read's
data goes to the host and it succeeds, and one unrecovered sector or lost-unit marker makes it an Unrecovered
Read Error, as does poisoned data, which is sent with the EP bit and counted (R113, R144). While an LBA is not
known it stays in flight with what it resolved; one that an earlier write of its queue overlaps waits for that
(R123). Verify transfers nothing. An Offline zone and a wrong SGL length reject it (R139). At the end of the
retry budget it is Not Ready where its actuator is lost or its map page is not recovered; else its ladders
stop and it is unrecovered, with an event (R142, R309). The number of poisoned TLPs of a block, 8 to 32, is
the model's. -/
def Obligations.ReadsReturnTheNewestDataOrAnError : Prop :=
  (∀ (n : Nvq) (us : List Staged) (u : Staged) (unit : Nat) (b : Block), n.staging = us ++ [u] → u.nsid ≠ 4 →
    u.unit ≤ unit → u.data.find? (unit - u.unit) = some b →
    n.stagedAt u.zone unit =
      some (if u.poison.any (fun w => w / 512 == unit - u.unit) then .poisoned b else .good b)) ∧
  (∀ (c : Chip) (zone unit : Nat), c.sys.mode ≠ .rebuild →
    ((c.zone zone).state = 0 → (c.zone zone).kind ≠ 3 → c.resolve zone unit = .zeros) ∧
    ((c.zone zone).kind = 1 → (c.zone zone).mwp ≤ unit → c.hotOf zone unit = none →
      c.resolve zone unit = .zeros)) ∧
  (∀ (c : Chip) (x : InCmd) (transfer : Bool) (rs : List ReadResult),
    ((.marker ∈ rs ∨ .unrecovered ∈ rs) → c.deliver x transfer rs = c.finish (x.status 2 0x81 false)) ∧
    (∀ bs : List Block, rs = bs.map ReadResult.good →
      c.deliver x true rs = (c.emit (.blocks x.cntl x.qid x.cid (bs.map (·, false)))).finish x.ok ∧
      c.deliver x false rs = c.finish x.ok) ∧
    (∀ b, rs = [.poisoned b] → c.deliver x false rs = c.finish (x.status 2 0x81 false) ∧
      ∃ (k : Nat) (e : Chip), 8 ≤ k ∧ k ≤ 32 ∧ c.deliver x true rs = e.finish (x.status 2 0x81 false) ∧
        e.out = c.out ++ [.blocks x.cntl x.qid x.cid [(b, true)]] ∧
        e.reg R.HIF_POISON_TX = BitVec.ofNat 32 (min ((c.reg R.HIF_POISON_TX).toNat + k) 0xFFFFFFFF) ∧
        e.bit (pIntStatus 0x10) 3 = true)) ∧
  (∀ (s : State) (i : Fin 2) (qid cid : Nat) (media : List (Nat × ReadResult)) (x : InCmd)
      (verify : Bool),
    let row : Instr := if verify then .verify i qid cid media else .read i qid cid media
    let op := if verify then 0x0C else 0x02
    let touched := s.chip.zonesTouched x.cmd.nsid x.cmd.slba x.cmd.nlb
    s.chip.io i.val qid cid op = some x →
    (touched.any (fun z => (s.chip.zone z).state == 6) = true →
      CompletesThen row s (fun d => d = s.chip.finish (x.status 1 0xBB true))) ∧
    (touched.any (fun z => (s.chip.zone z).state == 6) = false →
      (x.cmd.sglBad = true → verify = false →
        CompletesThen row s (fun d => d = s.chip.finish (x.status 0 0x0F true))) ∧
      (∀ e, x.cmd.sglBad = false ∨ verify = true → s.chip.begin x false = (false, e) →
        CompletesThen row s (fun d => d = e)) ∧
      (∀ e, x.cmd.sglBad = false ∨ verify = true → s.chip.begin x false = (true, e) → s.chip.nvq.readWaits x = true →
        CompletesThen row s (fun d => d = e)) ∧
      (∀ e, x.cmd.sglBad = false ∨ verify = true → s.chip.begin x false = (true, e) → s.chip.nvq.readWaits x = false →
        let t := some (x.issued.getD s.chip.dtm.dtime)
        let f := e.mapCmd x.seq (fun y => { y with phase := .working, issued := t })
        let ps := f.places x.cmd.nsid x.cmd.slba x.cmd.nlb
        (f.resolveAll ps = none → CompletesThen row s (fun d => d = f)) ∧
        ∀ rs bs, f.resolveAll ps = some (rs, bs) →
          let y : InCmd := { { x with phase := .working, issued := t } with resolved := rs, bands := bs }
          let g := (f.mapCmd x.seq (fun z => { z with resolved := rs, bands := bs })).locate ps
          let known := rs.map (fun e => e.2 <|> g.given y media e.1)
          (∀ vs, known = vs.map some → CompletesThen row s (fun d =>
            d = g.deliver y (!verify) vs ∧ Keeps [.regs, .nvq, .pwr, .out, .freeCtr] s.chip d)) ∧
          (none ∈ known → CompletesThen row s (fun d => d = g ∧ Keeps [.nvq, .out] s.chip d))))) ∧
  (∀ (s : State) (i : Fin 2) (qid cid : Nat) (media : List (Nat × ReadResult)) (x : InCmd)
      (verify : Bool), s.chip.alive = true → s.chip.inHoldup = false → qid ≠ 0 →
    s.chip.nvq.find i.val qid cid = some x → x.cmd.opcode = (if verify then 0x0C else 0x02) → x.cmd.nsid ≠ 4 →
    x.phase = .working → x.result = none → x.resolved ≠ [] →
    let row : Instr := if verify then .verify i qid cid media else .read i qid cid media
    let known := x.resolved.map (fun e => e.2 <|> s.chip.given x media e.1)
    (∀ vs, known = vs.map some → CompletesThen row s (fun d => d = s.chip.deliver x (!verify) vs)) ∧
    (none ∈ known → CompletesThen row s (fun d => d = s.chip))) ∧
  (∀ (c : Chip) (x : InCmd) (media : List (Nat × ReadResult)) (lba : Nat) (r : ReadResult),
    media.find? (fun m => m.1 == lba) = some (lba, r) →
    (r = .unrecovered → c.given x media lba = some .unrecovered) ∧
    (r ≠ .unrecovered → c.given x media lba = if c.confirmedFor x lba then some r else none)) ∧
  (∀ (s : State) (i : Fin 2) (qid cid : Nat) (x : InCmd), s.chip.alive = true → s.chip.inHoldup = false →
    s.chip.fld R.NVQ_TLER 15 0 ≠ 0 → s.chip.nvq.find i.val qid cid = some x → qid ≠ 0 → x.issued ≠ none →
    x.result = none →
    let c := s.chip
    let notReady : Prop := (nsActs x.cmd.nsid).any c.lostNow = true ∨ (c.sys.mode = .rebuild ∧ x.resolved = [])
    (x.phase = .fetched → notReady → CompletesThen (.retryBudgetExpiry i qid cid) s (fun d =>
      d = (c.raise 0x11 3).finish (x.status 0 0x82 false) ∧ Keeps [.regs, .nvq, .pwr, .out] c d)) ∧
    (x.phase = .working → (x.cmd.opcode = 0x02 ∨ (x.cmd.nsid ≠ 4 ∧ x.cmd.opcode = 0x0C)) →
      let r : Reader := .host i.val qid cid
      let step := (c.laddersOf r).foldl (fun m l => max m l.step) 0
      let e := (((c.countStopped r .A).countStopped r .B).dropReader r).ladderStopped.raise 0x11 3
      CompletesThen (.retryBudgetExpiry i qid cid) s (fun d =>
        (notReady → d = e.finish (x.status 0 0x82 false)) ∧
        (¬ notReady → d = (e.event 0x2801 [i.val + 1, qid, cid, step]).finish (x.status 2 0x81 false)) ∧
        d.bit (pIntStatus 0x11) 3 = true ∧ Keeps mediaParts c d)))

/-- The zone rules of a Write to a sequential zone: Read Only, Offline and Full zones refuse it, as does an
LBA off the write pointer (R139, R144). A Write or Zone Append that passes them and whose zone no command
under way will change is accepted: where the zones need new bands these are allocated first, with their
records, or it waits while those must (R19), or is refused where there is no band; the open limits of R128 may
refuse it. Accepted, it advances the host-view write pointer to its end, a zone filled to its end becoming
Full, takes its units, and its transfer starts where the dirty limit has room and no write is held, else it is
held (R21, R127). WRITE_TRANSFER_START starts the first held write once it fits. WRITE_UNIT_POWER_SAFE of a
write no earlier write of its queue is ahead of puts the unit's data into staging, unless its zone was reset
since or is Offline (R214), takes it from the command's units, and completes the command with the last, a Zone
Append with its LBA (R126, R127). A poisoned TLP is counted, drops the command's staged units, takes the write
pointer back to no higher than its first unit and fails the command (R144). Write Zeroes without DEAC obeys
the same rules, and its units are staged as zeros once it may transfer (R118). -/
def Obligations.WritesAreAcceptedStagedAndCompletedWhenPowerSafe : Prop :=
  (∀ (c : Chip) (nsid base n : Nat), nsid = 1 ∨ nsid = 2 → 1 ≤ n → base % 65536 + n ≤ 65536 →
    let z := c.zone (c.loc.place nsid base).1
    (z.state = 5 → c.writeRules nsid base n = some (1, 0xBA, true)) ∧
    (z.state = 6 → c.writeRules nsid base n = some (1, 0xBB, true)) ∧
    (z.state = 4 → z.kind = 1 → c.writeRules nsid base n = some (1, 0xB9, true)) ∧
    (z.state < 4 → z.kind = 1 →
      (base % 65536 ≠ z.hostWp.getD z.mwp → c.writeRules nsid base n = some (1, 0xBC, true)) ∧
      (base % 65536 = z.hostWp.getD z.mwp → c.writeRules nsid base n = none))) ∧
  (∀ (s : State) (i : Fin 2) (qid cid : Nat) (x : InCmd) (row : Instr) (op base : Nat),
    let c := s.chip
    let zone := (c.loc.place x.cmd.nsid x.cmd.slba).1
    (row = .write i qid cid ∧ op = 0x01 ∧ base = x.cmd.slba) ∨
      (row = .zoneAppend i qid cid ∧ op = 0x7D ∧
        base = x.cmd.slba + (c.zone zone).hostWp.getD (c.zone zone).mwp) →
    c.zoneIo i.val qid cid op = some x →
    let rules := if op = 0x01 then c.writeRules x.cmd.nsid x.cmd.slba x.cmd.nlb else c.appendRules zone x.cmd.nlb
    (∀ st, rules = some st → CompletesThen row s (fun d => d = c.fail x st)) ∧
    (rules = none → x.cmd.sglBad = true → CompletesThen row s (fun d => d = c.finish (x.status 0 0x0F true))) ∧
    (rules = none → x.cmd.sglBad = false →
      (∀ e, c.begin x true = (false, e) → CompletesThen row s (fun d => d = e)) ∧
      (∀ e, c.begin x true = (true, e) →
        let ps := e.places x.cmd.nsid base x.cmd.nlb
        let zs := e.zonesTouched x.cmd.nsid base x.cmd.nlb
        let target := (e.loc.place x.cmd.nsid base).1
        let opens := (e.zone target).kind = 1 ∧ (e.zone target).state ≠ 1 ∧ (e.zone target).state ≠ 2
        (∀ st, opens → e.openLimits target = some st → CompletesThen row s (fun d => d = e.fail x st)) ∧
        ((¬ opens ∨ e.openLimits target = none) →
          (e.newBands zs = none → CompletesThen row s (fun d => d = e.finish (x.status 0 0x81 false))) ∧
          (∀ bs, e.newBands zs = some bs →
            (bs ≠ [] → e.mustWaitFor .locus bs.length = true → CompletesThen row s (fun d => d = e)) ∧
            (bs = [] ∨ e.mustWaitFor .locus bs.length = false → CompletesThen row s (fun d =>
              d = (bs.foldl (fun c e => c.allocBand e.1 e.2) e).accept x target (base % 65536) ps ∧
              Keeps commitParts c d))))))) ∧
  (∀ (c : Chip) (x : InCmd) (zone first : Nat) (ps : List (Nat × Nat × Nat)),
    (c.zone zone).kind = 1 → (c.zone zone).state = 1 ∨ (c.zone zone).state = 2 → c.nvq.secure = [] →
    let d := c.accept x zone first ps
    let z := c.zone zone
    let go := c.nvq.heldWrites.isEmpty && c.stagingRoom (unitsOf ps) 0
    d.zone zone = { z with
      hostWp := some (first + ps.length), lastWrite := c.nvq.nextOrder + 1
      state := if first + ps.length = 65536 then 4 else z.state } ∧
    d.nvq.inflight = c.nvq.inflight.map (fun y => if y.seq = x.seq then { y with
      zone := zone, first := first, units := unitsOf ps, order := c.nvq.nextOrder, gen := z.gen
      phase := if go then .transferring else .held } else y) ∧
    d.nvq.nextOrder = c.nvq.nextOrder + 1 ∧ Keeps [.nvq, .loc] c d) ∧
  (∀ (s : State) (x : InCmd) (ys : List InCmd), s.chip.alive = true → s.chip.inHoldup = false →
    s.chip.nvq.heldWrites = x :: ys →
    (s.chip.fits x = true → CompletesThen .writeTransferStart s (fun d =>
      d = s.chip.mapCmd x.seq (fun y => { y with phase := .transferring }) ∧ Keeps [.nvq] s.chip d)) ∧
    (s.chip.fits x = false → CompletesThen .writeTransferStart s (fun d => d = s.chip))) ∧
  (∀ (s : State) (i : Fin 2) (qid cid unit : Nat) (data : List (Nat × Block)) (x : InCmd),
    s.chip.alive = true → s.chip.inHoldup = false → s.chip.nvq.find i.val qid cid = some x →
    x.phase = .transferring → x.result = none → (x.cmd.opcode = 0x01 ∨ x.cmd.opcode = 0x7D) → x.cmd.nsid ≠ 4 →
    unit ∈ x.units → s.chip.nvq.earlierWrite x = false →
    let z := s.chip.zone (unit / 4096)
    let mine := (s.chip.places x.cmd.nsid x.base x.cmd.nlb).filter (fun p => unitNo p.2.1 p.2.2 == unit)
    (∀ ds, mine.map (fun p => data.find? (fun d => d.1 == p.2.2 % 16)) = ds.map some →
      ((z.kind = 1 ∧ (z.gen ≠ x.gen ∨ z.state = 6)) →
        CompletesThen (.writeUnitPowerSafe i qid cid unit data false) s (fun d =>
          d = s.chip.unitSafe x unit ∧ Keeps [.nvq, .out] s.chip d)) ∧
      (¬ (z.kind = 1 ∧ (z.gen ≠ x.gen ∨ z.state = 6)) → CompletesThen (.writeUnitPowerSafe i qid cid unit data false) s (fun d =>
        d = (s.chip.stage x unit ds).unitSafe x unit ∧
        (∃ u ∈ d.nvq.staging, u.zone = unit / 4096 ∧ u.unit = unit % 4096 * 16 ∧ u.data = ds ∧ u.seq = x.seq) ∧
        OnlyRegs [pIntStatus 0x11] s.chip d ∧ Keeps [.regs, .nvq, .loc, .pwr, .out] s.chip d))) ∧
    CompletesThen (.writeUnitPowerSafe i qid cid unit data true) s (fun d =>
      (∀ u ∈ d.nvq.staging, u.seq ≠ x.seq) ∧
      (let w := s.chip.zone x.zone
       w.kind = 1 → w.gen = x.gen → (d.zone x.zone).hostWp = some (min x.first (w.hostWp.getD x.first))) ∧
      d.reg R.HIF_POISON_RX = BitVec.ofNat 32 (min ((s.chip.reg R.HIF_POISON_RX).toNat + 1) 0xFFFFFFFF) ∧
      d.bit (pIntStatus 0x10) 2 = true ∧ OnlyRegs [R.HIF_POISON_RX, pIntStatus 0x10] s.chip d ∧
      Keeps [.regs, .nvq, .loc, .pwr, .out] s.chip d)) ∧
  (∀ (c : Chip) (x : InCmd) (unit : Nat), c.inHoldup = false →
    c.nvq.inflight = [x] → x.units = [unit] → x.result = none → 0 < c.nvq.room x.cntl x.qid →
    ∃ ms : List Out, ms.length ≤ 1 ∧ (∀ o ∈ ms, ∃ v a w, o = .msix x.cntl v a w) ∧
      (c.unitSafe x unit).out = c.out ++ [.completion
        { cntl := x.cntl, qid := x.qid, cid := x.cid
          dw0 := if x.cmd.opcode = 0x7D then x.base % 2 ^ 32 else 0
          dw1 := if x.cmd.opcode = 0x7D then x.base / 2 ^ 32 else 0 }] ++ ms) ∧
  (∀ (s : State) (i : Fin 2) (qid cid : Nat) (x y : InCmd), s.chip.zoneIo i.val qid cid 0x08 = some x →
    x.cmd.deac = false →
    (∀ st, s.chip.writeRules x.cmd.nsid x.cmd.slba x.cmd.nlb = some st →
      CompletesThen (.writeZeroes i qid cid) s (fun d => d = s.chip.fail x st)) ∧
    (s.chip.writeRules x.cmd.nsid x.cmd.slba x.cmd.nlb = none →
      (s.chip.writeOn x x.cmd.slba).nvq.find i.val qid cid = some y →
      CompletesThen (.writeZeroes i qid cid) s (fun d =>
        d = (s.chip.writeOn x x.cmd.slba).zerosMore y ∧ Keeps commitParts s.chip d))) ∧
  (∀ (c : Chip) (y : InCmd) (u : Nat),
    (y.phase ≠ .transferring ∨ c.nvq.earlierWrite y = true → c.zerosMore y = c) ∧
    (y.phase = .transferring → c.nvq.earlierWrite y = false → y.units = [u] →
      c.nvq.inflight.find? (fun z => z.seq == y.seq) = some y →
      c.zerosMore y = c.takeUnit y u (((c.places y.cmd.nsid y.cmd.slba y.cmd.nlb).filter
        (fun p => unitNo p.2.1 p.2.2 == u)).map (fun p => (p.2.2 % 16, zeroBlock)))))

/-- A Flush that may be taken fails with Internal Error and an event where staged or expected data it drains
lies on a retired actuator (R131), is decided by a device condition, and else stays in flight until every
write of its namespace fetched before it, or restored in BOOT, is on the media and reachable (R18, R130): it
is done exactly when no such write is still to be staged and no staged unit of one is left. Dataset Management
without AD succeeds with no effect; with AD it begins to deallocate its ranges, and so does Write Zeroes with
DEAC whose zone no command under way will change (R118, R186, R242). Where the ranges are empty and the
namespace is not in secure discard mode it succeeds at once. A zone is left as it is while the journal has no
room for its records or media writes of it run (R19); a range of a conventional zone is cleared by one record,
and its staged data dropped; a sequential band of which every unit that holds data is named is unmapped whole.
-/
def Obligations.FlushAndDeallocateWork : Prop :=
  (∀ (s : State) (i : Fin 2) (qid cid : Nat) (x : InCmd), s.chip.io i.val qid cid 0x00 = some x →
    let c := s.chip
    (c.flushStuck x = true → CompletesThen (.flush i qid cid) s (fun d =>
      d = (c.event 0x2802 [x.cntl + 1, x.qid, x.cid]).finish (x.status 0 0x06 true) ∧
      OnlyRegs dropRegs c d ∧ Keeps [.regs, .evr, .nvq, .pwr, .out] c d)) ∧
    (c.flushStuck x = false →
      (∀ st, c.gate x.cmd.nsid false = some st → CompletesThen (.flush i qid cid) s (fun d => d = c.fail x st)) ∧
      (c.gate x.cmd.nsid false = none → CompletesThen (.flush i qid cid) s (fun d =>
        d = c.mapCmd x.seq (fun y => { y with phase := .working }) ∧ Keeps [.nvq] c d)))) ∧
  (∀ (c : Chip) (f : InCmd),
    (c.flushDone f = true ↔
      (∀ x ∈ c.nvq.inflight, ¬ (x.seq < f.seq ∧ x.isWrite = true ∧ x.result = none ∧
        drains f.cmd.nsid x.cmd.nsid = true)) ∧
      (∀ u ∈ c.nvq.staging, ¬ ((u.restored = true ∨ u.seq < f.seq) ∧ drains f.cmd.nsid u.nsid = true))) ∧
    (c.nvq.inflight = [f] → f.qid ≠ 0 → f.cmd.opcode = 0 → f.phase = .working → f.result = none →
      c.finishFlushes = if c.flushDone f then c.finish f.ok else c)) ∧
  (∀ (s : State) (i : Fin 2) (qid cid : Nat) (x : InCmd) (zeroes : Bool),
    let row : Instr := if zeroes then .writeZeroes i qid cid else .datasetManagement i qid cid
    s.chip.io i.val qid cid (if zeroes then 0x08 else 0x09) = some x → (zeroes = true → x.cmd.deac = true ∧ s.chip.zonePending x.cmd = false) →
    (∀ e, s.chip.begin x true = (false, e) → CompletesThen row s (fun d => d = e)) ∧
    (∀ e, s.chip.begin x true = (true, e) →
      (zeroes = false → x.cmd.cdw11 / 4 % 2 = 0 → CompletesThen row s (fun d => d = e.finish x.ok)) ∧
      ((zeroes = true ∨ x.cmd.cdw11 / 4 % 2 = 1) → CompletesThen row s (fun d =>
        d = e.deallocStart x ∧ Keeps commitParts s.chip d)))) ∧
  (∀ (c : Chip) (x : InCmd), c.nvq.inflight = [x] → c.deallocList x.cmd = [] → x.cmd.nsid ∉ c.nvq.secure →
    c.deallocStart x = (c.mapCmd x.seq (fun y => { y with phase := .working, units := [] })).finish x.ok) ∧
  (∀ (c : Chip) (rs : List (Nat × Nat × Nat)) (zone first n : Nat),
    (c.mustWaitFor .locus (3 + rs.length) = true ∨ c.writing zone = true → c.deallocZone rs zone = (.waits, c)) ∧
    (c.mustWaitFor .locus (3 + rs.length) = false → c.writing zone = false →
      ((c.zone zone).kind ≠ 3 → c.coversZone rs zone = true → c.deallocZone rs zone = (.done, c.resetZone zone [])) ∧
      ((c.zone zone).kind = 3 → rs = [(zone, first, n)] → n ≤ 32768 → 0 < n →
        let z := c.zone zone
        c.deallocZone rs zone = (.done, (c.commit .locus [.mwp zone z.gen 3 0 z.live z.wtime z.tmin z.tmax [(first, n)]]
          []).dropUnits zone (fun u => decide (first ≤ u ∧ u < first + n))))))

/-- For a zone of kind 1 that no command under way will change, named by an action without Select All: Open
takes Empty, Implicitly Open and Closed zones and leaves the zone Explicitly Open; Close takes open ones and
leaves it Closed, committing its advance; Finish of an Empty, open or Closed zone stays in flight until no
unit of the zone is staged or still to be staged and band cleaning does not copy it, and then completes with
the record that makes it Full (R625); Reset of an open, Closed or Full zone begins to unmap it (R242); Offline
of a Read Only zone completes with the record that makes it Offline, and waits, changing nothing, while that
record must (R19, R194). A zone in the state an action leads to completes at once, and another state is
Invalid Zone State Transition (R128, R185, R208). A zone with no advance to commit and no cleaning is unmapped
by one record that makes it Empty with the next GEN (R208). Report Zones sends its header and whole 64-byte
descriptors, no more than fit, and the count the Partial Report bit asks for (R140). -/
def Obligations.ZoneManagementMovesZonesThroughTheirStates : Prop :=
  (∀ (s : State) (i : Fin 2) (qid cid : Nat) (x : InCmd), x.cmd.selectAll = false →
    let c := s.chip
    let j := c.zoneNamed x
    let z := c.zone j
    let bad (row : Instr) : Prop := CompletesThen row s (fun d => d = c.finish (x.status 1 0xBF true))
    let noop (row : Instr) (e : Chip) : Prop := CompletesThen row s (fun d => d = e.finish x.ok)
    let waits (row : Instr) : Prop := ∀ e, c.begin x true = (false, e) → CompletesThen row s (fun d => d = e)
    (c.zoneSend i.val qid cid 3 = some x →
      (z.kind ≠ 1 ∨ z.state ∉ [0, 1, 2, 3] → bad (.zoneOpen i qid cid)) ∧
      (z.kind = 1 → z.state ∈ [0, 1, 2, 3] → waits (.zoneOpen i qid cid) ∧
        ∀ e, c.begin x true = (true, e) →
          (z.state = 2 → noop (.zoneOpen i qid cid) e) ∧
          (∀ st, z.state ≠ 1 → z.state ≠ 2 → c.openLimits j = some st →
            CompletesThen (.zoneOpen i qid cid) s (fun d => d = e.fail x st)) ∧
          (z.state ≠ 2 → (z.state = 1 ∨ c.openLimits j = none) →
            CompletesThen (.zoneOpen i qid cid) s (fun d =>
              (d.zone j).state = 2 ∧
              ((c.zonesIn z.nsid [1, 2]).length < 128 → z.state ≠ 1 →
                d.zone j = { z with state := 2, hostWp := some (z.hostWp.getD z.mwp) }) ∧
              Keeps [.nvq, .loc, .out] c d)))) ∧
    (c.zoneSend i.val qid cid 1 = some x →
      (z.kind ≠ 1 ∨ z.state ∉ [1, 2, 3] → bad (.zoneClose i qid cid)) ∧
      (z.kind = 1 → z.state ∈ [1, 2, 3] → waits (.zoneClose i qid cid) ∧
        ∀ e, c.begin x true = (true, e) →
          (z.state = 3 → noop (.zoneClose i qid cid) e) ∧
          (z.state ≠ 3 → CompletesThen (.zoneClose i qid cid) s (fun d =>
            d = ((e.setZone j { e.zone j with state := 3 }).commitMwp j).finish x.ok ∧
            Keeps commitParts c d)))) ∧
    (c.zoneSend i.val qid cid 2 = some x →
      (z.kind ≠ 1 ∨ z.state ∉ [0, 1, 2, 3, 4] → bad (.zoneFinish i qid cid)) ∧
      (z.kind = 1 → z.state ∈ [0, 1, 2, 3, 4] → waits (.zoneFinish i qid cid) ∧
        ∀ e, c.begin x true = (true, e) →
          (z.state = 4 → noop (.zoneFinish i qid cid) e) ∧
          (z.state ≠ 4 → CompletesThen (.zoneFinish i qid cid) s (fun d =>
            d = e.mapCmd x.seq (fun y => { y with phase := .working, units := [j] }) ∧ Keeps [.nvq] c d)))) ∧
    (c.zoneSend i.val qid cid 4 = some x →
      (z.kind ≠ 1 ∨ z.state ∉ [0, 1, 2, 3, 4] → bad (.zoneReset i qid cid)) ∧
      (z.kind = 1 → z.state ∈ [0, 1, 2, 3, 4] → waits (.zoneReset i qid cid) ∧
        ∀ e, c.begin x true = (true, e) →
          (z.state = 0 → noop (.zoneReset i qid cid) e) ∧
          (z.state ≠ 0 → CompletesThen (.zoneReset i qid cid) s (fun d =>
            d = e.unmapStart x [] [j] ∧ Keeps commitParts c d)))) ∧
    (c.zoneSend i.val qid cid 5 = some x →
      (z.kind ≠ 1 ∨ z.state ∉ [5, 6] → bad (.zoneOffline i qid cid)) ∧
      (z.kind = 1 → z.state ∈ [5, 6] → waits (.zoneOffline i qid cid) ∧
        ∀ e, c.begin x true = (true, e) →
          (z.state = 6 → noop (.zoneOffline i qid cid) e) ∧
          (z.state = 5 → CompletesThen (.zoneOffline i qid cid) s (fun d =>
            d = e.mapCmd x.seq (fun y => { y with phase := .working, units := [j] }) ∧ Keeps [.nvq] c d)))) ∧
    (c.io i.val qid cid 0x7A = some x →
      (∀ e, c.begin x false = (false, e) → CompletesThen (.reportZones i qid cid) s (fun d => d = e)) ∧
      (∀ e, c.begin x false = (true, e) →
        let first := x.cmd.slba / 65536
        let size := (x.cmd.cdw12 + 1) * 4
        let ks := ((List.range (e.loc.nsze x.cmd.nsid / 65536 - first)).map (· + first)).filter (fun k =>
          reportSelects (x.cmd.cdw13 / 256 % 256) (e.zone (e.loc.place x.cmd.nsid (k * 65536)).1))
        CompletesThen (.reportZones i qid cid) s (fun d => ∃ sent n, d =
          (e.emit (.bytes i.val qid cid ((layBytes 64 [(0, 8, n)] ++
            sent.flatMap (e.reportEntry x.cmd.nsid)).take size))).finish x.ok ∧
          sent <+: ks ∧ (64 ≤ size → 64 + 64 * sent.length ≤ size) ∧
          (x.cmd.cdw13 / 65536 % 2 = 1 → n = sent.length) ∧ (x.cmd.cdw13 / 65536 % 2 = 0 → n = ks.length) ∧
          Keeps [.nvq, .out] c d)))) ∧
  (∀ (c : Chip) (x : InCmd) (j : Nat),
    let e := c.mapCmd x.seq (fun y => { y with units := y.units.filter (· != j) })
    (x.units = [j] → (c.mayFinish j = false → c.finishZones x = c) ∧
      (c.mayFinish j = true → c.finishZones x = e.commit .locus
        [.zoneState j (c.zone j).gen 4 (c.zone j).gen (c.zone j).mwp (c.zone j).live] [x.ok])) ∧
    (c.mayFinish j = true ↔ (∀ u ∈ c.nvq.staging, u.zone ≠ j) ∧ (c.zone j).cleaning = false ∧
      c.mustWait .locus = false ∧
      ∀ y ∈ c.nvq.inflight, ¬ (y.isWrite = true ∧ y.result = none ∧ y.zone = j ∧ y.phase ≠ .fetched)) ∧
    (c.mustWait .locus = true → c.offlineZones x [j] = c) ∧
    (c.mustWait .locus = false → c.offlineZones x [j] =
      ((c.mapCmd x.seq (fun y => { y with units := [] })).commit .locus
        [.zoneState j (c.zone j).gen 6 (c.zone j).gen (c.zone j).mwp (c.zone j).live] [x.ok]).zoneChanged j) ∧
    (∀ posts, c.advanced j = false → c.bcl.job (zoneAct j) = none → c.resetZone j posts =
      (c.setQueue (zoneAct j) ((c.bcl.queue (zoneAct j)).filter (fun k => k.zone != j))).commit .locus
        [.zoneState j (c.zone j).gen 0 (((c.zone j).gen + 1) % 256) 0 0] posts))

/-- The state of a Store's key (Chip.storeCheck): MUST_EXIST on an absent key is Key Does Not Exist and
MUST_NOT_EXIST on a present one Key Exists; an append to a sealed value is Value Sealed, one past
1,073,741,824 bytes Invalid Value Size, one without SEAL that would open a value beyond 4,096 Too Many Open
Values, and a new key beyond the key limit Key Limit Exceeded (R152, R153, R158). A Store or Append that may
be issued, with its data, is held while the dirty limit leaves no room for the data and the header (R21). With
room: a poisoned TLP is counted and fails it (R113); the key's state may refuse it; it fails with Capacity
Exceeded where no band is left, and waits with no effect for the record of a new band (R19) and for the hash
of an open value; else it is accepted. One whose transfer was held goes on with its data. Accepted outside
secure discard mode without a new band, a Store without APPEND leaves a sealed value of its length with the
SHA-256 of its data, not damaged, with its expiry and PIN, and its header staged before its first extent
(R151, R159, R171); an append leaves the value longer by its data, sealed where SEAL is set (R160); the
command succeeds, an append with the value length in CDW0, and then the records of finished operations are
committed. -/
def Obligations.StoresMakeValuesVisibleAndComplete : Prop :=
  (∀ (c : Chip) (h : HostCmd),
    (h.cdw11 / 256 % 2 = 1 → c.seg.present h.key = none → c.storeCheck h = .error (1, 0x87, true)) ∧
    (∀ v, c.seg.present h.key = some v → h.cdw11 / 512 % 2 = 1 → c.storeCheck h = .error (1, 0x89, true)) ∧
    (∀ v, c.seg.present h.key = some v → h.cdw11 / 512 % 2 = 0 → h.kvAppend = true →
      (v.sealed = true → c.storeCheck h = .error (1, 0xC1, true)) ∧
      (v.sealed = false → 1073741824 < v.length + h.cdw10 → c.storeCheck h = .error (1, 0x85, true)) ∧
      (v.sealed = false → v.length + h.cdw10 ≤ 1073741824 → c.storeCheck h = .ok (some v))) ∧
    (∀ v, c.seg.present h.key = some v → h.cdw11 / 512 % 2 = 0 → h.kvAppend = false →
      c.storeCheck h = .ok none) ∧
    (c.seg.present h.key = none → h.cdw11 / 256 % 2 = 0 → h.kvAppend = true → h.kvSeal = false →
      4096 ≤ c.seg.openCount → c.storeCheck h = .error (1, 0xC2, true)) ∧
    (c.seg.look h.key = none → h.cdw11 / 256 % 2 = 0 → h.kvAppend = false →
      c.keyLimit ≤ c.seg.index.length → c.storeCheck h = .error (1, 0xC3, true))) ∧
  (∀ (s : State) (i : Fin 2) (qid cid : Nat) (data : StoreData) (x : InCmd) (append : Bool),
    let row : Instr := if append then .kvAppend i qid cid data else .kvStore i qid cid data
    x.cmd.kvAppend = append → data.bytes.length = x.cmd.cdw10 →
    (s.chip.kv i.val qid cid 0x01 = some x →
    (∀ e, s.chip.begin x true = (false, e) → CompletesThen row s (fun d => d = e)) ∧
    (∀ e, s.chip.begin x true = (true, e) →
      let n := (data.bytes.length + 65535) / 65536 + 1
      let fits := e.nvq.heldWrites.isEmpty && e.stagingRoom [] n
      (fits = false → CompletesThen row s (fun d =>
        d = e.mapCmd x.seq (fun y => { y with phase := .held, units := List.range n }) ∧ Keeps [.nvq] s.chip d)) ∧
      (fits = true → data.poisonedTlp = true → CompletesThen row s (fun d =>
        d = ((e.bump R.HIF_POISON_RX).raise 0x10 2).finish (x.status 0 0x04 false) ∧
        Keeps [.regs, .nvq, .pwr, .out] s.chip d)) ∧
      (fits = true → data.poisonedTlp = false →
        (∀ st, e.storeCheck x.cmd = .error st → CompletesThen row s (fun d => d = e.fail x st)) ∧
        (∀ old, e.storeCheck x.cmd = .ok old →
          let act := match old with | some v => v.act | none => e.valueAct x.cmd.kvAct
          let head := if old.isNone then 1 else 0
          let place := e.placeValue act (if old.isSome then 0 else x.cmd.kvHint) head
            (max head ((data.bytes.length + 4095) / 4096)) (old.bind e.lastZone)
          (old.any (fun v => v.hash.isNone) = true → CompletesThen row s (fun d => d = e)) ∧
          (old.any (fun v => v.hash.isNone) = false →
            (place = none → CompletesThen row s (fun d => d = e.finish (x.status 0 0x81 false))) ∧
            (∀ p, place = some p →
              (p.newBand ≠ none → e.mustWait .locus = true → CompletesThen row s (fun d => d = e)) ∧
              (p.newBand = none ∨ e.mustWait .locus = false → CompletesThen row s (fun d =>
                d = e.storeNow x old p data.bytes ∧ Keeps commitParts s.chip d)))))))) ∧
    (s.chip.alive = true → s.chip.inHoldup = false → s.chip.nvq.find i.val qid cid = some x → x.cmd.nsid = 4 →
      x.cmd.opcode = 0x01 → x.phase = .transferring → x.result = none → CompletesThen row s (fun d =>
        d = s.chip.storeData x data ∧ Keeps commitParts s.chip d))) ∧
  (∀ (c : Chip) (x : InCmd) (p : Placement) (data : List Byte), p.newBand = none → 4 ∉ c.nvq.secure →
    let h := x.cmd
    let posts (e : Chip) (dw0 : Nat) : Prop :=
      c.inHoldup = false → c.nvq.inflight = [x] → x.result = none → 0 < c.nvq.room x.cntl x.qid →
        ∃ ms : List Out, ms.length ≤ 1 ∧ (∀ o ∈ ms, ∃ v a w, o = .msix x.cntl v a w) ∧
          e.out = c.out ++ [.completion { cntl := x.cntl, qid := x.qid, cid := x.cid, dw0 := dw0 }] ++ ms
    (h.kvAppend = false → ∃ e v, c.storeNow x none p data = e.commitSegs ∧ e.seg.look h.key = some v ∧
      v.sealed = true ∧ v.length = data.length ∧ v.digest = sha256 data ∧ v.damaged = false ∧
      v.expires = c.expiresAt h.cdw12 ∧ v.pin = h.kvPin ∧ posts e 0 ∧
      (∀ t ts, p.extents = t :: ts → ∃ u ∈ e.nvq.staging, u.zone = t.zone ∧ u.unit = t.first - 1 ∧
        u.data = [(0, Config.segHeader h.key data.length true (sha256 data))])) ∧
    (∀ w t, h.kvAppend = true → w.key = h.key → w.sealed = false → w.hash = some t →
      ∃ e v, c.storeNow x (some w) p data = e.commitSegs ∧ e.seg.look h.key = some v ∧
        v.sealed = h.kvSeal ∧ v.length = w.length + data.length ∧ v.expires = w.expires ∧ v.pin = w.pin ∧
        (h.kvSeal = true → v.digest = (t.add data).finish) ∧ posts e (w.length + data.length)))

/-- Exist succeeds where a value is present and not expired (R164, R171). Retrieve of an absent key, past the
end, with VERIFY of an open value, or of a damaged value fails (R158, R173); one that needs a map page not
recovered in REBUILD waits, its budget running (R40); else it remembers what staging holds and goes on.
Without VERIFY, data the media gives, once its sectors are confirmed (R26), is sent, min(BUFSIZE, length minus
OFFSET) bytes from OFFSET, and CDW0 is the length (R162); with VERIFY it is sent only if the whole value's
SHA-256 is the digest of its header, else the value is marked damaged (R163, R173); poisoned data without
VERIFY is sent marked and fails, and unrecovered data fails. Delete removes the key by one record and waits
with no effect while that must (R19). List sends whole entries in order after the given key, their count, and
MORE exactly where keys are left (R165). Background verify marks a value whose hash differs from its header's
damaged and reports the lap (R172, R173); an open value's hash is rebuilt (R170); an expired value is
reclaimed (R176); counts are halved (R174); the zones of a popular value that hold no pinned one are queued
for migration (R175). -/
def Obligations.ValuesAreRetrievedDeletedAndListed : Prop :=
  (∀ (s : State) (i : Fin 2) (qid cid : Nat) (x : InCmd) (e : Chip),
    let v? := e.seg.present x.cmd.key
    (s.chip.kv i.val qid cid 0x14 = some x → s.chip.begin x false = (true, e) →
      CompletesThen (.kvExist i qid cid) s (fun d =>
        d = e.finish (if v?.isSome then x.ok else x.status 1 0x87 true) ∧ Keeps [.nvq, .out] s.chip d)) ∧
    (s.chip.kv i.val qid cid 0x10 = some x → s.chip.begin x true = (true, e) →
      (v? = none → CompletesThen (.kvDelete i qid cid) s (fun d => d = e.finish (x.status 1 0x87 true))) ∧
      (∀ v, v? = some v →
        (e.mustWaitFor .seg 3 = true → CompletesThen (.kvDelete i qid cid) s (fun d => d = e)) ∧
        (e.mustWaitFor .seg 3 = false → CompletesThen (.kvDelete i qid cid) s (fun d =>
          d = (e.mapCmd x.seq (fun y => { y with phase := .working })).removeValue v
            (.segDelete v.key (2 * b2n (e.nvq.secure.contains 4))) (some x.ok) ∧
          Keeps commitParts s.chip d)))) ∧
    (∀ media again : ValueRead, s.chip.kv i.val qid cid 0x02 = some x → s.chip.begin x false = (true, e) →
      let fails (st : Status) : Prop :=
        CompletesThen (.kvRetrieve i qid cid media again) s (fun d => d = e.fail x st)
      (v? = none → fails (1, 0x87, true)) ∧
      (∀ v, v? = some v →
        (v.length < x.cmd.cdw12 → fails (0, 0x02, true)) ∧
        (x.cmd.cdw12 ≤ v.length → x.cmd.cdw13 % 2 = 1 → v.sealed = false → fails (1, 0xC0, true)) ∧
        (x.cmd.cdw12 ≤ v.length → (x.cmd.cdw13 % 2 = 0 ∨ v.sealed = true) →
          (v.damaged = true → fails (1, 0x88, true)) ∧
          (v.damaged = false → e.pageMissing v = true → CompletesThen (.kvRetrieve i qid cid media again) s (fun d =>
            d = e.mapCmd x.seq (fun y => { y with issued := some (x.issued.getD e.dtm.dtime) }))) ∧
          (v.damaged = false → e.pageMissing v = false →
            let f (y : InCmd) : InCmd := { y with
              phase := .working, issued := some (x.issued.getD e.dtm.dtime), length := v.length
              digest := if e.seg.fresh.any (fun w => w.key == v.key) then some v.digest else none
              pieces := e.nvq.pieces v.key, bands := v.extents.filterMap (fun t => e.bandOfZone t.zone) }
            CompletesThen (.kvRetrieve i qid cid media again) s (fun d =>
              d = ((e.mapCmd x.seq f).locate (v.extents.map (fun t => (t.first, t.zone, t.first)))).retrieveMore
                (f x) media again ∧
              Keeps commitParts s.chip d)))))) ∧
  (∀ (s : State) (i : Fin 2) (qid cid : Nat) (x : InCmd) (media again : ValueRead), s.chip.alive = true →
    s.chip.inHoldup = false → s.chip.nvq.find i.val qid cid = some x → x.cmd.nsid = 4 → x.cmd.opcode = 0x02 →
    x.phase = .working → x.result = none → CompletesThen (.kvRetrieve i qid cid media again) s (fun d =>
      d = s.chip.retrieveMore x media again ∧ Keeps commitParts s.chip d)) ∧
  (∀ (c : Chip) (x : InCmd) (bs : List Byte) (h : BitVec 256) (again : ValueRead), x.pieces = [] →
    let n := min x.cmd.cdw10 (x.length - x.cmd.cdw12)
    (x.cmd.cdw13 % 2 = 0 → 0 < n → bs.length = n →
      (x.got.length < (n + 4095) / 4096 → c.retrieveMore x (.good bs h) again = c) ∧
      ((n + 4095) / 4096 ≤ x.got.length →
        (∃ e, c.retrieveMore x (.good bs h) again = e.finish { x.ok with dw0 := x.length } ∧
          e.out = c.out ++ [.bytes x.cntl x.qid x.cid bs] ∧ Keeps [.seg, .out] c e) ∧
        c.retrieveMore x (.poisoned bs) again = c.poisonSent x bs)) ∧
    (x.cmd.cdw13 % 2 = 0 → 0 < n →
      c.retrieveMore x .unrecovered again = c.finish (x.status 2 0x81 false)) ∧
    (∀ v, x.cmd.cdw13 % 2 = 1 → c.seg.look x.cmd.key = some v → 0 < x.length → bs.length = x.length →
      (x.got.length < (x.length + 4095) / 4096 → c.retrieveMore x (.good bs h) again = c) ∧
      ((x.length + 4095) / 4096 ≤ x.got.length →
        (sha256 bs = x.digest.getD h → c.retrieveMore x (.good bs h) again =
          c.retrieved x ((bs.drop x.cmd.cdw12).take n)) ∧
        (sha256 bs ≠ x.digest.getD h → c.retrieveMore x (.good bs h) again =
          (c.valueDamaged v).finish (x.status 1 0x88 true))))) ∧
  (∀ (c : Chip) (x : InCmd) (bs : List Byte), ∃ (k : Nat) (e : Chip), 8 ≤ k ∧ k ≤ 32 ∧
    c.poisonSent x bs = e.finish (x.status 2 0x81 false) ∧ e.out = c.out ++ [.bytes x.cntl x.qid x.cid bs true] ∧
    e.reg R.HIF_POISON_TX = BitVec.ofNat 32 (min ((c.reg R.HIF_POISON_TX).toNat + k) 0xFFFFFFFF) ∧
    e.bit (pIntStatus 0x10) 3 = true) ∧
  (∀ (c : Chip) (v : Value), let d := c.valueDamaged v
    (c.mustWait .seg = true → v.key ∈ d.seg.damagedDue) ∧
    (c.mustWait .seg = false → c.jnl.closed = false →
      ∀ w ∈ d.seg.values ++ d.seg.fresh, w.key = v.key → w.damaged = true) ∧
    d.bit (pIntStatus 0x12) 0 = true ∧ Keeps commitParts c d) ∧
  (∀ (s : State) (i : Fin 2) (qid cid : Nat) (x : InCmd) (e : Chip),
    s.chip.kv i.val qid cid 0x06 = some x → s.chip.begin x false = (true, e) → 4 ≤ x.cmd.cdw10 →
    let all := (e.seg.index.filter (fun v => !v.expired)).map Value.key
    let keys := if x.cmd.kl = 0 then all
      else all.filter (fun k => keyLt x.cmd.key k || (x.cmd.cdw13 % 2 == 0 && k == x.cmd.key))
    CompletesThen (.kvList i qid cid) s (fun d => ∃ sent : List (List Byte), sent <+: keys ∧
      let data := leBytes 4 sent.length ++ sent.flatMap listEntry
      data.length ≤ x.cmd.cdw10 ∧
      d = (e.emit (.bytes i.val qid cid data)).finish
        { x.ok with dw0 := sent.length + (if sent.length < keys.length then 2 ^ 31 else 0) } ∧
      (∀ k, keys[sent.length]? = some k → x.cmd.cdw10 < data.length + (listEntry k).length) ∧
      Keeps [.nvq, .out] s.chip d)) ∧
  (∀ (s : State) (key : List Byte) (v : Value), s.chip.segOn = true →
    (∀ (bs : List Byte) (h : BitVec 256), s.chip.seg.present key = some v → v.sealed = true → v.damaged = false →
      s.chip.segGot v = true →
      s.chip.fld R.SEG_VERIFY 15 0 ≠ 0 → s.chip.fld R.SEG_VERIFY 23 16 ≠ 0 → ∀ again : ValueRead,
      CompletesThen (.segBackgroundVerify key (.good bs h) again none) s (fun d =>
        d = if sha256 bs = h then s.chip.segTaken v else (s.chip.segTaken v).valueDamaged v) ∧
      (sha256 bs = h → ∀ hours, CompletesThen (.segBackgroundVerify key (.good bs h) again (some hours)) s
        (fun d => d.fld R.SEG_VERIFY_LAP 15 0 = min hours 0xFFFF ∧
          (s.chip.fld R.SEG_VERIFY 15 0 < hours → d.bit (pIntStatus 0x12) 1 = true) ∧
          OnlyRegs [R.SEG_VERIFY_LAP, pIntStatus 0x12] s.chip d ∧ Keeps [.regs, .seg, .pwr] s.chip d))) ∧
    (∀ (bs : List Byte) (h : BitVec 256), s.chip.seg.look key = some v → v.sealed = false → v.hash = none →
      s.chip.segGot v = true → bs.length = v.length →
      CompletesThen (.segOpenValueRebuild key (.good bs h)) s (fun d =>
        d = ((s.chip.segTaken v).mapValue key (fun w => { w with hash := some (ShaState.init.add bs) })).restoreValues ∧
        Keeps commitParts s.chip d)) ∧
    (s.chip.mustWaitFor .seg 3 = false → s.chip.seg.look key = some v → v.expired = true →
      CompletesThen (.segExpiryReclaim key) s (fun d =>
        d = s.chip.removeValue v (.segReclaim key (2 * b2n (s.chip.nvq.secure.contains 4)) v.expires) none ∧
        Keeps commitParts s.chip d)) ∧
    (s.chip.fld R.SEG_POP 23 16 ≠ 0 → CompletesThen .segPopularityHalve s (fun d =>
      d.seg.values = s.chip.seg.values.map (fun w => { w with popularity := w.popularity / 2 }) ∧
      d.seg.fresh = s.chip.seg.fresh.map (fun w => { w with popularity := w.popularity / 2 }) ∧
      Keeps [.seg] s.chip d)) ∧
    (∀ ann : Nat, s.chip.seg.present key = some v → s.chip.migrateTo v = some ann →
      let zs := ((v.extents.map Extent.zone).foldl insertNat []).filter (fun i => !s.chip.seg.pinned i)
      zs ≠ [] → CompletesThen (.segMigrationQueue key) s (fun d =>
        d = (zs.foldl (fun c i => c.queueJob { zone := i, reason := 6, ann := ann, key := key }) s.chip).mapValue key
          (fun w => { w with migrating := true }) ∧
        Keeps [.regs, .bcl, .seg, .pwr] s.chip d)))

/-- An APPLY whose first failing check has a RESULT shows it and changes nothing else; with none it commits
one partition record, and where the record need not wait the partition asked for is in force, RESULT reads 1
and APPLY's BUSY 0 (R187). FREE and RETIRE of LOC_BAND_CMD make the selected SUSPECT band FREE or RETIRED with
one record; any other band sets FAULT bit 5 alone (R193, R219). Where the life cycle allows it, in SERVICE,
BUILD takes the area back and, while a read slot in it is not released, waits; else, where nothing is
inconsistent, it fills the page table with every zone's entries, and RELEASE returns it; where the life cycle
does not allow it they set IGN_LCS (R202, R204). An event of R207, or 100 ms without a media write of the
zone, commits the zone's advance with its records; with neither nothing changes; a third failed read-back ends
the port (R456). A freed slot lets the waiting redirections be tried again, in order, and HOT_FULL is 0 where
no insertion waits for a slot (R201). A relocation moves a unit that holds data to the media cache, or renews
the stamps of a conventional zone written in place, and drops one that holds none (R311). -/
def Obligations.LocusCommandsFollowTheirChecks : Prop :=
  (∀ s : State, s.chip.alive = true →
    let c := s.chip
    let p := c.askedPart
    (c.partRefusal p ≠ 0 → CompletesThen .locPartApply s (fun d =>
      d.fld R.LOC_PART_CTRL 6 4 = c.partRefusal p ∧ RegsOnly [R.LOC_PART_CTRL] c d)) ∧
    (c.partRefusal p = 0 → CompletesThen .locPartApply s (fun d =>
      d = (c.setBit R.LOC_PART_CTRL 1 true).commit .locus
        [.partition p.cA p.cB p.n3 p.n4A p.n4B p.opA p.opB] [] ∧
      (c.mustWait .locus = false → c.jnl.closed = false →
        d.loc.part = p ∧ d.fld R.LOC_PART_CTRL 6 4 = 1 ∧ d.bit R.LOC_PART_CTRL 1 = false ∧
        d.bit (pIntStatus 0x18) 4 = true) ∧
      Keeps commitParts c d))) ∧
  (∀ (s : State) (retire : Bool), s.chip.alive = true →
    let c := s.chip
    let row : Instr := if retire then .locBandCmdRetire else .locBandCmdFree
    (∀ b, c.band c.selBand = some b → b.state = .suspect → CompletesThen row s (fun d =>
      d = c.commit .locus [.bandState c.selBand (if retire then 4 else 0) 0 b.wfaults] [] ∧
      (c.mustWait .locus = false → c.jnl.closed = false →
        d.band c.selBand = some { b with state := if retire then .retired else .free }) ∧
      Keeps commitParts c d)) ∧
    ((c.band c.selBand = none ∨ ∃ b, c.band c.selBand = some b ∧ b.state ≠ .suspect) →
      CompletesThen row s (fun d =>
        d.bit (pFault 0x18) 5 = true ∧ RegsOnly [pFault 0x18, pIntStatus 0x18] c d))) ∧
  (∀ s : State, s.chip.alive = true →
    let c := s.chip
    (c.diagOpen = false → ∀ release : Bool,
      let row : Instr := if release then .locPtRelease else .locPtBuild
      CompletesThen row s (fun d => d.bit (pFault 0x18) 1 = true ∧ d.fld (pFault 0x18) 31 20 = 0xF08 ∧
        RegsOnly [pFault 0x18, pIntStatus 0x18] c d)) ∧
    (c.diagOpen = true → c.sys.mode = .service →
      CompletesThen .locPtRelease s (fun d =>
        d.loc.pages = [] ∧ d.loc.ptPresent = false ∧ d.loc.ptBuilding = false ∧ d.loc.zones = c.loc.zones ∧
        Keeps [.loc] c d) ∧
      (let e := c.evictArea
       (∀ k v, (k, v) ∈ e.slots ↔ (k, v) ∈ c.slots ∧ ¬ (inPageArea k = true ∧ v.readers = [])) ∧
       (e.areaHeld = true → CompletesThen .locPtBuild s (fun d =>
         d = { e with loc := { e.loc with ptBuilding := true } } ∧ Keeps [.loc, .slots] c d)) ∧
       (e.areaHeld = false → (∀ z ∈ c.loc.zones, c.zoneBad z.1 = false) →
         CompletesThen .locPtBuild s (fun d =>
           d.loc.ptPresent = true ∧ d.loc.ptBuilding = false ∧ d.loc.zones = c.loc.zones ∧
           (∀ z ∈ c.loc.zones, ∀ p ∈ c.zonePages z.1, d.loc.pages.find? p.1 = some p.2) ∧
           Keeps [.loc, .slots] c d))))) ∧
  (∀ (s : State) (zone : Nat) (failed : Fin 4), s.chip.alive = true → s.chip.inHoldup = false →
    s.chip.sys.mode ≠ .boot →
    let c := s.chip
    let late := (c.zone zone).lastMedia.toNat + 40000000 ≤ c.dtm.dtime.toNat
    (late → CompletesThen (.mwpCommitTimer zone) s (fun d =>
      d = (c.commitMwp zone).commitSegs ∧ Keeps commitParts c d)) ∧
    (¬ late → CompletesThen (.mwpCommitTimer zone) s (fun d => d = c)) ∧
    (c.mwpDue zone = false → CompletesThen (.mwpCommit zone failed) s (fun d => d = c)) ∧
    (c.mwpDue zone = true → failed ≠ 3 → CompletesThen (.mwpCommit zone failed) s (fun d =>
      d = (c.commitMwp zone).commitSegs ∧ Keeps commitParts c d)) ∧
    (c.mwpDue zone = true → c.advanced zone = true → c.mustWait .locus = false →
      CompletesThen (.mwpCommit zone 3) s (fun d =>
      d.jnl.failed = true ∧ d.bit (pIntStatus 0x05) 4 = true ∧ d.bit R.SYS_ALERT 0 = true ∧
      d.evr.degraded = true ∧ Keeps [.regs, .jnl, .evr, .pwr] c d)) ∧
    (c.mwpDue zone = true ↔ 16 * c.fld R.LOC_WP_BATCH 10 0 ≤ c.advance zone ∨ c.drainWants zone = true ∨
      (c.zone zone).state ∈ [3, 4] ∨ 16 * c.fld R.NVQ_DIRTY_LIMIT 8 0 ≤ c.dirtyUnits) ∧
    (c.advanced zone = false → c.commitMwp zone = c) ∧
    (c.advanced zone = true → c.jnl.waiting = [] → c.commitMwp zone = c.commit .locus (c.advanceRecs zone) [])) ∧
  (∀ s : State, s.chip.alive = true → s.chip.inHoldup = false →
    let c := s.chip
    CompletesThen .hotMapSlotFreed s (fun d =>
      (c.mustWait .locus = true ∨ (∀ w ∈ c.loc.hotWait, c.noSlot w.zone w.unit = true) → OnlyRegs [R.LOC_MAP] c d ∧
        Keeps [.regs] c d) ∧
      (c.mustWait .locus = false → (∃ w ∈ c.loc.hotWait, c.noSlot w.zone w.unit = false) →
        d = (({ c with loc := { c.loc with hotWait := [] } }).placeWaits c.loc.hotWait).settleHotFull) ∧
      (d.hotStuck = false → d.bit R.LOC_MAP 2 = false) ∧ Keeps commitParts c d)) ∧
  (∀ (s : State) (a : Act) (zone unit : Nat), s.chip.mediaOpen a = true → zoneAct zone = a →
    (zone, unit) ∈ s.chip.loc.relocs →
    let e := { s.chip with loc := { s.chip.loc with relocs := s.chip.loc.relocs.erase (zone, unit) } }
    CompletesThen (.relocation a zone unit) s (fun d =>
      (e.resolve zone unit = .zeros → d = e) ∧
      (e.resolve zone unit ≠ .zeros →
        ((e.zone zone).kind = 1 ∨ (e.zone zone).kind = 2 →
          d = e.landCache a 0 e.loc.temp (zone, unit, (e.zone zone).gen)) ∧
        ((e.zone zone).kind = 3 → d = e.stampZone zone e.loc.temp false)) ∧
      Keeps commitParts s.chip d))

/-- In REBUILD on an actuator that is not retired and not done, with no read slot held in the page table's
area: the scan of the media cache sets MC_DONE, and a sector it finds of a sequential zone of the actuator,
whose unit no other sector named, becomes that unit's hot map entry (step 3 of R215). After it, the probe of a
band not yet probed notes the band; one with a blank first sector becomes FREE unless it is SUSPECT or
RETIRED, and one that names a sequential zone of the actuator gives that zone its band, its GEN and the write
pointer its chunks show, and the state Full where that is 65,536, else Closed, or Open for a zone of kind 2,
the band OPEN or FULL (R193, R216, R217); of two bands that name one zone the one with the older first sector
becomes RELEASING. Once everything is scanned on both actuators, REBUILD_DONE sets both done and its cause,
the mode becomes SERVICE and a checkpoint starts where the journal can take it; before that it has no effect
(step 5 of R215). -/
def Obligations.RebuildRecoversTheMap : Prop :=
  (∀ (s : State) (a : Act) (found : List CacheSector), s.chip.rebuilding a = true →
    (s.chip.loc.rebuild a).mcDone = false →
    CompletesThen (.rebuildMediaCacheScan a found) s (fun d =>
      (d.loc.rebuild a).mcDone = true ∧ (d.loc.rebuild a.other) = s.chip.loc.rebuild a.other ∧
      (∀ h, found = [h] → zoneAct h.zone = a → (s.chip.zone h.zone).kind = 1 ∨ (s.chip.zone h.zone).kind = 2 →
        (s.chip.loc.rebuild a).tags.find? (unitKey h.zone h.unit) = none →
        s.chip.hotOf h.zone h.unit = none → (s.chip.bucketFor h.zone h.unit).isSome = true →
        ∃ e, d.hotOf h.zone h.unit = some e ∧ e.kind = 1 ∧ e.csec = h.csec) ∧
      (found = [] → d.loc.hot = s.chip.loc.hot) ∧ Keeps [.regs, .loc, .pwr] s.chip d)) ∧
  (∀ (s : State) (a : Act) (band : Nat) (found : Option BandHead) (chunks : List (Option Nat))
      (tail : List (Nat × Option Nat)),
    let c := s.chip
    let k := bandKey a band
    c.rebuilding a = true → (c.loc.rebuild a).mcDone = true → k ∉ (c.loc.rebuild a).probed → k ∈ c.toProbe a →
    CompletesThen (.rebuildBandProbe a band found chunks tail) s (fun d =>
      (d.loc.rebuild a).probed = insertNat (c.loc.rebuild a).probed k ∧
      (∀ b, found = none → c.band k = some b →
        d.band k = some (if b.state = .suspect ∨ b.state = .retired then b else { b with state := .free })) ∧
      (∀ z, found = some z → zoneAct z.zone = a → (c.zone z.zone).kind = 1 ∨ (c.zone z.zone).kind = 2 →
        let mwp := scanEnd z.tag chunks tail
        let takes : Prop :=
          let y := d.zone z.zone
          y.band = k % 262144 ∧ y.hasBand = true ∧ y.gen = z.gen ∧ y.mwp = mwp ∧ y.written = mwp ∧
          y.state = (if (c.zone z.zone).kind = 2 then 7 else if mwp = 65536 then 4 else 3) ∧
          (∀ b, c.band k = some b → b.state ≠ .suspect → b.state ≠ .retired →
            d.band k = some { b with state := if mwp = 65536 then .full else .opened })
        ((∀ f ∈ (c.loc.rebuild a).firsts, f.2.1 ≠ z.zone) → takes) ∧
        (∀ l tag b, (c.loc.rebuild a).firsts = [(l, z.zone, tag)] → c.bandOfZone z.zone = some l → l ≠ k →
          (z.tag < tag → c.band k = some b → b.state ≠ .suspect → d.band k = some { b with state := .releasing }) ∧
          (tag ≤ z.tag → takes ∧
            (c.band l = some b → b.state ≠ .suspect → d.band l = some { b with state := .releasing })))) ∧
      Keeps [.regs, .loc, .bcl, .pwr] c d)) ∧
  (∀ (s : State) (valuesA valuesB : List ValueImage), s.chip.alive = true → s.chip.sys.mode = .rebuild →
    (s.chip.scanned .A = true → s.chip.scanned .B = true →
      CompletesThen (.rebuildDone valuesA valuesB) s (fun d =>
        d.sys.mode = .service ∧ (d.loc.rebuild .A).done = true ∧ (d.loc.rebuild .B).done = true ∧
        d.bit (pIntStatus 0x18) 5 = true ∧
        (s.chip.jnl.ckpt = none → s.chip.jnl.failed = false → s.chip.jnl.openOp = none → d.jnl.ckpt ≠ none) ∧
        Keeps (.sys :: commitParts) s.chip d)) ∧
    (s.chip.scanned .A = false ∨ s.chip.scanned .B = false →
      CompletesThen (.rebuildDone valuesA valuesB) s (fun d => d = s.chip)))

/-- GO of BCL_JOB_CTRL shows the RESULT of its first failing check, else queues a REASON 1 job (R246). On an
actuator that BCL works on: automatic selection queues the zone of R226 while a trigger holds and no job
exists there; the next job begins with its destination and BEGIN, keeping MAX_RESTART in force then, waits
while media writes of its zone are not settled, and is dropped where its zone can no longer be cleaned (R228,
R229, R248). The end of its copy, once every unit is copied or not recovered, notes and counts the units lost
(R230, R232); a good verify of every unit commits it and its source waits for release (R231, R233); a worn
destination, a failed tail or a failed verify releases the destination and restarts the job, or ends it after
its MAX_RESTART restarts, and a fault of a destination that is not worn does nothing (R235, R236). A released
band that no read uses loses its key and becomes FREE unless SUSPECT, or waits for its overwrite, whose end
makes it FREE unless SUSPECT (R221, R222). A purge drops every stale sector of the actuator where a secure
discard waits for it, else down to half of PURGE_AT (R243). A finished secure discard completes its command
(R244). Where BCL stops, in HOLDUP and after an abrupt shutdown, all of it but GO changes nothing (R240,
R476). -/
def Obligations.CleaningJobsGoThroughTheirSteps : Prop :=
  (∀ s : State, s.chip.alive = true →
    let c := s.chip
    let zone := c.fld R.BCL_JOB_ZONE 18 0
    let ann := c.fld R.BCL_JOB_CTRL 7 4
    CompletesThen .bclJobGo s (fun d =>
      d.fld R.BCL_JOB_CTRL 11 9 = c.jobResult zone ann ∧ OnlyRegs [R.BCL_JOB_CTRL] c d ∧
      (c.jobResult zone ann = 1 → d.bcl.queue (zoneAct zone) =
        insertJob (c.bcl.queue (zoneAct zone)) { zone := zone, reason := 1, ann := ann }) ∧
      (c.jobResult zone ann ≠ 1 → d.bcl = c.bcl) ∧ Keeps [.regs, .bcl] c d)) ∧
  (∀ (s : State) (a : Act) (band : Nat) (row : Instr), s.chip.bclStops = true →
    (row = .bclAutoSelect a ∨ row = .bclJobBegin a ∨ (∃ l t u, row = .bclCopyDone a l t u) ∨
      (∃ g, row = .bclVerifyDone a g) ∨ (∃ f, row = .bclJobAbandon a f) ∨ row = .bandRelease a band ∨
      row = .bclOverwriteDone a band ∨ row = .stalePurge a ∨ row = .secureDiscardDone) →
    CompletesThen row s (fun d => d = s.chip)) ∧
  (∀ (s : State) (a : Act), s.chip.alive = true → s.chip.bclStops = false →
    let c := s.chip
    (c.cleans a = true → c.bcl.job a = none → c.bcl.queue a = [] →
      let hot := c.bit (pIntStatus 0x18) 0 || c.bit (pIntStatus 0x18) 1
      let low := c.fld R.BCL_AUTO 15 0 ≠ 0 ∧ c.freeCount a ≤ c.fld R.BCL_AUTO 15 0
      (∀ i, hot = true → c.hotVictim a = some i → CompletesThen (.bclAutoSelect a) s (fun d =>
        d = c.queueJob { zone := i, reason := 3 } ∧ Keeps [.regs, .bcl, .pwr] c d)) ∧
      (∀ i, hot = false → low → c.freeVictim a = some i → CompletesThen (.bclAutoSelect a) s (fun d =>
        d = c.queueJob { zone := i, reason := 0 } ∧ Keeps [.regs, .bcl, .pwr] c d)) ∧
      (hot = false → ¬ low → CompletesThen (.bclAutoSelect a) s (fun d => d = c))) ∧
    (∀ j js, c.cleans a = true → c.mustWait .bcl = false → c.bcl.job a = none → c.bcl.queue a = j :: js →
      (c.mayClean j.zone = false → CompletesThen (.bclJobBegin a) s (fun d =>
        d.bcl.queue a = js ∧ Keeps [.bcl] c d)) ∧
      (c.mayClean j.zone = true → c.sourceSettled j.zone = false →
        CompletesThen (.bclJobBegin a) s (fun d => d = c)) ∧
      (c.mayClean j.zone = true → c.sourceSettled j.zone = true →
        let e := c.setQueue a js
        let j := { j with maxRestart := c.fld R.BCL_PACE 9 8 }
        CompletesThen (.bclJobBegin a) s (fun d => d = e.beginJob a j ∧ Keeps commitParts c d) ∧
        (∀ k b, j.reason ≠ 2 → e.lostNow a = false →
          (if j.reason = 6 then e.pickMigration a (e.jobAnn j) else e.pickBand a (some (e.jobAnn j)) false true) = some k →
          e.band k = some b →
          let f := (e.setJob a (some j)).bumpJob a
          e.beginJob a j = (f.takeRandom 128).2.commit .bcl [.bclBegin j.zone (e.zone j.zone).gen
            (jobFlags j.reason (e.secureRelease j.zone) false false false) (e.bcl.nextJob a)
            ((e.bandOfZone j.zone).getD 0) k b.ann (f.takeRandom 128).1] []))) ∧
    (∀ j, c.bcl.job a = some j → c.lostNow a = false → j.abandon = none →
      (∀ lost tmin tmax, j.state = .copy → c.poisonedCopies j = [] →
        let mine := lost.filter (fun u => decide (u < j.snapMwp))
        ((c.uncopied j mine) ≠ [] → CompletesThen (.bclCopyDone a lost tmin tmax) s (fun d => d = c)) ∧
        ((c.uncopied j mine) = [] → CompletesThen (.bclCopyDone a lost tmin tmax) s (fun d =>
        d.bcl.job a = some { j with
          state := .verify, lost := mine.length, copied := [], tmin := tmin % 256, tmax := tmax % 256 } ∧
        d.reg R.BCL_LOST_UNITS = BitVec.ofNat 32 (min ((c.reg R.BCL_LOST_UNITS).toNat + mine.length) 0xFFFFFFFF) ∧
        (mine ≠ [] → d.bit (pIntStatus 0x19) 2 = true) ∧
        OnlyRegs (R.BCL_LOST_UNITS :: pIntStatus 0x19 :: dropRegs) c d ∧ Keeps [.regs, .evr, .bcl, .pwr] c d))) ∧
      (j.state = .verify → (∀ u < j.snapMwp, u ∈ j.copied) →
        (c.mustWaitFor .bcl 1 = true → CompletesThen (.bclVerifyDone a true) s (fun d =>
          d.bcl.job a = some { j with state := .commit } ∧ Keeps [.bcl] c d)) ∧
        (c.mustWaitFor .bcl 1 = false → CompletesThen (.bclVerifyDone a true) s (fun d =>
          d.reg R.BCL_JOBS_DONE = BitVec.ofNat 32 (min ((c.reg R.BCL_JOBS_DONE).toNat + 1) 0xFFFFFFFF) ∧
          (j.reason ≠ 6 → d.bcl.job a = some { j with state := .release, secure := c.secureRelease j.zone }) ∧
          Keeps commitParts c d))) ∧
      (j.state = .verify → (∃ u < j.snapMwp, u ∉ j.copied) →
        CompletesThen (.bclVerifyDone a true) s (fun d => d = c)) ∧
      (j.state = .verify → CompletesThen (.bclVerifyDone a false) s (fun d => d = c.abandonJob a true))) ∧
    (∀ j, c.bcl.job a = some j →
      (c.worn j.dst = false → CompletesThen (.bclJobAbandon a .worn) s (fun d => d = c)) ∧
      (c.mustWait .bcl = false → j.begun = true → ∀ f : DestFailure, (f = .worn → c.worn j.dst = true) →
        CompletesThen (.bclJobAbandon a f) s (fun d => d = c.abandonJob a (f == .verify || c.worn j.dst) ∧
          (j.restarts < j.maxRestart →
            d.bcl.job a = some { zone := j.zone, reason := j.reason, ann := j.ann, maxRestart := j.maxRestart
                                 restarts := j.restarts + 1, key := j.key } ∧
            d.bit (pIntStatus 0x19) 1 = true) ∧
          (j.maxRestart ≤ j.restarts → j.reason ≠ 2 → j.reason ≠ 4 →
            d.bcl.job a = none ∧ d.bit (pIntStatus 0x19) 0 = true) ∧
          Keeps commitParts c d)))) ∧
  (∀ (s : State) (a : Act) (band : Nat) (r : Release), s.chip.alive = true → s.chip.bclStops = false →
    let c := s.chip
    let k := bandKey a band
    (c.mustWait .bcl = false → c.jnl.closed = false →
      (c.bcl.releases.find? (fun r => r.band == k && !r.overwriting) = some r →
        (c.bandRead k = true → CompletesThen (.bandRelease a band) s (fun d => d = c)) ∧
        (c.bandRead k = false → CompletesThen (.bandRelease a band) s (fun d =>
          (∀ b, d.band k = some b → b.salt = none) ∧
          (c.overwriteDue r = false → (∀ b, d.band k = some b → b.state = .free ∨ b.state = .suspect) ∧
            (∀ w ∈ d.bcl.releases, w.band ≠ k)) ∧
          (c.overwriteDue r = true → ∀ w ∈ d.bcl.releases, w.band = k → w.overwriting = true) ∧
          Keeps commitParts c d))) ∧
      (c.bcl.releases.find? (fun r => r.band == k && r.overwriting) = some r →
        CompletesThen (.bclOverwriteDone a band) s (fun d =>
          (∀ b, d.band k = some b → b.state = .free ∨ b.state = .suspect) ∧ (∀ w ∈ d.bcl.releases, w.band ≠ k) ∧
          Keeps commitParts c d))) ∧
    (c.retired a = false →
      ((∃ w ∈ c.bcl.discards, w.wantsPurge a = true) → CompletesThen (.stalePurge a) s (fun d =>
        d.loc.stale = c.loc.stale.filter (fun n => n / 2 ^ 27 != a.toNat) ∧
        (∀ w ∈ d.bcl.discards, w.wantsPurge a = false) ∧ Keeps [.loc, .bcl] c d)) ∧
      ((∀ w ∈ c.bcl.discards, w.wantsPurge a = false) →
        let at_ := c.fld R.BCL_PACE 27 16
        (at_ = 0 ∨ c.staleCount a < at_ → CompletesThen (.stalePurge a) s (fun d => d = c)) ∧
        (0 < at_ → at_ ≤ c.staleCount a → CompletesThen (.stalePurge a) s (fun d =>
          let gone := (c.staleRing a).take (c.staleCount a - at_ / 2)
          d.loc.stale = c.loc.stale.filter (fun n => !gone.contains n) ∧ Keeps [.loc] c d)))) ∧
    (c.bcl.discards.find? SecureDiscard.complete = none → CompletesThen .secureDiscardDone s (fun d => d = c)) ∧
    (∀ w post, c.bcl.discards.find? SecureDiscard.complete = some w → w.post = some post →
      CompletesThen .secureDiscardDone s (fun d =>
        d = ({ c with bcl := { c.bcl with discards := c.bcl.discards.erase w } }).finish post ∧
        Keeps [.bcl, .nvq, .out] c d)))

/-- GO of SEC_JOB_CTRL with a range that may be read, inside SRAM or usable DRAM after the fill, LEN above 0
and no job running sets BUSY, RESULT 0 and the KIND, and the job takes the range; otherwise RESULT is 2 with
FAULT RANGE and no job starts (R251, R252). The end of a job clears BUSY and raises its cause. Read without
poison, KIND 0 puts the SHA-256 into SEC_DIGEST0 to 7 with RESULT 1, KIND 1 the CRC32C into SEC_DIGEST0, and
KIND 2 gives RESULT 1, or 4 with the failing step of R59; poison gives RESULT 3 and no digest. INIT in
MANUFACTURE draws both roots, writes each into its key group and sets ROOT; in DIAGNOSTIC it sets FAULT STATE,
elsewhere IGN_LCS, and neither draws anything (R249). -/
def Obligations.SecJobsHashCheckAndDrawRoots : Prop :=
  (∀ (s : State) (row : Instr) (kind : Nat), s.chip.alive = true →
    (row = .secSha256Job ∧ kind = 0) ∨ (row = .secCrc32cJob ∧ kind = 1) ∨ (row = .secImgVerifyJob ∧ kind = 2) →
    let c := s.chip
    let a := (c.reg R.SEC_JOB_SRC_LO).toNat + c.fld R.SEC_JOB_SRC_HI 3 0 * 2 ^ 32
    let n := (c.reg R.SEC_JOB_LEN).toNat
    (c.sec.job = none → 0 < n → c.memReadable a n = true → Completes row s (fun d =>
      d.bit R.SEC_JOB_CTRL 30 = true ∧ d.fld R.SEC_JOB_CTRL 26 24 = 0 ∧ d.fld R.SEC_JOB_CTRL 1 0 = kind ∧
      d.sec = { c.sec with job := some ⟨kind, a, n⟩ } ∧ OnlyRegs [R.SEC_JOB_CTRL] c d ∧
      Keeps [.regs, .sec] c d)) ∧
    (c.sec.job ≠ none ∨ n = 0 ∨ c.memReadable a n = false → Completes row s (fun d =>
      d.fld R.SEC_JOB_CTRL 26 24 = 2 ∧ d.bit (pFault 0x1A) 3 = true ∧
      RegsOnly [R.SEC_JOB_CTRL, pFault 0x1A, pIntStatus 0x1A] c d))) ∧
  (∀ (s : State) (good : Bool) (j : SecJob) (bs : List Byte) (bad : Bool) (e : Chip), s.chip.alive = true →
    s.chip.sec.job = some j → s.chip.readRange j.src j.len = (bs, bad, e) →
    Completes (.secJobDone good) s (fun d =>
      d.sec = { s.chip.sec with job := none } ∧ d.bit R.SEC_JOB_CTRL 30 = false ∧
      d.bit (pIntStatus 0x1A) 0 = true ∧
      (bad = true → d.fld R.SEC_JOB_CTRL 26 24 = 3 ∧ ∀ i < 8, d.reg (R.SEC_DIGEST i) = e.reg (R.SEC_DIGEST i)) ∧
      (bad = false → j.kind = 0 → d.fld R.SEC_JOB_CTRL 26 24 = 1 ∧ ∀ i < 8, d.reg (R.SEC_DIGEST i) =
        BitVec.ofNat 32 (leAt (leBytes 32 (sha256 bs).toNat).reverse (4 * i) 4)) ∧
      (bad = false → j.kind = 1 → d.fld R.SEC_JOB_CTRL 26 24 = 1 ∧ d.reg (R.SEC_DIGEST 0) = crc32c bs) ∧
      (bad = false → j.kind = 2 →
        d.fld R.SEC_JOB_CTRL 26 24 = (if e.imageStep bs good = 0 then 1 else 4) ∧
        d.fld R.SEC_JOB_CTRL 19 16 = e.imageStep bs good) ∧
      Keeps [.regs, .evr, .sec, .mem, .pwr] s.chip d)) ∧
  (∀ s : State, s.chip.alive = true →
    let c := s.chip
    (c.effective = 1 → c.jnl.failed = false → c.jnl.closed = false → Completes .secRootInit s (fun d =>
      d.bit R.SEC_STATUS 0 = true ∧ d.freeCtr = c.freeCtr + 2 ∧
      d.mram = ((c.writeKey 7 1 0 (Config.random 256 c.freeCtr)).writeKey 8 2 0
        (Config.random 256 (c.freeCtr + 1))).mram ∧
      OnlyRegs [R.SEC_STATUS] c d ∧ Keeps [.regs, .mram, .freeCtr] c d)) ∧
    (c.effective = 3 → Completes .secRootInit s (fun d =>
      d.bit (pFault 0x1A) 4 = true ∧ RegsOnly [pFault 0x1A, pIntStatus 0x1A] c d)) ∧
    (c.diagOpen = false → Completes .secRootInit s (fun d =>
      d.bit (pFault 0x1A) 1 = true ∧ d.fld (pFault 0x1A) 31 20 = 0xF00 ∧
      RegsOnly [pFault 0x1A, pIntStatus 0x1A] c d)))

/-- A push of a read descriptor (read, verify, capture, re-decode) stores its words, shows the first failing
check of R271 in RESULT with FAULT bit 5 and queues nothing, or RESULT 1 and queues it, its slots awaiting
their sectors with flag 0 (R25, R270, R271); the channel then goes on. A read for a reader whose sectors are
all on the ladder joins them and queues nothing (R314); another joins once accepted (R300, R301). A media
read's sector confirms exactly when it decodes with a good CRC within the iteration limit, its seed matches
ZONE, GEN and unit (or SEED_ANY), every servo verdict of its samples passes, and SYNC_PRE is used or some
position of the window differs from the pattern in at most TOL bits (R264 to R267, R274, R275); a decision
waits for its samples, and a re-decode without its soft entry gives RESULT 6 (R269). A confirmed sector counts
in RD_CNT_CONF (R276). RD_ABORT ends every read with its cause (R286). FMT_LOCK sets its bit (R288). -/
def Obligations.ReadDescriptorsArePushedDecidedAndDone : Prop :=
  (∀ (s : State) (a : Act) (w : DescWords), s.chip.alive = true →
    Completes (.rdDescRead a w none) s (fun d =>
      d = ((s.chip.rdPush a (w.withOp 0) .firmware []).runChannel a).settle ∧ Keeps mediaParts s.chip d) ∧
    Completes (.rdDescVerify a w none) s (fun d =>
      d = ((s.chip.rdPush a (w.withOp 1) .firmware []).runChannel a).settle ∧ Keeps mediaParts s.chip d) ∧
    Completes (.rdDescCapture a w) s (fun d =>
      d = ((s.chip.rdPush a (w.withOp 2) .firmware []).runChannel a).settle ∧ Keeps mediaParts s.chip d) ∧
    Completes (.rdDescRedecode a w) s (fun d =>
      d = ((s.chip.rdPush a (w.withOp 3) .firmware []).runChannel a).settle ∧ Keeps mediaParts s.chip d)) ∧
  (∀ (s : State) (a : Act) (w : DescWords) (r : Reader) (verify : Bool), s.chip.alive = true →
    let row : Instr := if verify then .rdDescVerify a w (some r) else .rdDescRead a w (some r)
    let v := w.withOp (b2n verify)
    let joined := v.offsets.all (fun i =>
      (s.chip.chan a).ladders.any (fun l => l.isAt v.head v.track (v.sector + i)))
    let e := s.chip.rdPush a v .original [r]
    (joined = true → Completes row s (fun d =>
      d = (s.chip.join a v r).settle ∧ (d.chan a).queue = (s.chip.chan a).queue)) ∧
    (joined = false → e.rdResult a = 1 → Completes row s (fun d =>
      d = ((e.join a v r).runChannel a).settle ∧ Keeps mediaParts s.chip d)) ∧
    (joined = false → e.rdResult a ≠ 1 → Completes row s (fun d => d = e.settle))) ∧
  (∀ (c : Chip) (a : Act) (w : DescWords) (who : DescBy) (rs : List Reader),
    let r := c.rdCheck a w
    let d := c.rdPush a w who rs
    d.rdResult a = r ∧ (∀ i < 8, d.reg (R.RD_DESC a i) = w.toList.getD i 0) ∧
    (r ≠ 1 → d.bit (pFault (chanPage a 0x20)) 5 = true ∧ (d.chan a).queue = (c.chan a).queue ∧ d.mem = c.mem) ∧
    (r = 1 → (d.chan a).queue = (c.chan a).queue ++ [{ words := w, write := false, by_ := who }] ∧
      (d.chan a).run = (c.chan a).run ∧ (d.chan a).ladders = (c.chan a).ladders ∧
      (w.op = 0 ∨ w.op = 3 → ∀ i ≤ w.count, ∃ q, d.slots.find? (w.data / 4096 + i) = some q ∧ q.conf = false ∧
        q.zone = w.zone ∧ q.unit = w.unit + i)) ∧
    (32 ≤ ((c.chan a).waiting false).length → r = 2) ∧
    (((c.chan a).waiting false).length < 32 → w.head / 10 ≠ a.toNat → r = 3) ∧
    (r = 1 → c.inHoldup = false ∧ w.data % 4096 = 0 ∧ w.stat % 32 = 0 ∧ w.rdmode ≠ 3 ∧
      c.outOfService a = false ∧ w.head / 10 = a.toNat)) ∧
  (∀ (pattern : Word) (r : RdRun) (i : Nat) (servo : Bool) (v : Sense),
    (mediaOutcome pattern r i servo v).conf = true ↔
    servo = true ∧
    (∃ x, v.sector = some x ∧ v.iter ≤ r.iterFly ∧ x.crcOk = true ∧ seedOk r.words i x.info = true) ∧
    (r.words.syncPre = true ∨ ∃ b ∈ v.window.take r.win,
      ((List.range 32).filter (fun n => (b ^^^ pattern).getLsbD n)).length ≤ r.setup.tol)) ∧
  (∀ (s : State) (a : Act) (i inside : Nat) (v : Sense) (adapted : List (BitVec 12)) (r : RdRun),
    s.chip.alive = true → (s.chip.chan a).run = some (.rd r) → i ≤ r.words.count →
    (∀ e ∈ r.decided, e.1 ≠ i) →
    let soft := (s.chip.chan a).softOf r.words
    let vs := (s.chip.chan a).verdicts.take (inside + 2)
    let decided (o : Outcome) : Prop := Completes (.sectorDecided a i inside v adapted) s (fun d =>
      d = (s.chip.decide_ a r i o v adapted).settle ∧ Keeps mediaParts s.chip d)
    (r.words.op = 3 → soft = none → decided { result := 6 }) ∧
    (∀ e, r.words.op = 3 → soft = some e → decided (decodeOutcome r.words i e.servoOk r.iterMax v)) ∧
    (r.words.op ≠ 3 → (inside + 2 ≤ (s.chip.chan a).verdicts.length ∧ (vs.getLastD ⟨false, false⟩).gate = true) →
      decided (mediaOutcome (s.chip.reg (R.SYNC_PAT a)) r i (vs.all (·.pass)) v)) ∧
    (r.words.op ≠ 3 → ((s.chip.chan a).verdicts.length < inside + 2 ∨ (vs.getLastD ⟨false, false⟩).gate = false) →
      Completes (.sectorDecided a i inside v adapted) s (Still s.chip))) ∧
  (∀ (c : Chip) (a : Act) (r : RdRun) (i : Nat) (o : Outcome) (v : Sense) (adapted : List (BitVec 12)),
    c.cpu.waits = [] → r.by_ = .firmware → r.decided.length < r.words.count →
    let d := c.decide_ a r i o v adapted
    (∃ q, (d.chan a).run = some (.rd q) ∧ q.decided = r.decided ++ [(i, o.conf)] ∧ q.words = r.words) ∧
    (o.conf = true → d.reg (R.RD_CNT_CONF a) =
      BitVec.ofNat 32 (min ((c.reg (R.RD_CNT_CONF a)).toNat + 1) 0xFFFFFFFF)) ∧
    (o.conf = false → d.reg (R.RD_CNT_CONF a) = c.reg (R.RD_CNT_CONF a))) ∧
  (∀ (s : State) (a : Act), s.chip.alive = true →
    Completes (.rdAbort a) s (fun d => d = ((s.chip.abortReads a).runChannel a).settle ∧ Keeps mediaParts s.chip d) ∧
    Completes (.fmtLock a) s (fun d => d.bit (R.FMT_LOCK a) 0 = true ∧ RegsOnly [R.FMT_LOCK a] s.chip d)) ∧
  (∀ (c : Chip) (a : Act), c.cpu.waits = [] →
    let d := c.abortReads a
    (d.chan a).waiting false = [] ∧ (∀ r, (d.chan a).run ≠ some (.rd r)) ∧
    ((c.chan a).waiting false ≠ [] ∨ (∃ r, (c.chan a).run = some (.rd r)) →
      d.bit (pIntStatus (chanPage a 0x20)) 3 = true))

/-- With SV_WEDGES 0 no sample is made. Outside search, a mark within SAM_WIN of its expected time gives a
sample of the wedge found; any other wedge, and every wedge in search, gives an invalid SAM_MISS sample with
the last PES and TRACK (R283, R284). A found sample is valid exactly when its track parity holds, its wedge
follows the one before modulo SV_WEDGES, and its amplitude is in limits. The eighth miss in a row enters
search; two marks one wedge period apart leave it, the second checked against the first (R284). A pending
profile load takes effect at the wedge. The sample shows in SV_SAMPLE and SV_TRACK, an invalid one counts and
sets INVALID (R290, R292). The read gate opens below ARRIVAL and stays below RD_FAULT; on-track needs two
samples in a row below ONTRACK, each on PES less OFS, while the verdict takes PES unchanged (R293 to R295). -/
def Obligations.ServoSamplesAreCheckedShownAndGateTheChannel : Prop :=
  (∀ (s : State) (a : Act) (b : Burst) (under : List Nat) (x : EngErrors), s.chip.alive = true →
    let n := s.chip.fld (R.SV_WEDGES a) 10 0
    let c := s.chip.svBoundary a
    (n = 0 → CompletesThen (.servoSample a b under x) s (fun d => d = s.chip) ∧
      CompletesThen (.servoMarkMiss a under x) s (fun d => d = s.chip)) ∧
    (n ≠ 0 →
      let found := (∃ m, b.mark = some m ∧ m.natAbs ≤ c.fld (R.SV_SAM a) 15 8) ∧
        (s.chip.chan a).search = false ∧ b.wedge < n
      (found → CompletesThen (.servoSample a b under x) s (fun d =>
        d = c.foundWedge a b (s.chip.chan a).prevWedge under false true x ∧ Keeps sampleParts s.chip d)) ∧
      (¬ found → CompletesThen (.servoSample a b under x) s (fun d =>
        d = c.missedMark a under false true x ∧ Keeps sampleParts s.chip d)) ∧
      CompletesThen (.servoMarkMiss a under x) s (fun d =>
        d = c.missedMark a under false true x ∧ Keeps sampleParts s.chip d))) ∧
  (∀ (s : State) (a : Act) (first : Nat) (b : Burst) (x : EngErrors), s.chip.alive = true →
    (s.chip.chan a).search = true → b.wedge < s.chip.fld (R.SV_WEDGES a) 10 0 →
    CompletesThen (.servoSearchExit a first b x) s (fun d => ∃ e : Chip,
      e = ((s.chip.svBoundary a).mapChan a (fun y => { y with search := false })).raise (chanPage a 0x22) 2 ∧
      d = e.foundWedge a b (some first) [] false true x ∧ (e.chan a).search = false ∧
      e.bit (pIntStatus (chanPage a 0x22)) 2 = true ∧ Keeps sampleParts s.chip d)) ∧
  (∀ (c : Chip) (a : Act),
    ((c.chan a).svProfile = none → c.svBoundary a = c) ∧
    (∀ p, (c.chan a).svProfile = some p → c.svBoundary a =
      (c.mapChan a (fun y => { y with svProfile := none })).loadSvProfile a p)) ∧
  (∀ (c : Chip) (a : Act) (b : Burst) (prev : Option Nat) (under : List Nat) (over_ ev : Bool) (x : EngErrors),
    ∃ (e : Chip) (smp : Sample),
      c.foundWedge a b prev under over_ ev x = e.handOverSample a smp under over_ ev x ∧
      (e.chan a).misses = 0 ∧ smp.samMiss = false ∧ smp.gray = !b.gray ∧ smp.amp = c.ampBad a b.amp ∧
      (smp.seq = false ↔ ∀ w, prev = some w → (w + 1) % c.fld (R.SV_WEDGES a) 10 0 = b.wedge) ∧
      (smp.valid = true ↔ b.gray = true ∧ smp.seq = false ∧ smp.amp = false) ∧
      smp.wedge = b.wedge ∧ smp.track = b.track.toNat ∧ smp.pes = pesOf b.pos (e.cle a).target ∧
      ((c.cle a).armed = true → smp.valid = true → (e.cle a).state = .run ∧ (e.cle a).armed = false) ∧
      ((c.cle a).armed = false ∨ smp.valid = false → e.cle a = c.cle a)) ∧
  (∀ (c : Chip) (a : Act) (under : List Nat) (over_ ev : Bool) (x : EngErrors),
    let ch := c.chan a
    ∃ (e : Chip) (smp : Sample),
      c.missedMark a under over_ ev x = e.handOverSample a smp under over_ ev x ∧
      smp.valid = false ∧ smp.samMiss = true ∧ smp.gray = false ∧ smp.seq = false ∧ smp.amp = false ∧
      smp.track = c.fld (R.SV_TRACK a) 19 0 ∧ smp.pes = signed 16 (c.fld (R.SV_SAMPLE a) 15 0) ∧
      (e.chan a).misses = min 8 (ch.misses + 1) ∧ ((e.chan a).search = true ↔ ch.search = true ∨ 7 ≤ ch.misses) ∧
      ((e.chan a).search = true → smp.wedge = ch.lastValid) ∧
      (∀ w, (e.chan a).search = false → ch.prevWedge = some w →
        smp.wedge = (w + 1) % c.fld (R.SV_WEDGES a) 10 0) ∧
      (ch.search = false → 7 ≤ ch.misses → e.bit (pIntStatus (chanPage a 0x22)) 1 = true ∧
        e.reg (R.SV_SEARCH_CNT a) = BitVec.ofNat 32 (min ((c.reg (R.SV_SEARCH_CNT a)).toNat + 1) 0xFFFFFFFF)) ∧
      (ch.search = true ∨ ch.misses < 7 → e.regs = c.regs)) ∧
  (∀ (c : Chip) (a : Act) (v : Sample), v.wedge < 1024 → v.track < 2 ^ 20 → -32768 ≤ v.pes → v.pes ≤ 32767 →
    let d := c.showSample a v
    let k := R.SV_SAMPLE a
    d.bit k 31 = v.valid ∧ d.bit k 30 = v.samMiss ∧ d.bit k 29 = v.gray ∧ d.bit k 28 = v.seq ∧ d.bit k 27 = v.amp ∧
    d.fld k 25 16 = v.wedge ∧ signed 16 (d.fld k 15 0) = v.pes ∧
    d.fld (R.SV_TRACK a) 19 0 = v.track ∧ d.bit (R.SV_TRACK a) 31 = (c.chan a).search ∧
    (v.valid = true → OnlyRegs [k, R.SV_TRACK a] c d) ∧
    (v.valid = false → d.bit (pIntStatus (chanPage a 0x22)) 0 = true ∧
      d.reg (R.SV_INVALID_CNT a) = BitVec.ofNat 32 (min ((c.reg (R.SV_INVALID_CNT a)).toNat + 1) 0xFFFFFFFF)) ∧
    RegsOnly [k, R.SV_TRACK a, R.SV_INVALID_CNT a, pIntStatus (chanPage a 0x22)] c d) ∧
  (∀ (c : Chip) (a : Act) (v : Sample),
    let y := (c.gates a v).chan a
    let th := c.reg (R.SV_THRESH a)
    let off := v.pes - signed 16 (c.fld (R.CLE_OFS a) 15 0)
    let within (p : Int) (percent : Nat) : Prop := v.valid = true ∧ p.natAbs * 100 < percent * 4096
    let stays := within off (field th 23 16)
    ((c.chan a).gate = false → (y.gate = true ↔ within off (field th 15 8))) ∧
    ((c.chan a).gate = true → (y.gate = true ↔ stays)) ∧
    (y.onTrack = true ↔ stays ∧
      ((c.chan a).onTrack = true ∨ (within off (field th 7 0) ∧ 1 ≤ (c.chan a).onCount))) ∧
    (∃ w ws, y.verdicts = w :: ws ∧ w.gate = y.gate ∧
      (w.pass = true ↔ within v.pes (field th 23 16))) ∧
    Keeps (match a with | .A => [.chanA] | .B => [.chanB]) c (c.gates a v))

/-- The law's commands never exceed MLIM, VLIM and the Chord limit in magnitude, and a coasting stage makes no
correction (R344, R362, R380). The error is PES, less FRAC and OFS, within eight tracks of the target and
4,096 for each track beyond, times 4 (R351); the table adjusts it by RC_MODE and only learns with LEARN, a
mode, on-track and an empty FIFO (R355). A sample that leaves the engine running sends one VCM frame and one
microactuator code. On time, valid ends the coast and invalid extends it; an overrun, an injected one or an
uncorrectable error is counted in CLE_OVERRUN and sets OVERRUN, leaves the coast count, and sends the hold
commands, or the commands before where these were not evaluated (R362, R364). A VCM frame waits for the other
engine's frame only, and MLK_WAIT_MAX keeps the longest wait (R415, R424). A loss follows an uncorrectable
error, OVERRUN_LIMIT overruns, more than COAST_MAX coasts or FREEZE_N equal samples, and only these (R363,
R365, R366). -/
def Obligations.EngineSamplesObeyTheLawAndHoldOnOverrun : Prop :=
  (∀ (c : Chip) (a : Act) (ec : Int) (coasting : Bool) (ff x : Int) (lim : Nat),
    let o := c.law a ec coasting ff x lim
    o.outM.natAbs ≤ c.fld (R.CLE_MLIM a) 14 0 ∧ o.outV.natAbs ≤ lim ∧ o.outV.natAbs ≤ c.fld (R.CLE_VLIM a) 16 0) ∧
  (∀ (c : Chip) (a : Act) (isV : Bool) (g : Stage) (u : Int),
    (c.stage_ a isV g u true).xh = g.xp.take (structOrder (c.reg (R.CLE_STRUCT a)) isV)) ∧
  (∀ (c : Chip) (a : Act) (v : Sample),
    let t : Int := (c.cle a).target
    let less : Int := field (c.cle a).ref 11 0 + signed 16 (c.fld (R.CLE_OFS a) 15 0)
    v.track < 2 ^ 16 → -32768 ≤ v.pes → v.pes ≤ 32767 → t < 2 ^ 16 →
    ((v.track - t).natAbs < 8 → c.errorOf a v = ((v.pes - less) * 4, false)) ∧
    (8 ≤ (v.track - t).natAbs → c.errorOf a v = ((4096 * (v.track - t) - less) * 4, false))) ∧
  (∀ (c : Chip) (a : Act) (w : Nat) (e : Int), e.natAbs < 2 ^ 30 →
    (∀ k, ((c.cle a).bin k).natAbs < 2 ^ 30) →
    (c.fld (R.CLE_RC_CFG a) 1 0 = 0 → c.rcAdjust a w e = (e, false)) ∧
    (c.fld (R.CLE_RC_CFG a) 1 0 = 1 → c.rcAdjust a w e = (e - (c.cle a).bin (c.rcKey a w 0), false)) ∧
    (c.fld (R.CLE_RC_CFG a) 1 0 = 2 → c.rcAdjust a w e =
      (e + (c.cle a).bin (c.rcKey a w (c.fld (R.CLE_RC_CFG a) 26 24)), false))) ∧
  (∀ (c : Chip) (a : Act) (w : Nat) (e : Int),
    (c.bit (R.CLE_RC_CTRL a) 0 = false ∨ c.fld (R.CLE_RC_CFG a) 1 0 = 0 ∨ (c.chan a).onTrack = false ∨
      (c.cle a).dry = false → c.rcLearn a w e = c) ∧
    (∀ k, k ≠ c.rcKey a w 0 → ((c.rcLearn a w e).cle a).bin k = (c.cle a).bin k) ∧
    (c.bit (R.CLE_RC_CTRL a) 0 = true → c.fld (R.CLE_RC_CFG a) 1 0 ≠ 0 → (c.chan a).onTrack = true →
      (c.cle a).dry = true → c.fld (R.CLE_RC_CFG a) 19 16 = 0 →
      let gain := c.fld (R.CLE_RC_CFG a) 11 8
      let old := (c.cle a).bin (c.rcKey a w 0)
      old.natAbs ≤ 16384 → (e * 2 ^ (30 - gain)).natAbs ≤ 2 ^ 43 →
      (((c.rcLearn a w e).cle a).bin (c.rcKey a w 0) * 2 ^ 30 - (old * 2 ^ 30 + e * 2 ^ (30 - gain))).natAbs
        ≤ 2 ^ 29)) ∧
  (∀ (c : Chip) (a : Act) (v : Sample) (over_ ev : Bool) (x : EngErrors), (c.cle a).pend = [] →
    let d := c.engineSample a v over_ ev x
    let late : Prop := over_ = true ∨ x.uncorr = true ∨ c.bit (R.CLE_INJECT a) 0 = true
    (d.cle a).running = true →
    (∃ w dac, d.out = c.out ++ [.mlkFrame w, .dac a dac]) ∧ d.bit (R.CLE_INJECT a) 0 = false ∧
    (late →
      d.reg (R.CLE_OVERRUN a) = BitVec.ofNat 32 (min ((c.reg (R.CLE_OVERRUN a)).toNat + 1) 0xFFFFFFFF) ∧
      d.bit (pIntStatus (chanPage a 0x24)) 1 = true ∧
      (d.cle a).overruns = (c.cle a).overruns + 1 ∧ (d.cle a).coast = (c.cle a).coast ∧
      let o := c.holdCommands a ev ((c.boundary a).limit a)
      d.reg (R.CLE_OUT_V a) = BitVec.ofNat 32 (unsigned 18 o.outV) ∧
      d.reg (R.CLE_OUT_M a) = BitVec.ofNat 32 (unsigned 16 o.outM)) ∧
    (¬ late →
      d.reg (R.CLE_OVERRUN a) = c.reg (R.CLE_OVERRUN a) ∧ (d.cle a).overruns = 0 ∧
      (v.valid = true → (d.cle a).coast = 0 ∧ (d.cle a).state = .run) ∧
      (v.valid = false → (d.cle a).coast = min 15 ((c.cle a).coast + 1) ∧ (d.cle a).state = .coast ∧
        (d.cle a).rc = (c.boundary a |>.cle a).rc))) ∧
  (∀ (c : Chip) (a : Act) (v m : Int) (rtr : Bool),
    let d := c.sendCommands a v m rtr
    let now := c.dtm.dtime.toNat
    let old := c.fld R.MLK_WAIT_MAX 6 0
    ((∀ t, c.links.frameEnd ≠ some (a.other, t) ∨ t ≤ now) →
      d.links.frameEnd = some (a, now + 32) ∧ d.reg R.MLK_WAIT_MAX = c.reg R.MLK_WAIT_MAX) ∧
    (∀ t, c.links.frameEnd = some (a.other, t) → now < t → t ≤ now + 32 →
      d.links.frameEnd = some (a, t + 32) ∧
      (old < 2 * (t - now) → d.reg R.MLK_WAIT_MAX = BitVec.ofNat 32 (2 * (t - now))) ∧
      (2 * (t - now) ≤ old → d.reg R.MLK_WAIT_MAX = c.reg R.MLK_WAIT_MAX))) ∧
  (∀ (c : Chip) (a : Act) (ev : Bool) (lim : Nat),
    let o := c.holdCommands a ev lim
    (ev = true → o = c.law a (c.predicted a) true (c.cle a).ff (c.cle a).x lim) ∧
    (ev = false → o.outV = signed 18 (c.fld (R.CLE_OUT_V a) 17 0) ∧ o.outM = signed 16 (c.fld (R.CLE_OUT_M a) 15 0))) ∧
  (∀ (c : Chip) (a : Act) (u : Bool),
    let e := c.cle a
    let f := c.reg (R.CLE_FAULT_CFG a)
    let limit : Prop := e.overruns ≠ 0 ∧ field f 19 16 ≤ e.overruns
    let frozen : Prop := field f 11 8 ≤ e.pesRun ∨ field f 11 8 ≤ e.wedgeRun
    (c.lossCause a u = 5 ↔ u = true) ∧ (c.lossCause a u = 4 ↔ u = false ∧ limit) ∧
    (c.lossCause a u = 1 ↔ u = false ∧ ¬ limit ∧ field f 3 0 < e.coast) ∧
    (c.lossCause a u = 0 ↔ u = false ∧ ¬ limit ∧ e.coast ≤ field f 3 0 ∧ ¬ frozen)) ∧
  (∀ (s : State) (a : Act) (b : Option Burst) (under : List Nat) (ev : Bool) (x : EngErrors),
    s.chip.alive = true →
    let c := s.chip.svBoundary a
    let n := s.chip.fld (R.SV_WEDGES a) 10 0
    let found (u : Burst) : Prop := (∃ m, u.mark = some m ∧ m.natAbs ≤ c.fld (R.SV_SAM a) 15 8) ∧
      (c.chan a).search = false ∧ u.wedge < n
    (n = 0 → CompletesThen (.cleOverrun a b under ev x) s (fun d => d = s.chip)) ∧
    (∀ u, n ≠ 0 → b = some u → found u → CompletesThen (.cleOverrun a b under ev x) s (fun d =>
      d = c.foundWedge a u (c.chan a).prevWedge under true ev x ∧ Keeps sampleParts s.chip d)) ∧
    (n ≠ 0 → (∀ u, b = some u → ¬ found u) → CompletesThen (.cleOverrun a b under ev x) s (fun d =>
      d = c.missedMark a under true ev x ∧ Keeps sampleParts s.chip d)))

/-- RUN arms the engine in OFF and LOST, unless its actuator is retired or HOLDUP has begun, and has no effect
elsewhere; PARK waits for the next boundary in RUN and COAST and has no effect elsewhere (R353, R368, R370,
R392). CLR_RC asks for the next sample to clear the head's bins, and no bin of another head (R356). A write of
CLE_REF_FF pushes REF and FF, or sets REF_FULL at 64 entries (R350, R372). A write of CLE_RC_DATA stores the
bin CLE_RC_SEL names, unless the head may be learning: RC_BUSY; each access advances BIN under AUTOINC (R356,
R373). CLE_INJECT is taken in MANUFACTURE and DIAGNOSTIC only (R364). A law write takes effect at once in OFF
and LOST, waits in the queue of eight elsewhere, and sets COEF_FULL on a full queue; a boundary applies the
oldest alone, and the last raises COEF_APPLIED (R357 to R359). -/
def Obligations.EngineCommandsArmParkFeedAndQueueTheLaw : Prop :=
  (∀ (s : State) (a : Act), s.chip.alive = true →
    let c := s.chip
    let e := c.cle a
    let may := c.inHoldup = false ∧ c.outOfService a = false ∧ (e.state = .off ∨ e.state = .lost)
    (may → Completes (.cleRun a) s (fun d => d = (c.setCle a { e with armed := true, pushed := false }).settle)) ∧
    (¬ may → Completes (.cleRun a) s (Still c)) ∧
    (e.state = .run ∨ e.state = .coast →
      Completes (.clePark a) s (fun d => d = (c.setCle a { e with park := true }).settle)) ∧
    (e.state ≠ .run → e.state ≠ .coast → Completes (.clePark a) s (Still c)) ∧
    Completes (.cleClrRc a) s (fun d => d = (c.setCle a { e with clrRc := true }).settle)) ∧
  (∀ (e : Cle) (head k : Nat),
    (k / 1024 = head → (e.clearBins head).bin k = 0) ∧
    (k / 1024 ≠ head → (e.clearBins head).bin k = e.bin k)) ∧
  (∀ (s : State) (a : Act) (v : Word), s.chip.alive = true →
    let c := s.chip
    let e := c.cle a
    (e.fifo.length < 64 → Completes (.cleRefPush a v) s (fun d =>
      (d.cle a) = { e with fifo := e.fifo ++ [(c.reg (R.CLE_REF_TRK a), signed 18 (field v 17 0))], pushed := true } ∧
      d.reg (R.CLE_REF_FF a) = (v &&& 0x3FFFF#32) ∧
      (v.toNat < 2 ^ 18 → OnlyRegs [R.CLE_REF_FF a] c d) ∧
      (2 ^ 18 ≤ v.toNat → d.bit (pFault (chanPage a 0x24)) 2 = true ∧ d.fld (pFault (chanPage a 0x24)) 31 20 = 0x098) ∧
      OnlyRegs [R.CLE_REF_FF a, pFault (chanPage a 0x24), pIntStatus (chanPage a 0x24)] c d ∧
      Keeps [.regs, .pwr, match a with | .A => .cleA | .B => .cleB] c d)) ∧
    (64 ≤ e.fifo.length → Completes (.cleRefPush a v) s (fun d =>
      d.bit (pFault (chanPage a 0x24)) 5 = true ∧
      RegsOnly [pFault (chanPage a 0x24), pIntStatus (chanPage a 0x24)] c d))) ∧
  (∀ (s : State) (a : Act) (v : Option Word), s.chip.alive = true →
    let c := s.chip
    let k := R.CLE_RC_SEL a
    let bin := c.fld k 9 0
    let head := c.fld k 19 16
    let busy := head = c.fld (R.CLE_HEAD a) 3 0 ∧ c.bit (R.CLE_RC_CTRL a) 0 = true
    let steps (d : Chip) : Prop := (c.bit k 31 = true → d.fld k 9 0 = (bin + 1) % 1024 ∧ d.fld k 31 10 = c.fld k 31 10) ∧
      (c.bit k 31 = false → d.reg k = c.reg k)
    (v = none → Completes (.cleRcDataAccess a v) s (fun d => steps d ∧
      d.out = c.out ++ [.read (leBytes 4 (unsigned 16 ((c.cle a).bin (head * 1024 + bin))))] ∧
      OnlyRegs [k] c d ∧ Keeps [.regs, .pwr, .out] c d)) ∧
    (v ≠ none → busy → Completes (.cleRcDataAccess a v) s (fun d => d.bit (pFault (chanPage a 0x24)) 7 = true ∧
      RegsOnly [pFault (chanPage a 0x24), pIntStatus (chanPage a 0x24)] c d)) ∧
    (∀ w, v = some w → ¬ busy → Completes (.cleRcDataAccess a v) s (fun d => steps d ∧
      (d.cle a).bin (head * 1024 + bin) = signed 16 (field w 15 0) ∧
      (∀ j, j ≠ head * 1024 + bin → (d.cle a).bin j = (c.cle a).bin j) ∧
      OnlyRegs [k, pFault (chanPage a 0x24), pIntStatus (chanPage a 0x24)] c d ∧
      Keeps [.regs, .pwr, match a with | .A => .cleA | .B => .cleB] c d))) ∧
  (∀ (s : State) (a : Act), s.chip.alive = true →
    (s.chip.diagOpen = true → Completes (.cleInjectOverrun a) s (fun d =>
      d.bit (R.CLE_INJECT a) 0 = true ∧ OnlyRegs [R.CLE_INJECT a] s.chip d ∧ Keeps [.regs] s.chip d)) ∧
    (s.chip.diagOpen = false → Completes (.cleInjectOverrun a) s (fun d =>
      d.bit (pFault (chanPage a 0x24)) 1 = true ∧ d.fld (pFault (chanPage a 0x24)) 31 20 = 0xF00 ∧
      RegsOnly [pFault (chanPage a 0x24), pIntStatus (chanPage a 0x24)] s.chip d))) ∧
  (∀ (s : State) (m : Master) (a : Act) (off : Nat) (v : Word),
    off ∈ [0x404, 0x408, 0x40C, 0x800, 0x900, 0x940, 0x950, 0x960, 0x970, 0x980, 0xA00, 0xB00, 0xB80] →
    let page := chanPage a 0x24
    let k := page * 4096 + off
    let c := s.chip
    let e := c.cle a
    c.mayReach m (0x40000000 + k) = true → c.bit (pCtrl page) 31 = true →
    (c.calibrating a = true → Completes (.cleLawWrite m a off v) s (fun d =>
      d.bit (pFault page) 6 = true ∧ d.cle a = e ∧ RegsOnly [pFault page, pIntStatus page] c d)) ∧
    (c.calibrating a = false → e.state = .off ∨ e.state = .lost → Completes (.cleLawWrite m a off v) s (fun d =>
      d.reg k = v ∧ d.cle a = e ∧ RegsOnly [k] c d)) ∧
    (c.calibrating a = false → e.state ≠ .off → e.state ≠ .lost → e.pend.length < 8 →
      Completes (.cleLawWrite m a off v) s (fun d =>
        d.cle a = { e with pend := e.pend ++ [(k, v)] } ∧ OnlyRegs [] c d ∧
        Keeps [.pwr, match a with | .A => .cleA | .B => .cleB] c d)) ∧
    (c.calibrating a = false → e.state ≠ .off → e.state ≠ .lost → 8 ≤ e.pend.length →
      Completes (.cleLawWrite m a off v) s (fun d =>
        d.bit (pFault page) 4 = true ∧ d.cle a = e ∧ RegsOnly [pFault page, pIntStatus page] c d))) ∧
  (∀ (c : Chip) (a : Act) (k : Nat) (v : Word) (ps : List (Nat × Word)), (c.cle a).pend = (k, v) :: ps →
    k ≠ R.CLE_STRUCT a → k ≠ pIntStatus (chanPage a 0x24) →
    let d := c.applyOldest a
    (d.cle a) = { c.cle a with pend := ps } ∧ d.reg k = v ∧
    (ps = [] → d.bit (pIntStatus (chanPage a 0x24)) 6 = true) ∧
    (ps ≠ [] → d.reg (pIntStatus (chanPage a 0x24)) = c.reg (pIntStatus (chanPage a 0x24))) ∧
    OnlyRegs [k, pIntStatus (chanPage a 0x24)] c d)

/-- A push of a write or fill descriptor stores its words and RESULT; it is queued exactly when every check of
R320 holds, a queue of 16 writes giving 2 first, and else sets PUSH_REJECT and changes nothing more (R319,
R320). Write permission implies a valid sample with PES below WR_FAULT on track, no overrun, no coasting, no
SNS event and CHx_FLT_N high (R315). WRITE_DESC_DONE writes the sectors not yet written in ascending order
with their metadata: seed, the descriptor's DTIME, the power-cycle count, head and a TYPE of 4 for a fill and
3 for poisoned data (R259, R321 to R323), and ends the descriptor with RESULT 0, or leaves it to its monitor
reading (R331). Without permission for WAIT_REV revolutions it ends with RESULT 3 (R329), on WR_ABORT with 2
(R334). A done descriptor shows its TAG and count and raises DESC_DONE, POISON and NO_GATE as they apply
(R323, R335, R337). -/
def Obligations.WriteDescriptorsArePushedAndWriteUnderPermission : Prop :=
  (∀ (s : State) (a : Act) (w : DescWords) (fill : Bool), s.chip.alive = true →
    let row : Instr := if fill then .wrDescFill a w else .wrDescWrite a w
    let c := s.chip
    let v := w.withOp (b2n fill)
    let r := c.wrCheck a v
    (r ≠ 1 → Completes row s (fun d => d.fld (R.WR_PUSH a) 3 1 = r ∧ d.bit (pFault (chanPage a 0x21)) 5 = true ∧
      (∀ i < 8, d.reg (R.WR_DESC a i) = v.toList.getD i 0) ∧
      RegsOnly ([R.WR_PUSH a, pFault (chanPage a 0x21), pIntStatus (chanPage a 0x21)] ++
        (List.range 8).map (R.WR_DESC a)) c d)) ∧
    (r = 1 → Completes row s (fun d => ∃ e : Chip, d = (e.runChannel a).settle ∧
      (e.chan a) = { c.chan a with queue := (c.chan a).queue ++
        [{ words := v, write := true, by_ := .firmware, taken := c.nvq.staged }] } ∧
      e.fld (R.WR_PUSH a) 3 1 = 1 ∧ (∀ i < 8, e.reg (R.WR_DESC a i) = v.toList.getD i 0) ∧
      OnlyRegs (R.WR_PUSH a :: (List.range 8).map (R.WR_DESC a)) c e ∧ Keeps mediaParts c d))) ∧
  (∀ (c : Chip) (a : Act) (w : DescWords),
    let x := c.chan a
    let f := x.format w.head w.ann
    let n := w.count + 1
    let c2 := (x.waiting true).length < 16
    let c3 := w.head / 10 = a.toNat ∧ c.retired a = false ∧ fmtBitrate f ≠ 0 ∧
      (c.fld (R.AS_CFG a) 1 0 ≠ 0 → SMap.get (fun _ => 0) x.power (haKey w.head w.ann) ≠ 0)
    let c4 := w.sector < fmtSpt f ∧ w.sector + n ≤ fmtSpt f ∧ w.unit + w.count ≤ 65535
    let c5 := w.data % 4096 = 0 ∧ w.stat % 16 = 0 ∧ (w.op = 0 → c.stageable w.data (4096 * n) = true) ∧
      c.stageable w.stat w.statBytes = true
    let c6 := w.op ≤ 1 ∧ (w.op = 0 → w.typ ∈ [0, 1, 2, 5])
    (¬ c2 → c.wrCheck a w = 2) ∧ (c2 → ¬ c3 → c.wrCheck a w = 3) ∧ (c2 → c3 → ¬ c4 → c.wrCheck a w = 4) ∧
    (c2 → c3 → c4 → ¬ c5 → c.wrCheck a w = 5) ∧ (c2 → c3 → c4 → c5 → ¬ c6 → c.wrCheck a w = 6) ∧
    (c2 → c3 → c4 → c5 → c6 → c.inHoldup = true → c.wrCheck a w = 7) ∧
    (c2 → c3 → c4 → c5 → c6 → c.inHoldup = false → c.wrCheck a w = 1)) ∧
  (∀ (c : Chip) (a : Act) (v : Sample) (late : Bool), c.permission a v late = true →
    v.valid = true ∧ (c.chan a).onTrack = true ∧ late = false ∧ (c.cle a).state = .run ∧
    c.bit R.SNS_EVENT 0 = false ∧ c.bit R.SNS_EVENT 1 = false ∧ (c.chan a).fltLow = false ∧
    ((∀ r, (c.chan a).run ≠ some (.wr r)) → v.pes.natAbs * 100 < c.fld (R.WR_THRESH a) 7 0 * 4096) ∧
    (∀ r, (c.chan a).run = some (.wr r) → v.pes.natAbs * 100 < r.wrFault * 4096)) ∧
  (∀ (s : State) (a : Act) (monitored : Bool) (r : WrRun), s.chip.alive = true →
    (s.chip.chan a).run = some (.wr r) → r.monDue = false →
    r.inTry = true ∨ (s.chip.chan a).permit = true →
    let p := if r.inTry then (s.chip, r) else s.chip.beginTry a r
    let c := p.1
    let w := r.words
    let js := (List.range (w.count + 1)).drop (p.2.cur.getD p.2.next)
    let wrote (out : List Out) : Prop := ∃ recs : List Recorded, recs.length = js.length ∧
      out = c.out ++ (js.zip recs).map (fun q => Out.sector a w.head w.track (w.sector + q.1) q.2) ∧
      ∀ q ∈ js.zip recs,
        let z := c.seedOf w q.1
        q.2.assist = r.assist ∧ q.2.info = sectorInfo q.2.user (z.1 + z.2.1 * 2 ^ 19 + z.2.2 * 2 ^ 35) p.2.dtime
          c.jnl.pcc (if w.op = 1 then 4 else if c.dataPoisoned p.2 q.1 then 3 else w.typ) w.head
    (monitored = false ∨ r.assist.mode = 0 → CompletesThen (.writeDescDone a monitored) s (fun d =>
      ∃ (e : Chip) (q : WrRun), d = (e.endWrite a q 0).runChannel a ∧ wrote e.out ∧
        q.words = w ∧ q.tries = p.2.tries ∧ (js ≠ [] → q.next = w.count + 1) ∧
        Keeps [.out, .freeCtr] c e ∧ Keeps mediaParts s.chip d)) ∧
    (monitored = true → r.assist.mode ≠ 0 → CompletesThen (.writeDescDone a monitored) s (fun d =>
      wrote d.out ∧ (∃ q, (d.chan a).run = some (.wr q) ∧ q.monDue = true ∧ q.inTry = false) ∧
      Keeps [.out, .freeCtr, match a with | .A => .chanA | .B => .chanB] c d))) ∧
  (∀ (s : State) (a : Act) (monitored : Bool), s.chip.alive = true →
    ((∀ r, (s.chip.chan a).run ≠ some (.wr r)) ∨ (∃ r, (s.chip.chan a).run = some (.wr r) ∧
      (r.monDue = true ∨ (r.inTry = false ∧ (s.chip.chan a).permit = false))) →
      CompletesThen (.writeDescDone a monitored) s (fun d => d = s.chip)) ∧
    ((∀ r, (s.chip.chan a).run ≠ some (.wr r)) →
      CompletesThen (.writeNoPermission a) s (fun d => d = s.chip)) ∧
    (∀ r, (s.chip.chan a).run = some (.wr r) → (r.inTry = true ∨ r.monDue = true) →
      CompletesThen (.writeNoPermission a) s (fun d => d = s.chip)) ∧
    (∀ r, (s.chip.chan a).run = some (.wr r) → r.inTry = false → r.monDue = false →
      CompletesThen (.writeNoPermission a) s (fun d =>
        d = (s.chip.endWrite a r 3).runChannel a ∧ Keeps mediaParts s.chip d)) ∧
    CompletesThen (.wrAbort a) s (fun d => d = (s.chip.endWrites a).runChannel a ∧ Keeps mediaParts s.chip d)) ∧
  (∀ (c : Chip) (a : Act), let d := c.endWrites a
    ((d.chan a).waiting true = []) ∧ (∀ r, (d.chan a).run ≠ some (.wr r)) ∧
    ((d.chan a).waiting false = (c.chan a).waiting false)) ∧
  (∀ (c : Chip) (a : Act) (r : WrRun) (result : Nat), r.words.tag < 65536 →
    let d := c.wrRecord a r result
    d.fld (R.WR_DONE a) 15 0 = r.words.tag ∧ d.fld (R.WR_DONE a) 31 16 = (c.fld (R.WR_DONE a) 31 16 + 1) % 65536 ∧
    d.bit (pIntStatus (chanPage a 0x21)) 0 = true ∧ (result = 3 → d.bit (pIntStatus (chanPage a 0x21)) 4 = true) ∧
    (r.poisoned ≠ [] → d.bit (pIntStatus (chanPage a 0x21)) 3 = true) ∧ Keeps [.regs, .evr, .mem, .pwr] c d)

/-- A faulted try sets FAULT_TRY, counts in WR_CNT_FAULT, and in a band raises WFAULTS by one up to 3; in the
conventional region it counts nowhere else. Before the third it leaves the descriptor running at its first
sector not written, and only the third try, or WFAULTS at 3, ends it (R325, R326). A withdrawal by an overrun
costs no try (R325). The continuous envelope's limit, in a try with a MODE, makes LAST_FAULT 4 with ENV_LIMIT
and MON_FAULT and faults the try with MON; elsewhere it does nothing (R332, R340). AS_ONTIME_SET writes the
accumulator of the head in AS_SEL in MANUFACTURE and DIAGNOSTIC, and sets IGN_LCS elsewhere (R93, R338); the
on-time of every other head stays. -/
def Obligations.WriteFaultsUseTriesAndEnvelopesAreMetered : Prop :=
  (∀ (c : Chip) (a : Act) (r : WrRun) (cause i : Nat), r.tries < 3 →
    let d := c.faultTry a r cause i
    (∀ (k : Nat) (b : Band), c.bandWritten a r.words = some k → c.band k = some b → b.wfaults + 1 < 3 →
      d.band k = some { b with wfaults := b.wfaults + 1 } ∧ (∀ j, j ≠ k → d.band j = c.band j) ∧
      Keeps [.regs, .evr, .pwr, .loc, match a with | .A => .chanA | .B => .chanB] c d) ∧
    (c.bandWritten a r.words = none →
      Keeps [.regs, .evr, .pwr, match a with | .A => .chanA | .B => .chanB] c d) ∧
    (c.bandWritten a r.words = none ∨
        (∃ k b, c.bandWritten a r.words = some k ∧ c.band k = some b ∧ b.wfaults + 1 < 3) →
      d.reg (R.WR_CNT_FAULT a) = BitVec.ofNat 32 (min ((c.reg (R.WR_CNT_FAULT a)).toNat + 1) 0xFFFFFFFF) ∧
      d.bit (pIntStatus (chanPage a 0x21)) 1 = true ∧
      (∃ q, (d.chan a).run = some (.wr q) ∧ q.next = r.next ∧ q.tries = r.tries ∧ q.cause = cause ∧ q.inTry = false) ∧
      OnlyRegs ([R.WR_CNT_FAULT a, pIntStatus (chanPage a 0x21)] ++ dropRegs) c d)) ∧
  (∀ (c : Chip) (a : Act) (r : WrRun) (cause i : Nat), r.tries = 3 →
    let d := c.faultTry a r cause i
    (d.chan a).run = none ∧
    (c.bandWritten a r.words = none → (d.chan a).queue = (c.chan a).queue) ∧
    (∀ k, c.bandWritten a r.words = some k → ∀ x ∈ (d.chan a).queue,
      x.write = true → ¬ (x.words.zone = r.words.zone ∧ x.words.gen = r.words.gen))) ∧
  (∀ (c : Chip) (a : Act) (r : WrRun), (c.chan a).run = some (.wr r) → r.inTry = true →
    let d := c.sampleWrite a [] false true
    ∃ q, (d.chan a).run = some (.wr q) ∧ q.tries = r.tries ∧ q.next = r.next ∧ q.freePass = true ∧
      (d.chan a).permit = false) ∧
  (∀ (s : State) (a : Act), s.chip.alive = true →
    let c := s.chip
    (∀ r, (c.chan a).run = some (.wr r) → r.inTry = true → r.assist.mode ≠ 0 →
      CompletesThen (.envelopeLimit a) s (fun d => ∃ e : Chip, d = (e.dropGate a 4).runChannel a ∧
        e.fld (R.AS_STATUS a) 3 0 = 4 ∧ e.bit (pIntStatus (chanPage a 0x23)) 2 = true ∧
        e.bit (pIntStatus (chanPage a 0x23)) 0 = true ∧ (e.chan a).run = (c.chan a).run ∧
        OnlyRegs [R.AS_STATUS a, pIntStatus (chanPage a 0x23)] c e ∧ Keeps mediaParts c d)) ∧
    ((∀ r, (c.chan a).run ≠ some (.wr r)) ∨ (∃ r, (c.chan a).run = some (.wr r) ∧ (r.inTry = false ∨ r.assist.mode = 0)) →
      CompletesThen (.envelopeLimit a) s (fun d => d = c))) ∧
  (∀ (s : State) (a : Act) (v : Word), s.chip.alive = true →
    let c := s.chip
    let head := 10 * a.toNat + c.fld (R.AS_SEL a) 3 0
    (c.diagOpen = true → Completes (.asOntimeSet a v) s (fun d =>
      d.onTime head = v.toNat ∧ (∀ h, h ≠ head → d.onTime h = c.onTime h) ∧
      OnlyRegs [R.AS_ONTIME_SET a] c d ∧ Keeps [.regs, .assistCycles] c d)) ∧
    (c.diagOpen = false → Completes (.asOntimeSet a v) s (fun d =>
      d.bit (pFault (chanPage a 0x23)) 1 = true ∧ d.fld (pFault (chanPage a 0x23)) 31 20 = 0xF00 ∧
      RegsOnly [pFault (chanPage a 0x23), pIntStatus (chanPage a 0x23)] c d)))

/-- With both actuators in service, neither or both REQ bits give both SHARED, exactly one gives the requester
FULL and the other TRACK, with the limits of R380; with 2 x ITRK at most ISUM the two target limits never
exceed ISUM together (R381, R383). CHD_SEEK_REQ stores REQ and touches nothing beyond grants and limits. If it
changes a REQ bit with no change in progress, engines that send 0 take their new limits at once; if both
engines run and a limit differs, PENDING reads 1 and no limit moves before its boundary (R382, R384). At a
boundary a limit rises only where no fall of the change is left and 1.50 us have passed since the last (R382).
CHD_FF_ENABLE sets the two enables and zeroes the history of a path whose enable changes (R378, R379); X is 0
while the path is off or its source does not run or is retired (R378). -/
def Obligations.GrantsFollowTheRequestsAndFallBeforeTheyRise : Prop :=
  (∀ c : Chip,
    let ra := c.bit R.CHD_SEEK_A 0
    let rb := c.bit R.CHD_SEEK_B 0
    (c.retired .A = false → c.retired .B = false →
      (ra = rb → c.targetGrant .A = 0 ∧ c.targetGrant .B = 0) ∧
      (ra = true → rb = false → c.targetGrant .A = 2 ∧ c.targetGrant .B = 1) ∧
      (ra = false → rb = true → c.targetGrant .A = 1 ∧ c.targetGrant .B = 2)) ∧
    (c.retired .A = true → c.targetGrant .A = 3) ∧
    c.limitOf 0 = c.fld R.CHD_ISUM 17 0 / 2 ∧ c.limitOf 1 = c.fld R.CHD_ITRK 16 0 ∧
    (c.fld R.CHD_ISUM 17 0 - c.fld R.CHD_ITRK 16 0 ≤ 131071 →
      c.limitOf 2 = c.fld R.CHD_ISUM 17 0 - c.fld R.CHD_ITRK 16 0) ∧
    (2 * c.fld R.CHD_ITRK 16 0 ≤ c.fld R.CHD_ISUM 17 0 →
      c.limitOf (c.targetGrant .A) + c.limitOf (c.targetGrant .B) ≤ c.fld R.CHD_ISUM 17 0)) ∧
  (∀ (s : State) (ra rb : Option Bool), s.chip.alive = true →
    let c := s.chip
    Completes (.chdSeekReq ra rb) s (fun d =>
      let moved := d.bit R.CHD_SEEK_A 0 ≠ c.bit R.CHD_SEEK_A 0 ∨ d.bit R.CHD_SEEK_B 0 ≠ c.bit R.CHD_SEEK_B 0
      d.bit R.CHD_SEEK_A 0 = ra.getD (c.bit R.CHD_SEEK_A 0) ∧ d.bit R.CHD_SEEK_B 0 = rb.getD (c.bit R.CHD_SEEK_B 0) ∧
      (moved → c.chd.change = none → c.silent .A = true → c.silent .B = true →
        d.chd.change = none ∧
        ∀ a, d.limit a = d.limitOf (d.targetGrant a) ∧ d.chd.grant a = d.targetGrant a) ∧
      (moved → c.chd.change = none → c.silent .A = false → c.silent .B = false →
        (∃ a, d.limitOf (d.targetGrant a) ≠ c.limit a) →
        d.bit R.CHD_SEEK_A 8 = true ∧ d.bit R.CHD_SEEK_B 8 = true ∧ ∀ a, d.limit a = c.limit a) ∧
      (moved → c.chd.change ≠ none → c.silent .A = false → c.silent .B = false →
        ∀ a, d.limit a = c.limit a) ∧
      (¬ moved → OnlyRegs [] c d) ∧
      OnlyRegs [R.CHD_SEEK_A, R.CHD_SEEK_B, R.CHD_LIM_A, R.CHD_LIM_B, pIntStatus 0x30] c d ∧
      Keeps [.regs, .pwr, .chd] c d)) ∧
  (∀ (c : Chip) (a : Act), c.silent .A = false → c.silent .B = false →
    (∀ g, c.chd.change = some g → g.falls a = true → (g.to a).2 ≤ c.limit a) →
    let d := c.grantBoundary a
    d.limit a.other = c.limit a.other ∧
    (c.limit a < d.limit a → ∃ g, c.chd.change = some g ∧ g.fallA = false ∧ g.fallB = false ∧
      (g.last.toNat = 0 ∨ g.last.toNat + 600 ≤ c.dtm.dtime.toNat)) ∧
    OnlyRegs [R.CHD_SEEK_A, R.CHD_SEEK_B, R.CHD_LIM_A, R.CHD_LIM_B, pIntStatus 0x30] c d ∧
    Keeps [.regs, .pwr, .chd] c d) ∧
  (∀ (s : State) (ab ba : Bool), s.chip.alive = true → Completes (.chdFfEnable ab ba) s (fun d =>
    d.pathOn .A = ab ∧ d.pathOn .B = ba ∧
    (s.chip.pathOn .A ≠ ab → d.chd.pathAB = {}) ∧ (s.chip.pathOn .A = ab → d.chd.pathAB = s.chip.chd.pathAB) ∧
    (s.chip.pathOn .B ≠ ba → d.chd.pathBA = {}) ∧ (s.chip.pathOn .B = ba → d.chd.pathBA = s.chip.chd.pathBA) ∧
    OnlyRegs [R.CHD_FF_CTRL] s.chip d ∧ Keeps [.regs, .chd] s.chip d)) ∧
  (∀ (c : Chip) (a : Act),
    (c.pathOn a.other = false ∨ (c.cle a.other).running = false ∨ c.retired a.other = true → c.chordX a = 0) ∧
    (c.pathOn a.other = true → (c.cle a.other).running = true → c.retired a.other = false →
      c.chordX a = (c.chd.pathFrom a.other).y ∨ c.chordX a = (c.chd.pathFrom a.other).prev))

/-- While RESULT reads 6 a request changes nothing. Otherwise it is refused in order: 2 for KEY or ACT, 3 for
BOOT, REBUILD, HOLDUP or a transition, 4 for a retired actuator, 5 for BLANK or RETIRED; a refusal changes
CHD_RETIRE alone (R390). An accepted one shows 6 and its ACT, counts as retired from then on, disarms the
engine and parks it where it runs (R391, R392). RETIREMENT_COMMIT does nothing while the engine still moves or
nothing retires. Else it turns the engine OFF, discards the actuator's staged units and its queued cleaning
jobs, records the retirement and its history entry, shows RETIRED and RESULT 1 and raises RETIRED (R391).
CHD_UNRETIRE is taken in MANUFACTURE and DIAGNOSTIC only: for a retired actuator it sets UNRETIRE_PENDING, and
RETIRED stays (R393). -/
def Obligations.RetirementIsCheckedCommittedAndReversed : Prop :=
  (∀ (s : State) (v : Word), s.chip.alive = true →
    let c := s.chip
    let act := field v 1 0
    let a := actOf (act - 1)
    let result (n : Nat) : Prop := CompletesThen (.chdRetire v) s (fun d =>
      d.fld R.CHD_RETIRE 14 12 = n ∧ d.chd = c.chd ∧ RegsOnly [R.CHD_RETIRE, pFault 0x30, pIntStatus 0x30] c d)
    let c2 := field v 31 16 = 0x7E71 ∧ (act = 1 ∨ act = 2)
    let c3 := c.sys.mode ≠ .boot ∧ c.sys.mode ≠ .rebuild ∧ c.sys.mode ≠ .holdup ∧ c.sys.trans = none
    let c4 := c.retired a = false
    let c5 := c.effective ≠ 0 ∧ c.effective ≠ 4
    (c.fld R.CHD_RETIRE 14 12 = 6 → result 6) ∧
    (c.fld R.CHD_RETIRE 14 12 ≠ 6 →
      (¬ c2 → result 2) ∧ (c2 → ¬ c3 → result 3) ∧ (c2 → c3 → ¬ c4 → result 4) ∧
      (c2 → c3 → c4 → ¬ c5 → result 5) ∧
      (c2 → c3 → c4 → c5 → CompletesThen (.chdRetire v) s (fun d => ∃ e : Chip, d = e.beginRetire a ∧
        e.fld R.CHD_RETIRE 1 0 = act ∧ RegsOnly [R.CHD_RETIRE, pFault 0x30, pIntStatus 0x30] c e ∧
        Keeps sampleParts c d)))) ∧
  (∀ (c : Chip) (a : Act),
    let d := c.beginRetire a
    d.chd.retiring = some a ∧ d.retired a = true ∧ (d.cle a).armed = false ∧
    ((c.cle a).running = true → (d.cle a).park = true ∧ (d.cle a).state = (c.cle a).state) ∧
    ((c.cle a).running = false → (d.cle a).park = (c.cle a).park) ∧
    d.cle a.other = c.cle a.other ∧ d.chanA.ladders = (if a = .A then [] else c.chanA.ladders) ∧
    d.chanB.ladders = (if a = .B then [] else c.chanB.ladders)) ∧
  (∀ (s : State) (a : Act), s.chip.chd.retiring = some a →
    let c := s.chip
    let e := c.cle a
    (c.alive = false ∨ c.inHoldup = true ∨ c.jnl.failed = true ∨ c.jnl.closed = true ∨ e.running = true ∨
      e.state = .retract → CompletesThen .retirementCommit s (fun d => d = c)) ∧
    (c.alive = true → c.inHoldup = false → c.jnl.failed = false → c.jnl.closed = false → e.running = false →
      e.state ≠ .retract → CompletesThen .retirementCommit s (fun d =>
        d.chd.retiring = none ∧ d.retired a = true ∧ (a = .A → d.chd.retiredA = true) ∧ (a = .B → d.chd.retiredB = true) ∧
        d.chd.retiredA = (c.chd.retiredA || a == .A) ∧ d.chd.retiredB = (c.chd.retiredB || a == .B) ∧
        d.fld R.CHD_RETIRE 14 12 = 1 ∧ d.bit (pIntStatus 0x30) 1 = true ∧ (d.cle a).state = .off ∧
        d.cle a.other = c.cle a.other ∧ (∀ u ∈ d.nvq.staging, zoneAct u.zone ≠ a) ∧
        d.bcl.queue a = [] ∧
        (∃ e : Chip, e.chd = d.chd ∧ d.mram = (e.writeRetireRecord.history 4 a.toNat).mram) ∧
        Keeps (commitParts ++ [.chd, match a with | .A => .cleA | .B => .cleB]) c d))) ∧
  (∀ s : State, s.chip.chd.retiring = none → CompletesThen .retirementCommit s (fun d => d = s.chip)) ∧
  (∀ (s : State) (v : Word), s.chip.alive = true →
    let c := s.chip
    let ua := v.getLsbD 0 && c.chd.retiredA && !c.chd.unretA
    let ub := v.getLsbD 1 && c.chd.retiredB && !c.chd.unretB
    (c.diagOpen = false → Completes (.chdUnretire v) s (fun d =>
      d.bit (pFault 0x30) 1 = true ∧ d.chd = c.chd ∧ RegsOnly [pFault 0x30, pIntStatus 0x30] c d)) ∧
    (c.diagOpen = true → c.jnl.failed = false → c.jnl.closed = false → Completes (.chdUnretire v) s (fun d =>
      d.chd = { c.chd with unretA := c.chd.unretA || ua, unretB := c.chd.unretB || ub } ∧
      (ua = false → ub = false → d.mram = c.mram) ∧
      OnlyRegs [pFault 0x30, pIntStatus 0x30] c d ∧ Keeps [.regs, .mram, .jnl, .pwr, .chd] c d)))

/-- A firmware transaction of any command: no effect while one is in progress; RDREG and WRREG need EXPERT,
else RESULT 4; in HOLDUP RESULT 5; else it joins the queue, and goes out at once where the queue is empty
(R406, R407, R409, R410). Its 40 bits carry CMD, HEAD, REG, DATA and the CRC (R401). A channel's SELECT, AP or
AMON is asked for exactly when its descriptor needs it, once (R331, R406). TEMP polls both preamplifiers
unless TEMP_MS is 0. A failed response (CRC, bit 30, ERR 1 or 5) with repeats left resends the frame and
counts in OVL_CNT_RETRY; else the transaction ends, the next goes out, and a firmware one shows RESULT 1, 2 or
3 and TX_DONE, a failed one counting in OVL_CNT_GIVEUP with GIVEUP (R408). A fall of CHx_FLT_N sets FLT,
AS_STATUS 1 and asks for FCODE (R406). A synthesizer that locks shows the bit rate; one that does not raises
SYN_UNLOCK (R580). -/
def Obligations.OavinTransactionsRunInOrderRepeatAndEnd : Prop :=
  (∀ (s : State) (p : Act) (head reg data cmd : Nat) (row : Instr), s.chip.alive = true →
    (row = .ovlSelect (.firmware p head reg data) ∧ cmd = 0x01) ∨ (row = .ovlWcur p head reg data ∧ cmd = 0x02) ∨
    (row = .ovlHeat p head reg data ∧ cmd = 0x03) ∨ (row = .ovlAp (.firmware p head reg data) ∧ cmd = 0x04) ∨
    (row = .ovlAmon (.firmware p head reg data) ∧ cmd = 0x05) ∨ (row = .ovlTemp p head reg data ∧ cmd = 0x06) ∨
    (row = .ovlFcode p head reg data ∧ cmd = 0x07) ∨ (row = .ovlFclr p head reg data ∧ cmd = 0x08) ∨
    (row = .ovlRdreg p head reg data ∧ cmd = 0x09) ∨ (row = .ovlWrreg p head reg data ∧ cmd = 0x0A) ∨
    (row = .ovlPing p head reg data ∧ cmd = 0x0F) →
    let c := s.chip
    let t : OvlTx := { who := .firmware, preamp := p, cmd := cmd, head := head, reg := reg, data := data }
    let barred := (cmd = 0x09 ∨ cmd = 0x0A) ∧ c.bit (pCtrl 0x38) 31 = false
    Completes row s (fun d =>
      d.fld R.OVL_TX_CMD 7 0 = cmd ∧ d.fld R.OVL_TX_CMD 11 8 = reg % 16 ∧ d.fld R.OVL_TX_CMD 15 12 = head % 16 ∧
      d.fld R.OVL_TX_CMD 16 16 = p.toNat ∧ d.fld R.OVL_TX_DATA 15 0 = data % 65536 ∧
      OnlyRegs [R.OVL_TX_CMD, R.OVL_TX_DATA, R.OVL_TX_CTRL] c d ∧ Keeps [.regs, .links, .out] c d ∧
      (c.ovlBusy = true → d.reg R.OVL_TX_CTRL = c.reg R.OVL_TX_CTRL ∧ d.links = c.links ∧ d.out = c.out) ∧
      (c.ovlBusy = false → barred → d.fld R.OVL_TX_CTRL 6 4 = 4 ∧ d.links = c.links ∧ d.out = c.out) ∧
      (c.ovlBusy = false → ¬ barred → c.inHoldup = true →
        d.fld R.OVL_TX_CTRL 6 4 = 5 ∧ d.links = c.links ∧ d.out = c.out) ∧
      (c.ovlBusy = false → ¬ barred → c.inHoldup = false → c.links.ovlStop = false →
        d.links = { c.links with ovl := c.links.ovl ++ [t] } ∧ d.reg R.OVL_TX_CTRL = c.reg R.OVL_TX_CTRL ∧
        d.out = c.out ++ (if c.links.ovl = [] then [.ovlFrame p t.frame] else [])))) ∧
  (∀ t : OvlTx,
    let f := t.frame.toNat
    f / 2 ^ 32 = t.cmd % 256 ∧ f / 2 ^ 28 % 16 = t.head % 16 ∧ f / 2 ^ 24 % 16 = t.reg % 16 ∧
    f / 2 ^ 8 % 65536 = t.data % 65536 ∧ f % 256 = (crc8 32 (f / 256)).toNat) ∧
  (∀ (s : State) (a : Act), s.chip.alive = true →
    let c := s.chip
    let asks (row : Instr) (t : OvlTx) : Prop := Completes row s (fun d =>
      (d.chan a).asked = true ∧ d.links = { c.links with ovl := c.links.ovl ++ [t] } ∧
      d.out = c.out ++ (if c.links.ovl = [] then [.ovlFrame t.preamp t.frame] else []) ∧
      Keeps [.links, .out, match a with | .A => .chanA | .B => .chanB] c d)
    (∀ x, (c.chan a).front = some x → (c.chan a).asked = false → c.links.ovlStop = false →
      (c.need a x = some .select → asks (.ovlSelect (.channel a))
        ⟨.select a, a, 0x01, x.words.head % 10, 0, b2n x.write, 0⟩) ∧
      (c.need a x = some .power → asks (.ovlAp (.channel a))
        ⟨.ap a, a, 0x04, x.words.head % 10, 0, c.assistPower a x.words.head x.words.ann, 0⟩) ∧
      (c.need a x ≠ some .select → Completes (.ovlSelect (.channel a)) s (Still c)) ∧
      (c.need a x ≠ some .power → Completes (.ovlAp (.channel a)) s (Still c))) ∧
    (∀ r, (c.chan a).run = some (.wr r) → r.monDue = true → (c.chan a).asked = false → c.links.ovlStop = false →
      asks (.ovlAmon (.channel a)) ⟨.amon a, a, 0x05, r.words.head % 10, 0, 0, 0⟩) ∧
    ((∀ r, (c.chan a).run ≠ some (.wr r)) → Completes (.ovlAmon (.channel a)) s (Still c)) ∧
    ((c.chan a).front = none → Completes (.ovlSelect (.channel a)) s (Still c) ∧
      Completes (.ovlAp (.channel a)) s (Still c))) ∧
  (∀ s : State, s.chip.alive = true →
    let t (p : Act) : OvlTx := { who := .poll, preamp := p, cmd := 0x06, head := 0, reg := 0, data := 0 }
    (s.chip.fld R.OVL_CFG 15 8 = 0 → Completes .ovlTempPoll s (Still s.chip)) ∧
    (s.chip.fld R.OVL_CFG 15 8 ≠ 0 → s.chip.links.ovlStop = false → Completes .ovlTempPoll s (fun d =>
      d.links = { s.chip.links with ovl := s.chip.links.ovl ++ [t .A, t .B] } ∧
      d.out = s.chip.out ++ (if s.chip.links.ovl = [] then [.ovlFrame .A (t .A).frame] else []) ∧
      Keeps [.links, .out] s.chip d))) ∧
  (∀ (s : State) (w : BitVec 32), s.chip.alive = true → s.chip.links.ovl = [] →
    CompletesThen (.ovlResponse w) s (fun d => d = s.chip)) ∧
  (∀ (s : State) (w : BitVec 32) (t : OvlTx) (ts : List OvlTx), s.chip.alive = true →
    s.chip.links.ovl = t :: ts → s.chip.links.ovlStop = false →
    let c := s.chip
    let err := w.toNat / 2 ^ 25 % 8
    let fails := (crc8 24 (w.toNat / 256)).toNat ≠ w.toNat % 256 ∨ w.getLsbD 30 = true ∨ err = 1 ∨ err = 5
    let sent : List Out := match ts with | [] => [] | u :: _ => [.ovlFrame u.preamp u.frame]
    (fails → t.repeats < c.fld R.OVL_CFG 1 0 → CompletesThen (.ovlResponse w) s (fun d =>
      d.links = { c.links with ovl := { t with repeats := t.repeats + 1 } :: ts } ∧
      d.out = c.out ++ [.ovlFrame t.preamp t.frame] ∧
      d.reg R.OVL_CNT_RETRY = BitVec.ofNat 32 (min ((c.reg R.OVL_CNT_RETRY).toNat + 1) 0xFFFFFFFF) ∧
      OnlyRegs [R.OVL_CNT_RETRY] c d ∧ Keeps [.regs, .links, .out] c d)) ∧
    (t.who = .firmware → (¬ fails ∨ c.fld R.OVL_CFG 1 0 ≤ t.repeats) → CompletesThen (.ovlResponse w) s (fun d =>
      d.links = { c.links with ovl := ts } ∧ d.out = c.out ++ sent ∧ d.bit (pIntStatus 0x38) 0 = true ∧
      d.fld R.OVL_TX_CTRL 6 4 = (if fails then 3 else if err = 0 then 1 else 2) ∧
      (¬ fails → d.fld R.OVL_RX 23 0 = w.toNat / 256) ∧ (fails → d.reg R.OVL_RX = c.reg R.OVL_RX) ∧
      (fails ∨ err ≠ 0 → d.bit (pIntStatus 0x38) 1 = true ∧
        d.reg R.OVL_CNT_GIVEUP = BitVec.ofNat 32 (min ((c.reg R.OVL_CNT_GIVEUP).toNat + 1) 0xFFFFFFFF)) ∧
      Keeps [.regs, .links, .out, .evr, .pwr, .chanA, .chanB, .att] c d)) ∧
    (t.who = .firmware → ¬ fails → err = 0 → CompletesThen (.ovlResponse w) s (fun d =>
      let q := match t.preamp with | .A => d.att.preA | .B => d.att.preB
      let named (h : Nat) : Prop := (t.head ≠ 15 ∧ t.head = h) ∨ (t.head = 15 ∧ h < 10)
      (t.cmd = 0x01 → q.sel = some (t.head, t.data % 2 == 1)) ∧
      (∀ h, named h → t.cmd = 0x02 → SMap.get (fun _ => 0) q.wcur h = t.data % 32768) ∧
      (∀ h, named h → t.cmd = 0x03 → SMap.get (fun _ => 0) q.heat (h * 2 + t.reg % 2) = t.data % 1024) ∧
      (∀ h, named h → t.cmd = 0x04 → SMap.get (fun _ => 0) q.ap h = t.data % 256) ∧
      (t.cmd = 0x07 ∨ t.cmd = 0x08 → q.fault = some (w.toNat / 256 % 256)) ∧
      (∀ h, named h → t.cmd = 0x0A → SMap.get (fun _ => 0) q.regs (h * 16 + t.reg % 16) = t.data % 65536) ∧
      (t.cmd = 0x05 ∨ t.cmd = 0x06 ∨ t.cmd = 0x0F → d.att = c.att))) ∧
    ((¬ fails ∨ c.fld R.OVL_CFG 1 0 ≤ t.repeats) → CompletesThen (.ovlResponse w) s (fun d => ∃ e : Chip,
      e.links = { c.links with ovl := ts } ∧ e.out = c.out ++ sent ∧ Keeps [.links, .out] c e ∧
      d = (if fails then e.ovlFailed t err w false
        else if err = 0 then e.ovlAcked t w else e.ovlFailed t err w true) ∧
      (fails ∨ err ≠ 0 → d.att = c.att) ∧ Keeps (mediaParts ++ [.links, .att]) c d))) ∧
  (∀ (s : State) (a : Act), s.chip.alive = true →
    let c := s.chip
    ((c.chan a).fltLow = true → CompletesThen (.preampFault a) s (fun d => d = c)) ∧
    ((c.chan a).fltLow = false → CompletesThen (.preampFault a) s (fun d => ∃ e : Chip,
      d = (e.dropGate a 2).runChannel a ∧ (e.chan a).fltLow = true ∧ (e.chan a).permit = false ∧
      (e.chan a).run = (c.chan a).run ∧ e.fld (R.AS_STATUS a) 3 0 = 1 ∧
      e.bit (pIntStatus (chanPage a 0x23)) 1 = true ∧ e.bit (pIntStatus 0x38) (2 + a.toNat) = true ∧
      (c.links.ovlStop = false → e.links.ovl = c.links.ovl ++
        [{ who := .fault, preamp := a, cmd := 0x07, head := 0, reg := 0, data := 0 }]) ∧
      Keeps (mediaParts ++ [.links, .att]) c d))) ∧
  (∀ (s : State) (a : Act), s.chip.alive = true →
    let c := s.chip
    let k := match a with | .A => R.CLK_SYN_A | .B => R.CLK_SYN_B
    ((c.chan a).front = none → ∀ l, CompletesThen (.synthLock a l) s (fun d => d = c)) ∧
    (∀ x, (c.chan a).front = some x →
      let mhz := fmtBitrate ((c.chan a).format x.words.head x.words.ann)
      (mhz = 0 → ∀ l, CompletesThen (.synthLock a l) s (fun d => d = c)) ∧
      (mhz ≠ 0 → CompletesThen (.synthLock a true) s (fun d => ∃ e : Chip, d = e.runChannel a ∧
        e.bit k 31 = true ∧ e.fld k 12 0 = mhz ∧ OnlyRegs [k] c e ∧ Keeps [.regs] c e)) ∧
      (mhz ≠ 0 → CompletesThen (.synthLock a false) s (fun d => d.bit k 31 = false ∧ d.fld k 12 0 = mhz ∧
        d.bit (pIntStatus 0x01) 1 = true ∧ RegsOnly [k, pIntStatus 0x01] c d))))

/-- MLK_WRITE and MLK_READ show the request in MLK_TX; while one is in progress nothing more happens, in
HOLDUP RESULT reads 4, else the 32-bit frame with its TYPE, REG, DATA and CRC goes out (R417, R423, R424).
MLK_TX_DONE shows RESULT 1, 2 or 3, raises TX_DONE, and GIVEUP where it is not 1; a first good response ends
it at once (R423). A good write of SPIN_CTRL 1 at step 9 of BOOT completes step 10 (R46), and a good read of
STATUS shows the spin-up and the loads. A good read and write-back of IRQ show its value in MLK_IRQ_LAST, end
the retract of each actuator whose RTR_DONE is set and raise the causes; a failed one raises GIVEUP and waits
for its retry (R367, R422, R423). RETRACT follows the write, except a 0 in HOLDUP (R420). A conversion shows
the three corrected codes; a code or a run at its threshold begins an event once: count, cause, and both
channels lose write permission; the sample that begins none changes nothing else (R425, R426). -/
def Obligations.MotorLinkControlAndSensorEvents : Prop :=
  (∀ (s : State) (reg : Fin 32) (data : BitVec 16) (read : Bool), s.chip.alive = true →
    let c := s.chip
    let row : Instr := if read then .mlkRead reg else .mlkWrite reg data
    let v := if read then 0 else data.toNat
    let q := mlkRequest read reg.val v
    Completes row s (fun d =>
      d.fld R.MLK_TX 15 0 = v ∧ d.fld R.MLK_TX 20 16 = reg.val ∧ d.bit R.MLK_TX 31 = read ∧
      OnlyRegs [R.MLK_TX, R.MLK_TX_CTRL] c d ∧ Keeps [.regs, .links, .out] c d ∧
      (c.links.mlk ≠ none → d.links = c.links ∧ d.out = c.out ∧ d.reg R.MLK_TX_CTRL = c.reg R.MLK_TX_CTRL) ∧
      (c.links.mlk = none → c.inHoldup = true → d.links = c.links ∧ d.out = c.out ∧ d.fld R.MLK_TX_CTRL 6 4 = 4) ∧
      (c.links.mlk = none → c.inHoldup = false → d.links = { c.links with mlk := some q } ∧
        d.out = c.out ++ [.mlkFrame q] ∧ d.reg R.MLK_TX_CTRL = c.reg R.MLK_TX_CTRL))) ∧
  (∀ (read : Bool) (reg data : Nat),
    let f := (mlkRequest read reg data).toNat
    f / 2 ^ 30 = (if read then 3 else 2) ∧ f / 2 ^ 24 % 64 = reg % 32 ∧
    f / 2 ^ 8 % 65536 = (if read then 0 else data % 65536) ∧ f % 256 = (crc8 24 (f / 256)).toNat) ∧
  (∀ (q r : BitVec 32) (rs : List (BitVec 32)) (n : Nat),
    let good := (crc8 24 (r.toNat / 256)).toNat = r.toNat % 256
    (mlkVerdict q r = 3 ↔ ¬ good ∨ (r.getLsbD 29 = false ∧
      (r.toNat / 2 ^ 30 ≠ q.toNat / 2 ^ 30 ∨ r.toNat / 2 ^ 24 % 32 ≠ q.toNat / 2 ^ 24 % 32))) ∧
    (mlkVerdict q r = 2 ↔ good ∧ r.getLsbD 29 = true) ∧
    (mlkVerdict q r = 1 → mlkTries q (r :: rs) (n + 1) = (1, r)) ∧
    (mlkVerdict q r ≠ 1 → rs ≠ [] → mlkTries q (r :: rs) (n + 2) = mlkTries q rs (n + 1)) ∧
    mlkTries q [] n = (3, 0)) ∧
  (∀ (s : State) (replies : List (BitVec 32)), s.chip.alive = true →
    let c := s.chip
    (c.links.mlk = none → CompletesThen (.mlkTxDone replies) s (fun d => d = c)) ∧
    (∀ q, c.links.mlk = some q → CompletesThen (.mlkTxDone replies) s (fun d =>
      let p := mlkTries q replies (c.fld R.MLK_CFG 1 0 + 1)
      d.fld R.MLK_TX_CTRL 6 4 = p.1 ∧ d.links = { c.links with mlk := none } ∧
      d.bit (pIntStatus 0x39) 0 = true ∧
      (p.1 ≠ 3 → d.fld R.MLK_RX 15 0 = p.2.toNat / 256 % 65536 ∧ d.bit R.MLK_RX 16 = p.2.getLsbD 29) ∧
      (p.1 = 3 → d.reg R.MLK_RX = c.reg R.MLK_RX) ∧ (p.1 ≠ 1 → d.bit (pIntStatus 0x39) 2 = true) ∧
      (p.1 = 1 → q.toNat / 2 ^ 30 = 2 → q.toNat / 2 ^ 24 % 32 ∈ [3, 4, 5, 8] →
        SMap.get motorReset d.att.motor (q.toNat / 2 ^ 24 % 32) = q.toNat / 256 % 65536) ∧
      (p.1 = 1 → q.toNat / 2 ^ 24 = 0xC1 → d.att = c.att.status (p.2.toNat / 256)) ∧
      (p.1 ≠ 1 → d.att = c.att) ∧
      (p.1 = 1 → q.toNat / 2 ^ 24 = 0x84 → q.toNat / 2 ^ 8 % 65536 = 1 → c.atStep 9 = true →
        c.sys.blankBoot = false → d.reg R.SYS_BOOT_STEP = 10#32) ∧
      (p.1 ≠ 1 ∨ c.atStep 9 = false → d.reg R.SYS_BOOT_STEP = c.reg R.SYS_BOOT_STEP) ∧
      OnlyRegs ([R.MLK_TX_CTRL, R.MLK_RX, pIntStatus 0x39, R.SYS_BOOT_STEP] ++ dropRegs) c d ∧
      Keeps [.regs, .links, .att, .evr, .pwr] c d))) ∧
  (∀ (s : State) (reads writes : List (BitVec 32)) (again : Bool), s.chip.alive = true →
    let c := s.chip
    let row : Instr := if again then .mlkIrqRetry reads writes else .mlkIrq reads writes
    let n := c.fld R.MLK_CFG 1 0 + 1
    let rq := mlkRequest true 2 0
    let p := mlkTries rq reads n
    let v := p.2.toNat / 256 % 65536
    let q := mlkTries (mlkRequest false 2 v) writes n
    let gaveUp (d : Chip) : Prop := d.links = { c.links with irqWait := true, irqLow := true } ∧
      d.bit (pIntStatus 0x39) 2 = true ∧ d.reg R.MLK_IRQ_LAST = c.reg R.MLK_IRQ_LAST ∧
      OnlyRegs (pIntStatus 0x39 :: dropRegs) c d ∧ Keeps [.regs, .links, .evr, .pwr, .out] c d
    (c.links.irqWait ≠ again → CompletesThen row s (fun d => d = c)) ∧
    (c.links.irqWait = again → p.1 ≠ 1 → CompletesThen row s (fun d =>
      gaveUp d ∧ d.out = c.out ++ [.mlkFrame rq])) ∧
    (c.links.irqWait = again → p.1 = 1 → q.1 ≠ 1 → CompletesThen row s (fun d =>
      gaveUp d ∧ d.out = c.out ++ [.mlkFrame rq, .mlkFrame (mlkRequest false 2 v)])) ∧
    (c.links.irqWait = again → p.1 = 1 → q.1 = 1 → c.cleA.pend = [] → c.cleB.pend = [] →
      CompletesThen row s (fun d =>
        let causes := [pIntStatus 0x39, R.MLK_IRQ_LAST, pIntStatus 0x24, pIntStatus 0x2C]
        d.reg R.MLK_IRQ_LAST = BitVec.ofNat 32 (v % 2048) ∧
        d.links = { c.links with irqWait := false, irqLow := false } ∧
        d.out = c.out ++ [.mlkFrame rq, .mlkFrame (mlkRequest false 2 v)] ∧ d.att = c.att.events v ∧
        (v.testBit 0 = true → d.bit (pIntStatus 0x39) 4 = true) ∧ (v.testBit 1 = true → d.bit (pIntStatus 0x39) 5 = true) ∧
        (v % 2048 / 4 ≠ 0 → d.bit (pIntStatus 0x39) 1 = true) ∧
        (c.cleA.state = .retract → v.testBit 0 = true → d.bit (pIntStatus 0x24) 3 = true ∧
          d.cleA = { c.cleA with state := if c.cleA.loss then .lost else .off }) ∧
        (c.cleA.state ≠ .retract ∨ v.testBit 0 = false → d.cleA = c.cleA) ∧
        (c.cleB.state = .retract → v.testBit 1 = true → d.bit (pIntStatus 0x2C) 3 = true ∧
          d.cleB = { c.cleB with state := if c.cleB.loss then .lost else .off }) ∧
        (c.cleB.state ≠ .retract ∨ v.testBit 1 = false → d.cleB = c.cleB) ∧
        OnlyRegs causes c d ∧ Keeps [.regs, .pwr, .links, .att, .out, .cleA, .cleB] c d))) ∧
  (∀ (s : State) (retract : Bool), s.chip.alive = true →
    (s.chip.inHoldup = false ∨ retract = true → Completes (.mlkRetractCtrl retract) s (fun d =>
      d.bit R.MLK_CTRL 0 = retract ∧ (retract = true → d.pins.retractN = false) ∧
      OnlyRegs [R.MLK_CTRL] s.chip d ∧ Keeps [.regs] s.chip d)) ∧
    (s.chip.inHoldup = true → retract = false → Completes (.mlkRetractCtrl retract) s (Still s.chip))) ∧
  (∀ (s : State) (s0 s1 s2 : BitVec 12), s.chip.alive = true →
    let c := s.chip
    let v (n : Nat) (x : BitVec 12) : Int := c.sensorCode n x.toInt
    let diff := (v 0 s0 - v 1 s1).natAbs
    let run := if c.fld R.SNS_RV 10 0 ≤ diff then min (c.links.rvRun + 1) 15 else 0
    let shock := c.fld R.SNS_SHOCK 10 0 ≤ (v 2 s2).natAbs
    let rv := c.fld R.SNS_RV 19 16 ≤ run
    let shown (d : Chip) : Prop := d.reg R.SNS_S0 = BitVec.ofInt 32 (v 0 s0) ∧
      d.reg R.SNS_S1 = BitVec.ofInt 32 (v 1 s1) ∧ d.reg R.SNS_S2 = BitVec.ofInt 32 (v 2 s2) ∧
      d.links = { c.links with rvRun := run }
    (c.sensorsInTest = true → CompletesThen (.snsSample s0 s1 s2) s (fun d => d = c)) ∧
    (c.sensorsInTest = false → (¬ shock ∨ c.bit R.SNS_EVENT 0 = true) → (¬ rv ∨ c.bit R.SNS_EVENT 1 = true) →
      CompletesThen (.snsSample s0 s1 s2) s (fun d => shown d ∧
        OnlyRegs [R.SNS_S0, R.SNS_S1, R.SNS_S2] c d ∧ Keeps [.regs, .links] c d)) ∧
    (c.sensorsInTest = false → c.bit R.SNS_EVENT 0 = false → c.bit R.SNS_EVENT 1 = false → shock ∨ rv →
      CompletesThen (.snsSample s0 s1 s2) s (fun d => ∃ e : Chip, d = e.withdraw ∧ shown e ∧
        (shock → e.bit R.SNS_EVENT 0 = true ∧ e.bit (pIntStatus 0x3A) 0 = true ∧
          e.reg R.SNS_CNT_SHOCK = BitVec.ofNat 32 (min ((c.reg R.SNS_CNT_SHOCK).toNat + 1) 0xFFFFFFFF)) ∧
        (rv → e.bit R.SNS_EVENT 1 = true ∧ e.bit (pIntStatus 0x3A) 1 = true ∧
          e.reg R.SNS_CNT_RV = BitVec.ofNat 32 (min ((c.reg R.SNS_CNT_RV).toNat + 1) 0xFFFFFFFF)) ∧
        d.chanA.permit = false ∧ d.chanB.permit = false ∧ Keeps (mediaParts ++ [.links]) c d))) ∧
  (∀ (s : State) (shock : Bool), s.chip.alive = true → Completes (.snsEventEnd shock) s (fun d =>
    d.bit R.SNS_EVENT (if shock then 0 else 1) = false ∧
    d.bit R.SNS_EVENT (if shock then 1 else 0) = s.chip.bit R.SNS_EVENT (if shock then 1 else 0) ∧
    OnlyRegs [R.SNS_EVENT] s.chip d ∧ Keeps [.regs] s.chip d))

/-- For MEC and SEE alike, in MANUFACTURE and DIAGNOSTIC: WRITE_RAW leaves the addressed word with TEST_DATA
as its data and TEST_CHECK as its check bits, past the encoder, and changes no other byte and no other word's
check bits; READ_RAW puts the word and its check bits as they are stored into TEST_DATA and TEST_CHECK,
reports in TEST_SYND the syndrome they give, and changes no memory. A TEST_ADDR that is not 8-byte aligned, or
that lies outside the page's memory (usable DRAM for MEC; the SRAM regions and the TCMs for SEE), ends the
command with ERROR and no access. Nothing else changes. Elsewhere the write is ignored as that of any RWD
register (R93). -/
def Obligations.RawAccessStoresAndLoadsExactly : Prop :=
  (∀ (s : State) (e : Ecc) (write : Bool), s.chip.alive = true →
    let c := s.chip
    let rowW : Instr := match e with | .mec => .mecWriteRaw | .see => .seeWriteRaw
    let rowR : Instr := match e with | .mec => .mecReadRaw | .see => .seeReadRaw
    let a := e.testAddr c
    let usable := match e with
      | .mec => 0x100000000 ≤ a ∧ a + 8 ≤ 0x100000000 + c.mem.dramBytes
      | .see => (0x10000000 ≤ a ∧ a + 8 ≤ 0x10E00000) ∨ (0x28000000 ≤ a ∧ a + 8 ≤ 0x28040000) ∨
          (0x28100000 ≤ a ∧ a + 8 ≤ 0x28140000)
    let ok := a % 8 = 0 ∧ usable
    (c.diagOpen = true → ok → Completes rowW s (fun d =>
      d.mem.wordAt a = BitVec.ofNat 64 ((c.reg e.rLo).toNat + (c.reg e.rHi).toNat * 2 ^ 32) ∧
      (d.mem.syndAt a ^^^ checkBits (d.mem.wordAt a)).toNat = c.fld e.rCheck 7 0 ∧
      (∀ b, b / 8 ≠ a / 8 → d.mem.byte b = c.mem.byte b ∧ d.mem.syndAt b = c.mem.syndAt b) ∧
      d.bit e.rCmd 4 = false ∧ OnlyRegs [e.rCmd] c d ∧ Keeps [.regs, .mem] c d)) ∧
    (c.diagOpen = true → ok → Completes rowR s (fun d =>
      (d.reg e.rLo).toNat + (d.reg e.rHi).toNat * 2 ^ 32 = (c.mem.wordAt a).toNat ∧
      d.fld e.rCheck 7 0 = (c.mem.syndAt a ^^^ checkBits (c.mem.wordAt a)).toNat ∧
      d.fld e.rCheck 15 8 = (c.mem.syndAt a).toNat ∧
      d.bit e.rCmd 4 = false ∧ OnlyRegs [e.rCmd, e.rLo, e.rHi, e.rCheck] c d ∧ Keeps [.regs] c d)) ∧
    (c.diagOpen = true → ¬ ok → Completes (if write then rowW else rowR) s (fun d =>
      d.bit e.rCmd 4 = true ∧ OnlyRegs [e.rCmd] c d ∧ Keeps [.regs] c d)) ∧
    (c.diagOpen = false → Completes (if write then rowW else rowR) s (fun d =>
      d.bit (pFault e.page) 1 = true ∧ d.fld (pFault e.page) 31 20 = 0xF18 ∧
      RegsOnly [pFault e.page, pIntStatus e.page] c d)))

/-- Any one cell error of an unmarked word reads as the data and is written back corrected, counting in
CORR_CNT; any two read as uncorrectable, with the mark, which is written back and counts in UNCORR_CNT with
UNCORR; a stored mark reads as poison, and with one more error as uncorrectable, still marked (R432, R433,
R437, R439). A write of the whole word clears the mark, of a part keeps it (R435). The DRAM scrubber reads its
burst, unless its page is excluded, and moves to the next, or wraps with the lap's duration and LAP_LATE; the
SRAM scrubber reads one word; both pause in HOLDUP, and MEC in self-refresh (R442, R443, R445). A retraining
is counted and MR4 shown; RETRAIN and HOT rise as they apply (R431, R449). XIN_LOST is set and cleared (R582);
a block is gated only with CG, without FORCE_ON and while idle, and wakes (R585); CLK_FORCE_ON is taken in
MANUFACTURE and DIAGNOSTIC only and ungates every block (R93, R595). -/
def Obligations.MemoryCorrectsSingleErrorsAndKeepsPoison : Prop :=
  (∀ (c : Chip) (a i j : Nat), i < 72 → j < 72 → c.underTest a = false →
    let e := eccOf a
    let one : Chip := { c with mem := c.mem.flip a i }
    let two : Chip := { c with mem := (c.mem.flip a i).flip a j }
    let counts (k : Nat) (d : Chip) : Prop :=
      d.reg k = BitVec.ofNat 32 (min ((c.reg k).toNat + 1) 0xFFFFFFFF)
    let corrected (r : DWord × Bool × Chip) : Prop :=
      r.1 = c.mem.wordAt a ∧ r.2.1 = false ∧ r.2.2.mem.wordAt a = c.mem.wordAt a ∧ r.2.2.mem.syndAt a = 0 ∧
      counts e.corr r.2.2 ∧ r.2.2.reg e.uncorr = c.reg e.uncorr
    let lost (r : DWord × Bool × Chip) : Prop :=
      r.2.1 = true ∧ r.2.2.mem.syndAt a = poisonSynd ∧ counts e.uncorr r.2.2 ∧
      r.2.2.bit (pIntStatus e.page) 0 = true ∧ r.2.2.reg e.corr = c.reg e.corr
    let marked (r : DWord × Bool × Chip) : Prop :=
      r.1 = c.mem.wordAt a ∧ r.2.1 = true ∧ counts e.seen r.2.2 ∧ OnlyRegs [e.seen] c r.2.2 ∧ Keeps [.regs] c r.2.2
    (c.mem.syndAt a = 0 → c.readWord a = (c.mem.wordAt a, false, c) ∧ corrected (one.readWord a) ∧
      (i ≠ j → lost (two.readWord a))) ∧
    (c.mem.syndAt a = poisonSynd → marked (c.readWord a) ∧ lost (one.readWord a))) ∧
  (∀ (c : Chip) (a : Nat) (bs : List Byte), a % 8 + bs.length ≤ 8 →
    let d := c.writeInWord a bs
    (bs.length = 8 → d.mem.syndAt a = 0 ∧ d.mem.wordAt a = BitVec.ofNat 64 (leNat bs) ∧ Keeps [.mem] c d) ∧
    (bs.length < 8 → c.mem.syndAt a = 0 → d.mem.syndAt a = 0) ∧
    (bs.length < 8 → c.mem.syndAt a = poisonSynd → d.mem.syndAt a = poisonSynd) ∧
    (∀ k, k < bs.length → d.mem.byte (a + k) = bs.getD k 0) ∧
    (∀ b, b / 8 ≠ a / 8 → d.mem.byte b = c.mem.byte b ∧ d.mem.syndAt b = c.mem.syndAt b)) ∧
  (∀ (s : State) (flips : List (Nat × Nat)) (lap : Nat),
    let c := s.chip
    let a := max (c.fld R.MEC_SCRUB_POS 29 0 * 64) 0x100000000
    let top := 0x100000000 + c.mem.dramBytes
    let runs := c.alive = true ∧ c.mem.filledDram = true ∧ c.inHoldup = false ∧ c.bit R.DDR_STATUS 1 = false ∧
      c.bit R.MEC_SCRUB_CTRL 0 = true ∧ c.mem.dramBytes ≠ 0
    (¬ runs → Completes (.mecScrubBurst flips lap) s (Still c)) ∧
    (runs → Completes (.mecScrubBurst flips lap) s (fun d =>
      (a + 64 < top → d.reg R.MEC_SCRUB_POS = BitVec.ofNat 32 (a / 64 + 1) ∧ d.reg R.SCRUB_LAP = c.reg R.SCRUB_LAP) ∧
      (top ≤ a + 64 → d.reg R.MEC_SCRUB_POS = BitVec.ofNat 32 0x4000000 ∧ d.reg R.SCRUB_LAP = BitVec.ofNat 32 lap ∧
        (c.fld R.MEC_SCRUB_CFG 31 16 < lap → d.bit (pIntStatus 0x41) 2 = true)) ∧
      (flips = [] → (∀ i < 8, c.mem.syndAt (a + 8 * i) = 0) ∨ c.excluded a = true → SameMem c d ∧
        OnlyRegs [R.MEC_SCRUB_POS, R.SCRUB_LAP, pIntStatus 0x41] c d) ∧
      Keeps [.regs, .evr, .mem, .pwr] c d))) ∧
  (∀ (s : State) (a : Nat) (flips : List Nat) (lap : Option Nat),
    let c := s.chip
    let runs := c.alive = true ∧ c.mem.filledSram = true ∧ c.inHoldup = false ∧ c.bit R.SEE_SCRUB_CTRL 0 = true ∧
      c.inPage .see (a / 8 * 8) = true
    (¬ runs → Completes (.seeScrubWord a flips lap) s (Still c)) ∧
    (runs → Completes (.seeScrubWord a flips lap) s (fun d =>
      (∀ t, lap = some t → d.reg R.SEE_LAP = BitVec.ofNat 32 t) ∧ (lap = none → d.reg R.SEE_LAP = c.reg R.SEE_LAP) ∧
      (∀ b, b / 8 ≠ a / 8 → d.mem.byte b = c.mem.byte b ∧ d.mem.syndAt b = c.mem.syndAt b) ∧
      (flips = [] → c.mem.syndAt a = 0 → SameMem c d ∧ OnlyRegs [R.SEE_LAP] c d) ∧
      Keeps [.regs, .evr, .mem, .pwr] c d))) ∧
  (∀ (s : State) (x y : Fin 8) (moved : Bool),
    let c := s.chip
    (c.alive = false ∨ c.bit R.DDR_STATUS 0 = false → Completes (.ddrRetrain x y moved) s (Still c)) ∧
    (c.alive = true → c.bit R.DDR_STATUS 0 = true → Completes (.ddrRetrain x y moved) s (fun d =>
      d.reg R.DDR_RETRAIN_CNT = BitVec.ofNat 32 (min ((c.reg R.DDR_RETRAIN_CNT).toNat + 1) 0xFFFFFFFF) ∧
      d.fld R.DDR_STATUS 6 4 = x.val ∧ d.fld R.DDR_STATUS 10 8 = y.val ∧ d.fld R.DDR_STATUS 2 0 = c.fld R.DDR_STATUS 2 0 ∧
      d.bit (pIntStatus 0x40) 1 = (c.bit (pIntStatus 0x40) 1 || moved) ∧
      d.bit (pIntStatus 0x40) 0 = (c.bit (pIntStatus 0x40) 0 || x == 7 || y == 7) ∧
      OnlyRegs ([R.DDR_RETRAIN_CNT, R.DDR_STATUS, pIntStatus 0x40] ++ dropRegs) c d ∧ Keeps [.regs, .evr, .pwr] c d))) ∧
  (∀ s : State, s.chip.dtm.running = true →
    Completes .xinLost s (fun d => d.bit R.CLK_STATUS 1 = true ∧ d.bit (pIntStatus 0x01) 0 = true ∧
      (∀ n, n ≠ 1 → d.bit R.CLK_STATUS n = s.chip.bit R.CLK_STATUS n) ∧
      RegsOnly [R.CLK_STATUS, pIntStatus 0x01] s.chip d) ∧
    Completes .xinReturn s (fun d => d.bit R.CLK_STATUS 1 = false ∧
      (∀ n, n ≠ 1 → d.bit R.CLK_STATUS n = s.chip.bit R.CLK_STATUS n) ∧
      OnlyRegs [R.CLK_STATUS] s.chip d ∧ Keeps [.regs] s.chip d)) ∧
  (∀ (s : State) (page : Nat), s.chip.alive = true → populated page = true →
    let c := s.chip
    let may := c.bit (pPower page) 0 = true ∧ c.bit R.CLK_FORCE_ON 0 = false ∧ c.blockBusy page = false
    Completes (.blockIdleGate page true) s (fun d => page ∉ d.pwr.gated ∧
      (∀ p, p ≠ page → (p ∈ d.pwr.gated ↔ p ∈ c.pwr.gated)) ∧ Keeps [.pwr] c d) ∧
    (may → Completes (.blockIdleGate page false) s (fun d => page ∈ d.pwr.gated ∧
      (∀ p, p ≠ page → (p ∈ d.pwr.gated ↔ p ∈ c.pwr.gated)) ∧ Keeps [.pwr] c d)) ∧
    (¬ may → Completes (.blockIdleGate page false) s (Still c))) ∧
  (∀ (s : State) (v : Word), s.chip.alive = true →
    let c := s.chip
    (c.diagOpen = true → Completes (.clkForceOn v) s (fun d => d.bit R.CLK_FORCE_ON 0 = v.getLsbD 0 ∧
      (v.getLsbD 0 = true → d.pwr.gated = []) ∧
      OnlyRegs [R.CLK_FORCE_ON, pFault 0x01, pIntStatus 0x01] c d ∧ Keeps [.regs, .pwr] c d)) ∧
    (c.diagOpen = false → Completes (.clkForceOn v) s (fun d => d.bit (pFault 0x01) 1 = true ∧
      RegsOnly [pFault 0x01, pIntStatus 0x01] c d)))

/-- The records of an operation go to consecutive slots, each with its PART, PARTS, SEQ and CRC; HWM rises at
the mark; no other slot changes (R456, R458, R461, R487). After a failure, inside the firmware port's open
operation and, for all but the exempt sources, at the high-water mark, an operation waits with no other effect
(R19, R456, R473). A firmware-port record: nothing while one waits; refused with RESULT 5, 2, 4, 3 or 4 (R459,
R460), waiting, RESULT 6 with the log memory's failure (R456, R532), or written, in a group as its newest
record (R465). A checkpoint writes a new key and CKPT_START, its end CKPT_DONE, the root, a blanked old key
and the new tail; a failed one restarts, at most three starts (R471 to R473). JNL_INIT blanks every slot
(R457). Operating time, erase-ahead, bad blocks and firmware page reads (R465, R475, R479, R481, R488, R489).
-/
def Obligations.JournalWritesInOrderWaitsAndTruncates : Prop :=
  (∀ (typ part parts seq : Nat) (fs : List (Nat × Nat × Nat)),
    (layRecord typ part parts seq fs).length = 64 ∧ slotGood (layRecord typ part parts seq fs) = true) ∧
  (∀ (c : Chip) (rs : List Rec), c.jnl.head < ringSlots → rs.length ≤ 16 → (∀ t o p, Rec.firmware t o p ∉ rs) →
    let d := c.appendRecs rs
    d.jnl.head = (c.jnl.head + rs.length) % ringSlots ∧ d.jnl.used = c.jnl.used + rs.length ∧
    (∀ i r, rs[i]? = some r →
      let l := layRec (c.epochKey c.jnl.writeEpoch) r
      d.slotBytes ((c.jnl.head + i) % ringSlots) =
        layRecord l.1 i (rs.length - 1) ((c.jnl.headSeq + i) % 65536) l.2) ∧
    (∀ k, (∀ i < rs.length, k ≠ (c.jnl.head + i) % ringSlots) → d.slotBytes k = c.slotBytes k) ∧
    (c.jnl.used < c.hwmSlots → c.hwmSlots ≤ c.jnl.used + rs.length → d.bit (pIntStatus 0x05) 1 = true) ∧
    OnlyRegs [pIntStatus 0x05] c d ∧ Keeps [.regs, .mram, .jnl, .pwr] c d) ∧
  (∀ (c : Chip) (src : JnlSource) (rs : List Rec) (posts : List Completion),
    let waits := c.jnl.failed = true ∨ (src = .firmware ∧ c.jnl.openOp = none ∧ c.hwmSlots ≤ c.jnl.used) ∨
      (src ≠ .firmware ∧ (c.jnl.openOp ≠ none ∨ (src ≠ .checkpoint ∧ src ≠ .nfc ∧ c.hwmSlots ≤ c.jnl.used)))
    let d := c.commit src rs posts
    (c.mustWait src = true ↔ waits) ∧ (c.jnl.closed = true → src ≠ .nfc → d = c) ∧
    (c.jnl.closed = false → waits → d.jnl = { c.jnl with waiting := c.jnl.waiting ++ [⟨src, rs, posts⟩] } ∧
      d.reg R.JNL_WAIT_CNT = (if c.hwmSlots ≤ c.jnl.used then
        BitVec.ofNat 32 (min ((c.reg R.JNL_WAIT_CNT).toNat + 1) 0xFFFFFFFF) else c.reg R.JNL_WAIT_CNT) ∧
      OnlyRegs [R.JNL_WAIT_CNT] c d ∧ Keeps [.regs, .jnl] c d)) ∧
  (∀ (s : State) (poisoned : Bool) (failed : Fin 4),
    let c := s.chip
    let bs := c.portBytes
    let t := slotType bs
    let part := leAt bs 1 1
    let op : JnlOp := ⟨.firmware, [.firmware t part (bs.drop 8)], []⟩
    let region := c.fld R.JNL_PORT_CTRL 2 1
    let group := c.fld R.JNL_PORT_GROUP 6 0
    let first := if region = 2 then ctrGroup group else bootGroup group
    let idle := c.alive = true ∧ (∀ o ∈ c.jnl.waiting, o.src ≠ .firmware)
    let owned := region = 0 ∨ (region = 2 ∧ 8 ≤ group) ∨ (region = 3 ∧ group = 0)
    let follows := part % 16 ≤ part / 16 ∧
      ((c.jnl.openOp = none ∧ part % 16 = 0) ∨ c.jnl.openOp = some (part / 16, part % 16))
    let listed := (region = 0 ∧ t ∈ [0x01, 0x02, 0x10, 0x11, 0x12, 0x13, 0x14, 0x15, 0x20, 0x21, 0x22, 0x23, 0x30,
        0x31, 0x32, 0x33, 0x34, 0x35, 0x36, 0x40, 0x50, 0x51]) ∨
      ((region = 0 ∨ region = 2) ∧ 0x80 ≤ t ∧ t ≤ 0xBF) ∨ (region = 2 ∧ t = 0x60) ∨
      (region = 3 ∧ 0x70 ≤ t ∧ t ≤ 0x75)
    let taken := idle ∧ c.inHoldup = false ∧ poisoned = false ∧ owned ∧ follows ∧ listed
    let held := c.jnl.failed = true ∨ (region = 0 ∧ c.mustWait .firmware = true)
    let row : Instr := .jnlPortWrite poisoned failed
    let shows (n : Nat) (d : Chip) : Prop := d.fld R.JNL_PORT_CTRL 7 4 = n ∧ d.bit R.JNL_PORT_CTRL 0 = false ∧
      d.bit (pIntStatus 0x05) 3 = true
    let ends (n : Nat) : Prop := Completes row s (fun d =>
      shows n d ∧ RegsOnly [R.JNL_PORT_CTRL, pIntStatus 0x05] c d)
    (¬ idle → Completes row s (Still c)) ∧ (idle → c.inHoldup = true → ends 5) ∧
    (idle → c.inHoldup = false → poisoned = true → ends 2) ∧
    (idle → c.inHoldup = false → poisoned = false →
      (¬ owned → ends 4) ∧ (owned → ¬ follows → ends 3) ∧ (owned → follows → ¬ listed → ends 4)) ∧
    (taken → held → Completes row s (fun d => d.jnl = { c.jnl with waiting := c.jnl.waiting ++ [op] } ∧
      OnlyRegs [R.JNL_WAIT_CNT] c d ∧ Keeps [.regs, .jnl] c d)) ∧
    (taken → ¬ held → failed = 3 → Completes row s (fun d => shows 6 d ∧ d.jnl = { c.jnl with failed := true } ∧
      d.bit (pIntStatus 0x05) 4 = true ∧ d.bit R.SYS_ALERT 0 = true ∧ d.bit R.EVR_LW_STATUS 0 = true ∧
      d.bit (pIntStatus 0x04) 2 = true ∧ d.evr = { c.evr with degraded := true } ∧
      OnlyRegs ([R.JNL_PORT_CTRL, pIntStatus 0x05, pIntStatus 0x04, R.SYS_ALERT, R.EVR_LW_STATUS] ++
        (List.range 8).map R.EVR_LASTWORD) c d ∧ Keeps [.regs, .jnl, .evr, .pwr] c d)) ∧
    (taken → ¬ held → failed ≠ 3 → region ≠ 0 → Completes row s (fun d => shows 1 d ∧
      (∃ new, d.group first = some new ∧ slotGood new = true ∧ slotType new = t ∧ new.drop 8 = bs.drop 8 ∧
        (∀ old, c.group first = some old → slotSeq new = (slotSeq old + 1) % 65536 ∧
          (d.slotBytes first = old ∨ d.slotBytes (first + 1) = old))) ∧
      (∀ k, k ≠ first → k ≠ first + 1 → d.slotBytes k = c.slotBytes k) ∧
      OnlyRegs [R.JNL_PORT_CTRL, pIntStatus 0x05] c d ∧ Keeps [.regs, .mram, .pwr] c d)) ∧
    (taken → ¬ held → failed ≠ 3 → region = 0 → Completes row s (fun d => ∃ e : Chip, shows 1 e ∧
      e.slotBytes c.jnl.head = layRecord t (part % 16) (part / 16) c.jnl.headSeq [(8, 56, leNat (bs.drop 8))] ∧
      (∀ k, k ≠ c.jnl.head → e.slotBytes k = c.slotBytes k) ∧
      e.jnl = { c.jnl with
        head := (c.jnl.head + 1) % ringSlots, headSeq := (c.jnl.headSeq + 1) % 65536, used := c.jnl.used + 1
        openOp := if part % 16 = part / 16 then none else some (part / 16, part % 16 + 1) } ∧
      OnlyRegs [R.JNL_PORT_CTRL, pIntStatus 0x05] c e ∧ Keeps [.regs, .mram, .jnl, .pwr] c e ∧
      d = (if e.jnl.openOp = none then e.maybeCkpt.resume else e.maybeCkpt).settle ∧ Keeps commitParts c d))) ∧
  (∀ s : State,
    let c := s.chip
    let bare : Chip := { c with jnl := { c.jnl with waiting := [] } }
    (c.alive = false ∨ c.inHoldup = true ∨ c.jnl.waiting = [] → Completes .journalHwmResume s (Still c)) ∧
    (∀ op ops, c.jnl.waiting = op :: ops → c.mustWait op.src = true → Completes .journalHwmResume s (Still c)) ∧
    (∀ op, c.alive = true → c.inHoldup = false → c.jnl.waiting = [op] → c.mustWait op.src = false →
      Completes .journalHwmResume s (fun d => d = (bare.commitNow op).settle ∧ Keeps commitParts c d))) ∧
  (∀ s : State,
    let c := s.chip
    let begins (n : Nat) (d : Chip) : Prop :=
      let e := if c.jnl.epoch = 9 then 10 else 9
      let bs := d.slotBytes c.jnl.head
      d.jnl = { c.jnl with
        ckpt := some ⟨(c.jnl.set + 1) % 2 ^ 32, c.jnl.head, c.jnl.headSeq, e, n⟩, ckptNext := false, writeEpoch := e
        head := (c.jnl.head + 1) % ringSlots, headSeq := (c.jnl.headSeq + 1) % 65536, used := c.jnl.used + 1 } ∧
      slotGood bs = true ∧ slotType bs = 0x01 ∧ leAt bs 8 4 = (c.jnl.set + 1) % 2 ^ 32 ∧ leAt bs 12 1 = e ∧
      d.epochKey e = Config.random 256 c.freeCtr ∧
      (∀ k, k ≠ c.jnl.head → k ≠ bootGroup e → k ≠ bootGroup e + 1 → d.slotBytes k = c.slotBytes k) ∧
      d.sec.finalOpen = 0 ∧ d.sec.finalCovered = c.sec.finalCovered + c.sec.finalOpen ∧
      d.loc = { c.loc with cutBands := c.loc.bands }
    let can := c.sys.mode ≠ .boot ∧ c.inHoldup = false ∧ c.jnl.failed = false ∧ c.jnl.openOp = none
    let reports (d : Chip) : Prop := d.bit (pIntStatus 0x05) 2 = true ∧ OnlyRegs (pIntStatus 0x05 :: dropRegs) c d
    (c.alive = false ∨ c.jnl.ckpt ≠ none → Completes .jnlCtrlCkpt s (Still c)) ∧
    (c.alive = true → c.jnl.ckpt = none → ¬ can → Completes .jnlCtrlCkpt s (fun d =>
      d.jnl = { c.jnl with ckptNext := true } ∧ Keeps [.jnl] c d)) ∧
    (c.alive = true → c.jnl.ckpt = none → can → c.jnl.head < ringSlots → Completes .jnlCtrlCkpt s (fun d =>
      begins 1 d ∧ OnlyRegs [pIntStatus 0x05] c d ∧ Keeps [.regs, .mram, .jnl, .loc, .bcl, .sec, .pwr, .freeCtr] c d)) ∧
    (c.alive = false ∨ c.inHoldup = true ∨ c.jnl.ckpt = none →
      ∀ n, Completes (.checkpointFail n) s (Still c)) ∧
    (∀ k n, c.alive = true → c.inHoldup = false → c.jnl.ckpt = some k →
      (3 ≤ k.starts ∨ c.jnl.failed = true → Completes (.checkpointFail n) s (fun d => reports d ∧
        d.jnl = { c.jnl with ckpt := none } ∧ Keeps [.regs, .evr, .jnl, .pwr] c d)) ∧
      (k.starts < 3 → c.jnl.failed = false → c.jnl.head < ringSlots → Completes (.checkpointFail n) s (fun d =>
        reports d ∧ begins (k.starts + 1) d ∧
        Keeps [.regs, .evr, .mram, .jnl, .loc, .bcl, .sec, .pwr, .freeCtr] c d)))) ∧
  (∀ (s : State) (w da db dn p crc : Nat),
    let c := s.chip
    let old := c.jnl.epoch
    let row : Instr := .checkpointDone w da db dn p crc
    (c.alive = false ∨ c.inHoldup = true ∨ c.jnl.failed = true ∨ c.jnl.openOp ≠ none ∨ c.jnl.ckpt = none →
      Completes row s (Still c)) ∧
    (∀ k, c.alive = true → c.inHoldup = false → c.jnl.failed = false → c.jnl.openOp = none → c.jnl.ckpt = some k →
      c.jnl.head < ringSlots → old = 9 ∨ old = 10 → Completes row s (fun d => ∃ e : Chip,
        let bs := e.slotBytes c.jnl.head
        let head := (c.jnl.head + 1) % ringSlots
        let more := c.bcl.discards.any (fun x => x.final == 1)
        slotGood bs = true ∧ slotType bs = 0x02 ∧ leAt bs 8 4 = k.set % 2 ^ 32 ∧ leAt bs 40 4 = crc % 2 ^ 32 ∧
        e.jnl = { c.jnl with
          ckpt := none, set := k.set, epoch := k.epoch, tail := k.cutSlot, tailSeq := k.cutSeq, head := head
          headSeq := (c.jnl.headSeq + 1) % 65536, used := (head + ringSlots - k.cutSlot) % ringSlots
          ckptNext := c.jnl.ckptNext || more } ∧
        (∃ r, e.group (bootGroup 1) = some r ∧ slotType r = 0x71 ∧ leAt r 8 2 = k.cutSlot % 65536 ∧
          leAt r 10 2 = k.cutSeq % 65536 ∧ leAt r 12 4 = k.set % 2 ^ 32 ∧ leAt r 16 1 = k.epoch % 256) ∧
        e.slotBytes (bootGroup old) = blankSlot ∧ e.slotBytes (bootGroup old + 1) = blankSlot ∧
        e.reg R.JNL_CKPT_CNT = BitVec.ofNat 32 (min ((c.reg R.JNL_CKPT_CNT).toNat + 1) 0xFFFFFFFF) ∧
        e.bit (pIntStatus 0x05) 0 = true ∧ e.sec.finalCovered = 0 ∧
        (c.sec.finalOpen = 0 → c.sec.finalCovered ≠ 0 → e.bit (pIntStatus 0x1A) 1 = true) ∧
        OnlyRegs [R.JNL_CKPT_CNT, pIntStatus 0x05, pIntStatus 0x1A] c e ∧
        e.loc = { c.loc with ckptBands := some c.loc.cutBands } ∧
        Keeps [.regs, .mram, .jnl, .loc, .bcl, .sec, .pwr] c e ∧
        d = e.resume.maybeCkpt.settle ∧ Keeps commitParts c d))) ∧
  (∀ s : State,
    let c := s.chip
    (c.alive = true → c.diagOpen = true → c.effective ≠ 3 → Completes .jnlInit s (fun d =>
      (∀ k, d.slotBytes k = blankSlot) ∧ d.jnl.head = 0 ∧ d.jnl.used = 0 ∧ d.jnl.failed = false ∧
      Keeps [.mram, .jnl, .evr] c d)) ∧
    (c.alive = true → c.effective = 3 → c.diagOpen = true → Completes .jnlInit s (fun d =>
      d.bit (pFault 0x05) 5 = true ∧ RegsOnly [pFault 0x05, pIntStatus 0x05] c d)) ∧
    (c.alive = true → c.diagOpen = false → Completes .jnlInit s (fun d => d.bit (pFault 0x05) 1 = true ∧
      RegsOnly [pFault 0x05, pIntStatus 0x05] c d)) ∧
    (c.alive = false ∨ c.inHoldup = true ∨ c.sys.pccCommitted = false → Completes .optimeTick s (Still c)) ∧
    (c.alive = true → c.inHoldup = false → c.sys.pccCommitted = true → Completes .optimeTick s (fun d =>
      let t := (c.jnl.optime + 1) % 2 ^ 32
      d.jnl = { c.jnl with optime := t } ∧
      (c.jnl.failed = false → ∃ bs, d.group (ctrGroup 0) = some bs ∧ slotType bs = 0x60 ∧ leAt bs 8 4 = t ∧
        leAt bs 12 3 = c.jnl.pcc % 2 ^ 24 ∧ leAt bs 15 1 = 0) ∧
      let check (v : Value) : Value := if v.expires ≠ 0 ∧ v.expires ≤ t then { v with expired := true } else v
      d.seg = { c.seg with values := c.seg.values.map check, fresh := c.seg.fresh.map check } ∧
      Keeps [.mram, .jnl, .seg] c d))) ∧
  (∀ (s : State) (mib : Nat) (block : Option (Nat × Nat)),
    let c := s.chip
    let n := c.nand.badBlocks.length
    let row : Instr := .nfcEraseAhead mib block
    let ahead (d : Chip) : Prop := d.fld R.NFC_ERASED 15 0 = min mib 0xFFFF ∧
      (min mib 0xFFFF < c.fld R.NVQ_DIRTY_LIMIT 8 0 + 32 → d.bit (pIntStatus 0x48) 2 = true)
    (c.alive = false ∨ c.inHoldup = true → Completes row s (Still c)) ∧
    (c.alive = true → c.inHoldup = false → block = none → Completes row s (fun d => ahead d ∧
      RegsOnly [R.NFC_ERASED, pIntStatus 0x48] c d)) ∧
    (∀ b, c.alive = true → c.inHoldup = false → block = some b → Completes row s (fun d => ahead d ∧
      d.reg R.NFC_PROG_FAIL = BitVec.ofNat 32 (min ((c.reg R.NFC_PROG_FAIL).toNat + 1) 0xFFFFFFFF) ∧
      (c.jnl.closed = true ∨ 56 ≤ n → d.nand = c.nand ∧ d.mram = c.mram) ∧
      (c.jnl.closed = false → 56 ≤ n → d.nfc.bbFull = true ∧ d.bit (pIntStatus 0x48) 3 = true) ∧
      (c.jnl.closed = false → n < 56 → d.nfc = c.nfc ∧
        d.nand = { c.nand with badBlocks := c.nand.badBlocks ++ [b.2 % 2 ^ 24 + b.1 % 4 * 2 ^ 24] } ∧
        (∃ bs, d.group (bootGroup (3 + n / 14)) = some bs ∧ slotType bs = 0x73 ∧
          leAt bs (8 + 4 * (n % 14)) 4 = b.2 % 2 ^ 24 + b.1 % 4 * 2 ^ 24)) ∧
      OnlyRegs [R.NFC_ERASED, R.NFC_PROG_FAIL, pIntStatus 0x48] c d ∧ Keeps [.regs, .mram, .nand, .nfc, .pwr] c d))) ∧
  (∀ (s : State) (p : NandRead), s.chip.alive = true →
    let c := s.chip
    let a := c.fld R.NFC_RD_DST_LO 31 12 * 4096 + c.fld R.NFC_RD_DST_HI 3 0 * 2 ^ 32
    let refused := c.inHoldup = true ∨ c.inDram a p.data.length = false
    let bs := if p.status = 3 then List.replicate p.data.length 0xFF#8 else p.data
    (refused → Completes (.nfcFirmwareRead p) s (fun d => d.bit (pFault 0x48) 4 = true ∧
      RegsOnly [pFault 0x48, pIntStatus 0x48] c d)) ∧
    (¬ refused → Completes (.nfcFirmwareRead p) s (fun d =>
      (∀ i < bs.length, d.mem.byte (a + i) = bs.getD i 0) ∧
      (∀ b, b / 8 < a / 8 ∨ (a + bs.length + 7) / 8 ≤ b / 8 → d.mem.byte b = c.mem.byte b) ∧
      d.fld R.NFC_RD_CTRL 6 4 = p.status.val ∧ d.fld R.NFC_RD_CTRL 31 24 = p.kind % 256 ∧
      d.fld R.NFC_RD_CTRL 23 16 = p.set % 256 ∧ d.bit R.NFC_RD_CTRL 0 = false ∧
      d.bit (pIntStatus 0x48) 4 = true ∧ Keeps [.regs, .mem, .evr, .pwr] c d)))

/-- A released core's access aborts with the cause of R81, R85, R492 and R496 and the address, with OVF where
an abort stood, or reaches its register, line or memory: a store writes exactly its bytes, a load of marked
data aborts with 3, or 6 in its own TCM, and one that meets a pending slot waits (R297, R494, R495); a
prefetch fills a line marked speculative, or does nothing where it touches a pending slot (R28, R298).
CPU_RELEASE starts a core, an RT core only inside its TCM (R491). An L2 or L1 is enabled only when
invalidated; an L2 with dirty lines is disabled only with FORCE (R501 to R503). Maintenance cleans, drops or
both, by address, set and way, or all; each set runs one operation, shows BUSY and at its end DONE and RESULT
(R504, R506, R508). Carving a way flushes and zeroes it; lock and carve-out keep the layout of R512 (R511 to
R513). A window and its range (R494, R515). A clean line's parity error is recovered and counted, a dirty one
stops the application cores (R509, R510); an injected error waits for the next read (R514). -/
def Obligations.CoresAbortPreciselyAndCachesAreControlled : Prop :=
  (∀ (s : State) (n : Fin 8) (x : CoreAccess),
    let c := s.chip
    let row : Instr := .coreAbort n x
    let aborts (e : Chip) (cause : Nat) (d : Chip) : Prop :=
      d.bit (R.CPU_ABT n) 31 = true ∧ d.bit (R.CPU_ABT n) 30 = e.bit (R.CPU_ABT n) 31 ∧
      d.fld (R.CPU_ABT n) 3 0 = cause ∧ d.reg (R.CPU_ABT_ADDR_LO n) = BitVec.ofNat 32 (x.addr % 2 ^ 32) ∧
      d.fld (R.CPU_ABT_ADDR_HI n) 3 0 = x.addr / 2 ^ 32 % 16 ∧
      OnlyRegs [R.CPU_ABT n, R.CPU_ABT_ADDR_LO n, R.CPU_ABT_ADDR_HI n] e d ∧ Keeps [.regs] e d
    let asks := x.kind ≠ .prefetch
    let runs := asks ∧ c.coreRuns n = true ∧ ∀ w ∈ c.cpu.waits, w.core ≠ n
    let sized := (x.size = 1 ∨ x.size = 2 ∨ x.size = 4 ∨ x.size = 8) ∧ x.addr % x.size = 0
    let own (q : Region) : Prop := (n = 6 ∧ q = .tcmA) ∨ (n = 7 ∧ q = .tcmB)
    let executes (q : Region) : Prop := q = .bootRom ∨ own q ∨ (n.val < 6 ∧ (q = .carve ∨ q = .dram))
    let cached (q : Region) : Prop := n.val < 6 ∧ c.bit R.CPU_L2_CTRL 0 = true ∧
      (q = .bootRom ∨ (q = .dram ∧ c.inWindow x.addr = false))
    let region := regionOf c.mem c.carveBytes x.addr
    (asks → ¬ runs → CompletesThen row s (fun d => d = c)) ∧
    (¬ asks →
      let line := lineOf x.addr
      let wants := c.coreRuns n = true ∧ (∃ q, region = some q ∧ cached q) ∧ c.l2Find x.addr = none ∧
        c.slotPending line 64 = false
      (¬ wants → CompletesThen row s (fun d => d = c)) ∧
      (wants → CompletesThen row s (fun d => Keeps [.regs, .mem, .evr, .pwr, .cpu, .freeCtr] c d ∧
        (c.cpu.inject = [] → (∀ e ∈ c.cpu.l2, e.2.dirty = false) → Keeps [.cpu, .freeCtr] c d ∧
          ∀ k m, d.cpu.l2.find? k = some m →
            c.cpu.l2.find? k = some m ∨ m = { (c.readLine line).1 with spec := true })))) ∧
    (runs → region = none ∨ ¬ sized → CompletesThen row s (aborts c 1)) ∧
    (∀ q, runs → region = some q → sized →
      (x.kind = .fetch → ¬ executes q → CompletesThen row s (aborts c 1)) ∧
      (x.kind = .store → q = .bootRom → CompletesThen row s (aborts c 1)) ∧
      (x.kind = .store → q = .zoneTable ∨ q = .ldpc ∨ q = .mram → CompletesThen row s (aborts c 2)) ∧
      (x.kind ≠ .fetch → q = .regs → x.size ≠ 4 ∨ populated (x.addr / 4096 % 256) = false →
        CompletesThen row s (aborts c 1)) ∧
      (q = .regs → x.size = 4 → populated (x.addr / 4096 % 256) = true →
        (x.kind = .store → CompletesThen row s (fun d =>
          d = c.busWrite (x.addr - 0x40000000) (BitVec.ofNat 32 (leNat x.data)))) ∧
        (x.kind = .load → CompletesThen row s (fun d =>
          let p := c.busRead (.core n) (x.addr - 0x40000000)
          d = p.2.emit (.load n (leBytes 4 p.1.toNat))))) ∧
      (x.kind = .store → q = .staging ∨ q = .carve ∨ q = .tcmA ∨ q = .tcmB ∨ (q = .dram ∧ ¬ cached q) →
        c.slotPending x.addr x.size = false → CompletesThen row s (fun d =>
          (∀ i < x.data.length, d.mem.byte (x.addr + i) = x.data.getD i 0) ∧
          (∀ b, b / 8 < x.addr / 8 ∨ (x.addr + x.data.length + 7) / 8 ≤ b / 8 → d.mem.byte b = c.mem.byte b) ∧
          Keeps [.regs, .mem, .evr, .pwr] c d)) ∧
      (x.kind = .load ∨ (x.kind = .fetch ∧ executes q) → ¬ cached q → q ∉ [.regs, .mram, .bootRom, .carve] →
        c.slotPending x.addr x.size = false → CompletesThen row s (fun d =>
          let p := c.readRange x.addr x.size
          (p.2.1 = false → x.kind = .fetch → d = p.2.2) ∧
          (p.2.1 = false → x.kind = .load → q ≠ .zoneTable → d = p.2.2.emit (.load n p.1)) ∧ (own q → p.2.1 = true → aborts p.2.2 6 d) ∧
          (¬ own q → p.2.1 = true → aborts p.2.2 3 d))) ∧
      (∀ k l, cached q → (x.kind = .store → q = .dram) → c.l2Find x.addr = some k → c.cpu.l2.find? k = some l →
        k ∉ c.cpu.inject → (l.spec = true → CompletesThen row s (fun d =>
          d = (((c.setL2 (c.cpu.l2.set k { l with spec := false })).readLine (lineOf x.addr)).2.lineAccess n k x))) ∧
        (l.spec = false → CompletesThen row s (fun d =>
          (x.kind = .store → Keeps [.cpu] c d ∧ ∃ m, d.cpu.l2.find? k = some m ∧ m.dirty = true ∧ m.addr = l.addr ∧
            (l.data.length = 64 → ∀ i < x.data.length, m.data.getD (x.addr % 64 + i) 0 = x.data.getD i 0) ∧
            (x.size = 8 → x.addr % 64 / 8 ∉ m.poison)) ∧
          (x.kind ≠ .store → x.addr % 64 / 8 ∈ l.poison → aborts c 3 d) ∧
          (x.kind = .fetch → x.addr % 64 / 8 ∉ l.poison → d = c) ∧
          (x.kind = .load → x.addr % 64 / 8 ∉ l.poison → d = c.emit (.load n (slice l.data (x.addr % 64) x.size)))))) ∧
      (x.kind = .load ∨ (x.kind = .fetch ∧ executes q) → q ≠ .regs → ¬ cached q → c.slotPending x.addr x.size = true →
        CompletesThen row s (fun d => d.cpu = { c.cpu with waits := c.cpu.waits ++ [⟨n, x⟩] } ∧ Keeps [.cpu] c d)))) ∧
  (∀ (s : State) (v : Word), s.chip.alive = true →
    let c := s.chip
    let boot (n : Nat) := (c.reg (R.CPU_BOOT_ADDR n)).toNat * 16
    let may (n : Nat) : Prop := n < 6 ∨ (n = 6 ∧ 0x28000000 ≤ boot n ∧ boot n ≤ 0x2803FFFF) ∨
      (n = 7 ∧ 0x28100000 ≤ boot n ∧ boot n ≤ 0x2813FFFF)
    Completes (.cpuRelease v) s (fun d =>
      (∀ n < 8, d.bit R.CPU_RELEASE n = true ↔ c.bit R.CPU_RELEASE n = true ∨ (v.getLsbD n = true ∧ may n)) ∧
      (∀ n < 8, v.getLsbD n = true → c.bit R.CPU_RELEASE n = false → ¬ may n → d.bit (pFault 0x50) 3 = true) ∧
      (∀ n < 6, v.getLsbD n = true → c.bit R.CPU_RELEASE n = false → n ∈ d.cpu.l1iInv ∧ n ∈ d.cpu.l1dInv) ∧
      d.cpu.l2 = c.cpu.l2 ∧ OnlyRegs [R.CPU_RELEASE, pFault 0x50, pIntStatus 0x50] c d ∧
      Keeps [.regs, .cpu, .pwr] c d)) ∧
  (∀ (s : State) (v : Word), s.chip.alive = true →
    let c := s.chip
    let k := R.CPU_L2_CTRL
    let regs := [k, pFault 0x50, pIntStatus 0x50]
    let on := v.getLsbD 0
    let dirty := ∃ e ∈ c.cpu.l2, e.2.dirty = true
    let row : Instr := .cpuL2CtrlWrite v
    (on = c.bit k 0 → Completes row s (fun d => d.bit k 0 = on ∧ d.bit k 1 = v.getLsbD 1 ∧
      d.bit k 3 = (c.bit k 3 && !v.getLsbD 3) ∧ d.bit k 4 = (c.bit k 4 && !v.getLsbD 4) ∧ RegsOnly regs c d)) ∧
    (on = true → c.bit k 0 = false → c.cpu.l2Inv = true → Completes row s (fun d => d.bit k 0 = true ∧
      RegsOnly regs c d)) ∧
    (on = true → c.bit k 0 = false → c.cpu.l2Inv = false → Completes row s (fun d => d.bit k 0 = false ∧
      d.bit k 3 = true ∧ d.bit (pIntStatus 0x50) 3 = true ∧ RegsOnly regs c d)) ∧
    (on = false → c.bit k 0 = true → ¬ dirty → Completes row s (fun d => d.bit k 0 = false ∧
      d.cpu = { c.cpu with l2Inv := false } ∧ OnlyRegs regs c d ∧ Keeps [.regs, .cpu, .pwr] c d)) ∧
    (on = false → c.bit k 0 = true → dirty → v.getLsbD 1 = false → Completes row s (fun d => d.bit k 0 = true ∧
      d.bit k 4 = true ∧ d.bit (pIntStatus 0x50) 2 = true ∧ RegsOnly regs c d)) ∧
    (on = false → c.bit k 0 = true → dirty → v.getLsbD 1 = true → Completes row s (fun d => d.bit k 0 = false ∧
      (c.cpu.inject = [] → ∀ j l, d.cpu.l2.find? j = some l → l.dirty = false ∧ c.cpu.l2.find? j = some l) ∧
      Keeps [.regs, .mem, .evr, .pwr, .cpu] c d))) ∧
  (∀ (s : State) (n : Fin 6) (ien den : Bool), s.chip.alive = true →
    let c := s.chip
    let k := R.CPU_L1_CTRL n
    Completes (.cpuL1Inv n) s (fun d => n.val ∈ d.cpu.l1iInv ∧ n.val ∈ d.cpu.l1dInv ∧
      (∀ m, m ≠ n.val → (m ∈ d.cpu.l1iInv ↔ m ∈ c.cpu.l1iInv) ∧ (m ∈ d.cpu.l1dInv ↔ m ∈ c.cpu.l1dInv)) ∧
      d.cpu.l2 = c.cpu.l2 ∧ Keeps [.cpu] c d) ∧
    Completes (.cpuL1Enable n ien den) s (fun d =>
      d.bit k 0 = (ien && (c.bit k 0 || c.cpu.l1iInv.contains n.val)) ∧
      d.bit k 1 = (den && (c.bit k 1 || c.cpu.l1dInv.contains n.val)) ∧
      (ien ≠ d.bit k 0 ∨ den ≠ d.bit k 1 → d.bit k 4 = true ∧ d.bit (pIntStatus 0x50) 3 = true) ∧
      (n.val ∈ d.cpu.l1iInv ↔ n.val ∈ c.cpu.l1iInv ∧ ¬ (c.bit k 0 = true ∧ ien = false)) ∧
      (n.val ∈ d.cpu.l1dInv ↔ n.val ∈ c.cpu.l1dInv ∧ ¬ (c.bit k 1 = true ∧ den = false)) ∧
      d.cpu.l2 = c.cpu.l2 ∧ OnlyRegs [k, pIntStatus 0x50] c d ∧ Keeps [.regs, .cpu, .pwr] c d)) ∧
  (∀ (s : State) (n : Fin 8) (op : Nat) (scope : Fin 4), s.chip.alive = true → op = 1 ∨ op = 2 ∨ op = 3 →
    let c := s.chip
    let k := R.CPU_CM_CMD n
    let row : Instr := if op = 1 then .cmClean n scope else if op = 2 then .cmInvalidate n scope
      else .cmCleanInv n scope
    let busy := (c.cpu.cm.find? n.val).isSome = true
    let way := c.fld (R.CPU_CM_SETWAY n) 19 16
    let carved := scope = 1 ∧ way < c.fld R.CPU_L2_CARVE 4 0
    let target := if scope = 0 then
        c.l2Find (c.fld (R.CPU_CM_ADDR_HI n) 3 0 * 2 ^ 32 + (c.reg (R.CPU_CM_ADDR_LO n)).toNat)
      else if scope = 1 ∧ ¬ carved then some (c.fld (R.CPU_CM_SETWAY n) 10 0 * 16 + way) else none
    let starts (d : Chip) : Prop := d.bit k 6 = true ∧ d.fld k 5 4 = scope.val ∧ d.fld k 3 2 = op ∧
      d.cpu.cm = c.cpu.cm.set n (if carved then 2 else 1)
    (scope = 3 → Completes row s (fun d => d.bit (pFault 0x50) 3 = true ∧
      RegsOnly [pFault 0x50, pIntStatus 0x50] c d)) ∧
    (scope ≠ 3 → busy → Completes row s (fun d => d.bit (pFault 0x50) 5 = true ∧
      RegsOnly [pFault 0x50, pIntStatus 0x50] c d)) ∧
    (scope ≠ 3 → ¬ busy → Completes row s (fun d => starts d ∧ Keeps [.regs, .mem, .evr, .pwr, .cpu] c d ∧
      (scope ≠ 2 → (∀ j, target = some j → c.cpu.l2.find? j = none) → d.cpu.l2 = c.cpu.l2 ∧
        OnlyRegs [k] c d ∧ Keeps [.regs, .cpu] c d) ∧
      (∀ j l, scope ≠ 2 → target = some j → c.cpu.l2.find? j = some l → c.cpu.inject = [] →
        d.cpu.l2.find? j = (if op = 1 then some { l with dirty := false } else none) ∧
        (∀ i, i ≠ j → d.cpu.l2.find? i = c.cpu.l2.find? i) ∧
        (op = 2 ∨ l.dirty = false → SameMem c d) ∧
        (op ≠ 2 → l.dirty = true → l.addr % 64 = 0 → l.data.length = 64 →
          (∀ i < 64, d.mem.byte (l.addr + i) = l.data.getD i 0) ∧
          (∀ i < 8, d.mem.syndAt (l.addr + 8 * i) = if i ∈ l.poison then poisonSynd else 0) ∧
          (∀ b, b / 64 ≠ l.addr / 64 → d.mem.byte b = c.mem.byte b))) ∧
      (scope = 2 → c.cpu.inject = [] →
        (op = 1 → ∀ j l, d.cpu.l2.find? j = some l → l.dirty = false) ∧
        (op ≠ 1 → d.cpu.l2 = [] ∧ d.cpu.l2Inv = true) ∧ (op = 2 → SameMem c d))))) ∧
  (∀ (s : State) (n : Fin 8), s.chip.alive = true →
    let c := s.chip
    let k := R.CPU_CM_CMD n
    (c.cpu.cm.find? n.val = none → Completes (.cmDone n) s (Still c)) ∧
    (∀ r, c.cpu.cm.find? n.val = some r → Completes (.cmDone n) s (fun d => d.bit k 6 = false ∧ d.bit k 7 = true ∧
      d.fld k 9 8 = r % 4 ∧ d.cpu = { c.cpu with cm := c.cpu.cm.erase n } ∧ d.bit (pIntStatus 0x50) 4 = true ∧
      OnlyRegs [k, pIntStatus 0x50] c d ∧ Keeps [.regs, .cpu, .pwr] c d))) ∧
  (∀ (s : State) (v : Word), s.chip.alive = true →
    let c := s.chip
    let refuses (row : Instr) (n : Nat) : Prop := Completes row s (fun d => d.bit (pFault 0x50) n = true ∧
      RegsOnly [pFault 0x50, pIntStatus 0x50] c d)
    let clash (carved : Nat) (locked : Word) : Prop := (∃ w < carved, locked.getLsbD w = true) ∨
      (c.bit R.CPU_L2_CTRL 0 = true ∧ ∀ w < 16, w < carved ∨ locked.getLsbD w = true)
    let old := c.fld R.CPU_L2_CARVE 4 0
    let new := field v 4 0
    let size := field v 27 24
    let base := field v 15 0
    let window := size ≤ 12 ∧ base % 2 ^ size = 0 ∧ c.inDram (base * 2 ^ 20) 1 = true
    (16 < new → refuses (.cpuL2Carve v) 3) ∧
    (new ≤ 16 → clash new (c.reg R.CPU_L2_LOCK) → refuses (.cpuL2Carve v) 6) ∧
    (new ≤ 16 → ¬ clash new (c.reg R.CPU_L2_LOCK) → Completes (.cpuL2Carve v) s (fun d =>
      d.fld R.CPU_L2_CARVE 4 0 = new ∧
      (c.cpu.inject = [] → ∀ e ∈ d.cpu.l2, ¬ (old ≤ e.1 % 16 ∧ e.1 % 16 < new)) ∧
      (c.cpu.inject = [] → ∀ j, ¬ (old ≤ j % 16 ∧ j % 16 < new) → d.cpu.l2.find? j = c.cpu.l2.find? j) ∧
      ((∀ e ∈ c.cpu.l2, e.2.addr + e.2.data.length ≤ 0x20000000 ∨ 0x20400000 ≤ e.2.addr) →
        ∀ w i, (old ≤ w ∧ w < new) ∨ (new ≤ w ∧ w < old) → i < 0x20000 →
          d.mem.byte (0x20000000 + w * 0x20000 + i) = 0) ∧
      Keeps [.regs, .mem, .evr, .pwr, .cpu] c d)) ∧
    (field v 19 16 < old → refuses (.cpuL2Lock v) 3) ∧
    (old ≤ field v 19 16 → clash old v → refuses (.cpuL2Lock v) 6) ∧
    (old ≤ field v 19 16 → ¬ clash old v → Completes (.cpuL2Lock v) s (fun d =>
      d.reg R.CPU_L2_LOCK = v &&& 0x001FFFFF ∧
      RegsOnly [R.CPU_L2_LOCK, pFault 0x50, pIntStatus 0x50] c d)) ∧
    (∀ w : Fin 16, (¬ window → refuses (.cpuAttrWrite w v) 3) ∧
      (window → Completes (.cpuAttrWrite w v) s (fun d => d.reg (R.CPU_ATTR w) = v &&& 0x8F00FFFF ∧
        RegsOnly [R.CPU_ATTR w, pFault 0x50, pIntStatus 0x50] c d))) ∧
    (c.diagOpen = false → refuses (.cpuInject v) 1) ∧
    (c.diagOpen = true → Completes (.cpuInject v) s (fun d =>
      d.reg R.CPU_INJECT = v &&& 0x001F07FF ∧
      (∀ j, j ∈ d.cpu.inject ↔ j ∈ c.cpu.inject ∨
        (v.getLsbD 31 = true ∧ j = field v 10 0 * 16 + field v 19 16)) ∧ d.cpu.l2 = c.cpu.l2 ∧
      OnlyRegs [R.CPU_INJECT, pFault 0x50, pIntStatus 0x50] c d ∧ Keeps [.regs, .cpu, .pwr] c d))) ∧
  (∀ (s : State), s.chip.alive = true →
    let c := s.chip
    let counts (d : Chip) : Prop := d.bit (pIntStatus 0x50) 1 = true ∧
      d.reg R.CPU_PAR_CLEAN_CNT = BitVec.ofNat 32 (min ((c.reg R.CPU_PAR_CLEAN_CNT).toNat + 1) 0xFFFFFFFF)
    (∀ (n : Fin 6) (data : Bool),
      let on := c.bit R.CPU_L2_CTRL 0 = true ∧ c.bit (R.CPU_L1_CTRL n) (if data then 1 else 0) = true
      (¬ on → Completes (.cacheParityError (.l1 n data)) s (Still c)) ∧
      (on → Completes (.cacheParityError (.l1 n data)) s (fun d => counts d ∧
        RegsOnly [R.CPU_PAR_CLEAN_CNT, pIntStatus 0x50] c d))) ∧
    (∀ (set : Fin 2048) (way : Fin 16) (bad : Bool),
      let k := set.val * 16 + way.val
      let row : Instr := .cacheParityError (.l2 set way bad)
      (c.cpu.l2.find? k = none → Completes row s (Still c)) ∧
      (∀ l, c.cpu.l2.find? k = some l → l.spec = true → Completes row s (fun d =>
        d.cpu = { c.cpu with inject := insertNat c.cpu.inject k } ∧ Keeps [.cpu] c d)) ∧
      (∀ l, c.cpu.l2.find? k = some l → l.spec = false → l.dirty = true ∨ bad = true → Completes row s (fun d =>
        d.cpu.fatal = true ∧ (∀ e ∈ d.cpu.l2, e.2.dirty = false) ∧ (∀ n < 6, d.coreRuns n = false) ∧
        d.bit R.CPU_FATAL 31 = true ∧ d.fld R.CPU_FATAL 30 29 = 2 ∧ d.fld R.CPU_FATAL 26 16 = set.val ∧
        d.fld R.CPU_FATAL 3 0 = way.val ∧ d.bit (pIntStatus 0x50) 0 = true ∧ d.bit R.SYS_ALERT 2 = true ∧
        OnlyRegs ([R.CPU_FATAL, pIntStatus 0x50, R.SYS_ALERT] ++ dropRegs) c d ∧
        Keeps [.regs, .evr, .pwr, .cpu] c d)) ∧
      (∀ l, c.cpu.l2.find? k = some l → l.spec = false → l.dirty = false → bad = false → Completes row s (fun d => counts d ∧
        (∃ m, d.cpu.l2.find? k = some m ∧ m.dirty = false ∧ m.addr = l.addr ∧
          (0x40000 ≤ l.addr → l.addr % 64 = 0 → (∀ i < 8, c.mem.syndAt (l.addr + 8 * i) = 0) →
            ∀ i < 64, m.data.getD i 0 = c.mem.byte (l.addr + i))) ∧
        (∀ j, j ≠ k → d.cpu.l2.find? j = c.cpu.l2.find? j) ∧
        Keeps [.regs, .evr, .mem, .pwr, .cpu, .freeCtr] c d))) ∧
    (∀ (n : Fin 8) (a : Nat),
      let hit := c.coreRuns n = true ∧ regionOf c.mem c.carveBytes a = some .carve
      (¬ hit → Completes (.cacheParityError (.carve n a)) s (Still c)) ∧
      (hit → Completes (.cacheParityError (.carve n a)) s (fun d => d.bit (R.CPU_ABT n) 31 = true ∧
        d.fld (R.CPU_ABT n) 3 0 = 5 ∧ d.reg (R.CPU_ABT_ADDR_LO n) = BitVec.ofNat 32 (a % 2 ^ 32) ∧
        RegsOnly [R.CPU_ABT n, R.CPU_ABT_ADDR_LO n, R.CPU_ABT_ADDR_HI n] c d))))

/-- An event of a listed code merges with the newest queued entry of its code, joins the queue, or, where it
is full, one of lowest SEV, the newest, is dropped and counted (R520, R525). An operation takes the head of
the queue: a record of the last record's code adds its repeats; SEV 0 to 2 goes to the general area where 32
words stay free after it, behind a fill record at the end, else one free, one move or the drop is made; FATAL
goes to the floor, frozen or not; every operation that writes ends with the root (R516, R517, R522 to R529). A
due DROPPED record is queued first (R526). A refused slot write or LOGFAIL sets LASTWORD, alert and DEGRADED,
and records, a moved one first, go to the mirror (R532, R533, R535, R536). Freezing holds general operations
and expires (R529). A GO checks CODE and NWORDS (R536, R537). -/
def Obligations.EventsMergeQueueOrDropAndTheRecorderWritesThem : Prop :=
  (∀ (c : Chip) (e : Event), c.dtm.running = true →
    let d := c.handOver e
    let q := c.evr.queue
    (∀ l, q.getLast? = some l → l.code = e.code → Keeps [.evr] c d ∧ d.evr = { c.evr with
      queue := q.dropLast ++ [{ l with repeats := l.repeats + 1 + e.repeats }] }) ∧
    ((∀ l, q.getLast? = some l → l.code ≠ e.code) → q.length < 32 → Keeps [.evr] c d ∧
      d.evr = { c.evr with queue := q ++ [e] }) ∧
    ((∀ l, q.getLast? = some l → l.code ≠ e.code) → 32 ≤ q.length → e.sev ≤ 3 → (∀ y ∈ q, y.sev ≤ 3) →
      (∃ pre x post, q ++ [e] = pre ++ x :: post ∧ d.evr.queue = pre ++ post ∧ (∀ y ∈ q ++ [e], x.sev ≤ y.sev) ∧
        (∀ y ∈ post, x.sev < y.sev)) ∧
      d.evr.pendQ = c.evr.pendQ + 1 ∧ d.evr.pendLast = c.dtm.dtime ∧ d.bit (pIntStatus 0x04) 1 = true ∧
      d.fld R.EVR_DROPPED 15 0 = min (c.fld R.EVR_DROPPED 15 0 + 1) 0xFFFF ∧
      d.fld R.EVR_DROPPED 31 16 = c.fld R.EVR_DROPPED 31 16 ∧
      OnlyRegs dropRegs c d ∧ Keeps [.regs, .evr, .pwr] c d)) ∧
  (∀ (s : State) (code : Nat) (items : List (Option DWord)), s.chip.alive = true →
    let c := s.chip
    let listed := code ∈ [0x0001, 0x0002, 0x0C01, 0x1002, 0x1003, 0x1401, 0x1402, 0x1801, 0x1C01, 0x1C02, 0x2801, 0x2802,
      0x2803, 0x2C01, 0x3001, 0x3002, 0x3401, 0x3402, 0x3C01, 0x3C02, 0x5001, 0x5002, 0x4001, 0x4002, 0x4003, 0x5401,
      0x5402, 0x5403, 0x4C01, 0x4C02, 0x4C03, 0x6001, 0x6002, 0x6003, 0x6401, 0x6801, 0x6C01, 0x7001, 0x7002, 0x7401,
      0x7801, 0x7C01, 0x7802, 0x7C02, 0x8001, 0x8801]
    (¬ listed → Completes (.eventHandover code items) s (Still c)) ∧
    (listed → items.length ≤ 29 → Completes (.eventHandover code items) s (fun d => d = (c.handOver {
      code := code, sev := eventSev code, dtime := c.dtm.dtime
      items := items.map (fun i => i.getD 0xFFFFFFFFFFFFFFFF) }).settle))) ∧
  (∀ s : State, s.chip.alive = true →
    let c := s.chip
    let code := c.fld R.EVR_POST_CTRL 9 0
    let n := c.fld R.EVR_POST_CTRL 19 16
    let word (i : Nat) := (c.reg (R.EVR_POST_DATA i)).toNat
    let e : Event := { code := 0x1000 + code, sev := c.fld R.EVR_POST_CTRL 13 12, dtime := c.dtm.dtime
                       items := (List.range n).map (fun i => BitVec.ofNat 64 (word (2 * i) + word (2 * i + 1) * 2 ^ 32)) }
    let merges := ∃ l, c.evr.queue.getLast? = some l ∧ l.code = e.code
    let ends (r : Nat) (d : Chip) : Prop := d.fld R.EVR_POST_CTRL 26 24 = r ∧ d.bit R.EVR_POST_CTRL 31 = false
    (code < 0x200 ∨ 8 < n → Completes .evrPost s (fun d => ends (if code < 0x200 then 2 else 3) d ∧
      d.bit (pFault 0x04) 3 = true ∧ RegsOnly [R.EVR_POST_CTRL, pFault 0x04, pIntStatus 0x04] c d)) ∧
    (0x200 ≤ code → n ≤ 8 → merges ∨ c.evr.queue.length < 32 → Completes .evrPost s (fun d => ends 1 d ∧
      d.evr = (c.handOver e).evr ∧ OnlyRegs [R.EVR_POST_CTRL] c d ∧ Keeps [.regs, .evr] c d)) ∧
    (0x200 ≤ code → n ≤ 8 → ¬ merges → 32 ≤ c.evr.queue.length → Completes .evrPost s (fun d =>
      (e ∈ c.evr.queue ∨ ((e ∈ d.evr.queue → ends 1 d) ∧ (e ∉ d.evr.queue → ends 4 d))) ∧
      d.evr = (c.handOver e).evr ∧
      OnlyRegs (R.EVR_POST_CTRL :: dropRegs) c d ∧ Keeps [.regs, .evr, .pwr] c d))) ∧
  (∀ (s : State) (failed : Fin 4),
    let c := s.chip
    let v := c.evr
    let row : Instr := .evrOperation failed
    let mayRun := c.alive = true ∧ v.started = true ∧ v.stopped = false
    let goes := mayRun ∧ (v.pendQ + v.pendF = 0 ∨ 32 ≤ v.queue.length)
    let frozen := c.bit R.EVR_FREEZE 0 = true
    let refused := failed = 3 ∨ c.bit R.EVR_INJECT 0 = true
    let gb := Area.base .general
    let fb := Area.base .floor
    let rootAt (d : Chip) := evrSlot0 + d.evr.rootSlot
    let rooted (d : Chip) : Prop :=
      let bs := d.slotBytes (rootAt d)
      let x := d.evr
      x.rootSlot = 1 - v.rootSlot ∧ x.rootSeq = (v.rootSeq + 1) % 65536 ∧ slotGood bs = true ∧ leAt bs 0 2 = x.rootSeq ∧
      leAt bs 8 2 = x.gtail % 65536 ∧ leAt bs 10 2 = x.ghead % 65536 ∧ leAt bs 12 2 = x.ftail % 65536 ∧
      leAt bs 14 2 = x.fhead % 65536 ∧ leAt bs 16 2 = x.gused % 65536 ∧ leAt bs 18 2 = x.fused % 65536 ∧
      leAt bs 20 2 = x.nInfo % 65536 ∧ leAt bs 22 2 = x.nNotice % 65536 ∧ leAt bs 24 2 = x.nError % 65536 ∧
      leAt bs 26 2 = x.nFatal % 65536 ∧ leAt bs 28 4 = x.dropQ % 2 ^ 32 ∧ leAt bs 32 4 = x.dropF % 2 ^ 32
    (¬ mayRun ∨ (mayRun ∧ v.pendQ + v.pendF = 0 ∧ v.queue = []) → Completes row s (Still c)) ∧
    (mayRun → ¬ goes → ∃ x : Event, x.code = 0x1001 ∧ x.sev = v.pendSev ∧ x.items =
      [BitVec.ofNat 64 v.pendQ, BitVec.ofNat 64 v.pendF, v.pendFirst, v.pendLast] ∧
      exec row s = exec row { s with chip := { c with evr := { v with
        queue := v.queue ++ [x], pendQ := 0, pendF := 0, pendSev := 0 } } }) ∧
    (∀ (e : Event) (rest : List Event), goes → v.queue = e :: rest →
      let ws := eventWords e c.jnl.pcc c.jnl.optime
      let n := ws.length
      let normal := v.degraded = false ∧ ¬ refused
      let h := v.ghead
      let start := if h + n ≤ 5104 then h else 0
      let cost := if h + n ≤ 5104 then n else 5104 - h + n
      let fresh := e.sev ≤ 2 ∧ (∀ i, v.last ≠ .general i e.code) ∧ h < 5104
      let w := c.mramWord (gb + v.gtail)
      let len := recLen w
      let shut := if h + len ≤ 5104 then v.gused + len else v.gused + (5104 - h) + len
      let dropped (d : Chip) : Prop := d.evr.queue = rest ∧ d.evr.pendF = v.pendF + 1 ∧
        d.fld R.EVR_DROPPED 31 16 = min (c.fld R.EVR_DROPPED 31 16 + 1) 0xFFFF ∧ d.bit (pIntStatus 0x04) 1 = true ∧
        OnlyRegs dropRegs c d ∧ Keeps [.regs, .evr, .pwr] c d
      (frozen → e.sev ≠ 3 → (∀ x ∈ v.queue, x.sev ≠ 3) → Completes row s (Still c)) ∧
      (∀ f, frozen → e.sev ≠ 3 → v.queue.find? (fun x => x.sev == 3) = some f → exec row s =
        exec row { s with chip := { c with evr := { v with queue := f :: v.queue.erase f } } }) ∧
      (normal → ¬ frozen → fresh → v.gused + cost ≤ 5072 → Completes row s (fun d =>
        (∀ j < n, d.mramWord (gb + start + j) = ws.getD j 0) ∧
        (5104 < h + n → d.mramWord (gb + h) = BitVec.ofNat 64 (5104 - h)) ∧
        d.evr = { v.count e.sev true with
          ghead := (start + n) % 5104, gused := v.gused + cost, last := .general start e.code, queue := rest
          rootSlot := 1 - v.rootSlot, rootSeq := (v.rootSeq + 1) % 65536 } ∧
        rooted d ∧ Keeps [.evr, .mram] c d)) ∧
      (v.degraded = false → ¬ frozen → fresh → 5072 < v.gused + cost →
        v.atMost e.sev = 0 ∨ (recCode w ≠ 0 ∧ e.sev < recSev w ∧ 5104 < shut) → Completes row s dropped) ∧
      (normal → ¬ frozen → fresh → 5072 < v.gused + cost →
        (v.atMost e.sev ≠ 0 → recCode w = 0 ∨ recSev w ≤ e.sev → Completes row s (fun d =>
          d.evr.gtail = (v.gtail + len) % 5104 ∧ d.evr.gused = v.gused - len ∧ d.evr.queue = v.queue ∧ rooted d ∧
          (∀ i, i / 8 ≠ rootAt d → d.mramWord i = c.mramWord i) ∧ Keeps [.evr, .mram] c d)) ∧
        (v.atMost e.sev ≠ 0 → recCode w ≠ 0 → e.sev < recSev w → shut ≤ 5104 →
          v.gtail < 5104 → (v.gtail + v.gused) % 5104 = h → Completes row s (fun d =>
          (∀ j < len, d.mramWord (gb + (if h + len ≤ 5104 then h else 0) + j) = c.mramWord (gb + v.gtail + j)) ∧
          d.evr.gtail = (v.gtail + len) % 5104 ∧ d.evr.gused = shut - len ∧ d.evr.queue = v.queue ∧ rooted d ∧
          Keeps [.evr, .mram] c d))) ∧
      (normal → e.sev = 3 → (∀ i, v.last ≠ .floor i e.code) → v.fhead < 1024 → n < 1024 → Completes row s (fun d =>
        let b := c.makeFloor n 1024
        let at0 := if v.fhead + n ≤ 1024 then v.fhead else 0
        let taken := if v.fhead + n ≤ 1024 then n else 1024 - v.fhead + n
        (v.fused + taken ≤ 1024 → b = c) ∧ Keeps [.evr] c b ∧
        (∀ j < n, d.mramWord (fb + at0 + j) = ws.getD j 0) ∧
        d.evr = { b.evr.count 3 true with
          fhead := (at0 + n) % 1024, fused := b.evr.fused + taken, last := .floor at0 e.code, queue := rest
          rootSlot := 1 - v.rootSlot, rootSeq := (v.rootSeq + 1) % 65536 } ∧
        rooted d ∧ d.bit (pIntStatus 0x04) 0 = true ∧ (frozen → d.bit (pIntStatus 0x04) 4 = true) ∧
        OnlyRegs [pIntStatus 0x04] c d ∧ Keeps [.regs, .evr, .mram, .pwr] c d)) ∧
      (∀ a i, normal → (a = gb ∧ v.last = .general i e.code ∧ e.sev ≠ 3 ∧ ¬ frozen ∧ i < 5103) ∨
          (a = fb ∧ v.last = .floor i e.code ∧ e.sev = 3 ∧ i < 1023) → Completes row s (fun d =>
        let x := (c.mramWord (a + i)).toNat
        let y := (d.mramWord (a + i)).toNat
        y / 2 ^ 24 % 2 ^ 16 = min (x / 2 ^ 24 % 2 ^ 16 + (e.repeats + 1)) 0xFFFF ∧ y % 2 ^ 24 = x % 2 ^ 24 ∧
        y / 2 ^ 40 = x / 2 ^ 40 ∧ rooted d ∧ d.evr = { v with
          queue := rest, rootSlot := 1 - v.rootSlot, rootSeq := (v.rootSeq + 1) % 65536 } ∧
        (∀ k, k / 8 ≠ rootAt d → k ≠ a + i → k ≠ a + i + 1 → d.mramWord k = c.mramWord k) ∧
        Keeps [.evr, .mram] c d)) ∧
      (¬ frozen ∨ e.sev = 3 → v.degraded = false → refused → e.sev = 3 ∨ v.gused + cost ≤ 5072 ∨
          (v.atMost e.sev ≠ 0 ∧ (recCode w = 0 ∨ recSev w ≤ e.sev ∨ shut ≤ 5104)) → Completes row s (fun d =>
        d.evr.degraded = true ∧ d.evr.queue = rest ∧ d.jnl.failed = (c.jnl.failed || failed == 3) ∧
        d.bit R.EVR_LW_STATUS 0 = true ∧ d.bit R.SYS_ALERT 0 = true ∧ d.bit (pIntStatus 0x04) 2 = true ∧
        d.bit R.EVR_INJECT 0 = false ∧ Keeps [.regs, .evr, .jnl, .pwr, .out] c d)) ∧
      (¬ frozen → v.degraded = false → refused → fresh → 5072 < v.gused + cost → v.atMost e.sev ≠ 0 → recCode w ≠ 0 →
        e.sev < recSev w → shut ≤ 5104 → exec row s = exec row { s with chip :=
          (((if failed = 3 then c.portFailed ((gb + h) / 8 - evrSlot0) else c.logFail ((gb + h) / 8 - evrSlot0) 6).setBit
            R.EVR_INJECT 0 false).mirrorWords ((List.range len).map (fun j => c.mramWord (gb + v.gtail + j)))
            (recCode w) (recSev w)) }) ∧
      (¬ frozen ∨ e.sev = 3 → v.degraded = true → (∀ i, v.last ≠ .mirror i e.code) →
        v.mirror.length + n ≤ c.mirrorPage → Completes row s (fun d => d.evr.queue = rest ∧
          (2 ≤ e.sev ∨ v.mirror.length + n = c.mirrorPage → d.evr.mirror = [] ∧
            d.out = c.out ++ [.nandPage 5 c.jnl.pcc v.mirrorIndex]) ∧
          (e.sev < 2 → v.mirror.length + n < c.mirrorPage → d.evr.mirror = v.mirror ++ ws ∧ d.out = c.out) ∧
          OnlyRegs [R.EVR_MIRROR_CNT] c d ∧ Keeps [.regs, .evr, .out] c d)) ∧
      (¬ frozen ∨ e.sev = 3 → v.degraded = true → (∀ i, v.last ≠ .mirror i e.code) → v.mirror ≠ [] →
        c.mirrorPage < v.mirror.length + n → Completes row s (fun d => d.evr.queue = rest ∧
          (∃ more, d.out = c.out ++ .nandPage 5 c.jnl.pcc v.mirrorIndex :: more) ∧
          OnlyRegs [R.EVR_MIRROR_CNT] c d ∧ Keeps [.regs, .evr, .out] c d)) ∧
      (∀ i, ¬ frozen ∨ e.sev = 3 → v.degraded = true → v.last = .mirror i e.code → Completes row s (fun d =>
        d.evr.queue = rest ∧ d.evr.mirror.length = v.mirror.length ∧ Keeps [.evr] c d)))) ∧
  (∀ (s : State) (v : Word) (timer : Bool), s.chip.alive = true →
    let c := s.chip
    let row : Instr := .evrMirrorProgram timer
    let sent (d : Chip) : Prop := d.evr.mirror = [] ∧ d.evr.mirrorIndex = c.evr.mirrorIndex + 1 ∧
      d.out = c.out ++ [.nandPage 5 c.jnl.pcc c.evr.mirrorIndex] ∧
      d.reg R.EVR_MIRROR_CNT = BitVec.ofNat 32 (min ((c.reg R.EVR_MIRROR_CNT).toNat + 1) 0xFFFFFFFF) ∧
      OnlyRegs [R.EVR_MIRROR_CNT] c d ∧ Keeps [.regs, .evr, .out] c d
    (c.inHoldup = false → c.evr.mirror = [] → Completes row s (Still c)) ∧
    (c.inHoldup = false → c.evr.mirror ≠ [] → Completes row s sent) ∧
    (c.inHoldup = true → Completes row s (fun d => d.evr.queue = [] ∧ d.evr.mirror = [] ∧
      d.evr.pendQ + d.evr.pendF = 0 ∧ OnlyRegs [R.EVR_MIRROR_CNT] c d ∧ Keeps [.regs, .evr, .out] c d)) ∧
    Completes (.evrFreeze v) s (fun d => d.reg R.EVR_FREEZE = v &&& 0xFFFF0001 ∧
      (v &&& 0xFFFE ≠ 0 → d.bit (pFault 0x04) 2 = true) ∧
      RegsOnly [R.EVR_FREEZE, pFault 0x04, pIntStatus 0x04] c d) ∧
    (c.bit R.EVR_FREEZE 0 = true → c.fld R.EVR_FREEZE 31 16 ≠ 0 → Completes .evrFreezeExpired s (fun d =>
      d.bit R.EVR_FREEZE 0 = false ∧ d.fld R.EVR_FREEZE 31 16 = c.fld R.EVR_FREEZE 31 16 ∧
      d.bit (pIntStatus 0x04) 3 = true ∧ RegsOnly [R.EVR_FREEZE, pIntStatus 0x04] c d)) ∧
    (c.bit R.EVR_FREEZE 0 = false ∨ c.fld R.EVR_FREEZE 31 16 = 0 → Completes .evrFreezeExpired s (Still c)) ∧
    (c.diagOpen = true → Completes .evrInjectLogfail s (fun d => d.bit R.EVR_INJECT 0 = true ∧
      OnlyRegs [R.EVR_INJECT] c d ∧ Keeps [.regs] c d)) ∧
    (c.diagOpen = false → Completes .evrInjectLogfail s (fun d => d.bit (pFault 0x04) 1 = true ∧
      RegsOnly [pFault 0x04, pIntStatus 0x04] c d)))

/-- Offset and gain follow R546 and are accepted within its limits, as are levels and the boost, also held to
the drift limits (R546). A target's result writes its correction or counts a rejection, and the last one ends
the plan or direct item with RESULT and counts (R539, R547, R549, R552); CAL_LIMIT ends it with 3 (R550). A
direct request starts its item or is refused with its code (R552). A drift of TEMP_C rises once (R553). A test
starts under its conditions or is refused with CAUSE 5 to 9 (R561 to R563), counts elements and failures
segment by segment, and ends at its last segment, by ABORT, yield or a lost precondition with RESULT, CAUSE,
counts and, where it passes, SIG equal to SIG_EXP (R564 to R568). A repair entry is applied or cleared, or
refused with 2, 3 or 4 (R574). PROGRAM queues one row for each entry not fused and shows FUSE_PENDING until
they are done; with no row left it ends at once with the full bit set (R575). -/
def Obligations.CalibrationAndSelfTestReportWhatTheyMeasure : Prop :=
  (∀ (a : Act) (t : CalTarget) (zero span : Int) (i f g ideal : Nat) (oLo oHi gLo gHi : Int) (oAt oW gAt gW : Nat),
    (i, f, g, ideal, oLo, oHi, gLo, gHi, oAt, oW, gAt, gW) ∈
      [(0, 16, 4096, 960, -96, 96, -409, 409, 0, 8, 16, 10), (2, 1, 64, 480, -8, 7, -16, 15, 0, 4, 8, 5),
       (3, 1, 64, 480, -8, 7, -16, 15, 0, 4, 8, 5), (5, 1, 16384, 327680, -256, 256, -819, 819, 16, 10, 0, 12),
       (7, 1, 4096, 16384, -40, 40, -204, 204, 0, 8, 16, 10)] → t.item = i →
    let o := spanOutcome a t zero span
    let ofs := -(roundDiv (f * zero) 4096)
    let gain := roundDiv (g * (ideal * 4096 - 10 * span)) (10 * span).toNat
    (o.good = true ↔ oLo ≤ ofs ∧ ofs ≤ oHi ∧ 0 < span ∧ gLo ≤ gain ∧ gain ≤ gHi) ∧
    (o.good = true → o.key = calKey a t ∧ o.word.getLsbD 31 = true ∧
      signed oW (field o.word (oAt + oW - 1) oAt) = ofs ∧ signed gW (field o.word (gAt + gW - 1) gAt) = gain)) ∧
  (∀ (c : Chip) (a : Act) (t : CalTarget) (up : Bool),
    let old := c.corrAt (calKey a t)
    let valid := old.getLsbD 31 = true
    (∀ v good, t.item = 4 ∨ t.item = 6 → ∃ o, c.calOutcome a t (.level v good) up = some o ∧
      (o.good = true ↔ good = true ∧
        (t.item = 4 → 0x040 ≤ v ∧ v ≤ 0xFC0 ∧
          (valid → ((v : Int) - field old 11 0).natAbs * 100 ≤ field old 11 0 * c.fld R.CAL_DRIFT 14 8)) ∧
        (t.item = 6 → 20 ≤ v ∧ v ≤ 230 ∧
          (valid → ((v : Int) - field old 7 0).natAbs * 100 ≤ field old 7 0 * c.fld R.CAL_DRIFT 22 16))) ∧
      (o.good = true → o.key = calKey a t ∧ o.word = BitVec.ofNat 32 (2 ^ 31 + v))) ∧
    (∀ r : Int, t.item = 8 → ∃ o, c.calOutcome a t (.temp r) up = some o ∧
      (o.good = true ↔ ((c.fld R.CAL_TEMP_KNOWN 10 0 : Int) - r).natAbs ≤ 128) ∧
      (o.good = true → o.word.getLsbD 31 = true ∧
        signed 12 (field o.word 11 0) = c.fld R.CAL_TEMP_KNOWN 10 0 - r)) ∧
    (∀ gs : List (Bool × Nat), t.item = 1 → (∀ e ∈ gs, e.2 < 2 ^ 32 - 1) → ∃ o,
      c.calOutcome a t (.boost gs) up = some o ∧
      let confirmed (j m : Nat) : Prop := j ≤ 30 ∧ gs[j]? = some (true, m)
      (o.good = true → (∃ j x y z, confirmed j x ∧ confirmed (j + 1) y ∧ confirmed (j + 2) z) ∧
        ∃ n m, o.word = BitVec.ofNat 32 (2 ^ 31 + n) ∧ confirmed n m ∧ (∀ j x, confirmed j x → m ≤ x ∧
          (x = m → ((n : Int) - field old 4 0).natAbs ≤ ((j : Int) - field old 4 0).natAbs)) ∧
        (valid → ((n : Int) - field old 4 0).natAbs ≤ c.fld R.CAL_DRIFT 4 0)))) ∧
  (∀ (s : State) (a : Act) (reference : BitVec 16) (m : CalMeasure) (item : Nat), s.chip.alive = true →
    s.chip.inHoldup = false →
    let c := s.chip
    let word (q : CalRun) (n : Nat) : Word :=
      BitVec.ofNat 32 (q.item + n * 16 + min 255 q.accepted * 256 + min 255 q.rejected * 65536)
    let result (q : CalRun) : Nat := if q.refBad then 6 else if q.rejected ≠ 0 then 2 else 1
    let far (t : CalTarget) : Prop := t.item ∈ [0, 5, 7, 8] ∧ 240 < ((reference.toNat : Int) - 24000).natAbs
    let off (t : CalTarget) : Prop := t.item = 4 ∧ c.fld (R.AS_CFG a) 1 0 = 0
    let fits (t : CalTarget) : Prop := far t ∨ off t ∨ (c.calOutcome a t m true).isSome = true
    let stepped (r : CalRun) (t : CalTarget) (ts : List CalTarget) (e : Chip) (q : CalRun) : Prop :=
      let r := { r with item := t.item }
      (t.item ∈ [0, 5, 7, 8] → e.reg R.CAL_REF_MEAS = reference.setWidth 32) ∧
      (far t → q = { r with refBad := true, todo := ts.filter (fun x => x.item != t.item) } ∧ e.corr = c.corr) ∧
      (¬ far t → off t → q = { r with todo := ts } ∧ e.corr = c.corr) ∧
      (¬ far t → ¬ off t → ∃ up o, c.calOutcome a t m up = some o ∧
        (o.good = true → q = { r with todo := ts, accepted := r.accepted + 1 } ∧
          (t.item ≠ 8 → e.corrAt o.key = o.word ∧ ∀ k, k ≠ o.key → e.corrAt k = c.corrAt k) ∧
          (t.item = 8 → e.reg (R.CAL_TEMP_OFS t.path) = o.word)) ∧
        (o.good = false → q = { r with todo := ts, rejected := r.rejected + 1 } ∧ e.corr = c.corr ∧
          e.reg R.CAL_REJECT_CNT = BitVec.ofNat 32 (min ((c.reg R.CAL_REJECT_CNT).toNat + 1) 0xFFFFFFFF) ∧
          e.bit (pIntStatus 0x06) 3 = true)) ∧
      OnlyRegs ([R.CAL_REF_MEAS, R.CAL_REJECT_CNT, pIntStatus 0x06, R.CAL_TEMP_OFS t.path] ++ dropRegs) c e ∧
      Keeps [.regs, .corr, .evr, .pwr, .freeCtr] c e
    let closed (q : CalRun) (n : Nat) (e f : Chip) : Prop :=
      let other := match a with | .A => e.sys.calB | .B => e.sys.calA
      f.reg (calResultReg a) = word q n ∧ f.cal.plan a = none ∧ f.calibrating a = false ∧
      f.bit (pIntStatus 0x06) a.toNat = true ∧
      f.fld R.CAL_TEMP_LAST (8 * a.toNat + 7) (8 * a.toNat) = e.loc.temp % 256 ∧
      f.sys.mode = if e.sys.mode = .calibrate ∧ other = false then .service else e.sys.mode
    let row : Instr := .calTargetResult (.plan a) reference m
    let direct : Instr := .calTargetResult (.direct item a) reference m
    let mine (x : CalRun) : Bool := x.item == item && x.act == a
    (c.cal.plan a = none ∨ c.channelFree a = false ∨ c.testing 21 = true → CompletesThen row s (fun d => d = c)) ∧
    (c.cal.dev.find? mine = none ∨ c.testing 21 = true → CompletesThen direct s (fun d => d = c)) ∧
    (∀ r t ts, c.cal.plan a = some r → r.act = a → r.todo = t :: ts → c.channelFree a = true → c.testing 21 = false →
      (¬ fits t → CompletesThen row s (fun d => d = c)) ∧
      (fits t → CompletesThen row s (fun d => ∃ e q, stepped r t ts e q ∧
        (∀ x xs, q.todo = x :: xs → d = e.setPlan a (some { q with item := x.item })) ∧
        (q.todo = [] → ∃ f, closed q (result q) e f ∧ d = f.runChannel a) ∧
        Keeps (mediaParts ++ [.sys, .corr, .cal]) c d))) ∧
    (∀ r t ts, c.cal.dev.find? mine = some r → r.todo = t :: ts → c.testing 21 = false →
      (¬ fits t → CompletesThen direct s (fun d => d = c)) ∧
      (fits t → CompletesThen direct s (fun d => ∃ e q, stepped r t ts e q ∧
        (q.todo ≠ [] → d.cal = { c.cal with dev := c.cal.dev.map (fun x => if mine x then q else x) }) ∧
        (q.todo = [] → ∃ f : Chip, f.reg R.CAL_RESULT_DEV = word q (result q) ∧ f.bit (pIntStatus 0x06) 2 = true ∧
          d = (f.runChannel .A).runChannel .B) ∧ Keeps (mediaParts ++ [.corr, .cal]) c d))) ∧
    (c.cal.plan a = none → CompletesThen (.calLimitReached a) s (fun d => d = c)) ∧
    (∀ r, c.cal.plan a = some r → CompletesThen (.calLimitReached a) s (fun d => ∃ f, closed r 3 c f ∧
      f.bit (pIntStatus 0x06) 4 = true ∧ f.corr = c.corr ∧ d = f.runChannel a ∧ Keeps (mediaParts ++ [.sys, .cal]) c d))) ∧
  (∀ (s : State) (a : Act) (item : Nat) (row : Instr), s.chip.alive = true →
    (row = .calDirectAdc a ∧ item = 0) ∨ (row = .calDirectPrecompDelay a ∧ item = 2) ∨
    (row = .calDirectAssistDelay a ∧ item = 3) ∨ (row = .calDirectMaDac a ∧ item = 5) ∨
    (row = .calDirectSensors ∧ item = 7 ∧ a = .A) ∨ (row = .calDirectTemp ∧ item = 8 ∧ a = .A) →
    let c := s.chip
    let stopped := (c.cle a).state = .off ∨ (c.cle a).state = .lost
    let n := if c.inHoldup = true then 5 else if item = 8 ∧ c.diagOpen = false then 4
      else if item = 7 ∨ item = 8 then (if c.cal.dev = [] then 1 else 3)
      else if item = 5 then (if stopped ∧ (∀ r ∈ c.cal.dev, r.item = 5 → r.act ≠ a) then 1 else 3)
      else if c.calOwns a = true ∨ (c.chan a).busy = true then 3 else 1
    let ts := (c.chan a).calTargets item (List.range 10) (List.range 8)
    let shown (d : Chip) : Prop := d.reg R.CAL_DIRECT = BitVec.ofNat 32 (item + a.toNat * 256 + n * 65536)
    let begun (d : Chip) : Prop := shown d ∧ OnlyRegs [R.CAL_DIRECT] c d ∧ Keeps [.regs, .cal] c d ∧
      d.cal = { c.cal with dev := c.cal.dev ++ [{ act := a, item := item, todo := ts }] }
    (n ≠ 1 → CompletesThen row s (fun d => shown d ∧ OnlyRegs [R.CAL_DIRECT] c d ∧ Keeps [.regs] c d)) ∧
    (n = 1 → ts = [] → CompletesThen row s (fun d => shown d ∧ d.reg R.CAL_RESULT_DEV = BitVec.ofNat 32 (item + 16) ∧
      d.bit (pIntStatus 0x06) 2 = true ∧ OnlyRegs [R.CAL_DIRECT, R.CAL_RESULT_DEV, pIntStatus 0x06] c d)) ∧
    (n = 1 → ts ≠ [] → item ≠ 7 → CompletesThen row s begun) ∧
    (n = 1 → item = 7 → CompletesThen row s (fun d => ∃ e : Chip, begun e ∧ d = e.withdraw ∧
      d.chanA.permit = false ∧ d.chanB.permit = false))) ∧
  (∀ (s : State) (a : Act) (temp : Nat), s.chip.alive = true → Completes (.tempDrift a temp) s (fun d =>
    let c := s.chip
    let watch := (match a with | .A => c.cal.watchA | .B => c.cal.watchB) = true
    let last := c.fld R.CAL_TEMP_LAST (8 * a.toNat + 7) (8 * a.toNat)
    let lim := c.fld R.CAL_DRIFT 29 24
    let drifts := watch ∧ lim ≠ 0 ∧ lim ≤ ((temp : Int) - last).natAbs
    d.loc = { c.loc with temp := temp } ∧ OnlyRegs [pIntStatus 0x06] c d ∧ Keeps [.regs, .loc, .cal, .pwr] c d ∧
    (drifts → d.bit (pIntStatus 0x06) 5 = true ∧ (match a with | .A => d.cal.watchA | .B => d.cal.watchB) = false) ∧
    (¬ drifts → d.cal = c.cal ∧ d.regs = c.regs))) ∧
  (∀ (s : State) (sel : Word) (t : Nat) (dev : Int) (analog : Bool), s.chip.alive = true →
    let c := s.chip
    let row : Instr := if analog then .bstAnalogTest sel t dev else .bstMemoryTest sel t dev
    let test := field sel 4 0
    let algo := field sel 9 8
    let start := if (memoryTest test).isSome then field sel 27 16 else 0
    let known : Bool := algo != 3 && (match memoryTest test with
      | some (segs, _) => decide (start < segs)
      | none => (analogTest test).isSome && field sel 27 16 != 0xFFF)
    let cause := if ¬ (7200 ≤ t ∧ t ≤ 7875) then 5 else if known = true ∧ test ≠ 20 ∧ 20 < dev.natAbs then 6
      else if known = true ∧ c.testAllowed test = false then 7 else if c.inHoldup = true then 8
      else if known = false then 9 else 0
    let pages := [pFault 0x07, pIntStatus 0x07]
    let taken (d : Chip) : Prop := d.reg R.BST_TEST = sel &&& 0x0FFF131F ∧
      d.reg R.BST_PRECOND = BitVec.ofNat 32 (t / 10 % 1024 + unsigned 8 dev * 65536)
    (c.diagOpen = false → Completes row s (fun d => d.bit (pFault 0x07) 1 = true ∧ RegsOnly pages c d)) ∧
    (c.diagOpen = true → c.bst.run ≠ none → Completes row s (fun d => d.bit (pFault 0x07) 3 = true ∧ d.bst = c.bst ∧
      RegsOnly (R.BST_TEST :: pages) c d)) ∧
    (c.diagOpen = true → c.bst.run = none → cause ≠ 0 → Completes row s (fun d => taken d ∧
      d.reg R.BST_RESULT = BitVec.ofNat 32 (4 + cause * 16 + test * 256 + algo * 65536) ∧
      RegsOnly ([R.BST_TEST, R.BST_PRECOND, R.BST_RESULT] ++ pages) c d)) ∧
    (c.diagOpen = true → c.bst.run = none → cause = 0 → Completes row s (fun d => taken d ∧
      (∃ sig, d.bst = { c.bst with run := some { test := test, algo := algo, repair := sel.getLsbD 12, start := start,
                                                 seg := start, sig := sig } }) ∧
      d.reg R.BST_STATUS = BitVec.ofNat 32 (1 + test * 256 + start * 65536) ∧ d.bit (pStatus (testPage test)) 31 = true ∧
      Keeps [.regs, .bst, .freeCtr, .pwr, .cpu, .mem, .evr] c d ∧
      (test ≠ 3 → Keeps [.regs, .bst, .freeCtr, .pwr] c d)))) ∧
  (∀ (s : State) (el : Nat) (fs : List BstFail) (t : Nat) (dev : Int), s.chip.alive = true →
    let c := s.chip
    let noted (r : BstRun) : BstRun :=
      let mem := (memoryTest r.test).isSome
      { r with
        fails := r.fails + (fs.map (fun (f : BstFail) => if mem then f.place % 512 else f.place)).eraseDups.length
        first := if r.first.isSome then r.first else fs.head?.map (fun f =>
          (if mem then r.seg * 4096 + f.place % 512 * 8 else f.place, if mem then f.bit % 128 else 0, f.element)) }
    let ended (r : BstRun) (cause : Nat) (d : Chip) : Prop :=
      let n := if r.fails ≠ 0 then 2 else if cause = 0 ∧ r.done = r.planned then 1 else 3
      d.bst.run = none ∧ d.reg R.BST_STATUS = 0 ∧ d.reg R.BST_RESULT = BitVec.ofNat 32
        (n + (if cause = 0 then 8 else 0) + cause * 16 + r.test * 256 + r.algo * 65536) ∧
      d.reg R.BST_PLANNED = BitVec.ofNat 32 r.planned ∧ d.reg R.BST_PATTERN_COUNT = BitVec.ofNat 32 r.done ∧
      d.reg R.BST_FAIL_CNT = BitVec.ofNat 32 (min r.fails 0xFFFF) ∧ d.reg R.BST_NEXT_SEG = BitVec.ofNat 32 r.seg ∧
      d.bit (pIntStatus 0x07) 0 = true ∧ (n = 2 → d.bit (pIntStatus 0x07) 1 = true) ∧
      (n = 3 → d.bit (pIntStatus 0x07) 2 = true) ∧ d.reg R.BST_SIG_EXP = r.sig ∧ (n = 1 → d.reg R.BST_SIG = r.sig)
    let cut (r : BstRun) (cause : Nat) (d : Chip) : Prop :=
      let top := if (memoryTest r.test).isSome then elementsOf r.algo - 1 else r.planned - 1
      ended { noted r with done := r.done + min el top } cause d ∧ d.bst.soft = c.bst.soft ∧
      Keeps [.regs, .bst, .evr, .pwr, .freeCtr] c d
    (c.bst.run = none → Completes (.bstSegmentDone fs) s (Still c) ∧ Completes (.bstYieldExpiry el fs) s (Still c) ∧
      Completes (.bstPrecondCheck t dev el fs) s (Still c)) ∧
    (c.diagOpen = true → c.bst.run = none → Completes (.bstAbort el fs) s (Still c)) ∧
    (c.diagOpen = false → Completes (.bstAbort el fs) s (fun d => d.bit (pFault 0x07) 1 = true ∧
      RegsOnly [pFault 0x07, pIntStatus 0x07] c d)) ∧
    (∀ r, c.bst.run = some r →
      let then_ (P : Chip → Prop) (d : Chip) : Prop :=
        if r.test = 16 ∨ r.test = 17 then ∃ e : Chip, P e ∧ d = (e.runChannel (if r.test = 16 then .A else .B)).settle
        else P d
      (memoryTest r.test = none → Completes (.bstSegmentDone fs) s (then_ (fun d =>
        ended { noted r with done := r.planned } 0 d ∧ Keeps [.regs, .bst, .evr, .pwr, .freeCtr] c d))) ∧
      (∀ segs subs, memoryTest r.test = some (segs, subs) → Completes (.bstSegmentDone fs) s (fun d =>
        let next := { noted r with done := r.done + elementsOf r.algo, seg := r.seg + 1 }
        (r.seg + 1 < segs → d.bst.run = some next ∧
          d.reg R.BST_STATUS = BitVec.ofNat 32 (1 + r.test * 256 + (r.seg + 1) * 65536)) ∧
        (segs ≤ r.seg + 1 → ended next 0 d) ∧ (r.repair = false → d.bst.soft = c.bst.soft) ∧
        Keeps [.regs, .bst, .evr, .pwr, .freeCtr, .cpu, .mem] c d)) ∧
      (c.diagOpen = true → Completes (.bstAbort el fs) s (then_ (cut r 4))) ∧
      Completes (.bstYieldExpiry el fs) s (then_ (cut r 1)) ∧
      (¬ (7200 ≤ t ∧ t ≤ 7875) → Completes (.bstPrecondCheck t dev el fs) s (then_ (cut r 5))) ∧
      (7200 ≤ t → t ≤ 7875 → r.test ≠ 20 → 20 < dev.natAbs →
        Completes (.bstPrecondCheck t dev el fs) s (then_ (cut r 6))) ∧
      (7200 ≤ t → t ≤ 7875 → r.test = 20 ∨ dev.natAbs ≤ 20 → Completes (.bstPrecondCheck t dev el fs) s (fun d =>
        d.reg R.BST_PRECOND = BitVec.ofNat 32 (t / 10 % 1024 + unsigned 8 dev * 65536) ∧
        RegsOnly [R.BST_PRECOND] c d)))) ∧
  (∀ (s : State) (target : BitVec 12) (clear : Bool), s.chip.alive = true →
    let c := s.chip
    let row : Instr := if clear then .bstRepairClear target else .bstRepairApply target
    let sel := c.repairSel
    let inRange : Bool := match memoryTest sel.1 with
      | some (segs, subs) => decide (sel.2.1 < subs) &&
        (if sel.2.2 < 2 then decide (target.toNat < segs / subs * 8) else decide (target.toNat < 72))
      | none => false
    let fused : Bool := match c.bst.entry sel with
      | some e => c.fuses.repairs.contains e
      | none => false
    let n := if c.bst.run ≠ none then 4
      else if inRange = false ∨ clear ≠ (c.bst.entry sel).isSome then 2
      else if clear = true ∧ fused = true then 3 else 1
    (c.diagOpen = false → Completes row s (fun d => d.bit (pFault 0x07) 1 = true ∧
      RegsOnly [pFault 0x07, pIntStatus 0x07] c d)) ∧
    (c.diagOpen = true → Completes row s (fun d =>
      d.reg R.BST_REPAIR_CMD = BitVec.ofNat 32 ((if clear then 2 ^ 30 else 0) + n * 2 ^ 27 + target.toNat) ∧
      (n ≠ 1 → RegsOnly [R.BST_REPAIR_CMD] c d) ∧
      (n = 1 → clear = false → d.bst = { c.bst with soft := c.bst.soft ++ [⟨sel.1, sel.2.1, sel.2.2, target.toNat⟩] }) ∧
      (∀ e, n = 1 → clear = true → c.bst.entry sel = some e →
        d.bst = { c.bst with soft := c.bst.soft.filter (· != e) }) ∧
      Keeps [.regs, .bst, .pwr, .cpu, .mem, .evr] c d))) ∧
  (∀ (s : State) (verified : List Bool), s.chip.alive = true →
    let c := s.chip
    let es := c.bst.soft.filter (fun e => !c.fuses.repairs.contains e)
    let rows := c.fuses.repairRows
    (c.diagOpen = false → Completes (.bstFuseProgram verified) s (fun d => d.bit (pFault 0x07) 1 = true ∧
      RegsOnly [pFault 0x07, pIntStatus 0x07] c d)) ∧
    (c.diagOpen = true → c.effective ≠ 1 → Completes (.bstFuseProgram verified) s (fun d =>
      d.bit (pFault 0x07) 4 = true ∧ RegsOnly [pFault 0x07, pIntStatus 0x07] c d)) ∧
    (c.diagOpen = true → c.effective = 1 → c.bst.fusing ≠ [] → Completes (.bstFuseProgram verified) s (fun d =>
      OnlyRegs [] c d ∧ Keeps [.pwr] c d)) ∧
    (c.diagOpen = true → c.effective = 1 → c.bst.fusing = [] → Completes (.bstFuseProgram verified) s (fun d =>
      (es ≠ [] → rows < 96 → d.bst.fusePending = true ∧ d.lcsBusy = true ∧ d.bst.fusing.map (·.1) = es ∧
        (∀ i < es.length, (d.bst.fusing.map (·.2))[i]? = some (verified.getD i true)) ∧
        d.reg R.BST_FUSE_STATUS = BitVec.ofNat 32 (rows + 256) ∧ OnlyRegs [R.BST_FUSE_STATUS] c d) ∧
      (es = [] → d.bst.fusing = [] ∧ d.bst.fusePending = false ∧ d.bit (pIntStatus 0x07) 4 = true ∧
        d.reg R.BST_FUSE_STATUS = BitVec.ofNat 32 rows) ∧
      (es ≠ [] → 96 ≤ rows → d.bst.fusing = [] ∧ d.bst.fusePending = true ∧ d.bit (pIntStatus 0x07) 4 = true ∧
        (rows < 256 → d.bit R.BST_FUSE_STATUS 8 = true ∧ d.bit R.BST_FUSE_STATUS 9 = true)) ∧
      d.bst.soft = c.bst.soft ∧ d.bst.run = c.bst.run ∧ OnlyRegs [R.BST_FUSE_STATUS, pIntStatus 0x07] c d ∧
      Keeps [.regs, .bst, .pwr] c d)))

/-- EXTEST, SAMPLE/PRELOAD and IDCODE are selected in every state, REG_ACCESS and CORE_DEBUG where JTAG is
open, SCAN in BLANK with TEST_EN, and any other code selects BYPASS; EXTEST drives the boundary register,
IDCODE shifts out 0xB486_0E35 (R66, R619). An Update-DR of REG_ACCESS gives STATUS 4 where the port closed, 3
without clocks or at a pending slot, 2 at an error response, else 1 with one write, or one read, whose mark
sets POISON (R81, R436, R619). A selected source's packet has TYPE, LEN, at most 62 payload bytes and CRC;
behind a due sync and overflow packet it is sent, or, where the buffer is full, dropped and counted with
TRC_DROP; where the port is closed nothing is sent (R620, R623). The UART holds 32 bytes each way: TX_FULL,
RX, RX_OVF (R622, R623). -/
def Obligations.DebugPortsServeOnlyWhereTheLifeCycleOpensThem : Prop :=
  (∀ (s : State) (bs : List Bool) (code : BitVec 8),
    let c := s.chip
    let isOpen := c.effective = 0 ∨ c.effective = 1 ∨ c.effective = 3
    let available := code = 0x00 ∨ code = 0x01 ∨ code = 0x02 ∨ ((code = 0x10 ∨ code = 0x11) ∧ isOpen) ∨
      (code = 0x12 ∧ c.effective = 0 ∧ c.dbg.testEn = true)
    let picks (n : Nat) (d : Chip) : Prop := Keeps [.dbg] c d ∧ d.dbg = { c.dbg with
      ir := n, driving := false, scan := c.dbg.scan || n == 0x12 }
    (c.jtagOpen = true ↔ isOpen) ∧
    Completes .jtagExtest s (fun d => d.dbg = { c.dbg with ir := 0, driving := true } ∧
      d.out = c.out ++ [.balls c.dbg.boundary] ∧ Keeps [.dbg, .out] c d) ∧
    Completes (.jtagSamplePreload bs) s (fun d => Keeps [.dbg] c d ∧
      d.dbg = { c.dbg with ir := 1, driving := false, boundary := bs }) ∧
    Completes .jtagIdcode s (fun d => d.dbg = { c.dbg with ir := 2, driving := false } ∧
      d.out = c.out ++ [.jtag 32 0xB4860E35] ∧ Keeps [.dbg, .out] c d) ∧
    (isOpen → Completes .jtagCoreDebug s (picks 0x11)) ∧ (¬ isOpen → Completes .jtagCoreDebug s (picks 0xFF)) ∧
    (c.effective = 0 → c.dbg.testEn = true → Completes .jtagScan s (fun d => picks 0x12 d ∧ d.dbg.scan = true)) ∧
    (c.effective ≠ 0 ∨ c.dbg.testEn = false → Completes .jtagScan s (picks 0xFF)) ∧
    (available → code ≠ 0 → Completes (.jtagBypass code) s (picks code.toNat)) ∧
    (¬ available → Completes (.jtagBypass code) s (picks 0xFF)) ∧
    (code = 0 → exec (.jtagBypass code) s = exec .jtagExtest s)) ∧
  (∀ (s : State) (addr : BitVec 36) (data : Word) (write : Bool),
    let c := s.chip
    let a := addr.toNat
    let row : Instr := .jtagRegAccess addr data write
    let e : Chip := { c with dbg := { c.dbg with ir := 0x10, driving := false } }
    let region := regionOf c.mem c.carveBytes a
    let live := c.jtagOpen = true ∧ c.alive = true ∧ a % 4 = 0
    let fails (n : Nat) : Prop := CompletesThen row s (fun d => d.dbg.regStatus = n ∧ d.dbg.ir = 0x10 ∧ Keeps [.dbg] c d)
    (c.jtagOpen = false → c.dbg.ir ≠ 0x10 → CompletesThen row s (fun d => d.dbg.ir = 0xFF ∧
      d.dbg.regStatus = c.dbg.regStatus ∧ Keeps [.dbg] c d)) ∧
    (c.jtagOpen = false → c.dbg.ir = 0x10 → fails 4) ∧
    (c.jtagOpen = true → c.alive = false → fails 3) ∧
    (c.jtagOpen = true → c.alive = true → a % 4 ≠ 0 → fails 2) ∧
    (live → region = none → fails 2) ∧
    (live → region = some .regs → populated ((a - 0x40000000) / 4096) = false → fails 2) ∧
    (live → write = true → region = some .bootRom ∨ region = some .zoneTable ∨ region = some .ldpc ∨
      region = some .mram → fails 2) ∧
    (live → region = some .regs → populated ((a - 0x40000000) / 4096) = true →
      (write = true → CompletesThen row s (fun d =>
        let f := e.busWrite (a - 0x40000000) data
        d = { f with dbg := { f.dbg with regStatus := 1, regData := data } })) ∧
      (write = false → CompletesThen row s (fun d =>
        let p := e.busRead .jtag (a - 0x40000000)
        d = { p.2 with dbg := { p.2.dbg with regStatus := 1, regData := p.1 } }))) ∧
    (∀ q, live → region = some q → q ∈ [.staging, .carve, .tcmA, .tcmB, .dram] →
      (c.slotPending a 4 = true → fails 3) ∧
      (c.slotPending a 4 = false → write = true → CompletesThen row s (fun d => d.dbg.regStatus = 1 ∧
        (∀ i < 4, d.mem.byte (a + i) = (leBytes 4 data.toNat).getD i 0) ∧
        (∀ b, b / 8 ≠ a / 8 → d.mem.byte b = c.mem.byte b) ∧ Keeps [.regs, .mem, .evr, .pwr, .dbg] c d)) ∧
      (c.slotPending a 4 = false → write = false → c.filled q = true → CompletesThen row s (fun d =>
        let p := e.readRange a 4
        d.dbg.regStatus = 1 ∧ d.dbg.regData = BitVec.ofNat 32 (leNat p.1) ∧ d.mem = p.2.2.mem ∧
        (p.2.1 = true → d.bit R.DBG_JTAG 1 = true) ∧ (p.2.1 = false → d.regs = p.2.2.regs) ∧
        Keeps [.regs, .mem, .evr, .pwr, .dbg] c d)) ∧
      (c.slotPending a 4 = false → write = false → c.filled q = false → CompletesThen row s (fun d =>
        d.dbg.regStatus = 1 ∧ d.bit R.DBG_JTAG 1 = true ∧ OnlyRegs [R.DBG_JTAG] c d ∧
        Keeps [.regs, .dbg, .freeCtr] c d)))) ∧
  (∀ (s : State) (src : TraceSource) (drained : Nat), s.chip.alive = true →
    let c := s.chip
    let row : Instr := .tracePacket src drained
    let typ := match src with
      | .flow n _ => 0x10 + n.val
      | .event _ _ _ => 0x20
      | .sample .A => 0x30
      | .sample .B => 0x31
      | .watch _ _ _ _ => 0x40
    let selected := match src with
      | .flow n _ => c.bit R.DBG_TRC_SEL (8 + n.val) = true
      | .event _ _ _ => c.bit R.DBG_TRC_SEL 0 = true
      | .sample .A => c.bit R.DBG_TRC_SEL 1 = true
      | .sample .B => c.bit R.DBG_TRC_SEL 2 = true
      | .watch addr _ _ _ => c.bit R.DBG_TRC_SEL 16 = true ∧ c.watchHit addr.toNat = true
    let goes := c.bit R.DBG_TRC_CTRL 0 = true ∧ c.jtagOpen = true ∧ selected
    let payload := c.tracePayload src
    let p := tracePacket typ payload
    let due : Bool := match c.dbg.traceSince with
      | none => true
      | some n => decide (4096 ≤ n)
    let sync := if due then [Out.trace (tracePacket 0x01 (leBytes 8 c.dtm.dtime.toNat))] else []
    let lost := c.dbg.traceLost
    let used := c.dbg.traceUsed - drained + (if due then 11 else 0) + p.length + (if lost = 0 then 0 else 7)
    (p = BitVec.ofNat 8 typ :: BitVec.ofNat 8 payload.length :: payload ++
      [crc8Bytes (BitVec.ofNat 8 typ :: BitVec.ofNat 8 payload.length :: payload)] ∧ payload.length ≤ 62) ∧
    (¬ goes → Completes row s (Still c)) ∧
    (goes → used ≤ 16384 → Completes row s (fun d => d.out = c.out ++ sync ++
      (if lost = 0 then [] else [.trace (tracePacket 0x02 (leBytes 4 lost))]) ++ [.trace p] ∧
      d.dbg.traceUsed = used ∧ d.dbg.traceLost = 0 ∧ Keeps [.dbg, .out] c d)) ∧
    (goes → 16384 < used → Completes row s (fun d => d.out = c.out ++ sync ∧
      d.dbg.traceLost = (if lost < 0xFFFFFFFF then lost + 1 else 0xFFFFFFFF) ∧
      d.reg R.DBG_TRC_DROP = BitVec.ofNat 32 (min ((c.reg R.DBG_TRC_DROP).toNat + 1) 0xFFFFFFFF) ∧
      d.bit (pIntStatus 0x58) 2 = true ∧ OnlyRegs [R.DBG_TRC_DROP, pIntStatus 0x58] c d ∧
      Keeps [.regs, .dbg, .out, .pwr] c d))) ∧
  (∀ (s : State) (v : Word) (b : Byte), s.chip.alive = true →
    let c := s.chip
    (32 ≤ c.dbg.uartTx.length → Completes (.dbgUartTx v) s (fun d => d.bit (pFault 0x58) 4 = true ∧
      RegsOnly [pFault 0x58, pIntStatus 0x58] c d)) ∧
    (c.dbg.uartTx.length < 32 → Completes (.dbgUartTx v) s (fun d =>
      d.dbg = { c.dbg with uartTx := c.dbg.uartTx ++ [v.setWidth 8] } ∧
      OnlyRegs [pFault 0x58, pIntStatus 0x58] c d ∧ Keeps [.regs, .dbg, .pwr] c d)) ∧
    (32 ≤ c.dbg.uartRx.length → Completes (.dbgUartRxByte b) s (fun d => d.bit R.DBG_UART_STATUS 16 = true ∧
      OnlyRegs [R.DBG_UART_STATUS] c d ∧ Keeps [.regs] c d)) ∧
    (c.dbg.uartRx.length < 32 → Completes (.dbgUartRxByte b) s (fun d => d.bit (pIntStatus 0x58) 0 = true ∧
      d.dbg = { c.dbg with uartRx := c.dbg.uartRx ++ [b] } ∧ OnlyRegs [pIntStatus 0x58] c d ∧
      Keeps [.regs, .dbg, .pwr] c d)) ∧
    Completes .dbgUartRxRead s (fun d => d.dbg = { c.dbg with uartRx := c.dbg.uartRx.tail } ∧
      d.out = c.out ++ [.read (match c.dbg.uartRx with
        | [] => [0, 0, 0, 0]
        | b :: _ => [b, 0, 0, 0x80])] ∧ Keeps [.dbg, .pwr, .out] c d) ∧
    Completes .dbgUartStatusRead s (fun d => d.bit R.DBG_UART_STATUS 16 = false ∧
      (∃ v : Word, d.out = c.out ++ [.read (leBytes 4 v.toNat)] ∧ v.getLsbD 16 = c.bit R.DBG_UART_STATUS 16 ∧
        (c.dbg.uartTx.length ≤ 32 → c.dbg.uartRx.length ≤ 32 → field v 7 0 = c.dbg.uartTx.length ∧
          field v 15 8 = c.dbg.uartRx.length)) ∧
      OnlyRegs [R.DBG_UART_STATUS] c d ∧ Keeps [.regs, .pwr, .out] c d))
end

