-- ==== Sys2Proof/Laws/SMap.lean ====
section
/-! SUPPORT. Sparse maps: a read after a write, keys that a write leaves alone, and the canonical form, which every
operation keeps. -/

namespace Sys2Proof.Machine

variable {α : Type}

theorem SMap.find?_erase_self (m : SMap α) (k : Nat) : (m.erase k).find? k = none := by
  induction m with
  | nil => rfl
  | cons e m ih =>
    obtain ⟨j, v⟩ := e
    by_cases h : j = k <;> simp [SMap.erase, SMap.find?, h, ih]

theorem SMap.find?_erase_ne (m : SMap α) {k j : Nat} (h : j ≠ k) : (m.erase k).find? j = m.find? j := by
  induction m with
  | nil => rfl
  | cons e m ih =>
    obtain ⟨i, v⟩ := e
    by_cases hi : i = k
    · subst hi; simp [SMap.erase, SMap.find?, Ne.symm h, ih]
    · by_cases hj : i = j
      · subst hj; simp [SMap.erase, SMap.find?, hi]
      · simp [SMap.erase, SMap.find?, hi, hj, ih]

theorem SMap.find?_insertAt_self (m : SMap α) (k : Nat) (v : α) (h : m.find? k = none) :
    (SMap.insertAt m k v).find? k = some v := by
  induction m with
  | nil => simp [SMap.insertAt, SMap.find?]
  | cons e m ih =>
    obtain ⟨j, w⟩ := e
    by_cases hj : j = k
    · simp [SMap.find?, hj] at h
    · simp only [SMap.find?, hj, if_false] at h
      by_cases hk : k < j <;> simp [SMap.insertAt, SMap.find?, hk, hj, ih h]

theorem SMap.find?_insertAt_ne (m : SMap α) {k j : Nat} (v : α) (h : j ≠ k) :
    (SMap.insertAt m k v).find? j = m.find? j := by
  induction m with
  | nil => simp [SMap.insertAt, SMap.find?, Ne.symm h]
  | cons e m ih =>
    obtain ⟨i, w⟩ := e
    by_cases hk : k < i
    · simp [SMap.insertAt, SMap.find?, hk, Ne.symm h]
    · by_cases hj : i = j
      · subst hj; simp [SMap.insertAt, SMap.find?, hk]
      · simp [SMap.insertAt, SMap.find?, hk, hj, ih]

/-- A key set reads back. -/
@[simp] theorem SMap.find?_set_self (m : SMap α) (k : Nat) (v : α) : (m.set k v).find? k = some v :=
  SMap.find?_insertAt_self _ _ _ (SMap.find?_erase_self m k)

/-- Setting a key leaves every other key. -/
theorem SMap.find?_set_ne (m : SMap α) {k j : Nat} (v : α) (h : j ≠ k) : (m.set k v).find? j = m.find? j := by
  rw [SMap.set, SMap.find?_insertAt_ne _ _ h, SMap.find?_erase_ne _ h]

theorem SMap.find?_set (m : SMap α) (k j : Nat) (v : α) :
    (m.set k v).find? j = if j = k then some v else m.find? j := by
  split
  · next h => subst h; simp
  · next h => exact SMap.find?_set_ne m v h

/-- A read after a write of any key. -/
theorem SMap.get_put [DecidableEq α] (d : Nat → α) (m : SMap α) (k j : Nat) (v : α) :
    SMap.get d (SMap.put d m k v) j = if j = k then v else SMap.get d m j := by
  unfold SMap.get SMap.put
  by_cases hv : v = d k
  · by_cases hj : j = k
    · subst hj; simp [hv, SMap.find?_erase_self]
    · simp [hv, hj, SMap.find?_erase_ne]
  · by_cases hj : j = k
    · subst hj; simp [hv]
    · simp [hv, hj, SMap.find?_set_ne]

@[simp] theorem SMap.get_put_self [DecidableEq α] (d : Nat → α) (m : SMap α) (k : Nat) (v : α) :
    SMap.get d (SMap.put d m k v) k = v := by simp [SMap.get_put]

theorem SMap.get_put_ne [DecidableEq α] (d : Nat → α) (m : SMap α) {k j : Nat} (v : α) (h : j ≠ k) :
    SMap.get d (SMap.put d m k v) j = SMap.get d m j := by simp [SMap.get_put, h]

@[simp] theorem SMap.get_nil (d : Nat → α) (k : Nat) : SMap.get d [] k = d k := rfl

/-- The canonical form, entry by entry. -/
theorem SMap.wf_iff [DecidableEq α] (d : Nat → α) (m : SMap α) :
    SMap.wf d m = true ↔ (∀ e ∈ m, e.2 ≠ d e.1) ∧ m.Pairwise (fun a b => a.1 < b.1) := by
  induction m with
  | nil => simp [SMap.wf]
  | cons e m ih =>
    obtain ⟨k, v⟩ := e
    cases m with
    | nil => simp [SMap.wf]
    | cons f m =>
      obtain ⟨j, w⟩ := f
      simp only [SMap.wf, Bool.and_eq_true, decide_eq_true_eq, ih, List.pairwise_cons, List.mem_cons]
      constructor
      · rintro ⟨⟨hv, hk⟩, hd, hj, hp⟩
        refine ⟨?_, ?_, hj, hp⟩
        · rintro e (rfl | h)
          · exact hv
          · exact hd e h
        · rintro e (rfl | h)
          · exact hk
          · exact lt_trans hk (hj e h)
      · rintro ⟨hd, hk, hj, hp⟩
        exact ⟨⟨hd _ (.inl rfl), hk _ (.inl rfl)⟩, fun e h => hd e (.inr h), hj, hp⟩

theorem SMap.mem_erase (m : SMap α) (k : Nat) (e : Nat × α) : e ∈ m.erase k ↔ e ∈ m ∧ e.1 ≠ k := by
  induction m with
  | nil => simp [SMap.erase]
  | cons f m ih =>
    obtain ⟨j, v⟩ := f
    by_cases h : j = k
    · subst h
      simp only [SMap.erase, if_true, ih, List.mem_cons]
      constructor
      · rintro ⟨a, b⟩; exact ⟨.inr a, b⟩
      · rintro ⟨rfl | a, b⟩
        · exact absurd rfl b
        · exact ⟨a, b⟩
    · simp only [SMap.erase, h, if_false, List.mem_cons, ih]
      constructor
      · rintro (rfl | ⟨a, b⟩)
        · exact ⟨.inl rfl, h⟩
        · exact ⟨.inr a, b⟩
      · rintro ⟨rfl | a, b⟩
        · exact .inl rfl
        · exact .inr ⟨a, b⟩

theorem SMap.erase_sublist (m : SMap α) (k : Nat) : (m.erase k).Sublist m := by
  induction m with
  | nil => exact List.Sublist.refl _
  | cons f m ih =>
    obtain ⟨j, v⟩ := f
    by_cases h : j = k
    · simpa [SMap.erase, h] using ih.trans (List.sublist_cons_self _ _)
    · simpa [SMap.erase, h] using ih

theorem SMap.mem_insertAt (m : SMap α) (k : Nat) (v : α) (e : Nat × α) :
    e ∈ SMap.insertAt m k v ↔ e = (k, v) ∨ e ∈ m := by
  induction m with
  | nil => simp [SMap.insertAt]
  | cons f m ih =>
    obtain ⟨j, w⟩ := f
    by_cases h : k < j
    · simp [SMap.insertAt, h]
    · simp only [SMap.insertAt, h, if_false, List.mem_cons, ih]; tauto

theorem SMap.pairwise_insertAt (m : SMap α) (k : Nat) (v : α) (hm : m.Pairwise (fun a b => a.1 < b.1))
    (hk : ∀ e ∈ m, e.1 ≠ k) : (SMap.insertAt m k v).Pairwise (fun a b => a.1 < b.1) := by
  induction m with
  | nil => simp [SMap.insertAt]
  | cons f m ih =>
    obtain ⟨j, w⟩ := f
    rw [List.pairwise_cons] at hm
    by_cases h : k < j
    · simp only [SMap.insertAt, h, if_true, List.pairwise_cons, List.mem_cons]
      refine ⟨?_, hm.1, hm.2⟩
      rintro e (rfl | he)
      · exact h
      · exact lt_trans h (hm.1 e he)
    · have hjk : j < k := lt_of_le_of_ne (not_lt.mp h) (hk (j, w) (by simp))
      simp only [SMap.insertAt, h, if_false, List.pairwise_cons, SMap.mem_insertAt]
      refine ⟨?_, ih hm.2 fun e he => hk e (by simp [he])⟩
      rintro e (rfl | he)
      · exact hjk
      · exact hm.1 e he

/-- A write keeps the canonical form. -/
theorem SMap.wf_put [DecidableEq α] (d : Nat → α) (m : SMap α) (k : Nat) (v : α) (h : SMap.wf d m = true) :
    SMap.wf d (SMap.put d m k v) = true := by
  obtain ⟨hd, hp⟩ := (SMap.wf_iff d m).mp h
  have he : (m.erase k).Pairwise (fun a b => a.1 < b.1) := hp.sublist (SMap.erase_sublist m k)
  rw [SMap.wf_iff]
  unfold SMap.put
  split
  · exact ⟨fun e hm => hd e ((SMap.mem_erase m k e).mp hm).1, he⟩
  · next hv =>
    refine ⟨?_, SMap.pairwise_insertAt _ _ _ he fun e hm => ((SMap.mem_erase m k e).mp hm).2⟩
    intro e hm
    rcases (SMap.mem_insertAt _ _ _ _).mp hm with rfl | hm
    · exact hv
    · exact hd e ((SMap.mem_erase m k e).mp hm).1

/-- Dropping entries keeps the canonical form. -/
theorem SMap.wf_filter [DecidableEq α] (d : Nat → α) (m : SMap α) (p : Nat × α → Bool) (h : SMap.wf d m = true) :
    SMap.wf d (m.filter p) = true := by
  rw [SMap.wf_iff] at h ⊢
  exact ⟨fun e he => h.1 e (List.mem_filter.mp he).1, h.2.filter p⟩

/-- Entries kept by their key read as before. -/
theorem SMap.find?_filter_pos (m : SMap α) (p : Nat → Bool) {k : Nat} (h : p k = true) :
    SMap.find? (m.filter (fun e => p e.1)) k = m.find? k := by
  induction m with
  | nil => rfl
  | cons e m ih =>
    obtain ⟨j, v⟩ := e
    by_cases hj : p j = true
    · simp [hj, SMap.find?, ih]
    · have : j ≠ k := fun e => hj (e ▸ h)
      simp [hj, SMap.find?, this, ih]

/-- Entries dropped by their key are not listed. -/
theorem SMap.find?_filter_neg (m : SMap α) (p : Nat → Bool) {k : Nat} (h : p k = false) :
    SMap.find? (m.filter (fun e => p e.1)) k = none := by
  induction m with
  | nil => rfl
  | cons e m ih =>
    obtain ⟨j, v⟩ := e
    by_cases hj : p j = true
    · have : j ≠ k := fun e => by subst e; simp_all
      simp [hj, SMap.find?, this, ih]
    · simp [hj, ih]

/-- An entry of a table with rising keys is found. -/
theorem SMap.find?_of_mem (m : SMap α) (hp : m.Pairwise (fun a b => a.1 < b.1)) {k : Nat} {v : α}
    (h : (k, v) ∈ m) : m.find? k = some v := by
  induction m with
  | nil => simp at h
  | cons e m ih =>
    obtain ⟨j, w⟩ := e
    rw [List.pairwise_cons] at hp
    rcases List.mem_cons.mp h with heq | hm
    · cases heq; simp [SMap.find?]
    · have : j < k := hp.1 _ hm
      simp [SMap.find?, Nat.ne_of_lt this, ih hp.2 hm]

end Sys2Proof.Machine
end

