-- ==== Sys2Proof/Laws/State.lean ====
section
/-! SUPPORT. What each shared operation on the chip leaves as it was, field by field. -/

namespace Sys2Proof.Machine

open Sys2Proof

variable (c : Chip)

/-! ### setReg -/

@[simp] theorem Chip.setReg_overrides (k : Nat) (v : Word) : (c.setReg k v).overrides = c.overrides := rfl
@[simp] theorem Chip.setReg_sys (k : Nat) (v : Word) : (c.setReg k v).sys = c.sys := rfl
@[simp] theorem Chip.setReg_fuses (k : Nat) (v : Word) : (c.setReg k v).fuses = c.fuses := rfl
@[simp] theorem Chip.setReg_lcs (k : Nat) (v : Word) : (c.setReg k v).lcs = c.lcs := rfl
@[simp] theorem Chip.setReg_uart (k : Nat) (v : Word) : (c.setReg k v).uart = c.uart := rfl
@[simp] theorem Chip.setReg_dtm (k : Nat) (v : Word) : (c.setReg k v).dtm = c.dtm := rfl
@[simp] theorem Chip.setReg_evr (k : Nat) (v : Word) : (c.setReg k v).evr = c.evr := rfl
@[simp] theorem Chip.setReg_mram (k : Nat) (v : Word) : (c.setReg k v).mram = c.mram := rfl
@[simp] theorem Chip.setReg_jnl (k : Nat) (v : Word) : (c.setReg k v).jnl = c.jnl := rfl
@[simp] theorem Chip.setReg_nvq (k : Nat) (v : Word) : (c.setReg k v).nvq = c.nvq := rfl
@[simp] theorem Chip.setReg_loc (k : Nat) (v : Word) : (c.setReg k v).loc = c.loc := rfl
@[simp] theorem Chip.setReg_bcl (k : Nat) (v : Word) : (c.setReg k v).bcl = c.bcl := rfl
@[simp] theorem Chip.setReg_sec (k : Nat) (v : Word) : (c.setReg k v).sec = c.sec := rfl
@[simp] theorem Chip.setReg_seg (k : Nat) (v : Word) : (c.setReg k v).seg = c.seg := rfl
@[simp] theorem Chip.setReg_nand (k : Nat) (v : Word) : (c.setReg k v).nand = c.nand := rfl
@[simp] theorem Chip.setReg_nfc (k : Nat) (v : Word) : (c.setReg k v).nfc = c.nfc := rfl
@[simp] theorem Chip.setReg_osp (k : Nat) (v : Word) : (c.setReg k v).osp = c.osp := rfl
@[simp] theorem Chip.setReg_mem (k : Nat) (v : Word) : (c.setReg k v).mem = c.mem := rfl
@[simp] theorem Chip.setReg_pwr (k : Nat) (v : Word) : (c.setReg k v).pwr = c.pwr := rfl
@[simp] theorem Chip.setReg_assistCycles (k : Nat) (v : Word) : (c.setReg k v).assistCycles = c.assistCycles := rfl
@[simp] theorem Chip.setReg_assistSaved (k : Nat) (v : Word) : (c.setReg k v).assistSaved = c.assistSaved := rfl
@[simp] theorem Chip.setReg_cleA (k : Nat) (v : Word) : (c.setReg k v).cleA = c.cleA := rfl
@[simp] theorem Chip.setReg_cleB (k : Nat) (v : Word) : (c.setReg k v).cleB = c.cleB := rfl
@[simp] theorem Chip.setReg_slots (k : Nat) (v : Word) : (c.setReg k v).slots = c.slots := rfl
@[simp] theorem Chip.setReg_chanA (k : Nat) (v : Word) : (c.setReg k v).chanA = c.chanA := rfl
@[simp] theorem Chip.setReg_chanB (k : Nat) (v : Word) : (c.setReg k v).chanB = c.chanB := rfl
@[simp] theorem Chip.setReg_chd (k : Nat) (v : Word) : (c.setReg k v).chd = c.chd := rfl
@[simp] theorem Chip.setReg_links (k : Nat) (v : Word) : (c.setReg k v).links = c.links := rfl
@[simp] theorem Chip.setReg_logA (k : Nat) (v : Word) : (c.setReg k v).logA = c.logA := rfl
@[simp] theorem Chip.setReg_logB (k : Nat) (v : Word) : (c.setReg k v).logB = c.logB := rfl
@[simp] theorem Chip.setReg_att (k : Nat) (v : Word) : (c.setReg k v).att = c.att := rfl
@[simp] theorem Chip.setReg_cpu (k : Nat) (v : Word) : (c.setReg k v).cpu = c.cpu := rfl
@[simp] theorem Chip.setReg_corr (k : Nat) (v : Word) : (c.setReg k v).corr = c.corr := rfl
@[simp] theorem Chip.setReg_cal (k : Nat) (v : Word) : (c.setReg k v).cal = c.cal := rfl
@[simp] theorem Chip.setReg_bst (k : Nat) (v : Word) : (c.setReg k v).bst = c.bst := rfl
@[simp] theorem Chip.setReg_dbg (k : Nat) (v : Word) : (c.setReg k v).dbg = c.dbg := rfl
@[simp] theorem Chip.setReg_pins (k : Nat) (v : Word) : (c.setReg k v).pins = c.pins := rfl
@[simp] theorem Chip.setReg_out (k : Nat) (v : Word) : (c.setReg k v).out = c.out := rfl
@[simp] theorem Chip.setReg_freeCtr (k : Nat) (v : Word) : (c.setReg k v).freeCtr = c.freeCtr := rfl

/-! ### setFld -/

@[simp] theorem Chip.setFld_overrides (k hi lo n : Nat) : (c.setFld k hi lo n).overrides = c.overrides := rfl
@[simp] theorem Chip.setFld_sys (k hi lo n : Nat) : (c.setFld k hi lo n).sys = c.sys := rfl
@[simp] theorem Chip.setFld_fuses (k hi lo n : Nat) : (c.setFld k hi lo n).fuses = c.fuses := rfl
@[simp] theorem Chip.setFld_lcs (k hi lo n : Nat) : (c.setFld k hi lo n).lcs = c.lcs := rfl
@[simp] theorem Chip.setFld_uart (k hi lo n : Nat) : (c.setFld k hi lo n).uart = c.uart := rfl
@[simp] theorem Chip.setFld_dtm (k hi lo n : Nat) : (c.setFld k hi lo n).dtm = c.dtm := rfl
@[simp] theorem Chip.setFld_evr (k hi lo n : Nat) : (c.setFld k hi lo n).evr = c.evr := rfl
@[simp] theorem Chip.setFld_mram (k hi lo n : Nat) : (c.setFld k hi lo n).mram = c.mram := rfl
@[simp] theorem Chip.setFld_jnl (k hi lo n : Nat) : (c.setFld k hi lo n).jnl = c.jnl := rfl
@[simp] theorem Chip.setFld_nvq (k hi lo n : Nat) : (c.setFld k hi lo n).nvq = c.nvq := rfl
@[simp] theorem Chip.setFld_loc (k hi lo n : Nat) : (c.setFld k hi lo n).loc = c.loc := rfl
@[simp] theorem Chip.setFld_bcl (k hi lo n : Nat) : (c.setFld k hi lo n).bcl = c.bcl := rfl
@[simp] theorem Chip.setFld_sec (k hi lo n : Nat) : (c.setFld k hi lo n).sec = c.sec := rfl
@[simp] theorem Chip.setFld_seg (k hi lo n : Nat) : (c.setFld k hi lo n).seg = c.seg := rfl
@[simp] theorem Chip.setFld_nand (k hi lo n : Nat) : (c.setFld k hi lo n).nand = c.nand := rfl
@[simp] theorem Chip.setFld_nfc (k hi lo n : Nat) : (c.setFld k hi lo n).nfc = c.nfc := rfl
@[simp] theorem Chip.setFld_osp (k hi lo n : Nat) : (c.setFld k hi lo n).osp = c.osp := rfl
@[simp] theorem Chip.setFld_mem (k hi lo n : Nat) : (c.setFld k hi lo n).mem = c.mem := rfl
@[simp] theorem Chip.setFld_pwr (k hi lo n : Nat) : (c.setFld k hi lo n).pwr = c.pwr := rfl
@[simp] theorem Chip.setFld_assistCycles (k hi lo n : Nat) : (c.setFld k hi lo n).assistCycles = c.assistCycles := rfl
@[simp] theorem Chip.setFld_assistSaved (k hi lo n : Nat) : (c.setFld k hi lo n).assistSaved = c.assistSaved := rfl
@[simp] theorem Chip.setFld_cleA (k hi lo n : Nat) : (c.setFld k hi lo n).cleA = c.cleA := rfl
@[simp] theorem Chip.setFld_cleB (k hi lo n : Nat) : (c.setFld k hi lo n).cleB = c.cleB := rfl
@[simp] theorem Chip.setFld_slots (k hi lo n : Nat) : (c.setFld k hi lo n).slots = c.slots := rfl
@[simp] theorem Chip.setFld_chanA (k hi lo n : Nat) : (c.setFld k hi lo n).chanA = c.chanA := rfl
@[simp] theorem Chip.setFld_chanB (k hi lo n : Nat) : (c.setFld k hi lo n).chanB = c.chanB := rfl
@[simp] theorem Chip.setFld_chd (k hi lo n : Nat) : (c.setFld k hi lo n).chd = c.chd := rfl
@[simp] theorem Chip.setFld_links (k hi lo n : Nat) : (c.setFld k hi lo n).links = c.links := rfl
@[simp] theorem Chip.setFld_logA (k hi lo n : Nat) : (c.setFld k hi lo n).logA = c.logA := rfl
@[simp] theorem Chip.setFld_logB (k hi lo n : Nat) : (c.setFld k hi lo n).logB = c.logB := rfl
@[simp] theorem Chip.setFld_att (k hi lo n : Nat) : (c.setFld k hi lo n).att = c.att := rfl
@[simp] theorem Chip.setFld_cpu (k hi lo n : Nat) : (c.setFld k hi lo n).cpu = c.cpu := rfl
@[simp] theorem Chip.setFld_corr (k hi lo n : Nat) : (c.setFld k hi lo n).corr = c.corr := rfl
@[simp] theorem Chip.setFld_cal (k hi lo n : Nat) : (c.setFld k hi lo n).cal = c.cal := rfl
@[simp] theorem Chip.setFld_bst (k hi lo n : Nat) : (c.setFld k hi lo n).bst = c.bst := rfl
@[simp] theorem Chip.setFld_dbg (k hi lo n : Nat) : (c.setFld k hi lo n).dbg = c.dbg := rfl
@[simp] theorem Chip.setFld_pins (k hi lo n : Nat) : (c.setFld k hi lo n).pins = c.pins := rfl
@[simp] theorem Chip.setFld_out (k hi lo n : Nat) : (c.setFld k hi lo n).out = c.out := rfl
@[simp] theorem Chip.setFld_freeCtr (k hi lo n : Nat) : (c.setFld k hi lo n).freeCtr = c.freeCtr := rfl

/-! ### setBit -/

@[simp] theorem Chip.setBit_overrides (k i : Nat) (b : Bool) : (c.setBit k i b).overrides = c.overrides := rfl
@[simp] theorem Chip.setBit_sys (k i : Nat) (b : Bool) : (c.setBit k i b).sys = c.sys := rfl
@[simp] theorem Chip.setBit_fuses (k i : Nat) (b : Bool) : (c.setBit k i b).fuses = c.fuses := rfl
@[simp] theorem Chip.setBit_lcs (k i : Nat) (b : Bool) : (c.setBit k i b).lcs = c.lcs := rfl
@[simp] theorem Chip.setBit_uart (k i : Nat) (b : Bool) : (c.setBit k i b).uart = c.uart := rfl
@[simp] theorem Chip.setBit_dtm (k i : Nat) (b : Bool) : (c.setBit k i b).dtm = c.dtm := rfl
@[simp] theorem Chip.setBit_evr (k i : Nat) (b : Bool) : (c.setBit k i b).evr = c.evr := rfl
@[simp] theorem Chip.setBit_mram (k i : Nat) (b : Bool) : (c.setBit k i b).mram = c.mram := rfl
@[simp] theorem Chip.setBit_jnl (k i : Nat) (b : Bool) : (c.setBit k i b).jnl = c.jnl := rfl
@[simp] theorem Chip.setBit_nvq (k i : Nat) (b : Bool) : (c.setBit k i b).nvq = c.nvq := rfl
@[simp] theorem Chip.setBit_loc (k i : Nat) (b : Bool) : (c.setBit k i b).loc = c.loc := rfl
@[simp] theorem Chip.setBit_bcl (k i : Nat) (b : Bool) : (c.setBit k i b).bcl = c.bcl := rfl
@[simp] theorem Chip.setBit_sec (k i : Nat) (b : Bool) : (c.setBit k i b).sec = c.sec := rfl
@[simp] theorem Chip.setBit_seg (k i : Nat) (b : Bool) : (c.setBit k i b).seg = c.seg := rfl
@[simp] theorem Chip.setBit_nand (k i : Nat) (b : Bool) : (c.setBit k i b).nand = c.nand := rfl
@[simp] theorem Chip.setBit_nfc (k i : Nat) (b : Bool) : (c.setBit k i b).nfc = c.nfc := rfl
@[simp] theorem Chip.setBit_osp (k i : Nat) (b : Bool) : (c.setBit k i b).osp = c.osp := rfl
@[simp] theorem Chip.setBit_mem (k i : Nat) (b : Bool) : (c.setBit k i b).mem = c.mem := rfl
@[simp] theorem Chip.setBit_pwr (k i : Nat) (b : Bool) : (c.setBit k i b).pwr = c.pwr := rfl
@[simp] theorem Chip.setBit_assistCycles (k i : Nat) (b : Bool) : (c.setBit k i b).assistCycles = c.assistCycles := rfl
@[simp] theorem Chip.setBit_assistSaved (k i : Nat) (b : Bool) : (c.setBit k i b).assistSaved = c.assistSaved := rfl
@[simp] theorem Chip.setBit_cleA (k i : Nat) (b : Bool) : (c.setBit k i b).cleA = c.cleA := rfl
@[simp] theorem Chip.setBit_cleB (k i : Nat) (b : Bool) : (c.setBit k i b).cleB = c.cleB := rfl
@[simp] theorem Chip.setBit_slots (k i : Nat) (b : Bool) : (c.setBit k i b).slots = c.slots := rfl
@[simp] theorem Chip.setBit_chanA (k i : Nat) (b : Bool) : (c.setBit k i b).chanA = c.chanA := rfl
@[simp] theorem Chip.setBit_chanB (k i : Nat) (b : Bool) : (c.setBit k i b).chanB = c.chanB := rfl
@[simp] theorem Chip.setBit_chd (k i : Nat) (b : Bool) : (c.setBit k i b).chd = c.chd := rfl
@[simp] theorem Chip.setBit_links (k i : Nat) (b : Bool) : (c.setBit k i b).links = c.links := rfl
@[simp] theorem Chip.setBit_logA (k i : Nat) (b : Bool) : (c.setBit k i b).logA = c.logA := rfl
@[simp] theorem Chip.setBit_logB (k i : Nat) (b : Bool) : (c.setBit k i b).logB = c.logB := rfl
@[simp] theorem Chip.setBit_att (k i : Nat) (b : Bool) : (c.setBit k i b).att = c.att := rfl
@[simp] theorem Chip.setBit_cpu (k i : Nat) (b : Bool) : (c.setBit k i b).cpu = c.cpu := rfl
@[simp] theorem Chip.setBit_corr (k i : Nat) (b : Bool) : (c.setBit k i b).corr = c.corr := rfl
@[simp] theorem Chip.setBit_cal (k i : Nat) (b : Bool) : (c.setBit k i b).cal = c.cal := rfl
@[simp] theorem Chip.setBit_bst (k i : Nat) (b : Bool) : (c.setBit k i b).bst = c.bst := rfl
@[simp] theorem Chip.setBit_dbg (k i : Nat) (b : Bool) : (c.setBit k i b).dbg = c.dbg := rfl
@[simp] theorem Chip.setBit_pins (k i : Nat) (b : Bool) : (c.setBit k i b).pins = c.pins := rfl
@[simp] theorem Chip.setBit_out (k i : Nat) (b : Bool) : (c.setBit k i b).out = c.out := rfl
@[simp] theorem Chip.setBit_freeCtr (k i : Nat) (b : Bool) : (c.setBit k i b).freeCtr = c.freeCtr := rfl

/-! ### addSat -/

@[simp] theorem Chip.addSat_overrides (k n : Nat) : (c.addSat k n).overrides = c.overrides := rfl
@[simp] theorem Chip.addSat_sys (k n : Nat) : (c.addSat k n).sys = c.sys := rfl
@[simp] theorem Chip.addSat_fuses (k n : Nat) : (c.addSat k n).fuses = c.fuses := rfl
@[simp] theorem Chip.addSat_lcs (k n : Nat) : (c.addSat k n).lcs = c.lcs := rfl
@[simp] theorem Chip.addSat_uart (k n : Nat) : (c.addSat k n).uart = c.uart := rfl
@[simp] theorem Chip.addSat_dtm (k n : Nat) : (c.addSat k n).dtm = c.dtm := rfl
@[simp] theorem Chip.addSat_evr (k n : Nat) : (c.addSat k n).evr = c.evr := rfl
@[simp] theorem Chip.addSat_mram (k n : Nat) : (c.addSat k n).mram = c.mram := rfl
@[simp] theorem Chip.addSat_jnl (k n : Nat) : (c.addSat k n).jnl = c.jnl := rfl
@[simp] theorem Chip.addSat_nvq (k n : Nat) : (c.addSat k n).nvq = c.nvq := rfl
@[simp] theorem Chip.addSat_loc (k n : Nat) : (c.addSat k n).loc = c.loc := rfl
@[simp] theorem Chip.addSat_bcl (k n : Nat) : (c.addSat k n).bcl = c.bcl := rfl
@[simp] theorem Chip.addSat_sec (k n : Nat) : (c.addSat k n).sec = c.sec := rfl
@[simp] theorem Chip.addSat_seg (k n : Nat) : (c.addSat k n).seg = c.seg := rfl
@[simp] theorem Chip.addSat_nand (k n : Nat) : (c.addSat k n).nand = c.nand := rfl
@[simp] theorem Chip.addSat_nfc (k n : Nat) : (c.addSat k n).nfc = c.nfc := rfl
@[simp] theorem Chip.addSat_osp (k n : Nat) : (c.addSat k n).osp = c.osp := rfl
@[simp] theorem Chip.addSat_mem (k n : Nat) : (c.addSat k n).mem = c.mem := rfl
@[simp] theorem Chip.addSat_pwr (k n : Nat) : (c.addSat k n).pwr = c.pwr := rfl
@[simp] theorem Chip.addSat_assistCycles (k n : Nat) : (c.addSat k n).assistCycles = c.assistCycles := rfl
@[simp] theorem Chip.addSat_assistSaved (k n : Nat) : (c.addSat k n).assistSaved = c.assistSaved := rfl
@[simp] theorem Chip.addSat_cleA (k n : Nat) : (c.addSat k n).cleA = c.cleA := rfl
@[simp] theorem Chip.addSat_cleB (k n : Nat) : (c.addSat k n).cleB = c.cleB := rfl
@[simp] theorem Chip.addSat_slots (k n : Nat) : (c.addSat k n).slots = c.slots := rfl
@[simp] theorem Chip.addSat_chanA (k n : Nat) : (c.addSat k n).chanA = c.chanA := rfl
@[simp] theorem Chip.addSat_chanB (k n : Nat) : (c.addSat k n).chanB = c.chanB := rfl
@[simp] theorem Chip.addSat_chd (k n : Nat) : (c.addSat k n).chd = c.chd := rfl
@[simp] theorem Chip.addSat_links (k n : Nat) : (c.addSat k n).links = c.links := rfl
@[simp] theorem Chip.addSat_logA (k n : Nat) : (c.addSat k n).logA = c.logA := rfl
@[simp] theorem Chip.addSat_logB (k n : Nat) : (c.addSat k n).logB = c.logB := rfl
@[simp] theorem Chip.addSat_att (k n : Nat) : (c.addSat k n).att = c.att := rfl
@[simp] theorem Chip.addSat_cpu (k n : Nat) : (c.addSat k n).cpu = c.cpu := rfl
@[simp] theorem Chip.addSat_corr (k n : Nat) : (c.addSat k n).corr = c.corr := rfl
@[simp] theorem Chip.addSat_cal (k n : Nat) : (c.addSat k n).cal = c.cal := rfl
@[simp] theorem Chip.addSat_bst (k n : Nat) : (c.addSat k n).bst = c.bst := rfl
@[simp] theorem Chip.addSat_dbg (k n : Nat) : (c.addSat k n).dbg = c.dbg := rfl
@[simp] theorem Chip.addSat_pins (k n : Nat) : (c.addSat k n).pins = c.pins := rfl
@[simp] theorem Chip.addSat_out (k n : Nat) : (c.addSat k n).out = c.out := rfl
@[simp] theorem Chip.addSat_freeCtr (k n : Nat) : (c.addSat k n).freeCtr = c.freeCtr := rfl

/-! ### bump -/

@[simp] theorem Chip.bump_overrides (k : Nat) : (c.bump k).overrides = c.overrides := rfl
@[simp] theorem Chip.bump_sys (k : Nat) : (c.bump k).sys = c.sys := rfl
@[simp] theorem Chip.bump_fuses (k : Nat) : (c.bump k).fuses = c.fuses := rfl
@[simp] theorem Chip.bump_lcs (k : Nat) : (c.bump k).lcs = c.lcs := rfl
@[simp] theorem Chip.bump_uart (k : Nat) : (c.bump k).uart = c.uart := rfl
@[simp] theorem Chip.bump_dtm (k : Nat) : (c.bump k).dtm = c.dtm := rfl
@[simp] theorem Chip.bump_evr (k : Nat) : (c.bump k).evr = c.evr := rfl
@[simp] theorem Chip.bump_mram (k : Nat) : (c.bump k).mram = c.mram := rfl
@[simp] theorem Chip.bump_jnl (k : Nat) : (c.bump k).jnl = c.jnl := rfl
@[simp] theorem Chip.bump_nvq (k : Nat) : (c.bump k).nvq = c.nvq := rfl
@[simp] theorem Chip.bump_loc (k : Nat) : (c.bump k).loc = c.loc := rfl
@[simp] theorem Chip.bump_bcl (k : Nat) : (c.bump k).bcl = c.bcl := rfl
@[simp] theorem Chip.bump_sec (k : Nat) : (c.bump k).sec = c.sec := rfl
@[simp] theorem Chip.bump_seg (k : Nat) : (c.bump k).seg = c.seg := rfl
@[simp] theorem Chip.bump_nand (k : Nat) : (c.bump k).nand = c.nand := rfl
@[simp] theorem Chip.bump_nfc (k : Nat) : (c.bump k).nfc = c.nfc := rfl
@[simp] theorem Chip.bump_osp (k : Nat) : (c.bump k).osp = c.osp := rfl
@[simp] theorem Chip.bump_mem (k : Nat) : (c.bump k).mem = c.mem := rfl
@[simp] theorem Chip.bump_pwr (k : Nat) : (c.bump k).pwr = c.pwr := rfl
@[simp] theorem Chip.bump_assistCycles (k : Nat) : (c.bump k).assistCycles = c.assistCycles := rfl
@[simp] theorem Chip.bump_assistSaved (k : Nat) : (c.bump k).assistSaved = c.assistSaved := rfl
@[simp] theorem Chip.bump_cleA (k : Nat) : (c.bump k).cleA = c.cleA := rfl
@[simp] theorem Chip.bump_cleB (k : Nat) : (c.bump k).cleB = c.cleB := rfl
@[simp] theorem Chip.bump_slots (k : Nat) : (c.bump k).slots = c.slots := rfl
@[simp] theorem Chip.bump_chanA (k : Nat) : (c.bump k).chanA = c.chanA := rfl
@[simp] theorem Chip.bump_chanB (k : Nat) : (c.bump k).chanB = c.chanB := rfl
@[simp] theorem Chip.bump_chd (k : Nat) : (c.bump k).chd = c.chd := rfl
@[simp] theorem Chip.bump_links (k : Nat) : (c.bump k).links = c.links := rfl
@[simp] theorem Chip.bump_logA (k : Nat) : (c.bump k).logA = c.logA := rfl
@[simp] theorem Chip.bump_logB (k : Nat) : (c.bump k).logB = c.logB := rfl
@[simp] theorem Chip.bump_att (k : Nat) : (c.bump k).att = c.att := rfl
@[simp] theorem Chip.bump_cpu (k : Nat) : (c.bump k).cpu = c.cpu := rfl
@[simp] theorem Chip.bump_corr (k : Nat) : (c.bump k).corr = c.corr := rfl
@[simp] theorem Chip.bump_cal (k : Nat) : (c.bump k).cal = c.cal := rfl
@[simp] theorem Chip.bump_bst (k : Nat) : (c.bump k).bst = c.bst := rfl
@[simp] theorem Chip.bump_dbg (k : Nat) : (c.bump k).dbg = c.dbg := rfl
@[simp] theorem Chip.bump_pins (k : Nat) : (c.bump k).pins = c.pins := rfl
@[simp] theorem Chip.bump_out (k : Nat) : (c.bump k).out = c.out := rfl
@[simp] theorem Chip.bump_freeCtr (k : Nat) : (c.bump k).freeCtr = c.freeCtr := rfl

/-! ### wake -/

@[simp] theorem Chip.wake_regs (page : Nat) : (c.wake page).regs = c.regs := rfl
@[simp] theorem Chip.wake_overrides (page : Nat) : (c.wake page).overrides = c.overrides := rfl
@[simp] theorem Chip.wake_sys (page : Nat) : (c.wake page).sys = c.sys := rfl
@[simp] theorem Chip.wake_fuses (page : Nat) : (c.wake page).fuses = c.fuses := rfl
@[simp] theorem Chip.wake_lcs (page : Nat) : (c.wake page).lcs = c.lcs := rfl
@[simp] theorem Chip.wake_uart (page : Nat) : (c.wake page).uart = c.uart := rfl
@[simp] theorem Chip.wake_dtm (page : Nat) : (c.wake page).dtm = c.dtm := rfl
@[simp] theorem Chip.wake_evr (page : Nat) : (c.wake page).evr = c.evr := rfl
@[simp] theorem Chip.wake_mram (page : Nat) : (c.wake page).mram = c.mram := rfl
@[simp] theorem Chip.wake_jnl (page : Nat) : (c.wake page).jnl = c.jnl := rfl
@[simp] theorem Chip.wake_nvq (page : Nat) : (c.wake page).nvq = c.nvq := rfl
@[simp] theorem Chip.wake_loc (page : Nat) : (c.wake page).loc = c.loc := rfl
@[simp] theorem Chip.wake_bcl (page : Nat) : (c.wake page).bcl = c.bcl := rfl
@[simp] theorem Chip.wake_sec (page : Nat) : (c.wake page).sec = c.sec := rfl
@[simp] theorem Chip.wake_seg (page : Nat) : (c.wake page).seg = c.seg := rfl
@[simp] theorem Chip.wake_nand (page : Nat) : (c.wake page).nand = c.nand := rfl
@[simp] theorem Chip.wake_nfc (page : Nat) : (c.wake page).nfc = c.nfc := rfl
@[simp] theorem Chip.wake_osp (page : Nat) : (c.wake page).osp = c.osp := rfl
@[simp] theorem Chip.wake_mem (page : Nat) : (c.wake page).mem = c.mem := rfl
@[simp] theorem Chip.wake_assistCycles (page : Nat) : (c.wake page).assistCycles = c.assistCycles := rfl
@[simp] theorem Chip.wake_assistSaved (page : Nat) : (c.wake page).assistSaved = c.assistSaved := rfl
@[simp] theorem Chip.wake_cleA (page : Nat) : (c.wake page).cleA = c.cleA := rfl
@[simp] theorem Chip.wake_cleB (page : Nat) : (c.wake page).cleB = c.cleB := rfl
@[simp] theorem Chip.wake_slots (page : Nat) : (c.wake page).slots = c.slots := rfl
@[simp] theorem Chip.wake_chanA (page : Nat) : (c.wake page).chanA = c.chanA := rfl
@[simp] theorem Chip.wake_chanB (page : Nat) : (c.wake page).chanB = c.chanB := rfl
@[simp] theorem Chip.wake_chd (page : Nat) : (c.wake page).chd = c.chd := rfl
@[simp] theorem Chip.wake_links (page : Nat) : (c.wake page).links = c.links := rfl
@[simp] theorem Chip.wake_logA (page : Nat) : (c.wake page).logA = c.logA := rfl
@[simp] theorem Chip.wake_logB (page : Nat) : (c.wake page).logB = c.logB := rfl
@[simp] theorem Chip.wake_att (page : Nat) : (c.wake page).att = c.att := rfl
@[simp] theorem Chip.wake_cpu (page : Nat) : (c.wake page).cpu = c.cpu := rfl
@[simp] theorem Chip.wake_corr (page : Nat) : (c.wake page).corr = c.corr := rfl
@[simp] theorem Chip.wake_cal (page : Nat) : (c.wake page).cal = c.cal := rfl
@[simp] theorem Chip.wake_bst (page : Nat) : (c.wake page).bst = c.bst := rfl
@[simp] theorem Chip.wake_dbg (page : Nat) : (c.wake page).dbg = c.dbg := rfl
@[simp] theorem Chip.wake_pins (page : Nat) : (c.wake page).pins = c.pins := rfl
@[simp] theorem Chip.wake_out (page : Nat) : (c.wake page).out = c.out := rfl
@[simp] theorem Chip.wake_freeCtr (page : Nat) : (c.wake page).freeCtr = c.freeCtr := rfl

/-! ### raise -/

@[simp] theorem Chip.raise_overrides (page i : Nat) : (c.raise page i).overrides = c.overrides := rfl
@[simp] theorem Chip.raise_sys (page i : Nat) : (c.raise page i).sys = c.sys := rfl
@[simp] theorem Chip.raise_fuses (page i : Nat) : (c.raise page i).fuses = c.fuses := rfl
@[simp] theorem Chip.raise_lcs (page i : Nat) : (c.raise page i).lcs = c.lcs := rfl
@[simp] theorem Chip.raise_uart (page i : Nat) : (c.raise page i).uart = c.uart := rfl
@[simp] theorem Chip.raise_dtm (page i : Nat) : (c.raise page i).dtm = c.dtm := rfl
@[simp] theorem Chip.raise_evr (page i : Nat) : (c.raise page i).evr = c.evr := rfl
@[simp] theorem Chip.raise_mram (page i : Nat) : (c.raise page i).mram = c.mram := rfl
@[simp] theorem Chip.raise_jnl (page i : Nat) : (c.raise page i).jnl = c.jnl := rfl
@[simp] theorem Chip.raise_nvq (page i : Nat) : (c.raise page i).nvq = c.nvq := rfl
@[simp] theorem Chip.raise_loc (page i : Nat) : (c.raise page i).loc = c.loc := rfl
@[simp] theorem Chip.raise_bcl (page i : Nat) : (c.raise page i).bcl = c.bcl := rfl
@[simp] theorem Chip.raise_sec (page i : Nat) : (c.raise page i).sec = c.sec := rfl
@[simp] theorem Chip.raise_seg (page i : Nat) : (c.raise page i).seg = c.seg := rfl
@[simp] theorem Chip.raise_nand (page i : Nat) : (c.raise page i).nand = c.nand := rfl
@[simp] theorem Chip.raise_nfc (page i : Nat) : (c.raise page i).nfc = c.nfc := rfl
@[simp] theorem Chip.raise_osp (page i : Nat) : (c.raise page i).osp = c.osp := rfl
@[simp] theorem Chip.raise_mem (page i : Nat) : (c.raise page i).mem = c.mem := rfl
@[simp] theorem Chip.raise_assistCycles (page i : Nat) : (c.raise page i).assistCycles = c.assistCycles := rfl
@[simp] theorem Chip.raise_assistSaved (page i : Nat) : (c.raise page i).assistSaved = c.assistSaved := rfl
@[simp] theorem Chip.raise_cleA (page i : Nat) : (c.raise page i).cleA = c.cleA := rfl
@[simp] theorem Chip.raise_cleB (page i : Nat) : (c.raise page i).cleB = c.cleB := rfl
@[simp] theorem Chip.raise_slots (page i : Nat) : (c.raise page i).slots = c.slots := rfl
@[simp] theorem Chip.raise_chanA (page i : Nat) : (c.raise page i).chanA = c.chanA := rfl
@[simp] theorem Chip.raise_chanB (page i : Nat) : (c.raise page i).chanB = c.chanB := rfl
@[simp] theorem Chip.raise_chd (page i : Nat) : (c.raise page i).chd = c.chd := rfl
@[simp] theorem Chip.raise_links (page i : Nat) : (c.raise page i).links = c.links := rfl
@[simp] theorem Chip.raise_logA (page i : Nat) : (c.raise page i).logA = c.logA := rfl
@[simp] theorem Chip.raise_logB (page i : Nat) : (c.raise page i).logB = c.logB := rfl
@[simp] theorem Chip.raise_att (page i : Nat) : (c.raise page i).att = c.att := rfl
@[simp] theorem Chip.raise_cpu (page i : Nat) : (c.raise page i).cpu = c.cpu := rfl
@[simp] theorem Chip.raise_corr (page i : Nat) : (c.raise page i).corr = c.corr := rfl
@[simp] theorem Chip.raise_cal (page i : Nat) : (c.raise page i).cal = c.cal := rfl
@[simp] theorem Chip.raise_bst (page i : Nat) : (c.raise page i).bst = c.bst := rfl
@[simp] theorem Chip.raise_dbg (page i : Nat) : (c.raise page i).dbg = c.dbg := rfl
@[simp] theorem Chip.raise_pins (page i : Nat) : (c.raise page i).pins = c.pins := rfl
@[simp] theorem Chip.raise_out (page i : Nat) : (c.raise page i).out = c.out := rfl
@[simp] theorem Chip.raise_freeCtr (page i : Nat) : (c.raise page i).freeCtr = c.freeCtr := rfl

/-! ### emit -/

@[simp] theorem Chip.emit_regs (o : Out) : (c.emit o).regs = c.regs := rfl
@[simp] theorem Chip.emit_overrides (o : Out) : (c.emit o).overrides = c.overrides := rfl
@[simp] theorem Chip.emit_sys (o : Out) : (c.emit o).sys = c.sys := rfl
@[simp] theorem Chip.emit_fuses (o : Out) : (c.emit o).fuses = c.fuses := rfl
@[simp] theorem Chip.emit_lcs (o : Out) : (c.emit o).lcs = c.lcs := rfl
@[simp] theorem Chip.emit_uart (o : Out) : (c.emit o).uart = c.uart := rfl
@[simp] theorem Chip.emit_dtm (o : Out) : (c.emit o).dtm = c.dtm := rfl
@[simp] theorem Chip.emit_evr (o : Out) : (c.emit o).evr = c.evr := rfl
@[simp] theorem Chip.emit_mram (o : Out) : (c.emit o).mram = c.mram := rfl
@[simp] theorem Chip.emit_jnl (o : Out) : (c.emit o).jnl = c.jnl := rfl
@[simp] theorem Chip.emit_nvq (o : Out) : (c.emit o).nvq = c.nvq := rfl
@[simp] theorem Chip.emit_loc (o : Out) : (c.emit o).loc = c.loc := rfl
@[simp] theorem Chip.emit_bcl (o : Out) : (c.emit o).bcl = c.bcl := rfl
@[simp] theorem Chip.emit_sec (o : Out) : (c.emit o).sec = c.sec := rfl
@[simp] theorem Chip.emit_seg (o : Out) : (c.emit o).seg = c.seg := rfl
@[simp] theorem Chip.emit_nand (o : Out) : (c.emit o).nand = c.nand := rfl
@[simp] theorem Chip.emit_nfc (o : Out) : (c.emit o).nfc = c.nfc := rfl
@[simp] theorem Chip.emit_osp (o : Out) : (c.emit o).osp = c.osp := rfl
@[simp] theorem Chip.emit_mem (o : Out) : (c.emit o).mem = c.mem := rfl
@[simp] theorem Chip.emit_pwr (o : Out) : (c.emit o).pwr = c.pwr := rfl
@[simp] theorem Chip.emit_assistCycles (o : Out) : (c.emit o).assistCycles = c.assistCycles := rfl
@[simp] theorem Chip.emit_assistSaved (o : Out) : (c.emit o).assistSaved = c.assistSaved := rfl
@[simp] theorem Chip.emit_cleA (o : Out) : (c.emit o).cleA = c.cleA := rfl
@[simp] theorem Chip.emit_cleB (o : Out) : (c.emit o).cleB = c.cleB := rfl
@[simp] theorem Chip.emit_slots (o : Out) : (c.emit o).slots = c.slots := rfl
@[simp] theorem Chip.emit_chanA (o : Out) : (c.emit o).chanA = c.chanA := rfl
@[simp] theorem Chip.emit_chanB (o : Out) : (c.emit o).chanB = c.chanB := rfl
@[simp] theorem Chip.emit_chd (o : Out) : (c.emit o).chd = c.chd := rfl
@[simp] theorem Chip.emit_links (o : Out) : (c.emit o).links = c.links := rfl
@[simp] theorem Chip.emit_logA (o : Out) : (c.emit o).logA = c.logA := rfl
@[simp] theorem Chip.emit_logB (o : Out) : (c.emit o).logB = c.logB := rfl
@[simp] theorem Chip.emit_att (o : Out) : (c.emit o).att = c.att := rfl
@[simp] theorem Chip.emit_cpu (o : Out) : (c.emit o).cpu = c.cpu := rfl
@[simp] theorem Chip.emit_corr (o : Out) : (c.emit o).corr = c.corr := rfl
@[simp] theorem Chip.emit_cal (o : Out) : (c.emit o).cal = c.cal := rfl
@[simp] theorem Chip.emit_bst (o : Out) : (c.emit o).bst = c.bst := rfl
@[simp] theorem Chip.emit_dbg (o : Out) : (c.emit o).dbg = c.dbg := rfl
@[simp] theorem Chip.emit_pins (o : Out) : (c.emit o).pins = c.pins := rfl
@[simp] theorem Chip.emit_freeCtr (o : Out) : (c.emit o).freeCtr = c.freeCtr := rfl

/-! ### settle -/

@[simp] theorem Chip.settle_regs : (c.settle).regs = c.regs := rfl
@[simp] theorem Chip.settle_overrides : (c.settle).overrides = c.overrides := rfl
@[simp] theorem Chip.settle_sys : (c.settle).sys = c.sys := rfl
@[simp] theorem Chip.settle_fuses : (c.settle).fuses = c.fuses := rfl
@[simp] theorem Chip.settle_lcs : (c.settle).lcs = c.lcs := rfl
@[simp] theorem Chip.settle_uart : (c.settle).uart = c.uart := rfl
@[simp] theorem Chip.settle_dtm : (c.settle).dtm = c.dtm := rfl
@[simp] theorem Chip.settle_evr : (c.settle).evr = c.evr := rfl
@[simp] theorem Chip.settle_mram : (c.settle).mram = c.mram := rfl
@[simp] theorem Chip.settle_jnl : (c.settle).jnl = c.jnl := rfl
@[simp] theorem Chip.settle_nvq : (c.settle).nvq = c.nvq := rfl
@[simp] theorem Chip.settle_loc : (c.settle).loc = c.loc := rfl
@[simp] theorem Chip.settle_bcl : (c.settle).bcl = c.bcl := rfl
@[simp] theorem Chip.settle_sec : (c.settle).sec = c.sec := rfl
@[simp] theorem Chip.settle_seg : (c.settle).seg = c.seg := rfl
@[simp] theorem Chip.settle_nand : (c.settle).nand = c.nand := rfl
@[simp] theorem Chip.settle_nfc : (c.settle).nfc = c.nfc := rfl
@[simp] theorem Chip.settle_osp : (c.settle).osp = c.osp := rfl
@[simp] theorem Chip.settle_mem : (c.settle).mem = c.mem := rfl
@[simp] theorem Chip.settle_pwr : (c.settle).pwr = c.pwr := rfl
@[simp] theorem Chip.settle_assistCycles : (c.settle).assistCycles = c.assistCycles := rfl
@[simp] theorem Chip.settle_assistSaved : (c.settle).assistSaved = c.assistSaved := rfl
@[simp] theorem Chip.settle_cleA : (c.settle).cleA = c.cleA := rfl
@[simp] theorem Chip.settle_cleB : (c.settle).cleB = c.cleB := rfl
@[simp] theorem Chip.settle_slots : (c.settle).slots = c.slots := rfl
@[simp] theorem Chip.settle_chanA : (c.settle).chanA = c.chanA := rfl
@[simp] theorem Chip.settle_chanB : (c.settle).chanB = c.chanB := rfl
@[simp] theorem Chip.settle_chd : (c.settle).chd = c.chd := rfl
@[simp] theorem Chip.settle_links : (c.settle).links = c.links := rfl
@[simp] theorem Chip.settle_logA : (c.settle).logA = c.logA := rfl
@[simp] theorem Chip.settle_logB : (c.settle).logB = c.logB := rfl
@[simp] theorem Chip.settle_att : (c.settle).att = c.att := rfl
@[simp] theorem Chip.settle_cpu : (c.settle).cpu = c.cpu := rfl
@[simp] theorem Chip.settle_corr : (c.settle).corr = c.corr := rfl
@[simp] theorem Chip.settle_cal : (c.settle).cal = c.cal := rfl
@[simp] theorem Chip.settle_bst : (c.settle).bst = c.bst := rfl
@[simp] theorem Chip.settle_dbg : (c.settle).dbg = c.dbg := rfl
@[simp] theorem Chip.settle_out : (c.settle).out = c.out := rfl
@[simp] theorem Chip.settle_freeCtr : (c.settle).freeCtr = c.freeCtr := rfl

/-! ### fault -/

@[simp] theorem Chip.fault_overrides (page i : Nat) : (c.fault page i).overrides = c.overrides := by unfold Chip.fault; split <;> rfl
@[simp] theorem Chip.fault_sys (page i : Nat) : (c.fault page i).sys = c.sys := by unfold Chip.fault; split <;> rfl
@[simp] theorem Chip.fault_fuses (page i : Nat) : (c.fault page i).fuses = c.fuses := by unfold Chip.fault; split <;> rfl
@[simp] theorem Chip.fault_lcs (page i : Nat) : (c.fault page i).lcs = c.lcs := by unfold Chip.fault; split <;> rfl
@[simp] theorem Chip.fault_uart (page i : Nat) : (c.fault page i).uart = c.uart := by unfold Chip.fault; split <;> rfl
@[simp] theorem Chip.fault_dtm (page i : Nat) : (c.fault page i).dtm = c.dtm := by unfold Chip.fault; split <;> rfl
@[simp] theorem Chip.fault_evr (page i : Nat) : (c.fault page i).evr = c.evr := by unfold Chip.fault; split <;> rfl
@[simp] theorem Chip.fault_mram (page i : Nat) : (c.fault page i).mram = c.mram := by unfold Chip.fault; split <;> rfl
@[simp] theorem Chip.fault_jnl (page i : Nat) : (c.fault page i).jnl = c.jnl := by unfold Chip.fault; split <;> rfl
@[simp] theorem Chip.fault_nvq (page i : Nat) : (c.fault page i).nvq = c.nvq := by unfold Chip.fault; split <;> rfl
@[simp] theorem Chip.fault_loc (page i : Nat) : (c.fault page i).loc = c.loc := by unfold Chip.fault; split <;> rfl
@[simp] theorem Chip.fault_bcl (page i : Nat) : (c.fault page i).bcl = c.bcl := by unfold Chip.fault; split <;> rfl
@[simp] theorem Chip.fault_sec (page i : Nat) : (c.fault page i).sec = c.sec := by unfold Chip.fault; split <;> rfl
@[simp] theorem Chip.fault_seg (page i : Nat) : (c.fault page i).seg = c.seg := by unfold Chip.fault; split <;> rfl
@[simp] theorem Chip.fault_nand (page i : Nat) : (c.fault page i).nand = c.nand := by unfold Chip.fault; split <;> rfl
@[simp] theorem Chip.fault_nfc (page i : Nat) : (c.fault page i).nfc = c.nfc := by unfold Chip.fault; split <;> rfl
@[simp] theorem Chip.fault_osp (page i : Nat) : (c.fault page i).osp = c.osp := by unfold Chip.fault; split <;> rfl
@[simp] theorem Chip.fault_mem (page i : Nat) : (c.fault page i).mem = c.mem := by unfold Chip.fault; split <;> rfl
@[simp] theorem Chip.fault_assistCycles (page i : Nat) : (c.fault page i).assistCycles = c.assistCycles := by unfold Chip.fault; split <;> rfl
@[simp] theorem Chip.fault_assistSaved (page i : Nat) : (c.fault page i).assistSaved = c.assistSaved := by unfold Chip.fault; split <;> rfl
@[simp] theorem Chip.fault_cleA (page i : Nat) : (c.fault page i).cleA = c.cleA := by unfold Chip.fault; split <;> rfl
@[simp] theorem Chip.fault_cleB (page i : Nat) : (c.fault page i).cleB = c.cleB := by unfold Chip.fault; split <;> rfl
@[simp] theorem Chip.fault_slots (page i : Nat) : (c.fault page i).slots = c.slots := by unfold Chip.fault; split <;> rfl
@[simp] theorem Chip.fault_chanA (page i : Nat) : (c.fault page i).chanA = c.chanA := by unfold Chip.fault; split <;> rfl
@[simp] theorem Chip.fault_chanB (page i : Nat) : (c.fault page i).chanB = c.chanB := by unfold Chip.fault; split <;> rfl
@[simp] theorem Chip.fault_chd (page i : Nat) : (c.fault page i).chd = c.chd := by unfold Chip.fault; split <;> rfl
@[simp] theorem Chip.fault_links (page i : Nat) : (c.fault page i).links = c.links := by unfold Chip.fault; split <;> rfl
@[simp] theorem Chip.fault_logA (page i : Nat) : (c.fault page i).logA = c.logA := by unfold Chip.fault; split <;> rfl
@[simp] theorem Chip.fault_logB (page i : Nat) : (c.fault page i).logB = c.logB := by unfold Chip.fault; split <;> rfl
@[simp] theorem Chip.fault_att (page i : Nat) : (c.fault page i).att = c.att := by unfold Chip.fault; split <;> rfl
@[simp] theorem Chip.fault_cpu (page i : Nat) : (c.fault page i).cpu = c.cpu := by unfold Chip.fault; split <;> rfl
@[simp] theorem Chip.fault_corr (page i : Nat) : (c.fault page i).corr = c.corr := by unfold Chip.fault; split <;> rfl
@[simp] theorem Chip.fault_cal (page i : Nat) : (c.fault page i).cal = c.cal := by unfold Chip.fault; split <;> rfl
@[simp] theorem Chip.fault_bst (page i : Nat) : (c.fault page i).bst = c.bst := by unfold Chip.fault; split <;> rfl
@[simp] theorem Chip.fault_dbg (page i : Nat) : (c.fault page i).dbg = c.dbg := by unfold Chip.fault; split <;> rfl
@[simp] theorem Chip.fault_pins (page i : Nat) : (c.fault page i).pins = c.pins := by unfold Chip.fault; split <;> rfl
@[simp] theorem Chip.fault_out (page i : Nat) : (c.fault page i).out = c.out := by unfold Chip.fault; split <;> rfl
@[simp] theorem Chip.fault_freeCtr (page i : Nat) : (c.fault page i).freeCtr = c.freeCtr := by unfold Chip.fault; split <;> rfl

/-! ### ignored -/

@[simp] theorem Chip.ignored_overrides (page i off : Nat) : (c.ignored page i off).overrides = c.overrides := (c.fault page i).setFld_overrides _ _ _ _ |>.trans (c.fault_overrides page i)
@[simp] theorem Chip.ignored_sys (page i off : Nat) : (c.ignored page i off).sys = c.sys := (c.fault page i).setFld_sys _ _ _ _ |>.trans (c.fault_sys page i)
@[simp] theorem Chip.ignored_fuses (page i off : Nat) : (c.ignored page i off).fuses = c.fuses := (c.fault page i).setFld_fuses _ _ _ _ |>.trans (c.fault_fuses page i)
@[simp] theorem Chip.ignored_lcs (page i off : Nat) : (c.ignored page i off).lcs = c.lcs := (c.fault page i).setFld_lcs _ _ _ _ |>.trans (c.fault_lcs page i)
@[simp] theorem Chip.ignored_uart (page i off : Nat) : (c.ignored page i off).uart = c.uart := (c.fault page i).setFld_uart _ _ _ _ |>.trans (c.fault_uart page i)
@[simp] theorem Chip.ignored_dtm (page i off : Nat) : (c.ignored page i off).dtm = c.dtm := (c.fault page i).setFld_dtm _ _ _ _ |>.trans (c.fault_dtm page i)
@[simp] theorem Chip.ignored_evr (page i off : Nat) : (c.ignored page i off).evr = c.evr := (c.fault page i).setFld_evr _ _ _ _ |>.trans (c.fault_evr page i)
@[simp] theorem Chip.ignored_mram (page i off : Nat) : (c.ignored page i off).mram = c.mram := (c.fault page i).setFld_mram _ _ _ _ |>.trans (c.fault_mram page i)
@[simp] theorem Chip.ignored_jnl (page i off : Nat) : (c.ignored page i off).jnl = c.jnl := (c.fault page i).setFld_jnl _ _ _ _ |>.trans (c.fault_jnl page i)
@[simp] theorem Chip.ignored_nvq (page i off : Nat) : (c.ignored page i off).nvq = c.nvq := (c.fault page i).setFld_nvq _ _ _ _ |>.trans (c.fault_nvq page i)
@[simp] theorem Chip.ignored_loc (page i off : Nat) : (c.ignored page i off).loc = c.loc := (c.fault page i).setFld_loc _ _ _ _ |>.trans (c.fault_loc page i)
@[simp] theorem Chip.ignored_bcl (page i off : Nat) : (c.ignored page i off).bcl = c.bcl := (c.fault page i).setFld_bcl _ _ _ _ |>.trans (c.fault_bcl page i)
@[simp] theorem Chip.ignored_sec (page i off : Nat) : (c.ignored page i off).sec = c.sec := (c.fault page i).setFld_sec _ _ _ _ |>.trans (c.fault_sec page i)
@[simp] theorem Chip.ignored_seg (page i off : Nat) : (c.ignored page i off).seg = c.seg := (c.fault page i).setFld_seg _ _ _ _ |>.trans (c.fault_seg page i)
@[simp] theorem Chip.ignored_nand (page i off : Nat) : (c.ignored page i off).nand = c.nand := (c.fault page i).setFld_nand _ _ _ _ |>.trans (c.fault_nand page i)
@[simp] theorem Chip.ignored_nfc (page i off : Nat) : (c.ignored page i off).nfc = c.nfc := (c.fault page i).setFld_nfc _ _ _ _ |>.trans (c.fault_nfc page i)
@[simp] theorem Chip.ignored_osp (page i off : Nat) : (c.ignored page i off).osp = c.osp := (c.fault page i).setFld_osp _ _ _ _ |>.trans (c.fault_osp page i)
@[simp] theorem Chip.ignored_mem (page i off : Nat) : (c.ignored page i off).mem = c.mem := (c.fault page i).setFld_mem _ _ _ _ |>.trans (c.fault_mem page i)
@[simp] theorem Chip.ignored_assistCycles (page i off : Nat) : (c.ignored page i off).assistCycles = c.assistCycles := (c.fault page i).setFld_assistCycles _ _ _ _ |>.trans (c.fault_assistCycles page i)
@[simp] theorem Chip.ignored_assistSaved (page i off : Nat) : (c.ignored page i off).assistSaved = c.assistSaved := (c.fault page i).setFld_assistSaved _ _ _ _ |>.trans (c.fault_assistSaved page i)
@[simp] theorem Chip.ignored_cleA (page i off : Nat) : (c.ignored page i off).cleA = c.cleA := (c.fault page i).setFld_cleA _ _ _ _ |>.trans (c.fault_cleA page i)
@[simp] theorem Chip.ignored_cleB (page i off : Nat) : (c.ignored page i off).cleB = c.cleB := (c.fault page i).setFld_cleB _ _ _ _ |>.trans (c.fault_cleB page i)
@[simp] theorem Chip.ignored_slots (page i off : Nat) : (c.ignored page i off).slots = c.slots := (c.fault page i).setFld_slots _ _ _ _ |>.trans (c.fault_slots page i)
@[simp] theorem Chip.ignored_chanA (page i off : Nat) : (c.ignored page i off).chanA = c.chanA := (c.fault page i).setFld_chanA _ _ _ _ |>.trans (c.fault_chanA page i)
@[simp] theorem Chip.ignored_chanB (page i off : Nat) : (c.ignored page i off).chanB = c.chanB := (c.fault page i).setFld_chanB _ _ _ _ |>.trans (c.fault_chanB page i)
@[simp] theorem Chip.ignored_chd (page i off : Nat) : (c.ignored page i off).chd = c.chd := (c.fault page i).setFld_chd _ _ _ _ |>.trans (c.fault_chd page i)
@[simp] theorem Chip.ignored_links (page i off : Nat) : (c.ignored page i off).links = c.links := (c.fault page i).setFld_links _ _ _ _ |>.trans (c.fault_links page i)
@[simp] theorem Chip.ignored_logA (page i off : Nat) : (c.ignored page i off).logA = c.logA := (c.fault page i).setFld_logA _ _ _ _ |>.trans (c.fault_logA page i)
@[simp] theorem Chip.ignored_logB (page i off : Nat) : (c.ignored page i off).logB = c.logB := (c.fault page i).setFld_logB _ _ _ _ |>.trans (c.fault_logB page i)
@[simp] theorem Chip.ignored_att (page i off : Nat) : (c.ignored page i off).att = c.att := (c.fault page i).setFld_att _ _ _ _ |>.trans (c.fault_att page i)
@[simp] theorem Chip.ignored_cpu (page i off : Nat) : (c.ignored page i off).cpu = c.cpu := (c.fault page i).setFld_cpu _ _ _ _ |>.trans (c.fault_cpu page i)
@[simp] theorem Chip.ignored_corr (page i off : Nat) : (c.ignored page i off).corr = c.corr := (c.fault page i).setFld_corr _ _ _ _ |>.trans (c.fault_corr page i)
@[simp] theorem Chip.ignored_cal (page i off : Nat) : (c.ignored page i off).cal = c.cal := (c.fault page i).setFld_cal _ _ _ _ |>.trans (c.fault_cal page i)
@[simp] theorem Chip.ignored_bst (page i off : Nat) : (c.ignored page i off).bst = c.bst := (c.fault page i).setFld_bst _ _ _ _ |>.trans (c.fault_bst page i)
@[simp] theorem Chip.ignored_dbg (page i off : Nat) : (c.ignored page i off).dbg = c.dbg := (c.fault page i).setFld_dbg _ _ _ _ |>.trans (c.fault_dbg page i)
@[simp] theorem Chip.ignored_pins (page i off : Nat) : (c.ignored page i off).pins = c.pins := (c.fault page i).setFld_pins _ _ _ _ |>.trans (c.fault_pins page i)
@[simp] theorem Chip.ignored_out (page i off : Nat) : (c.ignored page i off).out = c.out := (c.fault page i).setFld_out _ _ _ _ |>.trans (c.fault_out page i)
@[simp] theorem Chip.ignored_freeCtr (page i off : Nat) : (c.ignored page i off).freeCtr = c.freeCtr := (c.fault page i).setFld_freeCtr _ _ _ _ |>.trans (c.fault_freeCtr page i)

/-! ### countDrop -/

@[simp] theorem Chip.countDrop_overrides (full : Bool) (e : Event) : (c.countDrop full e).overrides = c.overrides := by cases full <;> rfl
@[simp] theorem Chip.countDrop_sys (full : Bool) (e : Event) : (c.countDrop full e).sys = c.sys := by cases full <;> rfl
@[simp] theorem Chip.countDrop_fuses (full : Bool) (e : Event) : (c.countDrop full e).fuses = c.fuses := by cases full <;> rfl
@[simp] theorem Chip.countDrop_lcs (full : Bool) (e : Event) : (c.countDrop full e).lcs = c.lcs := by cases full <;> rfl
@[simp] theorem Chip.countDrop_uart (full : Bool) (e : Event) : (c.countDrop full e).uart = c.uart := by cases full <;> rfl
@[simp] theorem Chip.countDrop_dtm (full : Bool) (e : Event) : (c.countDrop full e).dtm = c.dtm := by cases full <;> rfl
@[simp] theorem Chip.countDrop_mram (full : Bool) (e : Event) : (c.countDrop full e).mram = c.mram := by cases full <;> rfl
@[simp] theorem Chip.countDrop_jnl (full : Bool) (e : Event) : (c.countDrop full e).jnl = c.jnl := by cases full <;> rfl
@[simp] theorem Chip.countDrop_nvq (full : Bool) (e : Event) : (c.countDrop full e).nvq = c.nvq := by cases full <;> rfl
@[simp] theorem Chip.countDrop_loc (full : Bool) (e : Event) : (c.countDrop full e).loc = c.loc := by cases full <;> rfl
@[simp] theorem Chip.countDrop_bcl (full : Bool) (e : Event) : (c.countDrop full e).bcl = c.bcl := by cases full <;> rfl
@[simp] theorem Chip.countDrop_sec (full : Bool) (e : Event) : (c.countDrop full e).sec = c.sec := by cases full <;> rfl
@[simp] theorem Chip.countDrop_seg (full : Bool) (e : Event) : (c.countDrop full e).seg = c.seg := by cases full <;> rfl
@[simp] theorem Chip.countDrop_nand (full : Bool) (e : Event) : (c.countDrop full e).nand = c.nand := by cases full <;> rfl
@[simp] theorem Chip.countDrop_nfc (full : Bool) (e : Event) : (c.countDrop full e).nfc = c.nfc := by cases full <;> rfl
@[simp] theorem Chip.countDrop_osp (full : Bool) (e : Event) : (c.countDrop full e).osp = c.osp := by cases full <;> rfl
@[simp] theorem Chip.countDrop_mem (full : Bool) (e : Event) : (c.countDrop full e).mem = c.mem := by cases full <;> rfl
@[simp] theorem Chip.countDrop_assistCycles (full : Bool) (e : Event) : (c.countDrop full e).assistCycles = c.assistCycles := by cases full <;> rfl
@[simp] theorem Chip.countDrop_assistSaved (full : Bool) (e : Event) : (c.countDrop full e).assistSaved = c.assistSaved := by cases full <;> rfl
@[simp] theorem Chip.countDrop_cleA (full : Bool) (e : Event) : (c.countDrop full e).cleA = c.cleA := by cases full <;> rfl
@[simp] theorem Chip.countDrop_cleB (full : Bool) (e : Event) : (c.countDrop full e).cleB = c.cleB := by cases full <;> rfl
@[simp] theorem Chip.countDrop_slots (full : Bool) (e : Event) : (c.countDrop full e).slots = c.slots := by cases full <;> rfl
@[simp] theorem Chip.countDrop_chanA (full : Bool) (e : Event) : (c.countDrop full e).chanA = c.chanA := by cases full <;> rfl
@[simp] theorem Chip.countDrop_chanB (full : Bool) (e : Event) : (c.countDrop full e).chanB = c.chanB := by cases full <;> rfl
@[simp] theorem Chip.countDrop_chd (full : Bool) (e : Event) : (c.countDrop full e).chd = c.chd := by cases full <;> rfl
@[simp] theorem Chip.countDrop_links (full : Bool) (e : Event) : (c.countDrop full e).links = c.links := by cases full <;> rfl
@[simp] theorem Chip.countDrop_logA (full : Bool) (e : Event) : (c.countDrop full e).logA = c.logA := by cases full <;> rfl
@[simp] theorem Chip.countDrop_logB (full : Bool) (e : Event) : (c.countDrop full e).logB = c.logB := by cases full <;> rfl
@[simp] theorem Chip.countDrop_att (full : Bool) (e : Event) : (c.countDrop full e).att = c.att := by cases full <;> rfl
@[simp] theorem Chip.countDrop_cpu (full : Bool) (e : Event) : (c.countDrop full e).cpu = c.cpu := by cases full <;> rfl
@[simp] theorem Chip.countDrop_corr (full : Bool) (e : Event) : (c.countDrop full e).corr = c.corr := by cases full <;> rfl
@[simp] theorem Chip.countDrop_cal (full : Bool) (e : Event) : (c.countDrop full e).cal = c.cal := by cases full <;> rfl
@[simp] theorem Chip.countDrop_bst (full : Bool) (e : Event) : (c.countDrop full e).bst = c.bst := by cases full <;> rfl
@[simp] theorem Chip.countDrop_dbg (full : Bool) (e : Event) : (c.countDrop full e).dbg = c.dbg := by cases full <;> rfl
@[simp] theorem Chip.countDrop_pins (full : Bool) (e : Event) : (c.countDrop full e).pins = c.pins := by cases full <;> rfl
@[simp] theorem Chip.countDrop_out (full : Bool) (e : Event) : (c.countDrop full e).out = c.out := by cases full <;> rfl
@[simp] theorem Chip.countDrop_freeCtr (full : Bool) (e : Event) : (c.countDrop full e).freeCtr = c.freeCtr := by cases full <;> rfl

/-! ### handOver -/

/-- Handing over an event changes the recorder's queue and counters, registers of its page and its clock. -/
theorem Chip.handOver_eq (e : Event) :
    c.handOver e = { c with regs := (c.handOver e).regs, pwr := (c.handOver e).pwr, evr := (c.handOver e).evr } := by
  unfold Chip.handOver
  split
  · rfl
  · split
    · split
      · rfl
      · split
        · rfl
        · simp only [Chip.countDrop]; rfl
    · rfl

@[simp] theorem Chip.handOver_overrides (e : Event) : (c.handOver e).overrides = c.overrides := by have h := congrArg Chip.overrides (c.handOver_eq e); exact h
@[simp] theorem Chip.handOver_sys (e : Event) : (c.handOver e).sys = c.sys := by have h := congrArg Chip.sys (c.handOver_eq e); exact h
@[simp] theorem Chip.handOver_fuses (e : Event) : (c.handOver e).fuses = c.fuses := by have h := congrArg Chip.fuses (c.handOver_eq e); exact h
@[simp] theorem Chip.handOver_lcs (e : Event) : (c.handOver e).lcs = c.lcs := by have h := congrArg Chip.lcs (c.handOver_eq e); exact h
@[simp] theorem Chip.handOver_uart (e : Event) : (c.handOver e).uart = c.uart := by have h := congrArg Chip.uart (c.handOver_eq e); exact h
@[simp] theorem Chip.handOver_dtm (e : Event) : (c.handOver e).dtm = c.dtm := by have h := congrArg Chip.dtm (c.handOver_eq e); exact h
@[simp] theorem Chip.handOver_mram (e : Event) : (c.handOver e).mram = c.mram := by have h := congrArg Chip.mram (c.handOver_eq e); exact h
@[simp] theorem Chip.handOver_jnl (e : Event) : (c.handOver e).jnl = c.jnl := by have h := congrArg Chip.jnl (c.handOver_eq e); exact h
@[simp] theorem Chip.handOver_nvq (e : Event) : (c.handOver e).nvq = c.nvq := by have h := congrArg Chip.nvq (c.handOver_eq e); exact h
@[simp] theorem Chip.handOver_loc (e : Event) : (c.handOver e).loc = c.loc := by have h := congrArg Chip.loc (c.handOver_eq e); exact h
@[simp] theorem Chip.handOver_bcl (e : Event) : (c.handOver e).bcl = c.bcl := by have h := congrArg Chip.bcl (c.handOver_eq e); exact h
@[simp] theorem Chip.handOver_sec (e : Event) : (c.handOver e).sec = c.sec := by have h := congrArg Chip.sec (c.handOver_eq e); exact h
@[simp] theorem Chip.handOver_seg (e : Event) : (c.handOver e).seg = c.seg := by have h := congrArg Chip.seg (c.handOver_eq e); exact h
@[simp] theorem Chip.handOver_nand (e : Event) : (c.handOver e).nand = c.nand := by have h := congrArg Chip.nand (c.handOver_eq e); exact h
@[simp] theorem Chip.handOver_nfc (e : Event) : (c.handOver e).nfc = c.nfc := by have h := congrArg Chip.nfc (c.handOver_eq e); exact h
@[simp] theorem Chip.handOver_osp (e : Event) : (c.handOver e).osp = c.osp := by have h := congrArg Chip.osp (c.handOver_eq e); exact h
@[simp] theorem Chip.handOver_mem (e : Event) : (c.handOver e).mem = c.mem := by have h := congrArg Chip.mem (c.handOver_eq e); exact h
@[simp] theorem Chip.handOver_assistCycles (e : Event) : (c.handOver e).assistCycles = c.assistCycles := by have h := congrArg Chip.assistCycles (c.handOver_eq e); exact h
@[simp] theorem Chip.handOver_assistSaved (e : Event) : (c.handOver e).assistSaved = c.assistSaved := by have h := congrArg Chip.assistSaved (c.handOver_eq e); exact h
@[simp] theorem Chip.handOver_cleA (e : Event) : (c.handOver e).cleA = c.cleA := by have h := congrArg Chip.cleA (c.handOver_eq e); exact h
@[simp] theorem Chip.handOver_cleB (e : Event) : (c.handOver e).cleB = c.cleB := by have h := congrArg Chip.cleB (c.handOver_eq e); exact h
@[simp] theorem Chip.handOver_slots (e : Event) : (c.handOver e).slots = c.slots := by have h := congrArg Chip.slots (c.handOver_eq e); exact h
@[simp] theorem Chip.handOver_chanA (e : Event) : (c.handOver e).chanA = c.chanA := by have h := congrArg Chip.chanA (c.handOver_eq e); exact h
@[simp] theorem Chip.handOver_chanB (e : Event) : (c.handOver e).chanB = c.chanB := by have h := congrArg Chip.chanB (c.handOver_eq e); exact h
@[simp] theorem Chip.handOver_chd (e : Event) : (c.handOver e).chd = c.chd := by have h := congrArg Chip.chd (c.handOver_eq e); exact h
@[simp] theorem Chip.handOver_links (e : Event) : (c.handOver e).links = c.links := by have h := congrArg Chip.links (c.handOver_eq e); exact h
@[simp] theorem Chip.handOver_logA (e : Event) : (c.handOver e).logA = c.logA := by have h := congrArg Chip.logA (c.handOver_eq e); exact h
@[simp] theorem Chip.handOver_logB (e : Event) : (c.handOver e).logB = c.logB := by have h := congrArg Chip.logB (c.handOver_eq e); exact h
@[simp] theorem Chip.handOver_att (e : Event) : (c.handOver e).att = c.att := by have h := congrArg Chip.att (c.handOver_eq e); exact h
@[simp] theorem Chip.handOver_cpu (e : Event) : (c.handOver e).cpu = c.cpu := by have h := congrArg Chip.cpu (c.handOver_eq e); exact h
@[simp] theorem Chip.handOver_corr (e : Event) : (c.handOver e).corr = c.corr := by have h := congrArg Chip.corr (c.handOver_eq e); exact h
@[simp] theorem Chip.handOver_cal (e : Event) : (c.handOver e).cal = c.cal := by have h := congrArg Chip.cal (c.handOver_eq e); exact h
@[simp] theorem Chip.handOver_bst (e : Event) : (c.handOver e).bst = c.bst := by have h := congrArg Chip.bst (c.handOver_eq e); exact h
@[simp] theorem Chip.handOver_dbg (e : Event) : (c.handOver e).dbg = c.dbg := by have h := congrArg Chip.dbg (c.handOver_eq e); exact h
@[simp] theorem Chip.handOver_pins (e : Event) : (c.handOver e).pins = c.pins := by have h := congrArg Chip.pins (c.handOver_eq e); exact h
@[simp] theorem Chip.handOver_out (e : Event) : (c.handOver e).out = c.out := by have h := congrArg Chip.out (c.handOver_eq e); exact h
@[simp] theorem Chip.handOver_freeCtr (e : Event) : (c.handOver e).freeCtr = c.freeCtr := by have h := congrArg Chip.freeCtr (c.handOver_eq e); exact h

/-! ### event -/

@[simp] theorem Chip.event_overrides (code : Nat) (items : List Nat) : (c.event code items).overrides = c.overrides := c.handOver_overrides _
@[simp] theorem Chip.event_sys (code : Nat) (items : List Nat) : (c.event code items).sys = c.sys := c.handOver_sys _
@[simp] theorem Chip.event_fuses (code : Nat) (items : List Nat) : (c.event code items).fuses = c.fuses := c.handOver_fuses _
@[simp] theorem Chip.event_lcs (code : Nat) (items : List Nat) : (c.event code items).lcs = c.lcs := c.handOver_lcs _
@[simp] theorem Chip.event_uart (code : Nat) (items : List Nat) : (c.event code items).uart = c.uart := c.handOver_uart _
@[simp] theorem Chip.event_dtm (code : Nat) (items : List Nat) : (c.event code items).dtm = c.dtm := c.handOver_dtm _
@[simp] theorem Chip.event_mram (code : Nat) (items : List Nat) : (c.event code items).mram = c.mram := c.handOver_mram _
@[simp] theorem Chip.event_jnl (code : Nat) (items : List Nat) : (c.event code items).jnl = c.jnl := c.handOver_jnl _
@[simp] theorem Chip.event_nvq (code : Nat) (items : List Nat) : (c.event code items).nvq = c.nvq := c.handOver_nvq _
@[simp] theorem Chip.event_loc (code : Nat) (items : List Nat) : (c.event code items).loc = c.loc := c.handOver_loc _
@[simp] theorem Chip.event_bcl (code : Nat) (items : List Nat) : (c.event code items).bcl = c.bcl := c.handOver_bcl _
@[simp] theorem Chip.event_sec (code : Nat) (items : List Nat) : (c.event code items).sec = c.sec := c.handOver_sec _
@[simp] theorem Chip.event_seg (code : Nat) (items : List Nat) : (c.event code items).seg = c.seg := c.handOver_seg _
@[simp] theorem Chip.event_nand (code : Nat) (items : List Nat) : (c.event code items).nand = c.nand := c.handOver_nand _
@[simp] theorem Chip.event_nfc (code : Nat) (items : List Nat) : (c.event code items).nfc = c.nfc := c.handOver_nfc _
@[simp] theorem Chip.event_osp (code : Nat) (items : List Nat) : (c.event code items).osp = c.osp := c.handOver_osp _
@[simp] theorem Chip.event_mem (code : Nat) (items : List Nat) : (c.event code items).mem = c.mem := c.handOver_mem _
@[simp] theorem Chip.event_assistCycles (code : Nat) (items : List Nat) : (c.event code items).assistCycles = c.assistCycles := c.handOver_assistCycles _
@[simp] theorem Chip.event_assistSaved (code : Nat) (items : List Nat) : (c.event code items).assistSaved = c.assistSaved := c.handOver_assistSaved _
@[simp] theorem Chip.event_cleA (code : Nat) (items : List Nat) : (c.event code items).cleA = c.cleA := c.handOver_cleA _
@[simp] theorem Chip.event_cleB (code : Nat) (items : List Nat) : (c.event code items).cleB = c.cleB := c.handOver_cleB _
@[simp] theorem Chip.event_slots (code : Nat) (items : List Nat) : (c.event code items).slots = c.slots := c.handOver_slots _
@[simp] theorem Chip.event_chanA (code : Nat) (items : List Nat) : (c.event code items).chanA = c.chanA := c.handOver_chanA _
@[simp] theorem Chip.event_chanB (code : Nat) (items : List Nat) : (c.event code items).chanB = c.chanB := c.handOver_chanB _
@[simp] theorem Chip.event_chd (code : Nat) (items : List Nat) : (c.event code items).chd = c.chd := c.handOver_chd _
@[simp] theorem Chip.event_links (code : Nat) (items : List Nat) : (c.event code items).links = c.links := c.handOver_links _
@[simp] theorem Chip.event_logA (code : Nat) (items : List Nat) : (c.event code items).logA = c.logA := c.handOver_logA _
@[simp] theorem Chip.event_logB (code : Nat) (items : List Nat) : (c.event code items).logB = c.logB := c.handOver_logB _
@[simp] theorem Chip.event_att (code : Nat) (items : List Nat) : (c.event code items).att = c.att := c.handOver_att _
@[simp] theorem Chip.event_cpu (code : Nat) (items : List Nat) : (c.event code items).cpu = c.cpu := c.handOver_cpu _
@[simp] theorem Chip.event_corr (code : Nat) (items : List Nat) : (c.event code items).corr = c.corr := c.handOver_corr _
@[simp] theorem Chip.event_cal (code : Nat) (items : List Nat) : (c.event code items).cal = c.cal := c.handOver_cal _
@[simp] theorem Chip.event_bst (code : Nat) (items : List Nat) : (c.event code items).bst = c.bst := c.handOver_bst _
@[simp] theorem Chip.event_dbg (code : Nat) (items : List Nat) : (c.event code items).dbg = c.dbg := c.handOver_dbg _
@[simp] theorem Chip.event_pins (code : Nat) (items : List Nat) : (c.event code items).pins = c.pins := c.handOver_pins _
@[simp] theorem Chip.event_out (code : Nat) (items : List Nat) : (c.event code items).out = c.out := c.handOver_out _
@[simp] theorem Chip.event_freeCtr (code : Nat) (items : List Nat) : (c.event code items).freeCtr = c.freeCtr := c.handOver_freeCtr _

/-! ### setCle -/

@[simp] theorem Chip.setCle_regs (a : Act) (x : Cle) : (c.setCle a x).regs = c.regs := by cases a <;> rfl
@[simp] theorem Chip.setCle_overrides (a : Act) (x : Cle) : (c.setCle a x).overrides = c.overrides := by cases a <;> rfl
@[simp] theorem Chip.setCle_sys (a : Act) (x : Cle) : (c.setCle a x).sys = c.sys := by cases a <;> rfl
@[simp] theorem Chip.setCle_fuses (a : Act) (x : Cle) : (c.setCle a x).fuses = c.fuses := by cases a <;> rfl
@[simp] theorem Chip.setCle_lcs (a : Act) (x : Cle) : (c.setCle a x).lcs = c.lcs := by cases a <;> rfl
@[simp] theorem Chip.setCle_uart (a : Act) (x : Cle) : (c.setCle a x).uart = c.uart := by cases a <;> rfl
@[simp] theorem Chip.setCle_dtm (a : Act) (x : Cle) : (c.setCle a x).dtm = c.dtm := by cases a <;> rfl
@[simp] theorem Chip.setCle_evr (a : Act) (x : Cle) : (c.setCle a x).evr = c.evr := by cases a <;> rfl
@[simp] theorem Chip.setCle_mram (a : Act) (x : Cle) : (c.setCle a x).mram = c.mram := by cases a <;> rfl
@[simp] theorem Chip.setCle_jnl (a : Act) (x : Cle) : (c.setCle a x).jnl = c.jnl := by cases a <;> rfl
@[simp] theorem Chip.setCle_nvq (a : Act) (x : Cle) : (c.setCle a x).nvq = c.nvq := by cases a <;> rfl
@[simp] theorem Chip.setCle_loc (a : Act) (x : Cle) : (c.setCle a x).loc = c.loc := by cases a <;> rfl
@[simp] theorem Chip.setCle_bcl (a : Act) (x : Cle) : (c.setCle a x).bcl = c.bcl := by cases a <;> rfl
@[simp] theorem Chip.setCle_sec (a : Act) (x : Cle) : (c.setCle a x).sec = c.sec := by cases a <;> rfl
@[simp] theorem Chip.setCle_seg (a : Act) (x : Cle) : (c.setCle a x).seg = c.seg := by cases a <;> rfl
@[simp] theorem Chip.setCle_nand (a : Act) (x : Cle) : (c.setCle a x).nand = c.nand := by cases a <;> rfl
@[simp] theorem Chip.setCle_nfc (a : Act) (x : Cle) : (c.setCle a x).nfc = c.nfc := by cases a <;> rfl
@[simp] theorem Chip.setCle_osp (a : Act) (x : Cle) : (c.setCle a x).osp = c.osp := by cases a <;> rfl
@[simp] theorem Chip.setCle_mem (a : Act) (x : Cle) : (c.setCle a x).mem = c.mem := by cases a <;> rfl
@[simp] theorem Chip.setCle_pwr (a : Act) (x : Cle) : (c.setCle a x).pwr = c.pwr := by cases a <;> rfl
@[simp] theorem Chip.setCle_assistCycles (a : Act) (x : Cle) : (c.setCle a x).assistCycles = c.assistCycles := by cases a <;> rfl
@[simp] theorem Chip.setCle_assistSaved (a : Act) (x : Cle) : (c.setCle a x).assistSaved = c.assistSaved := by cases a <;> rfl
@[simp] theorem Chip.setCle_slots (a : Act) (x : Cle) : (c.setCle a x).slots = c.slots := by cases a <;> rfl
@[simp] theorem Chip.setCle_chanA (a : Act) (x : Cle) : (c.setCle a x).chanA = c.chanA := by cases a <;> rfl
@[simp] theorem Chip.setCle_chanB (a : Act) (x : Cle) : (c.setCle a x).chanB = c.chanB := by cases a <;> rfl
@[simp] theorem Chip.setCle_chd (a : Act) (x : Cle) : (c.setCle a x).chd = c.chd := by cases a <;> rfl
@[simp] theorem Chip.setCle_links (a : Act) (x : Cle) : (c.setCle a x).links = c.links := by cases a <;> rfl
@[simp] theorem Chip.setCle_logA (a : Act) (x : Cle) : (c.setCle a x).logA = c.logA := by cases a <;> rfl
@[simp] theorem Chip.setCle_logB (a : Act) (x : Cle) : (c.setCle a x).logB = c.logB := by cases a <;> rfl
@[simp] theorem Chip.setCle_att (a : Act) (x : Cle) : (c.setCle a x).att = c.att := by cases a <;> rfl
@[simp] theorem Chip.setCle_cpu (a : Act) (x : Cle) : (c.setCle a x).cpu = c.cpu := by cases a <;> rfl
@[simp] theorem Chip.setCle_corr (a : Act) (x : Cle) : (c.setCle a x).corr = c.corr := by cases a <;> rfl
@[simp] theorem Chip.setCle_cal (a : Act) (x : Cle) : (c.setCle a x).cal = c.cal := by cases a <;> rfl
@[simp] theorem Chip.setCle_bst (a : Act) (x : Cle) : (c.setCle a x).bst = c.bst := by cases a <;> rfl
@[simp] theorem Chip.setCle_dbg (a : Act) (x : Cle) : (c.setCle a x).dbg = c.dbg := by cases a <;> rfl
@[simp] theorem Chip.setCle_pins (a : Act) (x : Cle) : (c.setCle a x).pins = c.pins := by cases a <;> rfl
@[simp] theorem Chip.setCle_out (a : Act) (x : Cle) : (c.setCle a x).out = c.out := by cases a <;> rfl
@[simp] theorem Chip.setCle_freeCtr (a : Act) (x : Cle) : (c.setCle a x).freeCtr = c.freeCtr := by cases a <;> rfl
@[simp] theorem Chip.setCle_cle_self (a : Act) (x : Cle) : (c.setCle a x).cle a = x := by cases a <;> rfl
@[simp] theorem Chip.setCle_cle_other (a : Act) (x : Cle) : (c.setCle a x).cle a.other = c.cle a.other := by cases a <;> rfl

/-! ### setChan -/

@[simp] theorem Chip.setChan_regs (a : Act) (x : Chan) : (c.setChan a x).regs = c.regs := by cases a <;> rfl
@[simp] theorem Chip.setChan_overrides (a : Act) (x : Chan) : (c.setChan a x).overrides = c.overrides := by cases a <;> rfl
@[simp] theorem Chip.setChan_sys (a : Act) (x : Chan) : (c.setChan a x).sys = c.sys := by cases a <;> rfl
@[simp] theorem Chip.setChan_fuses (a : Act) (x : Chan) : (c.setChan a x).fuses = c.fuses := by cases a <;> rfl
@[simp] theorem Chip.setChan_lcs (a : Act) (x : Chan) : (c.setChan a x).lcs = c.lcs := by cases a <;> rfl
@[simp] theorem Chip.setChan_uart (a : Act) (x : Chan) : (c.setChan a x).uart = c.uart := by cases a <;> rfl
@[simp] theorem Chip.setChan_dtm (a : Act) (x : Chan) : (c.setChan a x).dtm = c.dtm := by cases a <;> rfl
@[simp] theorem Chip.setChan_evr (a : Act) (x : Chan) : (c.setChan a x).evr = c.evr := by cases a <;> rfl
@[simp] theorem Chip.setChan_mram (a : Act) (x : Chan) : (c.setChan a x).mram = c.mram := by cases a <;> rfl
@[simp] theorem Chip.setChan_jnl (a : Act) (x : Chan) : (c.setChan a x).jnl = c.jnl := by cases a <;> rfl
@[simp] theorem Chip.setChan_nvq (a : Act) (x : Chan) : (c.setChan a x).nvq = c.nvq := by cases a <;> rfl
@[simp] theorem Chip.setChan_loc (a : Act) (x : Chan) : (c.setChan a x).loc = c.loc := by cases a <;> rfl
@[simp] theorem Chip.setChan_bcl (a : Act) (x : Chan) : (c.setChan a x).bcl = c.bcl := by cases a <;> rfl
@[simp] theorem Chip.setChan_sec (a : Act) (x : Chan) : (c.setChan a x).sec = c.sec := by cases a <;> rfl
@[simp] theorem Chip.setChan_seg (a : Act) (x : Chan) : (c.setChan a x).seg = c.seg := by cases a <;> rfl
@[simp] theorem Chip.setChan_nand (a : Act) (x : Chan) : (c.setChan a x).nand = c.nand := by cases a <;> rfl
@[simp] theorem Chip.setChan_nfc (a : Act) (x : Chan) : (c.setChan a x).nfc = c.nfc := by cases a <;> rfl
@[simp] theorem Chip.setChan_osp (a : Act) (x : Chan) : (c.setChan a x).osp = c.osp := by cases a <;> rfl
@[simp] theorem Chip.setChan_mem (a : Act) (x : Chan) : (c.setChan a x).mem = c.mem := by cases a <;> rfl
@[simp] theorem Chip.setChan_pwr (a : Act) (x : Chan) : (c.setChan a x).pwr = c.pwr := by cases a <;> rfl
@[simp] theorem Chip.setChan_assistCycles (a : Act) (x : Chan) : (c.setChan a x).assistCycles = c.assistCycles := by cases a <;> rfl
@[simp] theorem Chip.setChan_assistSaved (a : Act) (x : Chan) : (c.setChan a x).assistSaved = c.assistSaved := by cases a <;> rfl
@[simp] theorem Chip.setChan_cleA (a : Act) (x : Chan) : (c.setChan a x).cleA = c.cleA := by cases a <;> rfl
@[simp] theorem Chip.setChan_cleB (a : Act) (x : Chan) : (c.setChan a x).cleB = c.cleB := by cases a <;> rfl
@[simp] theorem Chip.setChan_slots (a : Act) (x : Chan) : (c.setChan a x).slots = c.slots := by cases a <;> rfl
@[simp] theorem Chip.setChan_chd (a : Act) (x : Chan) : (c.setChan a x).chd = c.chd := by cases a <;> rfl
@[simp] theorem Chip.setChan_links (a : Act) (x : Chan) : (c.setChan a x).links = c.links := by cases a <;> rfl
@[simp] theorem Chip.setChan_logA (a : Act) (x : Chan) : (c.setChan a x).logA = c.logA := by cases a <;> rfl
@[simp] theorem Chip.setChan_logB (a : Act) (x : Chan) : (c.setChan a x).logB = c.logB := by cases a <;> rfl
@[simp] theorem Chip.setChan_att (a : Act) (x : Chan) : (c.setChan a x).att = c.att := by cases a <;> rfl
@[simp] theorem Chip.setChan_cpu (a : Act) (x : Chan) : (c.setChan a x).cpu = c.cpu := by cases a <;> rfl
@[simp] theorem Chip.setChan_corr (a : Act) (x : Chan) : (c.setChan a x).corr = c.corr := by cases a <;> rfl
@[simp] theorem Chip.setChan_cal (a : Act) (x : Chan) : (c.setChan a x).cal = c.cal := by cases a <;> rfl
@[simp] theorem Chip.setChan_bst (a : Act) (x : Chan) : (c.setChan a x).bst = c.bst := by cases a <;> rfl
@[simp] theorem Chip.setChan_dbg (a : Act) (x : Chan) : (c.setChan a x).dbg = c.dbg := by cases a <;> rfl
@[simp] theorem Chip.setChan_pins (a : Act) (x : Chan) : (c.setChan a x).pins = c.pins := by cases a <;> rfl
@[simp] theorem Chip.setChan_out (a : Act) (x : Chan) : (c.setChan a x).out = c.out := by cases a <;> rfl
@[simp] theorem Chip.setChan_freeCtr (a : Act) (x : Chan) : (c.setChan a x).freeCtr = c.freeCtr := by cases a <;> rfl
@[simp] theorem Chip.setChan_chan_self (a : Act) (x : Chan) : (c.setChan a x).chan a = x := by cases a <;> rfl
@[simp] theorem Chip.setChan_chan_other (a : Act) (x : Chan) : (c.setChan a x).chan a.other = c.chan a.other := by cases a <;> rfl

/-! ### setActLog -/

@[simp] theorem Chip.setActLog_regs (a : Act) (x : ActLog) : (c.setActLog a x).regs = c.regs := by cases a <;> rfl
@[simp] theorem Chip.setActLog_overrides (a : Act) (x : ActLog) : (c.setActLog a x).overrides = c.overrides := by cases a <;> rfl
@[simp] theorem Chip.setActLog_sys (a : Act) (x : ActLog) : (c.setActLog a x).sys = c.sys := by cases a <;> rfl
@[simp] theorem Chip.setActLog_fuses (a : Act) (x : ActLog) : (c.setActLog a x).fuses = c.fuses := by cases a <;> rfl
@[simp] theorem Chip.setActLog_lcs (a : Act) (x : ActLog) : (c.setActLog a x).lcs = c.lcs := by cases a <;> rfl
@[simp] theorem Chip.setActLog_uart (a : Act) (x : ActLog) : (c.setActLog a x).uart = c.uart := by cases a <;> rfl
@[simp] theorem Chip.setActLog_dtm (a : Act) (x : ActLog) : (c.setActLog a x).dtm = c.dtm := by cases a <;> rfl
@[simp] theorem Chip.setActLog_evr (a : Act) (x : ActLog) : (c.setActLog a x).evr = c.evr := by cases a <;> rfl
@[simp] theorem Chip.setActLog_mram (a : Act) (x : ActLog) : (c.setActLog a x).mram = c.mram := by cases a <;> rfl
@[simp] theorem Chip.setActLog_jnl (a : Act) (x : ActLog) : (c.setActLog a x).jnl = c.jnl := by cases a <;> rfl
@[simp] theorem Chip.setActLog_nvq (a : Act) (x : ActLog) : (c.setActLog a x).nvq = c.nvq := by cases a <;> rfl
@[simp] theorem Chip.setActLog_loc (a : Act) (x : ActLog) : (c.setActLog a x).loc = c.loc := by cases a <;> rfl
@[simp] theorem Chip.setActLog_bcl (a : Act) (x : ActLog) : (c.setActLog a x).bcl = c.bcl := by cases a <;> rfl
@[simp] theorem Chip.setActLog_sec (a : Act) (x : ActLog) : (c.setActLog a x).sec = c.sec := by cases a <;> rfl
@[simp] theorem Chip.setActLog_seg (a : Act) (x : ActLog) : (c.setActLog a x).seg = c.seg := by cases a <;> rfl
@[simp] theorem Chip.setActLog_nand (a : Act) (x : ActLog) : (c.setActLog a x).nand = c.nand := by cases a <;> rfl
@[simp] theorem Chip.setActLog_nfc (a : Act) (x : ActLog) : (c.setActLog a x).nfc = c.nfc := by cases a <;> rfl
@[simp] theorem Chip.setActLog_osp (a : Act) (x : ActLog) : (c.setActLog a x).osp = c.osp := by cases a <;> rfl
@[simp] theorem Chip.setActLog_mem (a : Act) (x : ActLog) : (c.setActLog a x).mem = c.mem := by cases a <;> rfl
@[simp] theorem Chip.setActLog_pwr (a : Act) (x : ActLog) : (c.setActLog a x).pwr = c.pwr := by cases a <;> rfl
@[simp] theorem Chip.setActLog_assistCycles (a : Act) (x : ActLog) : (c.setActLog a x).assistCycles = c.assistCycles := by cases a <;> rfl
@[simp] theorem Chip.setActLog_assistSaved (a : Act) (x : ActLog) : (c.setActLog a x).assistSaved = c.assistSaved := by cases a <;> rfl
@[simp] theorem Chip.setActLog_cleA (a : Act) (x : ActLog) : (c.setActLog a x).cleA = c.cleA := by cases a <;> rfl
@[simp] theorem Chip.setActLog_cleB (a : Act) (x : ActLog) : (c.setActLog a x).cleB = c.cleB := by cases a <;> rfl
@[simp] theorem Chip.setActLog_slots (a : Act) (x : ActLog) : (c.setActLog a x).slots = c.slots := by cases a <;> rfl
@[simp] theorem Chip.setActLog_chanA (a : Act) (x : ActLog) : (c.setActLog a x).chanA = c.chanA := by cases a <;> rfl
@[simp] theorem Chip.setActLog_chanB (a : Act) (x : ActLog) : (c.setActLog a x).chanB = c.chanB := by cases a <;> rfl
@[simp] theorem Chip.setActLog_chd (a : Act) (x : ActLog) : (c.setActLog a x).chd = c.chd := by cases a <;> rfl
@[simp] theorem Chip.setActLog_links (a : Act) (x : ActLog) : (c.setActLog a x).links = c.links := by cases a <;> rfl
@[simp] theorem Chip.setActLog_att (a : Act) (x : ActLog) : (c.setActLog a x).att = c.att := by cases a <;> rfl
@[simp] theorem Chip.setActLog_cpu (a : Act) (x : ActLog) : (c.setActLog a x).cpu = c.cpu := by cases a <;> rfl
@[simp] theorem Chip.setActLog_corr (a : Act) (x : ActLog) : (c.setActLog a x).corr = c.corr := by cases a <;> rfl
@[simp] theorem Chip.setActLog_cal (a : Act) (x : ActLog) : (c.setActLog a x).cal = c.cal := by cases a <;> rfl
@[simp] theorem Chip.setActLog_bst (a : Act) (x : ActLog) : (c.setActLog a x).bst = c.bst := by cases a <;> rfl
@[simp] theorem Chip.setActLog_dbg (a : Act) (x : ActLog) : (c.setActLog a x).dbg = c.dbg := by cases a <;> rfl
@[simp] theorem Chip.setActLog_pins (a : Act) (x : ActLog) : (c.setActLog a x).pins = c.pins := by cases a <;> rfl
@[simp] theorem Chip.setActLog_out (a : Act) (x : ActLog) : (c.setActLog a x).out = c.out := by cases a <;> rfl
@[simp] theorem Chip.setActLog_freeCtr (a : Act) (x : ActLog) : (c.setActLog a x).freeCtr = c.freeCtr := by cases a <;> rfl
@[simp] theorem Chip.setActLog_actLog_self (a : Act) (x : ActLog) : (c.setActLog a x).actLog a = x := by cases a <;> rfl
@[simp] theorem Chip.setActLog_actLog_other (a : Act) (x : ActLog) : (c.setActLog a x).actLog a.other = c.actLog a.other := by cases a <;> rfl

end Sys2Proof.Machine
end

