-- ==== Sys2Proof/Laws/Ops.lean ====
section
/-! SUPPORT. What the shared operations do to registers, what a register frame is good for, and how a command is
shown to complete. -/

namespace Sys2Proof.Machine

open Sys2Proof

variable (c : Chip)

/-! ### Reading registers after an operation -/

theorem Chip.reg_setReg (k j : Nat) (v : Word) : (c.setReg k v).reg j = if j = k then v else c.reg j :=
  SMap.get_put _ _ _ _ _

@[simp] theorem Chip.reg_setReg_self (k : Nat) (v : Word) : (c.setReg k v).reg k = v := by simp [Chip.reg_setReg]

theorem Chip.reg_setReg_ne {k j : Nat} (v : Word) (h : j ≠ k) : (c.setReg k v).reg j = c.reg j := by
  simp [Chip.reg_setReg, h]

theorem Chip.reg_setFld (k hi lo n j : Nat) :
    (c.setFld k hi lo n).reg j = if j = k then withField (c.reg k) hi lo n else c.reg j := c.reg_setReg k j _

theorem Chip.reg_setBit (k i : Nat) (b : Bool) (j : Nat) :
    (c.setBit k i b).reg j = if j = k then (if b then c.reg k ||| bitW i else c.reg k &&& ~~~ bitW i) else c.reg j :=
  c.reg_setReg k j _

theorem Chip.reg_addSat (k n j : Nat) :
    (c.addSat k n).reg j = if j = k then BitVec.ofNat 32 (min ((c.reg k).toNat + n) 0xFFFFFFFF) else c.reg j :=
  c.reg_setReg k j _

@[simp] theorem Chip.reg_wake (page j : Nat) : (c.wake page).reg j = c.reg j := rfl
@[simp] theorem Chip.reg_emit (o : Out) (j : Nat) : (c.emit o).reg j = c.reg j := rfl
@[simp] theorem Chip.reg_settle (j : Nat) : c.settle.reg j = c.reg j := rfl
@[simp] theorem Chip.bit_settle (j i : Nat) : c.settle.bit j i = c.bit j i := rfl
@[simp] theorem Chip.fld_settle (j hi lo : Nat) : c.settle.fld j hi lo = c.fld j hi lo := rfl
@[simp] theorem Chip.reg_setCle (a : Act) (x : Cle) (j : Nat) : (c.setCle a x).reg j = c.reg j := by cases a <;> rfl
@[simp] theorem Chip.reg_setChan (a : Act) (x : Chan) (j : Nat) : (c.setChan a x).reg j = c.reg j := by
  cases a <;> rfl
@[simp] theorem Chip.reg_setActLog (a : Act) (x : ActLog) (j : Nat) : (c.setActLog a x).reg j = c.reg j := by
  cases a <;> rfl

theorem Chip.reg_raise (page i j : Nat) :
    (c.raise page i).reg j = if j = pIntStatus page then c.reg j ||| bitW i else c.reg j := by
  rw [Chip.raise, Chip.reg_wake, Chip.reg_setBit]
  split <;> simp_all

theorem Chip.reg_fault (page i j : Nat) (hi : j ≠ pFault page) (hj : j ≠ pIntStatus page) :
    (c.fault page i).reg j = c.reg j := by
  unfold Chip.fault
  split
  · rfl
  · rw [Chip.reg_raise, if_neg hj, Chip.reg_setBit, if_neg hi]

/-- The two registers that an event may change where the recorder drops one (R526). -/
theorem Chip.reg_handOver (e : Event) (j : Nat) (hi : j ≠ R.EVR_DROPPED) (hj : j ≠ pIntStatus 4) :
    (c.handOver e).reg j = c.reg j := by
  unfold Chip.handOver
  split
  · rfl
  · split
    · split
      · rfl
      · split
        · rfl
        · simp only [Chip.countDrop, Bool.false_eq_true, if_false]
          rw [Chip.reg_raise, if_neg hj, Chip.reg_setFld, if_neg hi]; rfl
    · rfl

theorem Chip.reg_event (code : Nat) (items : List Nat) (j : Nat) (hi : j ≠ R.EVR_DROPPED) (hj : j ≠ pIntStatus 4) :
    (c.event code items).reg j = c.reg j := c.reg_handOver _ j hi hj

/-! ### Bits -/

theorem getLsbD_bitW (i j : Nat) : (bitW i).getLsbD j = (decide (j < 32) && decide (i = j)) := by
  simp only [bitW, BitVec.getLsbD_ofNat]
  by_cases h : i = j
  · subst h; simp
  · simp [h, Nat.testBit_two_pow_of_ne h]

@[simp] theorem Chip.bit_setBit_self (k i : Nat) (b : Bool) (h : i < 32) : (c.setBit k i b).bit k i = b := by
  simp only [Chip.bit, Chip.reg_setBit, if_true]
  cases b <;> simp [getLsbD_bitW, h]

theorem Chip.bit_setBit_ne (k i j : Nat) (b : Bool) (h : j ≠ i) : (c.setBit k i b).bit k j = c.bit k j := by
  simp only [Chip.bit, Chip.reg_setBit, if_true]
  have hw : (bitW i).getLsbD j = false := by simp [getLsbD_bitW, Ne.symm h]
  cases b
  · rw [if_neg (by decide), BitVec.getLsbD_and, BitVec.getLsbD_not, hw]
    by_cases h32 : j < 32
    · simp [h32]
    · simp [BitVec.getLsbD_of_ge (c.reg k) j (by omega)]
  · rw [if_pos rfl, BitVec.getLsbD_or, hw, Bool.or_false]

/-- A raised cause is set (R91). -/
theorem Chip.bit_raise (page i : Nat) (h : i < 32) : (c.raise page i).bit (pIntStatus page) i = true := by
  rw [Chip.raise]; exact (c.bit_setBit_self _ i true h)

/-! ### Register frames -/

theorem OnlyRegs.refl (ks : List Nat) : OnlyRegs ks c c := fun _ _ => rfl

variable {c} {d e : Chip} {ks ls pages : List Nat}

theorem OnlyRegs.trans (h : OnlyRegs ks c d) (g : OnlyRegs ks d e) : OnlyRegs ks c e :=
  fun k hk => (g k hk).trans (h k hk)

theorem OnlyRegs.mono (h : OnlyRegs ks c d) (hs : ∀ k ∈ ks, k ∈ ls) : OnlyRegs ls c d :=
  fun k hk => h k fun hm => hk (hs k hm)

theorem OnlyRegs.of_regs (h : d.regs = c.regs) : OnlyRegs ks c d := fun k _ => by simp only [Chip.reg, h]

theorem OnlyRegs.setReg (k : Nat) (v : Word) (h : OnlyRegs ks c d) (hk : k ∈ ks) : OnlyRegs ks c (d.setReg k v) :=
  fun j hj => by
    have hne : j ≠ k := fun e => hj (e.symm ▸ hk)
    rw [Chip.reg_setReg_ne _ _ hne]; exact h j hj

theorem OnlyRegs.setFld (k hi lo n : Nat) (h : OnlyRegs ks c d) (hk : k ∈ ks) :
    OnlyRegs ks c (d.setFld k hi lo n) := h.setReg k _ hk

theorem OnlyRegs.setBit (k i : Nat) (b : Bool) (h : OnlyRegs ks c d) (hk : k ∈ ks) :
    OnlyRegs ks c (d.setBit k i b) := h.setReg k _ hk

theorem OnlyRegs.addSat (k n : Nat) (h : OnlyRegs ks c d) (hk : k ∈ ks) : OnlyRegs ks c (d.addSat k n) :=
  h.setReg k _ hk

theorem OnlyRegs.raise (page i : Nat) (h : OnlyRegs ks c d) (hk : pIntStatus page ∈ ks) :
    OnlyRegs ks c (d.raise page i) := h.setBit (pIntStatus page) i true hk

theorem OnlyRegs.fault (page i : Nat) (h : OnlyRegs ks c d) (hf : pFault page ∈ ks) (hk : pIntStatus page ∈ ks) :
    OnlyRegs ks c (d.fault page i) := by
  unfold Chip.fault; split
  · exact h
  · exact (h.setBit _ i true hf).raise page 31 hk

theorem OnlyRegs.ignored (page i off : Nat) (h : OnlyRegs ks c d) (hf : pFault page ∈ ks)
    (hk : pIntStatus page ∈ ks) : OnlyRegs ks c (d.ignored page i off) :=
  (h.fault page i hf hk).setFld _ _ _ _ hf

theorem OnlyRegs.handOver (e : Event) (h : OnlyRegs ks c d) (hd : R.EVR_DROPPED ∈ ks) (hk : pIntStatus 4 ∈ ks) :
    OnlyRegs ks c (d.handOver e) :=
  fun j hj => (Chip.reg_handOver d e j (fun h => hj (h ▸ hd)) (fun h => hj (h ▸ hk))).trans (h j hj)

theorem OnlyRegs.event (code : Nat) (items : List Nat) (h : OnlyRegs ks c d) (hd : R.EVR_DROPPED ∈ ks)
    (hk : pIntStatus 4 ∈ ks) : OnlyRegs ks c (d.event code items) := h.handOver _ hd hk

theorem OnlyRegs.settle (h : OnlyRegs ks c d) : OnlyRegs ks c d.settle := h

theorem SameRegs.refl (pages : List Nat) (c : Chip) : SameRegs pages c c := fun _ _ => rfl

theorem SameRegs.trans (h : SameRegs pages c d) (g : SameRegs pages d e) : SameRegs pages c e :=
  fun k hk => (g k hk).trans (h k hk)

/-- A frame by registers is a frame by the pages they lie in. -/
theorem OnlyRegs.sameRegs (h : OnlyRegs ks c d) (hp : ∀ k ∈ ks, k / 4096 ∈ pages) : SameRegs pages c d :=
  fun k hk => h k fun hm => hk (hp k hm)

/-! ### Completion -/

/-- A meaning that answers a chip completes with it, settled. -/
theorem completes_next {i : Instr} {s : State} {c : Chip} {P : Chip → Prop} (h : exec i s = s.next c)
    (hP : P c.settle) : Completes i s P := ⟨c.settle, h, hP⟩

/-- A command that completes answers no fault and no refusal. -/
theorem Completes.next {i : Instr} {s : State} {P : Chip → Prop} (h : Completes i s P) :
    ∃ d, exec i s = .next { s with chip := d } := let ⟨d, hd, _⟩ := h; ⟨d, hd⟩

end Sys2Proof.Machine
end

