-- ==== Sys2Proof/Laws/Keeps.lean ====
section
/-! SUPPORT. What a frame by parts is good for: it passes along a chain of operations, and gives each part back. -/

namespace Sys2Proof.Machine

open Sys2Proof

variable {c d e : Chip} {ps qs : List ChipPart}

theorem Keeps.refl (ps : List ChipPart) (c : Chip) : Keeps ps c c := fun p _ => by cases p <;> rfl

theorem ChipPart.Same.trans {p : ChipPart} (h : p.Same c d) (g : p.Same d e) : p.Same c e := by
  cases p <;> exact Eq.trans g h

theorem Keeps.trans (h : Keeps ps c d) (g : Keeps ps d e) : Keeps ps c e := fun p hp => (h p hp).trans (g p hp)

theorem Keeps.mono (h : Keeps ps c d) (hs : ps ⊆ qs) : Keeps qs c d := fun p hp => h p fun hm => hp (hs hm)

/-- One more operation on a chip that has come so far. -/
theorem Keeps.step (h : Keeps ps c d) (g : Keeps qs d e) (hs : qs ⊆ ps) : Keeps ps c e := h.trans (g.mono hs)

/-- Pins are no part. -/
theorem Keeps.settle (h : Keeps ps c d) : Keeps ps c d.settle := h

theorem Keeps.setReg (h : Keeps ps c d) (k : Nat) (v : Word) (hp : .regs ∈ ps) : Keeps ps c (d.setReg k v) :=
  fun p hq => by
    have := h p hq
    cases p <;> first | exact this | exact absurd hp hq

theorem Keeps.setFld (h : Keeps ps c d) (k hi lo n : Nat) (hp : .regs ∈ ps) : Keeps ps c (d.setFld k hi lo n) :=
  h.setReg k _ hp

theorem Keeps.setBit (h : Keeps ps c d) (k i : Nat) (b : Bool) (hp : .regs ∈ ps) : Keeps ps c (d.setBit k i b) :=
  h.setReg k _ hp

theorem Keeps.addSat (h : Keeps ps c d) (k n : Nat) (hp : .regs ∈ ps) : Keeps ps c (d.addSat k n) :=
  h.setReg k _ hp

theorem Keeps.bump (h : Keeps ps c d) (k : Nat) (hp : .regs ∈ ps) : Keeps ps c (d.bump k) := h.addSat k 1 hp

theorem Keeps.wake (h : Keeps ps c d) (page : Nat) (hp : .pwr ∈ ps) : Keeps ps c (d.wake page) :=
  fun p hq => by
    have := h p hq
    cases p <;> first | exact this | exact absurd hp hq

theorem Keeps.raise (h : Keeps ps c d) (page i : Nat) (hr : .regs ∈ ps) (hp : .pwr ∈ ps) :
    Keeps ps c (d.raise page i) := (h.setBit _ i true hr).wake page hp

theorem Keeps.fault (h : Keeps ps c d) (page i : Nat) (hr : .regs ∈ ps) (hp : .pwr ∈ ps) :
    Keeps ps c (d.fault page i) := by
  unfold Chip.fault; split
  · exact h
  · exact (h.setBit _ i true hr).raise page 31 hr hp

theorem Keeps.ignored (h : Keeps ps c d) (page i off : Nat) (hr : .regs ∈ ps) (hp : .pwr ∈ ps) :
    Keeps ps c (d.ignored page i off) := (h.fault page i hr hp).setFld _ _ _ _ hr

theorem Keeps.handOver (h : Keeps ps c d) (e : Event) (hr : .regs ∈ ps) (hp : .pwr ∈ ps) (he : .evr ∈ ps) :
    Keeps ps c (d.handOver e) :=
  fun p hq => by
    have := h p hq
    rw [d.handOver_eq e]
    cases p <;> first | exact this | exact absurd hr hq | exact absurd hp hq | exact absurd he hq

theorem Keeps.event (h : Keeps ps c d) (code : Nat) (items : List Nat) (hr : .regs ∈ ps) (hp : .pwr ∈ ps)
    (he : .evr ∈ ps) : Keeps ps c (d.event code items) := h.handOver _ hr hp he

theorem Keeps.emit (h : Keeps ps c d) (o : Out) (hp : .out ∈ ps) : Keeps ps c (d.emit o) :=
  fun p hq => by
    have := h p hq
    cases p <;> first | exact this | exact absurd hp hq

/-- A table of registers that is the same reads the same. -/
theorem Keeps.reg (h : Keeps ps c d) (hp : .regs ∉ ps) (k : Nat) : d.reg k = c.reg k := by
  have hr : d.regs = c.regs := h .regs hp
  simp only [Chip.reg, hr]

theorem Keeps.overrides (h : Keeps ps c d) (hp : .overrides ∉ ps) : d.overrides = c.overrides := h .overrides hp
theorem Keeps.sys (h : Keeps ps c d) (hp : .sys ∉ ps) : d.sys = c.sys := h .sys hp
theorem Keeps.fuses (h : Keeps ps c d) (hp : .fuses ∉ ps) : d.fuses = c.fuses := h .fuses hp
theorem Keeps.lcs (h : Keeps ps c d) (hp : .lcs ∉ ps) : d.lcs = c.lcs := h .lcs hp
theorem Keeps.uart (h : Keeps ps c d) (hp : .uart ∉ ps) : d.uart = c.uart := h .uart hp
theorem Keeps.dtm (h : Keeps ps c d) (hp : .dtm ∉ ps) : d.dtm = c.dtm := h .dtm hp
theorem Keeps.evr (h : Keeps ps c d) (hp : .evr ∉ ps) : d.evr = c.evr := h .evr hp
theorem Keeps.mram (h : Keeps ps c d) (hp : .mram ∉ ps) : d.mram = c.mram := h .mram hp
theorem Keeps.jnl (h : Keeps ps c d) (hp : .jnl ∉ ps) : d.jnl = c.jnl := h .jnl hp
theorem Keeps.nvq (h : Keeps ps c d) (hp : .nvq ∉ ps) : d.nvq = c.nvq := h .nvq hp
theorem Keeps.loc (h : Keeps ps c d) (hp : .loc ∉ ps) : d.loc = c.loc := h .loc hp
theorem Keeps.bcl (h : Keeps ps c d) (hp : .bcl ∉ ps) : d.bcl = c.bcl := h .bcl hp
theorem Keeps.sec (h : Keeps ps c d) (hp : .sec ∉ ps) : d.sec = c.sec := h .sec hp
theorem Keeps.seg (h : Keeps ps c d) (hp : .seg ∉ ps) : d.seg = c.seg := h .seg hp
theorem Keeps.nand (h : Keeps ps c d) (hp : .nand ∉ ps) : d.nand = c.nand := h .nand hp
theorem Keeps.nfc (h : Keeps ps c d) (hp : .nfc ∉ ps) : d.nfc = c.nfc := h .nfc hp
theorem Keeps.osp (h : Keeps ps c d) (hp : .osp ∉ ps) : d.osp = c.osp := h .osp hp
theorem Keeps.mem (h : Keeps ps c d) (hp : .mem ∉ ps) : d.mem = c.mem := h .mem hp
theorem Keeps.pwr (h : Keeps ps c d) (hp : .pwr ∉ ps) : d.pwr = c.pwr := h .pwr hp
theorem Keeps.assistCycles (h : Keeps ps c d) (hp : .assistCycles ∉ ps) : d.assistCycles = c.assistCycles := h .assistCycles hp
theorem Keeps.assistSaved (h : Keeps ps c d) (hp : .assistSaved ∉ ps) : d.assistSaved = c.assistSaved := h .assistSaved hp
theorem Keeps.cleA (h : Keeps ps c d) (hp : .cleA ∉ ps) : d.cleA = c.cleA := h .cleA hp
theorem Keeps.cleB (h : Keeps ps c d) (hp : .cleB ∉ ps) : d.cleB = c.cleB := h .cleB hp
theorem Keeps.slots (h : Keeps ps c d) (hp : .slots ∉ ps) : d.slots = c.slots := h .slots hp
theorem Keeps.chanA (h : Keeps ps c d) (hp : .chanA ∉ ps) : d.chanA = c.chanA := h .chanA hp
theorem Keeps.chanB (h : Keeps ps c d) (hp : .chanB ∉ ps) : d.chanB = c.chanB := h .chanB hp
theorem Keeps.chd (h : Keeps ps c d) (hp : .chd ∉ ps) : d.chd = c.chd := h .chd hp
theorem Keeps.links (h : Keeps ps c d) (hp : .links ∉ ps) : d.links = c.links := h .links hp
theorem Keeps.logA (h : Keeps ps c d) (hp : .logA ∉ ps) : d.logA = c.logA := h .logA hp
theorem Keeps.logB (h : Keeps ps c d) (hp : .logB ∉ ps) : d.logB = c.logB := h .logB hp
theorem Keeps.att (h : Keeps ps c d) (hp : .att ∉ ps) : d.att = c.att := h .att hp
theorem Keeps.cpu (h : Keeps ps c d) (hp : .cpu ∉ ps) : d.cpu = c.cpu := h .cpu hp
theorem Keeps.corr (h : Keeps ps c d) (hp : .corr ∉ ps) : d.corr = c.corr := h .corr hp
theorem Keeps.cal (h : Keeps ps c d) (hp : .cal ∉ ps) : d.cal = c.cal := h .cal hp
theorem Keeps.bst (h : Keeps ps c d) (hp : .bst ∉ ps) : d.bst = c.bst := h .bst hp
theorem Keeps.dbg (h : Keeps ps c d) (hp : .dbg ∉ ps) : d.dbg = c.dbg := h .dbg hp
theorem Keeps.out (h : Keeps ps c d) (hp : .out ∉ ps) : d.out = c.out := h .out hp
theorem Keeps.freeCtr (h : Keeps ps c d) (hp : .freeCtr ∉ ps) : d.freeCtr = c.freeCtr := h .freeCtr hp

end Sys2Proof.Machine
end

