-- ==== Sys2Proof/Laws/Memory.lean ====
section
/-! SUPPORT. Memory: a byte that was written reads back, every operation keeps the canonical form, and the accesses
through the checker change nothing but memory and what they report. -/

namespace Sys2Proof.Machine

open Sys2Proof

variable (m : Mem) (c : Chip)

/-! ### Bytes and check differences -/

theorem Mem.byte_setByte (a b : Nat) (v : Byte) : (m.setByte a v).byte b = if b = a then v else m.byte b :=
  SMap.get_put _ _ _ _ _

@[simp] theorem Mem.synd_setByte (a : Nat) (v : Byte) : (m.setByte a v).synd = m.synd := rfl

@[simp] theorem Mem.byte_setSynd (a b : Nat) (v : BitVec 8) : (m.setSynd a v).byte b = m.byte b := rfl

theorem Mem.syndAt_setSynd (a b : Nat) (v : BitVec 8) :
    (m.setSynd a v).syndAt b = if b / 8 = a / 8 then v else m.syndAt b := SMap.get_put _ _ _ _ _

/-- A byte below or above the written range reads as before. -/
theorem Mem.byte_write_ne (vs : List Byte) : ∀ (m : Mem) (a b : Nat), b < a ∨ a + vs.length ≤ b →
    (m.write a vs).byte b = m.byte b := by
  induction vs with
  | nil => intros; rfl
  | cons v vs ih =>
    intro m a b h
    simp only [List.length_cons] at h
    rw [Mem.write, ih _ _ _ (by omega), Mem.byte_setByte, if_neg (by omega)]

/-- A byte of the written range reads what was written. -/
theorem Mem.byte_write (vs : List Byte) : ∀ (m : Mem) (a i : Nat), i < vs.length →
    (m.write a vs).byte (a + i) = vs.getD i 0 := by
  induction vs with
  | nil => intro m a i h; cases h
  | cons v vs ih =>
    intro m a i h
    rw [Mem.write]
    cases i with
    | zero => rw [Mem.byte_write_ne _ _ _ _ (by omega), Mem.byte_setByte, if_pos (by omega)]; rfl
    | succ i =>
      rw [show a + (i + 1) = a + 1 + i by omega, ih _ _ _ (by simpa using h)]; rfl

@[simp] theorem Mem.syndAt_write (vs : List Byte) : ∀ (m : Mem) (a b : Nat),
    (m.write a vs).syndAt b = m.syndAt b := by
  induction vs with
  | nil => intros; rfl
  | cons v vs ih => intro m a b; rw [Mem.write, ih]; rfl

/-! ### The canonical form -/

theorem Mem.wf_setByte (a : Nat) (v : Byte) (h : m.wf = true) : (m.setByte a v).wf = true :=
  SMap.wf_put _ _ _ _ h

theorem Mem.wf_write (vs : List Byte) : ∀ (m : Mem) (a : Nat), m.wf = true → (m.write a vs).wf = true := by
  induction vs with
  | nil => exact fun _ _ h => h
  | cons v vs ih => exact fun m a h => ih _ _ (m.wf_setByte a v h)

theorem Mem.wf_setSynd (a : Nat) (v : BitVec 8) (h : m.wf = true) : (m.setSynd a v).wf = true := h

theorem Mem.wf_setWord (a : Nat) (d : DWord) (s : BitVec 8) (h : m.wf = true) : (m.setWord a d s).wf = true :=
  Mem.wf_write _ _ _ h

theorem Mem.wf_flip (a bit : Nat) (h : m.wf = true) : (m.flip a bit).wf = true := by
  unfold Mem.flip; dsimp only; split
  · exact m.wf_setWord _ _ _ h
  · exact h

theorem Mem.wf_setTracks (e : Ecc) (t : List Track) (h : m.wf = true) : (m.setTracks e t).wf = true := by
  cases e <;> exact h

theorem Mem.wf_untrack (a : Nat) (h : m.wf = true) : (m.untrack a).wf = true := m.wf_setTracks _ _ h

@[simp] theorem Mem.byte_setTracks (e : Ecc) (t : List Track) (b : Nat) : (m.setTracks e t).byte b = m.byte b := by
  cases e <;> rfl

@[simp] theorem Mem.syndAt_setTracks (e : Ecc) (t : List Track) (b : Nat) :
    (m.setTracks e t).syndAt b = m.syndAt b := by cases e <;> rfl

@[simp] theorem Mem.byte_untrack (a b : Nat) : (m.untrack a).byte b = m.byte b := m.byte_setTracks _ _ b

@[simp] theorem Mem.syndAt_untrack (a b : Nat) : (m.untrack a).syndAt b = m.syndAt b := m.syndAt_setTracks _ _ b

/-- A fill keeps the canonical form, and every byte it covers reads 0. -/
theorem Mem.wf_fill (f : FillMem) (h : m.wf = true) : (m.fill f).wf = true :=
  SMap.wf_filter memBlank m.bytes _ h

theorem Mem.byte_fill (f : FillMem) (a : Nat) :
    (m.fill f).byte a = if fillCovers f a = true then 0 else m.byte a := by
  unfold Mem.byte SMap.get Mem.fill
  split
  · rename_i h
    rw [SMap.find?_filter_neg m.bytes (fun k => !fillCovers f k) (by simp [h])]; rfl
  · rename_i h
    rw [SMap.find?_filter_pos m.bytes (fun k => !fillCovers f k) (by simp [h])]

/-- Memory lists nothing at reset. -/
theorem State.reset_mem_wf : State.reset.chip.mem.wf = true := rfl

/-! ### Operations that leave memory as it is -/

@[simp] theorem Chip.mem_setReg (k : Nat) (v : Word) : (c.setReg k v).mem = c.mem := rfl
@[simp] theorem Chip.mem_setFld (k hi lo n : Nat) : (c.setFld k hi lo n).mem = c.mem := rfl
@[simp] theorem Chip.mem_bump (k : Nat) : (c.bump k).mem = c.mem := rfl
@[simp] theorem Chip.mem_raise (page i : Nat) : (c.raise page i).mem = c.mem := rfl

@[simp] theorem Chip.mem_event (code : Nat) (items : List Nat) : (c.event code items).mem = c.mem :=
  (Keeps.event (Keeps.refl [.regs, .pwr, .evr] c) code items (by decide) (by decide) (by decide)).mem (by decide)

@[simp] theorem Chip.mem_eccLast (a : Nat) (s : BitVec 8) (bit : Nat) : (c.eccLast a s bit).mem = c.mem := by
  unfold Chip.eccLast; dsimp only; split <;> rfl

@[simp] theorem Chip.mem_hardFault (a : Nat) : (c.hardFault a).mem = c.mem := by
  unfold Chip.hardFault; dsimp only; split <;> simp

/-! ### Accesses through the checker -/

theorem Chip.mem_trackCorrection (a : Nat) : ∃ t, (c.trackCorrection a).mem = c.mem.setTracks (eccOf a) t := by
  unfold Chip.trackCorrection
  dsimp only
  have same : c.mem.setTracks (eccOf a) (c.mem.tracks (eccOf a)) = c.mem := by cases eccOf a <;> rfl
  split
  · split
    · exact ⟨_, same.symm⟩
    · exact ⟨_, Chip.mem_hardFault _ _⟩
  · split
    · exact ⟨_, rfl⟩
    · split <;> exact ⟨_, rfl⟩

theorem Chip.wf_trackCorrection (a : Nat) (h : c.mem.wf = true) : (c.trackCorrection a).mem.wf = true := by
  obtain ⟨t, ht⟩ := c.mem_trackCorrection a
  rw [ht]; exact Mem.wf_setTracks _ _ _ h

theorem Chip.wf_readWord (a : Nat) (h : c.mem.wf = true) : (c.readWord a).2.2.mem.wf = true := by
  unfold Chip.readWord
  dsimp only
  split
  · exact h
  · split
    · simpa using h
    · exact Chip.wf_trackCorrection _ _ (by simpa using Mem.wf_setWord _ _ _ _ h)
  · exact h
  · split
    · simpa using h
    · rw [Chip.mem_event, Chip.mem_raise, Chip.mem_eccLast]; exact h

theorem Chip.wf_readWords (n : Nat) : ∀ (c : Chip) (a : Nat), c.mem.wf = true →
    (c.readWords a n).2.2.mem.wf = true := by
  induction n with
  | zero => exact fun _ _ h => h
  | succ n ih => exact fun c a h => ih _ _ (c.wf_readWord a h)

theorem Chip.wf_readRange (a n : Nat) (h : c.mem.wf = true) : (c.readRange a n).2.2.mem.wf = true :=
  Chip.wf_readWords _ _ _ h

theorem Chip.wf_writeInWord (a : Nat) (bs : List Byte) (h : c.mem.wf = true) :
    (c.writeInWord a bs).mem.wf = true := by
  unfold Chip.writeInWord
  dsimp only
  split
  · exact Mem.wf_untrack _ _ (Mem.wf_write _ _ _ h)
  · exact Mem.wf_untrack _ _ (Mem.wf_write _ _ _ (Mem.wf_setWord _ _ _ _ (c.wf_readWord a h)))

theorem Chip.wf_writeRangeAux (n : Nat) : ∀ (c : Chip) (a : Nat) (bs : List Byte), c.mem.wf = true →
    (c.writeRangeAux a bs n).mem.wf = true := by
  induction n with
  | zero => exact fun _ _ _ h => h
  | succ n ih =>
    intro c a bs h
    rw [Chip.writeRangeAux]
    split
    · exact h
    · exact ih _ _ _ (c.wf_writeInWord a _ h)

theorem Chip.wf_writeRange (a : Nat) (bs : List Byte) (h : c.mem.wf = true) : (c.writeRange a bs).mem.wf = true :=
  Chip.wf_writeRangeAux _ _ _ _ h

theorem Chip.wf_poisonWord (a : Nat) (h : c.mem.wf = true) : (c.poisonWord a).mem.wf = true :=
  Mem.wf_untrack _ _ h

/-! ### Frames of the accesses -/

/-- What an access through the checker may change: memory, the counters and last error, events and wakes. -/
def accessParts : List ChipPart := [.regs, .mem, .evr, .pwr]

variable {c} {d : Chip} {ps : List ChipPart}

theorem Keeps.setMem (h : Keeps ps c d) (x : Mem) (hp : .mem ∈ ps) : Keeps ps c { d with mem := x } :=
  fun p hq => by
    have := h p hq
    cases p <;> first | exact this | exact absurd hp hq

theorem Keeps.eccLast (h : Keeps ps c d) (a : Nat) (s : BitVec 8) (bit : Nat) (hr : .regs ∈ ps) :
    Keeps ps c (d.eccLast a s bit) := by
  unfold Chip.eccLast; dsimp only; split
  · exact (h.setReg _ _ hr).setReg _ _ hr
  · exact (h.setReg _ _ hr).setReg _ _ hr

theorem Keeps.hardFault (h : Keeps accessParts c d) (a : Nat) : Keeps accessParts c (d.hardFault a) := by
  have r : .regs ∈ accessParts := by decide
  have p : .pwr ∈ accessParts := by decide
  have e : .evr ∈ accessParts := by decide
  unfold Chip.hardFault; dsimp only; split
  · exact (((h.bump _ r).setReg _ _ r).raise _ _ r p).event _ _ r p e
  · exact (((h.bump _ r).setReg _ _ r).raise _ _ r p).event _ _ r p e

theorem Keeps.trackCorrection (h : Keeps accessParts c d) (a : Nat) :
    Keeps accessParts c (d.trackCorrection a) := by
  have r : .regs ∈ accessParts := by decide
  have p : .pwr ∈ accessParts := by decide
  have m : .mem ∈ accessParts := by decide
  unfold Chip.trackCorrection; dsimp only; split
  · split
    · exact h
    · exact (h.setMem _ m).hardFault a
  · split
    · exact h.setMem _ m
    · split <;> exact ((h.setMem _ m).setFld _ _ _ _ r).raise _ _ r p

/-- Reading a word changes nothing but what an access may. -/
theorem Keeps.readWord (h : Keeps accessParts c d) (a : Nat) : Keeps accessParts c (d.readWord a).2.2 := by
  have r : .regs ∈ accessParts := by decide
  have p : .pwr ∈ accessParts := by decide
  have e : .evr ∈ accessParts := by decide
  have m : .mem ∈ accessParts := by decide
  unfold Chip.readWord; dsimp only; split
  · exact h
  · split
    · exact (h.bump _ r).eccLast _ _ _ r
    · exact (((h.bump _ r).eccLast _ _ _ r).setMem _ m).trackCorrection a
  · exact h.bump _ r
  · split
    · exact (h.bump _ r).eccLast _ _ _ r
    · exact ((((h.setMem _ m).bump _ r).eccLast _ _ _ r).raise _ _ r p).event _ _ r p e

theorem Keeps.readWords (n : Nat) : ∀ {d : Chip} (_ : Keeps accessParts c d) (a : Nat),
    Keeps accessParts c (d.readWords a n).2.2 := by
  induction n with
  | zero => exact fun h _ => h
  | succ n ih => exact fun h a => ih (h.readWord a) _

theorem Keeps.readRange (h : Keeps accessParts c d) (a n : Nat) : Keeps accessParts c (d.readRange a n).2.2 :=
  Keeps.readWords _ h _

theorem Keeps.writeInWord (h : Keeps accessParts c d) (a : Nat) (bs : List Byte) :
    Keeps accessParts c (d.writeInWord a bs) := by
  have m : .mem ∈ accessParts := by decide
  unfold Chip.writeInWord; dsimp only; split
  · exact h.setMem _ m
  · exact (h.readWord a).setMem _ m

theorem Keeps.writeRangeAux (n : Nat) : ∀ {d : Chip} (_ : Keeps accessParts c d) (a : Nat) (bs : List Byte),
    Keeps accessParts c (d.writeRangeAux a bs n) := by
  induction n with
  | zero => exact fun h _ _ => h
  | succ n ih =>
    intro d h a bs
    rw [Chip.writeRangeAux]; split
    · exact h
    · exact ih (h.writeInWord a _) _ _

theorem Keeps.writeRange (h : Keeps accessParts c d) (a : Nat) (bs : List Byte) :
    Keeps accessParts c (d.writeRange a bs) := Keeps.writeRangeAux _ h _ _

end Sys2Proof.Machine
end

