-- ==== Sys2Proof/Laws/Journal.lean ====
section
/-! SUPPORT. The journal's slots: what was written reads back, the shared writes of slots, groups and records change
nothing but what is listed, and work that waits for nothing leaves the chip as it is. -/

namespace Sys2Proof.Machine

open Sys2Proof

variable (c : Chip)

/-! ### MRAM words and slots -/

theorem Chip.mramWord_setMramWord (i j : Nat) (v : DWord) :
    (c.setMramWord i v).mramWord j = if j = i then v else c.mramWord j := SMap.get_put _ _ _ _ _

/-- Words outside the slots written keep what they hold. -/
theorem Chip.mramWord_foldl_ne (f : Nat → Nat) (g : Nat → DWord) (j : Nat) (is : List Nat) :
    ∀ c : Chip, (∀ i ∈ is, j ≠ f i) →
      (is.foldl (fun c i => Chip.setMramWord c (f i) (g i)) c).mramWord j = c.mramWord j := by
  induction is with
  | nil => intros; rfl
  | cons i is ih =>
    intro c h
    rw [List.foldl_cons, ih _ fun k hk => h k (List.mem_cons_of_mem _ hk), Chip.mramWord_setMramWord,
      if_neg (h i List.mem_cons_self)]

theorem Chip.mramWord_writeSlot_ne (slot : Nat) (bs : List Byte) (i : Nat) (h : i / 8 ≠ slot) :
    (c.writeSlot slot bs).mramWord i = c.mramWord i := by
  refine Chip.mramWord_foldl_ne (fun j => 8 * slot + j) _ i (List.range 8) c fun j hj => ?_
  have := List.mem_range.1 hj
  omega

theorem Chip.slotBytes_writeSlot_ne {slot k : Nat} (bs : List Byte) (h : k ≠ slot) :
    (c.writeSlot slot bs).slotBytes k = c.slotBytes k := by
  have key : ∀ i, i / 8 = k → (c.writeSlot slot bs).mramWord i = c.mramWord i :=
    fun i hi => c.mramWord_writeSlot_ne _ _ _ (by omega)
  generalize c.writeSlot slot bs = d at key ⊢
  unfold Chip.slotBytes
  rw [List.flatMap_def, List.flatMap_def]
  refine congrArg List.flatten (List.map_congr_left fun j hj => ?_)
  have := List.mem_range.1 hj
  rw [key _ (by omega)]

/-! ### Frames -/

variable {c} {d : Chip} {ps : List ChipPart}

theorem Keeps.setMramWord (h : Keeps ps c d) (i : Nat) (v : DWord) (hm : .mram ∈ ps) :
    Keeps ps c (d.setMramWord i v) :=
  fun p hq => by
    have := h p hq
    cases p <;> first | exact this | exact absurd hm hq

theorem Keeps.writeSlot (h : Keeps ps c d) (slot : Nat) (bs : List Byte) (hm : .mram ∈ ps) :
    Keeps ps c (d.writeSlot slot bs) := by
  unfold Chip.writeSlot
  generalize List.range 8 = l
  induction l generalizing d with
  | nil => exact h
  | cons j l ih => exact ih (h.setMramWord _ _ hm)

theorem Keeps.writeGroup (h : Keeps ps c d) (slot typ : Nat) (fs : List (Nat × Nat × Nat)) (hm : .mram ∈ ps) :
    Keeps ps c (d.writeGroup slot typ fs) := by
  unfold Chip.writeGroup; split
  · exact h.writeSlot _ _ hm
  · exact h.writeSlot _ _ hm

theorem Keeps.writeGroup0 (h : Keeps ps c d) (clean : Nat) (hm : .mram ∈ ps) : Keeps ps c (d.writeGroup0 clean) :=
  h.writeGroup _ _ _ hm

theorem Keeps.writeKey (h : Keeps ps c d) (g kind set : Nat) (key : BitVec 256) (hm : .mram ∈ ps) :
    Keeps ps c (d.writeKey g kind set key) := (h.writeGroup _ _ _ hm).writeGroup _ _ _ hm

theorem Keeps.blankGroup (h : Keeps ps c d) (g : Nat) (hm : .mram ∈ ps) : Keeps ps c (d.blankGroup g) :=
  (h.writeSlot _ _ hm).writeSlot _ _ hm

theorem Keeps.writeWear (h : Keeps ps c d) (hm : .mram ∈ ps) : Keeps ps c d.writeWear :=
  (h.writeGroup _ _ _ hm).writeGroup _ _ _ hm

theorem Keeps.setJnl (h : Keeps ps c d) (x : Jnl) (hj : .jnl ∈ ps) : Keeps ps c { d with jnl := x } :=
  fun p hq => by
    have := h p hq
    cases p <;> first | exact this | exact absurd hj hq

/-- What writing records may change. -/
def recordParts : List ChipPart := [.regs, .mram, .jnl, .pwr]

/-- A slot of the map journal changes nothing but the MRAM, the journal's place and its cause (R458). -/
theorem Keeps.appendSlot (h : Keeps ps c d) (typ part parts : Nat) (fs : List (Nat × Nat × Nat))
    (hs : recordParts ⊆ ps) : Keeps ps c (d.appendSlot typ part parts fs) := by
  have hr := hs (show .regs ∈ recordParts by decide)
  have hm := hs (show .mram ∈ recordParts by decide)
  have hj := hs (show .jnl ∈ recordParts by decide)
  have hp := hs (show .pwr ∈ recordParts by decide)
  unfold Chip.appendSlot
  dsimp only
  split
  · exact ((h.writeSlot _ _ hm).setJnl _ hj).raise _ _ hr hp
  · exact (h.writeSlot _ _ hm).setJnl _ hj

/-- The records of an operation change no more than their slots do (R461). -/
theorem Keeps.appendRecs (h : Keeps ps c d) (rs : List Rec) (hs : recordParts ⊆ ps) :
    Keeps ps c (d.appendRecs rs) := by
  unfold Chip.appendRecs
  dsimp only
  generalize d.epochKey d.epochGroup = ek
  generalize rs.zipIdx = l
  induction l generalizing d with
  | nil => exact h
  | cons e l ih =>
    refine ih ?_
    dsimp only
    split
    · exact h.appendSlot _ _ _ _ hs
    · exact h.appendSlot _ _ _ _ hs

/-- The firmware port's record ends with a RESULT. -/
theorem Keeps.fwDone (h : Keeps ps c d) (n : Nat) (hr : .regs ∈ ps) (hp : .pwr ∈ ps) : Keeps ps c (d.fwDone n) :=
  ((h.setFld _ _ _ _ hr).setBit _ _ _ hr).raise _ _ hr hp

/-- A firmware-port record that is refused changes its control register and its cause (R460). -/
theorem regsOnly_fwDone (c : Chip) (n : Nat) : RegsOnly [R.JNL_PORT_CTRL, pIntStatus 0x05] c (c.fwDone n) :=
  ⟨(Keeps.refl _ c).fwDone n (by decide) (by decide),
    (((OnlyRegs.refl c _).setFld _ _ _ _ (by decide)).setBit _ _ _ (by decide)).raise _ _ (by decide)⟩

/-- An operation that must wait is kept, and a wait at the mark is counted (R19, R473). -/
theorem Keeps.waitOp (h : Keeps ps c d) (op : JnlOp) (hr : .regs ∈ ps) (hj : .jnl ∈ ps) :
    Keeps ps c (d.waitOp op) := by
  unfold Chip.waitOp
  dsimp only
  split
  · exact (h.setJnl _ hj).bump _ hr
  · exact h.setJnl _ hj

/-! ### Work that ends by itself -/

/-- Where nothing waits to end, `progress` does nothing. -/
theorem Chip.progress_quiet (h : c.Quiet) : c.progress = c := by
  have e0 : (if c.sys.mode = .boot then c else c.catchUp) = c := by
    split
    · rfl
    · exact h.due ‹_›
  have e1 : c.finishFinishes = c := by simp [Chip.finishFinishes, h.inflight]
  have e2 : c.finishOfflines = c := by simp [Chip.finishOfflines, h.inflight]
  have e3 : c.finishFlushes = c := by simp [Chip.finishFlushes, h.inflight]
  have e4 : c.finishDeletes = c := by simp [Chip.finishDeletes, h.inflight]
  have e5 : c.repeatPower = c := by simp [Chip.repeatPower, h.inflight]
  have e6 : c.tryActivate = c := by simp [Chip.tryActivate, h.activating]
  have e7 (i : Nat) : c.finishShutdown i = c := by simp [Chip.finishShutdown, h.shst]
  have e8 (i : Nat) : c.aggregated i = c := by simp [Chip.aggregated, h.since]
  have e9 : c.bootServo = c := by simp [Chip.bootServo, h.step]
  have e10 (f) : c.keepSlots f = c := by
    have hs := h.slots
    cases c
    simp only at hs
    subst hs
    rfl
  have e11 : c.continueBuild = c := by simp [Chip.continueBuild, h.build]
  unfold Chip.progress
  simp only [e0, e1, e2, e3, e4, e5, e6, e7, e8, e9, e10, e11, ite_self]

/-- A meaning that answers a chip, after which the work it lets end ends, completes so. -/
theorem completesThen_done {i : Instr} {s : State} {d : Chip} {P : Chip → Prop} (h : exec i s = s.done d)
    (hP : P d) : CompletesThen i s P := ⟨d, h, hP⟩

/-- A command that completes and leaves the chip quiet completes without more. -/
theorem CompletesThen.completes {i : Instr} {s : State} {P : Chip → Prop} (h : CompletesThen i s P)
    (hq : ∀ d, P d → d.Quiet) : Completes i s fun d => ∃ e, d = e.settle ∧ P e :=
  let ⟨d, hd, hP⟩ := h
  ⟨d.settle, by rw [hd, Chip.progress_quiet (hq d hP)], d, rfl, hP⟩

end Sys2Proof.Machine
end

