-- ==== Sys2Proof/WellFormed.lean ====
section
/-! DEFINITION. Well-formed commands: operands within what the command's own fields can carry. The step does not
look at it: a command from outside these bounds still has an effect. -/

namespace Sys2Proof

/-- Queue and command identifiers and ring indices are 16 bits wide. -/
def okQid (n : Nat) : Bool := decide (n < 65536)
def okCid (n : Nat) : Bool := decide (n < 65536)
def okIndex (n : Nat) : Bool := decide (n < 65536)

/-- Queue sizes as AQA carries them. -/
def okQsize (n : Nat) : Bool := decide (n < 4096)

/-- A zone's index with its actuator in bit 18, a unit of a zone, and a band's key. -/
def okZone (n : Nat) : Bool := decide (n < 524288)
def okUnit (n : Nat) : Bool := decide (n < 65536)
def okBand (n : Nat) : Bool := decide (n < 524288)

/-- A register page, an offset in it, and a physical address (R80). -/
def okPage (n : Nat) : Bool := decide (n < 256)
def okOff (n : Nat) : Bool := decide (n < 4096)
def okAddr (n : Nat) : Bool := decide (n < 68719476736)

/-- A temperature and an event code as the records carry them. -/
def okTemp (n : Nat) : Bool := decide (n < 256)
def okCode (n : Nat) : Bool := decide (n < 65536)

/-- A core's access: an address of 36 bits, and for a store as many bytes as it is wide. -/
def okAccess (x : CoreAccess) : Bool := okAddr x.addr && (x.kind != .store || x.data.length == x.size)

/-- The fields of an Oavin frame. -/
def okFrame (head reg data : Nat) : Bool := decide (head < 16) && decide (reg < 16) && decide (data < 65536)
def okBy : OvlBy → Bool
  | .firmware _ head reg data => okFrame head reg data
  | .channel _ => true

/-- A submission queue entry read from the host's memory: its identifiers and opcode. -/
def okEntry (e : HostEntry) : Bool := okQid e.qid && okIndex e.slot && okCid e.cmd.cid && decide (e.cmd.opcode < 256)

/-- The unit of a calibration result: a direct item is numbered by the table of items. -/
def okCalUnit : CalUnit → Bool
  | .plan _ => true
  | .direct item _ => decide (item < 9)

/-- A key is 1 to 16 bytes, a value at most 2 MiB in one command (R155). -/
def okKey (k : List Byte) : Bool := decide (1 ≤ k.length) && decide (k.length ≤ 16)
def okValue (d : List Byte) : Bool := decide (d.length ≤ 2097152)

/-- A packet of the boot UART fits its 16-bit length. -/
def okPacket (p : List Byte) : Bool := decide (p.length < 65536)

/-- A self-test command carries an identifier. -/
def okTest : SelfTest → Bool
  | .command cid => okCid cid
  | .scanned _ => true

/-- What the read path met: at most 48 positions of the search (R287), and 32 bytes of metadata (R259). -/
def okSense (s : Sense) : Bool :=
  decide (s.window.length ≤ 48) && (match s.sector with
    | some x => decide (x.info.length = 32)
    | none => true)

/-- A firmware slot's image: a header of 256 bytes and a body that fits the slot (R59, R60). -/
def okSlot (s : SlotImage) : Bool := decide (s.header.length = 256) && decide (s.body.length ≤ 8388352)

/-- A well-formed command. -/
def Instr.wf : Instr → Bool
  | .pePerst port => decide (port < 2)
  | .railMeasure tenthsMv => decide (tenthsMv.length = 11)
  | .nandProgramFail die _ => decide (die < 4)
  | .firmwareImageLoaded slot1 slot2 _ _ => okSlot slot1 && okSlot slot2
  | .uartHeader packet _ => okPacket packet
  | .uartData packet => okPacket packet
  | .uartRun packet => okPacket packet
  | .mapInconsistency zone chunk => okZone zone && decide (chunk < 16)
  | .registerWrite _ addr data _ _ => okAddr addr && data.also.all (fun w => okAddr w.addr)
  | .profileLoad addr _ => okAddr addr
  | .intSet page _ => okPage page
  | .collideClr page collision => okPage page && okOff (collision.getD 0)
  | .linkChange _ _ speed width => decide (speed < 8) && decide (width < 16)
  | .smbusBasicManagement address offset _ => decide (address < 128) && decide (offset < 256)
  | .ccEnSet _ asqs acqs => okQsize asqs && okQsize acqs
  | .sqDoorbell _ qid tail => okQid qid && okIndex tail
  | .cqDoorbell _ qid head => okQid qid && okIndex head
  | .commandFetch host => host.all okEntry
  | .unsupportedCommand _ qid cid => okQid qid && okCid cid
  | .createIoSq _ cid => okCid cid
  | .createIoCq _ cid => okCid cid
  | .deleteIoSq _ cid => okCid cid
  | .deleteIoCq _ cid => okCid cid
  | .getLogPage _ cid => okCid cid
  | .identify _ cid => okCid cid
  | .abort _ cid _ => okCid cid
  | .setFeatures _ cid => okCid cid
  | .getFeatures _ cid => okCid cid
  | .asyncEventRequest _ cid => okCid cid
  | .firmwareImageDownload _ cid => okCid cid
  | .firmwareCommit _ cid _ => okCid cid
  | .formatNvm _ cid => okCid cid
  | .sanitize _ cid => okCid cid
  | .deviceSelfTest _ test => okTest test
  | .read _ qid cid _ => okQid qid && okCid cid
  | .write _ qid cid => okQid qid && okCid cid
  | .zoneAppend _ qid cid => okQid qid && okCid cid
  | .flush _ qid cid => okQid qid && okCid cid
  | .writeZeroes _ qid cid => okQid qid && okCid cid
  | .datasetManagement _ qid cid => okQid qid && okCid cid
  | .verify _ qid cid _ => okQid qid && okCid cid
  | .zoneOpen _ qid cid => okQid qid && okCid cid
  | .zoneClose _ qid cid => okQid qid && okCid cid
  | .zoneFinish _ qid cid => okQid qid && okCid cid
  | .zoneReset _ qid cid => okQid qid && okCid cid
  | .zoneOffline _ qid cid => okQid qid && okCid cid
  | .reportZones _ qid cid => okQid qid && okCid cid
  | .writeUnitPowerSafe _ qid cid unit _ _ => okQid qid && okCid cid && okUnit unit
  | .retryBudgetExpiry _ qid cid => okQid qid && okCid cid
  | .kvStore _ qid cid data => okQid qid && okCid cid && okValue data.bytes
  | .kvAppend _ qid cid data => okQid qid && okCid cid && okValue data.bytes
  | .kvRetrieve _ qid cid _ _ => okQid qid && okCid cid
  | .kvDelete _ qid cid => okQid qid && okCid cid
  | .kvExist _ qid cid => okQid qid && okCid cid
  | .kvList _ qid cid => okQid qid && okCid cid
  | .segBackgroundVerify key _ _ _ => okKey key
  | .segOpenValueRebuild key _ => okKey key
  | .segExpiryReclaim key => okKey key
  | .segMigrationQueue key => okKey key
  | .mwpCommit zone _ => okZone zone
  | .mwpCommitTimer zone => okZone zone
  | .rebuildBandProbe _ band _ _ _ => okBand band
  | .relocation _ zone unit => okZone zone && okUnit unit
  | .bclCopyDone _ _ tmin tmax => okTemp tmin && okTemp tmax
  | .bandRelease _ band => okBand band
  | .bclOverwriteDone _ band => okBand band
  | .sectorDecided _ index _ sense _ => decide (index < 512) && okSense sense
  | .cleLawWrite _ _ off _ => okOff off
  | .ovlSelect by_ => okBy by_
  | .ovlWcur _ head reg data => okFrame head reg data
  | .ovlHeat _ head reg data => okFrame head reg data
  | .ovlAp by_ => okBy by_
  | .ovlAmon by_ => okBy by_
  | .ovlTemp _ head reg data => okFrame head reg data
  | .ovlFcode _ head reg data => okFrame head reg data
  | .ovlFclr _ head reg data => okFrame head reg data
  | .ovlRdreg _ head reg data => okFrame head reg data
  | .ovlWrreg _ head reg data => okFrame head reg data
  | .ovlPing _ head reg data => okFrame head reg data
  | .seeScrubWord addr _ _ => okAddr addr
  | .checkpointFail step => decide (step < 16)
  | .coreAbort _ access => okAccess access
  | .eventHandover code items => okCode code && decide (items.length ≤ 31)
  | .calTargetResult unit _ _ => okCalUnit unit
  | .tempDrift _ temp => okTemp temp
  | .bstAbort elements _ => decide (elements < 16)
  | .bstYieldExpiry elements _ => decide (elements < 16)
  | .bstPrecondCheck _ _ elements _ => decide (elements < 16)
  | .blockIdleGate page _ => okPage page
  | .temperatureThresholdCrossed temp _ => okTemp temp
  | .powerOnReset | .sysResetNLow | .watchdogExpiry | .sysWdogKick _ | .sysSwreset _ | .sysBootOk _
  | .holdupRestart _ _ _ | .pwrfail | .nandSaveDataDone _ _ _ | .chipPark | .bootStart | .pllLocked _ _ _
  | .powerOnProfileDone _ _ _ | .ddrTrainingDone _ | .memoryFillDone _ | .journalReplay | .saveSetRestore _ _
  | .saveRetire | .mapLoad _ | .uartSyncByte | .uartPacketTimeout | .modeReqCalibrate _ _ | .modeReqService
  | .modeReqRest _ | .modeReqRebuild | .restEntered | .restExitOnIo _ | .lcsAdvance _ _ | .fuseRowProgrammed
  | .tokenStart | .tokenVerifyDone _ | .relock | .ospRead _ | .ospProgram | .ospErase | .ospDone _
  | .dtimeLoRead _ | .dtmCmpHiWrite _ | .dtimeCompareMatch | .intSwiSet _ | .interruptTaken _ | .cpuIrqEoi _ _
  | .pcieConfigRequest _ _ | .controllerReset _ | .shutdownNormal _ | .shutdownAbrupt _ _
  | .fwActivationTimeout | .writeTransferStart | .segPopularityHalve | .locPartApply | .locBandCmdFree
  | .locBandCmdRetire | .locPtBuild | .locPtRelease | .hotMapSlotFreed | .rebuildMediaCacheScan _ _
  | .rebuildDone _ _ | .bclAutoSelect _ | .bclJobGo | .bclJobBegin _ | .bclVerifyDone _ _ | .bclJobAbandon _ _
  | .stalePurge _ | .secureDiscardDone | .secSha256Job | .secCrc32cJob | .secImgVerifyJob | .secJobDone _
  | .secRootInit | .rdDescRead _ _ _ | .rdDescVerify _ _ _ | .rdDescCapture _ _ | .rdDescRedecode _ _
  | .rdAbort _ | .fmtLock _ | .servoSample _ _ _ _ | .servoMarkMiss _ _ _ | .servoSearchExit _ _ _ _
  | .cleOverrun _ _ _ _ _ | .cleRun _ | .clePark _ | .cleClrRc _ | .cleRefPush _ _ | .cleRcDataAccess _ _
  | .cleInjectOverrun _ | .chdSeekReq _ _ | .chdFfEnable _ _ | .chdRetire _ | .retirementCommit
  | .chdUnretire _ | .ovlResponse _ | .ovlTempPoll | .preampFault _ | .mlkWrite _ _ | .mlkRead _ | .mlkTxDone _
  | .mlkIrq _ _ | .mlkIrqRetry _ _ | .mlkRetractCtrl _ | .snsSample _ _ _ | .snsEventEnd _ | .wrDescWrite _ _
  | .wrDescFill _ _ | .writeDescDone _ _ | .writeNoPermission _ | .envelopeLimit _ | .wrAbort _
  | .asOntimeSet _ _ | .synthLock _ _ | .ddrRetrain _ _ _ | .mecScrubBurst _ _ | .mecWriteRaw | .mecReadRaw
  | .seeWriteRaw | .seeReadRaw | .jnlPortWrite _ _ | .journalHwmResume | .jnlCtrlCkpt
  | .checkpointDone _ _ _ _ _ _ | .jnlInit | .optimeTick | .nfcEraseAhead _ _ | .nfcFirmwareRead _
  | .cpuRelease _ | .cpuL2CtrlWrite _ | .cpuL1Inv _ | .cpuL1Enable _ _ _ | .cmClean _ _ | .cmInvalidate _ _
  | .cmCleanInv _ _ | .cmDone _ | .cpuL2Carve _ | .cpuL2Lock _ | .cpuAttrWrite _ _ | .cacheParityError _
  | .cpuInject _ | .evrOperation _ | .evrFreeze _ | .evrFreezeExpired | .evrPost | .evrMirrorProgram _
  | .evrInjectLogfail | .calLimitReached _ | .calDirectAdc _ | .calDirectPrecompDelay _
  | .calDirectAssistDelay _ | .calDirectMaDac _ | .calDirectSensors | .calDirectTemp | .bstMemoryTest _ _ _
  | .bstAnalogTest _ _ _ | .bstSegmentDone _ | .bstRepairApply _ | .bstRepairClear _ | .bstFuseProgram _
  | .xinLost | .xinReturn | .clkForceOn _ | .jtagExtest | .jtagSamplePreload _ | .jtagIdcode | .jtagBypass _
  | .jtagRegAccess _ _ _ | .jtagCoreDebug | .jtagScan | .tracePacket _ _ | .dbgUartTx _ | .dbgUartRxByte _
  | .dbgUartRxRead | .dbgUartStatusRead => true

end Sys2Proof
end

