-- ==== Sys2Proof/Tests/Slice0.lean ====
section
/-! SUPPORT. Tests: ill-formed commands are refused, for every statement states and operands that meet its hypotheses,
and small checks of single steps. -/

namespace Sys2Proof.Tests

set_option Elab.async false
set_option maxRecDepth 40000

open Sys2Proof Sys2Proof.Machine

/-! ### Small states -/

/-- A chip after reset with its device clocks running. -/
def live : Chip := { State.reset.chip with dtm := { running := true } }

/-- A state with a chip and nothing waiting. -/
def on (c : Chip) : State := { chip := c }

/-- In a mode. -/
def inMode (m : Mode) (c : Chip) : Chip := { c with sys := { c.sys with mode := m } }

/-- With HOLDUP in progress. -/
def heldUp (h : Holdup) (c : Chip) : Chip := { c with sys := { c.sys with mode := .holdup, booting := true, holdup := some h } }

/-- BOOT has begun and its step n is complete. -/
def booted (n : Nat) (c : Chip) : Chip := ({ c with sys := { c.sys with booting := true } } : Chip).step n

/-- In a life-cycle state. -/
def life (l : Life) (c : Chip) : Chip := { c with lcs := { c.lcs with fused := l } }

/-- What a command leaves of a chip. -/
def after (i : Instr) (c : Chip) : Chip :=
  match exec i (on c) with
  | .next t => t.chip
  | _ => c

/-! ### Ill-formed commands are refused, one for each check -/

theorem test_wf_refuses_system_and_registers :
    ([.pePerst 2, .railMeasure [1, 2], .nandProgramFail 4 0, .mapInconsistency 524288 0,
      .mapInconsistency 0 16, .registerWrite .jtag 68719476736 ⟨0, []⟩ 0 0,
      .registerWrite .jtag 0 ⟨0, [⟨.smigon, 68719476736, 0, 0, 0⟩]⟩ 0 0, .profileLoad 68719476736 0, .intSet 256 0,
      .collideClr 256 none, .collideClr 0 (some 4096)] : List Instr).all (fun i => !i.wf) = true := by decide

theorem test_wf_refuses_host_interface :
    ([.linkChange 0 ⟨true, 0, false⟩ 8 0, .linkChange 0 ⟨true, 0, false⟩ 0 16, .smbusBasicManagement 128 0 0,
      .smbusBasicManagement 0 256 0, .ccEnSet 0 4096 0, .ccEnSet 0 0 4096, .sqDoorbell 0 65536 0, .sqDoorbell 0 0 65536,
      .cqDoorbell 0 65536 0, .cqDoorbell 0 0 65536, .commandFetch [⟨0, 65536, 0, { cid := 0, opcode := 0 }⟩],
      .commandFetch [⟨0, 0, 65536, { cid := 0, opcode := 0 }⟩], .commandFetch [⟨0, 0, 0, { cid := 65536, opcode := 0 }⟩],
      .commandFetch [⟨0, 0, 0, { cid := 0, opcode := 256 }⟩], .unsupportedCommand 0 65536 0, .unsupportedCommand 0 0 65536,
      .createIoSq 0 65536, .createIoCq 0 65536, .deleteIoSq 0 65536, .deleteIoCq 0 65536, .getLogPage 0 65536,
      .identify 0 65536, .abort 0 65536 true, .setFeatures 0 65536, .getFeatures 0 65536, .asyncEventRequest 0 65536,
      .firmwareImageDownload 0 65536, .firmwareCommit 0 65536 true, .formatNvm 0 65536, .sanitize 0 65536,
      .deviceSelfTest 0 (.command 65536)] : List Instr).all (fun i => !i.wf) = true := by decide

theorem test_wf_refuses_firmware_slots :
    ([.firmwareImageLoaded ⟨[], [], true⟩ ⟨List.replicate 256 0, [], true⟩ 1 25,
      .firmwareImageLoaded ⟨List.replicate 256 0, [], true⟩ ⟨[0], [], true⟩ 1 25] : List Instr).all (fun i => !i.wf) =
      true := by decide

theorem test_wf_refuses_long_images (b : List Byte) (h : 8388352 < b.length) :
    (Instr.firmwareImageLoaded ⟨List.replicate 256 0, b, true⟩ ⟨List.replicate 256 0, [], true⟩ 1 25).wf = false := by
  simp [Instr.wf, okSlot, Nat.not_le.mpr h]

theorem test_wf_refuses_io :
    ([.read 0 65536 0 [], .read 0 0 65536 [], .write 0 65536 0, .write 0 0 65536, .zoneAppend 0 65536 0,
      .zoneAppend 0 0 65536, .flush 0 65536 0, .flush 0 0 65536, .writeZeroes 0 65536 0, .writeZeroes 0 0 65536,
      .datasetManagement 0 65536 0, .datasetManagement 0 0 65536, .verify 0 65536 0 [], .verify 0 0 65536 [],
      .zoneOpen 0 65536 0, .zoneOpen 0 0 65536, .zoneClose 0 65536 0, .zoneClose 0 0 65536, .zoneFinish 0 65536 0,
      .zoneFinish 0 0 65536, .zoneReset 0 65536 0, .zoneReset 0 0 65536, .zoneOffline 0 65536 0, .zoneOffline 0 0 65536,
      .reportZones 0 65536 0, .reportZones 0 0 65536, .writeUnitPowerSafe 0 65536 0 0 [] false,
      .writeUnitPowerSafe 0 0 65536 0 [] false, .writeUnitPowerSafe 0 0 0 65536 [] false, .retryBudgetExpiry 0 65536 0,
      .retryBudgetExpiry 0 0 65536] : List Instr).all (fun i => !i.wf) = true := by decide

theorem test_wf_refuses_values_and_map :
    ([.kvStore 0 65536 0 ⟨[], false⟩, .kvStore 0 0 65536 ⟨[], false⟩, .kvAppend 0 65536 0 ⟨[], false⟩,
      .kvAppend 0 0 65536 ⟨[], false⟩,
      .kvRetrieve 0 65536 0 .unrecovered .unrecovered, .kvRetrieve 0 0 65536 .unrecovered .unrecovered, .kvDelete 0 65536 0,
      .kvDelete 0 0 65536, .kvExist 0 65536 0, .kvExist 0 0 65536, .kvList 0 65536 0, .kvList 0 0 65536,
      .segBackgroundVerify [] .unrecovered .unrecovered none, .segOpenValueRebuild [] .unrecovered, .segExpiryReclaim [],
      .segMigrationQueue (List.replicate 17 0), .mwpCommit 524288 0, .mwpCommitTimer 524288,
      .rebuildBandProbe .A 524288 none [] [], .relocation .A 524288 0, .relocation .A 0 65536, .bclCopyDone .A [] 256 0,
      .bclCopyDone .A [] 0 256, .bandRelease .A 524288, .bclOverwriteDone .A 524288] : List Instr).all
      (fun i => !i.wf) = true := by decide

theorem test_wf_refuses_long_packets (p : List Byte) (h : 65536 ≤ p.length) :
    (Instr.uartHeader p true).wf = false ∧ (Instr.uartData p).wf = false ∧ (Instr.uartRun p).wf = false := by
  simp [Instr.wf, okPacket, Nat.not_lt.mpr h]

theorem test_wf_refuses_long_values (d : List Byte) (h : 2097152 < d.length) :
    (Instr.kvStore 0 0 0 ⟨d, false⟩).wf = false ∧ (Instr.kvAppend 0 0 0 ⟨d, true⟩).wf = false := by
  simp [Instr.wf, okValue, Nat.not_le.mpr h]

theorem test_wf_refuses_channels_and_links :
    ([.sectorDecided .A 512 0 ⟨[], 0, 0, 0, none⟩ [], .sectorDecided .A 0 0 ⟨List.replicate 49 0, 0, 0, 0, none⟩ [],
      .sectorDecided .A 0 0 ⟨[], 0, 0, 0, some ⟨[], 0⟩⟩ [], .cleLawWrite .jtag .A 4096 0,
      .ovlSelect (.firmware .A 16 0 0), .ovlAp (.firmware .A 0 16 0), .ovlAmon (.firmware .A 0 0 65536), .ovlWcur .A 16 0 0,
      .ovlHeat .A 0 16 0, .ovlTemp .A 0 0 65536, .ovlFcode .A 16 0 0, .ovlFclr .A 16 0 0, .ovlRdreg .A 16 0 0,
      .ovlWrreg .A 16 0 0, .ovlPing .A 16 0 0, .seeScrubWord 68719476736 [] none, .checkpointFail 16,
      .coreAbort 0 ⟨.store, 0, 4, [1]⟩, .coreAbort 0 ⟨.load, 68719476736, 4, []⟩, .eventHandover 65536 [],
      .eventHandover 0 (List.replicate 32 none), .calTargetResult (.direct 9 .A) 0 (.temp 0), .tempDrift .A 256,
      .bstAbort 16 [], .bstYieldExpiry 16 [], .bstPrecondCheck 7500 0 16 [], .blockIdleGate 256 true,
      .temperatureThresholdCrossed 256 true] : List Instr).all (fun i => !i.wf) = true := by decide

/-- Well-formed commands pass: the greatest operands of a few checks. -/
theorem test_wf_accepts :
    ([.pePerst 1, .intSet 255 0, .sqDoorbell 1 65535 65535, .relocation .B 524287 65535, .sectorDecided .A 511 0
        ⟨List.replicate 48 0, 0, 0, 0, none⟩ [], .eventHandover 65535 (List.replicate 31 none),
      .coreAbort 0 ⟨.store, 68719476735, 1, [1]⟩] : List Instr).all Instr.wf = true := by decide

/-- The table gives no row any bits, so no word spells a command and no word is put into the queue. -/
theorem test_no_word_spells_a_command :
    decodeTableWord 32 0 = none ∧ State.reset.withFetchWord 32 0xFFFFFFFF = State.reset := ⟨rfl, rfl⟩

/-! ### States and operands that meet the hypotheses of each statement -/

theorem witness_IdleStepCountsDeviceTime :
    ((on live).pending = [] ∧ live.dtm.running = true) ∧
    (State.reset.pending = [] ∧ State.reset.chip.dtm.running = false) := by decide

theorem witness_EveryStepSettlesThePins : ∃ s', step State.reset = .next s' :=
  ⟨on State.reset.chip.settle, rfl⟩

/-- A HOLDUP begun by a supply event whose save was made, parked. -/
def parkedHoldup : Holdup := ⟨.supply, false, true, true, true⟩

theorem witness_ParkedChipRestartsWhenAllConditionsHold :
    ((on (heldUp parkedHoldup live)).chip.sys.holdup = some parkedHoldup ∧ parkedHoldup.parked = true) ∧
    (true && true && false) = false := by decide

/-- The watchdog is enabled with 5,000 ms and has just run out. -/
def lateDog (c : Chip) : Chip :=
  { c.setReg R.SYS_WDOG_CTRL 0x80001387 with dtm := { c.dtm with dtime := 2000000000 } }

theorem witness_EveryResetSourceButPowerOnBeginsHoldup :
    let s := on (lateDog (booted 9 live))
    s.chip.sys.booting = true ∧ s.chip.sys.holdup = none ∧ s.chip.bit R.SYS_WDOG_CTRL 31 = true ∧
    s.chip.sys.wdogFrom.toNat + s.chip.wdogTime = s.chip.dtm.dtime.toNat ∧ s.chip.alive = true := by decide +kernel

/-- A HOLDUP begun by a supply event, its save due and not yet made. -/
def savingHoldup : Holdup := ⟨.supply, false, true, false, false⟩

theorem witness_SecondResetSourceOnlyLeavesItsCause :
    let s := on (lateDog (heldUp savingHoldup live))
    (0 : Word) ≠ 0x0000A5A5#32 ∧ s.chip.sys.booting = true ∧ s.chip.sys.holdup = some savingHoldup ∧
    s.chip.bit R.SYS_WDOG_CTRL 31 = true ∧ s.chip.sys.wdogFrom.toNat + s.chip.wdogTime ≤ s.chip.dtm.dtime.toNat ∧
    s.chip.alive = true := by decide +kernel

theorem witness_SupervisionKicksRailsAndPerst :
    live.alive = true ∧ (0x0000A5A5#32 : Word) ≠ 0x00005AA5#32 ∧ live.jnl.failed = false ∧ live.jnl.closed = false ∧
    (2 : Word).getLsbD 0 = false ∧ live.dtm.running = true ∧
    ((List.replicate 11 60000).length = 11 ∧
      (∀ n ∈ [1, 6], (railLimits.getD n (0, 0)).1 ≤ (List.replicate 11 60000).getD n 0)) ∧
    live.inHoldup = false ∧ live.portHere (0 : Fin 2) = true := by decide

theorem witness_HoldupSavesThenParks :
    (savingHoldup.saveDue = true ∧ savingHoldup.saved = false ∧ savingHoldup.parked = false) ∧
    (parkedHoldup.saveDue = false ∨ parkedHoldup.saved = true) ∧
    (on (heldUp savingHoldup live)).chip.sys.holdup = some savingHoldup ∧
    (live.jnl.closed = false ∧ live.nand.badBlocks.length < 56) ∧
    ({ live with jnl := { live.jnl with closed := true } } : Chip).jnl.closed = true ∧
    live.sys.holdup = none := by decide

theorem witness_BootStartsLocksTestsTrainsAndFills :
    live.sys.booting = false ∧ (booted 1 live).sys.booting = true ∧ (booted 1 live).atStep 1 = true ∧
    (booted 4 live).atStep 4 = true ∧ (booted 5 live).atStep 5 = true ∧ (2 : Fin 3) ≠ 0 ∧
    (booted 6 live).atStep 6 = true := by decide

/-- A header for a body of one byte at the first address of DRAM, under the test key (R59). -/
def imageHeader : List Byte :=
  leBytes 4 0x46494C43 ++ leBytes 4 256 ++ leBytes 4 7 ++ leBytes 4 1 ++ leBytes 8 0x100000000 ++
    leBytes 8 0x100000000 ++ leBytes 4 1 ++ List.replicate 28 0 ++ (leBytes 32 (sha256 [0]).toNat).reverse ++
    List.replicate 160 0

/-- A firmware slot that passes its checks, and one of another body. -/
def goodSlot : SlotImage := ⟨imageHeader, [0], true⟩
def badSlot : SlotImage := ⟨imageHeader, [1], true⟩

/-- A chip of MANUFACTURE with 4 GiB of DRAM, filled. -/
def withDram (c : Chip) : Chip := { life .manufacture c with mem := { size := 1, filledDram := true, filledSram := true } }

theorem witness_BootEntersFirmwareOrReportsFailure :
    let c := withDram (booted 8 live)
    c.atStep 8 = true ∧ c.uartBoot = false ∧ (1 : Fin 3) ≠ 0 ∧ c.slotStep goodSlot = 0 ∧ c.slotStep badSlot = 6 ∧
    (booted 8 live).slotStep goodSlot ≠ 0 ∧ c.firstSlot.1 = 1 := by decide +kernel

theorem witness_BootEntersFirmwareOrReportsFailure_uart :
    let c := (booted 8 live).setReg R.SYS_STRAP 4
    c.atStep 8 = true ∧ c.uartBoot = true := by decide

/-- A save set on the NAND, and a chip that has restored it. -/
def oneSave : SaveSet := ⟨1, [], [], 0, true⟩

theorem witness_BootReplaysRestoresAndLoadsTheMap :
    (booted 10 live).atStep 10 = true ∧ (booted 10 live).sys.blankBoot = false ∧
    (booted 11 live).atStep 11 = true ∧ (booted 11 live).nand.validSet = none ∧
    ({ booted 11 live with nand := { saves := [oneSave] } } : Chip).nand.validSet = some oneSave ∧
    (let c : Chip := { live with nfc := { restoredSet := some 1 } }
     c.nfc.restoredSet = some 1 ∧ c.alive = true ∧ c.inHoldup = false ∧
       (∀ u ∈ c.nvq.staging, u.restored = false ∧ c.nfc.savedOrder ≤ u.order)) ∧
    (booted 13 live).atStep 13 = true := by decide

/-- A chip at step 8 of a boot over the UART, its download begun. -/
def uartChip (h : Option (List Byte)) (n : Nat) : Chip :=
  { (booted 8 live |>.setReg R.SYS_STRAP 4) with uart := ⟨true, h, n⟩ }

/-- A packet of a TYPE with its CRC. -/
def packetOf (typ : Byte) (body : List Byte) : List Byte :=
  let p := typ :: leBytes 2 body.length ++ body
  0xA5 :: p ++ leBytes 4 (crc32c p).toNat

/-- A header of zeros but for the digest of an image of no bytes. -/
def emptyHeader : List Byte :=
  List.replicate 64 0 ++ (leBytes 32 (sha256 []).toNat).reverse ++ List.replicate 160 0

theorem witness_UartDownloadAnswersEveryPacket_open :
    ((uartChip none 0).uartOpen = true ∧ (uartChip none 0).uart.started = true) ∧
    (({ uartChip none 0 with uart := {} } : Chip).uartOpen = true ∧
      ({ uartChip none 0 with uart := {} } : Chip).uart.started = false) ∧
    (uartChip (some emptyHeader) 0).uart.header = some emptyHeader ∧ (uartChip none 0).uart.header = none := by
  decide

theorem witness_UartDownloadAnswersEveryPacket_header :
    let p := packetOf 1 (List.replicate 256 0)
    leAt p 0 1 = 0xA5 ∧ leAt p 1 1 = 1 ∧ packetRefused p = false ∧ packetGood p = true ∧
    (uartChip none 0).headerStep (slice p 4 256) true = 1 := by decide +kernel

theorem witness_UartDownloadAnswersEveryPacket_good_header :
    let p := packetOf 1 imageHeader
    let c := withDram (uartChip none 0)
    leAt p 0 1 = 0xA5 ∧ leAt p 1 1 = 1 ∧ packetRefused p = false ∧ packetGood p = true ∧ c.uartOpen = true ∧
    c.headerStep (slice p 4 256) true = 0 ∧ c.headerStep (slice p 4 256) false = 4 := by decide +kernel

theorem witness_UartDownloadAnswersEveryPacket_data :
    let p := packetOf 2 [0, 0, 0, 0, 7]
    let h := List.replicate 12 0 ++ [1] ++ List.replicate 243 0
    leAt p 0 1 = 0xA5 ∧ leAt p 1 1 = 2 ∧ packetRefused p = false ∧ packetGood p = true ∧
    leAt p 4 4 = (uartChip (some h) 0).uart.received ∧ leAt p 4 4 + (leAt p 2 2 - 4) ≤ leAt h 12 4 ∧
    leAt p 4 4 ≠ (uartChip (some h) 1).uart.received := by decide +kernel

theorem witness_UartDownloadAnswersEveryPacket_run :
    let p := packetOf 3 []
    let r := (uartChip (some emptyHeader) 0).readRange (leAt emptyHeader 16 8) (leAt emptyHeader 12 4)
    leAt p 0 1 = 0xA5 ∧ leAt p 1 1 = 3 ∧ packetRefused p = false ∧ packetGood p = true ∧
    (uartChip (some emptyHeader) 0).uart.received = leAt emptyHeader 12 4 ∧ r.2.1 = false ∧
    imageDigest emptyHeader r.1 = true := by decide +kernel

theorem witness_UartDownloadAnswersEveryPacket_refused :
    let p : List Byte := [0xA5, 4, 0, 0]
    let q : List Byte := [0xA5, 1, 0, 1]
    leAt p 0 1 = 0xA5 ∧ leAt p 1 1 ∉ [2, 3] ∧ packetRefused p = true ∧
    leAt q 0 1 = 0xA5 ∧ leAt q 1 1 ∉ [2, 3] ∧ packetRefused q = false ∧ packetGood q = false := by decide

theorem witness_ModeRequestsFollowTheTable :
    (let c := (life .manufacture (inMode .service live)).setReg R.CAL_PLAN_A 1
     c.alive = true ∧ c.sys.trans = none ∧ c.sys.mode = .service ∧ (true || false) = true ∧ c.effective ≠ 0 ∧
       c.effective ≠ 4 ∧ c.effective = 1 ∧ c.outOfService .A = false ∧ c.planTargets .A ≠ []) ∧
    (let c := inMode .rest live
     c.alive = true ∧ c.sys.trans = none ∧ c.sys.mode = .rest) ∧
    (let c : Chip := { live with sys := { live.sys with trans := some ⟨.rest, 1⟩ } }
     c.alive = true ∧ c.sys.trans ≠ none) ∧
    (let c := life .retired (inMode .service live)
     c.sys.trans = none ∧ c.sys.mode ≠ .rest ∧ c.sys.mode = .service ∧ c.effective = 4) := by decide

/-- A chip entering REST, and one in REST with an I/O queue rung. -/
def toRest : Chip := { inMode .service live with sys := { (inMode .service live).sys with trans := some ⟨.rest, 2⟩ } }
def rungQueue : Sq := { cntl := 0, qid := 1, size := 4, tail := 1, cqid := 1 }
def restRung : Chip := { inMode .rest live with nvq := { live.nvq with sqs := [rungQueue] } }

theorem witness_RestIsEnteredWhenIdleAndLeftOnWork :
    (toRest.alive = true ∧ toRest.inHoldup = false ∧ toRest.sys.trans = some ⟨.rest, 2⟩ ∧
      (∀ page ∈ linePages, toRest.holdsRest page = false)) ∧
    (let c : Chip := { toRest with chanA := { toRest.chanA with ladders := [⟨0, 0, 0, 0, 0, 0, 0, 0, 0, false, 0, 0, [], 0, [], true, false, 0, false, .d, false, 0, true, false, 0, false, 0⟩] } }
     (linePages.filter c.holdsRest).getLast? = some 0x20) ∧
    (restRung.alive = true ∧ restRung.inHoldup = false ∧
      (restRung.nvq.sqs.any (fun q => q.qid != 0 && q.head != q.tail)) = true ∧ restRung.sys.mode = .rest ∧
      restRung.sys.trans = none ∧ toRest.sys.trans.map Transition.target = some .rest) ∧
    restRung.nvq.inflight = [] ∧ (life .manufacture live).effective ≠ 0 := by decide

/-- A chip whose LCS is at work. -/
def lcsBusy (j : LcsJob) : Chip := { live with lcs := { live.lcs with job := some j } }

theorem witness_LifeCycleAdvancesOnlyAsStated :
    (live.alive = true ∧ live.lcsBusy = false ∧ live.lcs.fused = .blank) ∧
    (lcsBusy (.verify 0 1)).lcsBusy = true ∧
    (let c : Chip := { live with bst := { live.bst with fusing := [(⟨4, 0, 0, 63⟩, true), (⟨4, 0, 1, 7⟩, false)] } }
     c.alive = true ∧ c.inHoldup = false ∧ c.bst.fusing ≠ [] ∧ c.lcs.job = none ∧ c.lcsBusy = true ∧
       c.fuses.repairRows < 95) ∧
    (let c : Chip := { life .manufacture live with fuses := { live.fuses with imageKey := true, unlockKey := true } }
     c.lcs.fused = .manufacture ∧ c.fuses.imageKey = true ∧ c.fuses.unlockKey = true ∧ c.repairIncomplete = false) ∧
    ((0 : BitVec 16) ≠ 0xA11C ∧ (2 : Fin 4) = 2 ∧ live.lcs.fused ≠ .manufacture ∧
      (live.fuses.imageKey && live.fuses.unlockKey && !live.repairIncomplete) = false) ∧
    (live.lcs.failures < 8 ∧ 8 ≤ ({ live with lcs := { live.lcs with failures := 8 } } : Chip).lcs.failures) ∧
    ((lcsBusy (.program .retired true)).lcs.job = some (.program .retired true) ∧ live.inHoldup = false) ∧
    ((lcsBusy (.verify 0 1)).lcs.job = some (.verify 0 1) ∧ (0 : Nat) ≠ 1 ∧
      (lcsBusy (.verify 4 1)).lcs.job = some (.verify 4 1)) ∧
    ({ live with lcs := { live.lcs with diagnostic := true } } : Chip).lcs.diagnostic = true ∧
    live.lcs.diagnostic = false := by decide

/-- A chip with an octal NOR of 16 MiB and an operation of 256 bytes asked for. -/
def norChip : Chip :=
  life .manufacture (inMode .service live) |>.setReg R.OSP_MODE 0x1801 |>.setReg R.OSP_LEN 256 |>.setReg R.OSP_DRAM_HI 1

theorem witness_NorOperationsAreCheckedAndRun :
    norChip.alive = true ∧ norChip.osp = none ∧
    norChip.ospAllowed 2 = false ∧ norChip.ospAllowed 3 = false ∧
    (withDram norChip).ospAllowed 1 = true ∧ (withDram norChip).ospAllowed 2 = true ∧
    (withDram (norChip.setReg R.OSP_LEN 65536)).ospAllowed 3 = true ∧
    ({ norChip with osp := some ⟨1, 0, 0, 1, []⟩ } : Chip).osp = some ⟨1, 0, 0, 1, []⟩ := by decide

/-! ### Registers, interrupts and time -/

theorem witness_RegisterWriteTakesTheFieldsItMayChange :
    let k := R.NVQ_TLER
    live.mayReach .jtag (0x40000000 + k) = true ∧ (regDesc k).isSome = true ∧
    (∀ r ∈ regDesc k, r.readOnly = false) ∧
    k / 4096 ∈ [0x10, 0x11, 0x22, 0x2A, 0x3A, 0x40, 0x48, 0x49] ∧ 0x80 ≤ k % 4096 ∧ k % 4096 ≠ 0x604 ∧
    profileOff (k / 4096) ≠ some (k % 4096) ∧
    (live.mayReach .jtag (0x40000000 + R.HIF_LINK0) = true ∧ ∃ r, regDesc R.HIF_LINK0 = some r ∧ r.readOnly = true) :=
  ⟨by decide, by decide, by decide, by decide, by decide, by decide, by decide, by decide, _, rfl, by decide⟩

theorem witness_CommonRegistersOfEveryPage :
    live.alive = true ∧ populated 0x11 = true ∧ populated 0x12 = true ∧
    ({ live with lcs := { live.lcs with tierS := true } } : Chip).lcs.tierS = true ∧
    live.mayReach .jtag (0x40000000 + pIntEnable 0x11) = true ∧
    live.mayReach .jtag (0x40000000 + pIntStatus 0x11) = true ∧
    live.mayReach .jtag (0x40000000 + pFault 0x11) = true ∧
    ((1 : Word) &&& 1 ≠ 0 ∧ (1 : Word) &&& 2 = 0) := by decide

theorem witness_ProfileLoadsItsTable :
    live.alive = true ∧ profileOff 0x20 = some 0x080 ∧ profileOff 0x24 ≠ none ∧ profileOff 0x22 ≠ none ∧
    (2 : Fin 4) ≠ 3 ∧ profileOff ((0x40011080 - 0x40000000) / 4096) ≠ some (0x40011080 % 4096) := by decide

/-- A core released with an interrupt line pending. -/
def lineChip : Chip :=
  booted 9 live |>.setBit R.CPU_RELEASE 0 true |>.setReg R.INT_SWI 1 |>.setReg (R.INT_ROUTE 48) 0x101

theorem witness_DeviceTimeAndInterruptLines :
    live.alive = true ∧
    (let c : Chip := (live.setReg R.DTM_CMP_LO 0).setBit (pCtrl 0x08) 0 true
     c.bit (pCtrl 0x08) 0 = true ∧ (((0 : Word) ++ c.reg R.DTM_CMP_LO : BitVec 64)).toNat ≤ c.dtm.dtime.toNat ∧
       (({ c with dtm := { c.dtm with armed := true, compare := 0 } } : Chip).dtm.armed = true)) ∧
    ((live.setBit (pCtrl 0x08) 0 false).bit (pCtrl 0x08) 0 = false ∧ live.dtm.running = true ∧ live.dtm.armed = false) ∧
    ((1 : Word) &&& 0xFFFF0000#32 = 0 ∧ (0x10000 : Word) &&& 0xFFFF0000#32 ≠ 0) ∧
    (let c : Chip := { lineChip with cpu := { lineChip.cpu with irq := [(0, [(3, 1)])] } }
     c.irqOf 0 = [(3, 1)] ∧ (4 : Fin 64) ≠ 3) := by decide

theorem witness_DeviceTimeAndInterruptLines_taken :
    lineChip.coreRuns (0 : Fin 8).val = true ∧ lineChip.irqOf (0 : Fin 8).val = [] ∧
    lineChip.pendingAt (0 : Fin 8).val = [48] ∧
    live.mayReach .jtag (0x40000000 + R.DTM_DTIME_LO) = true := by decide +kernel

/-! ### The host interface -/

/-- A command of a queue of controller 0, fetched. -/
def fetched (qid : Nat) (h : HostCmd) (seq : Nat := 0) : InCmd := { cntl := 0, qid := qid, cid := h.cid, seq := seq, cmd := h }

/-- A chip in SERVICE with controller 0 ready, its admin queue and I/O queue 1, and commands in flight. -/
def serving (xs : List InCmd) : Chip := { life .deployed (inMode .service live) with
  nvq := { c1 := { en := true, rdy := true }, inflight := xs, nextSeq := xs.length
           sqs := [{ cntl := 0, qid := 0, size := 16, cqid := 0 }, { cntl := 0, qid := 1, size := 2, cqid := 1 }]
           cqs := [{ cntl := 0, qid := 0, size := 16 }, { cntl := 0, qid := 1, size := 2 }] } }

/-- The admin command of an opcode with its first double words. -/
def adminCmd (op : Nat) (cdw10 : Nat := 0) (cdw11 : Nat := 0) (nsid : Nat := 0) : InCmd :=
  fetched 0 { cid := 5, opcode := op, nsid := nsid, cdw10 := cdw10, cdw11 := cdw11 }

/-- The same command decided, or at work. -/
def decidedCmd (x : InCmd) : InCmd := { x with phase := .done, result := some { cntl := 0, qid := x.qid, cid := x.cid } }
def workingCmd (x : InCmd) : InCmd := { x with phase := .working }

/-- A Read of an I/O queue. -/
def readCmd (nsid : Nat := 1) (lba : Nat := 0) (n : Nat := 0) : InCmd :=
  fetched 1 { cid := 9, opcode := 0x02, nsid := nsid, cdw10 := lba, cdw12 := n }

theorem witness_CompletionsAreDecidedOnceAndPostedInOrder :
    let x := readCmd
    let r : Completion := { cntl := 0, qid := 1, cid := 9, seq := some 0 }
    let late : InCmd := { x with seq := 1, cid := 10 }
    let full : Chip := { serving [x] with nvq := { (serving [x]).nvq with
      cqs := [{ cntl := 0, qid := 0, size := 16 }, { cntl := 0, qid := 1, size := 2, tail := 1 }] } }
    (heldUp savingHoldup live).inHoldup = true ∧ (serving []).nvq.find r.cntl r.qid r.cid = none ∧
    ((serving [decidedCmd x]).nvq.find r.cntl r.qid r.cid = some (decidedCmd x) ∧ (decidedCmd x).result ≠ none) ∧
    ((serving [x]).inHoldup = false ∧ (serving [x]).nvq.find r.cntl r.qid r.cid = some x ∧ x.result = none ∧
      r.seq = some x.seq) ∧
    ((serving [x, late]).nvq.inflight.filter (fun y => y.cntl == r.cntl && y.qid == r.qid) = [x, late] ∧
      x.seq ≠ late.seq ∧ (∀ z ∈ [x, late], z.isAer = false)) ∧
    ((serving [x]).nvq.inflight.filter (fun y => y.cntl == r.cntl && y.qid == r.qid) = [x] ∧
      full.nvq.room r.cntl r.qid = 0 ∧ (serving [x]).nvq.room r.cntl r.qid = 1) ∧
    ({ r with sc := 1 } : Completion).isError = true ∧ r.isError = false := by decide

theorem witness_LinkConfigurationAndManagementBus :
    let c := booted 3 live
    (c.alive = true ∧ 3 ≤ c.bootStep ∧ c.portHere (0 : Fin 2).val = true) ∧
    (c.setReg R.HIF_LINK0 1).bit (linkReg 0) 0 = true ∧ c.bit (linkReg 0) 0 = false ∧
    259 < 4 * c.vectors ∧ 0x7FFF < 0x8000 ∧ 0x8000 + 16 * c.vectors ≤ 0x8000 + 16 * 65 ∧
    (let d := c.setReg R.HIF_SMB 0x16A
     d.bit R.HIF_SMB 8 = true ∧ d.fld R.HIF_SMB 6 0 = 0x6A) ∧ (c.setReg R.HIF_SMB 0).bit R.HIF_SMB 8 = false := by
  decide

theorem witness_ControllersAreEnabledResetAndShutDown :
    (let c := live.setReg R.HIF_LINK0 1
     c.alive = true ∧ c.inHoldup = false ∧ c.portHere 0 = true ∧ c.bit (linkReg 0) 0 = true ∧
       (c.nvq.cntl 0).en = false ∧ 1 % 4096 ≠ 0 ∧ 4096 % 4096 = 0) ∧
    (let c : Chip := { serving [] with nvq := { (serving []).nvq with fwNext := 2 } }
     c.nvq.fwNext ≠ 0 ∧ c.nvq.activating = none ∧ (serving []).nvq.fwNext = 0) ∧
    ((serving []).alive = true ∧ (serving []).inHoldup = false ∧ ((serving []).nvq.cntl 0).rdy = true ∧
      ((serving []).nvq.cntl 0).shst = 0 ∧ (∀ x ∈ (serving []).nvq.undecided, x.cntl ≠ 0)) ∧
    (∃ x ∈ (serving [readCmd]).nvq.undecided, x.cntl = 0) ∧
    (let n : Nvq := { (serving []).nvq with c1 := { en := true, rdy := true, shst := 1 } }
     let c : Chip := { serving [] with nvq := n }
     (c.nvq.cntl 0).shst = 1 ∧ (c.nvq.cntl 0).abrupt = false ∧ (∀ x ∈ c.nvq.undecided, x.cntl ≠ 0) ∧
       c.nvq.staging = [] ∧ c.jnl.waiting = []) := by decide

theorem witness_DoorbellsMoveTailsAndHeads :
    let c := serving []
    let find (q : Nat) := c.nvq.sqs.find? (fun x => x.cntl == 0 && x.qid == q)
    c.alive = true ∧ c.inHoldup = false ∧ (c.nvq.cntl 0).rdy = true ∧ find 2 = none ∧
    (∃ q, find 1 = some q ∧ q.size ≤ 2) ∧ (∃ q, find 1 = some q ∧ 1 < q.size ∧ 1 ≠ q.tail ∧ 0 = q.tail ∧
      ∀ x ∈ c.nvq.sqs, x.cntl = 0 → x.qid = 1 → x = q) ∧
    (c.nvq.cqs.find? (fun x => x.cntl == 0 && x.qid == 2) = none ∧
      ∃ q, c.nvq.cqs.find? (fun x => x.cntl == 0 && x.qid == 1) = some q ∧ q.size ≤ 2 ∧ 1 < q.size) :=
  ⟨by decide, by decide, by decide, by decide, ⟨_, rfl, by decide⟩, ⟨_, rfl, by decide⟩, by decide,
    ⟨_, rfl, by decide⟩⟩

theorem witness_FetchTakesCommandsInOrderAndChecksThem :
    let q : Sq := { cntl := 0, qid := 1, size := 2, tail := 1, cqid := 1 }
    let c : Chip := { serving [] with nvq := { (serving []).nvq with sqs := [q] } }
    let e : HostEntry := ⟨0, 1, 0, { cid := 9, opcode := 0x00, nsid := 1 }⟩
    (q ∈ c.nvq.sqs ∧ bindingAfter 1 2 = 3 ∧ opcodeOk 1 { cid := 0, opcode := 0xFF } = false ∧
      opcodeOk 1 { cid := 0, opcode := 0x02, nsid := 3 } = true ∧
      c.nsOk { cid := 0, opcode := 0x02, nsid := 3 } = false ∧ 0 < c.nvq.room 0 1 ∧ c.nvq.inflight = []) ∧
    (c.nsOk { cid := 0, opcode := 0x00, nsid := 1 } = true ∧ c.ioFields { cid := 0, opcode := 0x00, nsid := 1 } = none) ∧
    (∀ q ∈ ({ c with nvq := { c.nvq with c1 := {} } } : Chip).nvq.sqs,
      ({ c with nvq := { c.nvq with c1 := {} } } : Chip).mayFetch q.cntl = false) ∧
    (e.cntl = q.cntl ∧ e.qid = q.qid ∧ e.slot = q.head ∧ q.head < q.size ∧ q.tail = (q.head + 1) % q.size ∧
      1 < q.size ∧ c.mayFetch q.cntl = true ∧ c.nvq.deleting q.cntl q.qid = false ∧
      c.fetchCheck q.qid e.cmd = none) ∧
    (let x := fetched 1 { cid := 9, opcode := 0xFF }
     (serving [x]).nvq.inflight.filter (fun y => y.cntl == 0 && y.qid == 1) = [x] ∧
     0 < (serving [x]).nvq.room 0 1 ∧ x.isAer = false ∧ x.result = none ∧
     (serving [x]).nvq.ready 0 1 9 = some x ∧ opcodeOk 1 x.cmd = false ∧ opcodeOk 1 readCmd.cmd = true) := by decide

theorem witness_QueuesAreCreatedAndDeleted :
    (let x := adminCmd 0x05 (2 + 4095 * 65536) (1 + 64 * 65536)
     (serving [x]).admin 0 5 0x05 = some x ∧ x.cmd.cdw11 % 2 = 1 ∧ x.cmd.cdw11 / 65536 ≤ (serving [x]).queuePairs ∧ 2 ≤ (serving [x]).queuePairs ∧
       (serving [x]).nvq.cqs.any (fun q => q.cntl == 0 && q.qid == 2) = false) ∧
    (let x := adminCmd 0x01 (2 + 65536) (1 + 65536)
     (serving [x]).admin 0 5 0x01 = some x ∧ x.cmd.cdw11 % 2 = 1 ∧ x.cmd.cdw11 / 65536 = 1 ∧
       (serving [x]).nvq.cqs.any (fun q => q.cntl == 0 && q.qid == 1) = true ∧
       (serving [x]).nvq.sqs.any (fun q => q.cntl == 0 && q.qid == 2) = false ∧
       (serving [x]).nvq.sqs.any (fun q => q.cntl == 0 && q.qid == 1) = true) ∧
    (let x := adminCmd 0x00 1
     let y := { readCmd with seq := 1 }
     (serving [x, y]).admin 0 5 0x00 = some x ∧ (serving [x]).admin 0 5 0x00 = some x ∧
       (serving [x]).nvq.sqs.any (fun q => q.cntl == 0 && q.qid == 1) = true ∧
       (serving [x]).nvq.inflight.filter (fun z => z.cntl == 0 && z.qid == 1 && z.result.isNone) = [] ∧
       (∀ z ∈ (serving [x]).nvq.inflight, ¬ (z.cntl = x.cntl ∧ z.qid = 1)) ∧
       (∃ z ∈ (serving [x, y]).nvq.inflight, z.cntl = x.cntl ∧ z.qid = 1) ∧
       (serving [x, y]).nvq.inflight.filter (fun z => z.cntl == 0 && z.qid == 1 && z.result.isNone) = [y]) ∧
    (let x := adminCmd 0x04 1
     (serving [x]).admin 0 5 0x04 = some x ∧
       (serving [x]).nvq.sqs.any (fun q => q.cntl == 0 && q.cqid == 1) = true ∧
       (serving [x]).nvq.sqs.any (fun q => q.cntl == 0 && q.cqid == 2) = false) := by decide

theorem witness_IdentifyLogsAndFeatures :
    (let x := adminCmd 0x06 1
     (serving [x]).admin 0 5 0x06 = some x ∧ ((serving [x]).identifyData 0 x.cmd).isLeft = true ∧
       ((serving [x]).identifyData 0 (adminCmd 0x06 0xFF).cmd).isRight = true) ∧
    (let x := adminCmd 0x02 (0xBF + 127 * 65536) 0 1
     (serving [x]).admin 0 5 0x02 = some x ∧ x.cmd.cdw10 % 256 = 0xBF ∧ x.cmd.nsid ∈ [1, 2] ∧
       (adminCmd 0x02 0xBF).cmd.nsid ∉ [1, 2]) ∧
    (let x := adminCmd 0x02 (3 + 127 * 65536)
     (serving [x]).admin 0 5 0x02 = some x ∧ x.cmd.cdw10 % 256 ∈ [1, 2, 3, 4, 5, 6, 0xC0, 0xC1] ∧
       7 ∉ [1, 2, 3, 4, 5, 6, 0xBF, 0xC0, 0xC1] ∧ 4 * (524287 + 1) ≤ 2097152 ∧ 2097152 < 4 * (524288 + 1)) ∧
    (let x := adminCmd 0x09 (0x05 + 2 ^ 31) 7
     (serving [x]).admin 0 5 0x09 = some x ∧ x.cmd.cdw10 / 2 ^ 31 % 2 = 1) ∧
    (let x := adminCmd 0x09 0xC1 1 1
     (serving [x]).admin 0 5 0x09 = some x ∧ x.cmd.cdw10 / 2 ^ 31 % 2 = 0 ∧ (serving [x]).nsActive x.cmd.nsid = true ∧
       (serving [x]).nsActive 3 = false) ∧
    (let x := adminCmd 0x09 0x07 (65534 + 65534 * 65536)
     (serving [x]).admin 0 5 0x09 = some x ∧ x.cmd.cdw10 / 2 ^ 31 % 2 = 0 ∧ x.cmd.cdw11 % 65536 ≠ 65535 ∧
       x.cmd.cdw11 / 65536 ≠ 65535 ∧ x.cmd.cdw11 < 2 ^ 32) ∧
    (let x := adminCmd 0x09 0x05 7
     (serving [x]).admin 0 5 0x09 = some x ∧ x.cmd.cdw11 / 65536 % 2 = 0) ∧
    (let x := adminCmd 0x0A 0x05
     (serving [x]).admin 0 5 0x0A = some x ∧ x.cmd.cdw10 / 256 % 8 = 0 ∧
       0x03 ∉ [0x01, 0x02, 0x04, 0x05, 0x07, 0x08, 0x09, 0x0B, 0x0E, 0xC1]) := by decide +kernel

theorem witness_AbortEventsFirmwareAndSelfTest_abort :
    let x : InCmd := { adminCmd 0x08 (1 + 9 * 65536) with seq := 4 }
    let y : InCmd := readCmd
    let older (n : Nat) : InCmd := { workingCmd (adminCmd 0x08) with cid := n, seq := n }
    let c := serving ([0, 1, 2, 3].map (fun n => older (n + 10)) ++ [{ x with seq := 20 }])
    (serving [y, x]).admin 0 5 0x08 = some x ∧ (serving [y, x]).nvq.find 0 1 9 = some y ∧ y.isAer = false ∧
    y.result = none ∧ (serving [decidedCmd y, x]).nvq.find 0 1 9 = some (decidedCmd y) ∧
    (serving [x]).nvq.find 0 1 9 = none ∧ c.admin 0 5 0x08 = some { x with seq := 20 } ∧
    (c.nvq.inflight.filter (fun y => y.cntl == 0 && y.qid == 0 && y.cmd.opcode == 0x08 &&
      y.result.isNone && y.seq < 20)).length = 4 := by decide

theorem witness_AbortEventsFirmwareAndSelfTest_others :
    (let x := adminCmd 0x0C
     let c := (serving [x]).mapCntl 0 (fun y => { y with notices := [1] })
     let many := (List.range 8).map (fun n => { workingCmd x with cid := n + 6, seq := n + 1 })
     (serving [x]).alive = true ∧ (serving [x]).inHoldup = false ∧ (serving [x]).nvq.find 0 0 5 = some x ∧
       x.isAer = true ∧ x.phase = .fetched ∧ x.result = none ∧ ((serving [x]).nvq.cntl 0).notices = [] ∧
       (c.nvq.cntl 0).notices = [1] ∧
       8 ≤ ((serving (x :: many)).nvq.inflight.filter (fun y => y.cntl == 0 && y.isAer && y.phase == .working &&
         y.result.isNone)).length) ∧
    (let x := adminCmd 0x11 524287 1572864
     (serving [x]).admin 0 5 0x11 = some x ∧ x.cmd.cdw11 % 1024 = 0 ∧ (x.cmd.cdw10 + 1) % 1024 = 0 ∧
       x.cmd.cdw10 + 1 ≤ 524288 ∧ x.cmd.cdw11 + (x.cmd.cdw10 + 1) ≤ 2097152 ∧ 2097152 < 2097152 + 1024) ∧
    (let x := adminCmd 0x10 (2 + 3 * 8)
     (serving [x]).admin 0 5 0x10 = some x ∧ x.cmd.cdw10 % 8 = 2 ∧ x.cmd.cdw10 / 8 % 8 = 3 ∧
       (adminCmd 0x10 (1 + 2 * 8)).cmd.cdw10 / 8 % 8 = 2 ∧
       ({ (serving [x]).nvq with fwSlot1 := 7 } : Nvq).fwSlot1 ≠ 0 ∧ (adminCmd 0x10 3).cmd.cdw10 % 8 ∉ [1, 2]) ∧
    (({ serving [] with nvq := { (serving []).nvq with activating := some (0, 0, 5) } } : Chip).nvq.activating =
      some (0, 0, 5)) ∧
    (let x := adminCmd 0x14 2
     (serving [x]).admin 0 5 0x14 = some x ∧ x.cmd.cdw10 % 16 = 2 ∧ (serving [x]).nvq.selfTest = 0 ∧
       ({ (serving [x]).nvq with selfTest := 1 } : Nvq).selfTest ≠ 0 ∧ (adminCmd 0x14 15).cmd.cdw10 % 16 = 15) := by
  decide

/-- A journal at its high-water mark. -/
def fullJournal (c : Chip) : Chip := { c with jnl := { c.jnl with failed := true } }

theorem witness_FormatAndSanitizeUnmapTheirNamespaces :
    (let x := adminCmd 0x80 (2 * 512) 0 1
     let c := serving [x]
     c.admin 0 5 0x80 = some x ∧ c.nsActive 1 = true ∧ c.nsActive 3 = false ∧ x.cmd.cdw10 % 16 = 0 ∧
       x.cmd.cdw10 / 512 % 8 = 2 ∧ (adminCmd 0x80 (3 * 512 + 1)).cmd.cdw10 % 16 ≠ 0 ∧
       2 < (adminCmd 0x80 (3 * 512)).cmd.cdw10 / 512 % 8 ∧ c.sys.mode = .service ∧ c.sys.trans = none ∧
       c.gate 1 true = none ∧ c.mustWait .sec = false ∧ (fullJournal c).mustWait .sec = true ∧
       (fullJournal c).gate 1 true = none ∧ (fullJournal c).mustWaitFor .locus 3 = true ∧ c.nvq.inflight = [x] ∧
       (life .retired c).gate 1 true = some (0, 0x82, true)) ∧
    (let x := adminCmd 0x84 4
     let c := serving [x]
     c.admin 0 5 0x84 = some x ∧ x.cmd.cdw10 % 8 = 4 ∧ c.gate 1 true = none ∧ c.mustWait .sec = false ∧
       c.nvq.inflight = [x] ∧ ({ c with chd := { c.chd with retiredA := true } } : Chip).chd.retiredA = true ∧
       (life .retired c).gate 1 true = some (0, 0x82, true) ∧ (adminCmd 0x84 1).cmd.cdw10 % 8 = 1 ∧ c.chd.retiredA = false ∧ c.chd.retiredB = false ∧
       (adminCmd 0x84 2).cmd.cdw10 % 8 ∉ [1, 4]) := by decide

theorem witness_IssueFollowsDeviceConditionsAndQueueOrder :
    let x : InCmd := { readCmd with seq := 1 }
    let behind : InCmd := workingCmd { readCmd 2 with cid := 8 }
    let c := serving [x]
    let b := serving [behind, x]
    let d : Chip := { b with nvq := { b.nvq with sqs := [{ cntl := 0, qid := 1, size := 2, cqid := 1, last := 2 }] } }
    let r : Chip := inMode .rebuild c
    (life .retired c).effective = 4 ∧ ({ c with chd := { c.chd with retiredA := true } } : Chip).retired .A = true ∧
    ({ c with chd := { c.chd with retiredB := true } } : Chip).retired .B = true ∧
    (c.effective ≠ 4 ∧ c.retired .A = false ∧ c.retired .B = false ∧ c.sys.mode ≠ .rebuild) ∧
    ((r.setReg R.SYS_REBUILD_POLICY 0).bit R.SYS_REBUILD_POLICY 0 = false ∧
      (r.setReg R.SYS_REBUILD_POLICY 1).bit R.SYS_REBUILD_POLICY 0 = true) ∧
    c.gate x.cmd.nsid false = none ∧ (inMode .rest c).sys.mode = .rest ∧ c.sys.mode ≠ .rest ∧
    (nsActs x.cmd.nsid).any c.calibrating = false ∧ c.earlierWork x = false ∧ d.earlierWork x = true ∧
    (∃ q, d.nvq.sqs.find? (fun q => q.cntl == x.cntl && q.qid == x.qid) = some q ∧ q.last ≠ 0 ∧
      q.last ≠ actsCode x.cmd.nsid) ∧ x.mixed = false :=
  ⟨by decide, by decide, by decide, by decide, by decide, by decide, by decide, by decide, by decide, by decide,
    by decide, ⟨_, rfl, by decide⟩, by decide⟩

/-- A Write of one LBA of zone 0, and a Zone Finish of that zone under way. -/
def writeOne : InCmd := fetched 1 { cid := 9, opcode := 0x01, nsid := 1 }
def finishOne : InCmd :=
  { fetched 1 { cid := 8, opcode := 0x79, nsid := 1, cdw13 := 2 } with phase := .working, units := [0] }

theorem witness_IssueFollowsDeviceConditionsAndQueueOrder_zones :
    let x : InCmd := { writeOne with seq := 1 }
    let c := serving [finishOne, x]
    (c.zoneTaken x.cmd = true ∧ (serving [x]).zoneTaken x.cmd = false) ∧
    ((serving [x]).gate 1 true = none ∧ (serving [x]).earlierWork x = false ∧
      (nsActs 1).any (serving [x]).lostNow = false) ∧
    (let d : Chip := { serving [x] with cleA := { live.cleA with state := .lost } }
     d.gate 1 true = none ∧ d.earlierWork x = false ∧ (nsActs 1).any d.lostNow = true) := by decide +kernel

/-- The good image downloaded, to be committed to slot 2 at once. -/
theorem witness_AbortEventsFirmwareAndSelfTest_commit :
    let c := withDram (serving [adminCmd 0x10 (2 + 3 * 8)])
    let d := c.storeImage 0 (imageHeader ++ [0])
    d.admin 0 5 0x10 = some (adminCmd 0x10 (2 + 3 * 8)) ∧ d.imageStep d.downloaded true = 0 ∧
    c.imageStep c.downloaded true ≠ 0 := by decide +kernel

theorem witness_AbortEventsFirmwareAndSelfTest_scan :
    let c : Chip := { serving [] with nvq := { (serving []).nvq with selfTest := 1 } }
    c.alive = true ∧ c.inHoldup = false ∧ c.nvq.selfTest ≠ 0 := by decide
/-! ### Host input and output, values and the map -/

/-- A chip with a zone descriptor. -/
def withZone (i : Nat) (z : Zone) (c : Chip) : Chip := c.setZone i z

/-- An implicitly open sequential zone with a band and ten units written. -/
def openZone : Zone := { kind := 1, state := 1, nsid := 1, band := 3, hasBand := true, mwp := 10, written := 10, hostWp := some 10 }

/-- With erased blocks on two NAND dies. -/
def withNand (c : Chip) : Chip := c.setReg R.NFC_GEOM 0x10E01 |>.setReg R.NFC_ERASED 500

/-- A staged unit with one LBA. -/
def oneStaged : Staged := { nsid := 1, zone := 0, unit := 16, data := [(0, 7)], order := 0, seq := 0 }

/-- A band of a state. -/
def aBand (st : BandState) : Band := { state := st, head := 0, ann := 0, startTrack := 0, salt := some 5 }

/-- A chip with a band table entry. -/
def withBand (k : Nat) (b : Band) (c : Chip) : Chip := { c with loc := { c.loc with bands := c.loc.bands.set k b } }

theorem witness_ReadsReturnTheNewestDataOrAnError :
    let x := readCmd
    let c := serving [x]
    let off := withZone 0 { openZone with state := 6 } c
    let bad : InCmd := { x with cmd := { x.cmd with sgl := true, dptr := 1 } }
    let work : InCmd := { workingCmd x with issued := some 0 }
    let w := serving [work]
    (({ staging := [oneStaged] } : Nvq).staging = [] ++ [oneStaged] ∧ oneStaged.nsid ≠ 4 ∧ oneStaged.unit ≤ 16 ∧
      oneStaged.data.find? (16 - oneStaged.unit) = some 7) ∧
    (live.sys.mode ≠ .rebuild ∧ (live.zone 0).state = 0 ∧ (live.zone 0).kind ≠ 3) ∧
    (let d := withZone 0 openZone live
     (d.zone 0).kind = 1 ∧ (d.zone 0).mwp ≤ 10 ∧ d.hotOf 0 10 = none) ∧
    (c.io 0 1 9 0x02 = some x ∧ (c.zonesTouched 1 0 1).any (fun z => (c.zone z).state == 6) = false ∧
      (off.zonesTouched 1 0 1).any (fun z => (off.zone z).state == 6) = true ∧ bad.cmd.sglBad = true ∧
      x.cmd.sglBad = false ∧ (c.begin x false).1 = true ∧ ((inMode .rest c).begin x false).1 = false) ∧
    (let z := withZone 0 openZone c
     (z.resolveAll (z.places 1 0 1)).isSome = true ∧
       (let h : Chip := { z with sys := { z.sys with mode := .rebuild } }
        h.resolveAll (h.places 1 0 1) = none)) ∧
    (w.alive = true ∧ w.inHoldup = false ∧ (w.setReg R.NVQ_TLER 1).fld R.NVQ_TLER 15 0 ≠ 0 ∧
      w.nvq.find 0 1 9 = some work ∧ work.cmd.opcode = 0x02 ∧ work.phase = .working ∧ work.issued ≠ none ∧
      work.result = none) := by decide +kernel

theorem witness_ReadsReturnTheNewestDataOrAnError_media :
    let x : InCmd := { readCmd with seq := 1 }
    let before : InCmd := { fetched 1 { cid := 8, opcode := 0x01, nsid := 1 } with phase := .held, units := [0] }
    let later : InCmd := { before with cmd := { before.cmd with cdw10 := 1 } }
    let going : InCmd := { workingCmd x with issued := some 0, resolved := [(0, none)] }
    let late : InCmd := { x with issued := some 0 }
    let far : Chip := { serving [late] with cleA := { live.cleA with state := .lost } }
    ((serving [before, x]).nvq.readWaits x = true ∧ (serving [later, x]).nvq.readWaits x = false) ∧
    ((serving [going]).nvq.find 0 1 9 = some going ∧ going.phase = .working ∧ going.resolved ≠ [] ∧
      going.resolved.map (fun e => e.2 <|> (serving [going]).given going [(0, .unrecovered)] e.1) =
        [ReadResult.unrecovered].map some ∧
      none ∈ going.resolved.map (fun e => e.2 <|> (serving [going]).given going [(0, .good 7)] e.1)) ∧
    (List.find? (fun m : Nat × ReadResult => m.1 == 0) [(0, .good 7)] = some (0, .good 7) ∧
      ReadResult.good 7 ≠ .unrecovered ∧ (serving []).confirmedFor x 0 = false ∧
      (serving []).confirmedFor { x with got := [0] } 0 = true) ∧
    (far.nvq.find 0 1 9 = some late ∧ late.phase = .fetched ∧ late.issued ≠ none ∧
      (nsActs 1).any far.lostNow = true ∧ (nsActs 1).any (serving []).lostNow = false) := by decide +kernel

theorem witness_WritesAreAcceptedStagedAndCompletedWhenPowerSafe_order :
    let h : HostCmd := { cid := 9, opcode := 0x01, nsid := 1, cdw10 := 10 }
    let moving : InCmd := { fetched 1 h 1 with phase := .transferring, units := [0], first := 10 }
    let zero : InCmd := { fetched 1 { h with opcode := 0x08 } with phase := .transferring, units := [0], first := 10 }
    let m := withZone 0 openZone (serving [moving])
    let z := withZone 0 openZone (serving [zero])
    (m.nvq.earlierWrite moving = false ∧ ((m.zone 0).kind = 1 ∧ (m.zone 0).gen = moving.gen ∧ (m.zone 0).state ≠ 6) ∧
      ((withZone 0 { openZone with gen := 1 } m).zone 0).gen ≠ moving.gen) ∧
    (z.nvq.earlierWrite zero = false ∧ zero.units = [0] ∧
      z.nvq.inflight.find? (fun y => y.seq == zero.seq) = some zero) ∧
    ((m.zone 0).state = 1 ∧ m.nvq.secure = []) := by decide +kernel

theorem witness_WritesAreAcceptedStagedAndCompletedWhenPowerSafe :
    let h : HostCmd := { cid := 9, opcode := 0x01, nsid := 1, cdw10 := 10 }
    let x := fetched 1 h
    let c := withZone 0 openZone (serving [x])
    let app := fetched 1 { h with opcode := 0x7D, cdw10 := 0 }
    let zero := fetched 1 { h with opcode := 0x08 }
    let held : InCmd := { x with phase := .held, units := [0] }
    let moving : InCmd := { x with phase := .transferring, units := [0], first := 10 }
    (1 ≤ 65526 ∧ 10 % 65536 + 65526 ≤ 65536 ∧ (c.zone (c.loc.place 1 10).1).state < 4 ∧
      (c.zone (c.loc.place 1 10).1).kind = 1 ∧ 10 % 65536 = (c.zone 0).hostWp.getD (c.zone 0).mwp ∧
      11 % 65536 ≠ (c.zone 0).hostWp.getD (c.zone 0).mwp) ∧
    (∀ n ∈ [4, 5, 6], ((withZone 0 { openZone with state := n } c).zone 0).state = n) ∧
    (c.zoneIo 0 1 9 0x01 = some x ∧ c.writeRules 1 10 1 = none ∧ x.cmd.sglBad = false ∧ (c.begin x true).1 = true ∧
      c.newBands (c.zonesTouched 1 10 1) = some [] ∧
      (withZone 0 openZone (serving [app])).zoneIo 0 1 9 0x7D = some app ∧ c.appendRules 0 1 = none) ∧
    (let e := withZone 0 { openZone with state := 0, hasBand := false } c
     e.openLimits 0 = none ∧ e.newBands [0] = none ∧ (fullJournal e).mustWaitFor .locus 1 = true ∧ e.mustWaitFor .locus 1 = false ∧
       ((withBand 3 (aBand .free) e).setReg R.LOC_RESERVE 0).newBands [0] = some [(0, 3)]) ∧
    ((serving [held]).nvq.heldWrites = [held] ∧ (withNand (serving [held])).fits held = true ∧
      (serving [held]).fits held = false) ∧
    (let m := withZone 0 openZone (serving [moving])
     m.nvq.find 0 1 9 = some moving ∧ moving.phase = .transferring ∧ moving.result = none ∧ 0 ∈ moving.units ∧
       ((m.places 1 moving.base 1).filter (fun p => unitNo p.2.1 p.2.2 == 0)).map
         (fun p => List.find? (fun d => d.1 == p.2.2 % 16) [((10 : Nat), (7 : Block))]) = [some (10, 7)] ∧
       (m.zone (0 / 4096)).state ∉ [0, 6] ∧ m.nvq.inflight = [moving] ∧ moving.units = [0] ∧
       0 < m.nvq.room moving.cntl moving.qid) ∧
    (let z := withZone 0 openZone (serving [zero])
     z.zoneIo 0 1 9 0x08 = some zero ∧ zero.cmd.deac = false ∧ z.writeRules 1 10 1 = none ∧ z.writeRules 1 11 1 ≠ none ∧
       ∃ y, (z.writeOn zero 10).nvq.find 0 1 9 = some y ∧ (y.phase = .held ∨ y.phase = .transferring)) :=
  ⟨by decide +kernel, by decide +kernel, by decide +kernel, by decide +kernel, by decide +kernel, by decide +kernel, by decide +kernel, by decide +kernel, by decide +kernel, by decide +kernel,
    _, rfl, by decide +kernel⟩

theorem witness_FlushAndDeallocateWork :
    let f := fetched 1 { cid := 9, opcode := 0x00, nsid := 1 } 1
    let c := serving [f]
    let g := workingCmd f
    let dead : Chip := { c with
      chd := { c.chd with retiredA := true }, nvq := { c.nvq with staging := [oneStaged] } }
    let dsm := fetched 1 { cid := 9, opcode := 0x09, nsid := 1, cdw11 := 4, ranges := [(0, 32768)] }
    let wz := fetched 1 { cid := 9, opcode := 0x08, nsid := 1, cdw12 := 2 ^ 25 }
    (c.io 0 1 9 0x00 = some f ∧ c.flushStuck f = false ∧ c.gate 1 false = none ∧ dead.flushStuck f = true ∧
      (life .retired c).gate 1 false ≠ none) ∧
    ((serving [g]).nvq.inflight = [g] ∧ g.qid ≠ 0 ∧ g.cmd.opcode = 0 ∧ g.phase = .working ∧ g.result = none) ∧
    ((serving [dsm]).io 0 1 9 0x09 = some dsm ∧ (serving [wz]).io 0 1 9 0x08 = some wz ∧ wz.cmd.deac = true ∧
      (serving [wz]).zonePending wz.cmd = false ∧
      ((serving [dsm]).begin dsm true).1 = true ∧ dsm.cmd.cdw11 / 4 % 2 = 1) ∧
    (c.deallocList f.cmd = [] ∧ f.cmd.nsid ∉ c.nvq.secure) ∧
    (c.mustWaitFor .locus 4 = false ∧ (fullJournal c).mustWaitFor .locus 4 = true ∧ c.writing 0 = false ∧
      ((withZone 0 { kind := 3 } c).zone 0).kind = 3 ∧ 32768 ≤ 32768 ∧ 0 < 32768 ∧
      (let z := withZone 0 openZone c
       (z.zone 0).kind ≠ 3 ∧ z.coversZone [(0, 0, 10)] 0 = true ∧ z.coversZone [(0, 0, 9)] 0 = false)) := by
  decide +kernel

/-- A Zone Management Send of an action. -/
def zoneCmd (action : Nat) : InCmd := fetched 1 { cid := 9, opcode := 0x79, nsid := 1, cdw13 := action }

theorem witness_ZoneManagementMovesZonesThroughTheirStates :
    (∀ a ∈ [1, 2, 3, 4, 5], (serving [zoneCmd a]).zoneSend 0 1 9 a = some (zoneCmd a) ∧
      (zoneCmd a).cmd.selectAll = false) ∧
    (∀ n ∈ [0, 1, 2, 3, 4, 5, 6], let c := withZone 0 { openZone with state := n } (serving [zoneCmd 3])
      c.zoneNamed (zoneCmd 3) = 0 ∧ (c.zone 0).kind = 1 ∧ (c.zone 0).state = n) ∧
    (let c := withZone 0 openZone (serving [zoneCmd 3])
     (c.begin (zoneCmd 3) true).1 = true ∧ ((inMode .rest c).begin (zoneCmd 3) true).1 = false ∧
       c.openLimits 0 = none ∧ (c.zonesIn 1 [1, 2]).length < 128 ∧ c.mustWait .locus = false ∧
       (fullJournal c).mustWait .locus = true ∧ 1 ∉ c.nvq.secure) ∧
    (let c := withZone 0 openZone (serving [finishOne])
     finishOne.units = [0] ∧ c.mayFinish 0 = true ∧ (fullJournal c).mayFinish 0 = false ∧ c.advanced 0 = false ∧
       c.bcl.job (zoneAct 0) = none) ∧
    (let x := fetched 1 { cid := 9, opcode := 0x7A, nsid := 1, cdw12 := 31 }
     (serving [x]).io 0 1 9 0x7A = some x ∧ ((serving [x]).begin x false).1 = true) := by decide

/-- A key, a value under it, and a chip of tier S that holds the value. -/
def aKey : List Byte := [1, 0, 0, 0]
def aValue : Value := { key := aKey, sealed := true, length := 3, act := .A, extents := [⟨0, 0, 2⟩] }
def openValue : Value := { aValue with sealed := false, hash := some ShaState.init }
def kvChip (vs : List Value) (xs : List InCmd) : Chip :=
  { serving xs with lcs := { (serving xs).lcs with tierS := true }, seg := { values := vs } }

/-- A command of namespace 4 on the key. -/
def kvCmd (op : Nat) (cdw10 cdw11 cdw12 cdw13 : Nat) : InCmd :=
  fetched 1 { cid := 9, opcode := op, nsid := 4, cdw2 := 1, cdw10 := cdw10, cdw11 := 4 + cdw11, cdw12 := cdw12
              cdw13 := cdw13 }

theorem witness_StoresMakeValuesVisibleAndComplete_checks :
    let h := (kvCmd 0x01 3 0 0 0).cmd
    let c := kvChip [aValue] []
    let o := kvChip [openValue] []
    h.key = aKey ∧ (kvCmd 0x01 3 256 0 0).cmd.cdw11 / 256 % 2 = 1 ∧ (kvChip [] []).seg.present h.key = none ∧
    c.seg.present h.key = some aValue ∧ (kvCmd 0x01 3 512 0 0).cmd.cdw11 / 512 % 2 = 1 ∧
    (kvCmd 0x01 3 0 0 1).cmd.kvAppend = true ∧ aValue.sealed = true ∧ o.seg.present h.key = some openValue ∧
    openValue.sealed = false ∧ 1073741824 < openValue.length + 1073741822 ∧
    openValue.length + 1073741821 ≤ 1073741824 ∧ h.kvAppend = false ∧ (kvCmd 0x01 3 0 0 1).cmd.kvSeal = false ∧
    (kvChip [] []).seg.look h.key = none := by decide

/-- The index of a chip whose values all are recorded has their number. -/
theorem index_length (vs : List Value) (xs : List InCmd) : (kvChip vs xs).seg.index.length = vs.length := by
  simp [kvChip, Seg.index]

theorem witness_StoresMakeValuesVisibleAndComplete_full :
    (∃ c : Chip, 4096 ≤ c.seg.openCount ∧ c.seg.present [2] = none) ∧
    (∃ c : Chip, c.keyLimit ≤ c.seg.index.length ∧ c.seg.look [2] = none) := by
  have h : ¬ aKey = [2] := by decide
  have look (v : Value) (n : Nat) (hv : v.key = aKey) : (kvChip (List.replicate n v) []).seg.look [2] = none := by
    simp only [kvChip, Seg.look, Seg.find, List.find?_replicate, hv, beq_iff_eq, h]; simp
  have opened (n : Nat) : (kvChip (List.replicate n openValue) []).seg.openCount = n := by
    simp [kvChip, Seg.openCount, Seg.index, openValue, aValue]
  obtain ⟨m, hm⟩ : ∃ m, m = 4096 := ⟨_, rfl⟩
  refine ⟨⟨kvChip (List.replicate m openValue) [], ?_, ?_⟩, ?_⟩
  · rw [opened]; exact Nat.le_of_eq hm.symm
  · simp only [Seg.present, look openValue m rfl]
  · have k (n : Nat) : (kvChip (List.replicate n aValue) []).keyLimit = 8388608 := rfl
    obtain ⟨n, hn⟩ : ∃ n, n = 8388608 := ⟨_, rfl⟩
    exact ⟨kvChip (List.replicate n aValue) [], by rw [k, index_length, List.length_replicate]; exact Nat.le_of_eq hn.symm, look _ n rfl⟩

theorem witness_StoresMakeValuesVisibleAndComplete_accepted :
    let x := kvCmd 0x01 3 0 0 0
    let a := kvCmd 0x01 3 0 0 1
    let c := withNand (kvChip [] [x])
    c.kv 0 1 9 0x01 = some x ∧ x.cmd.kvAppend = false ∧ (⟨[1, 2, 3], true⟩ : StoreData).bytes.length = x.cmd.cdw10 ∧
    (kvChip [openValue] [a]).kv 0 1 9 0x01 = some a ∧ a.cmd.kvAppend = true ∧
    (c.begin x true).1 = true ∧ (c.nvq.heldWrites.isEmpty && c.stagingRoom [] 2) = true ∧
    ({ c with nvq := { c.nvq with inflight := [{ x with phase := .held, units := [0, 1] }] } } : Chip).nvq.heldWrites ≠ [] ∧
    (let t : InCmd := { x with phase := .transferring, units := [0, 1] }
     (kvChip [] [t]).nvq.find 0 1 9 = some t ∧ t.phase = .transferring ∧ t.result = none) ∧
    (c.storeCheck x.cmd).toOption = some none ∧ c.placeValue .A 0 1 1 none = none ∧
    ((kvChip [openValue] [a]).storeCheck a.cmd).toOption = some (some openValue) ∧ openValue.hash.isNone = false ∧
    ({ openValue with hash := none } : Value).hash.isNone = true ∧
    (openValue.key = a.cmd.key ∧ openValue.sealed = false ∧ openValue.hash = some ShaState.init) ∧
    4 ∉ c.nvq.secure ∧ c.inHoldup = false ∧ c.nvq.inflight = [x] ∧ x.result = none ∧
    0 < c.nvq.room x.cntl x.qid ∧ (⟨[⟨0, 1, 1⟩], none⟩ : Placement).newBand = none := by decide

theorem witness_ValuesAreRetrievedDeletedAndListed :
    (∀ op ∈ [0x14, 0x10, 0x02], let x := kvCmd op 3 0 3 1
      (kvChip [aValue] [x]).kv 0 1 9 op = some x ∧ ((kvChip [aValue] [x]).begin x false).1 = true ∧
      ((kvChip [aValue] [x]).begin x true).1 = true ∧ (kvChip [aValue] [x]).seg.present x.cmd.key = some aValue ∧
      (kvChip [] [x]).seg.present x.cmd.key = none ∧ x.cmd.cdw12 ≤ aValue.length ∧ x.cmd.cdw13 % 2 = 1) ∧
    ((kvChip [] []).mustWaitFor .seg 3 = false ∧ (fullJournal (kvChip [] [])).mustWaitFor .seg 3 = true ∧
      (kvChip [] []).mustWait .seg = false ∧ (fullJournal (kvChip [] [])).mustWait .seg = true ∧
      (kvChip [] []).jnl.closed = false ∧ (kvChip [] []).pageMissing aValue = false ∧
      (let r := inMode .rebuild (kvChip [] [])
       ({ r with loc := { r.loc with pages := [(0, 0xC0000000)] } } : Chip).pageMissing aValue = true)) ∧
    (aValue.length < 4 ∧ openValue.sealed = false ∧ ({ aValue with damaged := true } : Value).damaged = true) ∧
    (let x : InCmd := { kvCmd 0x02 3 0 0 0 with length := 3 }
     x.pieces = [] ∧ x.got.length < (3 + 4095) / 4096 ∧ (3 + 4095) / 4096 ≤ ({ x with got := [0] } : InCmd).got.length ∧
       (workingCmd x).phase = .working ∧ x.cmd.cdw13 % 2 = 0 ∧ 0 < min x.cmd.cdw10 (x.length - x.cmd.cdw12) ∧
       [(1 : Byte), 2, 3].length = min x.cmd.cdw10 (x.length - x.cmd.cdw12) ∧
       (kvCmd 0x02 3 0 0 1).cmd.cdw13 % 2 = 1 ∧ (kvChip [aValue] []).seg.look x.cmd.key = some aValue) ∧
    (let x := kvCmd 0x06 4 0 0 0
     (kvChip [aValue] [x]).kv 0 1 9 0x06 = some x ∧ ((kvChip [aValue] [x]).begin x false).1 = true ∧
       4 ≤ x.cmd.cdw10) ∧
    (let c := (kvChip [aValue] []).setReg R.SEG_VERIFY 0x00010001 |>.setReg R.SEG_POP 0x00010001
     c.segOn = true ∧ c.segGot { aValue with extents := [] } = true ∧
       ({ c with seg := { c.seg with got := aValue.unitNumbers } } : Chip).segGot aValue = true ∧ c.fld R.SEG_VERIFY 15 0 ≠ 0 ∧ c.fld R.SEG_VERIFY 23 16 ≠ 0 ∧ aValue.damaged = false ∧
       c.fld R.SEG_POP 23 16 ≠ 0 ∧
       ({ openValue with hash := none } : Value).hash = none ∧ ({ aValue with expired := true } : Value).expired = true ∧
       (withZone 0 { openZone with ann := 3 } c).migrateTo { aValue with popularity := 1 } = some 1 ∧
       ((aValue.extents.map Extent.zone).foldl insertNat []).filter (fun i => !c.seg.pinned i) ≠ []) := by decide

theorem witness_ValuesAreRetrievedDeletedAndListed_hash :
    sha256 [1, 2, 3] = 0x039058c6f2c0cb492c533b0a4d14ef77cc0f78abccced5287d84a1a2011cfb81 ∧
    sha256 [1, 2, 3] ≠ aValue.digest := by decide +kernel

theorem witness_LocusCommandsFollowTheirChecks :
    (let c := inMode .service live
     c.alive = true ∧ c.partRefusal c.askedPart = 0 ∧ live.partRefusal live.askedPart = 6 ∧
       c.mustWait .locus = false ∧ c.jnl.closed = false) ∧
    (let c := withBand 0 (aBand .suspect) live
     c.band c.selBand = some (aBand .suspect) ∧ (aBand .suspect).state = .suspect ∧ live.band live.selBand = none ∧
       (withBand 0 (aBand .full) live).band 0 = some (aBand .full) ∧ (aBand .full).state ≠ .suspect) ∧
    (live.diagOpen = false ∧ live.evictArea.areaHeld = false ∧
      (let c := withZone 0 { openZone with state := 3 } (life .manufacture (inMode .service live))
       c.diagOpen = true ∧ c.sys.mode = .service ∧ (∀ e ∈ live.loc.zones, live.zoneBad e.1 = false))) ∧
    (let c := withZone 0 { openZone with written := 11 } (serving [])
     let t : Chip := { c with dtm := { c.dtm with dtime := 40000000 } }
     (c.zone 0).lastMedia.toNat + 40000000 ≤ t.dtm.dtime.toNat ∧
     ¬ (c.zone 0).lastMedia.toNat + 40000000 ≤ c.dtm.dtime.toNat ∧ c.mwpDue 0 = false ∧
     (withZone 0 { openZone with state := 3, written := 11 } c).mwpDue 0 = true ∧
     (withZone 0 { openZone with state := 3, written := 11 } c).advanced 0 = true ∧ c.mustWait .locus = false ∧
     c.alive = true ∧ c.inHoldup = false ∧ c.sys.mode ≠ .boot ∧ c.advanced 0 = true ∧ c.jnl.waiting = [] ∧
       (2 : Fin 4) ≠ 3 ∧ c.advanced 1 = false) ∧
    ((∀ w ∈ (serving []).loc.hotWait, (serving []).noSlot w.zone w.unit = true) ∧ (serving []).hotStuck = false ∧
      (let c : Chip := { serving [] with loc := { (serving []).loc with hotWait := [⟨0, 0, 0⟩], hot := [(0, ⟨1, 0, 0⟩)] } }
       (fullJournal c).mustWait .locus = true ∧ c.mustWait .locus = false ∧
         ∃ w ∈ c.loc.hotWait, c.noSlot w.zone w.unit = false)) ∧
    (let c : Chip := { withZone 0 openZone (serving []) with
       loc := { (withZone 0 openZone (serving [])).loc with relocs := [(0, 5), (0, 12)] } }
     (0, 5) ∈ c.loc.relocs ∧ zoneAct 0 = .A ∧ c.resolve 0 12 = .zeros ∧ c.resolve 0 5 ≠ .zeros) := by decide

/-- A read slot of the page table's area with a reader holds the area. -/
theorem witness_LocusCommandsFollowTheirChecks_area :
    ∃ c : Chip, c.diagOpen = true ∧ c.sys.mode = .service ∧ c.evictArea.areaHeld = true := by
  have h : inPageArea (Config.pageArea / 4096 + 1) = true := by
    simp only [inPageArea, Bool.and_eq_true, decide_eq_true_eq]; omega
  exact ⟨{ life .manufacture (inMode .service live) with
    slots := [(Config.pageArea / 4096 + 1, { zone := 0, unit := 0, readers := [.copy] })] }, by decide, rfl,
    by simp [Chip.evictArea, Chip.areaHeld, h]⟩

/-- A chip in REBUILD. -/
def rebuilding (c : Chip) : Chip := inMode .rebuild c

theorem witness_RebuildRecoversTheMap :
    (let c := rebuilding live
     c.rebuilding .A = true ∧ (c.loc.rebuild .A).mcDone = false ∧ zoneAct 0 = .A ∧ c.hotOf 0 0 = none ∧
       (c.loc.rebuild .A).tags.find? (unitKey 0 0) = none ∧ ((withZone 0 openZone c).zone 0).kind = 1) ∧
    (let c := withZone 0 openZone (withBand 3 (aBand .full) (rebuilding live))
     let d : Chip := { c with loc := { c.loc with rebuildA := { mcDone := true } } }
     let z : BandHead := ⟨0, 1, 9⟩
     let other : Chip := { withZone 0 { openZone with band := 5 } d with
       loc := { (withZone 0 { openZone with band := 5 } d).loc with
         rebuildA := { mcDone := true, firsts := [(bandKey .A 5, 0, 10)] } } }
     d.rebuilding .A = true ∧ (d.loc.rebuild .A).mcDone = true ∧ bandKey .A 3 ∉ (d.loc.rebuild .A).probed ∧
       bandKey .A 3 ∈ d.toProbe .A ∧ zoneAct z.zone = .A ∧ (d.zone z.zone).kind = 1 ∧
       (d.loc.rebuild .A).firsts = [] ∧ (other.loc.rebuild .A).firsts = [(bandKey .A 5, z.zone, 10)] ∧
       other.bandOfZone z.zone = some (bandKey .A 5) ∧ bandKey .A 5 ≠ bandKey .A 3 ∧ z.tag < 10 ∧
       other.band (bandKey .A 3) = some (aBand .full) ∧
       d.band (bandKey .A 3) = some (aBand .full) ∧ (aBand .full).state ≠ .suspect ∧
       d.scanned .A = false) ∧
    (let d : Chip := { rebuilding live with
       loc := { live.loc with rebuildA := { mcDone := true }, rebuildB := { mcDone := true } } }
     d.alive = true ∧ d.sys.mode = .rebuild ∧ d.scanned .A = true ∧ d.scanned .B = true ∧ d.jnl.ckpt = none ∧
       d.jnl.failed = false ∧ d.jnl.openOp = none) := by decide

theorem witness_RebuildRecoversTheMap_bucket : ((rebuilding live).bucketFor 0 0).isSome = true := rfl

theorem witness_CleaningJobsGoThroughTheirSteps :
    let zn : Zone := { openZone with state := 3 }
    let c := withZone 0 zn (serving [])
    let j : Job := { zone := 0, reason := 1 }
    let at_ (st : JobState) : Chip := { c with bcl := { c.bcl with jobA := some { j with state := st, dst := 3 } } }
    let queued : Chip := { c with bcl := { c.bcl with queueA := [j] } }
    c.jobResult 0 8 = 1 ∧ c.jobResult 0 9 = 5 ∧
    (c.alive = true ∧ c.bclStops = false ∧ (heldUp savingHoldup c).bclStops = true ∧ c.cleans .A = true ∧ c.bcl.job .A = none ∧
      c.bcl.queue .A = []) ∧
    (let h : Chip := { c.setBit (pIntStatus 0x18) 0 true with loc := { c.loc with hot := [(0, ⟨1, 0, 0⟩)] } }
     (h.bit (pIntStatus 0x18) 0 || h.bit (pIntStatus 0x18) 1) = true ∧ h.hotVictim .A = some 0) ∧
    (let l := (withZone 0 { zn with kind := 2, mwp := 65536, state := 7 } c).setReg R.BCL_AUTO 0x00640001
     (l.bit (pIntStatus 0x18) 0 || l.bit (pIntStatus 0x18) 1) = false ∧ l.fld R.BCL_AUTO 15 0 ≠ 0 ∧
       l.freeCount .A ≤ l.fld R.BCL_AUTO 15 0 ∧ l.freeVictim .A = some 0 ∧
       ¬ ((c.setReg R.BCL_AUTO 0).fld R.BCL_AUTO 15 0 ≠ 0)) ∧
    (queued.bcl.queue .A = [j] ∧ queued.mayClean j.zone = true ∧ queued.sourceSettled j.zone = true ∧
      (withZone 0 { zn with written := 11 } queued).sourceSettled j.zone = false ∧
      (withZone 0 { zn with hasBand := false } queued).mayClean j.zone = false ∧ queued.mustWait .bcl = false) ∧
    (let e := withBand 7 (aBand .free) c
     j.reason ≠ 2 ∧ e.lostNow .A = false ∧ e.pickBand .A (some (e.jobAnn j)) false true = some 7 ∧
       e.band 7 = some (aBand .free)) ∧
    (let v : Job := { j with state := .verify, dst := 3 }
     (at_ .copy).bcl.job .A = some { v with state := .copy } ∧ (at_ .copy).lostNow .A = false ∧
      (at_ .copy).poisonedCopies { v with state := .copy } = [] ∧
      (at_ .copy).uncopied { v with state := .copy } [] = [] ∧
      (at_ .copy).uncopied { v with state := .copy, snapMwp := 1 } [] ≠ [] ∧
      (at_ .verify).bcl.job .A = some v ∧ (∀ u < v.snapMwp, u ∈ v.copied) ∧
      (∃ u < ({ v with snapMwp := 1 } : Job).snapMwp, u ∉ v.copied) ∧ v.abandon = none ∧
      (at_ .verify).mustWaitFor .bcl 1 = false ∧ (fullJournal (at_ .verify)).mustWaitFor .bcl 1 = true ∧
      (at_ .verify).mustWait .bcl = false ∧ v.begun = true ∧ (at_ .verify).worn v.dst = false ∧
      (withBand 3 { aBand .opened with wfaults := 3 } (at_ .verify)).worn v.dst = true ∧
      v.restarts < v.maxRestart ∧ ({ v with restarts := 3 } : Job).maxRestart ≤ 3) := by
  decide

theorem witness_CleaningJobsGoThroughTheirSteps_release :
    let r : Release := ⟨3, 1, true, 0, 1, false⟩
    let c := withBand 3 (aBand .releasing) (serving [])
    let w : SecureDiscard := { post := some { cntl := 0, qid := 1, cid := 9 } }
    let c1 : Chip := { c with bcl := { c.bcl with releases := [r] } }
    let c2 : Chip := { c with bcl := { c.bcl with releases := [{ r with overwriting := true }] } }
    c.mustWait .bcl = false ∧ c.jnl.closed = false ∧ bandKey .A 3 = 3 ∧
    c1.bcl.releases.find? (fun r => r.band == 3 && !r.overwriting) = some r ∧ c1.bandRead 3 = false ∧
    ({ c1 with nvq := { c1.nvq with inflight := [{ workingCmd readCmd with bands := [3] }] } } : Chip).bandRead 3 = true ∧
    (c1.setBit R.BCL_SECURE 0 true).overwriteDue r = true ∧ (c1.setBit R.BCL_SECURE 0 false).overwriteDue r = false ∧
    c2.bcl.releases.find? (fun r => r.band == 3 && r.overwriting) = some { r with overwriting := true } ∧
    ({ w with purgeA := true } : SecureDiscard).wantsPurge .A = true ∧ w.wantsPurge .A = false ∧
    ((c.setReg R.BCL_PACE 0).fld R.BCL_PACE 27 16 = 0 ∧
      (let d : Chip := { c.setReg R.BCL_PACE 0x00010000 with loc := { c.loc with stale := [5] } }
       0 < d.fld R.BCL_PACE 27 16 ∧ d.fld R.BCL_PACE 27 16 ≤ d.staleCount .A)) ∧
    c.bcl.discards.find? SecureDiscard.complete = none ∧ w.complete = true := by decide

theorem witness_SecJobsHashCheckAndDrawRoots :
    let c := (withDram live).setReg R.SEC_JOB_SRC_LO 0x10DFFFFF |>.setReg R.SEC_JOB_LEN 1
    let j : SecJob := ⟨0, 0x10800000, 3⟩
    (c.alive = true ∧ c.sec.job = none ∧ 0 < (c.reg R.SEC_JOB_LEN).toNat ∧ c.memReadable 0x10DFFFFF 1 = true ∧
      c.memReadable 0x10DFFFFF 2 = false) ∧
    (({ c with sec := { job := some j } } : Chip).sec.job = some j ∧ (c.readRange j.src j.len).2.1 = false) ∧
    (c.effective = 1 ∧ c.jnl.failed = false ∧ c.jnl.closed = false) ∧
    ({ c with lcs := { c.lcs with diagnostic := true } } : Chip).effective = 3 ∧ live.diagOpen = false := by decide

/-! ### Channels, engines, Chord and links -/

/-- A descriptor of one sector of head 0, with an OP, its data and record in staging memory. -/
def aDesc (op : Nat := 0) (count : Nat := 0) : DescWords :=
  (⟨0, BitVec.ofNat 32 (count * 2 ^ 16), 0, 0, 0x10800000, 0, 0x10810000, 0x00070000⟩ : DescWords).withOp op

/-- A channel A whose head 0 has a format of 100 sectors, with a descriptor that runs and one queue. -/
def chanChip (run : Option Running := none) (q : List Desc := []) : Chip :=
  { serving [] with chanA := { fmt := [(0, 0x06400960)], run := run, queue := q } }

/-- A read and a write that run. -/
def aSetup : ReadSetup := ⟨2400, [], [], [], [], 0, none, [], 0, 1⟩
def aRead : RdRun :=
  { words := aDesc, by_ := .firmware, iterFly := 20, iterMax := 40, win := 8, save := false, setup := aSetup, tapSet := 0
    taps := [] }
def aWrite : WrRun :=
  { words := aDesc, wrFault := 20, squeeze := false, assist := { mode := 1 }, monLo := 0, monHi := 0, fmt := 0x06400960
    delays := [] }

/-- What the read path meets in a sector that decodes, after a mark one bit off its pattern. -/
def goodSense : Sense := ⟨[1, 0xFFFF], 0, 0, 5, some ⟨sectorInfo 0 0 0 0 0 0, 0⟩⟩

theorem witness_ReadDescriptorsArePushedDecidedAndDone :
    let c := chanChip
    let v := aDesc 0
    (c.alive = true ∧ v.offsets.all (fun i => (c.chan .A).ladders.any
        (fun l => l.isAt v.head v.track (v.sector + i))) = false ∧
      (c.rdPush .A v .original [.copy]).rdResult .A = 1 ∧ (live.rdPush .A v .original [.copy]).rdResult .A ≠ 1) ∧
    (let d : Chip := { c with chanA := (c.chan .A).join v .probe }
     v.offsets.all (fun i => (d.chan .A).ladders.any (fun l => l.isAt v.head v.track (v.sector + i))) = true) ∧
    (c.rdCheck .A v = 1 ∧ live.rdCheck .A v ≠ 1 ∧ ((c.chan .A).waiting false).length < 32 ∧
      32 ≤ (((chanChip none (List.replicate 32 { words := v, write := false, by_ := .firmware })).chan .A).waiting false).length ∧
      ({ v with w0 := 0x00A00000 } : DescWords).head / 10 ≠ Act.A.toNat) := by decide +kernel

theorem witness_ReadDescriptorsArePushedDecidedAndDone_decided :
    let r : RdRun := { aRead with words := aDesc 0 1 }
    let re : RdRun := { aRead with words := aDesc 3 }
    let c := chanChip (some (.rd r))
    let e : Soft := ⟨0, 0, 0, aDesc, true⟩
    let d : Chip := { c with chanA := { c.chanA with run := some (.rd re), soft := [e] } }
    let vs : Chip := { c with chanA := { c.chanA with verdicts := [⟨true, true⟩, ⟨true, true⟩] } }
    ((c.chan .A).run = some (.rd r) ∧ 1 ≤ r.words.count ∧ (∀ e ∈ r.decided, e.1 ≠ 1) ∧ r.words.op ≠ 3 ∧
      (c.chan .A).verdicts.length < 0 + 2 ∧ 0 + 2 ≤ (vs.chan .A).verdicts.length ∧
      (((vs.chan .A).verdicts.take 2).getLastD ⟨false, false⟩).gate = true) ∧
    ((d.chan .A).run = some (.rd re) ∧ re.words.op = 3 ∧
      (d.chan .A).soft.find? (fun e => e.head == re.words.head && e.track == re.words.track && e.sector == re.words.sector)
        = some e ∧ (c.chan .A).soft = []) ∧
    (c.cpu.waits = [] ∧ r.by_ = .firmware ∧ r.decided.length < r.words.count) := by decide +kernel

theorem witness_ServoSamplesAreCheckedShownAndGateTheChannel :
    let c := (serving []).setReg (R.SV_WEDGES .A) 400 |>.setReg (R.SV_SAM .A) 0x1400
    let b : Burst := ⟨some (-20), 7, true, 399, 100, 5⟩
    let s (ch : Chan) : Chip := { c with chanA := ch }
    (c.alive = true ∧ c.fld (R.SV_WEDGES .A) 10 0 ≠ 0 ∧ (c.setReg (R.SV_WEDGES .A) 0).fld (R.SV_WEDGES .A) 10 0 = 0 ∧
      (c.chan .A).svProfile = none ∧ ((s { svProfile := some 2 }).chan .A).svProfile = some 2 ∧
      (∃ m, b.mark = some m ∧ m.natAbs ≤ c.fld (R.SV_SAM .A) 15 8) ∧ (c.chan .A).search = false ∧
      b.wedge < c.fld (R.SV_WEDGES .A) 10 0) ∧
    ((s { search := true }).chan .A).search = true ∧
    (({ c with cleA := { armed := true } } : Chip).cle .A).armed = true ∧
    (((s { misses := 7 }).chan .A).search = false ∧ 7 ≤ ((s { misses := 7 }).chan .A).misses) ∧
    (let v : Sample := { valid := true, wedge := 1023, track := 1048575, pes := -32768 }
     v.wedge < 1024 ∧ v.track < 2 ^ 20 ∧ -32768 ≤ v.pes ∧ v.pes ≤ 32767 ∧ v.valid = true) ∧
    ((c.chan .A).gate = false ∧ ((s { gate := true }).chan .A).gate = true) :=
  ⟨⟨by decide, by decide, by decide, by decide, by decide, ⟨_, rfl, by decide⟩, by decide, by decide⟩, by decide,
    by decide, by decide, by decide, by decide⟩

theorem witness_EngineSamplesObeyTheLawAndHoldOnOverrun :
    let v : Sample := { valid := true, wedge := 0, track := 7, pes := 0 }
    let c : Chip := { serving [] with cleA := { state := .run, dry := true }, chanA := { onTrack := true } }
    let l := c.setReg (R.CLE_RC_CTRL .A) 1 |>.setReg (R.CLE_RC_CFG .A) 0x1
    (v.track < 2 ^ 16 ∧ -32768 ≤ v.pes ∧ v.pes ≤ 32767 ∧ ((c.cle .A).target : Int) < 2 ^ 16 ∧
      ((v.track : Int) - (c.cle .A).target).natAbs < 8 ∧ 8 ≤ (((8 : Nat) : Int) - (c.cle .A).target).natAbs) ∧
    ((-5 : Int).natAbs < 2 ^ 30 ∧ ((c.cle .A).bin 0).natAbs < 2 ^ 30 ∧
      (∀ n ∈ [0, 1, 2], (c.setReg (R.CLE_RC_CFG .A) (BitVec.ofNat 32 n)).fld (R.CLE_RC_CFG .A) 1 0 = n)) ∧
    (l.bit (R.CLE_RC_CTRL .A) 0 = true ∧ l.fld (R.CLE_RC_CFG .A) 1 0 ≠ 0 ∧ (l.chan .A).onTrack = true ∧
      (l.cle .A).dry = true ∧ l.fld (R.CLE_RC_CFG .A) 19 16 = 0 ∧ ((l.cle .A).bin (l.rcKey .A 0 0)).natAbs ≤ 16384 ∧
      ((5 : Int) * 2 ^ (30 - l.fld (R.CLE_RC_CFG .A) 11 8)).natAbs ≤ 2 ^ 43 ∧
      live.bit (R.CLE_RC_CTRL .A) 0 = false) ∧
    ((c.cle .A).pend = [] ∧ ((c.engineSample .A v false true {}).cle .A).running = true ∧
      ((c.setReg (R.CLE_FAULT_CFG .A) 0x00FFFFFF |>.engineSample .A v true true {}).cle .A).running = true) ∧
    (c.alive = true ∧ (c.chan .A).svProfile = none ∧
      (c.setReg (R.SV_WEDGES .A) 0).fld (R.SV_WEDGES .A) 10 0 = 0 ∧
      (c.setReg (R.SV_WEDGES .A) 400).fld (R.SV_WEDGES .A) 10 0 ≠ 0) := by decide +kernel

/-- An engine of actuator A. -/
def withEngine (e : Cle) (c : Chip) : Chip := { c with cleA := e }

theorem witness_EngineCommandsArmParkFeedAndQueueTheLaw :
    let c := serving []
    let run := withEngine { state := .run } c
    let full := withEngine { state := .run, pend := List.replicate 8 (0, 0), fifo := List.replicate 64 (0, 0) } c
    let off := (life .manufacture c).setBit (pCtrl 0x24) 31 true
    (c.alive = true ∧ c.inHoldup = false ∧ c.outOfService .A = false ∧ (c.cle .A).state = .off ∧
      (run.cle .A).state = .run ∧ (run.cle .A).state ≠ .off) ∧
    ((c.cle .A).fifo.length < 64 ∧ 64 ≤ (full.cle .A).fifo.length) ∧
    (let b := (c.setBit (R.CLE_RC_CTRL .A) 0 true)
     b.fld (R.CLE_RC_SEL .A) 19 16 = b.fld (R.CLE_HEAD .A) 3 0 ∧ b.bit (R.CLE_RC_CTRL .A) 0 = true ∧
       c.bit (R.CLE_RC_CTRL .A) 0 = false ∧ (c.setReg (R.CLE_RC_SEL .A) 0x800003FF).bit (R.CLE_RC_SEL .A) 31 = true) ∧
    (off.diagOpen = true ∧ c.diagOpen = false) ∧
    (off.mayReach .jtag (0x40000000 + (chanPage .A 0x24 * 4096 + 0x404)) = true ∧ off.bit (pCtrl (chanPage .A 0x24)) 31 = true ∧
      off.calibrating .A = false ∧ (off.cle .A).pend.length < 8 ∧ 8 ≤ (full.cle .A).pend.length ∧
      ({ off with sys := { off.sys with mode := .calibrate, calA := true } } : Chip).calibrating .A = true) ∧
    (let k := R.CLE_VLIM .A
     ((withEngine { pend := [(k, 7)] } c).cle .A).pend = (k, 7) :: [] ∧ k ≠ R.CLE_STRUCT .A ∧
       k ≠ pIntStatus (chanPage .A 0x24)) := by decide +kernel

theorem witness_WriteDescriptorsArePushedAndWriteUnderPermission :
    let w := aDesc
    let q (n : Nat) : List Desc := List.replicate n { words := w, write := true, by_ := .firmware }
    let c := chanChip.setReg (R.AS_CFG .A) 0
    (c.alive = true ∧ c.wrCheck .A w = 1 ∧ live.wrCheck .A w = 3 ∧ (((chanChip none (q 16)).chan .A).waiting true).length = 16 ∧
      (((chanChip none (q 15)).chan .A).waiting true).length < 16 ∧
      fmtBitrate ((c.chan .A).format w.head w.ann) ≠ 0 ∧ w.sector < fmtSpt ((c.chan .A).format w.head w.ann) ∧
      c.wrCheck .A { w with w1 := 100 } = 4 ∧ c.wrCheck .A { w with w4 := 1 } = 5 ∧ c.wrCheck .A (aDesc 2) = 6 ∧
      (inMode .holdup c).wrCheck .A w = 7) ∧
    (let d : Chip := { withEngine { state := .run } c with chanA := { c.chanA with onTrack := true } }
     d.setReg (R.WR_THRESH .A) 20 |>.permission .A { valid := true, wedge := 0, track := 0, pes := 0 } false) = true ∧
    (let r : WrRun := { aWrite with inTry := true, cur := some 0 }
     ((chanChip (some (.wr r))).chan .A).run = some (.wr r) ∧ r.monDue = false ∧ r.inTry = true ∧ r.cur = some 0 ∧
       r.assist.mode ≠ 0 ∧ aWrite.monDue = false ∧ aWrite.tries = 0 ∧
       (((chanChip (some (.wr aWrite))).chan .A).permit = false) ∧
       (let d := chanChip (some (.wr aWrite))
        ({ d with chanA := { d.chanA with permit := true } } : Chip).chanA.permit = true) ∧ ({ r with assist := {} } : WrRun).assist.mode = 0 ∧ aWrite.inTry = false ∧
       ({ r with monDue := true } : WrRun).monDue = true ∧ r.words.tag < 65536) := by decide +kernel

theorem witness_WriteFaultsUseTriesAndEnvelopesAreMetered :
    let z := withZone 0 openZone chanChip
    let c := withBand 3 { aBand .opened with wfaults := 1 } z
    let r : WrRun := { aWrite with inTry := true }
    ((2 : Nat) < 3 ∧ c.bandWritten .A r.words = some 3 ∧ c.band 3 = some { aBand .opened with wfaults := 1 } ∧ 1 + 1 < 3 ∧
      (chanChip (some (.wr r))).bandWritten .A { r.words with w2 := 0x0007FFFF } = none ∧
      ({ r with tries := 3 } : WrRun).tries = 3) ∧
    (((chanChip (some (.wr r))).chan .A).run = some (.wr r) ∧ r.inTry = true ∧ r.assist.mode ≠ 0 ∧ aWrite.inTry = false) ∧
    ((life .manufacture c).diagOpen = true ∧ c.diagOpen = false) := by decide +kernel

theorem witness_GrantsFollowTheRequestsAndFallBeforeTheyRise :
    let c := serving []
    let run : Chip := { c with cleA := { state := .run }, cleB := { state := .coast } }
    let g : GrantChange := ⟨2, 1, 90000, 20000, true, false, false, true, 0, false⟩
    (c.retired .A = false ∧ c.retired .B = false ∧ (c.setReg R.CHD_SEEK_A 1).bit R.CHD_SEEK_A 0 = true ∧
      c.bit R.CHD_SEEK_B 0 = false ∧ ({ c with chd := { retiredA := true } } : Chip).retired .A = true) ∧
    ((c.setReg R.CHD_ISUM 131071).fld R.CHD_ISUM 17 0 - c.fld R.CHD_ITRK 16 0 ≤ 131071 ∧
      2 * ((c.setReg R.CHD_ISUM 4).setReg R.CHD_ITRK 2).fld R.CHD_ITRK 16 0 ≤
        ((c.setReg R.CHD_ISUM 4).setReg R.CHD_ITRK 2).fld R.CHD_ISUM 17 0) ∧
    (c.alive = true ∧ (chdSeekReq c (some true) none).bit R.CHD_SEEK_A 0 ≠ c.bit R.CHD_SEEK_A 0 ∧ c.chd.change = none ∧
      c.silent .A = true ∧ c.silent .B = true ∧ run.silent .A = false ∧ run.silent .B = false ∧
      (let d := (run.setReg R.CHD_ISUM 100).setReg R.CHD_ITRK 20 |>.setReg R.CHD_SEEK_A 1
       d.limitOf (d.targetGrant .A) ≠ run.limit .A)) ∧
    (let d : Chip := { run.setReg R.CHD_LIM_A 100000 with chd := { change := some g } }
     d.silent .A = false ∧ d.silent .B = false ∧ d.chd.change = some g ∧ g.falls .A = true ∧ (g.to .A).2 ≤ d.limit .A) ∧
    (let d : Chip := run.setReg R.CHD_FF_CTRL 3
     d.pathOn .B = true ∧ (d.cle .B).running = true ∧ d.retired .B = false ∧ c.pathOn .B = false) := by decide +kernel

theorem witness_RetirementIsCheckedCommittedAndReversed :
    let c := serving []
    let v : Word := 0x7E710001
    let going : Chip := { c with chd := { retiring := some .A } }
    (c.alive = true ∧ (c.setReg R.CHD_RETIRE 0x6000).fld R.CHD_RETIRE 14 12 = 6 ∧ c.fld R.CHD_RETIRE 14 12 ≠ 6 ∧
      field v 31 16 = 0x7E71 ∧ field v 1 0 = 1 ∧ actOf (field v 1 0 - 1) = .A ∧ c.sys.mode ≠ .boot ∧
      c.sys.mode ≠ .rebuild ∧ c.sys.mode ≠ .holdup ∧ c.sys.trans = none ∧ c.retired .A = false ∧ c.effective ≠ 0 ∧
      c.effective ≠ 4 ∧ live.sys.mode = .boot ∧ (life .retired c).effective = 4) ∧
    ((withEngine { state := .run } c).cle .A).running = true ∧ (c.cle .A).running = false ∧
    (going.chd.retiring = some .A ∧ going.inHoldup = false ∧ going.jnl.failed = false ∧ going.jnl.closed = false ∧
      (going.cle .A).running = false ∧ (going.cle .A).state ≠ .retract ∧
      ((withEngine { state := .retract } going).cle .A).state = .retract ∧ c.chd.retiring = none) ∧
    ((life .manufacture c).diagOpen = true ∧ c.diagOpen = false) := by decide

/-- An Oavin transaction of firmware. -/
def aPing : OvlTx := ⟨.firmware, .A, 0x0F, 0, 0, 0, 0⟩

theorem witness_OavinTransactionsRunInOrderRepeatAndEnd :
    let c := serving []
    let busy : Chip := { c with links := { ovl := [aPing] } }
    let good : BitVec 32 := BitVec.ofNat 32 ((crc8 24 0).toNat)
    (c.alive = true ∧ c.ovlBusy = false ∧ busy.ovlBusy = true ∧ c.bit (pCtrl 0x38) 31 = false ∧
      c.links.ovlStop = false ∧ (inMode .holdup c).inHoldup = true) ∧
    (let x : Desc := { words := aDesc, write := true, by_ := .firmware }
     let d := (chanChip none [x]).setReg (R.AS_CFG .A) 1
     let e : Chip := { d with chanA := { d.chanA with sel := some (0, true) } }
     (d.chan .A).front = some x ∧ (d.chan .A).asked = false ∧ d.need .A x = some .select ∧ e.need .A x = some .power ∧
       (c.chan .A).front = none ∧ fmtBitrate ((d.chan .A).format x.words.head x.words.ann) ≠ 0 ∧
       fmtBitrate ((c.chan .A).format x.words.head x.words.ann) = 0) ∧
    (let r : WrRun := { aWrite with monDue := true }
     ((chanChip (some (.wr r))).chan .A).run = some (.wr r) ∧ r.monDue = true) ∧
    ((c.setReg R.OVL_CFG 0).fld R.OVL_CFG 15 8 = 0 ∧ (c.setReg R.OVL_CFG 0x100).fld R.OVL_CFG 15 8 ≠ 0) ∧
    (c.links.ovl = [] ∧ busy.links.ovl = aPing :: [] ∧ (crc8 24 (good.toNat / 256)).toNat = good.toNat % 256 ∧
      good.getLsbD 30 = false ∧ good.toNat / 2 ^ 25 % 8 = 0 ∧
      (crc8 24 ((good ^^^ 1).toNat / 256)).toNat ≠ (good ^^^ 1).toNat % 256 ∧
      aPing.repeats < (busy.setReg R.OVL_CFG 1).fld R.OVL_CFG 1 0 ∧
      (busy.setReg R.OVL_CFG 0).fld R.OVL_CFG 1 0 ≤ aPing.repeats ∧ aPing.who = .firmware) ∧
    ((c.chan .A).fltLow = false ∧ (({ c with chanA := { fltLow := true } } : Chip).chan .A).fltLow = true) := by
  decide +kernel

theorem witness_MotorLinkControlAndSensorEvents :
    let c := serving []
    let q := mlkRequest false 3 7
    let rq := mlkRequest true 2 0
    let wait (b : Bool) : Chip := { c with links := { irqWait := b } }
    (c.alive = true ∧ c.links.mlk = none ∧ ({ c with links := { mlk := some q } } : Chip).links.mlk = some q ∧
      c.inHoldup = false ∧ (inMode .holdup c).inHoldup = true) ∧
    (mlkVerdict q q = 1 ∧ mlkVerdict q rq ≠ 1 ∧ [q] ≠ []) ∧
    ((wait false).links.irqWait ≠ true ∧ (wait true).links.irqWait = true ∧ (mlkTries rq [0] 1).1 ≠ 1 ∧
      (mlkTries rq [rq] 1).1 = 1 ∧ (mlkTries (mlkRequest false 2 0) [mlkRequest false 2 0] 1).1 = 1 ∧
      (mlkTries (mlkRequest false 2 0) [0] 1).1 ≠ 1 ∧ c.cleA.pend = [] ∧ c.cleB.pend = []) ∧
    (mlkRequest true 1 0).toNat / 2 ^ 24 = 0xC1 ∧ (mlkRequest false 4 1).toNat / 2 ^ 24 = 0x84 ∧
    (mlkRequest false 4 1).toNat / 2 ^ 8 % 65536 = 1 ∧ (booted 9 live).atStep 9 = true ∧
    (booted 9 live).sys.blankBoot = false ∧ (mlkRequest false 3 7).toNat / 2 ^ 24 % 32 ∈ [3, 4, 5, 8] ∧
    (c.sensorsInTest = false ∧ ({ c with cal := { dev := [{ act := .A, todo := [], item := 7 }] } } : Chip).sensorsInTest = true ∧
      c.bit R.SNS_EVENT 0 = false ∧ c.bit R.SNS_EVENT 1 = false ∧
      (let d := c.setReg R.SNS_SHOCK 0x7FF |>.setReg R.SNS_RV 0x000107FF
       ¬ d.fld R.SNS_SHOCK 10 0 ≤ (d.sensorCode 2 0).natAbs ∧ ¬ d.fld R.SNS_RV 10 0 ≤ (d.sensorCode 0 0 - d.sensorCode 1 0).natAbs) ∧
      (c.setReg R.SNS_SHOCK 0).fld R.SNS_SHOCK 10 0 ≤ (c.sensorCode 2 0).natAbs) := by decide +kernel

/-! ### Memory, journal, cores, recorder, calibration, self-test and debug -/

theorem witness_RawAccessStoresAndLoadsExactly :
    let c := life .manufacture live
    let d (e : Ecc) (a : Nat) : Chip := match e with
      | .mec => (c.setReg R.MEC_TEST_ADDR_HI 1).setReg R.MEC_TEST_ADDR_LO (BitVec.ofNat 32 a)
      | .see => c.setReg R.SEE_TEST_ADDR_LO (BitVec.ofNat 32 a)
    let m : Chip := { d .mec 0xDFFFFFF8 with mem := { size := 1 } }
    (c.alive = true ∧ c.diagOpen = true ∧ live.diagOpen = false) ∧
    (let a := Ecc.testAddr .mec m
     a % 8 = 0 ∧ 0x100000000 ≤ a ∧ a + 8 ≤ 0x100000000 + m.mem.dramBytes ∧ (d .mec 0).mem.dramBytes = 0) ∧
    (let a := Ecc.testAddr .see (d .see 0x10DFFFF8)
     a % 8 = 0 ∧ 0x10000000 ≤ a ∧ a + 8 ≤ 0x10E00000) ∧
    Ecc.testAddr .see (d .see 0x28000001) % 8 ≠ 0 := by decide +kernel

theorem witness_MemoryCorrectsSingleErrorsAndKeepsPoison :
    let c := serving []
    let scrub : Chip := { c.setReg R.MEC_SCRUB_CTRL 1 |>.setReg R.SEE_SCRUB_CTRL 1 with
      mem := { size := 1, filledDram := true, filledSram := true } }
    (71 < 72 ∧ c.underTest 0x10800000 = false ∧ c.mem.syndAt 0x10800000 = 0 ∧
      ({ bytes := [], synd := [(0x10800000 / 8, poisonSynd)] } : Mem).syndAt 0x10800000 = poisonSynd) ∧
    (0x10800007 % 8 + [(5 : Byte)].length ≤ 8 ∧ 0x10800000 % 8 + (List.replicate 8 (5 : Byte)).length ≤ 8) ∧
    (scrub.alive = true ∧ scrub.mem.filledDram = true ∧ scrub.inHoldup = false ∧ scrub.bit R.DDR_STATUS 1 = false ∧
      scrub.bit R.MEC_SCRUB_CTRL 0 = true ∧ scrub.mem.dramBytes ≠ 0 ∧ c.mem.filledDram = false ∧
      (let a := max (scrub.fld R.MEC_SCRUB_POS 29 0 * 64) 0x100000000
       a + 64 < 0x100000000 + scrub.mem.dramBytes) ∧
      (let t := scrub.setReg R.MEC_SCRUB_POS 0x7FFFFFF
       0x100000000 + t.mem.dramBytes ≤ max (t.fld R.MEC_SCRUB_POS 29 0 * 64) 0x100000000 + 64)) ∧
    (scrub.mem.filledSram = true ∧ scrub.bit R.SEE_SCRUB_CTRL 0 = true ∧
      scrub.inPage .see (0x10000000 / 8 * 8) = true ∧ scrub.inPage .see 0 = false) ∧
    ((c.setBit R.DDR_STATUS 0 true).bit R.DDR_STATUS 0 = true ∧ live.bit R.DDR_STATUS 0 = false) ∧
    (populated 0x10 = true ∧
      (let g := c.setBit (pPower 0x10) 0 true |>.setBit R.CLK_FORCE_ON 0 false
       g.bit (pPower 0x10) 0 = true ∧ g.bit R.CLK_FORCE_ON 0 = false ∧ g.blockBusy 0x10 = false) ∧
      (c.setBit R.CLK_FORCE_ON 0 true).bit R.CLK_FORCE_ON 0 = true) ∧
    ((life .manufacture c).diagOpen = true ∧ c.diagOpen = false) := by decide +kernel

/-- The firmware port with a record of TYPE 0x80 in its data registers. -/
def portChip (region group : Nat) : Chip :=
  serving [] |>.setReg (R.JNL_PORT_DATA 0) 0x80 |>.setReg R.JNL_PORT_CTRL (BitVec.ofNat 32 (region * 2))
    |>.setReg R.JNL_PORT_GROUP (BitVec.ofNat 32 group)

theorem witness_JournalWritesInOrderWaitsAndTruncates_records :
    let c := serving []
    let rs : List Rec := [.saveRetire 1]
    let mark : Chip := { c with jnl := { c.jnl with used := 2534 } }
    let op : JnlOp := ⟨.locus, rs, []⟩
    (c.jnl.head < ringSlots ∧ rs.length ≤ 16 ∧ c.jnl.used < c.hwmSlots ∧
      (let d : Chip := { c with jnl := { c.jnl with used := c.hwmSlots - 1 } }
       d.jnl.used < d.hwmSlots ∧ d.hwmSlots ≤ d.jnl.used + rs.length)) ∧
    (∀ t o p, Rec.firmware t o p ∉ rs) ∧
    (c.jnl.closed = false ∧ (fullJournal c).jnl.failed = true ∧ mark.hwmSlots ≤ mark.jnl.used ∧
      ({ c with jnl := { c.jnl with closed := true } } : Chip).jnl.closed = true) ∧
    (c.jnl.waiting = [] ∧ ({ c with jnl := { c.jnl with waiting := [op] } } : Chip).jnl.waiting = [op] ∧
      c.mustWait op.src = false ∧ (fullJournal c).mustWait op.src = true) := by
  refine ⟨by decide, ?_, by decide, by decide⟩
  simp

theorem witness_JournalWritesInOrderWaitsAndTruncates_port :
    let c := portChip 0 0
    let bs := c.portBytes
    (c.alive = true ∧ (∀ o ∈ c.jnl.waiting, o.src ≠ .firmware) ∧ c.inHoldup = false ∧
      (inMode .holdup c).inHoldup = true) ∧
    (slotType bs = 0x80 ∧ leAt bs 1 1 = 0 ∧ c.fld R.JNL_PORT_CTRL 2 1 = 0 ∧ c.jnl.openOp = none ∧
      c.jnl.failed = false ∧ c.mustWait .firmware = false ∧ (fullJournal c).jnl.failed = true) ∧
    ((portChip 2 8).fld R.JNL_PORT_CTRL 2 1 = 2 ∧ 8 ≤ (portChip 2 8).fld R.JNL_PORT_GROUP 6 0 ∧
      ¬ 8 ≤ (portChip 2 7).fld R.JNL_PORT_GROUP 6 0 ∧ (portChip 1 0).fld R.JNL_PORT_CTRL 2 1 = 1) ∧
    (leAt (c.setReg (R.JNL_PORT_DATA 0) 0x0180).portBytes 1 1 % 16 = 1 ∧
      slotType (c.setReg (R.JNL_PORT_DATA 0) 0x60).portBytes = 0x60) := by decide +kernel

theorem witness_JournalWritesInOrderWaitsAndTruncates_checkpoint :
    let c := serving []
    let k : Ckpt := ⟨1, 0, 0, 10, 2⟩
    let d : Chip := { c with jnl := { c.jnl with ckpt := some k } }
    (c.jnl.ckpt = none ∧ c.sys.mode ≠ .boot ∧ c.inHoldup = false ∧ c.jnl.failed = false ∧ c.jnl.openOp = none ∧
      c.jnl.head < ringSlots ∧ live.sys.mode = .boot) ∧
    (d.jnl.ckpt = some k ∧ k.starts < 3 ∧ 3 ≤ ({ k with starts := 3 } : Ckpt).starts ∧ d.jnl.epoch = 9 ∧
      c.sec.finalOpen = 0 ∧ ({ c with sec := { finalCovered := 1 } } : Chip).sec.finalCovered ≠ 0) ∧
    ((life .manufacture c).diagOpen = true ∧ (life .manufacture c).effective ≠ 3 ∧ c.diagOpen = false ∧
      (let e : Chip := { c with lcs := { c.lcs with diagnostic := true } }
       e.effective = 3 ∧ e.diagOpen = true)) ∧
    (c.sys.pccCommitted = false ∧ ({ c with sys := { c.sys with pccCommitted := true } } : Chip).sys.pccCommitted = true) ∧
    (c.nand.badBlocks.length < 56 ∧ 56 ≤ (List.replicate 56 0).length) ∧
    (({ c with mem := { size := 1 } } : Chip).inDram 0x100000000 4 = true ∧ c.inDram 0x100000000 4 = false) := by
  decide

/-- A chip whose core 0 and RT core 6 run, with an L2 that holds a dirty line. -/
def coreChip : Chip :=
  let c := booted 9 (serving []) |>.setReg R.CPU_RELEASE 0x41 |>.setReg R.CPU_L2_CTRL 1
  { c with
    mem := { size := 1 }
    cpu := { c.cpu with l2 := [(16, { addr := 0x100000040, dirty := true, data := List.replicate 64 0, poison := [1] })] } }

theorem witness_CoresAbortPreciselyAndCachesAreControlled :
    let c := coreChip
    let pend : Chip := { c with chanA := { c.chanA with run := some (.rd { aRead with pend := [0] }) } }
    (c.coreRuns 0 = true ∧ c.coreRuns 6 = true ∧ (∀ w ∈ c.cpu.waits, w.core ≠ 0) ∧ c.coreRuns 1 = false) ∧
    (regionOf c.mem c.carveBytes 0x60000000 = none ∧ regionOf c.mem c.carveBytes 0x10000000 = some .zoneTable ∧
      regionOf c.mem c.carveBytes 0x10800000 = some .staging ∧ regionOf c.mem c.carveBytes 0 = some .bootRom ∧
      regionOf c.mem c.carveBytes 0x40011080 = some .regs ∧ populated (0x40011080 / 4096 % 256) = true ∧
      regionOf c.mem c.carveBytes 0x28000000 = some .tcmA) ∧
    (c.slotPending 0x10800000 4 = false ∧ pend.slotPending 0x10800000 4 = true) ∧
    (regionOf c.mem c.carveBytes 0x100000040 = some .dram ∧ c.bit R.CPU_L2_CTRL 0 = true ∧
      c.inWindow 0x100000040 = false ∧ c.l2Find 0x100000040 = some 16 ∧ (c.cpu.l2.find? 16).isSome = true ∧
      16 ∉ c.cpu.inject ∧ 0x100000048 % 64 / 8 = 1) := by decide +kernel

/-- A prefetch outside the L2's lines fills a line, one of a line it holds does nothing, and a filled line is consumed. -/
theorem witness_CoresAbortPreciselyAndCachesAreControlled_prefetch :
    let c := coreChip
    let l : L2Line := { addr := 0x100000040, dirty := false, data := List.replicate 64 0, spec := true }
    let p : Chip := { c with cpu := { c.cpu with l2 := [(16, l)] } }
    (regionOf c.mem c.carveBytes 0x100000080 = some .dram ∧ c.inWindow 0x100000080 = false ∧
      c.l2Find 0x100000080 = none ∧ c.slotPending (lineOf 0x100000080) 64 = false ∧ c.cpu.inject = [] ∧
      (∀ e ∈ p.cpu.l2, e.2.dirty = false) ∧ c.l2Find 0x100000040 ≠ none) ∧
    (p.l2Find 0x100000040 = some 16 ∧ p.cpu.l2.find? 16 = some l ∧ l.spec = true ∧ 16 ∉ p.cpu.inject) ∧
    (let d : Chip := { c with cpu := { c.cpu with inject := [16] } }
     16 ∈ d.cpu.inject) := by decide +kernel

theorem witness_CoresAbortPreciselyAndCachesAreControlled_control :
    let c := coreChip
    let off := c.setReg R.CPU_L2_CTRL 0
    let clean : Chip := { c with cpu := { c.cpu with l2 := [(16, { addr := 0x100000040, dirty := false, data := List.replicate 64 0 })] } }
    (c.bit R.CPU_L2_CTRL 0 = true ∧ off.bit R.CPU_L2_CTRL 0 = false ∧ off.cpu.l2Inv = false ∧
      ({ off with cpu := { off.cpu with l2Inv := true } } : Chip).cpu.l2Inv = true ∧
      (∃ e ∈ c.cpu.l2, e.2.dirty = true) ∧ ¬ (∃ e ∈ clean.cpu.l2, e.2.dirty = true)) ∧
    ((c.cpu.cm.find? 0).isSome = false ∧ (({ c with cpu := { c.cpu with cm := [(0, 1)] } } : Chip).cpu.cm.find? 0) = some 1 ∧
      c.cpu.inject = [] ∧ (0 : Nat) < (c.setReg R.CPU_L2_CARVE 1).fld R.CPU_L2_CARVE 4 0) ∧
    (field 17 4 0 = 17 ∧ field 16 4 0 = 16 ∧ (c.setReg R.CPU_L2_LOCK 1).reg R.CPU_L2_LOCK = 1 ∧
      field (0x00010000 : Word) 19 16 = 1 ∧ field (0x8C001000 : Word) 27 24 = 12 ∧ field (0x8C001000 : Word) 15 0 % 2 ^ 12 = 0 ∧
      c.inDram (field (0x8C001000 : Word) 15 0 * 2 ^ 20) 1 = true ∧ ¬ field (0x8D001000 : Word) 27 24 ≤ 12) ∧
    ((life .manufacture c).diagOpen = true ∧ c.diagOpen = false) ∧
    ((c.setReg (R.CPU_L1_CTRL 0) 3).bit (R.CPU_L1_CTRL 0) 1 = true ∧ live.bit R.CPU_L2_CTRL 0 = false ∧
      c.cpu.l2.find? 17 = none ∧
      regionOf c.mem (c.setReg R.CPU_L2_CARVE 1).carveBytes 0x20000000 = some .carve) := by decide +kernel

/-- An event of a severity, and a recorder that may write with a queue. -/
def anEvent (code sev : Nat) : Event := { code := code, sev := sev, items := [], dtime := 0 }
def recChip (q : List Event) : Chip := { serving [] with evr := { started := true, queue := q } }

theorem witness_EventsMergeQueueOrDropAndTheRecorderWritesThem :
    let e := anEvent 0x1002 0
    let f := anEvent 0x4001 3
    let many := List.replicate 32 (anEvent 0x1002 1)
    let c := recChip [e]
    let post (n : Nat) := (recChip []).setReg R.EVR_POST_CTRL (BitVec.ofNat 32 n)
    (c.dtm.running = true ∧ c.evr.queue.getLast? = some e ∧ e.code = (anEvent 0x1002 2).code ∧ e.code ≠ f.code ∧
      many.length = 32 ∧ (∀ y ∈ many, y.sev ≤ 3) ∧ f.sev ≤ 3) ∧
    (0x1002 ∈ [0x0001, 0x0002, 0x0C01, 0x1002] ∧ (List.replicate 29 (none : Option DWord)).length ≤ 29) ∧
    ((post 0x801FF).fld R.EVR_POST_CTRL 9 0 = 0x1FF ∧ (post 0x80200).fld R.EVR_POST_CTRL 9 0 = 0x200 ∧
      (post 0x80200).fld R.EVR_POST_CTRL 19 16 = 8 ∧ (post 0x90200).fld R.EVR_POST_CTRL 19 16 = 9) ∧
    (c.alive = true ∧ c.evr.started = true ∧ c.evr.stopped = false ∧ c.evr.pendQ + c.evr.pendF = 0 ∧
      (recChip []).evr.queue = [] ∧ c.evr.queue = e :: [] ∧
      ¬ (({ c with evr := { c.evr with pendQ := 1 } } : Chip).evr.pendQ + c.evr.pendF = 0 ∨ 32 ≤ c.evr.queue.length)) ∧
    ((c.setBit R.EVR_FREEZE 0 true).bit R.EVR_FREEZE 0 = true ∧ c.bit R.EVR_FREEZE 0 = false ∧
      c.bit R.EVR_INJECT 0 = false ∧ [e, f].find? (fun x => x.sev == 3) = some f) := by decide +kernel

theorem witness_EventsMergeQueueOrDropAndTheRecorderWritesThem_areas :
    let e := anEvent 0x1002 1
    let c := recChip [e]
    let n := (eventWords e c.jnl.pcc c.jnl.optime).length
    let v : Evr := { c.evr with gused := 5073 - n, ghead := 5073 - n }
    let full : Chip := { c with evr := { v with nInfo := 5 } }
    let gb := Area.base .general
    let word (code sev len : Nat) : DWord := BitVec.ofNat 64 (len + sev * 2 ^ 8 + code * 2 ^ 40)
    (c.evr.degraded = false ∧ e.sev ≤ 2 ∧ (∀ i, c.evr.last ≠ .general i e.code) ∧ c.evr.ghead < 5104 ∧
      c.evr.gused + n ≤ 5072 ∧ 5072 < full.evr.gused + n ∧ full.evr.atMost 1 ≠ 0 ∧ c.evr.atMost 1 = 0) ∧
    recCode (full.mramWord (gb + full.evr.gtail)) ≠ 0x10000 ∧
    ((anEvent 0x4001 3).sev = 3 ∧ (∀ i, c.evr.last ≠ .floor i 0x4001) ∧ c.evr.fhead < 1024 ∧ n < 1024) ∧
    (({ c.evr with last := .general 0 e.code } : Evr).last = .general 0 e.code ∧
      ({ c.evr with last := .floor 0 0x4001 } : Evr).last = .floor 0 0x4001) ∧
    (let d := c.setReg R.NFC_GEOM 0x10E01
     d.evr.mirror.length + n ≤ d.mirrorPage ∧ d.mirrorPage < 2048 + n ∧ (word 0 0 1) ≠ (word 1 0 1)) ∧
    (c.evr.mirror = [] ∧ ({ c.evr with mirror := [0] } : Evr).mirror ≠ [] ∧
      (c.setReg R.EVR_FREEZE 0x10001).fld R.EVR_FREEZE 31 16 ≠ 0) := by
  refine ⟨⟨by decide, by decide, ?_, by decide, by decide +kernel, by decide +kernel, by decide, by decide⟩,
    by decide +kernel, ⟨by decide, ?_, by decide, by decide +kernel⟩, by decide, by decide +kernel, by decide⟩ <;>
    exact fun i h => by cases h

theorem witness_CalibrationAndSelfTestReportWhatTheyMeasure_cal :
    let t : CalTarget := { item := 0 }
    let r : CalRun := { act := .A, todo := [t] }
    let c : Chip := { inMode .calibrate (serving []) with cal := { a := some r, dev := [{ act := .A, todo := [t], item := 0 }] } }
    let busy := chanChip (some (.rd aRead))
    (c.alive = true ∧ c.inHoldup = false ∧ c.cal.plan .A = some r ∧ r.act = .A ∧ r.todo = t :: [] ∧
      c.channelFree .A = true ∧ busy.channelFree .A = false ∧ (serving []).cal.plan .A = none ∧
      c.cal.dev.find? (fun x => x.item == 0 && x.act == .A) = some { act := .A, todo := [t], item := 0 } ∧
      c.cal.dev.find? (fun x => x.item == 5 && x.act == .A) = none) ∧
    (240 < ((24241 : Int) - 24000).natAbs ∧ ¬ 240 < ((24240 : Int) - 24000).natAbs ∧
      (c.calOutcome .A t (.span 0 (96 * 4096)) true).isSome = true ∧ (c.calOutcome .A t (.temp 0) true).isSome = false) ∧
    (spanOutcome .A t 0 (96 * 4096)).good = true ∧
    ((c.cle .A).state = .off ∧ (serving []).cal.dev = [] ∧ (serving []).calOwns .A = false ∧ ((serving []).chan .A).busy = false ∧
      busy.chanA.busy = true) ∧
    (let d : Chip := { (serving []).setReg R.CAL_DRIFT 0x05000000 with cal := { watchA := true } }
     d.cal.watchA = true ∧ d.fld R.CAL_DRIFT 29 24 = 5) := by decide +kernel

theorem witness_CalibrationAndSelfTestReportWhatTheyMeasure_bst :
    let c := life .manufacture (serving [])
    let r : BstRun := { test := 8, algo := 0, repair := false, start := 0, seg := 7, sig := 0 }
    let d : Chip := { c with bst := { run := some r } }
    let e : RepairEntry := ⟨4, 0, 0, 63⟩
    let f := c.setReg R.BST_REPAIR_SEL 4
    let job : Chip := { c with bst := { soft := [e], fusing := [(e, true)] } }
    (c.diagOpen = true ∧ (serving []).diagOpen = false ∧ c.bst.run = none ∧ d.bst.run = some r ∧
      (7200 ≤ 7200 ∧ 7875 ≤ 7875 ∧ ¬ (7200 ≤ 7199)) ∧ 20 < (21 : Int).natAbs ∧ c.testAllowed 8 = true ∧
      memoryTest 8 = some (8, 1) ∧ memoryTest 16 = none ∧ analogTest 16 = some 8 ∧ r.test ≠ 20) ∧
    (f.repairSel = (4, 0, 0) ∧ memoryTest 4 = some (96, 12) ∧ 63 < 96 / 12 * 8 ∧ f.bst.entry f.repairSel = none ∧
      ({ f.bst with soft := [e] } : Bst).entry f.repairSel = some e) ∧
    (c.effective = 1 ∧ c.fuses.repairRows < 96 ∧ c.bst.fusing = [] ∧ job.bst.fusing ≠ [] ∧
      (job.bst.soft.filter (fun e => !job.fuses.repairs.contains e)) ≠ [] ∧
      (c.bst.soft.filter (fun e => !c.fuses.repairs.contains e)) = [] ∧
      ({ c with lcs := { c.lcs with diagnostic := true } } : Chip).effective = 3) := by decide +kernel

theorem witness_DebugPortsServeOnlyWhereTheLifeCycleOpensThem :
    let c := serving []
    let o : Chip := { live with dbg := { testEn := true }, mem := { filledSram := true } }
    let off := State.reset.chip
    (o.effective = 0 ∧ o.dbg.testEn = true ∧ c.effective = 2 ∧ o.jtagOpen = true ∧ c.jtagOpen = false ∧
      c.dbg.ir ≠ 0x10 ∧ ({ c with dbg := { ir := 0x10 } } : Chip).dbg.ir = 0x10) ∧
    (off.jtagOpen = true ∧ off.alive = false ∧ o.alive = true ∧ 0x10800001 % 4 ≠ 0 ∧
      regionOf o.mem o.carveBytes 0x60000000 = none ∧ regionOf o.mem o.carveBytes 0x40000080 = some .regs ∧
      populated ((0x40000080 - 0x40000000) / 4096) = true ∧ populated ((0x4000F000 - 0x40000000) / 4096) = false ∧
      regionOf o.mem o.carveBytes 0x30000000 = some .mram ∧ regionOf o.mem o.carveBytes 0x10800000 = some .staging ∧
      o.slotPending 0x10800000 4 = false ∧ o.filled .staging = true ∧ live.filled .staging = false) ∧
    (let t := o.setReg R.DBG_TRC_CTRL 1 |>.setReg R.DBG_TRC_SEL 2
     t.bit R.DBG_TRC_CTRL 0 = true ∧ t.bit R.DBG_TRC_SEL 1 = true ∧ o.bit R.DBG_TRC_CTRL 0 = false) ∧
    (o.dbg.uartTx.length < 32 ∧ 32 ≤ (List.replicate 32 (0 : Byte)).length) := by decide +kernel

/-! ### Single steps, their results worked out from the rules -/

/-- The check value of CRC32C (reflected 0x1EDC6F41) for the nine digits. -/
theorem test_crc32c : crc32c [0x31, 0x32, 0x33, 0x34, 0x35, 0x36, 0x37, 0x38, 0x39] = 0xE3069283 := by decide +kernel

/-- The step takes the front command and leaves the rest waiting. -/
theorem test_step_takes_the_front :
    (match step { pending := [.intSet 0x10 5, .chipPark], chip := live } with
      | .next t => decide (t.pending = [.chipPark] ∧ t.chip.reg (pIntStatus 0x10) = 5)
      | _ => false) = true := by decide

/-- R44, R42: only the key value resets, and the cause bit stays. -/
theorem test_swreset :
    (after (.sysSwreset 0xA5A5) (booted 9 live)).sys.mode = .holdup ∧
    (after (.sysSwreset 0xA5A5) (booted 9 live)).bit R.SYS_RESET_CAUSE 3 = true ∧
    (after (.sysSwreset 0xA5A6) (booted 9 live)).sys.mode = .boot := by decide

/-- R45: the kick restarts the timeout at DTIME. -/
theorem test_wdog_kick :
    (after (.sysWdogKick 0x5AA5) { live with dtm := { live.dtm with dtime := 77 } }).sys.wdogFrom = 77 := by decide

/-- R46, R57: step 1, and the sync byte of a UART boot. -/
theorem test_boot_start : (after .bootStart State.reset.chip).bootStep = 1 := by decide
theorem test_uart_sync : (after .uartSyncByte { uartChip none 0 with uart := {} }).out = [.uart 0x55] := by decide

/-- R34: SERVICE is asked for from REST alone; the code is 2 elsewhere. -/
theorem test_mode_refused :
    (after .modeReqService live).reg R.SYS_MODE_REQ &&& 0x00F20100#32 = 0x00220000#32 ∧
    (after .modeReqService (inMode .rest live)).sys.mode = .service := by decide

/-- R64, R79: a wrong KEY gives RESULT 5. -/
theorem test_lcs_wrong_key :
    (after (.lcsAdvance 1 0xA11D) live).lcs.result = 5 ∧ (after (.lcsAdvance 1 0xA11C) live).lcs.job = some (.program .manufacture false) := by
  decide

/-- R61: an erase whose length is no multiple of 64 KiB is refused with RESULT 2. -/
theorem test_osp_erase : (after .ospErase norChip).fld R.OSP_CMD 26 24 = 2 ∧ (after .ospErase norChip).osp = none := by decide

/-- R92, R101, R102: causes set by hand, and COLLIDE with a collision in the cycle of its clear. -/
theorem test_int_set : (after (.intSet 0x10 5) (live.setReg (pIntStatus 0x10) 2)).reg (pIntStatus 0x10) = 7 := by decide
theorem test_collide : (after (.collideClr 0x10 (some 0x10)) live).reg (pCollide 0x10) = 0x00100001 := by decide

/-- R91, R101: a cause that hardware sets in the cycle of its clear stays, and one that it does not falls. -/
theorem test_w1c_collides :
    (after (.registerWrite .jtag 0x40010010 ⟨3, []⟩ 2 0) (live.setReg (pIntStatus 0x10) 7)).reg (pIntStatus 0x10) = 6 := by decide

/-- R95: PROFILE 3 is out of range. -/
theorem test_profile_3 : (after (.profileLoad 0x40020080 3) live).bit (pFault 0x20) 3 = true := by decide

/-- R403: an acknowledged WCUR for every head is what the preamplifier holds. -/
theorem test_wcur_held :
    let t : OvlTx := { who := .firmware, preamp := .A, cmd := 0x02, head := 15, reg := 0, data := 0x0102 }
    let d := ovlResponse { live with links := { ovl := [t] } }
      (BitVec.ofNat 32 ((0x01000000 + 0x010200) + (crc8 24 (0x010000 + 0x0102)).toNat))
    SMap.get (fun _ => 0) d.att.preA.wcur 9 = 0x0102 ∧ d.fld R.OVL_TX_CTRL 6 4 = 1 := by decide +kernel

/-- R188: KIND, STATE, NSID, GEN, BAND and MWP lie at their bits. -/
theorem test_zone_descriptor :
    (withZone 0 { kind := 1, state := 4, nsid := 1, gen := 5, hasBand := true, band := 7, ann := 2, mwp := 65536 }
      live).zoneDescriptor 0 = 1#128 + 4 * 2 ^ 4 + 1 * 2 ^ 8 + 5 * 2 ^ 16 + 2 * 2 ^ 24 + 7 * 2 ^ 32 + 65536 * 2 ^ 50
        + 0xFF * 2 ^ 108 := by decide +kernel

/-- R212: the worked case of the chapter is class 9; with an unknown stamp TEMP_BIN is 3. -/
theorem test_retention_class :
    let c : Chip := { live with loc := { live.loc with temp := 52 }, jnl := { live.jnl with optime := 9000 * 256 } }
    (withZone 0 { kind := 1, wtime := 20000, tmin := 38, tmax := 44 } c).retentionClass 0 = 9 ∧
    (withZone 0 { kind := 1, wtime := 20000, tmin := 0xFF, tmax := 0xFF } c).retentionClass 0 = 11 := by decide +kernel

/-- R108: the high half goes to the latch of the master that reads. -/
theorem test_dtime_latch :
    (after (.dtimeLoRead .jtag) { live with dtm := { live.dtm with dtime := 0x500000007 } }).dtm.latches = [(8, 5)] := by decide

/-- R498: only the active line may be ended. -/
theorem test_eoi :
    let c : Chip := { live with cpu := { live.cpu with irq := [(0, [(3, 1), (9, 4)])] } }
    (after (.cpuIrqEoi 0 3) c).irqOf 0 = [(9, 4)] ∧ (after (.cpuIrqEoi 0 9) c).bit (pFault 0x50) 4 = true := by decide

/-- R110: UP, speed and width of a link. -/
theorem test_link : (after (.linkChange 0 ⟨true, 0, false⟩ 4 2) (booted 3 live |>.setReg R.HIF_PORT 8)).reg R.HIF_LINK0 = 0x29 := by decide

/-- R141: a tail moves its queue's tail; one at the queue's size is ignored and reported. -/
theorem test_doorbell :
    ((after (.sqDoorbell 0 1 1) (serving [])).nvq.sqs.map Sq.tail) = [0, 1] ∧
    (after (.sqDoorbell 0 1 2) (serving [])).bit (pIntStatus 0x11) 4 = true := by decide

/-- R118, R140: QSIZE 0 is Invalid Queue Size; QSIZE counts from 0. -/
theorem test_create_cq :
    (after (.createIoCq 0 5) (serving [adminCmd 0x05 (2 + 65536) 1])).nvq.cqs.map Cq.size = [16, 2, 2] ∧
    (after (.createIoCq 0 5) (serving [adminCmd 0x05 2 1])).out =
      [.completion { cntl := 0, qid := 0, cid := 5, sct := 1, sc := 2, dnr := true }] := by decide

/-- R144, R197: a Read of an Empty zone gives a block of zeros; a retired actuator fails it. -/
theorem test_read_empty :
    (after (.read 0 1 9 []) (serving [readCmd])).out =
      [.blocks 0 1 9 [(0, false)], .completion { cntl := 0, qid := 1, cid := 9 }] := by decide +kernel

/-- R140: a write off the write pointer is Zone Invalid Write. -/
theorem test_write_pointer :
    (after (.write 0 1 9) (withZone 0 openZone (serving [fetched 1 { cid := 9, opcode := 0x01, nsid := 1, cdw10 := 11 }]))).out =
      [.completion { cntl := 0, qid := 1, cid := 9, sct := 1, sc := 0xBC, dnr := true }] := by decide

/-- R128: Open of an open zone makes it Explicitly Open; Finish of an open zone leaves it Full. -/
theorem test_zone_open : ((after (.zoneOpen 0 1 9) (withZone 0 openZone (serving [zoneCmd 3]))).zone 0).state = 2 := by decide
theorem test_zone_finish : ((after (.zoneFinish 0 1 9) (withZone 0 openZone (serving [zoneCmd 2]))).zone 0).state = 4 := by decide

/-- R164: Exist of an absent key. -/
theorem test_kv_exist :
    (after (.kvExist 0 1 9) (kvChip [] [kvCmd 0x14 0 0 0 0])).out =
      [.completion { cntl := 0, qid := 1, cid := 9, sct := 1, sc := 0x87, dnr := true }] ∧
    (after (.kvExist 0 1 9) (kvChip [aValue] [kvCmd 0x14 0 0 0 0])).out = [.completion { cntl := 0, qid := 1, cid := 9 }] := by decide

/-- R165: List gives the key's length and its bytes. -/
theorem test_kv_list :
    (after (.kvList 0 1 9) (kvChip [aValue] [kvCmd 0x06 16 0 0 0])).out.head? =
      some (.bytes 0 1 9 [1, 0, 0, 0, 4, 0, 1, 0, 0, 0, 0, 0]) := by decide

/-- R187: an APPLY outside SERVICE shows 6; R219: FREE of a SUSPECT band. -/
theorem test_part_apply : (after .locPartApply live).fld R.LOC_PART_CTRL 6 4 = 6 := by decide
theorem test_band_free :
    ((after .locBandCmdFree (withBand 0 (aBand .suspect) (serving []))).band 0).map Band.state = some .free := by decide +kernel

/-- R246: a job with an Annulus above 8 shows 5. -/
theorem test_job_go :
    (after .bclJobGo (withZone 0 { openZone with state := 3 } (serving []) |>.setReg R.BCL_JOB_CTRL 0x90)).fld R.BCL_JOB_CTRL 11 9 = 5 := by
  decide

/-- R251: LEN 0 is refused with RESULT 2. -/
theorem test_sec_job : (after .secCrc32cJob live).fld R.SEC_JOB_CTRL 26 24 = 2 := by decide

/-- R319, R320: a write descriptor without a format shows 3. -/
theorem test_wr_desc : (after (.wrDescWrite .A aDesc) live).fld (R.WR_PUSH .A) 3 1 = 3 := by decide

/-- R288, R353: FMT_LOCK and RUN. -/
theorem test_fmt_lock : (after (.fmtLock .B) live).bit (R.FMT_LOCK .B) 0 = true ∧ (after (.fmtLock .B) live).bit (R.FMT_LOCK .A) 0 = false := by decide
theorem test_cle_run : (after (.cleRun .A) (serving [])).cleA.armed = true ∧ (after (.cleRun .A) (serving [])).cleB.armed = false := by decide

/-- R390: a request without its KEY shows 2. -/
theorem test_retire : (after (.chdRetire 0x7E720001) (serving [])).fld R.CHD_RETIRE 14 12 = 2 := by decide

/-- R403, R417: a PING and a read of a register of the motor link are sent at once. -/
theorem test_ping : (after (.ovlPing .A 0 0 0) (serving [])).out = [.ovlFrame .A aPing.frame] := by decide
theorem test_mlk_read : (after (.mlkRead 2) (serving [])).out = [.mlkFrame (mlkRequest true 2 0)] := by decide

/-- R433, R446: a raw write of data 1 with check bits 0 leaves the syndrome of its check bits. -/
theorem test_write_raw :
    let c := (life .manufacture live).setReg R.SEE_TEST_ADDR_LO 0x10000008 |>.setReg R.SEE_TEST_DATA_LO 1
    (after .seeWriteRaw c).mem.wordAt 0x10000008 = 1 ∧ (after .seeWriteRaw c).mem.syndAt 0x10000008 = checkBits 1 := by decide +kernel

/-- R513: a lock mask takes effect where a way stays free. -/
theorem test_l2_lock :
    (after (.cpuL2Lock 3) live).reg R.CPU_L2_LOCK = 3 ∧
    (after (.cpuL2Lock 0xFFFF) (live.setReg R.CPU_L2_CTRL 1)).bit (pFault 0x50) 6 = true := by decide

/-- R501: an L1 not invalidated since its last disable is not enabled. -/
theorem test_l1_enable :
    (after (.cpuL1Enable 0 true false) live).bit (R.CPU_L1_CTRL 0) 0 = false ∧
    (after (.cpuL1Enable 0 true false) live).bit (R.CPU_L1_CTRL 0) 4 = true := by decide

/-- R525: two events of one code in a row merge. -/
theorem test_event_merges :
    (after (.eventHandover 0x4001 []) (after (.eventHandover 0x4001 []) live)).evr.queue.map Event.repeats = [1] := by decide

/-- R528's worked case: a NOTICE of 9 words into a general area of 5,070 used words whose tail holds an ERROR. -/
def fullArea : Chip :=
  let gb := Area.base .general
  let c := recChip [{ anEvent 0x4001 1 with items := List.replicate 6 0 }]
  (c.setMramWord (gb + 1000) (BitVec.ofNat 64 (6 + 2 * 64 + 0x4002 * 256))) |> fun c =>
    { c with evr := { c.evr with gtail := 1000, ghead := 966, gused := 5070, nInfo := 1, nError := 1 } }

/-- Its first operation: the ERROR record moves to words 966 to 971. -/
theorem test_room_by_a_move :
    let c := after (.evrOperation 0) fullArea
    c.evr.ghead = 972 ∧ c.evr.gtail = 1006 ∧ c.evr.gused = 5070 ∧ c.evr.nError = 1 ∧ c.evr.queue.length = 1 ∧
      c.mramWord (Area.base .general + 966) = fullArea.mramWord (Area.base .general + 1000) := by decide +kernel

/-- A move whose slot write fails sends the moved record and the event to the mirror (R535). -/
theorem test_failed_move :
    let c := after (.evrOperation 3) (fullArea.setReg R.NFC_GEOM 0x10E01)
    c.evr.degraded = true ∧ c.evr.gtail = 1000 ∧ c.out.length = 1 ∧ c.evr.mirror.length = 9 ∧ c.evr.queue = [] := by
  decide +kernel

/-- R561, R563: a supply out of its range refuses a self-test with CAUSE 5. -/
theorem test_bst_supply : (after (.bstMemoryTest 8 7199 0) (life .manufacture live)).fld R.BST_RESULT 7 4 = 5 := by decide

/-- R574: an entry applied to a free place has RESULT 1. -/
theorem test_repair_apply :
    (after (.bstRepairApply 63) (life .manufacture live |>.setReg R.BST_REPAIR_SEL 4)).bst.soft = [⟨4, 0, 0, 63⟩] := by decide +kernel

/-- R619: IDCODE, and BYPASS for a code that is not available. -/
theorem test_idcode : (after .jtagIdcode live).out = [.jtag 32 0xB4860E35] := by decide
theorem test_bypass : (after (.jtagBypass 0x33) live).dbg.ir = 0xFF := by decide

/-- R623: a byte received is held; the 33rd is lost and noted. -/
theorem test_uart_rx :
    (after (.dbgUartRxByte 7) live).dbg.uartRx = [7] ∧
    (after (.dbgUartRxByte 7) { live with dbg := { uartRx := List.replicate 32 0 } }).bit R.DBG_UART_STATUS 16 = true := by decide


/-- Both engines hand off at once: the second frame waits 64 CK_FAB cycles (R415, the chapter's worked figure). -/
theorem test_frame_waits : (((serving []).sendCommands .A 0 0 false).sendCommands .B 0 0 false).fld
    R.MLK_WAIT_MAX 6 0 = 64 := by decide

/-- R576: a channel under its loop-back test starts no descriptor, and calibration waits for TEST 21. -/
theorem test_waits_for_a_test :
    let under (n : Nat) : Chip := { serving [] with bst := { run := some { test := n, algo := 0, repair := false, start := 0, seg := 0, sig := 0 } } }
    (under 16).testing 16 = true ∧ (under 16).testing 17 = false ∧ (under 21).testing 21 = true ∧
      (after (.bstYieldExpiry 3 []) (under 16)).bst.run = none := by decide

end Sys2Proof.Tests
end

section
/-! Frames by parts, one lemma for each part of the chip that an operation replaces. -/

namespace Sys2Proof.Machine

open Sys2Proof

variable {c d e : Chip} {ps : List ChipPart}

/-- A change of one listed part. -/
theorem Keeps.of_part (h : Keeps ps c d) {q : ChipPart} (hq : q ∈ ps) (g : ∀ p, p ≠ q → p.Same d e) : Keeps ps c e :=
  fun p hp => (h p hp).trans (g p fun hpq => hp (hpq ▸ hq))

theorem Keeps.withSys (h : Keeps ps c d) (x : Sys) (hp : .sys ∈ ps) : Keeps ps c { d with sys := x } :=
  h.of_part hp fun p _ => by cases p <;> trivial

theorem Keeps.withFuses (h : Keeps ps c d) (x : Fuses) (hp : .fuses ∈ ps) : Keeps ps c { d with fuses := x } :=
  h.of_part hp fun p _ => by cases p <;> trivial

theorem Keeps.withLcs (h : Keeps ps c d) (x : Lcs) (hp : .lcs ∈ ps) : Keeps ps c { d with lcs := x } :=
  h.of_part hp fun p _ => by cases p <;> trivial

theorem Keeps.withUart (h : Keeps ps c d) (x : UartLoad) (hp : .uart ∈ ps) : Keeps ps c { d with uart := x } :=
  h.of_part hp fun p _ => by cases p <;> trivial

theorem Keeps.withDtm (h : Keeps ps c d) (x : Dtm) (hp : .dtm ∈ ps) : Keeps ps c { d with dtm := x } :=
  h.of_part hp fun p _ => by cases p <;> trivial

theorem Keeps.withEvr (h : Keeps ps c d) (x : Evr) (hp : .evr ∈ ps) : Keeps ps c { d with evr := x } :=
  h.of_part hp fun p _ => by cases p <;> trivial

theorem Keeps.withMram (h : Keeps ps c d) (x : SMap DWord) (hp : .mram ∈ ps) : Keeps ps c { d with mram := x } :=
  h.of_part hp fun p _ => by cases p <;> trivial

theorem Keeps.withNvq (h : Keeps ps c d) (x : Nvq) (hp : .nvq ∈ ps) : Keeps ps c { d with nvq := x } :=
  h.of_part hp fun p _ => by cases p <;> trivial

theorem Keeps.withLoc (h : Keeps ps c d) (x : Loc) (hp : .loc ∈ ps) : Keeps ps c { d with loc := x } :=
  h.of_part hp fun p _ => by cases p <;> trivial

theorem Keeps.withBcl (h : Keeps ps c d) (x : Bcl) (hp : .bcl ∈ ps) : Keeps ps c { d with bcl := x } :=
  h.of_part hp fun p _ => by cases p <;> trivial

theorem Keeps.withSec (h : Keeps ps c d) (x : Sec) (hp : .sec ∈ ps) : Keeps ps c { d with sec := x } :=
  h.of_part hp fun p _ => by cases p <;> trivial

theorem Keeps.withSeg (h : Keeps ps c d) (x : Seg) (hp : .seg ∈ ps) : Keeps ps c { d with seg := x } :=
  h.of_part hp fun p _ => by cases p <;> trivial

theorem Keeps.withNand (h : Keeps ps c d) (x : Nand) (hp : .nand ∈ ps) : Keeps ps c { d with nand := x } :=
  h.of_part hp fun p _ => by cases p <;> trivial

theorem Keeps.withNfc (h : Keeps ps c d) (x : Nfc) (hp : .nfc ∈ ps) : Keeps ps c { d with nfc := x } :=
  h.of_part hp fun p _ => by cases p <;> trivial

theorem Keeps.withOsp (h : Keeps ps c d) (x : Option OspJob) (hp : .osp ∈ ps) : Keeps ps c { d with osp := x } :=
  h.of_part hp fun p _ => by cases p <;> trivial

theorem Keeps.withPwr (h : Keeps ps c d) (x : Pwr) (hp : .pwr ∈ ps) : Keeps ps c { d with pwr := x } :=
  h.of_part hp fun p _ => by cases p <;> trivial

theorem Keeps.withSlots (h : Keeps ps c d) (x : SMap Slot) (hp : .slots ∈ ps) : Keeps ps c { d with slots := x } :=
  h.of_part hp fun p _ => by cases p <;> trivial

theorem Keeps.withCleA (h : Keeps ps c d) (x : Cle) (hp : .cleA ∈ ps) : Keeps ps c { d with cleA := x } :=
  h.of_part hp fun p _ => by cases p <;> trivial

theorem Keeps.withCleB (h : Keeps ps c d) (x : Cle) (hp : .cleB ∈ ps) : Keeps ps c { d with cleB := x } :=
  h.of_part hp fun p _ => by cases p <;> trivial

theorem Keeps.withChanA (h : Keeps ps c d) (x : Chan) (hp : .chanA ∈ ps) : Keeps ps c { d with chanA := x } :=
  h.of_part hp fun p _ => by cases p <;> trivial

theorem Keeps.withChanB (h : Keeps ps c d) (x : Chan) (hp : .chanB ∈ ps) : Keeps ps c { d with chanB := x } :=
  h.of_part hp fun p _ => by cases p <;> trivial

theorem Keeps.withChd (h : Keeps ps c d) (x : Chd) (hp : .chd ∈ ps) : Keeps ps c { d with chd := x } :=
  h.of_part hp fun p _ => by cases p <;> trivial

theorem Keeps.withLinks (h : Keeps ps c d) (x : Links) (hp : .links ∈ ps) : Keeps ps c { d with links := x } :=
  h.of_part hp fun p _ => by cases p <;> trivial

theorem Keeps.withLogA (h : Keeps ps c d) (x : ActLog) (hp : .logA ∈ ps) : Keeps ps c { d with logA := x } :=
  h.of_part hp fun p _ => by cases p <;> trivial

theorem Keeps.withLogB (h : Keeps ps c d) (x : ActLog) (hp : .logB ∈ ps) : Keeps ps c { d with logB := x } :=
  h.of_part hp fun p _ => by cases p <;> trivial

theorem Keeps.withCpu (h : Keeps ps c d) (x : Cpu) (hp : .cpu ∈ ps) : Keeps ps c { d with cpu := x } :=
  h.of_part hp fun p _ => by cases p <;> trivial

theorem Keeps.withCal (h : Keeps ps c d) (x : Cal) (hp : .cal ∈ ps) : Keeps ps c { d with cal := x } :=
  h.of_part hp fun p _ => by cases p <;> trivial

theorem Keeps.withBst (h : Keeps ps c d) (x : Bst) (hp : .bst ∈ ps) : Keeps ps c { d with bst := x } :=
  h.of_part hp fun p _ => by cases p <;> trivial

theorem Keeps.withDbg (h : Keeps ps c d) (x : Dbg) (hp : .dbg ∈ ps) : Keeps ps c { d with dbg := x } :=
  h.of_part hp fun p _ => by cases p <;> trivial

theorem Keeps.withAssistCycles (h : Keeps ps c d) (x : SMap Nat) (hp : .assistCycles ∈ ps) : Keeps ps c { d with assistCycles := x } :=
  h.of_part hp fun p _ => by cases p <;> trivial

theorem Keeps.withAssistSaved (h : Keeps ps c d) (x : SMap Nat) (hp : .assistSaved ∈ ps) : Keeps ps c { d with assistSaved := x } :=
  h.of_part hp fun p _ => by cases p <;> trivial

theorem Keeps.withFreeCtr (h : Keeps ps c d) (x : Nat) (hp : .freeCtr ∈ ps) : Keeps ps c { d with freeCtr := x } :=
  h.of_part hp fun p _ => by cases p <;> trivial

theorem Keeps.withRegs (h : Keeps ps c d) (x : SMap Word) (hp : .regs ∈ ps) : Keeps ps c { d with regs := x } :=
  h.of_part hp fun p _ => by cases p <;> trivial

theorem Keeps.withOverrides (h : Keeps ps c d) (x : List Nat) (hp : .overrides ∈ ps) : Keeps ps c { d with overrides := x } :=
  h.of_part hp fun p _ => by cases p <;> trivial

theorem Keeps.withAtt (h : Keeps ps c d) (x : Attached) (hp : .att ∈ ps) : Keeps ps c { d with att := x } :=
  h.of_part hp fun p _ => by cases p <;> trivial

theorem Keeps.withCorr (h : Keeps ps c d) (x : SMap Word) (hp : .corr ∈ ps) : Keeps ps c { d with corr := x } :=
  h.of_part hp fun p _ => by cases p <;> trivial

end Sys2Proof.Machine
end

section
/-! Fields and bits of registers: what reads back after a write of the same field, of another, and of another
register. -/

namespace Sys2Proof.Machine

open Sys2Proof

/-! ### Words -/

theorem testBit_field (v : Word) (hi lo i : Nat) :
    (field v hi lo).testBit i = (decide (i < hi + 1 - lo) && v.getLsbD (lo + i)) := by
  rw [field, Nat.testBit_mod_two_pow, Nat.testBit_div_two_pow, BitVec.testBit_toNat, Nat.add_comm i lo]

theorem getLsbD_mask (hi lo i : Nat) :
    (mask hi lo).getLsbD i = (decide (i < 32) && (decide (lo ≤ i) && decide (i - lo < hi + 1 - lo))) := by
  rw [mask, BitVec.getLsbD_ofNat, Nat.testBit_mul_two_pow, Nat.testBit_two_pow_sub_one]

theorem getLsbD_withField (v : Word) (hi lo n i : Nat) : (withField v hi lo n).getLsbD i =
    if lo ≤ i ∧ i < hi + 1 then decide (i < 32) && n.testBit (i - lo) else v.getLsbD i := by
  have h32 : ¬ i < 32 → v.getLsbD i = false := fun h => BitVec.getLsbD_of_ge v i (by omega)
  rw [withField, BitVec.getLsbD_or, BitVec.getLsbD_and, BitVec.getLsbD_and, BitVec.getLsbD_not, getLsbD_mask,
    BitVec.getLsbD_ofNat, Nat.testBit_mul_two_pow]
  by_cases hl : lo ≤ i
  · by_cases hh : i < hi + 1
    · have : i - lo < hi + 1 - lo := by omega
      by_cases hw : i < 32 <;> simp [hl, hh, hw, this]
    · have : ¬ i - lo < hi + 1 - lo := by omega
      by_cases hw : i < 32 <;> simp [hl, hh, hw, this, h32]
  · by_cases hw : i < 32 <;> simp [hl, hw, h32]

theorem field_withField_self (v : Word) {hi lo : Nat} (n : Nat) (h : hi < 32) :
    field (withField v hi lo n) hi lo = n % 2 ^ (hi + 1 - lo) := by
  refine Nat.eq_of_testBit_eq fun i => ?_
  rw [testBit_field, getLsbD_withField, Nat.testBit_mod_two_pow]
  by_cases hi' : i < hi + 1 - lo
  · rw [if_pos ⟨by omega, by omega⟩, Nat.add_sub_cancel_left]
    simp [hi', show lo + i < 32 by omega]
  · simp [hi']

/-- A field that does not overlap the one written reads as before. -/
theorem field_withField_ne (v : Word) {hi lo hi' lo' : Nat} (n : Nat) (h : hi < lo' ∨ hi' < lo) :
    field (withField v hi lo n) hi' lo' = field v hi' lo' := by
  refine Nat.eq_of_testBit_eq fun i => ?_
  rw [testBit_field, testBit_field, getLsbD_withField]
  by_cases hi1 : i < hi' + 1 - lo'
  · rw [if_neg (by omega)]
  · simp [hi1]

theorem field_or_bitW (v : Word) {hi lo i : Nat} (h : i < lo ∨ hi < i) : field (v ||| bitW i) hi lo = field v hi lo := by
  refine Nat.eq_of_testBit_eq fun j => ?_
  rw [testBit_field, testBit_field, BitVec.getLsbD_or, getLsbD_bitW]
  by_cases hj : j < hi + 1 - lo
  · simp [show i ≠ lo + j by omega]
  · simp [hj]

theorem field_and_not_bitW (v : Word) {hi lo i : Nat} (h : i < lo ∨ hi < i) :
    field (v &&& ~~~ bitW i) hi lo = field v hi lo := by
  refine Nat.eq_of_testBit_eq fun j => ?_
  rw [testBit_field, testBit_field, BitVec.getLsbD_and, BitVec.getLsbD_not, getLsbD_bitW]
  by_cases hj : j < hi + 1 - lo
  · by_cases hw : lo + j < 32
    · simp [show i ≠ lo + j by omega, hw]
    · simp [BitVec.getLsbD_of_ge v (lo + j) (by omega)]
  · simp [hj]

/-! ### Registers of the chip -/

variable (c : Chip)

theorem Chip.bit_of_reg {d : Chip} {k : Nat} (h : d.reg k = c.reg k) (i : Nat) : d.bit k i = c.bit k i := by
  rw [Chip.bit, h, Chip.bit]

theorem Chip.fld_of_reg {d : Chip} {k : Nat} (h : d.reg k = c.reg k) (hi lo : Nat) : d.fld k hi lo = c.fld k hi lo := by
  rw [Chip.fld, h, Chip.fld]

theorem Chip.reg_setFld_ne {k j : Nat} (hi lo n : Nat) (h : j ≠ k) : (c.setFld k hi lo n).reg j = c.reg j :=
  c.reg_setReg_ne _ h

theorem Chip.reg_setBit_ne {k j : Nat} (i : Nat) (b : Bool) (h : j ≠ k) : (c.setBit k i b).reg j = c.reg j :=
  c.reg_setReg_ne _ h

theorem Chip.bit_setBit (k i j n : Nat) (b : Bool) (h : i < 32) :
    (c.setBit k i b).bit j n = if j = k ∧ n = i then b else c.bit j n := by
  by_cases hj : j = k
  · subst hj
    by_cases hn : n = i
    · subst hn; simp [h]
    · simp [hn, Chip.bit_setBit_ne]
  · simp [hj, Chip.bit, Chip.reg_setBit]

theorem Chip.fld_setFld_self (k : Nat) {hi lo : Nat} (n : Nat) (h : hi < 32) :
    (c.setFld k hi lo n).fld k hi lo = n % 2 ^ (hi + 1 - lo) := by
  rw [Chip.fld, Chip.setFld, Chip.reg_setReg_self, field_withField_self _ _ h]

theorem Chip.fld_setFld_ne (k j : Nat) {hi lo hi' lo' : Nat} (n : Nat) (h : j ≠ k ∨ hi < lo' ∨ hi' < lo) :
    (c.setFld k hi lo n).fld j hi' lo' = c.fld j hi' lo' := by
  rw [Chip.fld, Chip.reg_setFld]
  split
  · next hj => rw [field_withField_ne _ _ (h.resolve_left (absurd hj)), hj, Chip.fld]
  · rfl

theorem Chip.bit_setFld (k j : Nat) {hi lo : Nat} (n i : Nat) (h : hi < 32) : (c.setFld k hi lo n).bit j i =
    if j = k ∧ lo ≤ i ∧ i ≤ hi then n.testBit (i - lo) else c.bit j i := by
  rw [Chip.bit, Chip.reg_setFld]
  by_cases hj : j = k
  · rw [if_pos hj, getLsbD_withField]
    by_cases hi' : lo ≤ i ∧ i < hi + 1
    · rw [if_pos hi', if_pos ⟨hj, hi'.1, by omega⟩]; simp [show i < 32 by omega]
    · rw [if_neg hi', if_neg (by omega), hj, Chip.bit]
  · rw [if_neg hj, if_neg (by tauto), Chip.bit]

theorem Chip.fld_setBit (k j : Nat) {hi lo : Nat} (i : Nat) (b : Bool) (h : j ≠ k ∨ i < lo ∨ hi < i) :
    (c.setBit k i b).fld j hi lo = c.fld j hi lo := by
  rw [Chip.fld, Chip.reg_setBit]
  split
  · next hj =>
    have h' := h.resolve_left (absurd hj)
    rw [hj]
    cases b
    · exact field_and_not_bitW _ h'
    · exact field_or_bitW _ h'
  · rfl

theorem Chip.reg_raise_ne {page i j : Nat} (h : j ≠ pIntStatus page) : (c.raise page i).reg j = c.reg j := by
  rw [Chip.reg_raise, if_neg h]

theorem Chip.bit_fault (page i : Nat) (h : i < 32) : (c.fault page i).bit (pFault page) i = true := by
  unfold Chip.fault
  split
  · assumption
  · rw [Chip.bit, Chip.reg_raise_ne _ (by simp [pFault, pIntStatus])]
    exact c.bit_setBit_self _ i true h

/-! ### Completion with the chip that a lemma names -/

theorem completes_eq {i : Instr} {s : State} {c d : Chip} {P : Chip → Prop} (h : exec i s = s.next c) (he : c = d)
    (hP : P d.settle) : Completes i s P := completes_next (he ▸ h) hP

theorem completesThen_eq {i : Instr} {s : State} {c d : Chip} {P : Chip → Prop} (h : exec i s = s.done c) (he : c = d)
    (hP : P d) : CompletesThen i s P := completesThen_done (he ▸ h) hP

end Sys2Proof.Machine
end

section
/-! Resets (R42 to R45, R75, R629). -/

namespace Sys2Proof.Machine

open Sys2Proof

/-! ### The full-chip reset -/

variable (c : Chip)

theorem State.reset_settled : State.reset.Settled := by unfold State.Settled; decide

theorem State.reset_reg {k : Nat} (hk : k ≠ R.SYS_RESET_CAUSE) : State.reset.chip.reg k = regReset k := by
  simp [State.reset, Chip.reg, SMap.get, SMap.find?, hk.symm]

/-- What a full-chip reset may leave different from the state after a power-on reset. -/
def resetParts : List ChipPart :=
  [.regs, .fuses, .mram, .nand, .logA, .logB, .jnl, .nvq, .att, .bst, .out, .freeCtr]

theorem keeps_fullReset (aon : SMap Word) (soft : List RepairEntry) :
    Keeps resetParts State.reset.chip (c.fullReset aon soft) :=
  fun p hp => by cases p <;> first | rfl | exact absurd (by decide) hp

/-- Settles O5. -/
theorem resetStateHoldsTheStatedValues : Obligations.ResetStateHoldsTheStatedValues :=
  ⟨rfl, rfl, rfl, rfl, fun _ hk => State.reset_reg hk, rfl, State.reset_settled, by decide, rfl⟩

/-- Settles O6: the registers and every part that is not kept are those of the state after reset. -/
theorem powerOnResetKeepsOnlyWhatIsNotVolatile : Obligations.PowerOnResetKeepsOnlyWhatIsNotVolatile := by
  intro s
  refine completes_next (c := powerOnReset s.chip) rfl
    ⟨rfl, fun k hk => State.reset_reg hk, rfl, rfl, rfl, rfl, rfl, rfl, rfl, rfl, rfl, fun p hp => ?_⟩
  cases p <;> first | rfl | exact absurd (by decide) hp

/-! ### The restart of a parked chip -/

/-- A register table filtered by key reads as before at the keys kept, and as after reset at the others. -/
theorem get_filter_keys (m : SMap Word) (ks : List Nat) (k : Nat) :
    SMap.get regReset (m.filter (fun e => ks.contains e.1)) k = if k ∈ ks then SMap.get regReset m k else regReset k := by
  unfold SMap.get
  split
  · next h => rw [SMap.find?_filter_pos m (fun k => ks.contains k) (by simpa using h)]
  · next h => rw [SMap.find?_filter_neg m (fun k => ks.contains k) (by simpa using h)]; rfl

/-- SYS_RESET_CAUSE as the restart leaves it (R75). -/
def Chip.restartCause (h : Holdup) : Chip :=
  let c := if h.saved then c.setBit R.SYS_RESET_CAUSE 8 true else c
  if h.cause = .supply then c.setBit R.SYS_RESET_CAUSE 4 true else c

variable {c}

theorem Chip.reg_restartCause (h : Holdup) {k : Nat} (hk : k ≠ R.SYS_RESET_CAUSE) :
    (c.restartCause h).reg k = c.reg k := by
  unfold Chip.restartCause
  dsimp only
  split <;> split <;> simp only [Chip.reg_setBit, if_neg hk]

theorem Chip.bit_restartCause (h : Holdup) (n : Nat) : (c.restartCause h).bit R.SYS_RESET_CAUSE n =
    (c.bit R.SYS_RESET_CAUSE n || (n == 8 && h.saved) || (n == 4 && decide (h.cause = .supply))) := by
  unfold Chip.restartCause
  dsimp only
  by_cases h8 : n = 8
  · subst h8; cases h.saved <;> split <;> simp [Chip.bit_setBit]
  · by_cases h4 : n = 4
    · subst h4; cases h.saved <;> by_cases hc : h.cause = .supply <;> simp [Chip.bit_setBit, hc]
    · cases h.saved <;> split <;> simp [Chip.bit_setBit, h8, h4, beq_false_of_ne]

theorem keeps_restartCause (h : Holdup) : Keeps [.regs] c (c.restartCause h) := by
  have hc : Keeps [.regs] c (if h.saved then c.setBit R.SYS_RESET_CAUSE 8 true else c) := by
    split
    · exact (Keeps.refl _ c).setBit _ _ _ (by decide)
    · exact Keeps.refl _ c
  unfold Chip.restartCause
  dsimp only
  split
  · exact hc.setBit _ _ _ (by decide)
  · exact hc

/-- The chip a restart leaves, where all conditions of R629 hold. -/
def Chip.restarted (c : Chip) (h : Holdup) : Chip :=
  let d := c.restartCause h
  (d.fullReset (d.regs.filter (fun e => aonKeys.contains e.1)) d.bst.soft).setReg R.LOC_HOT_CFG
    (BitVec.ofNat 32 (d.fld R.LOC_HOT_CFG 4 0 * (1 + 2 ^ 16)))

theorem holdupRestart_parked {h : Holdup} (hh : c.sys.holdup = some h) (hp : h.parked = true) :
    holdupRestart c true true true = ({ c with links := { c.links with pwrfailLow := false } }).restarted h := by
  unfold holdupRestart
  rw [hh]
  exact if_neg (by simp [hp])

theorem Chip.reg_restarted (h : Holdup) {k : Nat} (hk : k ≠ R.LOC_HOT_CFG) : (c.restarted h).reg k =
    if k ∈ aonKeys then (c.restartCause h).reg k else regReset k := by
  rw [Chip.restarted, Chip.reg_setReg_ne _ _ hk]
  exact get_filter_keys _ _ _

theorem Chip.reg_restarted_hot (h : Holdup) : (c.restarted h).reg R.LOC_HOT_CFG =
    BitVec.ofNat 32 (c.fld R.LOC_HOT_CFG 4 0 * (1 + 2 ^ 16)) := by
  rw [Chip.restarted, Chip.reg_setReg_self, Chip.fld_of_reg c (Chip.reg_restartCause h (by decide))]

theorem Chip.bit_restarted (h : Holdup) (n : Nat) : (c.restarted h).bit R.SYS_RESET_CAUSE n =
    (c.bit R.SYS_RESET_CAUSE n || (n == 8 && h.saved) || (n == 4 && decide (h.cause = .supply))) := by
  rw [← Chip.bit_restartCause]
  exact Chip.bit_of_reg _ (by rw [Chip.reg_restarted h (by decide), if_pos (by decide)]) n

theorem keeps_restarted (h : Holdup) : Keeps resetParts State.reset.chip (c.restarted h) :=
  (keeps_fullReset _ _ _).setReg _ _ (by decide)

/-- With a condition of R629 missing only the sense of PWRFAIL_N may change. -/
theorem keeps_holdupRestart_missing {a b e : Bool} (h : (a && b && e) = false) :
    Keeps [.links] c (holdupRestart c a b e) := by
  have hl : Keeps [.links] c (if a then { c with links := { c.links with pwrfailLow := false } } else c) := by
    split
    · exact (Keeps.refl _ c).withLinks _ (by decide)
    · exact Keeps.refl _ c
  unfold holdupRestart
  split
  · exact Keeps.refl _ c
  · dsimp only
    rw [if_pos (by revert h; cases a <;> cases b <;> cases e <;> simp)]
    exact hl

/-- Settles O7: every claim reads off `Chip.restarted`. -/
theorem parkedChipRestartsWhenAllConditionsHold : Obligations.ParkedChipRestartsWhenAllConditionsHold := by
  refine ⟨fun s h hh hp => ?_, fun s a b e hm => ?_⟩
  · let c : Chip := { s.chip with links := { s.chip.links with pwrfailLow := false } }
    have hk := keeps_restartCause (c := c) h
    refine completes_eq rfl (holdupRestart_parked hh hp) ?_
    refine ⟨rfl, rfl, fun k hk hl => ?_, Chip.reg_restarted_hot (c := c) h, fun k hk hc => ?_, ?_, ?_, fun n h4 h8 => ?_,
      hk.fuses (by decide), hk.mram (by decide), hk.nand (by decide), hk.att (by decide), keeps_restarted (c := c) h⟩
    · exact (Chip.reg_restarted h hl).trans (if_neg hk)
    · exact ((Chip.reg_restarted h (by rintro rfl; exact absurd hk (by decide))).trans (if_pos hk)).trans
        (Chip.reg_restartCause h hc)
    · exact (Chip.bit_restarted h 8).trans (by simp; rfl)
    · exact (Chip.bit_restarted h 4).trans (by simp; rfl)
    · exact (Chip.bit_restarted h n).trans (by simp [beq_false_of_ne h4, beq_false_of_ne h8]; rfl)
  · have hk := keeps_holdupRestart_missing (c := s.chip) hm
    exact completes_next (c := holdupRestart s.chip a b e) rfl ⟨hk.sys (by decide), hk⟩

/-! ### A reset source during HOLDUP -/

/-- The bit of SYS_RESET_CAUSE that names a source when it arrives (R44). -/
def HoldupCause.bit : HoldupCause → Nat
  | .supply => 0
  | .pin => 1
  | .wdog => 2
  | .swreset => 3

theorem Chip.recordCause_eq {k : HoldupCause} (hk : k ≠ .supply) :
    c.recordCause k = c.setBit R.SYS_RESET_CAUSE k.bit true := by
  cases k <;> first | rfl | exact absurd rfl hk

/-- A second source leaves its bit of SYS_RESET_CAUSE and nothing else. -/
theorem Chip.holdupBegin_again {h : Holdup} {k : HoldupCause} (hb : c.sys.booting = true)
    (hh : c.sys.holdup = some h) (hk : k ≠ .supply) :
    c.holdupBegin k = c.setBit R.SYS_RESET_CAUSE k.bit true := by
  unfold Chip.holdupBegin
  rw [if_neg (by simp [hb]), Chip.recordCause_eq hk]
  dsimp only [Chip.setBit_sys]
  rw [hh]
  exact if_neg hk

theorem watchdogExpiry_expired (he : c.bit R.SYS_WDOG_CTRL 31 = true)
    (ht : c.sys.wdogFrom.toNat + c.wdogTime ≤ c.dtm.dtime.toNat) : watchdogExpiry c = c.holdupBegin .wdog := by
  simp [watchdogExpiry, he, ht]

theorem sysSwreset_key (ha : c.alive = true) : sysSwreset c 0x0000A5A5#32 = c.holdupBegin .swreset := by
  simp [sysSwreset, ha]

theorem sysSwreset_other {v : Word} (hv : v ≠ 0x0000A5A5#32) : sysSwreset c v = c := by
  simp [sysSwreset, hv]

/-- Settles O9. -/
theorem secondResetSourceOnlyLeavesItsCause : Obligations.SecondResetSourceOnlyLeavesItsCause := by
  refine ⟨fun s v hv => completes_eq rfl (sysSwreset_other hv) rfl, fun s h hb hh => ?_⟩
  dsimp only
  have recorded (i : Instr) (k : HoldupCause) (hk : k ≠ .supply) (h32 : k.bit < 32)
      (hi : exec i s = s.next (s.chip.holdupBegin k)) : Completes i s fun d =>
        d.bit R.SYS_RESET_CAUSE k.bit = true ∧
        (∀ m, m ≠ k.bit → d.bit R.SYS_RESET_CAUSE m = s.chip.bit R.SYS_RESET_CAUSE m) ∧
        OnlyRegs [R.SYS_RESET_CAUSE] s.chip d ∧ Keeps [.regs] s.chip d :=
    completes_eq hi (Chip.holdupBegin_again hb hh hk)
      ⟨s.chip.bit_setBit_self _ _ _ h32, fun m hm => s.chip.bit_setBit_ne _ _ _ _ hm,
        (OnlyRegs.refl _ _).setBit _ _ _ (by decide), (Keeps.refl _ _).setBit _ _ _ (by decide)⟩
  refine ⟨recorded _ .pin (by decide) (by decide) rfl, fun he ht => ?_, fun ha => ?_⟩
  · exact recorded _ .wdog (by decide) (by decide) (congrArg s.next (watchdogExpiry_expired he ht))
  · exact recorded _ .swreset (by decide) (by decide) (congrArg s.next (sysSwreset_key ha))

end Sys2Proof.Machine
end

section
/-! Supervision: the watchdog kick, BOOT_OK, the rails and PE_PERST (R45, R49, R593, R132). -/

namespace Sys2Proof.Machine

open Sys2Proof

variable {c d : Chip} {ps : List ChipPart} {ks : List Nat}

/-! ### Folds and register writes -/

theorem Keeps.foldl {α : Type} (f : Chip → α → Chip) (l : List α)
    (hf : ∀ (d : Chip) (x : α), x ∈ l → Keeps ps c d → Keeps ps c (f d x)) (h : Keeps ps c d) :
    Keeps ps c (l.foldl f d) := by
  induction l generalizing d with
  | nil => exact h
  | cons x l ih =>
    exact ih (fun d y hy => hf d y (List.mem_cons_of_mem _ hy)) (hf d x List.mem_cons_self h)

theorem OnlyRegs.foldl {α : Type} (f : Chip → α → Chip) (l : List α)
    (hf : ∀ (d : Chip) (x : α), x ∈ l → OnlyRegs ks c d → OnlyRegs ks c (f d x)) (h : OnlyRegs ks c d) :
    OnlyRegs ks c (l.foldl f d) := by
  induction l generalizing d with
  | nil => exact h
  | cons x l ih =>
    exact ih (fun d y hy => hf d y (List.mem_cons_of_mem _ hy)) (hf d x List.mem_cons_self h)

/-- An operation under a condition. -/
theorem Keeps.ite {p : Prop} [Decidable p] {d e : Chip} (h : p → Keeps ps c d) (g : ¬p → Keeps ps c e) :
    Keeps ps c (if p then d else e) := by
  split
  · exact h ‹_›
  · exact g ‹_›

theorem OnlyRegs.ite {p : Prop} [Decidable p] {d e : Chip} (h : p → OnlyRegs ks c d) (g : ¬p → OnlyRegs ks c e) :
    OnlyRegs ks c (if p then d else e) := by
  split
  · exact h ‹_›
  · exact g ‹_›

/-- What every register write does first reports in FAULT and INT_STATUS of the page (R94). -/
theorem Keeps.preWrite (h : Keeps ps c d) (k : Nat) (v : Word) (hr : .regs ∈ ps) (hp : .pwr ∈ ps) :
    Keeps ps c (d.preWrite k v).1 := by
  unfold Chip.preWrite
  split
  · exact h
  · dsimp only
    split
    · exact h
    · have he {e : Chip} (b : Bool) (n : Nat) (he : Keeps ps c e) :
          Keeps ps c (if b then e.ignored (k / 4096) n (k % 4096) else e) :=
        .ite (fun _ => he.ignored _ _ _ hr hp) fun _ => he
      exact he _ 2 (he _ 1 (he _ 0 h))

theorem OnlyRegs.preWrite (h : OnlyRegs ks c d) (k : Nat) (v : Word) (hf : pFault (k / 4096) ∈ ks)
    (hi : pIntStatus (k / 4096) ∈ ks) : OnlyRegs ks c (d.preWrite k v).1 := by
  unfold Chip.preWrite
  split
  · exact h
  · dsimp only
    split
    · exact h
    · have he {e : Chip} (b : Bool) (n : Nat) (he : OnlyRegs ks c e) :
          OnlyRegs ks c (if b then e.ignored (k / 4096) n (k % 4096) else e) :=
        .ite (fun _ => he.ignored _ _ _ hf hi) fun _ => he
      exact he _ 2 (he _ 1 (he _ 0 h))

/-! ### BOOT_OK -/

theorem regDesc_bootOk : regDesc R.SYS_BOOT_OK = some ⟨0x0A4, 0, [⟨0, 0, .wo⟩]⟩ := by decide

theorem preWrite_bootOk_one : c.preWrite R.SYS_BOOT_OK 1#32 = (c, 1#32) := by
  unfold Chip.preWrite
  simp only [regDesc_bootOk]
  simp [RegDesc.readOnly, Chip.writeMask, Chip.mayWrite, definedMask, mask]

/-- BOOT_OK writes the boot record anew with attempt count 0 and the present power cycle (R49, R470). -/
theorem sysBootOk_one (ha : c.alive = true) (hf : c.jnl.failed = false) (hc : c.jnl.closed = false) :
    sysBootOk c 1 = c.writeGroup (bootGroup 0) 0x70 [(8, 1, c.activeSlot), (9, 1, 0), (10, 1, c.bootField 10 1),
      (12, 4, c.bootField 12 4), (16, 3, c.jnl.pcc)] := by
  simp [sysBootOk, ha, preWrite_bootOk_one, Chip.writeBootRecord, hf, hc]

theorem preWrite_bootOk_bit {v : Word} (hv : v.getLsbD 0 = false) :
    (c.preWrite R.SYS_BOOT_OK v).2.getLsbD 0 = false := by
  unfold Chip.preWrite
  simp only [regDesc_bootOk]
  split
  · exact BitVec.getLsbD_zero
  · exact (BitVec.getLsbD_and ..).trans (by rw [hv, Bool.false_and])

theorem sysBootOk_clear {v : Word} (ha : c.alive = true) (hv : v.getLsbD 0 = false) :
    sysBootOk c v = (c.preWrite R.SYS_BOOT_OK v).1 := by
  unfold sysBootOk
  rw [if_neg (by simp [ha])]
  exact if_pos (by rw [preWrite_bootOk_bit hv]; rfl)

/-! ### The rails -/

/-- A measurement of a rail lies between its Min and Max (R590). -/
def railGood (n v : Nat) : Bool :=
  decide ((railLimits.getD n (0, 0)).1 ≤ v) && decide (v ≤ (railLimits.getD n (0, 0)).2)

theorem Keeps.railBit (h : Keeps ps c d) (n v : Nat) (hr : .regs ∈ ps) (hp : .pwr ∈ ps) :
    Keeps ps c (d.railBit n v) :=
  .ite (fun _ => ((h.setBit _ _ _ hr).bump _ hr).raise _ _ hr hp) fun _ => h.setBit _ _ _ hr

theorem onlyRegs_railBit (n v : Nat) : OnlyRegs [R.PWR_RAILS, R.PWR_UV_CNT, pIntStatus 0x02] c (c.railBit n v) :=
  have h := (OnlyRegs.refl c [R.PWR_RAILS, R.PWR_UV_CNT, pIntStatus 0x02]).setBit R.PWR_RAILS n (railGood n v) (by decide)
  .ite (fun _ => (h.addSat _ _ (by decide)).raise _ _ (by decide)) fun _ => h

theorem Chip.bit_railBit (n v m : Nat) (hn : n < 32) :
    (c.railBit n v).bit R.PWR_RAILS m = if m = n then railGood n v else c.bit R.PWR_RAILS m := by
  have key : (c.railBit n v).reg R.PWR_RAILS = (c.setBit R.PWR_RAILS n (railGood n v)).reg R.PWR_RAILS := by
    unfold Chip.railBit
    dsimp only
    split
    · rw [Chip.reg_raise_ne _ (by decide), Chip.bump, Chip.addSat, Chip.reg_setReg_ne _ _ (by decide)]; rfl
    · rfl
  rw [Chip.bit_of_reg _ key, Chip.bit_setBit _ _ _ _ _ _ hn]
  simp

/-- Each rail measured is recorded, the first of them being rail `k`. -/
theorem Chip.bit_foldl_railBit (vs : List Nat) : ∀ (c : Chip) (k n : Nat), k + vs.length ≤ 32 →
    ((vs.zipIdx k).foldl (fun c e => Chip.railBit c e.2 e.1) c).bit R.PWR_RAILS n =
      if k ≤ n ∧ n < k + vs.length then railGood n (vs.getD (n - k) 0) else c.bit R.PWR_RAILS n := by
  induction vs with
  | nil => intro c k n _; rw [if_neg (by simp)]; rfl
  | cons v vs ih =>
    intro c k n hk
    rw [List.length_cons] at hk ⊢
    rw [List.zipIdx_cons, List.foldl_cons, ih _ _ _ (by omega), Chip.bit_railBit _ _ _ (by omega)]
    by_cases hn : n = k
    · subst hn; simp
    · by_cases hl : k ≤ n ∧ n < k + (vs.length + 1)
      · rw [if_pos (by omega), if_pos hl, show n - k = n - (k + 1) + 1 by omega, List.getD_cons_succ]
      · rw [if_neg (by omega), if_neg hn, if_neg hl]

/-- RAIL_MEASURE where neither VDD_CORE nor VDD_AN is below its Min (R593). -/
theorem railMeasure_good {mv : List Nat} (hr : c.dtm.running = true) (hl : mv.length = 11)
    (hm : ∀ n ∈ [1, 6], (railLimits.getD n (0, 0)).1 ≤ mv.getD n 0) :
    let e := mv.zipIdx.foldl (fun c e => Chip.railBit c e.2 e.1) c
    railMeasure c mv = { e with
      sys := { e.sys with railLow := false }
      pwr := { e.pwr with mv := mv.map (· / 10) ++ e.pwr.mv.drop mv.length } } := by
  have given {n : Nat} (hn : n < 11) : mv[n]? = some (mv.getD n 0) := by
    rw [List.getD_eq_getElem _ _ (by omega), List.getElem?_eq_getElem]
  unfold railMeasure
  rw [if_neg (by simp [hr]), List.take_of_length_le hl.le]
  simp only [given (n := 6) (by decide), given (n := 1) (by decide), decide_eq_false (not_lt.2 (hm 6 (by decide))),
    decide_eq_false (not_lt.2 (hm 1 (by decide)))]
  rfl

/-! ### A controller's reset -/

theorem Keeps.writeBootRecord (h : Keeps ps c d) (a n l v p : Nat) (hm : .mram ∈ ps) :
    Keeps ps c (d.writeBootRecord a n l v p) :=
  .ite (fun _ => h) fun _ => h.writeGroup _ _ _ hm

theorem Keeps.setZone (h : Keeps ps c d) (i : Nat) (z : Zone) (hl : .loc ∈ ps) : Keeps ps c (d.setZone i z) :=
  h.withLoc _ hl

theorem Keeps.mapCntl (h : Keeps ps c d) (i : Nat) (f : Cntl → Cntl) (hn : .nvq ∈ ps) : Keeps ps c (d.mapCntl i f) :=
  h.withNvq _ hn

theorem Keeps.discard (h : Keeps ps c d) (x : InCmd) (hl : .loc ∈ ps) : Keeps ps c (d.discard x) := by
  refine .ite (fun _ => ?_) fun _ => h
  unfold Chip.unaccept
  split
  · exact h
  · exact .ite (fun _ => h.setZone _ _ hl) fun _ => h

theorem Keeps.discardAll (h : Keeps ps c d) (i : Nat) (hl : .loc ∈ ps) (hn : .nvq ∈ ps) :
    Keeps ps c (d.discardAll i) :=
  (Keeps.foldl _ _ (fun _ x _ h => h.discard x hl) h).withNvq _ hn

theorem Keeps.activateAtReset (h : Keeps ps c d) (hm : .mram ∈ ps) (hn : .nvq ∈ ps) : Keeps ps c d.activateAtReset :=
  .ite (fun _ => h) fun _ => (h.withNvq _ hn).writeBootRecord _ _ _ _ _ hm

theorem Keeps.resetController (h : Keeps ps c d) (i : Nat) (hm : .mram ∈ ps) (hn : .nvq ∈ ps) (hl : .loc ∈ ps) :
    Keeps ps c (d.resetController i) :=
  (((h.discardAll i hl hn).withNvq _ hn).mapCntl _ _ hn).activateAtReset hm hn

/-- Nothing of a controller is left: it is not ready, has no queue and no command under way (R132). -/
structure Nvq.Clear (n : Nvq) (p : Nat) : Prop where
  rdy : (n.cntl p).rdy = false
  sqs : ∀ q ∈ n.sqs, q.cntl ≠ p
  cqs : ∀ q ∈ n.cqs, q.cntl ≠ p
  inflight : ∀ x ∈ n.inflight, x.cntl ≠ p

theorem Nvq.cntl_setCntl_self (n : Nvq) (i : Nat) (x : Cntl) : (n.setCntl i x).cntl i = x := by
  unfold Nvq.setCntl Nvq.cntl
  split <;> rfl

theorem Nvq.cntl_setCntl_ne (n : Nvq) {i j : Nat} (x : Cntl) (h : ¬(i = 0 ↔ j = 0)) :
    (n.setCntl i x).cntl j = n.cntl j := by
  unfold Nvq.setCntl Nvq.cntl
  by_cases hi : i = 0 <;> by_cases hj : j = 0 <;> simp_all

@[simp] theorem Nvq.sqs_setCntl (n : Nvq) (i : Nat) (x : Cntl) : (n.setCntl i x).sqs = n.sqs := by
  unfold Nvq.setCntl; split <;> rfl
@[simp] theorem Nvq.cqs_setCntl (n : Nvq) (i : Nat) (x : Cntl) : (n.setCntl i x).cqs = n.cqs := by
  unfold Nvq.setCntl; split <;> rfl
@[simp] theorem Nvq.inflight_setCntl (n : Nvq) (i : Nat) (x : Cntl) : (n.setCntl i x).inflight = n.inflight := by
  unfold Nvq.setCntl; split <;> rfl

theorem Nvq.Clear.setCntl_ne {n : Nvq} {i j : Nat} (h : n.Clear j) (x : Cntl) (hij : ¬(i = 0 ↔ j = 0)) :
    (n.setCntl i x).Clear j :=
  ⟨(congrArg Cntl.rdy (n.cntl_setCntl_ne x hij)).trans h.rdy, by simpa using h.sqs, by simpa using h.cqs,
    by simpa using h.inflight⟩

theorem Nvq.Clear.setCntl_self {n : Nvq} {j : Nat} (h : n.Clear j) {x : Cntl} (hx : x.rdy = false) :
    (n.setCntl j x).Clear j :=
  ⟨(congrArg Cntl.rdy (n.cntl_setCntl_self j x)).trans hx, by simpa using h.sqs, by simpa using h.cqs,
    by simpa using h.inflight⟩

/-- New firmware leaves the controllers and their queues alone. -/
theorem Nvq.Clear.activateAtReset {j : Nat} (h : c.nvq.Clear j) : c.activateAtReset.nvq.Clear j := by
  unfold Chip.activateAtReset
  split
  · exact h
  · dsimp only
    rw [(Keeps.writeBootRecord (Keeps.refl [.mram] _) _ _ _ _ _ (by decide)).nvq (by decide)]
    exact ⟨h.rdy, h.sqs, h.cqs, h.inflight⟩

/-- The queues as `resetController` leaves them before the controller's own record. -/
theorem Chip.nvq_discardAll (i : Nat) :
    (c.discardAll i).nvq = { c.nvq with inflight := c.nvq.inflight.filter (fun x => x.cntl != i) } := by
  unfold Chip.discardAll
  dsimp only
  rw [(Keeps.foldl (ps := [.loc]) _ _ (fun _ x _ h => h.discard x (by decide)) (Keeps.refl _ c)).nvq (by decide)]

theorem resetController_clear (i : Nat) : (c.resetController i).nvq.Clear i := by
  refine Nvq.Clear.activateAtReset ⟨?_, ?_, ?_, ?_⟩
  · exact congrArg Cntl.rdy (Nvq.cntl_setCntl_self _ _ _)
  · simp [Chip.mapCntl]
  · simp [Chip.mapCntl]
  · simp [Chip.mapCntl, Chip.nvq_discardAll]

theorem Nvq.Clear.resetController {j : Nat} (h : c.nvq.Clear j) {i : Nat} (hij : ¬(i = 0 ↔ j = 0)) :
    (c.resetController i).nvq.Clear j := by
  refine Nvq.Clear.activateAtReset (Nvq.Clear.setCntl_ne ⟨?_, ?_, ?_, ?_⟩ _ hij)
  · rw [Chip.nvq_discardAll]; exact h.rdy
  · rw [Chip.nvq_discardAll]; exact fun q hq => h.sqs q (List.mem_filter.1 hq).1
  · rw [Chip.nvq_discardAll]; exact fun q hq => h.cqs q (List.mem_filter.1 hq).1
  · rw [Chip.nvq_discardAll]; exact fun x hx => h.inflight x (List.mem_filter.1 hx).1

/-! ### PE_PERST -/

/-- The function of a port is reset, its controller with it (R599). -/
def Chip.perstPort (c : Chip) (p : Nat) : Chip :=
  (c.resetController p).mapCntl p (fun y => { y with msix := [], pba := [] })

theorem Keeps.perstPort (h : Keeps ps c d) (p : Nat) (hm : .mram ∈ ps) (hn : .nvq ∈ ps) (hl : .loc ∈ ps) :
    Keeps ps c (d.perstPort p) := (h.resetController p hm hn hl).mapCntl _ _ hn

theorem perstPort_clear (p : Nat) : (c.perstPort p).nvq.Clear p :=
  have h := resetController_clear (c := c) p
  h.setCntl_self h.rdy

theorem Nvq.Clear.perstPort {j p : Nat} (h : c.nvq.Clear j) (hp : ¬(p = 0 ↔ j = 0)) : (c.perstPort p).nvq.Clear j :=
  (h.resetController hp).setCntl_ne _ hp

theorem Keeps.setLink (h : Keeps ps c d) (p : Nat) (up : Bool) (s w : Nat) (hr : .regs ∈ ps) (hp : .pwr ∈ ps) :
    Keeps ps c (d.setLink p up s w) :=
  .ite (fun _ => h.setReg _ _ hr) fun _ => (h.setReg _ _ hr).raise _ _ hr hp

theorem OnlyRegs.setLink (h : OnlyRegs ks c d) (p : Nat) (up : Bool) (s w : Nat) (hk : linkReg p ∈ ks)
    (hi : pIntStatus 0x10 ∈ ks) : OnlyRegs ks c (d.setLink p up s w) :=
  .ite (fun _ => h.setReg _ _ hk) fun _ => (h.setReg _ _ hk).raise _ _ hi

theorem Chip.reg_setLink_down (p : Nat) (hp : linkReg p ≠ pIntStatus 0x10) :
    (c.setLink p false 0 0).reg (linkReg p) = 0 := by
  unfold Chip.setLink
  dsimp only
  split
  · exact c.reg_setReg_self _ _
  · rw [Chip.reg_raise_ne _ hp]; exact c.reg_setReg_self _ _

/-- The ports of the chip that exist (R599). -/
def Chip.ports (c : Chip) : List Nat := if c.dual then [0, 1] else [0]

/-- Every link down and PERST reported, before the controllers are reset. -/
def Chip.perstLinks (c : Chip) : Chip := (c.ports.foldl (fun c p => c.setLink p false 0 0) c).raise 0x10 1

theorem Chip.mem_ports {p : Fin 2} : p.val ∈ c.ports ↔ c.portHere p = true := by
  unfold Chip.ports Chip.portHere
  cases c.dual <;> fin_cases p <;> simp

theorem pePerst_eq {p : Nat} (ha : c.alive = true) (hh : c.inHoldup = false) (hp : c.portHere p = true) :
    pePerst c p = c.ports.foldl Chip.perstPort c.perstLinks := by
  have hs : c.perstLinks.inHoldup = false := by
    have : Keeps [.regs, .pwr] c c.perstLinks :=
      (Keeps.foldl _ _ (fun _ p _ h => h.setLink p _ _ _ (by decide) (by decide)) (Keeps.refl _ c)).raise _ _
        (by decide) (by decide)
    rw [Chip.inHoldup, this.sys (by decide)]
    exact hh
  unfold pePerst
  rw [if_neg (by simp [ha, hp])]
  exact if_neg (by rw [← Bool.not_eq_true] at hs; exact hs)

/-- After PE_PERST nothing is left of any controller whose port exists. -/
theorem clear_foldl_perstPort {p : Fin 2} (hp : p.val ∈ c.ports) : (c.ports.foldl Chip.perstPort d).nvq.Clear p := by
  unfold Chip.ports at hp ⊢
  split at hp
  · rw [if_pos ‹_›]
    fin_cases p
    · exact (perstPort_clear 0).perstPort (by decide)
    · exact perstPort_clear 1
  · rw [if_neg ‹_›]
    have : p.val = 0 := by simpa using hp
    exact this ▸ perstPort_clear 0

theorem linkReg_mem {p : Nat} {ks : List Nat} (h0 : R.HIF_LINK0 ∈ ks) (h1 : R.HIF_LINK1 ∈ ks) : linkReg p ∈ ks := by
  unfold linkReg
  split
  · exact h0
  · exact h1

/-- After PE_PERST the link of every port that exists is down. -/
theorem Chip.reg_perstLinks {p : Fin 2} (hp : p.val ∈ c.ports) : c.perstLinks.reg (linkReg p) = 0 := by
  have down : ∀ (e : Chip) (q : Fin 2), (e.setLink q false 0 0).reg (linkReg q) = 0 := fun e q =>
    e.reg_setLink_down q (by fin_cases q <;> decide)
  have hne : linkReg p ≠ pIntStatus 0x10 := by fin_cases p <;> decide
  unfold Chip.perstLinks Chip.ports
  unfold Chip.ports at hp
  rw [Chip.reg_raise_ne _ hne]
  split at hp
  · rw [if_pos ‹_›]
    fin_cases p
    · refine Eq.trans ?_ (down c 0)
      exact (OnlyRegs.refl _ [R.HIF_LINK1, pIntStatus 0x10]).setLink 1 _ _ _ (by decide) (by decide) _ (by decide)
    · exact down (c.setLink 0 false 0 0) 1
  · rw [if_neg ‹_›]
    have : p = 0 := Fin.ext (by simpa using hp)
    subst this
    exact down c 0

theorem keeps_perstLinks : Keeps [.regs, .pwr] c c.perstLinks :=
  (Keeps.foldl _ _ (fun _ _ _ h => h.setLink _ _ _ _ (by decide) (by decide)) (Keeps.refl _ c)).raise _ _ (by decide)
    (by decide)

theorem onlyRegs_perstLinks : OnlyRegs [R.HIF_LINK0, R.HIF_LINK1, pIntStatus 0x10] c c.perstLinks :=
  (OnlyRegs.foldl _ _ (fun _ _ _ h => h.setLink _ _ _ _ (linkReg_mem (by decide) (by decide)) (by decide))
    (OnlyRegs.refl c _)).raise _ _ (by decide)

/-- The resets of the functions leave every register and every part but these. -/
theorem keeps_foldl_perstPort (l : List Nat) : Keeps [.mram, .nvq, .loc] c (l.foldl Chip.perstPort c) :=
  Keeps.foldl _ _ (fun _ _ _ h => h.perstPort _ (by decide) (by decide) (by decide)) (Keeps.refl _ c)

/-- Settles O10: each clause reads off what its command makes of the chip. -/
theorem supervisionKicksRailsAndPerst : Obligations.SupervisionKicksRailsAndPerst := by
  refine ⟨fun s ha => ?kick, fun s v hv => ?other, fun s ha hf hc => ?ok, fun s v ha hv => ?bad, fun s mv hr hl hm => ?rails,
    fun s port ha hh hp => ?perst⟩
  case kick =>
    exact completes_eq rfl (if_neg (by simp [ha]))
      ⟨rfl, rfl, (Keeps.refl [.sys] s.chip).withSys _ (by decide)⟩
  case other => exact completes_eq rfl (if_pos (by simp [hv])) rfl
  case ok =>
    exact completes_eq rfl (sysBootOk_one ha hf hc)
      ⟨Chip.settle_mram _, ((Keeps.refl [.mram] s.chip).writeGroup _ _ _ (by decide)).settle⟩
  case bad =>
    exact completes_eq rfl (sysBootOk_clear ha hv) ⟨(OnlyRegs.refl _ _).preWrite _ _ (by decide) (by decide),
      (Keeps.refl _ _).preWrite _ _ (by decide) (by decide)⟩
  case rails =>
    have hk : Keeps [.regs, .pwr] s.chip (mv.zipIdx.foldl (fun c e => Chip.railBit c e.2 e.1) s.chip) :=
      Keeps.foldl _ _ (fun _ _ _ h => h.railBit _ _ (by decide) (by decide)) (Keeps.refl _ _)
    refine completes_eq rfl (railMeasure_good hr hl hm)
      ⟨fun n hn => ?_, congrArg (fun y : Sys => { y with railLow := false }) (hk.sys (by decide)), ?_,
        ((hk.mono (by decide)).withSys _ (by decide)).withPwr _ (by decide)⟩
    · exact (Chip.bit_foldl_railBit mv s.chip 0 n (by omega)).trans (if_pos (by omega))
    · exact OnlyRegs.foldl _ _ (fun _ _ _ h => h.trans (onlyRegs_railBit _ _)) (OnlyRegs.refl _ _)
  case perst =>
    have hk := keeps_foldl_perstPort (c := s.chip.perstLinks) s.chip.ports
    refine completesThen_eq rfl (pePerst_eq ha hh hp) ⟨fun p hp => ?_, ?_, ?_, ?_⟩
    · have hc := clear_foldl_perstPort (d := s.chip.perstLinks) (Chip.mem_ports.2 hp)
      exact ⟨(hk.reg (by decide) _).trans (Chip.reg_perstLinks (Chip.mem_ports.2 hp)), hc.rdy, hc.sqs, hc.cqs,
        hc.inflight⟩
    · exact (Chip.bit_of_reg _ (hk.reg (by decide) _) 1).trans (Chip.bit_raise _ _ _ (by decide))
    · exact onlyRegs_perstLinks.trans fun k _ => hk.reg (by decide) k
    · exact (keeps_perstLinks.mono (by decide)).trans (hk.mono (by decide))

end Sys2Proof.Machine
end

section
/-! Steps 1 to 8 of BOOT (R46 to R56, R430, R436, R570). -/

namespace Sys2Proof.Machine

open Sys2Proof

variable {c d : Chip} {ps : List ChipPart} {ks : List Nat}

theorem Keeps.bootStepTo (h : Keeps ps c d) (n : Nat) (hr : .regs ∈ ps) : Keeps ps c (d.step n) := h.setReg _ _ hr

theorem OnlyRegs.bootStepTo (h : OnlyRegs ks c d) (n : Nat) (hk : R.SYS_BOOT_STEP ∈ ks) : OnlyRegs ks c (d.step n) :=
  h.setReg _ _ hk

theorem Chip.reg_bootStep (c : Chip) (n : Nat) : (c.step n).reg R.SYS_BOOT_STEP = BitVec.ofNat 32 n :=
  c.reg_setReg_self _ _

theorem Chip.reg_bootStep_ne (n : Nat) {k : Nat} (hk : k ≠ R.SYS_BOOT_STEP) : (c.step n).reg k = c.reg k :=
  c.reg_setReg_ne _ hk

/-- A step that BOOT has completed with its effect `d` on the chip. -/
theorem atStep_eq {e : Chip} {n : Nat} (h : c.atStep n = true) : (if !c.atStep n then c else e) = e :=
  if_neg (by simp [h])

/-! ### Step 1 -/

theorem bootStart_first (h : c.sys.booting = false) :
    bootStart c = ({ c with sys := { c.sys with booting := true } }).step 1 := by
  unfold bootStart; exact if_neg (by simp [h])

theorem bootStart_again (h : c.sys.booting = true) : bootStart c = c := if_pos h

/-! ### Steps 2 to 4 -/

theorem Keeps.newNonce (h : Keeps ps c d) (hl : .lcs ∈ ps) (hf : .freeCtr ∈ ps) : Keeps ps c d.newNonce :=
  (h.withFreeCtr (d.freeCtr + 1) hf).withLcs _ hl

theorem Keeps.sampleStraps (h : Keeps ps c d) (cfg : Nat) (hr : .regs ∈ ps) : Keeps ps c (d.sampleStraps cfg) :=
  (h.setReg _ _ hr).setReg _ _ hr

theorem Keeps.loadRepairs (h : Keeps ps c d) (hr : .regs ∈ ps) (hb : .bst ∈ ps) : Keeps ps c d.loadRepairs :=
  .ite (fun _ => h.withBst _ hb) fun _ => (h.withBst _ hb).setReg _ _ hr

theorem onlyRegs_loadRepairs (c : Chip) : OnlyRegs [R.BST_FUSE_STATUS] c c.loadRepairs :=
  .ite (fun _ => OnlyRegs.of_regs rfl) fun _ => (OnlyRegs.of_regs rfl).setReg _ _ (by decide)

/-- The parts that step 3 reads from the fuses and the straps, before the registers follow (R46, R62). -/
def Chip.fusesRead (c : Chip) (f : FuseImage) (testEn : Bool) : Chip :=
  let fs := { c.fuses with tierS := f.tierS, serial := f.serial, imageKey := f.imageKey, unlockKey := f.unlockKey }
  { c with
    fuses := fs
    lcs := { fused := fs.life, tierS := fs.tierS }
    dtm := { running := true }
    sys := { c.sys with blankBoot := fs.life == .blank }
    dbg := { c.dbg with testEn := testEn, scan := fs.life == .blank && testEn } }

theorem keeps_fusesRead (c : Chip) (f : FuseImage) (testEn : Bool) :
    Keeps [.fuses, .lcs, .dtm, .sys, .dbg] c (c.fusesRead f testEn) :=
  fun p hp => by cases p <;> first | rfl | exact absurd (by decide) hp

theorem pllLocked_eq (h : c.atStep 1 = true) (f : FuseImage) (cfg : Nat) (testEn : Bool) : pllLocked c f cfg testEn =
    ((((c.fusesRead f testEn).setBit R.CLK_STATUS 0 true).newNonce.sampleStraps cfg).loadRepairs).step 4 :=
  atStep_eq h

/-- The port and rate of HIF_PORT by the straps (R55). -/
theorem hifPort_of_cfg : ∀ cfg : Fin 8,
    (let eff := if 5 ≤ cfg.val then 0 else cfg.val
     BitVec.ofNat 32 (eff % 2 + 2 * (if eff = 2 ∨ eff = 3 then 4 else 5))) =
      BitVec.ofNat 32 ((if cfg = 1 ∨ cfg = 3 then 1 else 0) + 2 * (if cfg = 2 ∨ cfg = 3 then 4 else 5)) := by
  decide

theorem Chip.reg_sampleStraps (cfg : Nat) : (c.sampleStraps cfg).reg R.SYS_STRAP = BitVec.ofNat 32 (cfg + 8 *
    b2n (decide (5 ≤ cfg) || (cfg == 4 && c.lcs.fused != .blank && c.lcs.fused != .manufacture))) := by
  rw [Chip.sampleStraps, Chip.reg_setReg_ne _ _ (by decide), Chip.reg_setReg_self]
  simp only [Bool.not_or, bne, Bool.and_assoc]

/-! ### Step 5 -/

theorem Keeps.addRepair (h : Keeps ps c d) (e : RepairEntry) (hb : .bst ∈ ps) : Keeps ps c (d.addRepair e) :=
  h.withBst _ hb

theorem Keeps.postFailure {p : Chip × Nat} (h : Keeps [.regs, .pwr, .evr, .bst] c p.1) (f : PostFail) :
    Keeps [.regs, .pwr, .evr, .bst] c (Chip.postFailure p f).1 := by
  have left {e : Chip} (he : Keeps [.regs, .pwr, .evr, .bst] c e) : Keeps [.regs, .pwr, .evr, .bst] c
      (((e.setBit R.BST_POST 2 true).raise 0x07 3).event 0x1C01 [f.test, f.seg * 4096 + f.word * 8, f.bit]) :=
    ((he.setBit _ _ _ (by decide)).raise _ _ (by decide) (by decide)).event _ _ (by decide) (by decide) (by decide)
  have hc := h.setBit R.BST_POST 1 true (by decide)
  unfold Chip.postFailure
  dsimp only
  split
  · exact .ite (fun _ => hc) fun _ => left hc
  · exact .ite (fun _ => hc.addRepair _ (by decide)) fun _ => left (hc.addRepair _ (by decide))

theorem keeps_bstPost (skipped : Bool) (fails : List PostFail) (analog : List Nat) :
    Keeps [.regs, .pwr, .evr, .bst] c (c.bstPost skipped fails analog) := by
  have hp (l : List PostFail) : ∀ p : Chip × Nat, Keeps [.regs, .pwr, .evr, .bst] c p.1 →
      Keeps [.regs, .pwr, .evr, .bst] c (l.foldl Chip.postFailure p).1 := by
    induction l with
    | nil => exact fun _ h => h
    | cons f l ih => exact fun p h => ih _ (h.postFailure f)
  have ha := Keeps.foldl (fun c n => (Chip.setBit c R.BST_POST 3 true).event 0x1C01 [n, 0, 0]) analog
    (fun d n _ (h : Keeps [.regs, .pwr, .evr, .bst] c d) =>
      (h.setBit _ _ _ (by decide)).event _ _ (by decide) (by decide) (by decide))
    (hp (if skipped then [] else fails) (c.setReg R.BST_POST 0, 0) ((Keeps.refl _ c).setReg _ _ (by decide)))
  exact (((ha.setFld _ _ _ _ (by decide)).setFld _ _ _ _ (by decide)).setBit _ _ _ (by decide)).setBit _ _ _ (by decide)

theorem Chip.bstPost_bits (skipped : Bool) (fails : List PostFail) (analog : List Nat) :
    (c.bstPost skipped fails analog).bit R.BST_POST 0 = true ∧
      (c.bstPost skipped fails analog).bit R.BST_POST 4 = skipped :=
  ⟨(Chip.bit_setBit_ne _ _ _ _ _ (by decide)).trans (Chip.bit_setBit_self _ _ _ _ (by decide)),
    Chip.bit_setBit_self _ _ _ _ (by decide)⟩

/-- A profile without a failure. -/
theorem Chip.bstPost_clean (skipped : Bool) : c.bstPost skipped [] [] =
    ((((c.setReg R.BST_POST 0).setFld R.BST_POST 20 16 0).setFld R.BST_POST 15 8 0).setBit R.BST_POST 0 true).setBit
      R.BST_POST 4 skipped := by
  cases skipped <;> rfl

theorem Chip.reg_bstPost_clean (skipped : Bool) :
    (c.bstPost skipped [] []).reg R.BST_POST = BitVec.ofNat 32 (1 + 16 * b2n skipped) := by
  rw [Chip.bstPost_clean]
  simp only [Chip.reg_setBit, Chip.reg_setFld, Chip.reg_setReg, if_true]
  cases skipped <;> decide

theorem Chip.regsOnly_bstPost_clean (c : Chip) (skipped : Bool) : Keeps [.regs] c (c.bstPost skipped [] []) ∧
    OnlyRegs [R.SYS_BOOT_STEP, R.BST_POST] c (c.bstPost skipped [] []) := by
  rw [Chip.bstPost_clean]
  exact ⟨(((((Keeps.refl _ _).setReg _ _ (by decide)).setFld _ _ _ _ (by decide)).setFld _ _ _ _ (by decide)).setBit
      _ _ _ (by decide)).setBit _ _ _ (by decide),
    (((((OnlyRegs.refl _ _).setReg _ _ (by decide)).setFld _ _ _ _ (by decide)).setFld _ _ _ _ (by decide)).setBit
      _ _ _ (by decide)).setBit _ _ _ (by decide)⟩

/-! ### Step 6 -/

theorem Keeps.history (h : Keeps ps c d) (ev detail : Nat) (hm : .mram ∈ ps) (hj : .jnl ∈ ps) :
    Keeps ps c (d.history ev detail) :=
  .ite (fun _ => h) fun _ => (h.writeSlot _ _ hm).setJnl _ hj

theorem Keeps.recordBootFail (h : Keeps ps c d) (n : Nat) (hr : .regs ∈ ps) (hm : .mram ∈ ps) (hj : .jnl ∈ ps) :
    Keeps ps c (d.recordBootFail n) :=
  ((h.writeBootRecord _ _ _ _ _ hm).history _ _ hm hj).setBit _ _ _ hr

/-- A boot failure changes no register but SYS_ALERT, whose BOOT_FAIL it sets. -/
theorem Chip.reg_recordBootFail (n k : Nat) :
    (c.recordBootFail n).reg k = (c.setBit R.SYS_ALERT 1 true).reg k := by
  unfold Chip.recordBootFail
  have h (e : Chip) : ∀ j, ((c.writeBootRecord c.activeSlot (c.bootField 9 1) n (c.bootField 12 4)
      (c.bootField 16 3)).history 1 n).reg j = c.reg j :=
    (((Keeps.refl [.mram, .jnl] c).writeBootRecord _ _ _ _ _ (by decide)).history 1 n (by decide)
      (by decide)).reg (by decide)
  simp only [Chip.reg_setBit, h c]

theorem Keeps.setCfs (h : Keeps ps c d) (hn : .nvq ∈ ps) : Keeps ps c d.setCfs :=
  (h.mapCntl _ _ hn).mapCntl _ _ hn

theorem setCfs_cfs (c : Chip) : c.setCfs.nvq.c1.cfs = true ∧ c.setCfs.nvq.c2.cfs = true := ⟨rfl, rfl⟩

/-- ALERT_N is low while BOOT_FAIL stands (R76). -/
theorem alertN_of_bootFail (h : c.bit R.SYS_ALERT 1 = true) : c.settle.pins.alertN = false := by
  have h0 : c.reg R.SYS_ALERT ≠ 0 := by
    intro h0
    rw [Chip.bit, h0] at h
    exact absurd h (by decide)
  exact beq_false_of_ne h0

theorem ddrTrainingDone_trained (h : c.atStep 5 = true) {n : Fin 3} (hn : n ≠ 0) :
    ddrTrainingDone c (.trained n) =
      ((({ c with mem := { c.mem with size := n.val } }).setFld R.DDR_CFG 1 0 n.val).setBit R.DDR_STATUS 0 true).step 6 :=
  (atStep_eq h).trans (if_pos fun h0 => hn (Fin.ext h0))

/-- The chip on which a failed training is recorded. -/
def Chip.trainFailed (c : Chip) : Chip :=
  ({ c with mem := { c.mem with trainFail := true }, sys := { c.sys with bootFailed := true } }).setBit R.DDR_STATUS 2 true

theorem ddrTrainingDone_failed (h : c.atStep 5 = true) {t : Training} (ht : t = .densityMismatch ∨ t = .failed) :
    ddrTrainingDone c t = (c.trainFailed.recordBootFail 2).setCfs := by
  rcases ht with rfl | rfl <;> exact (atStep_eq h).trans (if_neg (by simp))

theorem keeps_trainFailed : Keeps [.regs, .sys, .mem] c c.trainFailed :=
  have h : Keeps [.regs, .sys, .mem] c
      { c with mem := { c.mem with trainFail := true }, sys := { c.sys with bootFailed := true } } :=
    fun p hp => by cases p <;> first | rfl | exact absurd (by decide) hp
  h.setBit _ _ _ (by decide)

/-! ### Steps 7 and 8 -/

/-- A memory is filled, and the fill noted (R436, R500). -/
def Chip.fillNoted (c : Chip) : FillMem → Chip
  | .dram => ({ c with mem := { c.mem.fill .dram with filledDram := true } }).setReg R.MEC_FILL
      (BitVec.ofNat 32 (1 + 2 * 1000))
  | .sram => ({ c with mem := { c.mem.fill .sram with filledSram := true } }).setReg R.SEE_FILL 1
  | .l2 => { c with mem := { c.mem.fill .l2 with filledL2 := true }, cpu := { c.cpu with l2 := [], l2Inv := true } }

/-- Core 0 is released at the boot ROM (step 8). -/
def Chip.core0Released (c : Chip) : Chip :=
  let c := c.setBit R.CPU_RELEASE 0 true
  ({ c with cpu := { c.cpu with l1iInv := [0], l1dInv := [0] } }).step 8

/-- All three memories are filled. -/
def Mem.filled (m : Mem) : Bool := m.filledDram && m.filledSram && m.filledL2

theorem memoryFillDone_eq (h : c.atStep 6 = true) (m : FillMem) : memoryFillDone c m =
    if (c.fillNoted m).mem.filled = true then (c.fillNoted m).core0Released else c.fillNoted m := by
  cases m <;> exact atStep_eq h

theorem mem_fillNoted (m : FillMem) : (c.fillNoted m).mem = { c.mem.fill m with
    filledDram := c.mem.filledDram || decide (m = .dram)
    filledSram := c.mem.filledSram || decide (m = .sram)
    filledL2 := c.mem.filledL2 || decide (m = .l2) } := by
  cases m <;> simp [Chip.fillNoted, Mem.fill]

theorem keeps_fillNoted (m : FillMem) : Keeps [.regs, .mem, .cpu] c (c.fillNoted m) := by
  have h := Keeps.refl [.regs, .mem, .cpu] c
  cases m
  · exact (h.setMem _ (by decide)).setReg _ _ (by decide)
  · exact (h.setMem _ (by decide)).setReg _ _ (by decide)
  · exact (h.setMem { c.mem.fill .l2 with filledL2 := true } (by decide)).withCpu _ (by decide)

theorem onlyRegs_fillNoted (m : FillMem) : OnlyRegs [R.MEC_FILL, R.SEE_FILL] c (c.fillNoted m) := by
  cases m
  · exact (OnlyRegs.of_regs rfl).setReg _ _ (by decide)
  · exact (OnlyRegs.of_regs rfl).setReg _ _ (by decide)
  · exact OnlyRegs.of_regs rfl

theorem keeps_core0Released : Keeps [.regs, .cpu] c c.core0Released :=
  (((Keeps.refl _ c).setBit _ _ _ (by decide)).withCpu _ (by decide)).bootStepTo _ (by decide)

theorem onlyRegs_core0Released : OnlyRegs [R.CPU_RELEASE, R.SYS_BOOT_STEP] c c.core0Released :=
  ((OnlyRegs.refl c _).setBit R.CPU_RELEASE 0 true (by decide)).bootStepTo 8 (by decide)

theorem Chip.bit_core0Released (n : Nat) :
    c.core0Released.bit R.CPU_RELEASE n = if n = 0 then true else c.bit R.CPU_RELEASE n := by
  have h : c.core0Released.reg R.CPU_RELEASE = (c.setBit R.CPU_RELEASE 0 true).reg R.CPU_RELEASE :=
    Chip.reg_bootStep_ne 8 (by decide)
  rw [Chip.bit_of_reg _ h, Chip.bit_setBit _ _ _ _ _ _ (by decide)]
  simp

/-! ### What steps 2 to 4 leave -/

/-- The registers and the nonce as PLL_LOCKED leaves them, over the fuses read (R55, R56, R70). -/
def Chip.strapsRead (c : Chip) (f : FuseImage) (cfg : Nat) (testEn : Bool) : Chip :=
  ((c.fusesRead f testEn).setBit R.CLK_STATUS 0 true).newNonce.sampleStraps cfg

theorem keeps_strapsRead (f : FuseImage) (cfg : Nat) (testEn : Bool) :
    Keeps [.regs, .sys, .fuses, .lcs, .dtm, .dbg, .freeCtr] c (c.strapsRead f cfg testEn) :=
  ((((keeps_fusesRead c f testEn).mono (by decide)).setBit _ _ _ (by decide)).newNonce (by decide)
    (by decide)).sampleStraps _ (by decide)

theorem onlyRegs_strapsRead (f : FuseImage) (cfg : Nat) (testEn : Bool) :
    OnlyRegs [R.CLK_STATUS, R.SYS_STRAP, R.HIF_PORT] c (c.strapsRead f cfg testEn) := by
  have h : OnlyRegs [R.CLK_STATUS, R.SYS_STRAP, R.HIF_PORT] c (c.fusesRead f testEn) := OnlyRegs.of_regs rfl
  have hn : OnlyRegs [R.CLK_STATUS, R.SYS_STRAP, R.HIF_PORT] c
      ((c.fusesRead f testEn).setBit R.CLK_STATUS 0 true).newNonce := h.setBit R.CLK_STATUS 0 true (by decide)
  exact (hn.setReg R.SYS_STRAP _ (by decide)).setReg R.HIF_PORT _ (by decide)

theorem onlyRegs_loadRepairs_step (c : Chip) (n : Nat) :
    OnlyRegs [R.BST_FUSE_STATUS, R.SYS_BOOT_STEP] c (c.loadRepairs.step n) :=
  ((onlyRegs_loadRepairs c).mono (by decide)).bootStepTo n (by decide)

theorem keeps_loadRepairs_step (c : Chip) (n : Nat) : Keeps [.regs, .bst] c (c.loadRepairs.step n) :=
  ((Keeps.refl _ c).loadRepairs (by decide) (by decide)).bootStepTo n (by decide)

theorem lcs_strapsRead (f : FuseImage) (cfg : Nat) (testEn : Bool) : (c.strapsRead f cfg testEn).lcs =
    { fused := c.fuses.life, tierS := f.tierS, nonce := Config.random 64 c.freeCtr } := rfl

theorem Chip.bit_strapsRead_lock (f : FuseImage) (cfg : Nat) (testEn : Bool) :
    (c.strapsRead f cfg testEn).bit R.CLK_STATUS 0 = true := by
  have h : (c.strapsRead f cfg testEn).reg R.CLK_STATUS =
      ((c.fusesRead f testEn).setBit R.CLK_STATUS 0 true).reg R.CLK_STATUS := by
    unfold Chip.strapsRead Chip.sampleStraps
    rw [Chip.reg_setReg_ne _ _ (by decide), Chip.reg_setReg_ne _ _ (by decide)]
    rfl
  exact (Chip.bit_of_reg _ h 0).trans (Chip.bit_setBit_self _ _ _ _ (by decide))

/-- PLL_LOCKED after step 1 completes steps 2 to 4 (log entry 20). -/
theorem pllLocked_completes (s : State) (f : FuseImage) (cfg : Fin 8) (testEn : Bool) (h : s.chip.atStep 1 = true) :
    Completes (.pllLocked f cfg testEn) s (fun d =>
      d.dtm.running = true ∧ d.dtm.dtime = 0 ∧ d.bit R.CLK_STATUS 0 = true ∧ d.reg R.SYS_BOOT_STEP = 4 ∧
      d.lcs.fused = s.chip.fuses.life ∧ d.lcs.tierS = f.tierS ∧ d.fuses.life = s.chip.fuses.life ∧
      d.lcs.nonce = Config.random 64 s.chip.freeCtr ∧
      d.reg R.SYS_STRAP = BitVec.ofNat 32 (cfg.val + 8 * b2n (decide (5 ≤ cfg.val) ||
        (cfg.val == 4 && s.chip.fuses.life != .blank && s.chip.fuses.life != .manufacture))) ∧
      d.reg R.HIF_PORT = BitVec.ofNat 32
        ((if cfg = 1 ∨ cfg = 3 then 1 else 0) + 2 * (if cfg = 2 ∨ cfg = 3 then 4 else 5)) ∧
      OnlyRegs [R.CLK_STATUS, R.SYS_STRAP, R.HIF_PORT, R.BST_FUSE_STATUS, R.SYS_BOOT_STEP] s.chip d ∧
      Keeps [.regs, .sys, .fuses, .lcs, .dtm, .bst, .dbg, .freeCtr] s.chip d) := by
  let e := s.chip.strapsRead f cfg testEn
  have hk := keeps_loadRepairs_step e 4
  have hr := onlyRegs_loadRepairs_step e 4
  have hl : (e.loadRepairs.step 4).lcs = _ := (hk.lcs (by decide)).trans (lcs_strapsRead f cfg testEn)
  have hd : (e.loadRepairs.step 4).dtm = { running := true } := hk.dtm (by decide)
  have hlife : e.fuses.life = s.chip.fuses.life := rfl
  have hlock : (e.loadRepairs.step 4).bit R.CLK_STATUS 0 = true :=
    (Chip.bit_of_reg e (hr _ (by decide)) 0).trans (Chip.bit_strapsRead_lock f cfg testEn)
  have hport : e.reg R.HIF_PORT = _ := Chip.reg_setReg_self _ _ _
  exact completes_eq rfl (pllLocked_eq h f cfg testEn) ⟨congrArg Dtm.running hd, congrArg Dtm.dtime hd, hlock,
    e.loadRepairs.reg_bootStep 4, congrArg Lcs.fused hl, congrArg Lcs.tierS hl,
    (congrArg Fuses.life (hk.fuses (by decide))).trans hlife, congrArg Lcs.nonce hl,
    (hr _ (by decide)).trans (Chip.reg_sampleStraps _), (hr _ (by decide)).trans (hport.trans (hifPort_of_cfg cfg)),
    ((onlyRegs_strapsRead f cfg testEn).mono (by decide)).trans (hr.mono (by decide)),
    ((keeps_strapsRead f cfg testEn).mono (by decide)).trans (hk.mono (by decide))⟩

/-- A failed training leaves BOOT at step 5 and reports it (R430). -/
theorem ddrTrainingFailed_completes (s : State) (t : Training) (h : s.chip.atStep 5 = true)
    (ht : t = .densityMismatch ∨ t = .failed) : Completes (.ddrTrainingDone t) s (fun d =>
      d.mem = { s.chip.mem with trainFail := true } ∧ d.sys = { s.chip.sys with bootFailed := true } ∧
      d.bit R.DDR_STATUS 2 = true ∧ d.bit R.SYS_ALERT 1 = true ∧ d.pins.alertN = false ∧
      d.nvq.c1.cfs = true ∧ d.nvq.c2.cfs = true ∧ d.reg R.SYS_BOOT_STEP = s.chip.reg R.SYS_BOOT_STEP ∧
      OnlyRegs [R.DDR_STATUS, R.SYS_ALERT] s.chip d ∧ Keeps [.regs, .sys, .mem, .mram, .jnl, .nvq] s.chip d) := by
  let e := s.chip.trainFailed
  let d := (e.recordBootFail 2).setCfs
  have hk : Keeps [.regs, .mram, .jnl, .nvq] e d :=
    ((Keeps.refl _ e).recordBootFail 2 (by decide) (by decide) (by decide)).setCfs (by decide)
  have hr (k : Nat) : d.reg k = (e.setBit R.SYS_ALERT 1 true).reg k := Chip.reg_recordBootFail 2 k
  have ha : d.bit R.SYS_ALERT 1 = true :=
    (Chip.bit_of_reg _ (hr _) 1).trans (e.bit_setBit_self _ _ _ (by decide))
  have hs : d.bit R.DDR_STATUS 2 = true :=
    (Chip.bit_of_reg e ((hr _).trans (e.reg_setBit_ne _ _ (by decide))) 2).trans (Chip.bit_setBit_self _ _ _ _ (by decide))
  have hf : OnlyRegs [R.DDR_STATUS, R.SYS_ALERT] s.chip e := (OnlyRegs.of_regs rfl).setBit R.DDR_STATUS 2 true (by decide)
  have ho : OnlyRegs [R.DDR_STATUS, R.SYS_ALERT] s.chip d :=
    fun k hk => (hr k).trans ((hf.setBit R.SYS_ALERT 1 true (by decide)) k hk)
  have hm : d.mem = { s.chip.mem with trainFail := true } := hk.mem (by decide)
  have hy : d.sys = { s.chip.sys with bootFailed := true } := hk.sys (by decide)
  have hall : Keeps [.regs, .sys, .mem, .mram, .jnl, .nvq] s.chip d :=
    (keeps_trainFailed.mono (by decide)).trans (hk.mono (by decide))
  obtain ⟨h1, h2⟩ := setCfs_cfs (e.recordBootFail 2)
  have hb : d.reg R.SYS_BOOT_STEP = s.chip.reg R.SYS_BOOT_STEP := ho _ (by decide)
  exact completes_eq rfl (ddrTrainingDone_failed h ht)
    ⟨hm, hy, hs, ha, alertN_of_bootFail ha, h1, h2, hb, ho.settle, hall.settle⟩

/-- A fill is recorded; the last of the three completes step 8 (R436, R46). -/
theorem memoryFillDone_completes (s : State) (m : FillMem) (h : s.chip.atStep 6 = true) :
    Completes (.memoryFillDone m) s (fun d =>
      d.mem = { s.chip.mem.fill m with
        filledDram := s.chip.mem.filledDram || decide (m = .dram)
        filledSram := s.chip.mem.filledSram || decide (m = .sram)
        filledL2 := s.chip.mem.filledL2 || decide (m = .l2) } ∧
      ((d.mem.filledDram && d.mem.filledSram && d.mem.filledL2) = true →
        d.reg R.SYS_BOOT_STEP = 8 ∧ d.bit R.CPU_RELEASE 0 = true ∧
        (∀ n, n ≠ 0 → d.bit R.CPU_RELEASE n = s.chip.bit R.CPU_RELEASE n)) ∧
      ((d.mem.filledDram && d.mem.filledSram && d.mem.filledL2) = false →
        d.reg R.SYS_BOOT_STEP = s.chip.reg R.SYS_BOOT_STEP ∧ d.reg R.CPU_RELEASE = s.chip.reg R.CPU_RELEASE) ∧
      OnlyRegs [R.MEC_FILL, R.SEE_FILL, R.CPU_RELEASE, R.SYS_BOOT_STEP] s.chip d ∧
      Keeps [.regs, .mem, .cpu] s.chip d) := by
  let e := s.chip.fillNoted m
  have hk : Keeps [.regs, .mem, .cpu] s.chip e := keeps_fillNoted m
  have ho : OnlyRegs [R.MEC_FILL, R.SEE_FILL] s.chip e := onlyRegs_fillNoted m
  by_cases hf : e.mem.filled = true
  · refine completes_eq rfl ((memoryFillDone_eq h m).trans (if_pos hf)) ⟨mem_fillNoted m, fun _ => ⟨?_, ?_, fun n hn => ?_⟩,
      fun hn => absurd (hn.symm.trans hf) (by decide), ?_, ?_⟩
    · exact Chip.reg_bootStep _ 8
    · exact (Chip.bit_core0Released 0).trans (if_pos rfl)
    · exact ((Chip.bit_core0Released n).trans (if_neg hn)).trans (Chip.bit_of_reg _ (ho _ (by decide)) n)
    · exact (ho.mono (by decide)).trans (onlyRegs_core0Released.mono (by decide))
    · exact hk.trans (keeps_core0Released.mono (by decide))
  · exact completes_eq rfl ((memoryFillDone_eq h m).trans (if_neg hf)) ⟨mem_fillNoted m, fun hp => absurd hp hf,
      fun _ => ⟨ho _ (by decide), ho _ (by decide)⟩, ho.mono (by decide), hk⟩

theorem powerOnProfileClean_completes (s : State) (skipped : Bool) (h : s.chip.atStep 4 = true) :
    Completes (.powerOnProfileDone skipped [] []) s (fun d =>
      d.reg R.SYS_BOOT_STEP = 5 ∧ d.reg R.BST_POST = BitVec.ofNat 32 (1 + 16 * b2n skipped) ∧
      OnlyRegs [R.SYS_BOOT_STEP, R.BST_POST] s.chip d ∧ Keeps [.regs] s.chip d) := by
  have hr : ((s.chip.bstPost skipped [] []).step 5).reg R.BST_POST = _ :=
    (Chip.reg_bootStep_ne 5 (by decide)).trans (Chip.reg_bstPost_clean skipped)
  obtain ⟨hk, ho⟩ := s.chip.regsOnly_bstPost_clean skipped
  exact completes_eq rfl (atStep_eq h) ⟨Chip.reg_bootStep _ 5, (Chip.reg_settle _ _).trans hr,
    (ho.bootStepTo 5 (by decide)).settle, (hk.bootStepTo 5 (by decide)).settle⟩

theorem powerOnProfileDone_completes (s : State) (skipped : Bool) (fails : List PostFail) (analog : List Nat)
    (h : s.chip.atStep 4 = true) : Completes (.powerOnProfileDone skipped fails analog) s (fun d =>
      d.reg R.SYS_BOOT_STEP = 5 ∧ d.bit R.BST_POST 0 = true ∧ d.bit R.BST_POST 4 = skipped ∧
      Keeps [.regs, .pwr, .evr, .bst] s.chip d) := by
  obtain ⟨h0, h4⟩ := Chip.bstPost_bits (c := s.chip) skipped fails analog
  have hk := keeps_bstPost (c := s.chip) skipped fails analog
  generalize he : s.chip.bstPost skipped fails analog = e at h0 h4 hk
  have hr : (e.step 5).reg R.BST_POST = e.reg R.BST_POST := Chip.reg_bootStep_ne 5 (by decide)
  have hb0 : (e.step 5).bit R.BST_POST 0 = true := (Chip.bit_of_reg e hr 0).trans h0
  have hb4 : (e.step 5).bit R.BST_POST 4 = skipped := (Chip.bit_of_reg e hr 4).trans h4
  have hx : powerOnProfileDone s.chip skipped fails analog = e.step 5 := by rw [← he]; exact atStep_eq h
  exact completes_eq rfl hx ⟨Chip.reg_bootStep _ 5, (Chip.bit_settle ..).trans hb0, (Chip.bit_settle ..).trans hb4,
    (hk.bootStepTo 5 (by decide)).settle⟩

theorem ddrTrained_completes (s : State) (n : Fin 3) (h : s.chip.atStep 5 = true) (hn : n ≠ 0) :
    Completes (.ddrTrainingDone (.trained n)) s (fun d =>
      d.mem = { s.chip.mem with size := n.val } ∧ d.fld R.DDR_CFG 1 0 = n.val ∧ d.bit R.DDR_STATUS 0 = true ∧
      d.reg R.SYS_BOOT_STEP = 6 ∧ OnlyRegs [R.DDR_CFG, R.DDR_STATUS, R.SYS_BOOT_STEP] s.chip d ∧
      Keeps [.regs, .mem] s.chip d) := by
  let e := ({ s.chip with mem := { s.chip.mem with size := n.val } } : Chip).setFld R.DDR_CFG 1 0 n.val
  have hc : ((e.setBit R.DDR_STATUS 0 true).step 6).reg R.DDR_CFG = e.reg R.DDR_CFG :=
    (Chip.reg_bootStep_ne 6 (by decide)).trans (e.reg_setBit_ne _ _ (by decide))
  have hs : ((e.setBit R.DDR_STATUS 0 true).step 6).reg R.DDR_STATUS = _ := Chip.reg_bootStep_ne 6 (by decide)
  have hn4 : n.val % 4 = n.val := Nat.mod_eq_of_lt (by omega)
  have hf : e.fld R.DDR_CFG 1 0 = n.val := (Chip.fld_setFld_self _ _ _ (by decide)).trans hn4
  have ho : OnlyRegs [R.DDR_CFG, R.DDR_STATUS, R.SYS_BOOT_STEP] s.chip e :=
    (OnlyRegs.of_regs rfl).setFld R.DDR_CFG 1 0 n.val (by decide)
  have hk : Keeps [.regs, .mem] s.chip e := ((Keeps.refl _ _).setMem _ (by decide)).setFld _ _ _ _ (by decide)
  exact completes_eq rfl (ddrTrainingDone_trained h hn) ⟨rfl, (Chip.fld_of_reg e hc 1 0).trans hf,
    (Chip.bit_of_reg _ hs 0).trans (e.bit_setBit_self _ _ _ (by decide)), Chip.reg_bootStep _ 6,
    ((ho.setBit _ _ _ (by decide)).bootStepTo 6 (by decide)).settle,
    ((hk.setBit _ _ _ (by decide)).bootStepTo 6 (by decide)).settle⟩

/-- Settles O12. -/
theorem bootStartsLocksTestsTrainsAndFills : Obligations.BootStartsLocksTestsTrainsAndFills := by
  refine ⟨fun s h => ?_, fun s h => completes_eq rfl (bootStart_again h) rfl, pllLocked_completes,
    powerOnProfileClean_completes, powerOnProfileDone_completes, ddrTrained_completes, ddrTrainingFailed_completes,
    memoryFillDone_completes⟩
  exact completes_eq rfl (bootStart_first h) ⟨rfl, Chip.reg_bootStep _ 1,
    ((OnlyRegs.of_regs rfl).bootStepTo 1 (by decide)).settle,
    (((Keeps.refl _ _).withSys _ (by decide)).bootStepTo 1 (by decide)).settle⟩

end Sys2Proof.Machine
end

section
namespace Sys2Proof.Machine

variable {c d : Chip} {ps : List ChipPart} {ks : List Nat}

/-! ## The octal NOR engine (R60, R61, O19) -/

theorem Keeps.ospResult (h : Keeps ps c d) (op n : Nat) (hr : .regs ∈ ps) : Keeps ps c (d.ospResult op n) :=
  ((h.setFld _ _ _ _ hr).setFld _ _ _ _ hr).setBit _ _ _ hr

theorem OnlyRegs.ospResult (h : OnlyRegs ks c d) (op n : Nat) (hk : R.OSP_CMD ∈ ks) : OnlyRegs ks c (d.ospResult op n) :=
  ((h.setFld _ _ _ _ hk).setFld _ _ _ _ hk).setBit _ _ _ hk

theorem Chip.fld_ospResult_op (c : Chip) (op n : Nat) : (c.ospResult op n).fld R.OSP_CMD 2 0 = op % 8 :=
  (fld_setBit _ _ _ _ _ (.inr (by decide))).trans
    ((fld_setFld_ne _ _ _ _ (.inr (by decide))).trans (fld_setFld_self _ _ _ (by decide)))

theorem Chip.fld_ospResult_result (c : Chip) (op n : Nat) : (c.ospResult op n).fld R.OSP_CMD 26 24 = n % 8 :=
  (fld_setBit _ _ _ _ _ (.inr (by decide))).trans (fld_setFld_self _ _ _ (by decide))

/-- The chip with an octal NOR operation taken up. -/
def Chip.ospStarted (c : Chip) (op : Nat) (data : List Byte) : Chip :=
  { c.ospResult op 0 with osp := some ⟨op, (c.reg R.OSP_ADDR).toNat, c.ospDram, (c.reg R.OSP_LEN).toNat, data⟩ }

theorem ospGo_allowed (ha : c.alive = true) (ho : c.osp = none) {op : Nat} (h : c.ospAllowed op = true) (data : List Byte) :
    ospGo c op data = c.ospStarted op data := by
  unfold ospGo
  rw [if_neg (by simp [ha, ho]), if_pos h]
  rfl

theorem ospGo_refused (ha : c.alive = true) (ho : c.osp = none) {op : Nat} (h : c.ospAllowed op = false) (data : List Byte) :
    ospGo c op data = (c.ospResult op 2).fault 0x49 3 := by
  unfold ospGo
  rw [if_neg (by simp [ha, ho]), if_neg (by simp [h])]

theorem ospGo_busy {j : OspJob} (ho : c.osp = some j) (op : Nat) (data : List Byte) : ospGo c op data = c := by
  unfold ospGo
  exact if_pos (by simp [ho])

theorem Keeps.ospStarted (op : Nat) (data : List Byte) : Keeps [.regs, .osp] c (c.ospStarted op data) :=
  ((Keeps.refl _ _).ospResult _ _ (by decide)).withOsp _ (by decide)

theorem OnlyRegs.ospStarted (op : Nat) (data : List Byte) : OnlyRegs [R.OSP_CMD] c (c.ospStarted op data) :=
  ((OnlyRegs.refl _ _).ospResult op 0 (by decide)).trans (.of_regs rfl)

theorem Chip.viewOsp_busy {d : Chip} {j : OspJob} (h : d.osp = some j) : (d.viewOsp R.OSP_CMD).getLsbD 30 = true := by
  rw [Chip.viewOsp, if_pos rfl, h, getLsbD_withField, if_pos (by decide)]
  simp [b2n]

theorem Chip.reg_withOsp (c : Chip) (x : Option OspJob) (k : Nat) : ({ c with osp := x } : Chip).reg k = c.reg k := rfl

theorem Chip.fld_ospStarted (c : Chip) (op : Nat) (data : List Byte) (k hi lo : Nat) :
    (c.ospStarted op data).fld k hi lo = (c.ospResult op 0).fld k hi lo :=
  Chip.fld_of_reg _ (reg_withOsp _ _ k) hi lo

theorem Chip.osp_ospStarted (c : Chip) (op : Nat) (data : List Byte) : (c.ospStarted op data).osp =
    some ⟨op, (c.reg R.OSP_ADDR).toNat, c.ospDram, (c.reg R.OSP_LEN).toNat, data⟩ := rfl

/-- What a started operation leaves: the job, OP and RESULT of OSP_CMD, and BUSY as it reads. -/
theorem ospStarted_completes {i : Instr} {s : State} {op : Nat} {data : List Byte} (hop : op < 8)
    (hi : exec i s = s.next (ospGo s.chip op data)) (ha : s.chip.alive = true) (ho : s.chip.osp = none)
    (h : s.chip.ospAllowed op = true) : Completes i s (fun d =>
      d.osp = some ⟨op, (s.chip.reg R.OSP_ADDR).toNat, s.chip.ospDram, (s.chip.reg R.OSP_LEN).toNat, data⟩ ∧
      d.fld R.OSP_CMD 2 0 = op ∧ d.fld R.OSP_CMD 26 24 = 0 ∧ (d.viewOsp R.OSP_CMD).getLsbD 30 = true ∧
      OnlyRegs [R.OSP_CMD] s.chip d ∧ Keeps [.regs, .osp] s.chip d) := by
  have hf : (s.chip.ospStarted op data).fld R.OSP_CMD 2 0 = op :=
    (s.chip.fld_ospStarted _ _ _ _ _).trans ((s.chip.fld_ospResult_op op 0).trans (Nat.mod_eq_of_lt hop))
  have hr : (s.chip.ospStarted op data).fld R.OSP_CMD 26 24 = 0 :=
    (s.chip.fld_ospStarted _ _ _ _ _).trans (s.chip.fld_ospResult_result op 0)
  have hj := s.chip.osp_ospStarted op data
  exact completes_eq hi (ospGo_allowed ha ho h data) ⟨(Chip.settle_osp _).trans hj, (Chip.fld_settle _ _ _ _).trans hf,
    (Chip.fld_settle _ _ _ _).trans hr, Chip.viewOsp_busy ((Chip.settle_osp _).trans hj), (OnlyRegs.ospStarted op data).settle,
    (Keeps.ospStarted op data).settle⟩

theorem ospRefused_completes {i : Instr} {s : State} {op : Nat} {data : List Byte}
    (hi : exec i s = s.next (ospGo s.chip op data)) (ha : s.chip.alive = true) (ho : s.chip.osp = none)
    (h : s.chip.ospAllowed op = false) : Completes i s (fun d =>
      d.osp = none ∧ d.fld R.OSP_CMD 26 24 = 2 ∧ d.bit (pFault 0x49) 3 = true ∧
      OnlyRegs [R.OSP_CMD, pFault 0x49, pIntStatus 0x49] s.chip d ∧ Keeps [.regs, .pwr] s.chip d) := by
  let e := s.chip.ospResult op 2
  have hr : (e.fault 0x49 3).reg R.OSP_CMD = e.reg R.OSP_CMD := e.reg_fault _ _ _ (by decide) (by decide)
  have hf : (e.fault 0x49 3).fld R.OSP_CMD 26 24 = 2 := (Chip.fld_of_reg e hr 26 24).trans (s.chip.fld_ospResult_result op 2)
  have hosp : (e.fault 0x49 3).osp = none := (e.fault_osp _ _).trans ho
  have hb : (e.fault 0x49 3).bit (pFault 0x49) 3 = true := Chip.bit_fault _ _ _ (by decide)
  have hk : Keeps [.regs, .pwr] s.chip e := (Keeps.refl _ _).ospResult op 2 (by decide)
  have hk' : OnlyRegs [R.OSP_CMD, pFault 0x49, pIntStatus 0x49] s.chip e := (OnlyRegs.refl _ _).ospResult op 2 (by decide)
  exact completes_eq hi (ospGo_refused ha ho h data) ⟨hosp, hf, hb, (hk'.fault 0x49 3 (by decide) (by decide)).settle,
    (hk.fault 0x49 3 (by decide) (by decide)).settle⟩

/-- The memory's side of an operation that ends: a READ stores its bytes, a PROGRAM reads its range. -/
def Chip.ospMoved (c : Chip) (j : OspJob) : Chip :=
  if j.op = 1 then c.writeRange j.dram (j.data.take j.len) else if j.op = 2 then (c.readRange j.dram j.len).2.2 else c

/-- The device's side and RESULT of an operation that ends. -/
def Chip.ospEnded (c : Chip) (j : OspJob) (failed : Bool) (bs : List Byte) : Chip :=
  if failed = true ∧ j.op ≠ 1 then (c.ospResult j.op 3).bump R.OSP_ERR_CNT else (c.norTakes j bs).ospResult j.op 1

theorem ospDone_eq (ha : c.alive = true) {j : OspJob} (ho : c.osp = some j) (f : Bool) : ospDone c f =
    (Chip.ospEnded { c.ospMoved j with osp := none } j f (c.readRange j.dram j.len).1).raise 0x49 0 := by
  unfold ospDone
  rw [ho]
  exact if_neg (by simp [ha])

theorem Keeps.norTakes (h : Keeps ps c d) (j : OspJob) (bs : List Byte) (hp : .out ∈ ps) : Keeps ps c (d.norTakes j bs) := by
  unfold Chip.norTakes
  split
  · exact h.emit _ hp
  · exact h.emit _ hp
  · exact h

theorem Chip.norTakes_regs (j : OspJob) (bs : List Byte) : (c.norTakes j bs).regs = c.regs := by
  unfold Chip.norTakes
  split <;> rfl

theorem Keeps.ospEnded (h : Keeps ps c d) (j : OspJob) (f : Bool) (bs : List Byte) (hr : .regs ∈ ps) (hp : .out ∈ ps) :
    Keeps ps c (d.ospEnded j f bs) :=
  Keeps.ite (fun _ => (h.ospResult _ _ hr).bump _ hr) fun _ => (h.norTakes j bs hp).ospResult _ _ hr

theorem OnlyRegs.ospEnded (h : OnlyRegs ks c d) (j : OspJob) (f : Bool) (bs : List Byte) (hc : R.OSP_CMD ∈ ks)
    (he : R.OSP_ERR_CNT ∈ ks) : OnlyRegs ks c (d.ospEnded j f bs) :=
  OnlyRegs.ite (fun _ => (h.ospResult _ _ hc).addSat _ _ he)
    fun _ => (h.trans (.of_regs (Chip.norTakes_regs j bs))).ospResult _ _ hc

theorem Chip.reg_ospEnded (j : OspJob) (f : Bool) (bs : List Byte) : ∃ e : Chip, (c.ospEnded j f bs).reg R.OSP_CMD =
    (e.ospResult j.op (if f = true ∧ j.op ≠ 1 then 3 else 1)).reg R.OSP_CMD := by
  unfold Chip.ospEnded
  split
  · refine ⟨c, ?_⟩
    rw [Chip.bump, Chip.reg_addSat, if_neg (by decide)]
  · exact ⟨c.norTakes j bs, rfl⟩

theorem Keeps.ospMoved (j : OspJob) : Keeps accessParts c (c.ospMoved j) :=
  Keeps.ite (fun _ => (Keeps.refl _ _).writeRange _ _) fun _ =>
    Keeps.ite (fun _ => (Keeps.refl _ _).readRange _ _) fun _ => Keeps.refl _ _

theorem Chip.ospEnded_out {j : OspJob} {f : Bool} (bs : List Byte) : (c.ospEnded j f bs).out =
    if f = true ∧ j.op ≠ 1 then c.out else (c.norTakes j bs).out := by
  unfold Chip.ospEnded
  split <;> rfl

/-- OSP_DONE ends the operation: RESULT, DONE, and what memory and the device have of it (R60, R61). -/
theorem ospDone_completes (s : State) (j : OspJob) (f : Bool) (ha : s.chip.alive = true) (ho : s.chip.osp = some j) :
    Completes (.ospDone f) s (fun d =>
      d.osp = none ∧ d.bit (pIntStatus 0x49) 0 = true ∧ d.fld R.OSP_CMD 2 0 = j.op % 8 ∧
      d.fld R.OSP_CMD 26 24 = (if f = true ∧ j.op ≠ 1 then 3 else 1) ∧
      (j.op = 1 → d.mem = (s.chip.writeRange j.dram (j.data.take j.len)).mem) ∧
      (j.op = 2 → f = false → d.out = s.chip.out ++ [.norProgram j.nor (s.chip.readRange j.dram j.len).1]) ∧
      (j.op = 3 → d.mem = s.chip.mem ∧
        d.out = s.chip.out ++ (if f then [] else [.norErase j.nor j.len]) ∧
        OnlyRegs [R.OSP_CMD, R.OSP_ERR_CNT, pIntStatus 0x49] s.chip d) ∧
      Keeps [.regs, .pwr, .evr, .osp, .mem, .out] s.chip d) := by
  let m : Chip := { s.chip.ospMoved j with osp := none }
  let bs := (s.chip.readRange j.dram j.len).1
  let e := m.ospEnded j f bs
  have hm : Keeps [.regs, .pwr, .evr, .osp, .mem, .out] s.chip m :=
    ((Keeps.ospMoved j).mono (by decide)).withOsp _ (by decide)
  have hk : Keeps [.regs, .out] m e := (Keeps.refl _ _).ospEnded j f bs (by decide) (by decide)
  obtain ⟨x, hx⟩ := m.reg_ospEnded j f bs
  have hc : (e.raise 0x49 0).reg R.OSP_CMD = (x.ospResult j.op (if f = true ∧ j.op ≠ 1 then 3 else 1)).reg R.OSP_CMD :=
    (Chip.reg_raise_ne _ (by decide)).trans hx
  have hop : (e.raise 0x49 0).fld R.OSP_CMD 2 0 = j.op % 8 :=
    (Chip.fld_of_reg _ hc 2 0).trans (x.fld_ospResult_op _ _)
  have hres : (e.raise 0x49 0).fld R.OSP_CMD 26 24 = if f = true ∧ j.op ≠ 1 then 3 else 1 := by
    refine (Chip.fld_of_reg _ hc 26 24).trans ((x.fld_ospResult_result _ _).trans ?_)
    split <;> rfl
  have hosp : e.osp = none := hk.osp (by decide)
  have hmem : e.mem = (s.chip.ospMoved j).mem := hk.mem (by decide)
  have hbit : (e.raise 0x49 0).bit (pIntStatus 0x49) 0 = true := Chip.bit_raise _ _ _ (by decide)
  have hmo : m.out = s.chip.out := ((Keeps.ospMoved (c := s.chip) j).out (by decide))
  refine completes_eq rfl (ospDone_eq ha ho f) ⟨hosp, hbit, hop, hres, fun h => ?_, fun h hf => ?_, fun h => ⟨?_, ?_, ?_⟩, ?_⟩
  · exact hmem.trans (congrArg Chip.mem (if_pos h))
  · have : e.out = (m.norTakes j bs).out := (Chip.ospEnded_out bs).trans (if_neg (by simp [hf]))
    refine this.trans ?_
    unfold Chip.norTakes
    rw [h]
    exact congrArg (· ++ [Out.norProgram j.nor bs]) hmo
  · exact hmem.trans (congrArg Chip.mem ((if_neg (by omega)).trans (if_neg (by omega))))
  · have hj : j.op ≠ 1 := by omega
    refine (Chip.ospEnded_out (c := m) (f := f) (j := j) bs).trans ?_
    cases f
    · rw [if_neg (by simp)]
      unfold Chip.norTakes
      rw [h]
      exact congrArg (· ++ [Out.norErase j.nor j.len]) hmo
    · rw [if_pos ⟨rfl, hj⟩]
      exact hmo.trans (List.append_nil _).symm
  · have h0 : s.chip.ospMoved j = s.chip := (if_neg (by omega)).trans (if_neg (by omega))
    have ho' : OnlyRegs [R.OSP_CMD, R.OSP_ERR_CNT, pIntStatus 0x49] s.chip m :=
      .of_regs (show (s.chip.ospMoved j).regs = _ by rw [h0])
    exact ((ho'.ospEnded j f bs (by decide) (by decide)).raise 0x49 0 (by decide)).settle
  · exact ((hm.trans (hk.mono (by decide))).raise 0x49 0 (by decide) (by decide)).settle

/-- Settles O19: each GO is `ospGo`, and the end of an operation is `ospDone_completes`. -/
theorem norOperationsAreCheckedAndRun : Obligations.NorOperationsAreCheckedAndRun := by
  refine ⟨fun s ha ho e he => ?_, fun s data ha ho h => ?_, fun s ha ho => ⟨fun h => ?_, fun h => ?_⟩,
    fun s j ho => ⟨fun data => completes_eq rfl (ospGo_busy ho 1 data) rfl, completes_eq rfl (ospGo_busy ho 2 []) rfl,
      completes_eq rfl (ospGo_busy ho 3 []) rfl⟩, ospDone_completes⟩
  · simp only [List.cons_append, List.nil_append, List.mem_cons, List.not_mem_nil, or_false] at he
    obtain rfl | rfl | rfl := he
    · exact ⟨ospStarted_completes (by decide) rfl ha ho, ospRefused_completes rfl ha ho⟩
    · exact ⟨ospStarted_completes (by decide) rfl ha ho, ospRefused_completes rfl ha ho⟩
    · exact ⟨ospStarted_completes (by decide) rfl ha ho, ospRefused_completes rfl ha ho⟩
  · obtain ⟨d, hd, hj, hop, -, -, hr, hk⟩ := ospStarted_completes (i := .ospRead data) (by decide) rfl ha ho h
    exact ⟨d, hd, hj, hop, hr, hk⟩
  · obtain ⟨d, hd, hj, -⟩ := ospStarted_completes (i := .ospProgram) (by decide) rfl ha ho h
    exact ⟨d, hd, hj⟩
  · obtain ⟨d, hd, hj, -⟩ := ospStarted_completes (i := .ospErase) (by decide) rfl ha ho h
    exact ⟨d, hd, hj⟩

end Sys2Proof.Machine
end

section
namespace Sys2Proof.Machine

variable {c d : Chip} {ps : List ChipPart} {ks : List Nat}

/-! ## REST and its way back (R33, R37, R586, R588, O17) -/

theorem Keeps.turnOff (h : Keeps ps c d) (hc : .cal ∈ ps) (ho : .osp ∈ ps) (hd : .dbg ∈ ps) : Keeps ps c d.turnOff := by
  have h1 := Keeps.ite (p := (d.fld (pPower 0x06) 5 4 == 3) = true) (fun _ => h.withCal {} hc) fun _ => h
  have h2 := Keeps.ite (p := (d.fld (pPower 0x49) 5 4 == 3) = true) (fun _ => h1.withOsp none ho) fun _ => h1
  exact Keeps.ite (fun _ => h2.withDbg _ hd) fun _ => h2

theorem keeps_turnOff (c : Chip) : Keeps [.cal, .osp, .dbg] c c.turnOff :=
  (Keeps.refl _ _).turnOff (by decide) (by decide) (by decide)

/-- The chip that has come to REST with sub-state `sub`, before PWR reports it. -/
def Chip.resting (c : Chip) (t : Transition) : Chip :=
  { c.turnOff.setBit R.DDR_STATUS 1 (t.sub == 2 && c.turnOff.fld (pPower 0x40) 5 4 == 2) with
    sys := { c.turnOff.sys with mode := .rest, restSub := t.sub, trans := none, reqBusy := false } }

theorem Chip.regs_turnOff (c : Chip) : c.turnOff.regs = c.regs := (keeps_turnOff c) .regs (by decide)

theorem Keeps.resting (t : Transition) : Keeps [.regs, .sys, .osp, .cal, .dbg] c (c.resting t) :=
  (((keeps_turnOff c).mono (by decide)).setBit _ _ _ (by decide)).withSys _ (by decide)

theorem Chip.onlyRegs_withSys (e : Chip) (x : Sys) : OnlyRegs ks e { e with sys := x } := .of_regs rfl

theorem OnlyRegs.resting (t : Transition) : OnlyRegs [R.DDR_STATUS] c (c.resting t) :=
  (OnlyRegs.setBit _ _ _ (.of_regs c.regs_turnOff) (by decide)).trans (Chip.onlyRegs_withSys _ _)

theorem Chip.sys_resting (t : Transition) :
    (c.resting t).sys = { c.sys with mode := .rest, restSub := t.sub, trans := none, reqBusy := false } := by
  rw [show c.sys = c.turnOff.sys from ((keeps_turnOff c).sys (by decide)).symm]
  rfl

theorem restEntered_eq {t : Transition} (ha : c.alive = true) (hh : c.inHoldup = false) (ht : c.sys.trans = some t)
    (hr : t.target = .rest) : restEntered c = match (linePages.filter c.holdsRest).getLast? with
      | some page => c.setReg R.PWR_REST_WAIT (BitVec.ofNat 32 (page + 2 ^ 31))
      | none => ((c.resting t).setBit R.PWR_REST_WAIT 31 false).raise 0x02 1 := by
  unfold restEntered
  rw [ht]
  exact if_neg (by simp [ha, hh, hr])

theorem restEntered_held {s : State} {t : Transition} (ha : s.chip.alive = true) (hh : s.chip.inHoldup = false)
    (ht : s.chip.sys.trans = some t) (hr : t.target = .rest) {page : Nat}
    (hp : (linePages.filter s.chip.holdsRest).getLast? = some page) : Completes .restEntered s (fun d =>
      d.reg R.PWR_REST_WAIT = BitVec.ofNat 32 (page + 2 ^ 31) ∧ OnlyRegs [R.PWR_REST_WAIT] s.chip d ∧
      Keeps [.regs] s.chip d) := by
  generalize hw : BitVec.ofNat 32 (page + 2 ^ 31) = w
  have he : restEntered s.chip = s.chip.setReg R.PWR_REST_WAIT w := (restEntered_eq ha hh ht hr).trans (by rw [hp, ← hw])
  have hv : (s.chip.setReg R.PWR_REST_WAIT w).reg R.PWR_REST_WAIT = w := Chip.reg_setReg_self _ _ _
  exact completes_eq rfl he ⟨(Chip.reg_settle _ _).trans hv, ((OnlyRegs.refl _ _).setReg _ _ (by decide)).settle,
    ((Keeps.refl _ _).setReg _ _ (by decide)).settle⟩

theorem restEntered_free {s : State} {t : Transition} (ha : s.chip.alive = true) (hh : s.chip.inHoldup = false)
    (ht : s.chip.sys.trans = some t) (hr : t.target = .rest) (hp : ∀ page ∈ linePages, s.chip.holdsRest page = false) :
    Completes .restEntered s (fun d =>
      d.sys = { s.chip.sys with mode := .rest, restSub := t.sub, trans := none, reqBusy := false } ∧
      d.bit (pIntStatus 0x02) 1 = true ∧ d.bit R.PWR_REST_WAIT 31 = false ∧
      OnlyRegs [R.DDR_STATUS, R.PWR_REST_WAIT, pIntStatus 0x02] s.chip d ∧
      Keeps [.regs, .sys, .osp, .pwr, .cal, .dbg] s.chip d) := by
  have hl : (linePages.filter s.chip.holdsRest).getLast? = none := by
    rw [List.filter_eq_nil_iff.2 fun p hm => by simp [hp p hm]]
    rfl
  have he := (restEntered_eq ha hh ht hr).trans (by rw [hl])
  let e := s.chip.resting t
  have hk : Keeps [.regs, .sys, .osp, .pwr, .cal, .dbg] s.chip e := (Keeps.resting t).mono (by decide)
  have ho : OnlyRegs [R.DDR_STATUS, R.PWR_REST_WAIT, pIntStatus 0x02] s.chip e := (OnlyRegs.resting t).mono (by decide)
  have hb : ((e.setBit R.PWR_REST_WAIT 31 false).raise 0x02 1).bit R.PWR_REST_WAIT 31 = false :=
    (Chip.bit_of_reg _ (Chip.reg_raise_ne _ (by decide)) 31).trans (Chip.bit_setBit_self _ _ _ _ (by decide))
  exact completes_eq rfl he ⟨s.chip.sys_resting t, Chip.bit_raise _ _ _ (by decide), hb,
    ((ho.setBit _ _ _ (by decide)).raise _ _ (by decide)).settle,
    ((hk.setBit _ _ _ (by decide)).raise _ _ (by decide) (by decide)).settle⟩

/-! ### Back to SERVICE -/

/-- The self-refresh of the DRAM ended, as on the way to SERVICE. -/
def Chip.dramAwake (c : Chip) : Chip := if c.bit R.DDR_STATUS 1 then c.setBit R.DDR_STATUS 1 false else c

theorem keeps_dramAwake (c : Chip) : Keeps [.regs] c c.dramAwake :=
  Keeps.ite (fun _ => (Keeps.refl _ _).setBit _ _ _ (by decide)) fun _ => Keeps.refl _ _

theorem onlyRegs_dramAwake (c : Chip) : OnlyRegs [R.DDR_STATUS] c c.dramAwake :=
  OnlyRegs.ite (fun _ => (OnlyRegs.refl _ _).setBit _ _ _ (by decide)) fun _ => OnlyRegs.refl _ _

theorem Chip.enterService_eq (c : Chip) : c.enterService = { c.dramAwake with
    sys := { c.dramAwake.sys with mode := .service, restSub := 0, trans := none, reqBusy := false }
    loc := { c.dramAwake.loc with ptPresent := false, ptBuilding := false, pages := [] }
    nvq := { c.dramAwake.nvq with ps := 0 } } := rfl

theorem Keeps.withServiceParts (e : Chip) (x : Sys) (y : Loc) (z : Nvq) :
    Keeps [.sys, .loc, .nvq] e { e with sys := x, loc := y, nvq := z } := fun p hp => by
  cases p <;> first | rfl | exact absurd (by decide) hp

theorem keeps_enterService (c : Chip) : Keeps [.regs, .sys, .nvq, .loc] c c.enterService :=
  ((keeps_dramAwake c).mono (by decide)).trans ((Keeps.withServiceParts c.dramAwake _ _ _).mono (by decide))

theorem Chip.onlyRegs_withServiceParts (e : Chip) (x : Sys) (y : Loc) (z : Nvq) :
    OnlyRegs ks e { e with sys := x, loc := y, nvq := z } := .of_regs rfl

theorem onlyRegs_enterService (c : Chip) : OnlyRegs [R.DDR_STATUS] c c.enterService :=
  (onlyRegs_dramAwake c).trans (Chip.onlyRegs_withServiceParts c.dramAwake _ _ _)

theorem Chip.sys_enterService (c : Chip) :
    c.enterService.sys = { c.sys with mode := .service, restSub := 0, trans := none, reqBusy := false } := by
  rw [show c.sys = c.dramAwake.sys from ((keeps_dramAwake c).sys (by decide)).symm]
  rfl

/-- In REST, or on the way to it. -/
def Chip.Resting (c : Chip) : Prop :=
  c.sys.mode = .rest ∧ c.sys.trans = none ∨ c.sys.trans.map Transition.target = some .rest

theorem Chip.leaveRest_eq (h : c.Resting) : c.leaveRest = c.enterService := by
  unfold Chip.leaveRest
  obtain ⟨hm, ht⟩ | ht := h
  · rw [ht]
    exact if_pos hm
  · obtain ⟨t, ht', hr⟩ := Option.map_eq_some_iff.1 ht
    rw [ht']
    exact if_pos hr

theorem restExitOnIo_wakes (ha : c.alive = true) (hh : c.inHoldup = false) {admin : Bool}
    (h : (admin = false ∧ (c.nvq.sqs.any (fun q => q.qid != 0 && q.head != q.tail)) = true) ∨
      ∃ x ∈ c.nvq.undecided, x.qid = 0 ∧ x.cmd.opcode ∈ [0x14, 0x80, 0x84]) :
    restExitOnIo c admin = c.leaveRest := by
  unfold restExitOnIo
  rw [if_neg (by simp [ha, hh])]
  refine if_pos (Bool.or_eq_true_iff.2 ?_)
  obtain ⟨hf, hr⟩ | ⟨x, hx, hq, ho⟩ := h
  · exact .inr (Bool.and_eq_true_iff.2 ⟨by simp [hf], hr⟩)
  · refine .inl (List.any_eq_true.2 ⟨x, hx, ?_⟩)
    refine (if_pos hq).trans ?_
    simp only [List.mem_cons, List.not_mem_nil, or_false] at ho
    obtain h | h | h := ho <;> simp [h]

theorem restExitOnIo_idle (h : c.nvq.inflight = []) : restExitOnIo c true = c := by
  have hu : c.nvq.undecided = [] := by simp [Nvq.undecided, h]
  unfold restExitOnIo
  split
  · rfl
  · exact if_neg (by simp [hu])

/-! ### The map's inconsistency -/

/-- The report of an inconsistent map entry (R203). -/
def Chip.inconsistent (c : Chip) (zone chunk : Nat) : Chip := (c.raise 0x18 3).event 0x3001 [zone, chunk]

theorem mapInconsistency_eq (ha : c.alive = true) (hh : c.inHoldup = false) (he : c.effective ≠ 0) (zone chunk : Nat) :
    mapInconsistency c zone chunk = if (c.inconsistent zone chunk).sys.mode = .service ∧
      (c.inconsistent zone chunk).sys.trans.isNone then (c.inconsistent zone chunk).enterRebuild
      else c.inconsistent zone chunk := by
  unfold mapInconsistency
  exact if_neg (by simp [ha, hh, he])

theorem Keeps.withRebuildParts (e : Chip) (x : Sys) (y : Loc) (z : SMap Slot) :
    Keeps [.sys, .loc, .slots] e { e with slots := z, sys := x, loc := y } := fun p hp => by
  cases p <;> first | rfl | exact absurd (by decide) hp

theorem keeps_enterRebuild (c : Chip) : Keeps [.sys, .loc, .slots] c c.enterRebuild := Keeps.withRebuildParts c _ _ _

theorem Chip.sys_enterRebuild (c : Chip) :
    c.enterRebuild.sys = { c.sys with mode := .rebuild, trans := none, reqBusy := false, restSub := 0 } := rfl

theorem Chip.onlyRegs_enterRebuild (c : Chip) : OnlyRegs ks c c.enterRebuild :=
  .of_regs ((keeps_enterRebuild c) .regs (by decide))

theorem keeps_inconsistent (zone chunk : Nat) : Keeps [.regs, .pwr, .evr] c (c.inconsistent zone chunk) :=
  ((Keeps.refl _ _).raise _ _ (by decide) (by decide)).event _ _ (by decide) (by decide) (by decide)

theorem onlyRegs_inconsistent (zone chunk : Nat) :
    OnlyRegs ([pIntStatus 0x18] ++ dropRegs) c (c.inconsistent zone chunk) :=
  ((OnlyRegs.refl _ _).raise _ _ (by decide)).event _ _ (by decide) (by decide)

theorem Chip.bit_inconsistent (zone chunk : Nat) : (c.inconsistent zone chunk).bit (pIntStatus 0x18) 3 = true :=
  (Chip.bit_of_reg _ (Chip.reg_event _ _ _ _ (by decide) (by decide)) 3).trans (Chip.bit_raise _ _ _ (by decide))

theorem mapInconsistency_completes (s : State) (zone chunk : Nat) (ha : s.chip.alive = true)
    (hh : s.chip.inHoldup = false) (he : s.chip.effective ≠ 0) :
    CompletesThen (.mapInconsistency zone chunk) s (fun d =>
      d.bit (pIntStatus 0x18) 3 = true ∧
      (s.chip.sys.mode = .service → s.chip.sys.trans = none → d.sys.mode = .rebuild) ∧
      (s.chip.sys.mode ≠ .service → d.sys = s.chip.sys) ∧
      OnlyRegs ([pIntStatus 0x18] ++ dropRegs) s.chip d ∧ Keeps [.regs, .sys, .evr, .loc, .pwr, .slots] s.chip d) := by
  let e := s.chip.inconsistent zone chunk
  have hk : Keeps [.regs, .pwr, .evr] s.chip e := keeps_inconsistent zone chunk
  have ho : OnlyRegs ([pIntStatus 0x18] ++ dropRegs) s.chip e := onlyRegs_inconsistent zone chunk
  have hb : e.bit (pIntStatus 0x18) 3 = true := Chip.bit_inconsistent zone chunk
  have hs : e.sys = s.chip.sys := hk.sys (by decide)
  by_cases hm : e.sys.mode = .service ∧ e.sys.trans.isNone
  · refine completesThen_eq rfl ((mapInconsistency_eq ha hh he zone chunk).trans (if_pos hm))
      ⟨?_, fun _ _ => rfl, fun h => absurd (hs ▸ hm.1) h, ho.trans (Chip.onlyRegs_enterRebuild e),
        (hk.mono (by decide)).trans ((keeps_enterRebuild e).mono (by decide))⟩
    exact (Chip.bit_of_reg _ ((Chip.onlyRegs_enterRebuild (ks := []) e) _ (by decide)) 3).trans hb
  · exact completesThen_eq rfl ((mapInconsistency_eq ha hh he zone chunk).trans (if_neg hm))
      ⟨hb, fun h1 h2 => absurd ⟨hs ▸ h1, by rw [hs, h2]; rfl⟩ hm, fun _ => hs, ho, hk.mono (by decide)⟩

/-- Settles O17. -/
theorem restIsEnteredWhenIdleAndLeftOnWork : Obligations.RestIsEnteredWhenIdleAndLeftOnWork := by
  refine ⟨fun s t ha hh ht hr => ⟨restEntered_free ha hh ht hr, fun _ => restEntered_held ha hh ht hr⟩,
    fun s ha hh hr admin h => ?_, fun s h => completesThen_eq rfl (restExitOnIo_idle h) rfl, mapInconsistency_completes⟩
  exact completesThen_eq rfl ((restExitOnIo_wakes ha hh h).trans (Chip.leaveRest_eq hr))
    ⟨s.chip.sys_enterService, onlyRegs_enterService _, keeps_enterService _⟩

end Sys2Proof.Machine
end

section
namespace Sys2Proof.Machine

variable {c d : Chip} {ps : List ChipPart} {ks : List Nat}

/-! ## Mode requests (R31 to R35, O16) -/

/-- SYS_MODE_REQ as it stands while a request is judged: its fields taken, GO 0. -/
def Chip.modeAsked (c : Chip) (target sub : Nat) (calA calB : Bool) : Chip :=
  ((((c.setFld R.SYS_MODE_REQ 2 0 target).setBit R.SYS_MODE_REQ 4 calA).setBit R.SYS_MODE_REQ 5 calB).setFld
    R.SYS_MODE_REQ 7 6 sub).setBit R.SYS_MODE_REQ 8 false

/-- SYS_MODE_REQ once the request is accepted: REFUSED and REFUSE_CODE 0. -/
def Chip.modeAccepted (c : Chip) (target sub : Nat) (calA calB : Bool) : Chip :=
  ((c.modeAsked target sub calA calB).setBit R.SYS_MODE_REQ 17 false).setFld R.SYS_MODE_REQ 23 20 0

/-- What an accepted request then starts. -/
def Chip.modeStarted (c : Chip) (target sub : Nat) (calA calB : Bool) : Chip :=
  match target with
  | 1 => if calB then (if calA then c.startCal .A else c).startCal .B else if calA then c.startCal .A else c
  | 2 => c.leaveRest
  | 3 => c.startRest sub true
  | _ => c.enterRebuild

variable {target sub : Nat} {calA calB : Bool}

theorem keeps_modeAsked : Keeps [.regs] c (c.modeAsked target sub calA calB) :=
  (((((Keeps.refl _ _).setFld _ _ _ _ (by decide)).setBit _ _ _ (by decide)).setBit _ _ _ (by decide)).setFld
    _ _ _ _ (by decide)).setBit _ _ _ (by decide)

theorem onlyRegs_modeAsked : OnlyRegs [R.SYS_MODE_REQ] c (c.modeAsked target sub calA calB) :=
  (((((OnlyRegs.refl _ _).setFld _ _ _ _ (by decide)).setBit _ _ _ (by decide)).setBit _ _ _ (by decide)).setFld
    _ _ _ _ (by decide)).setBit _ _ _ (by decide)

theorem keeps_modeAccepted : Keeps [.regs] c (c.modeAccepted target sub calA calB) :=
  (keeps_modeAsked.setBit _ _ _ (by decide)).setFld _ _ _ _ (by decide)

theorem onlyRegs_modeAccepted : OnlyRegs [R.SYS_MODE_REQ] c (c.modeAccepted target sub calA calB) :=
  (onlyRegs_modeAsked.setBit _ _ _ (by decide)).setFld _ _ _ _ (by decide)

/-- The check of a request reads the mode, the transition and the life cycle alone. -/
theorem Chip.modeRefusal_congr (hs : d.sys = c.sys) (hl : d.lcs = c.lcs) :
    d.modeRefusal target sub calA calB = c.modeRefusal target sub calA calB := by
  unfold Chip.modeRefusal Chip.effective
  rw [hs, hl]

theorem Chip.modeRefusal_asked :
    (c.modeAsked target sub calA calB).modeRefusal target sub calA calB = c.modeRefusal target sub calA calB :=
  modeRefusal_congr (keeps_modeAsked.sys (by decide)) (keeps_modeAsked.lcs (by decide))

theorem modeReq_accepted (ha : c.alive = true) (h : c.modeRefusal target sub calA calB = 0) :
    modeReq c target sub calA calB = (c.modeAccepted target sub calA calB).modeStarted target sub calA calB := by
  have h0 : (c.modeAsked target sub calA calB).modeRefusal target sub calA calB = 0 := Chip.modeRefusal_asked.trans h
  unfold Chip.modeAsked at h0
  unfold modeReq
  rw [if_neg (by simp [ha])]
  dsimp only
  rw [h0]
  rfl

theorem modeReq_refused (ha : c.alive = true) {n : Nat} (h : c.modeRefusal target sub calA calB = n + 1) :
    modeReq c target sub calA calB = (c.modeAsked target sub calA calB).refuseMode (n + 1) := by
  have h0 : (c.modeAsked target sub calA calB).modeRefusal target sub calA calB = n + 1 := Chip.modeRefusal_asked.trans h
  unfold Chip.modeAsked at h0
  unfold modeReq
  rw [if_neg (by simp [ha])]
  dsimp only
  rw [h0]
  rfl

/-- REFUSED and REFUSE_CODE clear and GO 0. -/
def Chip.ModeAccepted (d : Chip) : Prop :=
  d.bit R.SYS_MODE_REQ 17 = false ∧ d.fld R.SYS_MODE_REQ 23 20 = 0 ∧ d.bit R.SYS_MODE_REQ 8 = false

theorem Chip.modeAccepted_of_reg (h : d.reg R.SYS_MODE_REQ = c.reg R.SYS_MODE_REQ) (hc : c.ModeAccepted) :
    d.ModeAccepted :=
  ⟨(Chip.bit_of_reg _ h _).trans hc.1, (Chip.fld_of_reg _ h _ _).trans hc.2.1, (Chip.bit_of_reg _ h _).trans hc.2.2⟩

theorem Chip.modeAccepted_modeAccepted : (c.modeAccepted target sub calA calB).ModeAccepted := by
  refine ⟨(Chip.bit_setFld _ _ _ _ _ (by decide)).trans ?_, (Chip.fld_setFld_self _ _ _ (by decide)).trans rfl,
    (Chip.bit_setFld _ _ _ _ _ (by decide)).trans ?_⟩
  · rw [if_neg (by decide)]
    exact Chip.bit_setBit_self _ _ _ _ (by decide)
  · rw [if_neg (by decide), Chip.bit_setBit_ne _ _ _ _ _ (by decide)]
    exact Chip.bit_setBit_self _ _ _ _ (by decide)

/-- CAL_A and CAL_B stay as they were written. -/
theorem Chip.bits_modeAccepted : (c.modeAccepted target sub calA calB).bit R.SYS_MODE_REQ 4 = calA ∧
    (c.modeAccepted target sub calA calB).bit R.SYS_MODE_REQ 5 = calB := by
  refine ⟨(Chip.bit_setFld _ _ _ _ _ (by decide)).trans ?_, (Chip.bit_setFld _ _ _ _ _ (by decide)).trans ?_⟩
  · rw [if_neg (by decide), Chip.bit_setBit_ne _ _ _ _ _ (by decide), Chip.modeAsked,
      Chip.bit_setBit_ne _ _ _ _ _ (by decide), Chip.bit_setFld _ _ _ _ _ (by decide), if_neg (by decide),
      Chip.bit_setBit_ne _ _ _ _ _ (by decide)]
    exact Chip.bit_setBit_self _ _ _ _ (by decide)
  · rw [if_neg (by decide), Chip.bit_setBit_ne _ _ _ _ _ (by decide), Chip.modeAsked,
      Chip.bit_setBit_ne _ _ _ _ _ (by decide), Chip.bit_setFld _ _ _ _ _ (by decide), if_neg (by decide)]
    exact Chip.bit_setBit_self _ _ _ _ (by decide)

theorem Keeps.refuseMode (h : Keeps ps c d) (n : Nat) (hr : .regs ∈ ps) : Keeps ps c (d.refuseMode n) :=
  ((h.setFld _ _ _ _ hr).setBit _ _ _ hr).setBit _ _ _ hr

theorem OnlyRegs.refuseMode (h : OnlyRegs ks c d) (n : Nat) (hk : R.SYS_MODE_REQ ∈ ks) : OnlyRegs ks c (d.refuseMode n) :=
  ((h.setFld _ _ _ _ hk).setBit _ _ _ hk).setBit _ _ _ hk

theorem Chip.refuseMode_fields (n : Nat) : (c.refuseMode n).bit R.SYS_MODE_REQ 17 = true ∧
    (c.refuseMode n).fld R.SYS_MODE_REQ 23 20 = n % 16 ∧ (c.refuseMode n).bit R.SYS_MODE_REQ 8 = false := by
  refine ⟨?_, ?_, Chip.bit_setBit_self _ _ _ _ (by decide)⟩
  · rw [Chip.refuseMode, Chip.bit_setBit_ne _ _ _ _ _ (by decide)]
    exact Chip.bit_setBit_self _ _ _ _ (by decide)
  · rw [Chip.refuseMode, Chip.fld_setBit _ _ _ _ _ (.inr (by decide)), Chip.fld_setBit _ _ _ _ _ (.inr (by decide))]
    exact Chip.fld_setFld_self _ _ _ (by decide)

/-- A refused request leaves its code and changes SYS_MODE_REQ alone. -/
theorem modeReq_refused_completes {i : Instr} {s : State} {n : Nat} (hn : n + 1 < 16)
    (hi : exec i s = s.done (modeReq s.chip target sub calA calB)) (ha : s.chip.alive = true)
    (h : s.chip.modeRefusal target sub calA calB = n + 1) : CompletesThen i s (fun d =>
      d.bit R.SYS_MODE_REQ 17 = true ∧ d.fld R.SYS_MODE_REQ 23 20 = n + 1 ∧ d.bit R.SYS_MODE_REQ 8 = false ∧
      OnlyRegs [R.SYS_MODE_REQ] s.chip d ∧ Keeps [.regs] s.chip d) := by
  obtain ⟨h17, hc, h8⟩ := (s.chip.modeAsked target sub calA calB).refuseMode_fields (n + 1)
  exact completesThen_eq hi (modeReq_refused ha h) ⟨h17, hc.trans (Nat.mod_eq_of_lt hn), h8,
    onlyRegs_modeAsked.refuseMode _ (by decide), keeps_modeAsked.refuseMode _ (by decide)⟩

/-! ### Which check a request fails -/

theorem Chip.modeRefusal_busy (h : c.sys.trans ≠ none) : c.modeRefusal target sub calA calB = 1 := by
  unfold Chip.modeRefusal
  exact if_pos (Option.isSome_iff_ne_none.2 h)

theorem Chip.modeRefusal_calibrate (ht : c.sys.trans = none) (hm : c.sys.mode = .service) :
    c.modeRefusal 1 sub calA calB =
      if c.effective = 0 ∨ c.effective = 4 then 3 else if !calA && !calB then 4 else 0 := by
  unfold Chip.modeRefusal
  rw [ht, hm]
  rfl

theorem Chip.modeRefusal_rest (ht : c.sys.trans = none) (hm : c.sys.mode = .service) :
    c.modeRefusal 3 sub calA calB = if sub ≠ 1 ∧ sub ≠ 2 then 2 else if c.effective = 0 then 3 else 0 := by
  unfold Chip.modeRefusal
  rw [ht, hm]
  rfl

theorem Chip.modeRefusal_rebuild (ht : c.sys.trans = none) (hm : c.sys.mode = .service) :
    c.modeRefusal 4 sub calA calB = if c.effective = 1 ∨ c.effective = 3 then 0 else 3 := by
  unfold Chip.modeRefusal
  rw [ht, hm]
  rfl

theorem Chip.modeRefusal_service (ht : c.sys.trans = none) :
    c.modeRefusal 2 sub calA calB = if c.sys.mode = .rest then 0 else 2 := by
  unfold Chip.modeRefusal
  rw [ht]
  cases c.sys.mode <;> rfl

/-! ### What an accepted request starts -/

theorem modeReqService_completes {s : State} (ha : s.chip.alive = true) (ht : s.chip.sys.trans = none)
    (hm : s.chip.sys.mode = .rest) : CompletesThen .modeReqService s (fun d =>
      d.sys = { s.chip.sys with mode := .service, restSub := 0, trans := none, reqBusy := false } ∧
      d.ModeAccepted ∧ d.nvq.ps = 0 ∧
      OnlyRegs [R.SYS_MODE_REQ, R.DDR_STATUS] s.chip d ∧ Keeps [.regs, .sys, .nvq, .loc] s.chip d) := by
  let e := s.chip.modeAccepted 2 0 false false
  have hk : Keeps [.regs] s.chip e := keeps_modeAccepted
  have hs : e.sys = s.chip.sys := hk.sys (by decide)
  have hr : e.Resting := .inl ⟨hs ▸ hm, hs ▸ ht⟩
  have he : modeReq s.chip 2 0 false false = e.enterService :=
    (modeReq_accepted ha ((Chip.modeRefusal_service ht).trans (if_pos hm))).trans (Chip.leaveRest_eq hr)
  have ho : OnlyRegs [R.DDR_STATUS] e e.enterService := onlyRegs_enterService e
  exact completesThen_eq rfl he ⟨e.sys_enterService.trans (by rw [hs]),
    Chip.modeAccepted_of_reg (ho _ (by decide)) Chip.modeAccepted_modeAccepted, rfl,
    (onlyRegs_modeAccepted.mono (by decide)).trans (ho.mono (by decide)),
    (hk.mono (by decide)).trans (keeps_enterService e)⟩

theorem Keeps.withRestParts (e : Chip) (x : Sys) (y : Nvq) : Keeps [.sys, .nvq] e { e with sys := x, nvq := y } :=
  fun p hp => by cases p <;> first | rfl | exact absurd (by decide) hp

theorem keeps_startRest (c : Chip) (n : Nat) (b : Bool) : Keeps [.sys, .nvq] c (c.startRest n b) :=
  Keeps.withRestParts c _ _

theorem onlyRegs_startRest (c : Chip) (n : Nat) (b : Bool) : OnlyRegs ks c (c.startRest n b) := .of_regs rfl

theorem Chip.sys_startRest (c : Chip) (n : Nat) (b : Bool) :
    (c.startRest n b).sys = { c.sys with trans := some ⟨.rest, n⟩, reqBusy := b } := rfl

theorem Chip.nvq_startRest (c : Chip) (n : Nat) (b : Bool) : (c.startRest n b).nvq = { c.nvq with ps := n } := rfl

theorem modeReqRest_completes {s : State} (ha : s.chip.alive = true) (ht : s.chip.sys.trans = none)
    (hm : s.chip.sys.mode = .service) (n : Fin 4) (hn : n = 1 ∨ n = 2) (hl : s.chip.effective ≠ 0) :
    CompletesThen (.modeReqRest n) s (fun d =>
      d.sys = { s.chip.sys with trans := some ⟨.rest, n.val⟩, reqBusy := true } ∧
      d.nvq = { s.chip.nvq with ps := n.val } ∧ d.ModeAccepted ∧
      OnlyRegs [R.SYS_MODE_REQ] s.chip d ∧ Keeps [.regs, .sys, .nvq] s.chip d) := by
  let e := s.chip.modeAccepted 3 n.val false false
  have hk : Keeps [.regs] s.chip e := keeps_modeAccepted
  have h0 : s.chip.modeRefusal 3 n.val false false = 0 := by
    rw [Chip.modeRefusal_rest ht hm, if_neg (by obtain rfl | rfl := hn <;> decide), if_neg hl]
  have ho : OnlyRegs [R.SYS_MODE_REQ] e (e.startRest n.val true) := onlyRegs_startRest e n.val true
  exact completesThen_eq rfl (modeReq_accepted ha h0) ⟨(e.sys_startRest _ _).trans (by rw [hk.sys (by decide)]),
    (e.nvq_startRest _ _).trans (by rw [hk.nvq (by decide)]),
    Chip.modeAccepted_of_reg ((onlyRegs_startRest (ks := []) e n.val true) _ (by decide)) Chip.modeAccepted_modeAccepted,
    onlyRegs_modeAccepted.trans ho, (hk.mono (by decide)).trans ((keeps_startRest e n.val true).mono (by decide))⟩

theorem modeReqRebuild_completes {s : State} (ha : s.chip.alive = true) (ht : s.chip.sys.trans = none)
    (hm : s.chip.sys.mode = .service) (hl : s.chip.effective = 1 ∨ s.chip.effective = 3) :
    CompletesThen .modeReqRebuild s (fun d =>
      d.sys = { s.chip.sys with mode := .rebuild, trans := none, reqBusy := false, restSub := 0 } ∧
      d.loc.hot = [] ∧ d.loc.ptBuilding = true ∧ d.ModeAccepted ∧
      OnlyRegs [R.SYS_MODE_REQ] s.chip d ∧ Keeps [.regs, .sys, .loc, .slots] s.chip d) := by
  let e := s.chip.modeAccepted 4 0 false false
  have hk : Keeps [.regs] s.chip e := keeps_modeAccepted
  have h0 : s.chip.modeRefusal 4 0 false false = 0 := (Chip.modeRefusal_rebuild ht hm).trans (if_pos hl)
  exact completesThen_eq rfl (modeReq_accepted ha h0) ⟨e.sys_enterRebuild.trans (by rw [hk.sys (by decide)]), rfl, rfl,
    Chip.modeAccepted_of_reg ((Chip.onlyRegs_enterRebuild (ks := []) e) _ (by decide)) Chip.modeAccepted_modeAccepted,
    onlyRegs_modeAccepted.trans (Chip.onlyRegs_enterRebuild e),
    (hk.mono (by decide)).trans ((keeps_enterRebuild e).mono (by decide))⟩

/-! ### Calibration of the selected actuators -/

/-- The registers and the parts that the start of a calibration may change. -/
def startCalRegs : List Nat := [R.CAL_RESULT_A, R.CAL_RESULT_B, pIntStatus 0x06, R.CAL_TEMP_LAST, R.DDR_STATUS]

def startCalParts : List ChipPart := [.regs, .sys, .nvq, .loc, .pwr, .cal]

theorem Keeps.setCalBit (h : Keeps ps c d) (a : Act) (on : Bool) (hs : .sys ∈ ps) : Keeps ps c (d.setCalBit a on) := by
  cases a <;> exact h.withSys _ hs

theorem Keeps.setPlan (h : Keeps ps c d) (a : Act) (r : Option CalRun) (hc : .cal ∈ ps) : Keeps ps c (d.setPlan a r) := by
  cases a <;> exact h.withCal _ hc

theorem Keeps.setWatch (h : Keeps ps c d) (a : Act) (on : Bool) (hc : .cal ∈ ps) : Keeps ps c (d.setWatch a on) := by
  cases a <;> exact h.withCal _ hc

theorem Chip.regs_setCalBit (a : Act) (on : Bool) : (c.setCalBit a on).regs = c.regs := by cases a <;> rfl
theorem Chip.regs_setPlan (a : Act) (r : Option CalRun) : (c.setPlan a r).regs = c.regs := by cases a <;> rfl
theorem Chip.regs_setWatch (a : Act) (on : Bool) : (c.setWatch a on).regs = c.regs := by cases a <;> rfl
theorem Chip.sys_setPlan (a : Act) (r : Option CalRun) : (c.setPlan a r).sys = c.sys := by cases a <;> rfl

theorem keeps_calLeaves (c : Chip) : Keeps startCalParts c c.calLeaves :=
  Keeps.ite (fun _ => (keeps_enterService c).mono (by decide)) fun _ => Keeps.refl _ _

theorem onlyRegs_calLeaves (c : Chip) : OnlyRegs startCalRegs c c.calLeaves :=
  OnlyRegs.ite (fun _ => (onlyRegs_enterService c).mono (by decide)) fun _ => OnlyRegs.refl _ _

/-- CALIBRATE is not left while an actuator calibrates. -/
theorem Chip.calLeaves_busy {b : Act} (h : c.calibrating b = true) : c.calLeaves = c := by
  unfold Chip.calLeaves
  refine if_neg ?_
  rintro ⟨-, ha, hb⟩
  cases b
  · rw [show c.sys.calA = true from h] at ha
    exact absurd ha (by decide)
  · rw [show c.sys.calB = true from h] at hb
    exact absurd hb (by decide)

/-- The plan closed with its result, before the mode may change. -/
def Chip.planClosed (c : Chip) (a : Act) (r : CalRun) (result : Nat) : Chip :=
  ((c.setPlan a none).setCalBit a false).setReg (calResultReg a) (r.word result)

/-- What a plan that was not given up reports besides. -/
def Chip.planReported (c : Chip) (a : Act) : Chip :=
  (((c.raise 0x06 a.toNat).setFld R.CAL_TEMP_LAST (8 * a.toNat + 7) (8 * a.toNat) (c.raise 0x06 a.toNat).loc.temp)).setWatch
    a true

theorem Chip.finishPlan_eq (a : Act) (r : CalRun) {result : Nat} (h : result ≠ 5) :
    c.finishPlan a r result = ((c.planClosed a r result).planReported a).calLeaves := if_neg h

theorem calResultReg_mem (a : Act) : calResultReg a ∈ startCalRegs := by cases a <;> decide

theorem keeps_planClosed (a : Act) (r : CalRun) (n : Nat) : Keeps [.cal, .sys, .regs] c (c.planClosed a r n) :=
  (((Keeps.refl _ _).setPlan a none (by decide)).setCalBit a false (by decide)).setReg _ _ (by decide)

theorem onlyRegs_planClosed (a : Act) (r : CalRun) (n : Nat) : OnlyRegs startCalRegs c (c.planClosed a r n) :=
  OnlyRegs.setReg _ _ (.of_regs ((Chip.regs_setCalBit _ _).trans (Chip.regs_setPlan _ _))) (calResultReg_mem a)

theorem keeps_planReported (a : Act) : Keeps [.cal, .pwr, .regs] c (c.planReported a) :=
  (((Keeps.refl _ _).raise _ _ (by decide) (by decide)).setFld _ _ _ _ (by decide)).setWatch a true (by decide)

theorem onlyRegs_planReported (a : Act) : OnlyRegs startCalRegs c (c.planReported a) :=
  (((OnlyRegs.refl _ _).raise _ _ (by decide)).setFld _ _ _ _ (by decide)).trans (.of_regs (Chip.regs_setWatch _ _))

theorem keeps_finishPlan (a : Act) (r : CalRun) {n : Nat} (h : n ≠ 5) : Keeps startCalParts c (c.finishPlan a r n) := by
  rw [Chip.finishPlan_eq a r h]
  exact (((keeps_planClosed a r n).mono (by decide)).trans ((keeps_planReported a).mono (by decide))).trans (keeps_calLeaves _)

theorem onlyRegs_finishPlan (a : Act) (r : CalRun) {n : Nat} (h : n ≠ 5) : OnlyRegs startCalRegs c (c.finishPlan a r n) := by
  rw [Chip.finishPlan_eq a r h]
  exact ((onlyRegs_planClosed a r n).trans (onlyRegs_planReported a)).trans (onlyRegs_calLeaves _)

/-- CALIBRATE with actuator `a` in it. -/
def Chip.calOn (c : Chip) (a : Act) : Chip :=
  { c.setCalBit a true with sys := { (c.setCalBit a true).sys with mode := .calibrate } }

theorem keeps_calOn (a : Act) : Keeps [.sys] c (c.calOn a) := by
  cases a <;> exact ((Keeps.refl _ _).withSys _ (by decide)).withSys _ (by decide)

theorem regs_calOn (a : Act) : (c.calOn a).regs = c.regs := by cases a <;> rfl

theorem calibrating_calOn_of {b : Act} (a : Act) (h : c.calibrating b = true) : (c.calOn a).calibrating b = true := by
  cases a
  · cases b
    · rfl
    · exact h
  · cases b
    · exact h
    · rfl

theorem Chip.startCal_eq (a : Act) : c.startCal a =
    if (c.calOn a).outOfService a then (c.calOn a).finishPlan a { act := a, todo := (c.calOn a).planTargets a } 4
    else match (c.calOn a).planTargets a with
      | [] => (c.calOn a).finishPlan a { act := a, todo := (c.calOn a).planTargets a } 1
      | t :: _ => (c.calOn a).setPlan a (some { act := a, todo := (c.calOn a).planTargets a, item := t.item }) := rfl

theorem startCal_frame (c : Chip) (a : Act) : Keeps startCalParts c (c.startCal a) ∧ OnlyRegs startCalRegs c (c.startCal a) := by
  have hk : Keeps startCalParts c (c.calOn a) := (keeps_calOn a).mono (by decide)
  have ho : OnlyRegs startCalRegs c (c.calOn a) := .of_regs (regs_calOn a)
  rw [Chip.startCal_eq]
  split
  · exact ⟨hk.trans (keeps_finishPlan a _ (by decide)), ho.trans (onlyRegs_finishPlan a _ (by decide))⟩
  · split
    · exact ⟨hk.trans (keeps_finishPlan a _ (by decide)), ho.trans (onlyRegs_finishPlan a _ (by decide))⟩
    · exact ⟨hk.setPlan a _ (by decide), ho.trans (.of_regs (Chip.regs_setPlan a _))⟩

/-- What an actuator has to do follows from its plan register and its channel. -/
theorem Chip.planTargets_congr {a : Act} (hr : d.reg (calPlanReg a) = c.reg (calPlanReg a)) (hc : d.chan a = c.chan a) :
    d.planTargets a = c.planTargets a := by
  have hb : ∀ k, d.bit (calPlanReg a) k = c.bit (calPlanReg a) k := Chip.bit_of_reg _ hr
  unfold Chip.planTargets
  simp only [hb, hc]

theorem Chip.outOfService_congr (h : d.chd = c.chd) (a : Act) : d.outOfService a = c.outOfService a := by
  unfold Chip.outOfService Chip.retired
  rw [h]

theorem Keeps.chan_eq (h : Keeps ps c d) (a : Act) (hA : .chanA ∉ ps) (hB : .chanB ∉ ps) : d.chan a = c.chan a := by
  cases a
  · exact h.chanA hA
  · exact h.chanB hB

/-- An actuator in service with something to do calibrates. -/
theorem startCal_works {a : Act} (hs : c.outOfService a = false) (ht : c.planTargets a ≠ []) :
    (c.startCal a).sys.mode = .calibrate ∧ (c.startCal a).calibrating a = true := by
  have hs' : ¬(c.calOn a).outOfService a = true := by
    rw [Chip.outOfService_congr ((keeps_calOn a).chd (by decide)), hs]
    decide
  have ht' : (c.calOn a).planTargets a ≠ [] := by
    rwa [Chip.planTargets_congr ((OnlyRegs.of_regs (ks := []) (regs_calOn a)) _ List.not_mem_nil)
      ((keeps_calOn a).chan_eq a (by decide) (by decide))]
  rw [Chip.startCal_eq, if_neg hs']
  split
  · next h => exact absurd h ht'
  · refine ⟨?_, ?_⟩
    · rw [Chip.sys_setPlan]; rfl
    · cases a <;> rfl

/-- An actuator that calibrates goes on when the other is started. -/
theorem startCal_other {a b : Act} (hab : b ≠ a) (h : c.calibrating b = true) :
    (c.startCal a).sys.mode = .calibrate ∧ (c.startCal a).calibrating b = true := by
  have hon : (c.calOn a).calibrating b = true := calibrating_calOn_of a h
  have hfin : ∀ (r : CalRun) (n : Nat), n ≠ 5 → ((c.calOn a).finishPlan a r n).sys.mode = .calibrate ∧
      ((c.calOn a).finishPlan a r n).calibrating b = true := by
    intro r n hn
    have hb : (((c.calOn a).planClosed a r n).planReported a).calibrating b = true := by
      cases a <;> cases b <;> first | exact h | exact absurd rfl hab
    rw [Chip.finishPlan_eq a r hn, Chip.calLeaves_busy hb]
    exact ⟨by cases a <;> rfl, hb⟩
  rw [Chip.startCal_eq]
  split
  · exact hfin _ 4 (by decide)
  · split
    · exact hfin _ 1 (by decide)
    · refine ⟨by rw [Chip.sys_setPlan]; rfl, ?_⟩
      cases a <;> exact hon

/-- The selected actuators started, A before B. -/
def Chip.startCals (c : Chip) (a b : Bool) : Chip :=
  if b then (if a then c.startCal .A else c).startCal .B else if a then c.startCal .A else c

theorem startCals_frame (a b : Bool) : Keeps startCalParts c (c.startCals a b) ∧ OnlyRegs startCalRegs c (c.startCals a b) := by
  have hA : Keeps startCalParts c (if a then c.startCal .A else c) ∧ OnlyRegs startCalRegs c (if a then c.startCal .A else c) :=
    ⟨Keeps.ite (fun _ => (startCal_frame c .A).1) fun _ => Keeps.refl _ _,
      OnlyRegs.ite (fun _ => (startCal_frame c .A).2) fun _ => OnlyRegs.refl _ _⟩
  exact ⟨Keeps.ite (fun _ => hA.1.trans (startCal_frame _ .B).1) fun _ => hA.1,
    OnlyRegs.ite (fun _ => hA.2.trans (startCal_frame _ .B).2) fun _ => hA.2⟩

/-- Each selected actuator in service with something to do calibrates once both are started. -/
theorem startCals_works {a b : Bool} {x : Act} (hx : (if x = .A then a else b) = true) (hs : c.outOfService x = false)
    (ht : c.planTargets x ≠ []) : (c.startCals a b).sys.mode = .calibrate ∧ (c.startCals a b).calibrating x = true := by
  cases x with
  | A =>
    obtain rfl : a = true := hx
    obtain ⟨hm, hc⟩ := startCal_works hs ht
    cases b
    · exact ⟨hm, hc⟩
    · exact startCal_other (by decide) hc
  | B =>
    obtain rfl : b = true := hx
    cases a
    · exact startCal_works hs ht
    · obtain ⟨hk, ho⟩ := startCal_frame c .A
      exact startCal_works ((Chip.outOfService_congr (hk.chd (by decide)) .B).trans hs) fun h =>
        ht ((Chip.planTargets_congr (a := .B) (ho _ (by decide)) (hk.chanB (by decide))).symm.trans h)

theorem modeReqCalibrate_completes {s : State} (ha : s.chip.alive = true) (ht : s.chip.sys.trans = none)
    (hm : s.chip.sys.mode = .service) (a b : Bool) (hab : (a || b) = true) (h0 : s.chip.effective ≠ 0)
    (h4 : s.chip.effective ≠ 4) : CompletesThen (.modeReqCalibrate a b) s (fun d =>
      d.ModeAccepted ∧ d.bit R.SYS_MODE_REQ 4 = a ∧ d.bit R.SYS_MODE_REQ 5 = b ∧
      (∀ x ∈ [Act.A, Act.B], (if x = .A then a else b) = true → s.chip.outOfService x = false →
        s.chip.planTargets x ≠ [] → d.sys.mode = .calibrate ∧ d.calibrating x = true) ∧
      Keeps [.regs, .sys, .nvq, .loc, .pwr, .cal] s.chip d) := by
  let e := s.chip.modeAccepted 1 0 a b
  have hk : Keeps [.regs] s.chip e := keeps_modeAccepted
  have ho : OnlyRegs [R.SYS_MODE_REQ] s.chip e := onlyRegs_modeAccepted
  obtain ⟨hck, hco⟩ := startCals_frame (c := e) a b
  have hr : (e.startCals a b).reg R.SYS_MODE_REQ = e.reg R.SYS_MODE_REQ := hco _ (by decide)
  have h1 : s.chip.modeRefusal 1 0 a b = 0 := by
    rw [Chip.modeRefusal_calibrate ht hm, if_neg (by tauto), if_neg (by cases a <;> cases b <;> simp_all)]
  obtain ⟨hA, hB⟩ := s.chip.bits_modeAccepted (target := 1) (sub := 0) (calA := a) (calB := b)
  refine completesThen_eq rfl (modeReq_accepted ha h1) ⟨Chip.modeAccepted_of_reg hr Chip.modeAccepted_modeAccepted,
    (Chip.bit_of_reg _ hr 4).trans hA, (Chip.bit_of_reg _ hr 5).trans hB, fun x _ hx hs hp => ?_,
    (hk.mono (by decide)).trans hck⟩
  exact startCals_works (c := e) hx ((Chip.outOfService_congr (hk.chd (by decide)) x).trans hs) fun h =>
    hp ((Chip.planTargets_congr (ho _ (by cases x <;> decide)) (hk.chan_eq x (by decide) (by decide))).symm.trans h)

/-- Settles O16. -/
theorem modeRequestsFollowTheTable : Obligations.ModeRequestsFollowTheTable := by
  refine ⟨fun s ha ht hm => ⟨modeReqCalibrate_completes ha ht hm, modeReqRest_completes ha ht hm,
    modeReqRebuild_completes ha ht hm⟩, fun s ha ht hm => modeReqService_completes ha ht hm, fun s ha =>
    ⟨fun ht => ?_, fun ht hm => ?_, fun ht hm h4 => ?_, fun ht hm h0 h4 => ?_⟩⟩
  · exact modeReq_refused_completes (by decide) rfl ha (Chip.modeRefusal_busy ht)
  · exact modeReq_refused_completes (by decide) rfl ha ((Chip.modeRefusal_service ht).trans (if_neg hm))
  · exact modeReq_refused_completes (by decide) rfl ha ((Chip.modeRefusal_calibrate ht hm).trans (if_pos (.inr h4)))
  · refine modeReq_refused_completes (by decide) rfl ha ((Chip.modeRefusal_calibrate ht hm).trans ?_)
    rw [if_neg (by tauto)]
    rfl

end Sys2Proof.Machine
end

section
namespace Sys2Proof.Machine

variable {c d : Chip} {ps : List ChipPart} {ks : List Nat}

/-! ## The boot ROM's UART download (R57, R58, O15) -/

/-- The serial loader once a packet start has been seen: no more sync bytes. -/
def Chip.heard (c : Chip) : Chip := { c with uart := { c.uart with started := true } }

theorem keeps_heard (c : Chip) : Keeps [.uart] c c.heard := (Keeps.refl _ _).withUart _ (by decide)

theorem Keeps.setLoad (h : Keeps ps c d) (x : Option (List Byte)) (n : Nat) (hu : .uart ∈ ps) : Keeps ps c (d.setLoad x n) :=
  h.withUart _ hu

theorem Keeps.uartAck (h : Keeps ps c d) (ho : .out ∈ ps) : Keeps ps c d.uartAck := h.emit _ ho

theorem Keeps.uartNak (h : Keeps ps c d) (n : Nat) (ho : .out ∈ ps) : Keeps ps c (d.uartNak n) := (h.emit _ ho).emit _ ho

theorem Chip.out_uartNak (n : Nat) : (c.uartNak n).out = c.out ++ [.uart 0x15] ++ [.uart (BitVec.ofNat 8 n)] := rfl

theorem Chip.out_uartAck : c.uartAck.out = c.out ++ [.uart 0x06] := rfl

/-- A NAK of a loader that has heard a packet start. -/
theorem nak_completes {i : Instr} {s : State} {x : Chip} (hi : exec i s = s.next x) {e : Chip} {n : Nat}
    (hx : x = e.uartNak n) (hk : Keeps [.uart] s.chip e) : Completes i s (fun d =>
      d.out = s.chip.out ++ [.uart 0x15] ++ [.uart (BitVec.ofNat 8 n)] ∧ Keeps [.uart, .out] s.chip d) := by
  have ho : (e.uartNak n).out = s.chip.out ++ [.uart 0x15] ++ [.uart (BitVec.ofNat 8 n)] := by
    rw [Chip.out_uartNak, hk.out (by decide)]
  exact completes_eq hi hx ⟨(Chip.settle_out _).trans ho, ((hk.mono (by decide)).uartNak n (by decide)).settle⟩

/-! ### How a packet is answered -/

theorem packet_taken {typ : Nat} {p : List Byte} {act : Chip → List Byte → Chip} (ho : c.uartOpen = true)
    (h0 : leAt p 0 1 = 0xA5) (ht : leAt p 1 1 ∉ [1, 2, 3].erase typ) (h1 : typ ∈ [1, 2, 3]) : c.packet typ p act =
      if packetRefused p then c.heard.uartNak 2 else if !packetGood p then c.heard.uartNak 1
      else act c.heard (slice p 4 (leAt p 2 2)) := by
  unfold Chip.packet
  refine if_neg ?_
  rw [ho, h0]
  generalize leAt p 1 1 = t at ht
  simp only [List.mem_cons, List.not_mem_nil, or_false] at h1
  obtain rfl | rfl | rfl := h1 <;> simp at ht ⊢ <;> omega

theorem packet_good {typ : Nat} {p : List Byte} {act : Chip → List Byte → Chip} (ho : c.uartOpen = true)
    (h0 : leAt p 0 1 = 0xA5) (ht : leAt p 1 1 = typ) (h1 : typ ∈ [1, 2, 3]) (hr : packetRefused p = false)
    (hg : packetGood p = true) : c.packet typ p act = act c.heard (slice p 4 (leAt p 2 2)) := by
  have hn : leAt p 1 1 ∉ [1, 2, 3].erase typ := by
    rw [ht]
    simp only [List.mem_cons, List.not_mem_nil, or_false] at h1
    obtain rfl | rfl | rfl := h1 <;> decide
  rw [packet_taken ho h0 hn h1, if_neg (by simp [hr]), if_neg (by simp [hg])]

/-- A packet of a TYPE that no other command takes, refused by its TYPE or LEN, or with a wrong CRC. -/
theorem packet_refused_completes {typ : Nat} {p : List Byte} {act : Chip → List Byte → Chip} {i : Instr} {s : State}
    (hi : exec i s = s.next (s.chip.packet typ p act)) (ho : s.chip.uartOpen = true) (h0 : leAt p 0 1 = 0xA5)
    (ht : leAt p 1 1 ∉ [1, 2, 3].erase typ) (h1 : typ ∈ [1, 2, 3]) :
    (packetRefused p = true → Completes i s (fun d =>
      d.out = s.chip.out ++ [.uart 0x15] ++ [.uart 2] ∧ Keeps [.uart, .out] s.chip d)) ∧
    (packetRefused p = false → packetGood p = false → Completes i s (fun d =>
      d.out = s.chip.out ++ [.uart 0x15] ++ [.uart 1] ∧ Keeps [.uart, .out] s.chip d)) := by
  refine ⟨fun hr => nak_completes hi ((packet_taken ho h0 ht h1).trans ?_) (keeps_heard _),
    fun hr hg => nak_completes hi ((packet_taken ho h0 ht h1).trans ?_) (keeps_heard _)⟩
  · exact if_pos hr
  · exact (if_neg (by simp [hr])).trans (if_pos (by simp [hg]))

/-! ### HEADER -/

theorem headerLen {p : List Byte} (ht : leAt p 1 1 = 1) (hr : packetRefused p = false) : leAt p 2 2 = 256 := by
  unfold packetRefused at hr
  rw [ht] at hr
  simpa using hr

theorem takeHeader_good {h : List Byte} {g : Bool} (hs : c.headerStep h g = 0) :
    c.takeHeader g h = (c.setLoad (some h) 0).uartAck := by
  unfold Chip.takeHeader
  rw [hs]
  rfl

theorem takeHeader_bad {h : List Byte} {g : Bool} {n : Nat} (hs : c.headerStep h g = n) (hn : n ≠ 0) :
    c.takeHeader g h = (c.setLoad none 0).uartNak (if n = 4 then 5 else 4) := by
  unfold Chip.takeHeader
  rw [hs]
  obtain ⟨m, rfl⟩ := Nat.exists_eq_succ_of_ne_zero hn
  rfl

theorem uartHeader_completes (s : State) (p : List Byte) (g : Bool) (ho : s.chip.uartOpen = true)
    (h0 : leAt p 0 1 = 0xA5) (ht : leAt p 1 1 = 1) (hr : packetRefused p = false) (hg : packetGood p = true) :
    Completes (.uartHeader p g) s (fun d =>
      (s.chip.heard.headerStep (slice p 4 256) g = 0 →
        d.uart = ⟨true, some (slice p 4 256), 0⟩ ∧ d.out = s.chip.out ++ [.uart 0x06]) ∧
      (s.chip.heard.headerStep (slice p 4 256) g ≠ 0 → d.uart = ⟨true, none, 0⟩ ∧
        d.out = s.chip.out ++ [.uart 0x15] ++
          [.uart (if s.chip.heard.headerStep (slice p 4 256) g = 4 then 5 else 4)]) ∧
      Keeps [.uart, .out] s.chip d) := by
  let e := s.chip.heard
  have hp : s.chip.packet 1 p (fun c bs => c.takeHeader g bs) = e.takeHeader g (slice p 4 256) :=
    (packet_good ho h0 ht (by decide) hr hg).trans (by rw [headerLen ht hr])
  generalize slice p 4 256 = h at hp
  have hk : Keeps [.uart, .out] s.chip e := (keeps_heard _).mono (by decide)
  by_cases hn : e.headerStep h g = 0
  · exact completes_eq rfl (hp.trans (takeHeader_good hn)) ⟨fun _ => ⟨rfl, rfl⟩, fun h => absurd hn h,
      ((hk.setLoad _ _ (by decide)).uartAck (by decide)).settle⟩
  · refine completes_eq rfl (hp.trans (takeHeader_bad rfl hn)) ⟨fun h => absurd h hn, fun _ => ⟨rfl, ?_⟩,
      ((hk.setLoad _ _ (by decide)).uartNak _ (by decide)).settle⟩
    refine (Chip.out_uartNak (c := e.setLoad none 0) _).trans ?_
    refine congrArg (fun b => s.chip.out ++ [Out.uart 0x15] ++ [Out.uart b]) ?_
    split <;> rfl

/-! ### DATA -/

theorem packetGood_length {p : List Byte} (hg : packetGood p = true) : 8 + leAt p 2 2 ≤ p.length := by
  simp only [packetGood, Bool.and_eq_true, decide_eq_true_eq] at hg
  exact hg.1

theorem dataLen {p : List Byte} (ht : leAt p 1 1 = 2) (hr : packetRefused p = false) : 5 ≤ leAt p 2 2 := by
  unfold packetRefused at hr
  rw [ht] at hr
  simp only [Bool.or_eq_false_iff, decide_eq_false_iff_not] at hr
  omega

theorem leAt_slice {p : List Byte} {a n : Nat} (h : 4 ≤ n) : leAt (slice p a n) 0 4 = leAt p a 4 := by
  unfold leAt slice
  rw [List.drop_zero, List.take_take, min_eq_left h]

theorem drop_slice (p : List Byte) (a k n : Nat) : (slice p a n).drop k = slice p (a + k) (n - k) := by
  unfold slice
  rw [List.drop_take, List.drop_drop]

theorem length_slice {p : List Byte} {a n : Nat} (h : a + n ≤ p.length) : (slice p a n).length = n := by
  unfold slice
  rw [List.length_take, List.length_drop]
  omega

theorem takeData_eq {p h : List Byte} (ht : leAt p 1 1 = 2) (hr : packetRefused p = false) (hg : packetGood p = true)
    (hh : c.uart.header = some h) : c.takeData (slice p 4 (leAt p 2 2)) =
      if leAt p 4 4 ≠ c.uart.received ∨ leAt h 12 4 < leAt p 4 4 + (leAt p 2 2 - 4) then c.uartNak 3
      else ((c.writeRange (leAt h 16 8 + leAt p 4 4) (slice p 8 (leAt p 2 2 - 4))).setLoad (some h)
        (leAt p 4 4 + (leAt p 2 2 - 4))).uartAck := by
  have h5 := dataLen ht hr
  have hl := packetGood_length hg
  unfold Chip.takeData
  rw [hh]
  dsimp only
  rw [leAt_slice (by omega), drop_slice, length_slice (by omega)]

theorem uartData_completes (s : State) (p h : List Byte) (ho : s.chip.uartOpen = true) (h0 : leAt p 0 1 = 0xA5)
    (ht : leAt p 1 1 = 2) (hr : packetRefused p = false) (hg : packetGood p = true)
    (hh : s.chip.uart.header = some h) :
    (leAt p 4 4 = s.chip.uart.received → leAt p 4 4 + (leAt p 2 2 - 4) ≤ leAt h 12 4 →
      Completes (.uartData p) s (fun d =>
        d.uart = ⟨true, some h, leAt p 4 4 + (leAt p 2 2 - 4)⟩ ∧ d.out = s.chip.out ++ [.uart 0x06] ∧
        d.mem = (s.chip.heard.writeRange (leAt h 16 8 + leAt p 4 4) (slice p 8 (leAt p 2 2 - 4))).mem ∧
        Keeps [.regs, .pwr, .evr, .uart, .mem, .out] s.chip d)) ∧
    (leAt p 4 4 ≠ s.chip.uart.received ∨ leAt h 12 4 < leAt p 4 4 + (leAt p 2 2 - 4) →
      Completes (.uartData p) s (fun d =>
        d.out = s.chip.out ++ [.uart 0x15] ++ [.uart 3] ∧ Keeps [.uart, .out] s.chip d)) := by
  let e := s.chip.heard
  have hp := (packet_good (act := Chip.takeData) ho h0 ht (by decide) hr hg).trans (takeData_eq (c := e) ht hr hg hh)
  generalize leAt p 4 4 = off at hp ⊢
  generalize leAt p 2 2 - 4 = n at hp ⊢
  refine ⟨fun h1 h2 => ?_, fun hb => nak_completes rfl (hp.trans (if_pos hb)) (keeps_heard _)⟩
  let w := e.writeRange (leAt h 16 8 + off) (slice p 8 n)
  have hw : Keeps accessParts e w := (Keeps.refl _ _).writeRange _ _
  have hk : Keeps [.regs, .pwr, .evr, .uart, .mem, .out] s.chip w :=
    ((keeps_heard _).mono (by decide)).trans (hw.mono (by decide))
  have hu : w.uart = e.uart := hw.uart (by decide)
  have hu' : (w.setLoad (some h) (off + n)).uartAck.uart = ⟨true, some h, off + n⟩ := by
    show { w.uart with header := some h, received := off + n } = _
    rw [hu]
    rfl
  have ho' : w.uartAck.out = s.chip.out ++ [.uart 0x06] := by rw [Chip.out_uartAck, hw.out (by decide)]; rfl
  exact completes_eq rfl (hp.trans (if_neg (not_or.2 ⟨not_not.2 h1, not_lt.2 h2⟩))) ⟨hu', ho', rfl,
    ((hk.setLoad _ _ (by decide)).uartAck (by decide)).settle⟩

theorem takeData_noHeader (h : c.uart.header = none) (bs : List Byte) : c.takeData bs = c.uartNak 3 := by
  unfold Chip.takeData
  rw [h]

/-! ### RUN -/

theorem takeRun_noHeader (h : c.uart.header = none) (bs : List Byte) : c.takeRun bs = c.uartNak 3 := by
  unfold Chip.takeRun
  rw [h]

theorem takeRun_eq {h : List Byte} (hh : c.uart.header = some h) (bs : List Byte) : c.takeRun bs =
    if (c.readRange (leAt h 16 8) (leAt h 12 4)).2.2.uart.received = leAt h 12 4 ∧
        !(c.readRange (leAt h 16 8) (leAt h 12 4)).2.1 ∧ imageDigest h (c.readRange (leAt h 16 8) (leAt h 12 4)).1
    then (c.readRange (leAt h 16 8) (leAt h 12 4)).2.2.uartAck.enterImage
    else ((c.readRange (leAt h 16 8) (leAt h 12 4)).2.2.setLoad none 0).uartNak 5 := by
  unfold Chip.takeRun
  rw [hh]

/-- The register that enables the watchdog with 5,000 ms (R50). -/
def wdogBoot : Word := BitVec.ofNat 32 (2 ^ 31 + 4999)

theorem Chip.withSys_reg (c : Chip) (x : Sys) (k : Nat) : ({ c with sys := x } : Chip).reg k = c.reg k := rfl

theorem Chip.enterImage_eq (c : Chip) : c.enterImage =
    ({ c.setReg R.SYS_WDOG_CTRL wdogBoot with sys := { c.sys with wdogFrom := c.dtm.dtime } } : Chip).step 9 := rfl

theorem keeps_enterImage (c : Chip) : Keeps [.regs, .sys] c c.enterImage :=
  (((Keeps.refl _ _).setReg _ _ (by decide)).withSys _ (by decide)).bootStepTo 9 (by decide)

theorem onlyRegs_enterImage (c : Chip) : OnlyRegs [R.SYS_WDOG_CTRL, R.SYS_BOOT_STEP] c c.enterImage := by
  have h1 : OnlyRegs [R.SYS_WDOG_CTRL, R.SYS_BOOT_STEP] c (c.setReg R.SYS_WDOG_CTRL wdogBoot) :=
    (OnlyRegs.refl _ _).setReg _ _ (by decide)
  exact (h1.trans (Chip.onlyRegs_withSys _ { c.sys with wdogFrom := c.dtm.dtime })).bootStepTo 9 (by decide)

theorem Chip.reg_enterImage (c : Chip) :
    c.enterImage.reg R.SYS_WDOG_CTRL = wdogBoot ∧ c.enterImage.reg R.SYS_BOOT_STEP = 9 := by
  rw [Chip.enterImage_eq]
  exact ⟨(Chip.reg_bootStep_ne 9 (by decide)).trans ((Chip.withSys_reg _ _ _).trans (Chip.reg_setReg_self _ _ _)),
    Chip.reg_bootStep _ 9⟩

theorem Chip.sys_enterImage (c : Chip) : c.enterImage.sys = { c.sys with wdogFrom := c.dtm.dtime } := rfl

theorem Chip.wdog_enterImage (c : Chip) : c.enterImage.bit R.SYS_WDOG_CTRL 31 = true := by
  rw [Chip.bit, c.reg_enterImage.1]
  decide

theorem uartRun_completes (s : State) (p h : List Byte) (ho : s.chip.uartOpen = true) (h0 : leAt p 0 1 = 0xA5)
    (ht : leAt p 1 1 = 3) (hr : packetRefused p = false) (hg : packetGood p = true)
    (hh : s.chip.uart.header = some h) :
    (s.chip.uart.received ≠ leAt h 12 4 → Completes (.uartRun p) s (fun d =>
      d.out = s.chip.out ++ [.uart 0x15] ++ [.uart 5] ∧
      Keeps [.regs, .pwr, .evr, .uart, .mem, .out] s.chip d)) ∧
    (s.chip.uart.received = leAt h 12 4 → (s.chip.heard.readRange (leAt h 16 8) (leAt h 12 4)).2.1 = false →
      imageDigest h (s.chip.heard.readRange (leAt h 16 8) (leAt h 12 4)).1 = true →
    Completes (.uartRun p) s (fun d =>
      d.out = s.chip.out ++ [.uart 0x06] ∧ d.reg R.SYS_BOOT_STEP = 9 ∧ d.bit R.SYS_WDOG_CTRL 31 = true ∧
      d.sys = { s.chip.sys with wdogFrom := s.chip.dtm.dtime } ∧
      Keeps [.regs, .pwr, .sys, .evr, .uart, .mem, .out] s.chip d)) := by
  let e := s.chip.heard
  have hp := (packet_good (act := Chip.takeRun) ho h0 ht (by decide) hr hg).trans (takeRun_eq (c := e) hh _)
  have hw : Keeps accessParts e (e.readRange (leAt h 16 8) (leAt h 12 4)).2.2 := (Keeps.refl _ _).readRange _ _
  have hw' : Keeps [.regs, .pwr, .evr, .uart, .mem, .out] s.chip (e.readRange (leAt h 16 8) (leAt h 12 4)).2.2 :=
    ((keeps_heard _).mono (by decide)).trans (hw.mono (by decide))
  show (_ → _) ∧ (_ → (e.readRange (leAt h 16 8) (leAt h 12 4)).2.1 = false → _)
  generalize e.readRange (leAt h 16 8) (leAt h 12 4) = r at hp hw hw' ⊢
  have hu : r.2.2.uart.received = s.chip.uart.received := by rw [hw.uart (by decide)]; rfl
  refine ⟨fun hn => ?_, fun hn hf hd => ?_⟩
  · have hx := hp.trans (if_neg fun hc => hn (hu.symm.trans hc.1))
    have ho' : ((r.2.2.setLoad none 0).uartNak 5).out = s.chip.out ++ [.uart 0x15] ++ [.uart 5] :=
      (Chip.out_uartNak 5).trans (congrArg (fun o => o ++ [Out.uart 0x15] ++ [Out.uart 5]) (hw.out (by decide)))
    exact completes_eq rfl hx ⟨ho', ((hw'.setLoad _ _ (by decide)).uartNak 5 (by decide)).settle⟩
  · have hx := hp.trans (if_pos ⟨hu.trans hn, by rw [hf]; rfl, hd⟩)
    have ho' : r.2.2.uartAck.enterImage.out = s.chip.out ++ [.uart 0x06] :=
      (congrArg (fun o => o ++ [Out.uart 0x06]) (hw.out (by decide)))
    have hs : r.2.2.uartAck.enterImage.sys = { s.chip.sys with wdogFrom := s.chip.dtm.dtime } := by
      rw [Chip.sys_enterImage]
      show { r.2.2.sys with wdogFrom := r.2.2.dtm.dtime } = _
      rw [hw'.sys (by decide), hw'.dtm (by decide)]
    have hk : Keeps [.regs, .pwr, .sys, .evr, .uart, .mem, .out] s.chip r.2.2.uartAck :=
      (hw'.mono (by decide)).uartAck (by decide)
    exact completes_eq rfl hx ⟨ho', r.2.2.uartAck.reg_enterImage.2, r.2.2.uartAck.wdog_enterImage, hs,
      (hk.trans ((keeps_enterImage _).mono (by decide))).settle⟩

/-- Settles O15. -/
theorem uartDownloadAnswersEveryPacket : Obligations.UartDownloadAnswersEveryPacket := by
  refine ⟨fun s ho hs => ?_, fun s hs => ?_, fun s ho => ?_, uartHeader_completes, uartData_completes,
    fun s p ho h0 ht hr hg hn => ?_, uartRun_completes, fun s p ho h0 ht hr hg hn => ?_, fun s p g ho h0 e he ht => ?_⟩
  · exact completes_eq rfl (if_pos (by simp [ho, hs])) ⟨rfl, ((Keeps.refl _ _).emit _ (by decide)).settle⟩
  · exact completes_eq rfl (if_neg (by simp [hs])) rfl
  · exact completes_eq rfl (if_pos ho) ⟨rfl, rfl, (((keeps_heard s.chip).mono (by decide)).uartNak 6 (by decide)).settle⟩
  · exact nak_completes rfl ((packet_good ho h0 ht (by decide) hr hg).trans (takeData_noHeader (c := s.chip.heard) hn _)) (keeps_heard _)
  · exact nak_completes rfl ((packet_good ho h0 ht (by decide) hr hg).trans (takeRun_noHeader (c := s.chip.heard) hn _)) (keeps_heard _)
  · simp only [List.mem_cons, List.not_mem_nil, or_false] at he
    obtain rfl | rfl | rfl := he
    · exact packet_refused_completes rfl ho h0 ht (by decide)
    · exact packet_refused_completes rfl ho h0 ht (by decide)
    · exact packet_refused_completes rfl ho h0 ht (by decide)

end Sys2Proof.Machine
end

section
namespace Sys2Proof.Machine

variable {c d : Chip} {ps : List ChipPart} {ks : List Nat}

/-! ## Step 9: the slots of the octal NOR (R49, R50, R59, O13)

FIRMWARE_IMAGE_LOADED writes OSP_MODE before it reads the slots. `Alike` says that two chips agree but for that
register, which the memory accesses do not read. -/

/-- The chips agree in every part and every register but OSP_MODE. -/
def Alike (c d : Chip) : Prop := Keeps [.regs] c d ∧ OnlyRegs [R.OSP_MODE] c d

theorem Alike.reg (h : Alike c d) {k : Nat} (hk : k ≠ R.OSP_MODE) : d.reg k = c.reg k := h.2 k (by simpa using hk)

theorem Alike.mem (h : Alike c d) : d.mem = c.mem := h.1.mem (by decide)

theorem Alike.bit (h : Alike c d) {k : Nat} (hk : k ≠ R.OSP_MODE) (i : Nat) : d.bit k i = c.bit k i :=
  Chip.bit_of_reg c (h.reg hk) i

theorem Alike.fld (h : Alike c d) {k : Nat} (hk : k ≠ R.OSP_MODE) (hi lo : Nat) : d.fld k hi lo = c.fld k hi lo :=
  Chip.fld_of_reg c (h.reg hk) hi lo

theorem Alike.setReg (h : Alike c d) (k : Nat) (v : Word) : Alike (c.setReg k v) (d.setReg k v) := by
  refine ⟨fun p hp => ?_, fun j hj => ?_⟩
  · have hs := h.1 p hp
    cases p <;> first | exact hs | exact absurd (by decide) hp
  · rw [Chip.reg_setReg, Chip.reg_setReg, h.2 j hj]

theorem Alike.setReg' (h : Alike c d) (k : Nat) {v w : Word} (hv : w = v) : Alike (c.setReg k v) (d.setReg k w) :=
  hv ▸ h.setReg k v

theorem Alike.setFld (h : Alike c d) {k : Nat} (hk : k ≠ R.OSP_MODE) (hi lo n : Nat) :
    Alike (c.setFld k hi lo n) (d.setFld k hi lo n) := h.setReg' k (by rw [h.reg hk])

theorem Alike.setBit (h : Alike c d) {k : Nat} (hk : k ≠ R.OSP_MODE) (i : Nat) (b : Bool) :
    Alike (c.setBit k i b) (d.setBit k i b) := h.setReg' k (by rw [h.reg hk])

theorem Alike.bump (h : Alike c d) {k : Nat} (hk : k ≠ R.OSP_MODE) : Alike (c.bump k) (d.bump k) :=
  h.setReg' k (by rw [h.reg hk])

theorem Alike.setMem (h : Alike c d) (x : Mem) : Alike { c with mem := x } { d with mem := x } := by
  refine ⟨fun p hp => ?_, h.2⟩
  have hs := h.1 p hp
  cases p <;> first | rfl | exact hs

theorem Alike.setEvr (h : Alike c d) (x : Evr) : Alike { c with evr := x } { d with dtm := c.dtm, evr := x } := by
  refine ⟨fun p hp => ?_, h.2⟩
  have hs := h.1 p hp
  cases p <;> first | rfl | exact hs

theorem Alike.setPwr (h : Alike c d) (x : Pwr) : Alike { c with pwr := x } { d with pwr := x } := by
  refine ⟨fun p hp => ?_, h.2⟩
  have hs := h.1 p hp
  cases p <;> first | rfl | exact hs

theorem Alike.wake (h : Alike c d) (page : Nat) : Alike (c.wake page) (d.wake page) := by
  rw [Chip.wake, Chip.wake, h.1.pwr (by decide)]
  exact h.setPwr _

theorem Alike.raise (h : Alike c d) {page : Nat} (hp : pIntStatus page ≠ R.OSP_MODE) (i : Nat) :
    Alike (c.raise page i) (d.raise page i) := (h.setBit hp i true).wake page

theorem Alike.setFldSat (h : Alike c d) {k : Nat} (hk : k ≠ R.OSP_MODE) (hi lo m : Nat) :
    Alike (c.setFld k hi lo (satSucc (c.fld k hi lo) m)) (d.setFld k hi lo (satSucc (d.fld k hi lo) m)) := by
  rw [h.fld hk]
  exact h.setFld hk hi lo _

theorem Alike.countDrop (h : Alike c d) (e : Event) : Alike (c.countDrop false e) (d.countDrop false e) := by
  unfold Chip.countDrop
  rw [h.1.evr (by decide), h.1.dtm (by decide)]
  dsimp only
  exact Alike.raise (page := 0x04) ((h.setEvr _).setFldSat (k := R.EVR_DROPPED) (by decide) 15 0 0xFFFF) (by decide) 1

theorem Alike.handOver (h : Alike c d) (e : Event) : Alike (c.handOver e) (d.handOver e) := by
  unfold Chip.handOver
  rw [h.1.dtm (by decide), h.1.evr (by decide)]
  split
  · exact h
  · split
    · split
      · exact h.setEvr _
      · split
        · exact h.setEvr _
        · exact (h.setEvr _).countDrop _
    · exact h.setEvr _

theorem Alike.event (h : Alike c d) (code : Nat) (items : List Nat) : Alike (c.event code items) (d.event code items) := by
  unfold Chip.event
  rw [h.1.dtm (by decide)]
  exact h.handOver _

theorem Alike.eccLast (h : Alike c d) (a : Nat) (s : BitVec 8) (bit : Nat) : Alike (c.eccLast a s bit) (d.eccLast a s bit) := by
  unfold Chip.eccLast
  cases eccOf a <;> exact (h.setReg _ _).setReg _ _

theorem Alike.hardFault (h : Alike c d) (a : Nat) : Alike (c.hardFault a) (d.hardFault a) := by
  unfold Chip.hardFault
  cases eccOf a <;> exact (((h.bump (by decide)).setReg _ _).raise (by decide) _).event _ _

theorem Alike.trackCorrection (h : Alike c d) (a : Nat) : Alike (c.trackCorrection a) (d.trackCorrection a) := by
  unfold Chip.trackCorrection
  rw [h.mem]
  generalize eccOf a = e
  dsimp only
  split
  · split
    · exact h
    · exact (h.setMem _).hardFault a
  · split
    · exact h.setMem _
    · have hm := h.setMem (c.mem.setTracks e ((c.mem.tracks e).drop 1 ++ [Track.mk (a / 8 * 8) false]))
      cases e
      · exact (hm.setFldSat (k := R.MEC_TRACK) (by decide) 31 16 0xFFFF).raise (by decide) _
      · exact (hm.setFldSat (k := R.SEE_TRACK) (by decide) 31 16 0xFFFF).raise (by decide) _

theorem Alike.underTest (h : Alike c d) (a : Nat) : d.underTest a = c.underTest a := by
  unfold Chip.underTest
  rw [h.bit (by decide), h.fld (by decide), h.reg (by decide), h.bit (by decide), h.reg (by decide)]

/-- A word read gives the same bits and leaves the chips alike. -/
theorem Alike.readWord (h : Alike c d) (a : Nat) : (d.readWord a).1 = (c.readWord a).1 ∧
    (d.readWord a).2.1 = (c.readWord a).2.1 ∧ Alike (c.readWord a).2.2 (d.readWord a).2.2 := by
  have hcorr : (eccOf a).corr ≠ R.OSP_MODE := by cases eccOf a <;> decide
  have huncorr : (eccOf a).uncorr ≠ R.OSP_MODE := by cases eccOf a <;> decide
  have hseen : (eccOf a).seen ≠ R.OSP_MODE := by cases eccOf a <;> decide
  have hpage : pIntStatus (eccOf a).page ≠ R.OSP_MODE := by cases eccOf a <;> decide
  unfold Chip.readWord
  rw [h.mem]
  dsimp only
  split
  · exact ⟨rfl, rfl, h⟩
  · next bit _ =>
    have hc := (h.bump hcorr).eccLast a (c.mem.syndAt a) bit
    rw [hc.underTest a, hc.mem]
    split
    · exact ⟨rfl, rfl, hc⟩
    · exact ⟨rfl, rfl, (hc.setMem _).trackCorrection a⟩
  · exact ⟨rfl, rfl, h.bump hseen⟩
  · rw [h.underTest a]
    split
    · exact ⟨rfl, rfl, (h.bump huncorr).eccLast _ _ _⟩
    · exact ⟨rfl, rfl, ((((h.setMem _).bump huncorr).eccLast _ _ _).raise hpage 0).event _ _⟩

theorem Alike.writeInWord (h : Alike c d) (a : Nat) (bs : List Byte) : Alike (c.writeInWord a bs) (d.writeInWord a bs) := by
  unfold Chip.writeInWord
  rw [h.mem]
  obtain ⟨h1, h2, h3⟩ := h.readWord a
  dsimp only
  split
  · exact h.setMem _
  · rw [h1, h2, h3.mem]
    exact h3.setMem _

theorem Alike.writeRangeAux (n : Nat) : ∀ {c d : Chip} (_ : Alike c d) (a : Nat) (bs : List Byte),
    Alike (c.writeRangeAux a bs n) (d.writeRangeAux a bs n) := by
  induction n with
  | zero => exact fun h _ _ => h
  | succ n ih =>
    intro c d h a bs
    unfold Chip.writeRangeAux
    split
    · exact h
    · exact ih (h.writeInWord _ _) _ _

theorem Alike.writeRange (h : Alike c d) (a : Nat) (bs : List Byte) : Alike (c.writeRange a bs) (d.writeRange a bs) :=
  Alike.writeRangeAux _ h a bs

/-! ### What a slot's checks read -/

theorem Chip.slotStep_congr (hl : d.lcs = c.lcs) (hf : d.fuses = c.fuses) (hm : d.mem = c.mem) (x : SlotImage) :
    d.slotStep x = c.slotStep x := by
  have he : d.effective = c.effective := by unfold Chip.effective; rw [hl]
  have hh : ∀ b g, d.headerStep b g = c.headerStep b g := fun b g => by
    unfold Chip.headerStep Chip.imageFields Chip.imageKey Chip.imageSigned Chip.inDram
    rw [he, hf, hm]
  unfold Chip.slotStep
  rw [hh, he]

theorem Alike.slotStep (h : Alike c d) (x : SlotImage) : d.slotStep x = c.slotStep x :=
  Chip.slotStep_congr (h.1.lcs (by decide)) (h.1.fuses (by decide)) h.mem x

theorem Alike.loadSlot (h : Alike c d) (x : SlotImage) : Alike (c.loadSlot x) (d.loadSlot x) := by
  unfold Chip.loadSlot
  rw [h.slotStep]
  dsimp only
  split
  · exact h.writeRange _ _
  · exact h

theorem Keeps.loadSlot (h : Keeps accessParts c d) (x : SlotImage) : Keeps accessParts c (d.loadSlot x) :=
  Keeps.ite (fun _ => h.writeRange _ _) fun _ => h

theorem Chip.group_congr (hm : d.mram = c.mram) (n : Nat) : d.group n = c.group n := by
  have hs : ∀ k, d.slotBytes k = c.slotBytes k := fun k => by
    unfold Chip.slotBytes Chip.mramWord
    rw [hm]
  unfold Chip.group
  rw [hs, hs]

theorem Alike.firstSlot (h : Alike c d) : d.firstSlot = c.firstSlot := by
  have hg := Chip.group_congr (h.1.mram (by decide)) (bootGroup 0)
  unfold Chip.firstSlot Chip.activeSlot Chip.bootField
  rw [hg]

theorem Chip.activeSlot_eq (c : Chip) : c.activeSlot = 1 ∨ c.activeSlot = 2 := by
  unfold Chip.activeSlot
  split
  · split <;> simp
  · exact .inl rfl

theorem Chip.firstSlot_eq (c : Chip) : c.firstSlot.1 = 1 ∨ c.firstSlot.1 = 2 := by
  have h := c.activeSlot_eq
  unfold Chip.firstSlot
  dsimp only
  split <;> dsimp only <;> omega

/-! ### The outcome of step 9 -/

/-- OSP_MODE as step 9 writes it: the NOR's part and its size. -/
def Chip.norSeen (c : Chip) (nor log2 : Nat) : Chip := c.setReg R.OSP_MODE (BitVec.ofNat 32 (nor + log2 % 256 * 256))

theorem alike_norSeen (nor log2 : Nat) : Alike c (c.norSeen nor log2) :=
  ⟨(Keeps.refl _ _).setReg _ _ (by decide), (OnlyRegs.refl _ _).setReg _ _ (by decide)⟩

/-- The slot's image entered, with the boot record written before it (R49). -/
def Chip.slotEntered (c : Chip) (n att last stored pcc : Nat) (slots : Nat × Nat) : Chip :=
  let b := c.writeBootRecord n att last stored pcc
  ({ b with nvq := { b.nvq with fwSlot1 := slots.1, fwSlot2 := slots.2, fwRunning := n } }).enterImage

/-- Both slots failed, or the NOR is missing. -/
def Chip.slotsFailed (c : Chip) : Chip :=
  ((Chip.recordBootFail { c with sys := { c.sys with bootFailed := true } } 4).setCfs).step 0xF

/-- The parts and registers that step 9 changes beside the reading of the bodies. -/
def Step9 (c d : Chip) : Prop :=
  OnlyRegs [R.OSP_MODE, R.SYS_WDOG_CTRL, R.SYS_BOOT_STEP, R.SYS_ALERT] c d ∧ Keeps [.regs, .sys, .mram, .jnl, .nvq] c d

theorem Alike.step9 (h : Alike c d) {e : Chip} (g : Step9 d e) : Step9 c e :=
  ⟨(h.2.mono (by decide)).trans g.1, (h.1.mono (by decide)).trans g.2⟩

theorem keeps_slotRecorded (c : Chip) (n att last stored pcc : Nat) (x : Nvq) : Keeps [.mram, .nvq] c
    { c.writeBootRecord n att last stored pcc with nvq := x } :=
  ((Keeps.refl _ _).writeBootRecord _ _ _ _ _ (by decide)).withNvq _ (by decide)

theorem step9_slotEntered (n att last stored pcc : Nat) (v : Nat × Nat) :
    Step9 c (c.slotEntered n att last stored pcc v) := by
  have hk := keeps_slotRecorded c n att last stored pcc
    { (c.writeBootRecord n att last stored pcc).nvq with fwSlot1 := v.1, fwSlot2 := v.2, fwRunning := n }
  exact ⟨OnlyRegs.trans (fun k _ => hk.reg (by decide) k) ((onlyRegs_enterImage _).mono (by decide)),
    (hk.mono (by decide)).trans ((keeps_enterImage _).mono (by decide))⟩

theorem Chip.sys_slotEntered (n att last stored pcc : Nat) (v : Nat × Nat) :
    (c.slotEntered n att last stored pcc v).sys = { c.sys with wdogFrom := c.dtm.dtime } := by
  have hk := keeps_slotRecorded c n att last stored pcc
    { (c.writeBootRecord n att last stored pcc).nvq with fwSlot1 := v.1, fwSlot2 := v.2, fwRunning := n }
  refine (Chip.sys_enterImage _).trans ?_
  rw [hk.sys (by decide), hk.dtm (by decide)]

theorem Chip.nvq_slotEntered (n att last stored pcc : Nat) (v : Nat × Nat) :
    (c.slotEntered n att last stored pcc v).nvq.fwRunning = n := rfl

theorem Chip.reg_slotEntered (n att last stored pcc : Nat) (v : Nat × Nat) :
    (c.slotEntered n att last stored pcc v).reg R.SYS_WDOG_CTRL = wdogBoot ∧
    (c.slotEntered n att last stored pcc v).reg R.SYS_BOOT_STEP = 9 := Chip.reg_enterImage _

/-- A slot that is entered: the watchdog, the running slot, the step. -/
def Entered (t : Sys) (n : Nat) (c d : Chip) : Prop :=
  d.reg R.SYS_BOOT_STEP = 9 ∧ d.nvq.fwRunning = n ∧ d.sys = t ∧
  d.bit R.SYS_WDOG_CTRL 31 = true ∧ d.fld R.SYS_WDOG_CTRL 15 0 = 4999 ∧
  OnlyRegs [R.OSP_MODE, R.SYS_WDOG_CTRL, R.SYS_BOOT_STEP, R.SYS_ALERT] c d ∧
  Keeps [.regs, .sys, .mram, .jnl, .nvq] c d

theorem wdogBoot_fields : wdogBoot.getLsbD 31 = true ∧ field wdogBoot 15 0 = 4999 := by decide

theorem entered_slotEntered {b : Chip} (h : Alike b c) (n att last stored pcc : Nat) (v : Nat × Nat) :
    Entered { b.sys with wdogFrom := b.dtm.dtime } n b (c.slotEntered n att last stored pcc v).settle := by
  obtain ⟨hw, hb⟩ := Chip.reg_slotEntered (c := c) n att last stored pcc v
  obtain ⟨h1, h2⟩ := wdogBoot_fields
  obtain ⟨ho, hk⟩ := h.step9 (step9_slotEntered n att last stored pcc v)
  have hs := Chip.sys_slotEntered (c := c) n att last stored pcc v
  have hn := Chip.nvq_slotEntered (c := c) n att last stored pcc v
  rw [h.1.sys (by decide), h.1.dtm (by decide)] at hs
  generalize c.slotEntered n att last stored pcc v = e at hw hb ho hk hs hn ⊢
  refine ⟨(Chip.reg_settle _ _).trans hb, (congrArg Nvq.fwRunning (Chip.settle_nvq e)).trans hn, (Chip.settle_sys e).trans hs,
    ?_, ?_, ho.settle, hk.settle⟩
  · rw [Chip.bit_settle, Chip.bit, hw]; exact h1
  · rw [Chip.fld_settle, Chip.fld, hw]; exact h2

theorem Chip.slotsFailed_spec (c : Chip) : c.slotsFailed.reg R.SYS_BOOT_STEP = 0xF ∧
    c.slotsFailed.bit R.SYS_ALERT 1 = true ∧ c.slotsFailed.nvq.c1.cfs = true ∧ c.slotsFailed.nvq.c2.cfs = true ∧
    c.slotsFailed.sys = { c.sys with bootFailed := true } ∧ Step9 c c.slotsFailed := by
  let e : Chip := { c with sys := { c.sys with bootFailed := true } }
  let f := (e.recordBootFail 4).setCfs
  have he : Keeps [.sys] c e := (Keeps.refl _ _).withSys _ (by decide)
  have hk : Keeps [.regs, .mram, .jnl, .nvq] e f :=
    ((Keeps.refl _ e).recordBootFail 4 (by decide) (by decide) (by decide)).setCfs (by decide)
  have hr (k : Nat) : f.reg k = (e.setBit R.SYS_ALERT 1 true).reg k := Chip.reg_recordBootFail 4 k
  have ha : (f.step 0xF).bit R.SYS_ALERT 1 = true :=
    (Chip.bit_of_reg _ ((Chip.reg_bootStep_ne 0xF (by decide)).trans (hr _)) 1).trans (e.bit_setBit_self _ _ _ (by decide))
  have ho : OnlyRegs [R.OSP_MODE, R.SYS_WDOG_CTRL, R.SYS_BOOT_STEP, R.SYS_ALERT] c f := fun k hm =>
    (hr k).trans (((OnlyRegs.refl (c := e) _).setBit R.SYS_ALERT 1 true (by decide)) k hm)
  obtain ⟨h1, h2⟩ := setCfs_cfs (e.recordBootFail 4)
  have hy : f.sys = { c.sys with bootFailed := true } := hk.sys (by decide)
  exact ⟨Chip.reg_bootStep f 0xF, ha, h1, h2, hy, ho.bootStepTo 0xF (by decide),
    ((he.mono (by decide)).trans (hk.mono (by decide))).bootStepTo 0xF (by decide)⟩

theorem failed_slotsFailed {b : Chip} (h : Alike b c) (y : Sys) (hy : y = b.sys) :
    c.slotsFailed.settle.reg R.SYS_BOOT_STEP = 0xF ∧ c.slotsFailed.settle.bit R.SYS_ALERT 1 = true ∧
    c.slotsFailed.settle.pins.alertN = false ∧ c.slotsFailed.settle.nvq.c1.cfs = true ∧
    c.slotsFailed.settle.nvq.c2.cfs = true ∧ c.slotsFailed.settle.sys = { y with bootFailed := true } ∧
    OnlyRegs [R.OSP_MODE, R.SYS_WDOG_CTRL, R.SYS_BOOT_STEP, R.SYS_ALERT] b c.slotsFailed.settle ∧
    Keeps [.regs, .sys, .mram, .jnl, .nvq] b c.slotsFailed.settle := by
  obtain ⟨hb, ha, h1, h2, hs, hf⟩ := c.slotsFailed_spec
  obtain ⟨ho, hk⟩ := h.step9 hf
  rw [h.1.sys (by decide), ← hy] at hs
  generalize c.slotsFailed = e at hb ha h1 h2 hs ho hk ⊢
  exact ⟨hb, ha, alertN_of_bootFail ha, h1, h2, hs, ho.settle, hk.settle⟩

/-! ### FIRMWARE_IMAGE_LOADED -/

theorem Alike.atStep (h : Alike c d) (n : Nat) : d.atStep n = c.atStep n := by
  unfold Chip.atStep Chip.bootStep
  rw [h.1.sys (by decide), h.1.dbg (by decide), h.reg (by decide)]

theorem Alike.uartBoot (h : Alike c d) : d.uartBoot = c.uartBoot := by
  unfold Chip.uartBoot
  rw [h.fld (by decide), h.bit (by decide)]

theorem firmwareImageLoaded_uart (h8 : c.atStep 8 = true) (hu : c.uartBoot = true) (s1 s2 : SlotImage) (nor log2 : Nat) :
    firmwareImageLoaded c s1 s2 nor log2 = c.norSeen nor log2 := by
  unfold firmwareImageLoaded
  rw [if_neg (by simp [h8])]
  exact if_pos ((alike_norSeen nor log2).uartBoot.trans hu)

/-- The slot of that number, of the two that the NOR holds. -/
def slotOf (s1 s2 : SlotImage) (n : Nat) : SlotImage := if n = 1 then s1 else s2

/-- The slot passes the steps of R59, the NOR being there. -/
def Chip.slotGood (c : Chip) (s1 s2 : SlotImage) (nor n : Nat) : Bool := nor != 0 && c.slotStep (slotOf s1 s2 n) == 0

/-- Slot `n` entered by the chip `b` that has read the bodies; `c` judged the slots. -/
def Chip.slotTaken (c b : Chip) (s1 s2 : SlotImage) (nor n att last : Nat) : Chip :=
  b.slotEntered n (att + 1) last (leAt (slotOf s1 s2 n).header 8 4) (b.bootField 16 3)
    (if c.slotGood s1 s2 nor 1 then leAt (slotOf s1 s2 1).header 8 4 else 0,
      if c.slotGood s1 s2 nor 2 then leAt (slotOf s1 s2 2).header 8 4 else 0)

/-- The chip that has read the body of the slot to try first, and the one that has read the other's too. -/
def Chip.firstRead (c : Chip) (s1 s2 : SlotImage) (nor : Nat) : Chip :=
  if nor = 0 then c else c.loadSlot (slotOf s1 s2 c.firstSlot.1)

def Chip.bothRead (c : Chip) (s1 s2 : SlotImage) (nor : Nat) : Chip :=
  if nor = 0 then c else (c.firstRead s1 s2 nor).loadSlot (slotOf s1 s2 (3 - c.firstSlot.1))

/-- The octal NOR's boot: the first slot that passes is entered, or BOOT stops. -/
theorem firmwareImageLoaded_nor (h8 : c.atStep 8 = true) (hu : c.uartBoot = false) (s1 s2 : SlotImage) (nor log2 : Nat) :
    firmwareImageLoaded c s1 s2 nor log2 =
      let e := c.norSeen nor log2
      let f := e.firstSlot
      if e.slotGood s1 s2 nor f.1 then e.slotTaken (e.firstRead s1 s2 nor) s1 s2 nor f.1 f.2.1 f.2.2
      else if e.slotGood s1 s2 nor (3 - f.1) then e.slotTaken (e.bothRead s1 s2 nor) s1 s2 nor (3 - f.1) f.2.1 1
      else (e.bothRead s1 s2 nor).slotsFailed := by
  have hu' : ¬(c.norSeen nor log2).uartBoot = true := by
    rw [(alike_norSeen nor log2).uartBoot, hu]
    decide
  unfold firmwareImageLoaded
  rw [if_neg (by simp [h8])]
  exact if_neg hu'

theorem Alike.slotGood (h : Alike c d) (s1 s2 : SlotImage) (nor n : Nat) :
    d.slotGood s1 s2 nor n = c.slotGood s1 s2 nor n := by
  unfold Chip.slotGood
  rw [h.slotStep]

theorem Chip.slotGood_iff {s1 s2 : SlotImage} {nor n : Nat} :
    c.slotGood s1 s2 nor n = true ↔ nor ≠ 0 ∧ c.slotStep (slotOf s1 s2 n) = 0 := by
  simp [Chip.slotGood]

theorem Alike.firstRead (h : Alike c d) (s1 s2 : SlotImage) {nor : Nat} (hn : nor ≠ 0) :
    Alike (c.loadSlot (slotOf s1 s2 c.firstSlot.1)) (d.firstRead s1 s2 nor) := by
  rw [Chip.firstRead, if_neg hn, h.firstSlot]
  exact h.loadSlot _

theorem Alike.bothRead (h : Alike c d) (s1 s2 : SlotImage) {nor : Nat} (hn : nor ≠ 0) :
    Alike ((c.loadSlot (slotOf s1 s2 c.firstSlot.1)).loadSlot (slotOf s1 s2 (3 - c.firstSlot.1))) (d.bothRead s1 s2 nor) := by
  rw [Chip.bothRead, if_neg hn, h.firstSlot]
  exact (h.firstRead s1 s2 hn).loadSlot _

/-- Reading bodies leaves the SYS part and device time. -/
theorem Keeps.sysTime_loadSlot (h : Keeps accessParts c d) (x : SlotImage) :
    (d.loadSlot x).sys = c.sys ∧ (d.loadSlot x).dtm = c.dtm :=
  ⟨(h.loadSlot x).sys (by decide), (h.loadSlot x).dtm (by decide)⟩

variable {s : State} {s1 s2 : SlotImage}

theorem firmwareImageLoaded_first (h8 : s.chip.atStep 8 = true) (hu : s.chip.uartBoot = false) (nor : Fin 3) (log2 : Nat)
    (hn : nor ≠ 0) (hp : s.chip.slotStep (slotOf s1 s2 s.chip.firstSlot.1) = 0) :
    Completes (.firmwareImageLoaded s1 s2 nor log2) s
      (Entered { s.chip.sys with wdogFrom := s.chip.dtm.dtime } s.chip.firstSlot.1
        (s.chip.loadSlot (slotOf s1 s2 s.chip.firstSlot.1))) := by
  have hn' : nor.val ≠ 0 := fun h => hn (Fin.ext h)
  have ha : Alike s.chip (s.chip.norSeen nor.val log2) := alike_norSeen _ _
  have hl := ha.firstRead s1 s2 hn'
  obtain ⟨hs, ht⟩ := (Keeps.refl accessParts s.chip).sysTime_loadSlot (slotOf s1 s2 s.chip.firstSlot.1)
  have hx := (firmwareImageLoaded_nor h8 hu s1 s2 nor.val log2).trans
    (if_pos (by rw [ha.slotGood, ha.firstSlot]; exact Chip.slotGood_iff.2 ⟨hn', hp⟩))
  have he := fun att last st pcc v => entered_slotEntered hl s.chip.firstSlot.1 att last st pcc v
  rw [hs, ht] at he
  rw [ha.firstSlot] at hx
  exact completes_eq rfl hx (he _ _ _ _ _)

theorem firmwareImageLoaded_second (h8 : s.chip.atStep 8 = true) (hu : s.chip.uartBoot = false) (nor : Fin 3) (log2 : Nat)
    (hn : nor ≠ 0) (hf : s.chip.slotStep (slotOf s1 s2 s.chip.firstSlot.1) ≠ 0)
    (hp : s.chip.slotStep (slotOf s1 s2 (3 - s.chip.firstSlot.1)) = 0) :
    Completes (.firmwareImageLoaded s1 s2 nor log2) s
      (Entered { s.chip.sys with wdogFrom := s.chip.dtm.dtime } (3 - s.chip.firstSlot.1)
        ((s.chip.loadSlot (slotOf s1 s2 s.chip.firstSlot.1)).loadSlot (slotOf s1 s2 (3 - s.chip.firstSlot.1)))) := by
  have hn' : nor.val ≠ 0 := fun h => hn (Fin.ext h)
  have ha : Alike s.chip (s.chip.norSeen nor.val log2) := alike_norSeen _ _
  have hl := ha.bothRead s1 s2 hn'
  obtain ⟨hs, ht⟩ := ((Keeps.refl accessParts s.chip).loadSlot (slotOf s1 s2 s.chip.firstSlot.1)).sysTime_loadSlot
    (slotOf s1 s2 (3 - s.chip.firstSlot.1))
  have hx := ((firmwareImageLoaded_nor h8 hu s1 s2 nor.val log2).trans
    (if_neg (by rw [ha.slotGood, ha.firstSlot]; exact fun h => hf (Chip.slotGood_iff.1 h).2))).trans
    (if_pos (by rw [ha.slotGood, ha.firstSlot]; exact Chip.slotGood_iff.2 ⟨hn', hp⟩))
  have he := fun att last st pcc v => entered_slotEntered hl (3 - s.chip.firstSlot.1) att last st pcc v
  rw [hs, ht] at he
  rw [ha.firstSlot] at hx
  exact completes_eq rfl hx (he _ _ _ _ _)

/-- The device missing, or neither slot good. -/
theorem firmwareImageLoaded_neither (h8 : s.chip.atStep 8 = true) (hu : s.chip.uartBoot = false) (nor : Fin 3) (log2 : Nat)
    (hn : nor = 0 ∨ (s.chip.slotStep (slotOf s1 s2 1) ≠ 0 ∧ s.chip.slotStep (slotOf s1 s2 2) ≠ 0)) :
    firmwareImageLoaded s.chip s1 s2 nor.val log2 = ((s.chip.norSeen nor.val log2).bothRead s1 s2 nor.val).slotsFailed := by
  have ha : Alike s.chip (s.chip.norSeen nor.val log2) := alike_norSeen _ _
  have hbad : ∀ n, n = 1 ∨ n = 2 → ¬(s.chip.norSeen nor.val log2).slotGood s1 s2 nor.val n = true := by
    intro n h12 hg
    rw [ha.slotGood] at hg
    obtain ⟨hne, hst⟩ := Chip.slotGood_iff.1 hg
    obtain rfl | ⟨h1, h2⟩ := hn
    · exact hne rfl
    · obtain rfl | rfl := h12
      · exact h1 hst
      · exact h2 hst
  have h12 := (s.chip.norSeen nor.val log2).firstSlot_eq
  exact ((firmwareImageLoaded_nor h8 hu s1 s2 nor.val log2).trans (if_neg (hbad _ h12))).trans
    (if_neg (hbad _ (by omega)))

theorem firmwareImageLoaded_failed (h8 : s.chip.atStep 8 = true) (hu : s.chip.uartBoot = false) (nor : Fin 3) (log2 : Nat)
    (hn : nor = 0 ∨ (s.chip.slotStep (slotOf s1 s2 1) ≠ 0 ∧ s.chip.slotStep (slotOf s1 s2 2) ≠ 0)) :
    Completes (.firmwareImageLoaded s1 s2 nor log2) s (fun d =>
      d.reg R.SYS_BOOT_STEP = 0xF ∧ d.bit R.SYS_ALERT 1 = true ∧ d.pins.alertN = false ∧
      d.nvq.c1.cfs = true ∧ d.nvq.c2.cfs = true ∧ d.sys = { s.chip.sys with bootFailed := true } ∧
      Step9 (if nor = 0 then s.chip else
        (s.chip.loadSlot (slotOf s1 s2 s.chip.firstSlot.1)).loadSlot (slotOf s1 s2 (3 - s.chip.firstSlot.1))) d) := by
  have ha : Alike s.chip (s.chip.norSeen nor.val log2) := alike_norSeen _ _
  have hx := firmwareImageLoaded_neither h8 hu nor log2 hn
  by_cases h0 : nor = 0
  · subst h0
    have hb : (s.chip.norSeen 0 log2).bothRead s1 s2 0 = s.chip.norSeen 0 log2 := if_pos rfl
    have hx := hx.trans (congrArg Chip.slotsFailed hb)
    rw [if_pos rfl]
    exact completes_eq rfl hx (failed_slotsFailed ha s.chip.sys rfl)
  · have hl := ha.bothRead s1 s2 (fun h => h0 (Fin.ext h))
    have hs := (((Keeps.refl accessParts s.chip).loadSlot (slotOf s1 s2 s.chip.firstSlot.1)).sysTime_loadSlot
      (slotOf s1 s2 (3 - s.chip.firstSlot.1))).1
    rw [if_neg h0]
    exact completes_eq rfl hx (failed_slotsFailed hl s.chip.sys hs.symm)

/-- Settles O13. -/
theorem bootEntersFirmwareOrReportsFailure : Obligations.BootEntersFirmwareOrReportsFailure := by
  refine ⟨fun s s1 s2 nor log2 h8 hu => ?_, fun s s1 s2 nor log2 h8 hu => ⟨fun hn hp => ?_, fun hn hf hp => ?_, fun hn => ?_⟩⟩
  · have hr : (s.chip.norSeen nor.val log2).reg R.OSP_MODE = _ := Chip.reg_setReg_self _ _ _
    exact completes_eq rfl (firmwareImageLoaded_uart h8 hu s1 s2 nor.val log2) ⟨(Chip.reg_settle _ _).trans hr,
      (alike_norSeen _ _).2.settle, (alike_norSeen _ _).1.settle⟩
  · exact firmwareImageLoaded_first h8 hu nor log2 hn hp
  · exact firmwareImageLoaded_second h8 hu nor log2 hn hf hp
  · exact firmwareImageLoaded_failed h8 hu nor log2 hn

end Sys2Proof.Machine
end

section
namespace Sys2Proof.Machine

variable {c d : Chip} {ps : List ChipPart} {ks : List Nat}

/-! ## What work on the channels changes (R263, R266, R275) -/

theorem Keeps.setChan (h : Keeps ps c d) (a : Act) (x : Chan) (hA : .chanA ∈ ps) (hB : .chanB ∈ ps) :
    Keeps ps c (d.setChan a x) := by
  cases a
  · exact h.withChanA x hA
  · exact h.withChanB x hB

theorem Keeps.mapChan (h : Keeps ps c d) (a : Act) (f : Chan → Chan) (hA : .chanA ∈ ps) (hB : .chanB ∈ ps) :
    Keeps ps c (d.mapChan a f) := h.setChan a _ hA hB

theorem Keeps.setActLog (h : Keeps ps c d) (a : Act) (x : ActLog) (hA : .logA ∈ ps) (hB : .logB ∈ ps) :
    Keeps ps c (d.setActLog a x) := by
  cases a
  · exact h.withLogA x hA
  · exact h.withLogB x hB

/-- The parts that ladders change: the channels, the heads' offset among the registers. -/
def ladderParts : List ChipPart := [.regs, .chanA, .chanB]

/-- The parts that the push of a descriptor and the end of a ladder change. -/
def pushParts : List ChipPart := [.regs, .pwr, .evr, .mem, .slots, .chanA, .chanB, .logA, .logB]

/-- The parts that a channel's next step changes. -/
def runParts : List ChipPart := pushParts ++ [.out]

theorem keeps_returnOffset (a : Act) : Keeps [.regs] c (c.returnOffset a) :=
  Keeps.ite (fun _ => Keeps.refl _ _) fun _ => (Keeps.refl _ _).setReg _ _ (by decide)

theorem keeps_setLadders (a : Act) (ls : List Ladder) : Keeps ladderParts c (c.setLadders a ls) := by
  have h : Keeps ladderParts c (c.setChan a { c.chan a with ladders := ls }) :=
    (Keeps.refl _ _).setChan a _ (by decide) (by decide)
  exact Keeps.ite (fun _ => h.step (keeps_returnOffset a) (by decide)) fun _ => h

theorem keeps_stopLadders (a : Act) : Keeps ladderParts c (c.stopLadders a) := keeps_setLadders a []

theorem keeps_removeLadder (a : Act) (l : Ladder) : Keeps ladderParts c (c.removeLadder a l) := keeps_setLadders a _

theorem keeps_unrecovered (a : Act) (l : Ladder) : Keeps pushParts c (c.unrecovered a l) :=
  (((Keeps.refl pushParts c).event _ _ (by decide) (by decide) (by decide)).setActLog a _ (by decide) (by decide)).step
    (keeps_removeLadder a l) (by decide)

theorem keeps_awaitSlots (a : Act) (w : DescWords) (rs : List Reader) : Keeps [.slots] c (c.awaitSlots a w rs) :=
  Keeps.ite (fun _ => (Keeps.refl _ _).withSlots _ (by decide)) fun _ => Keeps.refl _ _

theorem keeps_rdPush (a : Act) (w : DescWords) (by_ : DescBy) (rs : List Reader) :
    Keeps pushParts c (c.rdPush a w by_ rs) := by
  have h0 : Keeps pushParts c ((w.toList.zipIdx).foldl (fun (c : Chip) (e : Word × Nat) => c.setReg (R.RD_DESC a e.2) e.1) c) :=
    Keeps.foldl _ _ (fun _ _ _ h => h.setReg _ _ (by decide)) (Keeps.refl _ _)
  have h1 := h0.setFld (R.RD_PUSH a) 3 1 (((w.toList.zipIdx).foldl
    (fun (c : Chip) (e : Word × Nat) => c.setReg (R.RD_DESC a e.2) e.1) c).rdCheck a w) (by decide)
  refine Keeps.ite (fun _ => h1.fault _ _ (by decide) (by decide)) fun _ => ?_
  exact ((h1.step ((Keeps.refl accessParts _).writeRange _ _) (by decide)).step (keeps_awaitSlots a w rs) (by decide)).mapChan
    a _ (by decide) (by decide)

theorem keeps_pushRun (a : Act) (l : Ladder) (t : Attempt) (ms : List Ladder) : Keeps pushParts c (c.pushRun a l t ms) := by
  unfold Chip.pushRun
  dsimp only
  generalize c.attemptWords a l t _ = w
  generalize (if (t.op == .captureLow || t.op == .captureHigh) = true then DescBy.capture l.head l.track l.sector
    else .ladder) = by_
  have h : Keeps pushParts c (c.rdPush a w by_ []) := keeps_rdPush a w by_ []
  generalize c.rdPush a w by_ [] = e at h ⊢
  split
  · exact h.mapChan a _ (by decide) (by decide)
  · split
    · exact h
    · split
      · exact h.step (keeps_stopLadders a) (by decide)
      · split
        · exact h.step (keeps_setLadders a _) (by decide)
        · exact Keeps.foldl _ _ (fun _ _ _ h => h.step (keeps_unrecovered a _) (by decide)) h

theorem keeps_ladderRound (a : Act) : Keeps pushParts c (c.ladderRound a) := by
  unfold Chip.ladderRound
  dsimp only
  split
  · exact Keeps.refl _ _
  · split
    · exact Keeps.refl _ _
    · split
      · exact Keeps.refl _ _
      · refine Keeps.foldl _ _ (fun _ _ _ h => h.step (keeps_pushRun a _ _ _) (by decide)) ?_
        exact Keeps.ite (fun _ => (Keeps.refl _ _).setReg _ _ (by decide)) fun _ =>
          Keeps.ite (fun _ => (Keeps.refl _ _).setReg _ _ (by decide)) fun _ => Keeps.refl _ _

theorem Keeps.showSetup (h : Keeps ps c d) (a : Act) (r : Running) (ho : .out ∈ ps) : Keeps ps c (d.showSetup a r) := by
  unfold Chip.showSetup
  split
  · exact Keeps.ite (fun _ => h) fun _ => h.emit _ ho
  · exact h

theorem keeps_pump (a : Act) : Keeps [.chanA, .chanB, .out] c (c.pump a) := by
  unfold Chip.pump
  dsimp only
  split
  · exact Keeps.ite (fun _ => ((Keeps.refl _ _).setChan a _ (by decide) (by decide)).showSetup a _ (by decide))
      fun _ => Keeps.refl _ _
  · exact Keeps.refl _ _

theorem keeps_runChannel (a : Act) : Keeps runParts c (c.runChannel a) :=
  ((keeps_ladderRound a).mono (by decide)).step (keeps_pump a) (by decide)

end Sys2Proof.Machine
end

section
namespace Sys2Proof.Machine

variable {c d : Chip} {ps : List ChipPart} {ks : List Nat}

/-! ## The life cycle (R62 to R71, R79, O18) -/

theorem Keeps.lcsResult (h : Keeps ps c d) (n : Nat) (hl : .lcs ∈ ps) : Keeps ps c (d.lcsResult n) := h.withLcs _ hl

theorem Keeps.programRow (h : Keeps ps c d) (t : Life) (b : Bool) (hl : .lcs ∈ ps) : Keeps ps c (d.programRow t b) :=
  h.withLcs _ hl

theorem Chip.onlyRegs_withLcs (e : Chip) (x : Lcs) : OnlyRegs ks e { e with lcs := x } := .of_regs rfl

/-! ### Busy (R79) -/

theorem lcsAdvance_busy (h : c.lcsBusy = true) (t k : Nat) : lcsAdvance c t k = c := if_pos (by simp [h])

theorem tokenStart_busy (h : c.lcsBusy = true) : tokenStart c = c := if_pos (by simp [h])

theorem Chip.job_of_idle (h : c.lcsBusy = false) : c.lcs.job = none := by
  simpa [Chip.lcsBusy] using (Bool.or_eq_false_iff.1 h).1

/-! ### LCS_ADVANCE (R64) -/

/-- LCS_ADVANCE as it was written. -/
def Chip.advanceWritten (c : Chip) (t k : Nat) : Chip := c.setReg R.LCS_ADVANCE (BitVec.ofNat 32 (t + k * 65536))

theorem keeps_advanceWritten (t k : Nat) : Keeps [.regs] c (c.advanceWritten t k) := (Keeps.refl _ _).setReg _ _ (by decide)

theorem onlyRegs_advanceWritten (t k : Nat) : OnlyRegs [R.LCS_ADVANCE] c (c.advanceWritten t k) :=
  (OnlyRegs.refl _ _).setReg _ _ (by decide)

/-- The three ways of LCS_ADVANCE, each decided by the state before the write. -/
theorem lcsAdvance_eq (ha : c.alive = true) (hb : c.lcsBusy = false) (t k : Nat) : lcsAdvance c t k =
    if k ≠ 0xA11C then (c.advanceWritten t k).lcsResult 5
    else if t = 1 ∧ c.lcs.fused = .blank then (c.advanceWritten t k).programRow .manufacture false
    else if t = 2 ∧ c.lcs.fused = .manufacture ∧ c.fuses.imageKey ∧ c.fuses.unlockKey ∧ !c.repairIncomplete
      then (c.advanceWritten t k).programRow .deployed false
    else (c.advanceWritten t k).lcsResult 5 := by
  unfold lcsAdvance
  exact if_neg (by simp [ha, hb])

theorem lcsAdvance_completes {s : State} {t : Fin 4} {k : BitVec 16} {e : Chip} {x : Lcs}
    (hx : lcsAdvance s.chip t.val k.toNat = { e with lcs := x }) (hk : Keeps [.regs] s.chip e)
    (ho : OnlyRegs [R.LCS_ADVANCE] s.chip e) : Completes (.lcsAdvance t k) s (fun d =>
      d.lcs = x ∧ OnlyRegs [R.LCS_ADVANCE] s.chip d ∧ Keeps [.regs, .lcs] s.chip d) :=
  completes_eq rfl hx ⟨rfl, (ho.trans (Chip.onlyRegs_withLcs _ _)).settle, ((hk.mono (by decide)).withLcs _ (by decide)).settle⟩

theorem lcsAdvance_programs {s : State} {t : Fin 4} {k : BitVec 16} {l : Life}
    (hx : lcsAdvance s.chip t.val k.toNat = (s.chip.advanceWritten t.val k.toNat).programRow l false) :
    Completes (.lcsAdvance t k) s (fun d => d.lcs = { s.chip.lcs with job := some (.program l false) } ∧
      OnlyRegs [R.LCS_ADVANCE] s.chip d ∧ Keeps [.regs, .lcs] s.chip d) :=
  lcsAdvance_completes (hx.trans rfl) (keeps_advanceWritten _ _) (onlyRegs_advanceWritten _ _)

theorem lcsAdvance_refused {s : State} {t : Fin 4} {k : BitVec 16} (hx : lcsAdvance s.chip t.val k.toNat =
    (s.chip.advanceWritten t.val k.toNat).lcsResult 5) : Completes (.lcsAdvance t k) s (fun d =>
      d.lcs = { s.chip.lcs with result := 5 } ∧ OnlyRegs [R.LCS_ADVANCE] s.chip d ∧ Keeps [.regs, .lcs] s.chip d) :=
  lcsAdvance_completes (hx.trans rfl) (keeps_advanceWritten _ _) (onlyRegs_advanceWritten _ _)

theorem lcsAdvance_blank (ha : c.alive = true) (hb : c.lcsBusy = false) (hf : c.lcs.fused = .blank) :
    lcsAdvance c 1 (0xA11C#16).toNat = (c.advanceWritten 1 (0xA11C#16).toNat).programRow .manufacture false := by
  rw [lcsAdvance_eq ha hb, if_neg (by decide), if_pos ⟨rfl, hf⟩]

theorem lcsAdvance_manufacture (ha : c.alive = true) (hb : c.lcsBusy = false) (hf : c.lcs.fused = .manufacture)
    (hi : c.fuses.imageKey = true) (hu : c.fuses.unlockKey = true) (hr : c.repairIncomplete = false) :
    lcsAdvance c 2 (0xA11C#16).toNat = (c.advanceWritten 2 (0xA11C#16).toNat).programRow .deployed false := by
  rw [lcsAdvance_eq ha hb, if_neg (by decide), if_neg (by simp), if_pos ⟨rfl, hf, hi, hu, by simp [hr]⟩]

theorem lcsAdvance_bad (ha : c.alive = true) (hb : c.lcsBusy = false) {t : Fin 4} {k : BitVec 16}
    (h : k ≠ 0xA11C ∨ t = 0 ∨ t = 3 ∨ (t = 1 ∧ c.lcs.fused ≠ .blank) ∨ (t = 2 ∧ c.lcs.fused ≠ .manufacture) ∨
      (t = 2 ∧ (c.fuses.imageKey && c.fuses.unlockKey && !c.repairIncomplete) = false)) :
    lcsAdvance c t.val k.toNat = (c.advanceWritten t.val k.toNat).lcsResult 5 := by
  rw [lcsAdvance_eq ha hb]
  by_cases hk : k = 0xA11C
  · have h' := h.resolve_left (absurd hk)
    rw [if_neg (by rw [hk]; decide), if_neg, if_neg]
    · rintro ⟨ht, hm, hi, hu, hr⟩
      obtain rfl : t = 2 := Fin.ext ht
      simp [hm, hi, hu, hr] at h'
    · rintro ⟨ht, hm⟩
      obtain rfl : t = 1 := Fin.ext ht
      simp [hm] at h'
  · exact if_pos fun hn => hk (BitVec.eq_of_toNat_eq hn)

/-! ### The unlock token (R67 to R71) -/

theorem Keeps.tokenResult (h : Keeps ps c d) (kind n : Nat) (hs : [.regs, .lcs, .evr, .mram, .jnl, .pwr] ⊆ ps) :
    Keeps ps c (d.tokenResult kind n) :=
  ((h.lcsResult n (hs (by decide))).event _ _ (hs (by decide)) (hs (by decide)) (hs (by decide))).history _ _
    (hs (by decide)) (hs (by decide))

theorem keeps_tokenReport (kind n : Nat) : Keeps [.regs, .evr, .mram, .jnl, .pwr] (c.lcsResult n) (c.tokenResult kind n) :=
  ((Keeps.refl _ _).event _ _ (by decide) (by decide) (by decide)).history _ _ (by decide) (by decide)

theorem lcs_tokenResult (kind n : Nat) : (c.tokenResult kind n).lcs = { c.lcs with result := n } :=
  (keeps_tokenReport kind n).lcs (by decide)

theorem onlyRegs_history (c : Chip) (ev detail : Nat) : OnlyRegs ks c (c.history ev detail) := fun k _ =>
  ((Keeps.refl [.mram, .jnl] c).history ev detail (by decide) (by decide)).reg (by decide) k

theorem onlyRegs_tokenResult (kind n : Nat) : OnlyRegs dropRegs c (c.tokenResult kind n) :=
  ((Chip.onlyRegs_withLcs c _).event _ _ (by decide) (by decide)).trans (onlyRegs_history _ _ _)

/-- TOKEN_START once it is counted: verification begun, or refused with RESULT 7. -/
def Chip.tokenTaken (c : Chip) : Chip :=
  let e : Chip := { c with lcs := { c.lcs with attempts := satSucc c.lcs.attempts 255 } }
  if 8 ≤ c.lcs.failures then e.tokenResult (leAt c.tokenBytes 6 1) 7
  else { e with lcs := { e.lcs with job := some (.verify c.tokenCheck (leAt c.tokenBytes 6 1)) } }

theorem tokenStart_eq (ha : c.alive = true) (hb : c.lcsBusy = false) : tokenStart c = c.tokenTaken.newNonce := by
  unfold tokenStart
  exact if_neg (by simp [ha, hb])

theorem Chip.tokenTaken_refused (h : 8 ≤ c.lcs.failures) : c.tokenTaken =
    ({ c with lcs := { c.lcs with attempts := satSucc c.lcs.attempts 255 } } : Chip).tokenResult (leAt c.tokenBytes 6 1) 7 :=
  if_pos h

theorem Chip.tokenTaken_verifies (h : ¬8 ≤ c.lcs.failures) : c.tokenTaken = { c with lcs := { c.lcs with
    attempts := satSucc c.lcs.attempts 255, job := some (.verify c.tokenCheck (leAt c.tokenBytes 6 1)) } } := if_neg h

theorem keeps_tokenTaken : Keeps [.regs, .lcs, .evr, .mram, .jnl, .pwr] c c.tokenTaken :=
  Keeps.ite (fun _ => ((Keeps.refl _ _).withLcs _ (by decide)).tokenResult _ _ (by decide))
    fun _ => ((Keeps.refl _ _).withLcs _ (by decide)).withLcs _ (by decide)

theorem onlyRegs_tokenTaken : OnlyRegs dropRegs c c.tokenTaken :=
  OnlyRegs.ite (fun _ => (Chip.onlyRegs_withLcs c _).trans (onlyRegs_tokenResult _ _)) fun _ => .of_regs rfl

/-- The job and the result that TOKEN_START leaves, beside what it keeps of the life cycle. -/
theorem lcs_tokenTaken : c.tokenTaken.lcs = { c.lcs with
    attempts := satSucc c.lcs.attempts 255
    job := if 8 ≤ c.lcs.failures then c.lcs.job else some (.verify c.tokenCheck (leAt c.tokenBytes 6 1))
    result := if 8 ≤ c.lcs.failures then 7 else c.lcs.result } := by
  by_cases h : 8 ≤ c.lcs.failures
  · rw [Chip.tokenTaken_refused h, lcs_tokenResult, if_pos h, if_pos h]
  · rw [Chip.tokenTaken_verifies h, if_neg h, if_neg h]

theorem lcs_newNonce : c.newNonce.lcs = { c.lcs with nonce := Config.random 64 c.freeCtr } := rfl

theorem onlyRegs_newNonce : OnlyRegs ks c c.newNonce := .of_regs rfl

theorem tokenStart_completes {s : State} (ha : s.chip.alive = true) (hb : s.chip.lcsBusy = false) :
    Completes .tokenStart s (fun d =>
      d.lcs.attempts = satSucc s.chip.lcs.attempts 255 ∧ d.lcs.fused = s.chip.lcs.fused ∧
      d.lcs.diagnostic = s.chip.lcs.diagnostic ∧
      d.lcs.nonce = Config.random 64 s.chip.freeCtr ∧
      (s.chip.lcs.failures < 8 →
        d.lcs.job = some (.verify s.chip.tokenCheck (leAt s.chip.tokenBytes 6 1)) ∧
        Keeps [.lcs, .freeCtr] s.chip d) ∧
      (8 ≤ s.chip.lcs.failures → d.lcs.job = none ∧ d.lcs.result = 7) ∧
      OnlyRegs dropRegs s.chip d ∧ Keeps [.regs, .lcs, .evr, .mram, .jnl, .pwr, .freeCtr] s.chip d) := by
  let e := s.chip.tokenTaken
  have hk : Keeps [.regs, .lcs, .evr, .mram, .jnl, .pwr] s.chip e := keeps_tokenTaken
  have hl : e.newNonce.lcs = { s.chip.lcs with
      attempts := satSucc s.chip.lcs.attempts 255
      job := if 8 ≤ s.chip.lcs.failures then s.chip.lcs.job
        else some (.verify s.chip.tokenCheck (leAt s.chip.tokenBytes 6 1))
      result := if 8 ≤ s.chip.lcs.failures then 7 else s.chip.lcs.result
      nonce := Config.random 64 s.chip.freeCtr } := by
    rw [lcs_newNonce, hk.freeCtr (by decide), lcs_tokenTaken]
  have hv : ¬8 ≤ s.chip.lcs.failures → Keeps [.lcs, .freeCtr] s.chip e.newNonce := fun h => by
    have he : Keeps [.lcs, .freeCtr] s.chip e := by
      show Keeps _ _ s.chip.tokenTaken
      rw [Chip.tokenTaken_verifies h]
      exact (Keeps.refl _ _).withLcs _ (by decide)
    exact he.newNonce (by decide) (by decide)
  have ho : OnlyRegs dropRegs s.chip e.newNonce := onlyRegs_tokenTaken.trans onlyRegs_newNonce
  have hk' : Keeps [.regs, .lcs, .evr, .mram, .jnl, .pwr, .freeCtr] s.chip e.newNonce :=
    (hk.mono (by decide)).newNonce (by decide) (by decide)
  have hx : tokenStart s.chip = e.newNonce := tokenStart_eq ha hb
  generalize e.newNonce = f at hl hv ho hk' hx
  have hl' := (Chip.settle_lcs f).trans hl
  refine completes_eq rfl hx ⟨?_, ?_, ?_, ?_, fun h => ⟨?_, (hv (by omega)).settle⟩, fun h => ⟨?_, ?_⟩, ho.settle, hk'.settle⟩
  · rw [hl']
  · rw [hl']
  · rw [hl']
  · rw [hl']
  · rw [hl']; exact if_neg (by omega)
  · rw [hl']; exact (if_pos h).trans (Chip.job_of_idle hb)
  · rw [hl']; exact if_pos h

/-! ### The end of a verification (R69) -/

/-- What the check of a token's fields and signature comes to. -/
def tokenOutcome (early : Nat) (good : Bool) : Nat := if early ≠ 0 then early else if good then 1 else 6

theorem tokenVerifyDone_eq (ha : c.alive = true) (hh : c.inHoldup = false) {early : Nat}
    (hj : c.lcs.job = some (.verify early 1)) (g : Bool) : tokenVerifyDone c g =
      if tokenOutcome early g ≠ 1 then
        ({ c with lcs := { c.lcs with job := none, failures := c.lcs.failures + 1 } } : Chip).tokenResult 1
          (tokenOutcome early g)
      else ({ c with lcs := { c.lcs with job := none, diagnostic := true } } : Chip).tokenResult 1 1 := by
  unfold tokenVerifyDone
  rw [hj]
  exact if_neg (by simp [ha, hh])

theorem tokenVerifyDone_reports {s : State} {g : Bool} {x : Lcs} {n : Nat}
    (hx : tokenVerifyDone s.chip g = ({ s.chip with lcs := x } : Chip).tokenResult 1 n) :
    Completes (.tokenVerifyDone g) s (fun d => d.lcs = { x with result := n } ∧ OnlyRegs dropRegs s.chip d ∧
      Keeps [.regs, .lcs, .evr, .mram, .jnl, .pwr] s.chip d) := by
  let e : Chip := { s.chip with lcs := x }
  have hl : (e.tokenResult 1 n).lcs = { x with result := n } := lcs_tokenResult 1 n
  have ho : OnlyRegs dropRegs s.chip (e.tokenResult 1 n) := (Chip.onlyRegs_withLcs s.chip x).trans (onlyRegs_tokenResult 1 n)
  have hk : Keeps [.regs, .lcs, .evr, .mram, .jnl, .pwr] s.chip (e.tokenResult 1 n) :=
    ((Keeps.refl _ _).withLcs x (by decide)).tokenResult 1 n (by decide)
  generalize e.tokenResult 1 n = f at hl ho hk hx
  exact completes_eq rfl hx ⟨(Chip.settle_lcs f).trans hl, ho.settle, hk.settle⟩

theorem Completes.imp {i : Instr} {s : State} {P Q : Chip → Prop} (h : Completes i s P) (hi : ∀ d, P d → Q d) :
    Completes i s Q := by
  obtain ⟨d, hd, hp⟩ := h
  exact ⟨d, hd, hi d hp⟩

theorem effective_of_diagnostic (h : c.lcs.diagnostic = true) : c.effective = 3 := if_pos h

theorem tokenVerifyDone_completes {s : State} {early : Nat} (ha : s.chip.alive = true) (hh : s.chip.inHoldup = false)
    (hj : s.chip.lcs.job = some (.verify early 1)) (h1 : early ≠ 1) :
    (early = 0 → Completes (.tokenVerifyDone true) s (fun d =>
      d.lcs = { s.chip.lcs with job := none, diagnostic := true, result := 1 } ∧ d.effective = 3 ∧
      OnlyRegs dropRegs s.chip d ∧ Keeps [.regs, .lcs, .evr, .mram, .jnl, .pwr] s.chip d)) ∧
    (∀ g : Bool, early ≠ 0 ∨ g = false → Completes (.tokenVerifyDone g) s (fun d =>
      d.lcs = { s.chip.lcs with job := none, failures := s.chip.lcs.failures + 1,
                                result := if early ≠ 0 then early else 6 } ∧
      OnlyRegs dropRegs s.chip d ∧ Keeps [.regs, .lcs, .evr, .mram, .jnl, .pwr] s.chip d)) := by
  refine ⟨fun h0 => ?_, fun g h0 => ?_⟩
  · subst h0
    have hx := (tokenVerifyDone_eq ha hh hj true).trans (if_neg (by decide))
    refine (tokenVerifyDone_reports hx).imp fun d h => ⟨h.1, effective_of_diagnostic (by rw [h.1]), h.2⟩
  · have hr : tokenOutcome early g = if early ≠ 0 then early else 6 := by
      unfold tokenOutcome
      by_cases h : early = 0
      · obtain rfl : g = false := h0.resolve_left (not_not.2 h)
        rw [if_neg (not_not.2 h), if_neg (not_not.2 h)]
        rfl
      · rw [if_pos h, if_pos h]
    have hn : tokenOutcome early g ≠ 1 := by rw [hr]; split <;> omega
    have hx := (tokenVerifyDone_eq ha hh hj g).trans (if_pos hn)
    rw [hr] at hx
    exact tokenVerifyDone_reports hx

/-! ### The repair row at hand (R575) -/

theorem fuseRowProgrammed_repair (ha : c.alive = true) (hh : c.inHoldup = false)
    (hj : ∀ t b, c.lcs.job ≠ some (.program t b)) : fuseRowProgrammed c = c.repairRowDone := by
  unfold fuseRowProgrammed
  split
  · next t b h => exact absurd h (hj t b)
  · exact if_neg (by simp [ha, hh])

/-- The fuses once the row at hand is used. -/
def Fuses.rowUsed (f : Fuses) (e : RepairEntry × Bool) : Fuses :=
  { f with repairRows := f.repairRows + 1, repairs := if e.2 then f.repairs ++ [e.1] else f.repairs }

theorem Chip.repairRowDone_eq {e : RepairEntry × Bool} {es : List (RepairEntry × Bool)} (h : c.bst.fusing = e :: es) :
    c.repairRowDone = ({ c with fuses := c.fuses.rowUsed e } : Chip).fuseNext es (c.bit R.BST_FUSE_STATUS 10 || !e.2) := by
  unfold Chip.repairRowDone
  rw [h]
  rfl

/-- The last repair row, or the next one begun; `full` where no row is left. -/
theorem Chip.fuseNext_eq (es : List (RepairEntry × Bool)) (failed : Bool) : c.fuseNext es failed =
    if (es.isEmpty || (!es.isEmpty && decide (96 ≤ c.fuses.repairRows))) = true then
      ((({ c with bst := { c.bst with fusing := [], fusePending := (!es.isEmpty && decide (96 ≤ c.fuses.repairRows)) ||
        failed } } : Chip).showFuse (!es.isEmpty && decide (96 ≤ c.fuses.repairRows)) failed).raise 0x07 4)
    else ({ c with bst := { c.bst with fusing := es, fusePending := true } } : Chip).showFuse false failed := rfl

theorem Keeps.showFuse (h : Keeps ps c d) (full failed : Bool) (hr : .regs ∈ ps) : Keeps ps c (d.showFuse full failed) :=
  h.setReg _ _ hr

theorem Chip.onlyRegs_withBst (e : Chip) (x : Bst) : OnlyRegs ks e { e with bst := x } := .of_regs rfl

theorem Chip.onlyRegs_withFuses (e : Chip) (x : Fuses) : OnlyRegs ks e { e with fuses := x } := .of_regs rfl

theorem keeps_fuseNext (es : List (RepairEntry × Bool)) (failed : Bool) : Keeps [.regs, .bst, .pwr] c (c.fuseNext es failed) := by
  rw [Chip.fuseNext_eq]
  exact Keeps.ite (fun _ => (((Keeps.refl _ _).withBst _ (by decide)).showFuse _ _ (by decide)).raise _ _ (by decide) (by decide))
    fun _ => ((Keeps.refl _ _).withBst _ (by decide)).showFuse _ _ (by decide)

theorem onlyRegs_fuseNext (es : List (RepairEntry × Bool)) (failed : Bool) :
    OnlyRegs [R.BST_FUSE_STATUS, pIntStatus 0x07] c (c.fuseNext es failed) := by
  rw [Chip.fuseNext_eq]
  exact OnlyRegs.ite (fun _ => ((Chip.onlyRegs_withBst c _).setReg _ _ (by decide)).raise _ _ (by decide))
    fun _ => (Chip.onlyRegs_withBst c _).setReg _ _ (by decide)

theorem Chip.fuseNext_last (failed : Bool) : c.fuseNext [] failed =
    ((({ c with bst := { c.bst with fusing := [], fusePending := failed } } : Chip).showFuse false failed).raise 0x07 4) := rfl

theorem Chip.fuseNext_more {es : List (RepairEntry × Bool)} (he : es ≠ []) (h : c.fuses.repairRows < 96) (failed : Bool) :
    c.fuseNext es failed = ({ c with bst := { c.bst with fusing := es, fusePending := true } } : Chip).showFuse false failed := by
  have hemp : es.isEmpty = false := by simpa using he
  rw [Chip.fuseNext_eq, if_neg (by rw [hemp, decide_eq_false (by omega : ¬96 ≤ c.fuses.repairRows)]; decide)]

theorem fuseRowProgrammed_repair_completes (s : State) (e : RepairEntry) (good : Bool) (more : List (RepairEntry × Bool))
    (ha : s.chip.alive = true) (hh : s.chip.inHoldup = false) (hf : s.chip.bst.fusing = (e, good) :: more)
    (hj : ∀ t b, s.chip.lcs.job ≠ some (.program t b)) : Completes .fuseRowProgrammed s (fun d =>
      d.fuses = { s.chip.fuses with
        repairRows := s.chip.fuses.repairRows + 1
        repairs := if good then s.chip.fuses.repairs ++ [e] else s.chip.fuses.repairs } ∧
      (more = [] → d.bst.fusing = [] ∧ d.bit (pIntStatus 0x07) 4 = true ∧
        d.bst.fusePending = (s.chip.bit R.BST_FUSE_STATUS 10 || !good)) ∧
      (more ≠ [] → s.chip.fuses.repairRows < 95 → d.bst.fusing = more ∧ d.bst.fusePending = true) ∧
      OnlyRegs [R.BST_FUSE_STATUS, pIntStatus 0x07] s.chip d ∧ Keeps [.regs, .fuses, .bst, .pwr] s.chip d) := by
  let f : Chip := { s.chip with fuses := s.chip.fuses.rowUsed (e, good) }
  let failed := s.chip.bit R.BST_FUSE_STATUS 10 || !good
  have hx : fuseRowProgrammed s.chip = f.fuseNext more failed :=
    (fuseRowProgrammed_repair ha hh hj).trans (Chip.repairRowDone_eq hf)
  have hk : Keeps [.regs, .bst, .pwr] f (f.fuseNext more failed) := keeps_fuseNext more failed
  have ho : OnlyRegs [R.BST_FUSE_STATUS, pIntStatus 0x07] f (f.fuseNext more failed) := onlyRegs_fuseNext more failed
  have hfu : (f.fuseNext more failed).fuses = s.chip.fuses.rowUsed (e, good) := hk.fuses (by decide)
  have hk' : Keeps [.regs, .fuses, .bst, .pwr] s.chip (f.fuseNext more failed) :=
    ((Keeps.refl _ _).withFuses _ (by decide)).trans (hk.mono (by decide))
  have ho' := (Chip.onlyRegs_withFuses s.chip (s.chip.fuses.rowUsed (e, good))).trans ho
  have hlast : more = [] → (f.fuseNext more failed).bst.fusing = [] ∧ (f.fuseNext more failed).bit (pIntStatus 0x07) 4 = true ∧
      (f.fuseNext more failed).bst.fusePending = failed := by
    rintro rfl
    rw [Chip.fuseNext_last]
    exact ⟨rfl, Chip.bit_raise _ _ _ (by decide), rfl⟩
  have hmore : more ≠ [] → s.chip.fuses.repairRows < 95 →
      (f.fuseNext more failed).bst.fusing = more ∧ (f.fuseNext more failed).bst.fusePending = true := by
    intro hm hr
    have hr' : f.fuses.repairRows < 96 := Nat.succ_lt_succ hr
    rw [Chip.fuseNext_more hm hr']
    exact ⟨rfl, rfl⟩
  generalize f.fuseNext more failed = x at hx hfu hk' ho' hlast hmore
  exact completes_eq rfl hx ⟨hfu, hlast, hmore, ho'.settle, hk'.settle⟩

/-! ### DIAGNOSTIC left (R63) -/

theorem Keeps.noteFails (h : Keeps ps c d) (r : BstRun) (fs : List BstFail) (hr : .regs ∈ ps) (hp : .pwr ∈ ps)
    (he : .evr ∈ ps) : Keeps ps c (d.noteFails r fs).1 := by
  unfold Chip.noteFails
  split
  · exact h
  · dsimp only
    split
    · exact h
    · exact h.event _ _ hr hp he

theorem Keeps.showRun (h : Keeps ps c d) (r : Option BstRun) (hr : .regs ∈ ps) (hb : .bst ∈ ps) : Keeps ps c (d.showRun r) := by
  unfold Chip.showRun
  split
  · exact (h.withBst _ hb).setReg _ _ hr
  · exact (h.withBst _ hb).setReg _ _ hr

/-- The parts that the end of a self-test changes. -/
def testParts : List ChipPart := [.regs, .pwr, .evr, .bst, .freeCtr]

theorem Keeps.takeFree (h : Keeps ps c d) (w : Nat) (hf : .freeCtr ∈ ps) : Keeps ps c (d.takeFree w).2 := h.withFreeCtr _ hf

/-- The results of a test in BST_RESULT to BST_SIG_EXP. -/
def Chip.testShown (c : Chip) (r : BstRun) (cause : Nat) : Chip :=
  let result := if r.fails ≠ 0 then 2 else if (cause == 0) = true ∧ r.done = r.planned then 1 else 3
  let c := (c.showRun none).setBit (pStatus (testPage r.test)) 31 false
  let c := c.setReg R.BST_RESULT (BitVec.ofNat 32
    (result + b2n (cause == 0) * 2 ^ 3 + cause * 2 ^ 4 + r.test * 2 ^ 8 + r.algo * 2 ^ 16))
  let c := c.setReg R.BST_PLANNED (BitVec.ofNat 32 r.planned)
  let c := c.setReg R.BST_PATTERN_COUNT (BitVec.ofNat 32 r.done)
  let c := c.setReg R.BST_FAIL_CNT (BitVec.ofNat 32 (min r.fails 0xFFFF))
  let c := c.setReg R.BST_NEXT_SEG (BitVec.ofNat 32 r.seg)
  let c := match r.first with
    | some (addr, bit, el) =>
      (c.setReg R.BST_FAIL_ADDR (BitVec.ofNat 32 addr)).setReg R.BST_FAIL_INFO (BitVec.ofNat 32 (bit + el % 16 * 2 ^ 8))
    | none => (c.setReg R.BST_FAIL_ADDR 0).setReg R.BST_FAIL_INFO 0
  c.setReg R.BST_SIG_EXP r.sig

theorem keeps_testShown (r : BstRun) (cause : Nat) : Keeps testParts c (c.testShown r cause) := by
  have h0 : Keeps testParts c ((c.showRun none).setBit (pStatus (testPage r.test)) 31 false) :=
    ((Keeps.refl _ _).showRun none (by decide) (by decide)).setBit _ _ _ (by decide)
  unfold Chip.testShown
  dsimp only
  refine Keeps.setReg ?_ _ _ (by decide)
  split
  · exact ((((((h0.setReg _ _ (by decide)).setReg _ _ (by decide)).setReg _ _ (by decide)).setReg _ _ (by decide)).setReg
      _ _ (by decide)).setReg _ _ (by decide)).setReg _ _ (by decide)
  · exact ((((((h0.setReg _ _ (by decide)).setReg _ _ (by decide)).setReg _ _ (by decide)).setReg _ _ (by decide)).setReg
      _ _ (by decide)).setReg _ _ (by decide)).setReg _ _ (by decide)

/-- BST_SIG and the interrupts of a test that has ended. -/
def Chip.testReported (c : Chip) (r : BstRun) (cause : Nat) : Chip :=
  let result := if r.fails ≠ 0 then 2 else if (cause == 0) = true ∧ r.done = r.planned then 1 else 3
  let p : Word × Chip := if (cause == 0) = true ∧ r.fails = 0 then (r.sig, c) else c.takeFree 32
  let c := (p.2.setReg R.BST_SIG p.1).raise 0x07 0
  if result = 2 then c.raise 0x07 1
  else if result = 3 then (c.raise 0x07 2).event 0x1C02 [r.test, r.done]
  else c

theorem keeps_testReported (r : BstRun) (cause : Nat) : Keeps [.regs, .pwr, .evr, .freeCtr] c (c.testReported r cause) := by
  unfold Chip.testReported
  dsimp only
  generalize hp : (if (cause == 0) = true ∧ r.fails = 0 then (r.sig, c) else c.takeFree 32) = p
  have h : Keeps [.regs, .pwr, .evr, .freeCtr] c p.2 := by
    rw [← hp]
    split
    · exact Keeps.refl _ _
    · exact (Keeps.refl _ _).takeFree 32 (by decide)
  have h1 := (h.setReg R.BST_SIG p.1 (by decide)).raise 0x07 0 (by decide) (by decide)
  exact Keeps.ite (fun _ => h1.raise _ _ (by decide) (by decide)) fun _ =>
    Keeps.ite (fun _ => (h1.raise _ _ (by decide) (by decide)).event _ _ (by decide) (by decide) (by decide)) fun _ => h1

theorem Chip.endTest_eq (r : BstRun) (cause : Nat) : c.endTest r cause = (c.testShown r cause).testReported r cause := rfl

theorem keeps_endTest (r : BstRun) (cause : Nat) : Keeps testParts c (c.endTest r cause) := by
  rw [Chip.endTest_eq]
  exact (keeps_testShown r cause).step (keeps_testReported r cause) (by decide)

theorem keeps_cutTest (cause elements : Nat) (fs : List BstFail) : Keeps testParts c (c.cutTest cause elements fs) := by
  unfold Chip.cutTest
  split
  · exact Keeps.refl _ _
  · next r _ =>
    have h : Keeps testParts c (c.noteFails r fs).1 := (Keeps.refl _ _).noteFails r fs (by decide) (by decide) (by decide)
    exact h.step (keeps_endTest _ cause) (by decide)

theorem keeps_cutTestNow (cause : Nat) : Keeps testParts c (c.cutTestNow cause) :=
  Keeps.ite (fun _ => Keeps.refl _ _) fun _ =>
    ((Keeps.refl _ _).takeFree 4 (by decide)).step (keeps_cutTest cause _ []) (by decide)

theorem keeps_resetDiag : Keeps [.regs] c c.resetDiag := by
  have h : Keeps [.regs] c (linePages.foldl Chip.resetDiagPage c) :=
    Keeps.foldl _ _ (fun d page _ hd => Keeps.foldl _ _ (fun e r _ he =>
      Keeps.ite (fun _ => he) fun _ => he.setReg _ _ (by decide)) hd) (Keeps.refl _ _)
  exact (h.setReg _ _ (by decide)).setReg _ _ (by decide)

theorem keeps_afterTest (was : Option BstRun) : Keeps runParts c (c.afterTest was) := by
  unfold Chip.afterTest
  split
  · exact Keeps.refl _ _
  · exact Keeps.ite (fun _ => Keeps.refl _ _) fun _ => Keeps.ite (fun _ => keeps_runChannel .A) fun _ =>
      Keeps.ite (fun _ => keeps_runChannel .B) fun _ => Keeps.refl _ _

/-- Only the tests of the channels' loops make a channel wait. -/
theorem Chip.afterTest_other {was : Option BstRun} (h16 : was.any (fun r => r.test == 16) = false)
    (h17 : was.any (fun r => r.test == 17) = false) : c.afterTest was = c := by
  unfold Chip.afterTest
  cases was with
  | none => rfl
  | some r =>
    have h1 : r.test ≠ 16 := by simpa using h16
    have h2 : r.test ≠ 17 := by simpa using h17
    dsimp only
    rw [if_neg h1, if_neg h2]
    split <;> rfl

/-- DIAGNOSTIC ended, before a channel that a test held goes on. -/
def Chip.diagnosticEnded (c : Chip) : Chip :=
  Chip.resetDiag { c.cutTestNow 2 with lcs := { (c.cutTestNow 2).lcs with diagnostic := false } }

theorem Chip.endDiagnostic_eq : c.endDiagnostic = c.diagnosticEnded.afterTest c.bst.run := rfl

theorem keeps_diagnosticEnded : Keeps (.lcs :: testParts) c c.diagnosticEnded :=
  (((keeps_cutTestNow 2).mono (by decide)).withLcs _ (by decide)).step keeps_resetDiag (by decide)

theorem lcs_diagnosticEnded : c.diagnosticEnded.lcs = { c.lcs with diagnostic := false } := by
  rw [Chip.diagnosticEnded, (keeps_resetDiag).lcs (by decide)]
  show { (c.cutTestNow 2).lcs with diagnostic := false } = _
  rw [(keeps_cutTestNow 2).lcs (by decide)]

theorem keeps_endDiagnostic : Keeps ([.lcs, .bst] ++ mediaParts) c c.endDiagnostic := by
  rw [Chip.endDiagnostic_eq]
  exact ((keeps_diagnosticEnded).mono (by decide)).step (keeps_afterTest c.bst.run) (by decide)

theorem lcs_endDiagnostic : c.endDiagnostic.lcs = { c.lcs with diagnostic := false } := by
  rw [Chip.endDiagnostic_eq, (keeps_afterTest c.bst.run).lcs (by decide), lcs_diagnosticEnded]

theorem keeps_endDiagnostic_free (h16 : c.testing 16 = false) (h17 : c.testing 17 = false) :
    Keeps [.regs, .lcs, .evr, .pwr, .bst, .freeCtr] c c.endDiagnostic := by
  rw [Chip.endDiagnostic_eq, Chip.afterTest_other h16 h17]
  exact (keeps_diagnosticEnded).mono (by decide)

theorem relock_completes {s : State} (ha : s.chip.alive = true) (hd : s.chip.lcs.diagnostic = true) :
    Completes .relock s (fun d =>
      d.lcs = { s.chip.lcs with diagnostic := false } ∧ (s.chip.testing 16 = false → s.chip.testing 17 = false →
        Keeps [.regs, .lcs, .evr, .pwr, .bst, .freeCtr] s.chip d) ∧ Keeps ([.lcs, .bst] ++ mediaParts) s.chip d) := by
  have hx : relock s.chip = s.chip.endDiagnostic := if_neg (by simp [ha, hd])
  have hl : s.chip.endDiagnostic.lcs = { s.chip.lcs with diagnostic := false } := lcs_endDiagnostic
  have hf := fun h16 h17 => keeps_endDiagnostic_free (c := s.chip) h16 h17
  have hk : Keeps ([.lcs, .bst] ++ mediaParts) s.chip s.chip.endDiagnostic := keeps_endDiagnostic
  generalize s.chip.endDiagnostic = e at hx hl hf hk
  exact completes_eq rfl hx ⟨(Chip.settle_lcs e).trans hl, fun h16 h17 => (hf h16 h17).settle, hk.settle⟩

/-! ### The life-cycle row (R19, R65) -/

/-- The row programmed and the fused state advanced. -/
def Chip.rowProgrammed (c : Chip) (t : Life) : Chip :=
  { c with fuses := c.fuses.setRow t .programmed, lcs := { c.lcs with job := none, fused := t, result := 1 } }

theorem keeps_rowProgrammed (t : Life) : Keeps [.fuses, .lcs] c (c.rowProgrammed t) :=
  ((Keeps.refl _ _).withFuses (c.fuses.setRow t .programmed) (by decide)).withLcs _ (by decide)

theorem onlyRegs_rowProgrammed (t : Life) : OnlyRegs ks c (c.rowProgrammed t) := .of_regs rfl

theorem fuseRowProgrammed_waits {b : Bool} (hj : c.lcs.job = some (.program .retired b)) (hw : c.destroyWaits = true) :
    fuseRowProgrammed c = c := by
  unfold fuseRowProgrammed
  rw [hj]
  exact if_pos (by simp [hw])

theorem fuseRowProgrammed_row (ha : c.alive = true) (hh : c.inHoldup = false) {t : Life} {b : Bool}
    (hj : c.lcs.job = some (.program t b)) (hw : t = .retired → c.destroyWaits = false) : fuseRowProgrammed c =
      (if c.lcs.diagnostic && t == Life.retired then (c.rowProgrammed t).endDiagnostic
        else c.rowProgrammed t).history 2 t.code := by
  unfold fuseRowProgrammed
  rw [hj]
  have hb : (t == Life.retired && c.destroyWaits) = false := by
    by_cases ht : t = .retired
    · rw [hw ht, Bool.and_false]
    · rw [beq_false_of_ne ht, Bool.false_and]
  exact if_neg (by simp [ha, hh, hb])

/-- The chip once a life-cycle row is programmed, DIAGNOSTIC left where it is RETIRED's. -/
def Chip.rowEnded (c : Chip) (t : Life) : Chip :=
  if c.lcs.diagnostic && t == Life.retired then (c.rowProgrammed t).endDiagnostic else c.rowProgrammed t

theorem keeps_rowEnded (t : Life) : Keeps ([.fuses, .lcs, .bst] ++ mediaParts) c (c.rowEnded t) :=
  Keeps.ite (fun _ => ((keeps_rowProgrammed t).mono (by decide)).step keeps_endDiagnostic (by decide))
    fun _ => (keeps_rowProgrammed t).mono (by decide)

theorem keeps_rowEnded_free (t : Life) (h16 : c.testing 16 = false) (h17 : c.testing 17 = false) :
    Keeps [.regs, .fuses, .lcs, .evr, .pwr, .bst, .freeCtr] c (c.rowEnded t) :=
  Keeps.ite (fun _ => ((keeps_rowProgrammed t).mono (by decide)).step
    (keeps_endDiagnostic_free (c := c.rowProgrammed t) h16 h17) (by decide))
    fun _ => (keeps_rowProgrammed t).mono (by decide)

theorem Chip.rowEnded_closed (h : c.lcs.diagnostic = false) (t : Life) : c.rowEnded t = c.rowProgrammed t :=
  if_neg (by simp [h])

theorem fuses_rowEnded (t : Life) : (c.rowEnded t).fuses = c.fuses.setRow t .programmed := by
  unfold Chip.rowEnded
  split
  · rw [(keeps_endDiagnostic).fuses (by decide)]
    rfl
  · rfl

theorem lcs_rowEnded (t : Life) : (c.rowEnded t).lcs = { c.lcs with
    job := none, fused := t, result := 1, diagnostic := c.lcs.diagnostic && !(t == Life.retired) } := by
  unfold Chip.rowEnded
  split
  · next h =>
    obtain ⟨h1, h2⟩ := Bool.and_eq_true_iff.1 h
    rw [lcs_endDiagnostic, h2, Bool.not_true, Bool.and_false]
    rfl
  · next h =>
    have hd : (c.lcs.diagnostic && !(t == Life.retired)) = c.lcs.diagnostic := by
      cases hd : c.lcs.diagnostic
      · rfl
      · simpa [hd] using h
    rw [hd]
    rfl

theorem keeps_history (c : Chip) (ev detail : Nat) : Keeps [.mram, .jnl] c (c.history ev detail) :=
  (Keeps.refl _ _).history ev detail (by decide) (by decide)

theorem fuseRowProgrammed_row_completes {s : State} {t : Life} {b : Bool} (ha : s.chip.alive = true)
    (hh : s.chip.inHoldup = false) (hj : s.chip.lcs.job = some (.program t b))
    (hw : t = .retired → s.chip.destroyWaits = false) : Completes .fuseRowProgrammed s (fun d =>
      d.fuses = s.chip.fuses.setRow t .programmed ∧ d.lcs.job = none ∧ d.lcs.fused = t ∧ d.lcs.result = 1 ∧
      (s.chip.lcs.diagnostic = false → OnlyRegs dropRegs s.chip d ∧
        Keeps [.regs, .fuses, .lcs, .evr, .mram, .jnl, .pwr] s.chip d) ∧
      (t = .retired → d.lcs.diagnostic = false) ∧
      (s.chip.testing 16 = false → s.chip.testing 17 = false →
        Keeps [.regs, .fuses, .lcs, .evr, .mram, .jnl, .pwr, .bst, .freeCtr] s.chip d) ∧
      Keeps ([.fuses, .lcs, .bst] ++ mediaParts) s.chip d) := by
  let e := s.chip.rowEnded t
  have hx : fuseRowProgrammed s.chip = e.history 2 t.code := fuseRowProgrammed_row ha hh hj hw
  have hk : Keeps [.mram, .jnl] e (e.history 2 t.code) := keeps_history e 2 t.code
  have ho : OnlyRegs dropRegs e (e.history 2 t.code) := onlyRegs_history e 2 t.code
  have hf : (e.history 2 t.code).fuses = s.chip.fuses.setRow t .programmed :=
    (hk.fuses (by decide)).trans (fuses_rowEnded t)
  have hl : (e.history 2 t.code).lcs = { s.chip.lcs with
      job := none, fused := t, result := 1, diagnostic := s.chip.lcs.diagnostic && !(t == Life.retired) } :=
    (hk.lcs (by decide)).trans (lcs_rowEnded t)
  have hclosed : s.chip.lcs.diagnostic = false → OnlyRegs dropRegs s.chip (e.history 2 t.code) ∧
      Keeps [.regs, .fuses, .lcs, .evr, .mram, .jnl, .pwr] s.chip (e.history 2 t.code) := fun h => by
    have he : e = s.chip.rowProgrammed t := Chip.rowEnded_closed h t
    have h1 : OnlyRegs dropRegs s.chip e := by rw [he]; exact onlyRegs_rowProgrammed t
    have h2 : Keeps [.fuses, .lcs] s.chip e := by rw [he]; exact keeps_rowProgrammed t
    exact ⟨h1.trans ho, (h2.mono (by decide)).step hk (by decide)⟩
  have hfree : s.chip.testing 16 = false → s.chip.testing 17 = false →
      Keeps [.regs, .fuses, .lcs, .evr, .mram, .jnl, .pwr, .bst, .freeCtr] s.chip (e.history 2 t.code) := fun h16 h17 =>
    ((keeps_rowEnded_free t h16 h17).mono (by decide)).step hk (by decide)
  have hall : Keeps ([.fuses, .lcs, .bst] ++ mediaParts) s.chip (e.history 2 t.code) := (keeps_rowEnded t).step hk (by decide)
  generalize e.history 2 t.code = f at hx hf hl hclosed hfree hall
  have hl' := (Chip.settle_lcs f).trans hl
  refine completes_eq rfl hx ⟨(Chip.settle_fuses f).trans hf, ?_, ?_, ?_, fun h => ⟨(hclosed h).1.settle, (hclosed h).2.settle⟩,
    fun ht => ?_, fun h16 h17 => (hfree h16 h17).settle, hall.settle⟩
  · rw [hl']
  · rw [hl']
  · rw [hl']
  · rw [hl', ht]
    exact Bool.and_false _

/-- Settles O18. -/
theorem lifeCycleAdvancesOnlyAsStated : Obligations.LifeCycleAdvancesOnlyAsStated := by
  refine ⟨fun s hb => ⟨fun t k => completes_eq rfl (lcsAdvance_busy hb _ _) rfl, completes_eq rfl (tokenStart_busy hb) rfl⟩,
    fuseRowProgrammed_repair_completes, fun s ha hb => ⟨fun hf => lcsAdvance_programs (lcsAdvance_blank ha hb hf),
      fun hf hi hu hr => lcsAdvance_programs (lcsAdvance_manufacture ha hb hf hi hu hr),
      fun t k h => lcsAdvance_refused (lcsAdvance_bad ha hb h), tokenStart_completes ha hb⟩,
    fun s t b _ _ hj ht hw => ?_, fun s t b ha hh hj hw => fuseRowProgrammed_row_completes ha hh hj hw,
    fun s early ha hh hj h1 => tokenVerifyDone_completes ha hh hj h1, fun s ha hd => relock_completes ha hd, fun s hd => ?_⟩
  · exact completes_eq rfl (fuseRowProgrammed_waits (ht ▸ hj) hw) rfl
  · exact completes_eq rfl (if_pos (by simp [hd])) rfl

end Sys2Proof.Machine
end

section
namespace Sys2Proof.Machine

/-! ## HOLDUP and a core that does not exist (R297, R476, O8)

The end of a read descriptor in HOLDUP answers the core accesses that wait for its slots, and an access that
fails leaves its cause in CPU_ABT of the waiting core (R297, R497). The model keeps the waiting core as a number
without a bound, so a state that no run reaches may name core 2000, whose CPU_ABT lies in the DBG page. O8 says
of every state that HOLDUP leaves the registers of that page. -/

/-- The chip that a command which goes on to the next state leaves. -/
theorem chip_of_next {i : Instr} {s : State} {c d : Chip} (h : exec i s = s.next c)
    (hd : exec i s = .next { s with chip := d }) : d = c.settle := by
  have he : (Host.Outcome.next { s with chip := d } : Host.Outcome State Fault Refusal) = s.next c := hd.symm.trans h
  exact congrArg State.chip (Host.Outcome.next.inj he)

/-- A chip in BOOT with a read descriptor queued on channel A and, waiting for its slot, an access of core 2000. -/
def strayWait : Chip :=
  { State.reset.chip with
    sys := { State.reset.chip.sys with booting := true }
    chanA := { State.reset.chip.chanA with
      queue := [{ words := ⟨0, 0, 0, 0, 0, 0, 0, 0⟩, write := false, by_ := .firmware }] }
    cpu := { State.reset.chip.cpu with waits := [{ core := 2000, access := { kind := .load, addr := 0, size := 8 } }] } }

/-- The access ends with its cause in CPU_ABT of core 2000, which is the first register of the DBG page. -/
theorem strayWait_holdup : R.CPU_ABT 2000 = 0x58000 ∧
    (strayWait.holdupBegin .pin).reg 0x58000 ≠ strayWait.reg 0x58000 := ⟨rfl, by decide⟩

/-- Refutes O8: in `strayWait` SYS_RESET_N low changes register 0x58000 of the DBG page. With waiting cores
below 8, as every run keeps them, the counterexample is not one. -/
theorem not_everyResetSourceButPowerOnBeginsHoldup : ¬ Obligations.EveryResetSourceButPowerOnBeginsHoldup := by
  intro h
  obtain ⟨-, ⟨d, hd, ⟨-, -, -, -, -, -, -, -, hregs, -⟩, -⟩, -⟩ := h { State.reset with chip := strayWait } rfl rfl
  have hp : 0x58000 / 4096 ∈ [0x08, 0x58] := by norm_num
  have hk := hregs 0x58000 hp
  rw [chip_of_next (c := strayWait.holdupBegin .pin) rfl hd, Chip.reg_settle] at hk
  exact strayWait_holdup.2 hk

end Sys2Proof.Machine
end

section
namespace Sys2Proof.Machine

variable {c d : Chip} {ps : List ChipPart} {ks : List Nat}

/-! ## What a journal commit leaves (R41, R449, R462)

A commit writes its records, applies them to the tables, posts its completions and may start a checkpoint. It
never touches the boot's own registers nor what decides CSTS.RDY; `OpFrame` says so, with the parts it may
change. Each operation on the tables has one lemma. -/

/-- What MAP_LOAD reads and writes of the registers. -/
def bootRegs : List Nat := [R.SYS_BOOT_STEP, R.JNL_REPLAY, R.SYS_REBUILD_POLICY]

/-- The parts a journal commit may change. -/
def opParts : List ChipPart :=
  [.regs, .mram, .jnl, .nvq, .loc, .bcl, .sec, .seg, .nand, .nfc, .pwr, .out, .freeCtr]

/-- Enable, fatal status and ready of a controller, and of both. -/
def Cntl.flags (y : Cntl) : Bool × Bool × Bool := (y.en, y.cfs, y.rdy)

def Nvq.flags (n : Nvq) : (Bool × Bool × Bool) × Bool × Bool × Bool := (n.c1.flags, n.c2.flags)

theorem Nvq.flags_setCntl (n : Nvq) (i : Nat) {x : Cntl} (hx : x.flags = (n.cntl i).flags) :
    (n.setCntl i x).flags = n.flags := by
  unfold Nvq.setCntl Nvq.cntl at *
  split
  · next h => rw [if_pos h] at hx; exact congrArg (·, n.c2.flags) hx
  · next h => rw [if_neg h] at hx; exact congrArg (n.c1.flags, ·) hx

/-- Only the parts of a commit change, the boot's registers and the controllers' status not. -/
structure OpFrame (c d : Chip) : Prop where
  keeps : Keeps opParts c d
  regs : ∀ k ∈ bootRegs, d.reg k = c.reg k
  flags : d.nvq.flags = c.nvq.flags

namespace OpFrame

theorem refl (c : Chip) : OpFrame c c := ⟨Keeps.refl _ _, fun _ _ => rfl, rfl⟩

theorem trans {e : Chip} (h : OpFrame c d) (g : OpFrame d e) : OpFrame c e :=
  ⟨h.keeps.trans g.keeps, fun k hk => (g.regs k hk).trans (h.regs k hk), g.flags.trans h.flags⟩

/-- A change of other parts than the registers and the queues. -/
theorem lift {qs : List ChipPart} {e : Chip} (h : OpFrame c d) (g : Keeps qs d e) (hs : qs ⊆ opParts) (hr : .regs ∉ qs)
    (hn : .nvq ∉ qs) : OpFrame c e :=
  ⟨h.keeps.step g hs, fun k hk => (g.reg hr k).trans (h.regs k hk), (congrArg Nvq.flags (g.nvq hn)).trans h.flags⟩

theorem ite {p : Prop} [Decidable p] {d e : Chip} (h : p → OpFrame c d) (g : ¬p → OpFrame c e) :
    OpFrame c (if p then d else e) := by
  split
  · exact h ‹_›
  · exact g ‹_›

theorem foldl {α : Type} (f : Chip → α → Chip) (hf : ∀ (d : Chip) (x : α), OpFrame c d → OpFrame c (f d x))
    (l : List α) (h : OpFrame c d) : OpFrame c (l.foldl f d) := by
  induction l generalizing d with
  | nil => exact h
  | cons x l ih => exact ih (hf d x h)

/-! ### Registers -/

theorem setReg (h : OpFrame c d) (k : Nat) (v : Word) (hk : k ∉ bootRegs) : OpFrame c (d.setReg k v) :=
  ⟨h.keeps.setReg k v (by decide), fun j hj => (Chip.reg_setReg_ne (k := k) (j := j) d v fun e => hk (e ▸ hj)).trans (h.regs j hj), h.flags⟩

theorem setFld (h : OpFrame c d) (k hi lo n : Nat) (hk : k ∉ bootRegs) : OpFrame c (d.setFld k hi lo n) := h.setReg _ _ hk

theorem setBit (h : OpFrame c d) (k i : Nat) (b : Bool) (hk : k ∉ bootRegs) : OpFrame c (d.setBit k i b) := h.setReg _ _ hk

theorem bump (h : OpFrame c d) (k : Nat) (hk : k ∉ bootRegs) : OpFrame c (d.bump k) := h.setReg _ _ hk

theorem raise (h : OpFrame c d) (page i : Nat) (hk : pIntStatus page ∉ bootRegs) : OpFrame c (d.raise page i) :=
  (h.setBit _ i true hk).lift ((Keeps.refl [.pwr] _).wake page (by decide)) (by decide) (by decide) (by decide)

/-! ### Parts -/

theorem setLoc (h : OpFrame c d) (x : Loc) : OpFrame c { d with loc := x } :=
  h.lift ((Keeps.refl [.loc] _).withLoc x (by decide)) (by decide) (by decide) (by decide)

theorem setBcl (h : OpFrame c d) (x : Bcl) : OpFrame c { d with bcl := x } :=
  h.lift ((Keeps.refl [.bcl] _).withBcl x (by decide)) (by decide) (by decide) (by decide)

theorem setSeg (h : OpFrame c d) (x : Seg) : OpFrame c { d with seg := x } :=
  h.lift ((Keeps.refl [.seg] _).withSeg x (by decide)) (by decide) (by decide) (by decide)

theorem setSec (h : OpFrame c d) (x : Sec) : OpFrame c { d with sec := x } :=
  h.lift ((Keeps.refl [.sec] _).withSec x (by decide)) (by decide) (by decide) (by decide)

theorem setNand (h : OpFrame c d) (x : Nand) : OpFrame c { d with nand := x } :=
  h.lift ((Keeps.refl [.nand] _).withNand x (by decide)) (by decide) (by decide) (by decide)

theorem setJnl (h : OpFrame c d) (x : Jnl) : OpFrame c { d with jnl := x } :=
  h.lift ((Keeps.refl [.jnl] _).setJnl x (by decide)) (by decide) (by decide) (by decide)

theorem setOut (h : OpFrame c d) (x : List Out) : OpFrame c { d with out := x } :=
  h.lift (Keeps.of_part (q := .out) (Keeps.refl [.out] d) (by decide) fun p _ => by cases p <;> trivial) (by decide)
    (by decide) (by decide)

theorem setFreeCtr (h : OpFrame c d) (x : Nat) : OpFrame c { d with freeCtr := x } :=
  h.lift ((Keeps.refl [.freeCtr] _).withFreeCtr x (by decide)) (by decide) (by decide) (by decide)

theorem writeSlot (h : OpFrame c d) (slot : Nat) (bs : List Byte) : OpFrame c (d.writeSlot slot bs) :=
  h.lift ((Keeps.refl [.mram] _).writeSlot slot bs (by decide)) (by decide) (by decide) (by decide)

theorem writeGroup (h : OpFrame c d) (slot typ : Nat) (fs : List (Nat × Nat × Nat)) : OpFrame c (d.writeGroup slot typ fs) :=
  h.lift ((Keeps.refl [.mram] _).writeGroup slot typ fs (by decide)) (by decide) (by decide) (by decide)

theorem writeKey (h : OpFrame c d) (g kind set : Nat) (key : BitVec 256) : OpFrame c (d.writeKey g kind set key) :=
  h.lift ((Keeps.refl [.mram] _).writeKey g kind set key (by decide)) (by decide) (by decide) (by decide)

/-- A change of the queues that leaves the controllers' status. -/
theorem setNvq (h : OpFrame c d) (x : Nvq) (hx : x.flags = d.nvq.flags) : OpFrame c { d with nvq := x } :=
  ⟨h.keeps.withNvq x (by decide), h.regs, hx.trans h.flags⟩

theorem mapCntl (h : OpFrame c d) (i : Nat) (f : Cntl → Cntl) (hf : ∀ y, (f y).flags = y.flags) :
    OpFrame c (d.mapCntl i f) := h.setNvq _ (Nvq.flags_setCntl _ i (hf _))

theorem mapCmd (h : OpFrame c d) (seq : Nat) (f : InCmd → InCmd) : OpFrame c (d.mapCmd seq f) := h.setNvq _ rfl

/-! ### The location tables -/

theorem setZone (h : OpFrame c d) (i : Nat) (z : Zone) : OpFrame c (d.setZone i z) := h.setLoc _

theorem mapBand (h : OpFrame c d) (k : Nat) (f : Band → Band) : OpFrame c (d.mapBand k f) := h.setLoc _

theorem unmapBand (h : OpFrame c d) (k reason : Nat) (secure : Bool) (number nsid : Nat) :
    OpFrame c (d.unmapBand k reason secure number nsid) := (h.mapBand _ _).setBcl _

theorem discardUnmapped (h : OpFrame c d) (i k : Nat) : OpFrame c (d.discardUnmapped i k) := h.setBcl _

theorem clearStale (h : OpFrame c d) (a : Act) (n : Nat) : OpFrame c (d.clearStale a n) := h.setLoc _

theorem markStale (h : OpFrame c d) (a : Act) (n : Nat) : OpFrame c (d.markStale a n) :=
  ite (fun _ => (h.setLoc _).raise 0x19 3 (by decide)) fun _ => h.setLoc _

theorem hotRemove (h : OpFrame c d) (zone unit : Nat) : OpFrame c (d.hotRemove zone unit) := by
  unfold Chip.hotRemove
  split
  · exact h
  · next x _ =>
    dsimp only
    have h1 := h.setLoc { d.loc with hot := d.loc.hot.erase (unitKey zone unit) }
    have h2 := ite (p := x.kind = 1) (fun _ => h1.markStale (zoneAct zone) x.csec) fun _ => h1
    exact ite (fun _ => h2.setZone _ _) fun _ => h2

theorem hotClearZone (h : OpFrame c d) (i : Nat) : OpFrame c (d.hotClearZone i) :=
  foldl _ (fun _ _ h => h.hotRemove _ _) _ h

theorem emptyZone (h : OpFrame c d) (i gen : Nat) : OpFrame c (d.emptyZone i gen) := by
  unfold Chip.emptyZone
  dsimp only
  refine OpFrame.setZone (OpFrame.setLoc (OpFrame.hotClearZone ?_ i) _) _ _
  split
  · exact (h.unmapBand _ _ _ _ _).discardUnmapped _ _
  · exact h

theorem setQueue (h : OpFrame c d) (a : Act) (q : List Job) : OpFrame c (d.setQueue a q) := by
  cases a <;> exact h.setBcl _

theorem setJob (h : OpFrame c d) (a : Act) (j : Option Job) : OpFrame c (d.setJob a j) := h.setBcl _

theorem queueJob (h : OpFrame c d) (j : Job) : OpFrame c (d.queueJob j) :=
  ite (fun _ => h) fun _ => ite (fun _ => h.raise 0x19 4 (by decide)) fun _ => h.setQueue _ _

theorem checkFreeLow (h : OpFrame c d) (a : Act) (was : Nat) : OpFrame c (d.checkFreeLow a was) :=
  ite (fun _ => h.raise 0x18 2 (by decide)) fun _ => h

theorem openBand (h : OpFrame c d) (k n : Nat) (salt : BitVec 128) : OpFrame c (d.openBand k n salt) :=
  (h.mapBand _ _).checkFreeLow _ _

theorem hotInsert (h : OpFrame c d) (zone unit kind csec : Nat) : OpFrame c (d.hotInsert zone unit kind csec) := by
  have h1 := h.hotRemove zone unit
  unfold Chip.hotInsert
  generalize d.hotRemove zone unit = e at h1
  dsimp only
  split
  · exact h1
  · next b _ =>
    have h2 := h1.setLoc { e.loc with hot := e.loc.hot.set (unitKey zone unit) ⟨kind, csec, b⟩ }
    generalize ({ e with loc := { e.loc with hot := e.loc.hot.set (unitKey zone unit) ⟨kind, csec, b⟩ } } : Chip) = f at h2 ⊢
    have h3 := h2.setZone zone { f.zone zone with hot := true, passed := (f.zone zone).passed.filter (· != unit) }
    have h4 := ite (p := kind = 1) (fun _ => h3.clearStale (zoneAct zone) csec) fun _ => h3
    exact ite (fun _ => h4.raise 0x18 0 (by decide)) fun _ => h4

theorem unstage (h : OpFrame c d) (zone : Nat) (p : Staged → Nat → Bool) : OpFrame c (d.unstage zone p) := h.setNvq _ rfl

theorem freeStaging (h : OpFrame c d) (i : Nat) (p : Nat → Bool) : OpFrame c (d.freeStaging i p) := h.unstage _ _

theorem applyHot (h : OpFrame c d) (x : HotRec) : OpFrame c (d.applyHot x) := by
  unfold Chip.applyHot
  dsimp only
  refine ite (fun _ => h) fun _ => ite (fun _ => h.hotRemove _ _) fun _ => OpFrame.freeStaging ?_ _ _
  exact ite (fun _ => (h.hotInsert _ _ _ _).setZone _ _) fun _ => h.hotInsert _ _ _ _

theorem repage (h : OpFrame c d) (i : Nat) : OpFrame c (d.repage i) := h.setLoc _

theorem repaged (h : OpFrame c d) (before : Chip) : OpFrame c (d.repaged before) :=
  ite (fun _ => foldl _ (fun _ _ h => ite (fun _ => h.repage _) fun _ => h) _ h) fun _ => h

theorem destroyKey (h : OpFrame c d) (k : Nat) : OpFrame c (d.destroyKey k) := by
  unfold Chip.destroyKey
  split
  · exact h
  · exact ((h.mapBand _ _).setSec _).bump _ (by decide)

/-! ### The Segment Store -/

theorem dropValue (h : OpFrame c d) (key : List Byte) : OpFrame c (d.dropValue key) := h.setSeg _

theorem putValue (h : OpFrame c d) (v : Value) : OpFrame c (d.putValue v) := h.setSeg _

theorem addLive (h : OpFrame c d) (e : Extent) : OpFrame c (d.addLive e) := h.setZone _ _

theorem dropExtent (h : OpFrame c d) (e : Extent) : OpFrame c (d.dropExtent e) :=
  ite (fun _ => h.emptyZone _ _) fun _ => ite (fun _ => (h.setZone _ _).queueJob _) fun _ => h.setZone _ _

theorem dropExtents (h : OpFrame c d) (v : Value) : OpFrame c (d.dropExtents v) :=
  foldl _ (fun _ _ h => h.dropExtent _) _ h

theorem freeValue (h : OpFrame c d) (order : Nat) : OpFrame c (d.freeValue order) := h.setNvq _ rfl

theorem settleValue (h : OpFrame c d) (key : List Byte) (len : Nat) : OpFrame c (d.settleValue key len) := by
  unfold Chip.settleValue
  dsimp only
  split
  · split
    · exact (h.freeValue _).setSeg _
    · exact h.setSeg _
  · split
    · exact (h.freeValue _).setSeg _
    · exact h.setSeg _

theorem applyAppend (h : OpFrame c d) (begun : List Extent) (key : List Byte) (flags act len expires zone fin : Nat) :
    OpFrame c (d.applyAppend begun key flags act len expires zone fin) := by
  unfold Chip.applyAppend
  dsimp only
  refine OpFrame.settleValue (OpFrame.putValue (foldl _ (fun _ _ h => h.addLive _) _ ?_) _) _ _
  split
  · exact ite (fun _ => (h.dropExtents _).dropValue _) fun _ => h
  · exact h

/-! ### Posting completions -/

theorem signal (h : OpFrame c d) (i v : Nat) : OpFrame c (d.signal i v) :=
  ite (fun _ => h.mapCntl i _ fun _ => rfl) fun _ => h.setOut _

theorem release_ (h : OpFrame c d) (i v : Nat) : OpFrame c (d.release_ i v) :=
  OpFrame.signal (h.mapCntl i _ (by intro _; rfl)) i v

theorem interrupt (h : OpFrame c d) (q : Cq) (n : Nat) : OpFrame c (d.interrupt q n) :=
  ite (fun _ => h) fun _ => ite (fun _ => h.signal _ _) fun _ => ite (fun _ => h.release_ _ _) fun _ =>
    h.mapCntl _ _ fun _ => rfl

theorem setPosted (h : OpFrame c d) (x : Nvq) (o : List Out) (hx : x.flags = d.nvq.flags) :
    OpFrame c { d with nvq := x, out := o } := (h.setNvq x hx).setOut o

theorem postQueue (h : OpFrame c d) (cntl qid : Nat) : OpFrame c (d.postQueue cntl qid) := by
  unfold Chip.postQueue
  dsimp only
  split
  · exact OpFrame.interrupt (h.setPosted _ _ (by rfl)) _ _
  · exact h.setPosted _ _ (by rfl)

theorem finish (h : OpFrame c d) (r : Completion) : OpFrame c (d.finish r) := by
  unfold Chip.finish
  split
  · exact h
  · split
    · exact h
    · dsimp only
      exact ite (fun _ => h) fun _ => (h.mapCmd _ _).postQueue _ _

theorem noticeTo (h : OpFrame c d) (cntl info : Nat) : OpFrame c (d.noticeTo cntl info) := by
  unfold Chip.noticeTo
  split
  · exact h.finish _
  · exact ite (fun _ => h.mapCntl _ _ fun _ => rfl) fun _ => h

theorem noticeIf (h : OpFrame c d) (cntl bit info : Nat) : OpFrame c (d.noticeIf cntl bit info) :=
  ite (fun _ => h.noticeTo _ _) fun _ => h

theorem notice (h : OpFrame c d) (bit info : Nat) : OpFrame c (d.notice bit info) := (h.noticeIf 0 _ _).noticeIf 1 _ _

theorem nsChanged (h : OpFrame c d) (nsid : Nat) : OpFrame c (d.nsChanged nsid) :=
  OpFrame.notice (h.setNvq { d.nvq with changedNs := insertNat d.nvq.changedNs nsid } rfl) _ _

theorem zoneChanged (h : OpFrame c d) (zone : Nat) : OpFrame c (d.zoneChanged zone) :=
  OpFrame.notice (h.setNvq { d.nvq with changedZones := insertNat d.nvq.changedZones zone } rfl) _ _

/-! ### The journal -/

theorem appendSlot (h : OpFrame c d) (typ part parts : Nat) (fs : List (Nat × Nat × Nat)) :
    OpFrame c (d.appendSlot typ part parts fs) := by
  unfold Chip.appendSlot
  dsimp only
  exact ite (fun _ => OpFrame.raise ((h.writeSlot _ _).setJnl _) 0x05 1 (by decide)) fun _ => (h.writeSlot _ _).setJnl _

theorem appendRecs (h : OpFrame c d) (rs : List Rec) : OpFrame c (d.appendRecs rs) := by
  unfold Chip.appendRecs
  refine foldl _ (fun e x he => ?_) _ h
  dsimp only
  split
  · exact he.appendSlot _ _ _ _
  · exact he.appendSlot _ _ _ _

theorem showPart (h : OpFrame c d) : OpFrame c d.showPart :=
  (((((h.setReg _ _ (by decide)).setReg _ _ (by decide)).setReg _ _ (by decide)).setReg _ _ (by decide)).setReg _ _
    (by decide)).setReg _ _ (by decide)

theorem partDone (h : OpFrame c d) (old : Loc) : OpFrame c (d.partDone old) :=
  foldl _ (fun _ _ h => h.nsChanged _) _
    (((h.showPart.setFld R.LOC_PART_CTRL 6 4 1 (by decide)).setBit R.LOC_PART_CTRL 1 false (by decide)).raise 0x18 4
      (by decide))

theorem fwDone (h : OpFrame c d) (n : Nat) : OpFrame c (d.fwDone n) :=
  ((h.setFld _ _ _ _ (by decide)).setBit _ _ _ (by decide)).raise _ _ (by decide)

theorem takeRandom (h : OpFrame c d) (w : Nat) : OpFrame c (d.takeRandom w).2 := h.setFreeCtr _

theorem setCkptParts (h : OpFrame c d) (x : Jnl) (y : Sec) (z : Bcl) (w : Loc) :
    OpFrame c { d with jnl := x, sec := y, bcl := z, loc := w } := (((h.setJnl x).setSec y).setBcl z).setLoc w

theorem startCkpt (h : OpFrame c d) (starts : Nat) : OpFrame c (d.startCkpt starts) :=
  OpFrame.appendRecs (OpFrame.setCkptParts ((h.takeRandom 256).writeKey _ _ _ _) _ _ _ _) _

theorem maybeCkpt (h : OpFrame c d) : OpFrame c d.maybeCkpt := ite (fun _ => h.startCkpt 1) fun _ => h

theorem waitOp (h : OpFrame c d) (op : JnlOp) : OpFrame c (d.waitOp op) :=
  ite (fun _ => OpFrame.bump (h.setJnl _) _ (by decide)) fun _ => h.setJnl _

end OpFrame

end Sys2Proof.Machine
end

section
namespace Sys2Proof.Machine

variable {c d : Chip}

/-! ## Records applied and commits made (R449, R466) -/

namespace OpFrame

/-- A full band is marked full. -/
theorem fullBand {p : Prop} [Decidable p] (h : OpFrame c d) (k : Nat) (f : Band → Band) :
    OpFrame c (if p then d.mapBand k f else d) := ite (fun _ => h.mapBand _ _) fun _ => h

theorem apply_mwp (h : OpFrame c d) (i g f m l wt t0 t1 : Nat) (rs : List (Nat × Nat)) :
    OpFrame c (d.applyRec (.mwp i g f m l wt t0 t1 rs)) := by
  unfold Chip.applyRec
  dsimp only
  exact ite (fun _ => h) fun _ => fullBand ((h.setZone _ _).freeStaging _ _) _ _

theorem apply_zoneState (h : OpFrame c d) (i g ns ng m l : Nat) : OpFrame c (d.applyRec (.zoneState i g ns ng m l)) := by
  unfold Chip.applyRec
  dsimp only
  exact ite (fun _ => h) fun _ => ite (fun _ => (h.unstage _ _).emptyZone _ _) fun _ => fullBand (h.setZone _ _) _ _

theorem apply_bclCommit (h : OpFrame c d) (i g f j s e ann m l x y wt t0 t1 : Nat) :
    OpFrame c (d.applyRec (.bclCommit i g f j s e ann m l x y wt t0 t1)) := by
  unfold Chip.applyRec
  dsimp only
  refine ite (fun _ => h) fun _ => OpFrame.discardUnmapped (OpFrame.unmapBand (OpFrame.mapBand (OpFrame.setZone
    (foldl _ (fun e x he => ?_) _ h) _ _) _ _) _ _ _ _ _) _ _
  split
  · exact ite (fun _ => he.hotRemove _ _) fun _ => he
  · exact he

theorem apply_bclBegin (h : OpFrame c d) (i g f j s e ann : Nat) (salt : BitVec 128) :
    OpFrame c (d.applyRec (.bclBegin i g f j s e ann salt)) := by
  unfold Chip.applyRec
  dsimp only
  exact ite (fun _ => h.setJob _ _) fun _ => ((h.openBand _ _ _).setZone _ _).setJob _ _

theorem apply_bclRelease (h : OpFrame c d) (f j k : Nat) : OpFrame c (d.applyRec (.bclRelease f j k)) := by
  have h1 := h.destroyKey k
  unfold Chip.applyRec
  dsimp only
  refine ite (fun _ => ?_) fun _ => ite (fun _ => h1.setBcl _) fun _ => ?_
  · split
    · exact (h1.mapBand _ _).setZone _ _
    · exact h1.mapBand _ _
  · exact OpFrame.mapBand (h1.setBcl _) _ _

theorem apply_bclFree (h : OpFrame c d) (f j k : Nat) : OpFrame c (d.applyRec (.bclFree f j k)) :=
  OpFrame.mapBand (h.setBcl _) _ _

theorem apply_bandState (h : OpFrame c d) (k s f w : Nat) : OpFrame c (d.applyRec (.bandState k s f w)) :=
  OpFrame.checkFreeLow (OpFrame.mapBand (ite (fun _ => h.destroyKey _) fun _ => h) _ _) _ _

theorem apply_alloc (h : OpFrame c d) (i g k ann rw_ : Nat) (salt : BitVec 128) :
    OpFrame c (d.applyRec (.alloc i g k ann rw_ salt)) :=
  ite (fun _ => h) fun _ => (h.openBand _ _ _).setZone _ _

theorem apply_segStore (h : OpFrame c d) (key : List Byte) (f ann a len e z fi n g : Nat) :
    OpFrame c (d.applyRec (.segStore key f ann a len e z fi n g)) := by
  unfold Chip.applyRec
  dsimp only
  refine ite (fun _ => h) fun _ => OpFrame.settleValue (OpFrame.putValue (OpFrame.setZone ?_ _ _) _) _ _
  split
  · exact h.dropExtents _
  · exact h

theorem apply_segExtent (h : OpFrame c d) (key : List Byte) (i z fi n g : Nat) :
    OpFrame c (d.applyRec (.segExtent key i z fi n g)) :=
  ite (fun _ => h) fun _ => (h.setZone _ _).putValue _

theorem apply_segDelete (h : OpFrame c d) (key : List Byte) (f : Nat) : OpFrame c (d.applyRec (.segDelete key f)) := by
  unfold Chip.applyRec
  dsimp only
  split
  · exact h
  · exact (h.dropExtents _).dropValue _

theorem apply_segReclaim (h : OpFrame c d) (key : List Byte) (f e : Nat) : OpFrame c (d.applyRec (.segReclaim key f e)) := by
  unfold Chip.applyRec
  dsimp only
  split
  · exact h
  · exact (h.dropExtents _).dropValue _

theorem apply_segMigrate (h : OpFrame c d) (key : List Byte) (i oz o z fi g n : Nat) :
    OpFrame c (d.applyRec (.segMigrate key i oz o z fi g n)) := by
  unfold Chip.applyRec
  dsimp only
  split
  · exact h
  · exact ite (fun _ => h) fun _ => ((h.setZone _ _).dropExtent _).putValue _

theorem apply_secDestroy (h : OpFrame c d) (s ns k : Nat) : OpFrame c (d.applyRec (.secDestroy s ns k)) := by
  unfold Chip.applyRec
  dsimp only
  exact ite (fun _ => h.destroyKey _) fun _ => foldl _ (fun _ _ h => h.destroyKey _) _ h

/-- A record applied to the tables. -/
theorem applyRec (h : OpFrame c d) (r : Rec) : OpFrame c (d.applyRec r) := by
  cases r with
  | ckptStart => exact h
  | ckptDone => exact h
  | mwp => exact h.apply_mwp ..
  | alloc => exact h.apply_alloc ..
  | zoneState => exact h.apply_zoneState ..
  | hot a es => exact foldl _ (fun _ _ h => h.applyHot _) es h
  | bandState => exact h.apply_bandState ..
  | partition => exact h.setLoc _
  | bclBegin => exact h.apply_bclBegin ..
  | bclCommit => exact h.apply_bclCommit ..
  | bclRelease => exact h.apply_bclRelease ..
  | bclFree => exact h.apply_bclFree ..
  | segStore => exact h.apply_segStore ..
  | segAppend => exact ite (fun _ => h.applyAppend ..) fun _ => h
  | segExtent => exact h.apply_segExtent ..
  | segDelete => exact h.apply_segDelete ..
  | segReclaim => exact h.apply_segReclaim ..
  | segMigrate => exact h.apply_segMigrate ..
  | segDamaged => exact h.setSeg _
  | secDestroy => exact h.apply_secDestroy ..
  | saveCommit => exact h.setNand _
  | saveRetire => exact h.setNand _
  | firmware => exact h

theorem applyRecs (h : OpFrame c d) (rs : List Rec) : OpFrame c (d.applyRecs rs) := by
  unfold Chip.applyRecs
  split
  · exact ite (fun _ => h.applyAppend ..) fun _ => h
  · exact foldl _ (fun _ _ h => h.applyRec _) rs h

theorem applyOp (h : OpFrame c d) (rs : List Rec) : OpFrame c (d.applyOp rs) := (h.applyRecs rs).repaged d

/-- An operation written, applied and posted. -/
theorem commitNow (h : OpFrame c d) (op : JnlOp) : OpFrame c (d.commitNow op) := by
  have h1 := (h.appendRecs op.recs).applyOp op.recs
  unfold Chip.commitNow
  generalize (d.appendRecs op.recs).applyOp op.recs = e at h1 ⊢
  dsimp only
  refine OpFrame.maybeCkpt (foldl _ (fun _ _ h => h.finish _) _ ?_)
  split
  · exact h1.partDone _
  · exact OpFrame.fwDone (h1.setJnl _) 1
  · exact h1

theorem commit (h : OpFrame c d) (src : JnlSource) (rs : List Rec) (posts : List Completion) :
    OpFrame c (d.commit src rs posts) :=
  ite (fun _ => ite (fun _ => h.commitNow _) fun _ => h) fun _ => ite (fun _ => h.waitOp _) fun _ => h.commitNow _

end OpFrame

end Sys2Proof.Machine
end

section
namespace Sys2Proof.Machine

variable {c d : Chip}

/-! ## The map's image, the replay on it and the values that were staged (R51, R186, R484) -/

namespace OpFrame

/-! ### Discards and bands in REBUILD or with faults -/

theorem discardFailed (h : OpFrame c d) (zone : Nat) : OpFrame c (d.discardFailed zone) := by
  unfold Chip.discardFailed
  dsimp only
  refine foldl _ (fun e x he => ?_) _ (h.setBcl _)
  split
  · exact he.finish _
  · exact he

theorem makeReadOnly (h : OpFrame c d) (zone : Nat) : OpFrame c (d.makeReadOnly zone) :=
  ite (fun _ => h.setLoc _) fun _ =>
    (((h.commit _ _ _).raise 0x18 7 (by decide)).zoneChanged _).discardFailed _

theorem leaveSuspect (h : OpFrame c d) (k : Nat) : OpFrame c (d.leaveSuspect k) := by
  unfold Chip.leaveSuspect
  split
  · exact h
  · exact ite (fun _ => h) fun _ => ite (fun _ => h.makeReadOnly _) fun _ => (h.setQueue _ _).queueJob _

theorem queueSuspects (h : OpFrame c d) : OpFrame c d.queueSuspects := foldl _ (fun _ _ h => h.leaveSuspect _) _ h

theorem seekFinal (h : OpFrame c d) : OpFrame c d.seekFinal :=
  ite (fun _ => OpFrame.maybeCkpt (h.setJnl _)) fun _ => h

theorem releaseDst (h : OpFrame c d) (j : Job) : OpFrame c (d.releaseDst j false) :=
  ite (fun _ => h.commit _ _ _) fun _ => h

theorem dropJobOf (h : OpFrame c d) (zone : Nat) : OpFrame c (d.dropJobOf zone) := by
  unfold Chip.dropJobOf
  dsimp only
  split
  · exact h.setQueue _ _
  · exact ite (fun _ => h.setQueue _ _) fun _ => (((h.setQueue _ _).releaseDst _).setJob _ _).setZone _ _

theorem startDiscard (h : OpFrame c d) (post : Option Completion) (bands jobs : List Nat) (acts : List Act) (keys : Bool)
    (conv : List (Nat × Nat × Nat)) : OpFrame c (d.startDiscard post bands jobs acts keys conv) :=
  OpFrame.seekFinal (foldl _ (fun _ _ h => (h.dropJobOf _).queueJob _) _ (h.setBcl _))

theorem discardExtents (h : OpFrame c d) (before : Chip) (post : Option Completion) (zs : List Nat) :
    OpFrame c (d.discardExtents before post zs) := h.startDiscard _ _ _ _ _ _

/-! ### Values that wait for the journal -/

theorem commitSeg (h : OpFrame c d) (o : SegOp) : OpFrame c (d.commitSeg o) := by
  unfold Chip.commitSeg
  split
  · exact h
  · refine ite (fun _ => h) fun _ => ?_
    dsimp only
    split
    · exact (h.commit _ _ _).discardExtents _ _ _
    · exact h.commit _ _ _

theorem commitSegs (h : OpFrame c d) : OpFrame c d.commitSegs := foldl _ (fun _ _ h => h.commitSeg _) _ h

theorem allocBand (h : OpFrame c d) (zone k : Nat) : OpFrame c (d.allocBand zone k) := (h.takeRandom 128).commit _ _ _

theorem setSegNvq (h : OpFrame c d) (x : Seg) (y : Nvq) (hy : y.flags = d.nvq.flags) :
    OpFrame c { d with seg := x, nvq := y } := OpFrame.setNvq (h.setSeg x) y hy

theorem dropFresh (h : OpFrame c d) (key : List Byte) : OpFrame c (d.dropFresh key) := h.setSegNvq _ _ (by rfl)

theorem putFresh (h : OpFrame c d) (v : Value) : OpFrame c (d.putFresh v) := h.setSeg _

theorem checkDirty (h : OpFrame c d) : OpFrame c d.checkDirty := ite (fun _ => h.raise 0x11 0 (by decide)) fun _ => h

theorem checkKeys (h : OpFrame c d) (a b : Nat) : OpFrame c (d.checkKeys a b) := by
  have h1 := ite (p := a * 100 < 95 * d.keyLimit ∧ 95 * d.keyLimit ≤ d.seg.keyCount * 100)
    (fun _ => h.raise 0x12 2 (by decide)) fun _ => h
  exact ite (fun _ => h1.raise 0x12 3 (by decide)) fun _ => h1

theorem newBand (h : OpFrame c d) (b : Option (Nat × Nat)) :
    OpFrame c (match b with | some e => d.allocBand e.1 e.2 | none => d) := by
  cases b with
  | none => exact h
  | some e => exact h.allocBand _ _

theorem secureZones {p : Prop} [Decidable p] (h : OpFrame c d) (es : List Extent) :
    OpFrame c (if p then es.foldl (fun c e => c.setZone e.zone { c.zone e.zone with secure := true }) d else d) :=
  ite (fun _ => foldl _ (fun _ _ h => h.setZone _ _) _ h) fun _ => h

theorem storeNow (h : OpFrame c d) (x : InCmd) (old : Option Value) (p : Placement) (data : List Byte) :
    OpFrame c (d.storeNow x old p data) := by
  unfold Chip.storeNow
  extract_lets hd keys opens secure replaced c1 c2 c3 base hash sealed v order u n4 c4 waitsOld oldZones op c5 s6 c6 c7 r8 c8
  have h1 : OpFrame c c1 := h.newBand p.newBand
  have h2 : OpFrame c c2 := h1.secureZones p.extents
  have h3 : OpFrame c c3 := ite (fun _ => h2.dropFresh _) fun _ => h2
  have h4 : OpFrame c c4 := h3.setNvq _ (by rfl)
  have h5 : OpFrame c c5 := h4.putFresh v
  have h6 : OpFrame c c6 := h5.setSeg _
  have h7 : OpFrame c c7 := (h6.checkKeys _ _).checkDirty
  have h8 : OpFrame c c8 := ite (fun _ => h7.mapCmd _ _) fun _ => h7.finish _
  exact h8.commitSegs

theorem restoreValue (h : OpFrame c d) (order : Nat) : OpFrame c (d.restoreValue order) := by
  unfold Chip.restoreValue
  dsimp only
  split
  · exact h
  · refine ite (fun _ => h) fun _ => ?_
    split
    · exact h
    · exact ite (fun _ => h) fun _ => OpFrame.setNvq (OpFrame.storeNow (h.setNvq _ (by rfl)) _ _ _ _) _ (by rfl)

theorem restoreValues (h : OpFrame c d) : OpFrame c d.restoreValues := foldl _ (fun _ _ h => h.restoreValue _) _ h

/-! ### The image of a checkpoint and the replay on it -/

theorem loadValues (h : OpFrame c d) (vs : List ValueImage) : OpFrame c (d.loadValues vs) :=
  foldl _ (fun _ _ h => h.putValue _) vs (h.setSeg _)

theorem loadImage (h : OpFrame c d) (m : MapImage) : OpFrame c (d.loadImage m) := by
  unfold Chip.loadImage
  extract_lets p f c1 c2 bands l3 c3 c4 c5 c6 c7 l8 c8
  have h1 : OpFrame c c1 := h.setLoc _
  have h2 : OpFrame c c2 := foldl _ (fun _ _ h => h.setZone _ _) _ h1
  have h3 : OpFrame c c3 := h2.setLoc _
  have h4 : OpFrame c c4 := foldl _ (fun _ _ h => h.hotInsert _ _ _ _) _ h3
  have h5 : OpFrame c c5 := foldl _ (fun _ _ h => h.markStale _ _) _ h4
  have h6 : OpFrame c c6 := foldl _ (fun _ _ h => h.markStale _ _) _ h5
  have h7 : OpFrame c c7 := ite (fun _ => h6.loadValues _) fun _ => h6
  have h8 : OpFrame c c8 := h7.setLoc _
  exact foldl _ (fun _ _ h => (h.setJob _ _).setZone _ _) _ h8

theorem endImageJob (h : OpFrame c d) (rs : List Rec) (j : JobImage) : OpFrame c (d.endImageJob rs j) :=
  ite (fun _ => h) fun _ => ((h.appendRecs _).applyRec _).setZone _ _

theorem awaitRelease (h : OpFrame c d) (e : Nat × Band) : OpFrame c (d.awaitRelease e) :=
  ite (fun _ => h) fun _ => h.setBcl _

theorem closeZone (h : OpFrame c d) (wps : List (Nat × Nat)) (i : Nat) : OpFrame c (d.closeZone wps i) := h.setZone _ _

theorem dropWritten (h : OpFrame c d) : OpFrame c d.dropWritten := h.setNvq _ (by rfl)

theorem expireValues (h : OpFrame c d) : OpFrame c d.expireValues := h.setSeg _

theorem setBclJnl (h : OpFrame c d) (x : Bcl) (y : Jnl) : OpFrame c { d with bcl := x, jnl := y } :=
  OpFrame.setJnl (h.setBcl x) y

theorem replayOnMap (h : OpFrame c d) (m : MapImage) (wps : List (Nat × Nat)) : OpFrame c (d.replayOnMap m wps) := by
  unfold Chip.replayOnMap
  extract_lets ops c1 c2 b3 j3 c3 c4 is
  have h1 : OpFrame c c1 := foldl _ (fun _ _ h => h.applyOp _) _ h
  have h2 : OpFrame c c2 := foldl _ (fun _ _ h => h.endImageJob _ _) _ h1
  have h3 : OpFrame c c3 := h2.setBclJnl _ _
  have h4 : OpFrame c c4 := foldl _ (fun _ _ h => h.awaitRelease _) _ h3
  exact ((foldl _ (fun _ _ h => h.closeZone _ _) _ h4).dropWritten).expireValues

end OpFrame

end Sys2Proof.Machine
end

section
namespace Sys2Proof.Machine

variable {c d : Chip} {ps : List ChipPart} {ks : List Nat}

/-! ## Steps 11 to 14 of BOOT (R51, R54, R203, R462, R484, R534, O14) -/

/-! ### The event recorder at step 11 -/

theorem Evr.started_count (v : Evr) (sev : Nat) (b : Bool) : (v.count sev b).started = v.started := by
  unfold Evr.count
  dsimp only
  split <;> rfl

theorem Evr.started_setHead (v : Evr) (a : Area) (h u : Nat) : (v.setHead a h u).started = v.started := by
  cases a <;> rfl

theorem started_walk (a : Area) (used n : Nat) : ∀ (i kept : Nat) (v : Evr),
    (c.walk a i kept v used n).2.1.started = v.started := by
  induction n with
  | zero => exact fun _ _ _ => rfl
  | succ n ih =>
    intro i kept v
    unfold Chip.walk
    dsimp only
    split
    · rfl
    · split
      · rfl
      · rw [ih]
        split
        · rfl
        · exact Evr.started_count _ _ _

theorem started_handOver (e : Event) : (c.handOver e).evr.started = c.evr.started := by
  unfold Chip.handOver
  split
  · rfl
  · split
    · split
      · rfl
      · split <;> rfl
    · rfl

theorem started_event (code : Nat) (items : List Nat) : (c.event code items).evr.started = c.evr.started :=
  started_handOver _

theorem keeps_writeRoot : Keeps [.evr, .mram] c c.writeRoot :=
  ((Keeps.refl _ _).writeSlot _ _ (by decide)).withEvr _ (by decide)

/-- The recorder has started and nothing but its own state and its root has changed. -/
def Started (c d : Chip) : Prop := Keeps [.evr, .mram] c d ∧ d.evr.started = true

theorem Started.writeRoot (h : Started c d) : Started c d.writeRoot :=
  ⟨h.1.trans keeps_writeRoot, h.2⟩

theorem Started.setEvr {v : Evr} (hv : v.started = true) : Started c { c with evr := v } :=
  ⟨(Keeps.refl _ _).withEvr v (by decide), hv⟩

/-- The recorder at boot: started, and what it reports goes the way of every event. -/
structure Recording (c d : Chip) : Prop where
  keeps : Keeps [.regs, .evr, .mram, .pwr] c d
  regs : OnlyRegs dropRegs c d
  started : d.evr.started = true

theorem Recording.event (h : Recording c d) (code : Nat) (items : List Nat) : Recording c (d.event code items) :=
  ⟨h.keeps.event code items (by decide) (by decide) (by decide), h.regs.event code items (by decide) (by decide),
    (started_event code items).trans h.started⟩

theorem Started.recording (h : Started c d) : Recording c d :=
  ⟨h.1.mono (by decide), fun k _ => h.1.reg (by decide) k, h.2⟩

theorem recording_ite {p : Prop} [Decidable p] {e : Chip} (h : Recording c d) (g : Recording c e) :
    Recording c (if p then d else e) := by
  split
  · exact h
  · exact g

theorem recording_evrBoot : Recording c (evrBoot c) := by
  unfold evrBoot
  extract_lets b0 b1 diff newer fresh r c1 c2 cause
  have hf : fresh.started = true := rfl
  have hr : Started c r.1 := by
    unfold r
    clear_value newer fresh
    split
    · exact (Started.setEvr hf).writeRoot
    · next n bs _ =>
      dsimp only
      split
      · exact Started.setEvr (by simp only [apply_ite Evr.started, Evr.started_setHead, started_walk, ite_self, hf])
      · exact Started.writeRoot (Started.setEvr
          (by simp only [apply_ite Evr.started, Evr.started_setHead, started_walk, ite_self, hf]))
  have h2 : Recording c c2 := recording_ite (hr.recording.event _ _) hr.recording
  exact recording_ite (h2.event _ _) (h2.event _ _)

/-! ### The journal at step 11 -/

theorem OnlyRegs.appendSlot (h : OnlyRegs ks c d) (typ part parts : Nat) (fs : List (Nat × Nat × Nat))
    (hk : pIntStatus 0x05 ∈ ks) : OnlyRegs ks c (d.appendSlot typ part parts fs) := by
  have h1 : ∀ x : Jnl, OnlyRegs ks c { d.writeSlot d.jnl.head (layRecord typ part parts d.jnl.headSeq fs) with jnl := x } :=
    fun x => h.trans fun k _ =>
      (((Keeps.refl [.mram, .jnl] d).writeSlot d.jnl.head _ (by decide)).setJnl x (by decide)).reg (by decide) k
  exact OnlyRegs.ite (fun _ => (h1 _).raise 0x05 1 hk) fun _ => h1 _

theorem OnlyRegs.appendRecs (h : OnlyRegs ks c d) (rs : List Rec) (hk : pIntStatus 0x05 ∈ ks) :
    OnlyRegs ks c (d.appendRecs rs) := by
  unfold Chip.appendRecs
  refine OnlyRegs.foldl _ _ (fun e x _ he => ?_) h
  dsimp only
  split
  · exact he.appendSlot _ _ _ _ hk
  · exact he.appendSlot _ _ _ _ hk

theorem Chip.onlyRegs_withJnl (e : Chip) (x : Jnl) : OnlyRegs ks e { e with jnl := x } := .of_regs rfl

theorem keeps_replayWrite (r : Rec) : Keeps recordParts c (c.replayWrite r) :=
  ((Keeps.refl _ _).appendRecs [r] (List.Subset.refl _)).setJnl _ (by decide)

theorem onlyRegs_replayWrite (r : Rec) : OnlyRegs [pIntStatus 0x05] c (c.replayWrite r) :=
  ((OnlyRegs.refl _ _).appendRecs [r] (by decide)).trans (Chip.onlyRegs_withJnl _ _)

theorem bit31_ofNat {n : Nat} (h : n < 2 ^ 31) : (BitVec.ofNat 32 (n + 2 ^ 31)).getLsbD 31 = true := by
  rw [BitVec.getLsbD_ofNat, Nat.testBit_eq_decide_div_mod_eq]
  simp only [show (31 : Nat) < 32 by decide, decide_true, Bool.true_and, decide_eq_true_eq]
  omega

/-- The journal's state found by the walk, and bit 31 of JNL_REPLAY. -/
def Chip.walked (c : Chip) (x : Jnl) (n : Nat) : Chip :=
  ({ c with jnl := x } : Chip).setReg R.JNL_REPLAY (BitVec.ofNat 32 (n + 2 ^ 31))

theorem keeps_walked (x : Jnl) (n : Nat) : Keeps recordParts c (c.walked x n) :=
  ((Keeps.refl _ _).setJnl x (by decide)).setReg _ _ (by decide)

theorem onlyRegs_walked (x : Jnl) (n : Nat) : OnlyRegs [R.JNL_REPLAY] c (c.walked x n) :=
  (Chip.onlyRegs_withJnl c x).setReg _ _ (by decide)

theorem Chip.bit_walked (x : Jnl) {n : Nat} (h : n < 2 ^ 31) : (c.walked x n).bit R.JNL_REPLAY 31 = true := by
  rw [Chip.walked, Chip.bit, Chip.reg_setReg_self]
  exact bit31_ofNat h

theorem replayCount_lt (n : Nat) (failed : Bool) : n % 4096 + b2n failed * 2 ^ 28 < 2 ^ 31 := by
  have h1 : n % 4096 < 4096 := Nat.mod_lt _ (by decide)
  have h2 : b2n failed ≤ 1 := by cases failed <;> decide
  omega

theorem Chip.replayMap_eq (c : Chip) : ∃ (x : Jnl) (n : Nat) (rs : List (Nat × Rec)) (stop : Bool), n < 2 ^ 31 ∧
    c.replayMap = if stop then c.walked x n else rs.foldl (fun c e => c.replayWrite e.2) (c.walked x n) := by
  unfold Chip.replayMap
  extract_lets t w ops j c1 n c2
  exact ⟨c1.jnl, n % 4096 + b2n w.failed * 2 ^ 28, jobsLeft (c2.bit R.BCL_SECURE 0) ops.flatten, w.failed,
    replayCount_lt n w.failed, rfl⟩

theorem keeps_replayMap : Keeps recordParts c c.replayMap := by
  obtain ⟨x, n, rs, stop, -, h⟩ := c.replayMap_eq
  rw [h]
  exact Keeps.ite (fun _ => keeps_walked x n) fun _ =>
    Keeps.foldl _ _ (fun _ _ _ h => h.step (keeps_replayWrite _) (List.Subset.refl _)) (keeps_walked x n)

theorem onlyRegs_replayMap : OnlyRegs [R.JNL_REPLAY, pIntStatus 0x05] c c.replayMap := by
  obtain ⟨x, n, rs, stop, -, h⟩ := c.replayMap_eq
  rw [h]
  have h0 := (onlyRegs_walked (c := c) x n).mono (ls := [R.JNL_REPLAY, pIntStatus 0x05]) (by decide)
  exact OnlyRegs.ite (fun _ => h0) fun _ =>
    OnlyRegs.foldl _ _ (fun _ _ _ h => h.trans ((onlyRegs_replayWrite _).mono (by decide))) h0

theorem Chip.bit_replayMap : c.replayMap.bit R.JNL_REPLAY 31 = true := by
  obtain ⟨x, n, rs, stop, hn, h⟩ := c.replayMap_eq
  rw [h]
  have hf : OnlyRegs [pIntStatus 0x05] (c.walked x n) (rs.foldl (fun c e => c.replayWrite e.2) (c.walked x n)) :=
    OnlyRegs.foldl _ _ (fun _ _ _ h => h.trans (onlyRegs_replayWrite _)) (OnlyRegs.refl _ _)
  cases stop
  · exact (Chip.bit_of_reg _ (hf _ (by decide)) 31).trans (Chip.bit_walked x hn)
  · exact Chip.bit_walked x hn

/-! ### The counts at step 11 -/

/-- The counts read, with CLEAN_LOSS's opposite reported, before the power cycle is counted. -/
def Chip.countsRead (c : Chip) : Chip :=
  match c.group (ctrGroup 0) with
  | none => { c with jnl := { c.jnl with optime := 0, pcc := 0, unsafeCount := 0 } }
  | some bs =>
    let pcc := leAt bs 12 3
    let n := leAt bs 16 4
    let clean : Bool := leAt bs 15 1 == 1
    let n' := if clean then n else satSucc n 0xFFFFFFFF
    let c := { c with jnl := { c.jnl with optime := leAt bs 8 4, pcc := pcc, unsafeCount := n' } }
    if clean then c else (c.event 0x1402 [pcc, n']).history 6 pcc

/-- The power cycle counted and marked committed. -/
def Chip.cycleCounted (c : Chip) : Chip :=
  { c with jnl := { c.jnl with pcc := (c.jnl.pcc + 1) % 2 ^ 24 }, sys := { c.sys with pccCommitted := true } }

theorem Chip.replayCounts_eq (c : Chip) : c.replayCounts = c.countsRead.cycleCounted.writeGroup0 0 := by
  unfold Chip.replayCounts Chip.countsRead Chip.cycleCounted
  cases c.group (ctrGroup 0) <;> rfl

/-- The recorder's part of what the counts may report. -/
structure Counted (c d : Chip) : Prop where
  keeps : Keeps [.regs, .evr, .mram, .jnl, .pwr] c d
  regs : OnlyRegs dropRegs c d
  started : d.evr.started = c.evr.started

theorem Counted.setJnl (x : Jnl) : Counted c { c with jnl := x } :=
  ⟨(Keeps.refl _ _).setJnl x (by decide), .of_regs rfl, rfl⟩

theorem Counted.reported (h : Counted c d) (code ev detail : Nat) (items : List Nat) :
    Counted c ((d.event code items).history ev detail) := by
  have hk := keeps_history (d.event code items) ev detail
  exact ⟨(h.keeps.event code items (by decide) (by decide) (by decide)).step hk (by decide),
    (h.regs.event code items (by decide) (by decide)).trans (onlyRegs_history _ _ _),
    (congrArg Evr.started (hk.evr (by decide))).trans ((started_event code items).trans h.started)⟩

theorem counted_countsRead : Counted c c.countsRead := by
  unfold Chip.countsRead
  split
  · exact Counted.setJnl _
  · dsimp only
    split
    · exact Counted.setJnl _
    · exact Counted.reported (Counted.setJnl _) _ _ _ _

theorem keeps_cycleCounted : Keeps [.jnl, .sys] c c.cycleCounted :=
  ((Keeps.refl _ c).setJnl { c.jnl with pcc := (c.jnl.pcc + 1) % 2 ^ 24 } (by decide)).withSys _ (by decide)

theorem keeps_countTail : Keeps [.jnl, .sys, .mram] c (c.cycleCounted.writeGroup0 0) :=
  ((keeps_cycleCounted).mono (by decide)).writeGroup0 0 (by decide)

theorem sys_countTail : (c.cycleCounted.writeGroup0 0).sys = { c.sys with pccCommitted := true } :=
  ((Keeps.refl [.mram] c.cycleCounted).writeGroup0 0 (by decide)).sys (by decide)

theorem keeps_replayCounts : Keeps [.regs, .evr, .mram, .jnl, .pwr, .sys] c c.replayCounts := by
  rw [Chip.replayCounts_eq]
  exact ((counted_countsRead (c := c)).keeps.mono (by decide)).step keeps_countTail (by decide)

theorem onlyRegs_replayCounts : OnlyRegs dropRegs c c.replayCounts := by
  rw [Chip.replayCounts_eq]
  exact (counted_countsRead (c := c)).regs.trans fun k _ => (keeps_countTail (c := c.countsRead)).reg (by decide) k

theorem started_replayCounts : c.replayCounts.evr.started = c.evr.started := by
  rw [Chip.replayCounts_eq]
  exact (congrArg Evr.started ((keeps_countTail (c := c.countsRead)).evr (by decide))).trans
    (counted_countsRead (c := c)).started

theorem sys_replayCounts : c.replayCounts.sys = { c.sys with pccCommitted := true } := by
  rw [Chip.replayCounts_eq, sys_countTail, (counted_countsRead (c := c)).keeps.sys (by decide)]

/-! ### The other groups at step 11 -/

theorem Keeps.withAssist (h : Keeps ps c d) (x y : SMap Nat) (hx : .assistCycles ∈ ps) (hy : .assistSaved ∈ ps) :
    Keeps ps c { d with assistCycles := x, assistSaved := y } := Keeps.withAssistSaved (h.withAssistCycles x hx) y hy

theorem keeps_replayOnTimes : Keeps [.assistCycles, .assistSaved] c c.replayOnTimes :=
  Keeps.foldl _ _ (fun _ _ _ h => h.withAssist _ _ (by decide) (by decide)) (Keeps.refl _ _)

theorem keeps_replayBadBlocks : Keeps [.nand] c c.replayBadBlocks := (Keeps.refl _ _).withNand _ (by decide)

theorem keeps_replayRetirement : Keeps [.chd, .mram] c c.replayRetirement := by
  unfold Chip.replayRetirement
  split
  · exact Keeps.refl _ _
  · exact Keeps.ite (fun _ => (Keeps.refl _ _).withChd _ (by decide)) fun _ =>
      ((Keeps.refl _ _).withChd _ (by decide)).writeGroup _ _ _ (by decide)

/-- The groups that the counts do not stand in: on-times, bad blocks, retirement. -/
def Chip.groupsRead (c : Chip) : Chip := c.replayOnTimes.replayBadBlocks.replayRetirement

theorem keeps_groupsRead : Keeps [.assistCycles, .assistSaved, .nand, .chd, .mram] c c.groupsRead :=
  (((keeps_replayOnTimes (c := c)).mono (by decide)).step keeps_replayBadBlocks (by decide)).step keeps_replayRetirement
    (by decide)

/-- The last of step 11: what SEC_STATUS shows of the key groups. -/
def Chip.replayEnded (c : Chip) : Chip :=
  (c.setBit R.SEC_STATUS 0 ((c.group (bootGroup 7)).isSome && (c.group (bootGroup 8)).isSome)).step 11

theorem journalReplay_eq (h : c.atStep 10 = true) (hb : c.sys.blankBoot = false) :
    journalReplay c = (evrBoot c).replayMap.replayCounts.groupsRead.replayEnded := by
  unfold journalReplay Chip.replayEnded Chip.groupsRead
  rw [if_neg (by simp [h, hb])]

/-- The chip of step 11 before SEC_STATUS: what each part of the replay has left. -/
theorem journalReplay_parts (c : Chip) :
    let d := (evrBoot c).replayMap.replayCounts.groupsRead
    Keeps [.regs, .sys, .evr, .mram, .jnl, .nand, .pwr, .assistCycles, .assistSaved, .chd] c d ∧
    OnlyRegs ([R.JNL_REPLAY, pIntStatus 0x05] ++ dropRegs) c d ∧ d.bit R.JNL_REPLAY 31 = true ∧
    d.evr.started = true ∧ d.sys = { c.sys with pccCommitted := true } := by
  intro d
  have h1 : Recording c (evrBoot c) := recording_evrBoot
  have k2 : Keeps recordParts (evrBoot c) (evrBoot c).replayMap := keeps_replayMap
  have o2 : OnlyRegs [R.JNL_REPLAY, pIntStatus 0x05] (evrBoot c) (evrBoot c).replayMap := onlyRegs_replayMap
  have b2 : (evrBoot c).replayMap.bit R.JNL_REPLAY 31 = true := Chip.bit_replayMap
  have k3 := keeps_replayCounts (c := (evrBoot c).replayMap)
  have o3 := onlyRegs_replayCounts (c := (evrBoot c).replayMap)
  have s3 := started_replayCounts (c := (evrBoot c).replayMap)
  have y3 := sys_replayCounts (c := (evrBoot c).replayMap)
  have k4 : Keeps _ (evrBoot c).replayMap.replayCounts d := keeps_groupsRead
  refine ⟨?_, ?_, ?_, ?_, ?_⟩
  · exact (((h1.keeps.mono (by decide)).step k2 (by decide)).step k3 (by decide)).step k4 (by decide)
  · exact (((h1.regs.mono (by decide)).trans (o2.mono (by decide))).trans (o3.mono (by decide))).trans
      fun k _ => k4.reg (by decide) k
  · exact (Chip.bit_of_reg _ ((k4.reg (by decide) _).trans (o3 _ (by decide))) 31).trans b2
  · exact (congrArg Evr.started (k4.evr (by decide))).trans
      (s3.trans ((congrArg Evr.started (k2.evr (by decide))).trans h1.started))
  · rw [k4.sys (by decide), y3, k2.sys (by decide), h1.keeps.sys (by decide)]

theorem Chip.replayEnded_eq (c : Chip) : ∃ r, c.replayEnded = (c.setBit R.SEC_STATUS 0 r).step 11 := ⟨_, rfl⟩

/-- The registers that step 11 may change. -/
def replayRegs : List Nat := [R.SYS_BOOT_STEP, R.JNL_REPLAY, R.SEC_STATUS, pIntStatus 0x05] ++ dropRegs

theorem onlyRegs_replayEnded (h : OnlyRegs ([R.JNL_REPLAY, pIntStatus 0x05] ++ dropRegs) c d) :
    OnlyRegs replayRegs c d.replayEnded := by
  obtain ⟨r, hr⟩ := d.replayEnded_eq
  rw [hr]
  exact ((h.mono (by decide)).setBit _ _ _ (by decide)).bootStepTo 11 (by decide)

theorem keeps_replayEnded (c : Chip) : Keeps [.regs] c c.replayEnded := by
  obtain ⟨r, hr⟩ := c.replayEnded_eq
  rw [hr]
  exact ((Keeps.refl [.regs] c).setBit R.SEC_STATUS 0 r (by decide)).bootStepTo 11 (by decide)

theorem Chip.reg_replayEnded (c : Chip) :
    c.replayEnded.reg R.SYS_BOOT_STEP = 11 ∧ c.replayEnded.reg R.JNL_REPLAY = c.reg R.JNL_REPLAY := by
  obtain ⟨r, hr⟩ := c.replayEnded_eq
  rw [hr]
  exact ⟨Chip.reg_bootStep _ 11, (Chip.reg_bootStep_ne 11 (by decide)).trans (c.reg_setBit_ne _ _ (by decide))⟩

theorem journalReplay_completes {s : State} (h : s.chip.atStep 10 = true) (hb : s.chip.sys.blankBoot = false) :
    Completes .journalReplay s (fun d =>
      d.reg R.SYS_BOOT_STEP = 11 ∧ d.bit R.JNL_REPLAY 31 = true ∧ d.evr.started = true ∧
      d.sys = { s.chip.sys with pccCommitted := true } ∧
      OnlyRegs ([R.SYS_BOOT_STEP, R.JNL_REPLAY, R.SEC_STATUS, pIntStatus 0x05] ++ dropRegs) s.chip d ∧
      Keeps [.regs, .sys, .evr, .mram, .jnl, .nand, .pwr, .assistCycles, .assistSaved, .chd] s.chip d) := by
  obtain ⟨hk, ho, hbit, he, hs⟩ := journalReplay_parts s.chip
  have hx := journalReplay_eq h hb
  generalize (evrBoot s.chip).replayMap.replayCounts.groupsRead = e at hk ho hbit he hs hx
  have hk1 := keeps_replayEnded e
  obtain ⟨hstep, hr⟩ := e.reg_replayEnded
  have hb' := (Chip.bit_of_reg e hr 31).trans hbit
  have he' := (congrArg Evr.started (hk1.evr (by decide))).trans he
  have hs' := (hk1.sys (by decide)).trans hs
  have ho' := onlyRegs_replayEnded ho
  have hk' := hk.step hk1 (by decide)
  generalize e.replayEnded = f at hx hstep hb' he' hs' ho' hk'
  exact completes_eq rfl hx ⟨hstep, hb', he', hs', ho'.settle, hk'.settle⟩

end Sys2Proof.Machine
end

section
namespace Sys2Proof.Machine

variable {c d : Chip} {ps : List ChipPart} {ks : List Nat}

/-! ### Step 12: the save set returns to staging (R484) -/

/-- The units of a save set in staging, their set named for its retirement. -/
def Chip.unitsBack (c : Chip) (us : List Staged) (next set : Nat) : Chip :=
  { c with nvq := { c.nvq with staging := us, nextOrder := next }, nfc := { c.nfc with restoredSet := some set } }

/-- The active-zone table of a save set taken over. -/
def Chip.activeBack (c : Chip) (active : List (Nat × Nat)) : Chip :=
  active.foldl (fun c e => c.setZone e.1 { c.zone e.1 with hostWp := some e.2 }) c

/-- The pages that did not read back reported, and the restore ended. -/
def Chip.restoreReported (c : Chip) (bad : List (Nat × Nat × Nat)) : Chip :=
  ((bad.foldl (fun c b => c.event 0x8001 [b.1, b.2.1]) c).raise 0x48 1).step 12

/-- The unit as it comes back is of that number, and restored. -/
theorem restoredUnit_restored (u : Staged × Nat) (poison : List Nat) :
    ({ restoredUnit u with poison := poison } : Staged).restored = true ∧
    ({ restoredUnit u with poison := poison } : Staged).media = [] := by
  unfold restoredUnit
  dsimp only
  split <;> exact ⟨rfl, rfl⟩

/-- The geometry of the NAND devices as step 12 records it. -/
def geomMask : Word := definedMask [⟨2, 0, .ro⟩, ⟨11, 8, .ro⟩, ⟨27, 16, .ro⟩]

theorem saveSetRestore_none (h : c.atStep 11 = true) (geom : Word) (bad : List (Nat × Nat × Nat))
    (hv : c.nand.validSet = none) : saveSetRestore c geom bad = (c.setReg R.NFC_GEOM (geom &&& geomMask)).step 12 := by
  unfold saveSetRestore
  rw [if_neg (by simp [h])]
  simp only [show (c.setReg R.NFC_GEOM (geom &&& definedMask [⟨2, 0, .ro⟩, ⟨11, 8, .ro⟩, ⟨27, 16, .ro⟩])).nand.validSet = none
    from hv]
  rfl

theorem saveSetRestore_some (h : c.atStep 11 = true) (geom : Word) (bad : List (Nat × Nat × Nat)) {set : SaveSet}
    (hv : c.nand.validSet = some set) : ∃ (us : List Staged) (next : Nat), us.length = set.units.length ∧
    (∀ u ∈ us, u.restored = true ∧ u.media = []) ∧ saveSetRestore c geom bad =
      (((c.setReg R.NFC_GEOM (geom &&& geomMask)).unitsBack us next set.set).activeBack set.active).restoreReported bad := by
  unfold saveSetRestore
  rw [if_neg (by simp [h])]
  extract_lets c1
  have hv1 : c1.nand.validSet = some set := hv
  simp only [hv1]
  refine ⟨_, _, ?_, ?_, rfl⟩
  · rw [List.length_map, List.length_zipIdx]
  · intro u hu
    obtain ⟨v, -, rfl⟩ := List.mem_map.1 hu
    exact restoredUnit_restored v _

theorem keeps_unitsBack (us : List Staged) (next set : Nat) : Keeps [.nvq, .nfc] c (c.unitsBack us next set) :=
  ((Keeps.refl [.nvq, .nfc] c).withNvq { c.nvq with staging := us, nextOrder := next } (by decide)).withNfc
    { c.nfc with restoredSet := some set } (by decide)

theorem keeps_activeBack (active : List (Nat × Nat)) : Keeps [.loc] c (c.activeBack active) :=
  Keeps.foldl _ _ (fun _ _ _ h => h.withLoc _ (by decide)) (Keeps.refl _ _)

theorem keeps_restoreReported (bad : List (Nat × Nat × Nat)) : Keeps [.regs, .pwr, .evr] c (c.restoreReported bad) :=
  ((Keeps.foldl _ _ (fun _ _ _ h => h.event _ _ (by decide) (by decide) (by decide)) (Keeps.refl _ _)).raise _ _
    (by decide) (by decide)).bootStepTo 12 (by decide)

theorem onlyRegs_restoreReported (bad : List (Nat × Nat × Nat)) :
    OnlyRegs ([R.SYS_BOOT_STEP, pIntStatus 0x48] ++ dropRegs) c (c.restoreReported bad) :=
  ((OnlyRegs.foldl _ _ (fun _ _ _ h => h.event _ _ (by decide) (by decide)) (OnlyRegs.refl _ _)).raise _ _
    (by decide)).bootStepTo 12 (by decide)

theorem Chip.reg_restoreReported (bad : List (Nat × Nat × Nat)) : (c.restoreReported bad).reg R.SYS_BOOT_STEP = 12 :=
  Chip.reg_bootStep _ 12

theorem Chip.bit_restoreReported (bad : List (Nat × Nat × Nat)) :
    (c.restoreReported bad).bit (pIntStatus 0x48) 1 = true :=
  (Chip.bit_of_reg _ (Chip.reg_bootStep_ne 12 (by decide)) 1).trans (Chip.bit_raise _ _ _ (by decide))

/-- What step 12 leaves: `c` before, `d` after. -/
structure StepTwelve (c d : Chip) (geom : Word) : Prop where
  step : d.reg R.SYS_BOOT_STEP = 12
  geom : d.reg R.NFC_GEOM = geom &&& geomMask
  restored : ∀ set, c.nand.validSet = some set →
    d.nvq.staging.length = set.units.length ∧ (∀ u ∈ d.nvq.staging, u.restored = true ∧ u.media = []) ∧
    d.nfc.restoredSet = some set.set ∧ d.bit (pIntStatus 0x48) 1 = true
  plain : c.nand.validSet = none → OnlyRegs [R.SYS_BOOT_STEP, R.NFC_GEOM] c d ∧ Keeps [.regs] c d
  regs : OnlyRegs ([R.SYS_BOOT_STEP, R.NFC_GEOM, pIntStatus 0x48] ++ dropRegs) c d
  keeps : Keeps [.regs, .pwr, .evr, .nvq, .loc, .nfc] c d

theorem stepTwelve_none (hv : c.nand.validSet = none) (geom : Word) :
    StepTwelve c ((c.setReg R.NFC_GEOM (geom &&& geomMask)).step 12) geom := by
  have hk : Keeps [.regs] c ((c.setReg R.NFC_GEOM (geom &&& geomMask)).step 12) :=
    ((Keeps.refl _ _).setReg _ _ (by decide)).bootStepTo 12 (by decide)
  have ho : OnlyRegs [R.SYS_BOOT_STEP, R.NFC_GEOM] c ((c.setReg R.NFC_GEOM (geom &&& geomMask)).step 12) :=
    ((OnlyRegs.refl _ _).setReg _ _ (by decide)).bootStepTo 12 (by decide)
  exact ⟨Chip.reg_bootStep _ 12, (Chip.reg_bootStep_ne 12 (by decide)).trans (Chip.reg_setReg_self _ _ _),
    fun set h => absurd (hv.symm.trans h) (by simp), fun _ => ⟨ho, hk⟩, ho.mono (by decide), hk.mono (by decide)⟩

theorem stepTwelve_some {set : SaveSet} (hv : c.nand.validSet = some set) (geom : Word) {us : List Staged} (next : Nat)
    (hl : us.length = set.units.length) (hu : ∀ u ∈ us, u.restored = true ∧ u.media = [])
    (bad : List (Nat × Nat × Nat)) : StepTwelve c
      ((((c.setReg R.NFC_GEOM (geom &&& geomMask)).unitsBack us next set.set).activeBack set.active).restoreReported bad)
      geom := by
  let a := c.setReg R.NFC_GEOM (geom &&& geomMask)
  let e := (a.unitsBack us next set.set).activeBack set.active
  have hk1 : Keeps [.nvq, .nfc] a (a.unitsBack us next set.set) := keeps_unitsBack _ _ _
  have hk2 : Keeps [.loc] (a.unitsBack us next set.set) e := keeps_activeBack _
  have hk3 : Keeps [.regs, .pwr, .evr] e (e.restoreReported bad) := keeps_restoreReported _
  have hr : ∀ k, e.reg k = a.reg k := fun k => (hk2.reg (by decide) k).trans (hk1.reg (by decide) k)
  have ho : OnlyRegs ([R.SYS_BOOT_STEP, pIntStatus 0x48] ++ dropRegs) e (e.restoreReported bad) := onlyRegs_restoreReported _
  have hoa : OnlyRegs ([R.SYS_BOOT_STEP, R.NFC_GEOM, pIntStatus 0x48] ++ dropRegs) c a :=
    (OnlyRegs.refl _ _).setReg _ _ (by decide)
  have hka : Keeps [.regs, .pwr, .evr, .nvq, .loc, .nfc] c a := (Keeps.refl _ _).setReg _ _ (by decide)
  have hn : (e.restoreReported bad).nvq = (a.unitsBack us next set.set).nvq :=
    (hk3.nvq (by decide)).trans (hk2.nvq (by decide))
  have hs : (e.restoreReported bad).nvq.staging = us := congrArg Nvq.staging hn
  have hf : (e.restoreReported bad).nfc.restoredSet = some set.set :=
    congrArg Nfc.restoredSet ((hk3.nfc (by decide)).trans (hk2.nfc (by decide)))
  have hsome : ∀ w, c.nand.validSet = some w → w = set := fun w h => Option.some.inj (h.symm.trans hv)
  refine ⟨Chip.reg_restoreReported bad, ?_, ?_, ?_, ?_, ?_⟩
  · exact (ho _ (by decide)).trans ((hr _).trans (Chip.reg_setReg_self _ _ _))
  · intro w hw
    obtain rfl := hsome w hw
    refine ⟨(congrArg List.length hs).trans hl, ?_, hf, Chip.bit_restoreReported bad⟩
    exact fun u h => hu u (hs ▸ h)
  · exact fun h => absurd (hv.symm.trans h) (by simp)
  · exact (hoa.trans fun k _ => hr k).trans (ho.mono (by decide))
  · exact ((hka.step hk1 (by decide)).step hk2 (by decide)).step hk3 (by decide)

theorem stepTwelve_saveSetRestore (h : c.atStep 11 = true) (geom : Word) (bad : List (Nat × Nat × Nat)) :
    StepTwelve c (saveSetRestore c geom bad) geom := by
  cases hv : c.nand.validSet with
  | none =>
    rw [saveSetRestore_none h geom bad hv]
    exact stepTwelve_none hv geom
  | some set =>
    obtain ⟨us, next, hl, hu, he⟩ := saveSetRestore_some h geom bad hv
    rw [he]
    exact stepTwelve_some hv geom next hl hu bad

theorem saveSetRestore_completes {s : State} (geom : Word) (bad : List (Nat × Nat × Nat)) (h : s.chip.atStep 11 = true) :
    Completes (.saveSetRestore geom bad) s (fun d =>
      d.reg R.SYS_BOOT_STEP = 12 ∧
      d.reg R.NFC_GEOM = geom &&& definedMask [⟨2, 0, .ro⟩, ⟨11, 8, .ro⟩, ⟨27, 16, .ro⟩] ∧
      (∀ set, s.chip.nand.validSet = some set →
        d.nvq.staging.length = set.units.length ∧ (∀ u ∈ d.nvq.staging, u.restored = true ∧ u.media = []) ∧
        d.nfc.restoredSet = some set.set ∧ d.bit (pIntStatus 0x48) 1 = true) ∧
      (s.chip.nand.validSet = none → OnlyRegs [R.SYS_BOOT_STEP, R.NFC_GEOM] s.chip d ∧ Keeps [.regs] s.chip d) ∧
      OnlyRegs ([R.SYS_BOOT_STEP, R.NFC_GEOM, pIntStatus 0x48] ++ dropRegs) s.chip d ∧
      Keeps [.regs, .pwr, .evr, .nvq, .loc, .nfc] s.chip d) := by
  obtain ⟨hs, hg, hr, hp, ho, hk⟩ := stepTwelve_saveSetRestore h geom bad
  refine completes_next (c := saveSetRestore s.chip geom bad) rfl ?_
  generalize saveSetRestore s.chip geom bad = e at hs hg hr hp ho hk
  refine ⟨hs, hg, hr, fun hv => ?_, ho.settle, hk.settle⟩
  obtain ⟨ho', hk'⟩ := hp hv
  exact ⟨ho'.settle, hk'.settle⟩

/-! ### The retirement of the save set (R484) -/

theorem saveRetire_completes {s : State} {n : Nat} (hn : s.chip.nfc.restoredSet = some n) (ha : s.chip.alive = true)
    (hh : s.chip.inHoldup = false)
    (hu : ∀ u ∈ s.chip.nvq.staging, u.restored = false ∧ s.chip.nfc.savedOrder ≤ u.order) :
    Completes .saveRetire s (fun d =>
      d = (({ s.chip with nfc := { s.chip.nfc with restoredSet := none } }).commit .nfc [.saveRetire n] []).settle ∧
      Keeps [.regs, .mram, .jnl, .nvq, .loc, .bcl, .sec, .seg, .nand, .nfc, .pwr, .out, .freeCtr] s.chip d) := by
  have hs : s.chip.nvq.staging.any (fun u => u.restored || decide (u.order < s.chip.nfc.savedOrder)) = false :=
    List.any_eq_false.2 fun u h => by
      obtain ⟨hr, ho⟩ := hu u h
      simp [hr, ho]
  have he : saveRetire s.chip =
      ({ s.chip with nfc := { s.chip.nfc with restoredSet := none } }).commit .nfc [.saveRetire n] [] := by
    unfold saveRetire
    simp only [hn]
    exact if_neg (by simp [ha, hh, hs])
  have hk : Keeps opParts s.chip { s.chip with nfc := { s.chip.nfc with restoredSet := none } } :=
    (Keeps.refl _ _).withNfc _ (by decide)
  exact completes_eq rfl he ⟨rfl, (hk.trans ((OpFrame.refl _).commit _ _ _).keeps).settle⟩

end Sys2Proof.Machine
end

section
namespace Sys2Proof.Machine

variable {c d : Chip} {ps : List ChipPart} {ks : List Nat}

/-! ### What BOOT ends in: SERVICE or CALIBRATE (R33, R51) -/

/-- The mode is one of the two that BOOT may end in without a rebuild, and the controllers' status as before. -/
structure InService (c d : Chip) : Prop where
  mode : d.sys.mode = .service ∨ d.sys.mode = .calibrate
  flags : d.nvq.flags = c.nvq.flags

theorem inService_enterService (c : Chip) : InService c c.enterService := by
  refine ⟨.inl (congrArg Sys.mode c.sys_enterService), ?_⟩
  have hn : c.dramAwake.nvq.flags = c.nvq.flags := congrArg Nvq.flags ((keeps_dramAwake c).nvq (by decide))
  rw [Chip.enterService_eq, ← hn]
  rfl

theorem InService.trans {e : Chip} (h : InService c d) (g : InService d e) : InService c e :=
  ⟨g.mode, g.flags.trans h.flags⟩

theorem InService.keeps {e : Chip} (h : InService c d) (hm : e.sys.mode = d.sys.mode) (hn : e.nvq = d.nvq) :
    InService c e := ⟨hm ▸ h.mode, (congrArg Nvq.flags hn).trans h.flags⟩

theorem InService.calLeaves (h : InService c d) : InService c d.calLeaves := by
  unfold Chip.calLeaves
  split
  · exact h.trans (inService_enterService d)
  · exact h

theorem Chip.nvq_setPlan (a : Act) (r : Option CalRun) : (c.setPlan a r).nvq = c.nvq := by cases a <;> rfl

theorem Chip.mode_planClosed (a : Act) (r : CalRun) (n : Nat) : (c.planClosed a r n).sys.mode = c.sys.mode := by
  cases a <;> rfl

theorem InService.finishPlan (h : InService c d) (a : Act) (r : CalRun) {n : Nat} (hn : n ≠ 5) :
    InService c (d.finishPlan a r n) := by
  rw [Chip.finishPlan_eq a r hn]
  have hk1 : Keeps [.cal, .sys, .regs] d (d.planClosed a r n) := keeps_planClosed a r n
  have hm1 := d.mode_planClosed a r n
  generalize d.planClosed a r n = e at hk1 hm1
  have hk2 : Keeps [.cal, .pwr, .regs] e (e.planReported a) := keeps_planReported a
  exact (h.keeps ((congrArg Sys.mode (hk2.sys (by decide))).trans hm1)
    ((hk2.nvq (by decide)).trans (hk1.nvq (by decide)))).calLeaves

theorem inService_calOn (a : Act) : InService c (c.calOn a) :=
  ⟨.inr rfl, congrArg Nvq.flags ((keeps_calOn a).nvq (by decide))⟩

theorem inService_startCal (c : Chip) (a : Act) : InService c (c.startCal a) := by
  rw [Chip.startCal_eq]
  have h : InService c (c.calOn a) := inService_calOn a
  split
  · exact h.finishPlan a _ (by decide)
  · split
    · exact h.finishPlan a _ (by decide)
    · exact h.keeps (congrArg Sys.mode (Chip.sys_setPlan a _)) (Chip.nvq_setPlan a _)

theorem InService.startCals (h : InService c d) (a b : Bool) : InService c (d.startCals a b) := by
  have hA : InService c (if a then d.startCal .A else d) := by
    split
    · exact h.trans (inService_startCal d .A)
    · exact h
  unfold Chip.startCals
  split
  · exact hA.trans (inService_startCal _ .B)
  · exact hA

/-! ### BOOT left -/

/-- The parts that leaving BOOT may change. -/
def leaveParts : List ChipPart :=
  [.regs, .sys, .evr, .mram, .jnl, .nvq, .loc, .bcl, .sec, .seg, .nand, .nfc, .pwr, .slots, .cal, .out, .freeCtr]

/-- What leaving BOOT keeps: `c` before, `d` after. -/
structure Left (c d : Chip) : Prop where
  keeps : Keeps leaveParts c d
  regs : ∀ k ∈ bootRegs, d.reg k = c.reg k
  flags : d.nvq.flags = c.nvq.flags

theorem Left.op {e : Chip} (h : Left c d) (g : OpFrame d e) : Left c e :=
  ⟨h.keeps.step g.keeps (by decide), fun k hk => (g.regs k hk).trans (h.regs k hk), g.flags.trans h.flags⟩

/-- SERVICE entered, and calibration begun where a plan asks for it. -/
def Chip.servedFrom (c : Chip) (a b : Bool) : Chip :=
  let d := c.enterService.startCals a b
  if a || b then { d with loc := { d.loc with pages := c.loc.pages, ptPresent := c.loc.ptPresent } } else d

theorem Chip.leaveBoot_service (c : Chip) :
    c.leaveBoot false = (c.servedFrom (c.calDue .A) (c.calDue .B)).queueSuspects := rfl

theorem inService_servedFrom (c : Chip) (a b : Bool) : InService c (c.servedFrom a b) := by
  have h : InService c (c.enterService.startCals a b) := (inService_enterService c).startCals a b
  unfold Chip.servedFrom
  dsimp only
  split
  · exact h.keeps rfl rfl
  · exact h

theorem left_servedFrom (c : Chip) (a b : Bool) : Left c (c.servedFrom a b) := by
  obtain ⟨hk, ho⟩ := startCals_frame (c := c.enterService) a b
  have hk' : Keeps leaveParts c (c.enterService.startCals a b) :=
    ((keeps_enterService c).mono (by decide)).step hk (by decide)
  have ho' : OnlyRegs startCalRegs c (c.enterService.startCals a b) :=
    ((onlyRegs_enterService c).mono (by decide)).trans ho
  have hb : ∀ k ∈ bootRegs, k ∉ startCalRegs := by decide
  have hr : ∀ k ∈ bootRegs, (c.enterService.startCals a b).reg k = c.reg k := fun k h => ho' k (hb k h)
  refine ⟨?_, ?_, (inService_servedFrom c a b).flags⟩
  · exact Keeps.ite (fun _ => hk'.withLoc _ (by decide)) fun _ => hk'
  · intro k h
    unfold Chip.servedFrom
    dsimp only
    split
    · exact hr k h
    · exact hr k h

theorem left_enterRebuild (c : Chip) : Left c c.enterRebuild :=
  ⟨(keeps_enterRebuild c).mono (by decide), fun k _ => (keeps_enterRebuild c).reg (by decide) k,
    congrArg Nvq.flags ((keeps_enterRebuild c).nvq (by decide))⟩

theorem left_leaveBoot (c : Chip) (rebuild : Bool) : Left c (c.leaveBoot rebuild) := by
  cases rebuild
  · rw [Chip.leaveBoot_service]
    exact (left_servedFrom c _ _).op (OpFrame.refl _).queueSuspects
  · exact left_enterRebuild c

theorem Chip.mode_leaveBoot (c : Chip) (rebuild : Bool) : (c.leaveBoot rebuild).sys.mode ≠ .boot ∧
    (rebuild = true → (c.leaveBoot rebuild).sys.mode = .rebuild) := by
  cases rebuild
  · rw [Chip.leaveBoot_service]
    have hm := (inService_servedFrom c (c.calDue .A) (c.calDue .B)).mode
    have hs : (c.servedFrom (c.calDue .A) (c.calDue .B)).queueSuspects.sys = _ :=
      (OpFrame.refl (c.servedFrom (c.calDue .A) (c.calDue .B))).queueSuspects.keeps.sys (by decide)
    rw [hs]
    refine ⟨?_, fun h => absurd h (by decide)⟩
    obtain h | h := hm <;> rw [h] <;> decide
  · exact ⟨by rw [show (c.leaveBoot true).sys.mode = .rebuild from rfl]; decide, fun _ => rfl⟩

/-! ### CSTS.RDY (R41) -/

/-- Ready as R41 has it at the end of BOOT, the rest of the status as it is. -/
def Cntl.ready (y : Cntl) : Cntl := { y with rdy := y.en && !y.cfs }

theorem Chip.riseRdy_eq (c : Chip) :
    c.riseRdy = { c with nvq := { c.nvq with c1 := c.nvq.c1.ready, c2 := c.nvq.c2.ready } } := rfl

theorem keeps_riseRdy (c : Chip) : Keeps [.nvq] c c.riseRdy := (Keeps.refl _ _).withNvq _ (by decide)

/-- Each controller's ready, from its status before. -/
theorem Chip.rdy_riseRdy (h : d.nvq.flags = c.nvq.flags) :
    d.riseRdy.nvq.flags.1.2.2 = (c.nvq.c1.en && !c.nvq.c1.cfs) ∧
    d.riseRdy.nvq.flags.2.2.2 = (c.nvq.c2.en && !c.nvq.c2.cfs) := by
  simp only [Nvq.flags, Cntl.flags, Prod.mk.injEq] at h
  obtain ⟨⟨he1, hf1, -⟩, he2, hf2, -⟩ := h
  rw [Chip.riseRdy_eq]
  simp only [Nvq.flags, Cntl.flags, Cntl.ready, he1, hf1, he2, hf2, and_self]

end Sys2Proof.Machine
end

section
namespace Sys2Proof.Machine

variable {c d : Chip}

/-! ### Step 14: the map is loaded and BOOT ends (R41, R51, R203) -/

/-- The map of the checkpoint loaded, the journal's records replayed on it, the partition shown. -/
def Chip.mapShown (c : Chip) (m : MapImage) : Chip :=
  ((c.loadImage m).replayOnMap m (c.loc.zones.filterMap (fun e => e.2.hostWp.map (fun w => (e.1, w))))).showPart

/-- The journal's replay has failed on a record (R462). -/
def Chip.replayFailed (c : Chip) : Bool := c.fld R.JNL_REPLAY 30 28 == 1

/-- The replay recorded as without a checkpoint where none is valid. -/
def Chip.checkpointJudged (c : Chip) (valid : Bool) : Chip :=
  if !valid && !c.replayFailed then c.setFld R.JNL_REPLAY 30 28 2 else c

/-- A map entry that does not fit reported. -/
def Chip.mismatchReported (c : Chip) : Option (Nat × Nat) → Chip
  | some e => c.inconsistent e.1 e.2
  | none => c

/-- The controllers ready and step 14 complete. -/
def Chip.bootEnded (c : Chip) (rebuild : Bool) : Chip := (c.leaveBoot rebuild).riseRdy.step 14

/-- The chip at the judgement whether a rebuild is due. -/
def Chip.mapJudged (c : Chip) (m : MapImage) : Chip :=
  let e := (c.mapShown m).checkpointJudged m.valid
  e.mismatchReported (if m.valid && !(c.mapShown m).replayFailed then e.mismatch else none)

theorem mapLoad_eq (h : c.atStep 13 = true) (m : MapImage) : ∃ mismatch : Bool,
    let rebuild := (c.mapShown m).replayFailed || !m.valid || mismatch || (c.mapJudged m).bit R.SYS_REBUILD_POLICY 8
    mapLoad c m = if rebuild then (c.mapJudged m).bootEnded rebuild else ((c.mapJudged m).bootEnded rebuild).restoreValues := by
  unfold mapLoad
  rw [if_neg (by simp [h])]
  extract_lets wps e1 failed e2 bad e3 mismatch rebuild e4
  have h3 : e3 = c.mapJudged m := by
    change (match bad with | some e => _ | none => _) = Chip.mismatchReported e2 bad
    cases bad <;> rfl
  refine ⟨mismatch, ?_⟩
  rw [← h3]
  rfl

theorem opFrame_mapShown (c : Chip) (m : MapImage) : OpFrame c (c.mapShown m) :=
  (((OpFrame.refl c).loadImage m).replayOnMap m _).showPart

theorem Chip.replayFailed_mapShown (c : Chip) (m : MapImage) : (c.mapShown m).replayFailed = c.replayFailed :=
  congrArg (· == 1) (Chip.fld_of_reg _ ((opFrame_mapShown c m).regs _ (by decide)) 30 28)

theorem keeps_checkpointJudged (valid : Bool) : Keeps [.regs] c (c.checkpointJudged valid) :=
  Keeps.ite (fun _ => (Keeps.refl _ _).setFld _ _ _ _ (by decide)) fun _ => Keeps.refl _ _

theorem onlyRegs_checkpointJudged (valid : Bool) : OnlyRegs [R.JNL_REPLAY] c (c.checkpointJudged valid) :=
  OnlyRegs.ite (fun _ => (OnlyRegs.refl _ _).setFld _ _ _ _ (by decide)) fun _ => OnlyRegs.refl _ _

/-- Without a valid checkpoint the replay's result is 2, but where a record has failed. -/
theorem Chip.fld_checkpointJudged (h : c.replayFailed = false) :
    (c.checkpointJudged false).fld R.JNL_REPLAY 30 28 = 2 := by
  unfold Chip.checkpointJudged
  rw [if_pos (by simp [h])]
  exact (Chip.fld_setFld_self c R.JNL_REPLAY 2 (by decide)).trans (by decide)

theorem keeps_mismatchReported (bad : Option (Nat × Nat)) : Keeps [.regs, .pwr, .evr] c (c.mismatchReported bad) := by
  cases bad
  · exact Keeps.refl _ _
  · exact keeps_inconsistent _ _

theorem reg_mismatchReported (bad : Option (Nat × Nat)) : ∀ k ∈ bootRegs, (c.mismatchReported bad).reg k = c.reg k := by
  have ho : OnlyRegs ([pIntStatus 0x18] ++ dropRegs) c (c.mismatchReported bad) := by
    cases bad
    · exact OnlyRegs.refl _ _
    · exact ((OnlyRegs.refl _ _).raise _ _ (by decide)).event _ _ (by decide) (by decide)
  have hb : ∀ k ∈ bootRegs, k ∉ [pIntStatus 0x18] ++ dropRegs := by decide
  exact fun k hk => ho k (hb k hk)

/-- What stands before the judgement whether a rebuild is due. -/
theorem mapJudged_parts (c : Chip) (m : MapImage) : Keeps leaveParts c (c.mapJudged m) ∧
    (c.mapJudged m).nvq.flags = c.nvq.flags ∧
    (c.mapJudged m).reg R.SYS_REBUILD_POLICY = c.reg R.SYS_REBUILD_POLICY ∧
    (m.valid = false → c.replayFailed = false → (c.mapJudged m).fld R.JNL_REPLAY 30 28 = 2) := by
  obtain ⟨hk1, hr1, hf1⟩ := opFrame_mapShown c m
  have hw := c.replayFailed_mapShown m
  unfold Chip.mapJudged
  generalize c.mapShown m = e at hk1 hr1 hf1 hw ⊢
  extract_lets e'
  have hk2 : Keeps [.regs] e e' := keeps_checkpointJudged _
  have ho2 : OnlyRegs [R.JNL_REPLAY] e e' := onlyRegs_checkpointJudged _
  generalize (if m.valid && !e.replayFailed then e'.mismatch else none) = bad
  have hk3 : Keeps [.regs, .pwr, .evr] e' (e'.mismatchReported bad) := keeps_mismatchReported bad
  have hr3 := reg_mismatchReported (c := e') bad
  refine ⟨((hk1.mono (by decide)).step hk2 (by decide)).step hk3 (by decide), ?_, ?_, fun hv hf => ?_⟩
  · exact (congrArg Nvq.flags ((hk3.nvq (by decide)).trans (hk2.nvq (by decide)))).trans hf1
  · exact (hr3 _ (by decide)).trans ((ho2 _ (by decide)).trans (hr1 _ (by decide)))
  · have h2 : e'.fld R.JNL_REPLAY 30 28 = 2 := by
      change (e.checkpointJudged m.valid).fld _ _ _ = 2
      rw [hv]
      exact Chip.fld_checkpointJudged (hw.trans hf)
    exact (Chip.fld_of_reg _ (hr3 _ (by decide)) 30 28).trans h2

/-- BOOT ended: `c` before, `d` after. -/
structure BootDone (c d : Chip) : Prop where
  step : d.reg R.SYS_BOOT_STEP = 14
  mode : d.sys.mode ≠ .boot
  rdy1 : d.nvq.flags.1.2.2 = (c.nvq.c1.en && !c.nvq.c1.cfs)
  rdy2 : d.nvq.flags.2.2.2 = (c.nvq.c2.en && !c.nvq.c2.cfs)
  replay : d.reg R.JNL_REPLAY = c.reg R.JNL_REPLAY
  keeps : Keeps leaveParts c d

theorem BootDone.op {e : Chip} (h : BootDone c d) (g : OpFrame d e) : BootDone c e := by
  obtain ⟨hs, hm, h1, h2, hr, hk⟩ := h
  refine ⟨(g.regs _ (by decide)).trans hs, ?_, ?_, ?_, (g.regs _ (by decide)).trans hr, hk.step g.keeps (by decide)⟩
  · rw [g.keeps.sys (by decide)]
    exact hm
  · rw [g.flags]
    exact h1
  · rw [g.flags]
    exact h2

theorem bootDone_bootEnded (c : Chip) (rebuild : Bool) : BootDone c (c.bootEnded rebuild) := by
  obtain ⟨hk, hr, hf⟩ := left_leaveBoot c rebuild
  obtain ⟨hm, -⟩ := c.mode_leaveBoot rebuild
  unfold Chip.bootEnded
  generalize c.leaveBoot rebuild = e at hk hr hf hm
  obtain ⟨h1, h2⟩ := Chip.rdy_riseRdy hf
  have hk2 : Keeps [.nvq] e e.riseRdy := keeps_riseRdy e
  refine ⟨Chip.reg_bootStep _ 14, ?_, h1, h2, ?_, ?_⟩
  · exact fun h => hm ((congrArg Sys.mode (hk2.sys (by decide))).symm.trans h)
  · exact (Chip.reg_bootStep_ne 14 (by decide)).trans ((hk2.reg (by decide) _).trans (hr _ (by decide)))
  · exact (hk.step hk2 (by decide)).bootStepTo 14 (by decide)

theorem Chip.mode_bootEnded (c : Chip) : (c.bootEnded true).sys.mode = .rebuild := rfl

/-- BOOT's end with what it restores of the key-value segments. -/
theorem bootDone_mapLoad (h : c.atStep 13 = true) (m : MapImage) : BootDone (c.mapJudged m) (mapLoad c m) ∧
    (m.valid = false ∨ c.replayFailed = true ∨ c.bit R.SYS_REBUILD_POLICY 8 = true →
      (mapLoad c m).sys.mode = .rebuild) := by
  obtain ⟨mismatch, he⟩ := mapLoad_eq h m
  obtain ⟨-, -, hp, -⟩ := mapJudged_parts c m
  rw [c.replayFailed_mapShown m, Chip.bit_of_reg _ hp] at he
  generalize c.mapJudged m = e at he
  generalize hb : (c.replayFailed || !m.valid || mismatch || c.bit R.SYS_REBUILD_POLICY 8) = rebuild at he
  have hd : BootDone e (e.bootEnded rebuild) := bootDone_bootEnded e rebuild
  rw [he]
  cases rebuild
  · refine ⟨hd.op (OpFrame.refl _).restoreValues, fun hx => ?_⟩
    simp only [Bool.or_eq_false_iff, Bool.not_eq_false'] at hb
    obtain ⟨⟨⟨hf, hv⟩, -⟩, hp8⟩ := hb
    simp [hf, hv, hp8] at hx
  · exact ⟨hd, fun _ => e.mode_bootEnded⟩

theorem mapLoad_completes {s : State} (m : MapImage) (h : s.chip.atStep 13 = true) :
    CompletesThen (.mapLoad m) s (fun d =>
      d.reg R.SYS_BOOT_STEP = 14 ∧ d.sys.mode ≠ .boot ∧
      d.nvq.c1.rdy = (s.chip.nvq.c1.en && !s.chip.nvq.c1.cfs) ∧
      d.nvq.c2.rdy = (s.chip.nvq.c2.en && !s.chip.nvq.c2.cfs) ∧
      (m.valid = false → s.chip.fld R.JNL_REPLAY 30 28 ≠ 1 → d.fld R.JNL_REPLAY 30 28 = 2) ∧
      (m.valid = false ∨ s.chip.fld R.JNL_REPLAY 30 28 = 1 ∨ s.chip.bit R.SYS_REBUILD_POLICY 8 = true →
        d.sys.mode = .rebuild) ∧
      Keeps [.regs, .sys, .evr, .mram, .jnl, .nvq, .loc, .bcl, .sec, .seg, .nand, .nfc, .pwr, .slots, .cal, .out,
        .freeCtr] s.chip d) := by
  obtain ⟨hk1, hf1, -, hv1⟩ := mapJudged_parts s.chip m
  obtain ⟨⟨hs, hm, h1, h2, hr, hk⟩, hreb⟩ := bootDone_mapLoad h m
  simp only [Nvq.flags, Cntl.flags, Prod.mk.injEq] at hf1
  obtain ⟨⟨he1, hc1, -⟩, he2, hc2, -⟩ := hf1
  rw [he1, hc1] at h1
  rw [he2, hc2] at h2
  refine completesThen_done (d := mapLoad s.chip m) rfl
    ⟨hs, hm, h1, h2, fun hv hn => ?_, fun hx => hreb ?_, hk1.trans hk⟩
  · exact (Chip.fld_of_reg _ hr 30 28).trans (hv1 hv (beq_eq_false_iff_ne.2 hn))
  · exact hx.imp_right fun h => h.imp_left fun hw => beq_iff_eq.2 hw

/-- Settles O14: step 11 from what each part of the replay leaves, step 12 from the save set that is valid, the
retirement from the frame of a journal commit, and step 14 from the judgement whether a rebuild is due. -/
theorem bootReplaysRestoresAndLoadsTheMap : Obligations.BootReplaysRestoresAndLoadsTheMap :=
  ⟨fun _ h hb => journalReplay_completes h hb, fun _ geom bad h => saveSetRestore_completes geom bad h,
    fun _ _ hn ha hh hu => saveRetire_completes hn ha hh hu, fun _ m h => mapLoad_completes m h⟩

end Sys2Proof.Machine
end

section
/-! ## Every step settles the pins (R76, R104, R105, R420, O4) -/

namespace Sys2Proof.Machine

open Sys2Proof

/-- Every command ends in a chip on which the pins settle: no arm of `exec` answers a fault or a refusal. -/
theorem exec_eq_next (i : Instr) (s : State) : ∃ c, exec i s = s.next c := by
  cases i
  case cleRcDataAccess a v => cases v <;> exact ⟨_, rfl⟩
  all_goals exact ⟨_, rfl⟩

theorem step_eq_next (s : State) : ∃ (t : State) (c : Chip), step s = t.next c := by
  unfold step
  split
  · exact ⟨s, _, rfl⟩
  · next i rest _ => exact ⟨_, exec_eq_next i _⟩

theorem alertN_pinsOf (c : Chip) : (pinsOf c).alertN = true ↔ c.reg R.SYS_ALERT = 0 := beq_iff_eq

theorem retractN_pinsOf (c : Chip) :
    (pinsOf c).retractN = true ↔ c.bit R.MLK_CTRL 0 = false ∧ c.sys.mode ≠ .holdup := by
  simp only [pinsOf, Chip.inHoldup, Bool.and_eq_true, Bool.not_eq_true', beq_eq_false_iff_ne]

/-- Settles O4: whatever the command, the step ends in `State.next`, where the pins settle. -/
theorem everyStepSettlesThePins : Obligations.EveryStepSettlesThePins := by
  intro s s' h
  obtain ⟨t, c, hc⟩ := step_eq_next s
  obtain rfl : { t with chip := c.settle } = s' := Host.Outcome.next.inj (hc.symm.trans h)
  exact ⟨rfl, alertN_pinsOf c, retractN_pinsOf c, rfl⟩

end Sys2Proof.Machine
end

section
/-! ## A step on an empty queue (R107, R109, R333, R622, O2) -/

namespace Sys2Proof.Machine

open Sys2Proof

variable {c d : Chip} {ps : List ChipPart} {ks : List Nat}

/-! ### The comparison of device time -/

theorem compareMatch_fires (h : c.dtm.armed = true) (he : c.bit (pCtrl 0x08) 0 = true)
    (ht : c.dtm.compare.toNat ≤ c.dtm.dtime.toNat) :
    compareMatch c = ({ c with dtm := { c.dtm with armed := false } } : Chip).raise 0x08 0 := if_pos ⟨h, he, ht⟩

theorem compareMatch_waits (h : c.dtm.armed = false ∨ c.bit (pCtrl 0x08) 0 = false ∨
    c.dtm.dtime.toNat < c.dtm.compare.toNat) : compareMatch c = c := by
  refine if_neg fun ⟨ha, he, ht⟩ => ?_
  rcases h with h | h | h
  · exact absurd ha (by simp [h])
  · exact absurd he (by simp [h])
  · omega

theorem Keeps.compareMatch (h : Keeps ps c d) (hr : .regs ∈ ps) (hd : .dtm ∈ ps) (hp : .pwr ∈ ps) :
    Keeps ps c (compareMatch d) := .ite (fun _ => (h.withDtm _ hd).raise _ _ hr hp) fun _ => h

theorem OnlyRegs.withDtm (h : OnlyRegs ks c d) (x : Dtm) : OnlyRegs ks c { d with dtm := x } := h

theorem OnlyRegs.compareMatch (h : OnlyRegs ks c d) (hk : pIntStatus 0x08 ∈ ks) : OnlyRegs ks c (compareMatch d) :=
  .ite (fun _ => (h.withDtm _).raise _ _ hk) fun _ => h

theorem dtime_compareMatch (c : Chip) : (compareMatch c).dtm.dtime = c.dtm.dtime := by
  unfold compareMatch
  split <;> rfl

/-! ### The on-time of a head under its envelope -/

theorem Keeps.saveOnTimes (h : Keeps ps c d) (hm : .mram ∈ ps) (hs : .assistSaved ∈ ps) : Keeps ps c d.saveOnTimes :=
  ((h.writeGroup _ _ _ hm).writeGroup _ _ _ hm).withAssistSaved _ hs

theorem Keeps.envelopeTick (h : Keeps ps c d) (a : Act) (hc : .assistCycles ∈ ps) (hm : .mram ∈ ps)
    (hs : .assistSaved ∈ ps) : Keeps ps c (d.envelopeTick a) := by
  unfold Chip.envelopeTick
  split
  · have hn := fun x => h.withAssistCycles x hc
    exact .ite (fun _ => .ite (fun _ => (hn _).saveOnTimes hm hs) fun _ => hn _) fun _ => h
  · exact h

/-! ### The console UART -/

theorem Keeps.uartTick (h : Keeps ps c d) (hd : .dbg ∈ ps) (ho : .out ∈ ps) (hr : .regs ∈ ps) (hp : .pwr ∈ ps) :
    Keeps ps c d.uartTick := by
  unfold Chip.uartTick
  split
  · exact h
  · have hn := fun o x => (h.emit o ho).withDbg x hd
    exact .ite (fun _ => h.withDbg _ hd) fun _ => .ite (fun _ => (hn _ _).raise _ _ hr hp) fun _ => hn _ _

theorem OnlyRegs.uartTick (h : OnlyRegs ks c d) (hk : pIntStatus 0x58 ∈ ks) : OnlyRegs ks c d.uartTick := by
  unfold Chip.uartTick
  split
  · exact h
  · exact .ite (fun _ => h) fun _ => .ite (fun _ => OnlyRegs.raise (ks := ks) _ _ h hk) fun _ => h

/-! ### The cycle -/

theorem Chip.cycle_stopped (h : c.dtm.running = false) : c.cycle = c := if_pos (by simp [h])

/-- The part of a cycle that runs in a parked chip as well: DTIME counts and is compared. -/
def Chip.countTime (c : Chip) : Chip := compareMatch { c with dtm := { c.dtm with dtime := c.dtm.dtime + 1 } }

theorem Chip.cycle_running (h : c.dtm.running = true) : c.cycle =
    if c.countTime.parked then c.countTime else ((c.countTime.envelopeTick .A).envelopeTick .B).uartTick :=
  if_neg (by simp [h])

/-- The parts of a cycle other than device time. -/
def cycleParts : List ChipPart := [.regs, .mram, .pwr, .assistCycles, .assistSaved, .dbg, .out]

theorem Chip.keeps_cycle (h : c.dtm.running = true) : Keeps cycleParts c.countTime c.cycle := by
  rw [Chip.cycle_running h]
  have he (a : Act) {d : Chip} (hd : Keeps cycleParts c.countTime d) :
      Keeps cycleParts c.countTime (d.envelopeTick a) := hd.envelopeTick a (by decide) (by decide) (by decide)
  exact .ite (fun _ => .refl _ _) fun _ =>
    (he .B (he .A (.refl _ _))).uartTick (by decide) (by decide) (by decide) (by decide)

theorem Chip.onlyRegs_cycle (h : c.dtm.running = true) : OnlyRegs [pIntStatus 0x58] c.countTime c.cycle := by
  rw [Chip.cycle_running h]
  have he : Keeps [.assistCycles, .mram, .assistSaved] c.countTime ((c.countTime.envelopeTick .A).envelopeTick .B) :=
    ((Keeps.refl _ _).envelopeTick .A (by decide) (by decide) (by decide)).envelopeTick .B
      (by decide) (by decide) (by decide)
  exact .ite (fun _ => .refl _ _) fun _ => OnlyRegs.uartTick (fun k _ => he.reg (by decide) k) (by decide)

theorem step_empty {s : State} (h : s.pending = []) : step s = .next { s with chip := s.chip.cycle.settle } := by
  obtain ⟨q, c⟩ := s
  obtain rfl : q = [] := h
  rfl

/-- Settles O2: the cycle counts and compares device time, and what follows moves neither. -/
theorem idleStepCountsDeviceTime : Obligations.IdleStepCountsDeviceTime := by
  refine ⟨fun s hs hr => ?_, fun s hs hr => ?_⟩
  · have hc : Keeps [.regs, .dtm, .pwr] s.chip s.chip.countTime :=
      ((Keeps.refl _ _).withDtm _ (by decide)).compareMatch (by decide) (by decide) (by decide)
    have hk := Chip.keeps_cycle hr
    refine ⟨_, step_empty hs, ?_, ?_, ?_⟩
    · calc s.chip.cycle.dtm.dtime = s.chip.countTime.dtm.dtime := by rw [hk.dtm (by decide)]
        _ = s.chip.dtm.dtime + 1 := dtime_compareMatch _
    · exact (OnlyRegs.compareMatch (OnlyRegs.withDtm (.refl _ _) _) (by decide)).trans
        ((Chip.onlyRegs_cycle hr).mono (by decide))
    · exact (hc.mono (by decide)).trans (hk.mono (by decide))
  · exact ⟨_, step_empty hs, by rw [Chip.cycle_stopped hr]; rfl⟩

end Sys2Proof.Machine
end

section
/-! ## Device time, software interrupts and the interrupts of the cores (R104, R106, R108, R109, R497, R498, O23) -/

namespace Sys2Proof.Machine

open Sys2Proof

variable {c d : Chip}

/-! ### DTIME's latch (R108) -/

/-- DTIME[63:32] in a master's latch. -/
def Chip.latched (c : Chip) (m : Master) : Chip :=
  { c with dtm := { c.dtm with
      latches := SMap.put (fun _ => (0 : Word)) c.dtm.latches m.toNat ((c.dtm.dtime >>> 32).setWidth 32) } }

theorem Chip.regRead_dtimeLo (c : Chip) (m : Master) : c.regRead m R.DTM_DTIME_LO = c.dtm.dtime.setWidth 32 := by
  have hd : (regDesc R.DTM_DTIME_LO).isNone = false := by decide
  have hs : c.segDead R.DTM_DTIME_LO = false := rfl
  rw [Chip.regRead, hd, hs]
  rfl

theorem dtimeLoReadBy_reaches {m : Master} (ha : c.alive = true)
    (hm : c.mayReach m (0x40000000 + R.DTM_DTIME_LO) = true) : dtimeLoReadBy c m =
      ((c.wake 0x08).latched m).emit (.read (leBytes 4 (c.dtm.dtime.toNat % 2 ^ 32))) := by
  have hl : dtimeLoRead (c.wake 0x08) m = (c.wake 0x08).latched m :=
    if_neg (by rw [show (c.wake 0x08).alive = c.alive from rfl, ha]; decide)
  rw [dtimeLoReadBy, if_pos hm, registerRead, if_neg (by simp [ha])]
  simp only [Chip.busRead, if_true, Chip.regRead_dtimeLo, BitVec.toNat_setWidth]
  exact congrArg (fun d => Chip.emit d _) hl

theorem dtimeLoRead_completes {s : State} {m : Master} (ha : s.chip.alive = true)
    (hm : s.chip.mayReach m (0x40000000 + R.DTM_DTIME_LO) = true) : Completes (.dtimeLoRead m) s (fun d =>
      SMap.get (fun _ => (0 : Word)) d.dtm.latches m.toNat = (s.chip.dtm.dtime >>> 32).setWidth 32 ∧
      (∀ n, n ≠ m.toNat → SMap.get (fun _ => (0 : Word)) d.dtm.latches n =
        SMap.get (fun _ => (0 : Word)) s.chip.dtm.latches n) ∧
      d.out = s.chip.out ++ [.read (leBytes 4 (s.chip.dtm.dtime.toNat % 2 ^ 32))] ∧
      d.dtm.dtime = s.chip.dtm.dtime ∧ d.dtm.compare = s.chip.dtm.compare ∧ Keeps [.dtm, .pwr, .out] s.chip d) :=
  completes_eq rfl (dtimeLoReadBy_reaches ha hm)
    ⟨SMap.get_put_self _ _ _ _, fun _ hn => SMap.get_put_ne _ _ _ hn, rfl, rfl, rfl,
      ((((Keeps.refl _ _).wake _ (by decide)).withDtm _ (by decide)).emit _ (by decide)).settle⟩

/-! ### The comparison (R109) -/

/-- The chip with a new compare value, armed. -/
def Chip.comparing (c : Chip) (v : Word) : Chip :=
  let d := c.setReg R.DTM_CMP_HI v
  { d with dtm := { d.dtm with compare := v ++ c.reg R.DTM_CMP_LO, armed := true } }

theorem dtmCmpHiWrite_alive (v : Word) (ha : c.alive = true) : dtmCmpHiWrite c v = compareMatch (c.comparing v) := by
  rw [dtmCmpHiWrite, if_neg (by simp [ha]), Chip.comparing,
    ← c.reg_setReg_ne v (show R.DTM_CMP_LO ≠ R.DTM_CMP_HI by decide)]
  rfl

theorem Chip.comparing_enabled (v : Word) : (c.comparing v).bit (pCtrl 0x08) 0 = c.bit (pCtrl 0x08) 0 :=
  Chip.bit_of_reg c (c.reg_setReg_ne v (by decide)) 0

theorem dtmCmpHiWrite_completes (s : State) (v : Word) (ha : s.chip.alive = true) :
    Completes (.dtmCmpHiWrite v) s (fun d =>
      let value : BitVec 64 := v ++ s.chip.reg R.DTM_CMP_LO
      d.reg R.DTM_CMP_HI = v ∧ d.dtm.compare = value ∧
      (s.chip.bit (pCtrl 0x08) 0 = true → value.toNat ≤ s.chip.dtm.dtime.toNat →
        d.bit (pIntStatus 0x08) 0 = true ∧ d.dtm.armed = false) ∧
      (s.chip.bit (pCtrl 0x08) 0 = false ∨ s.chip.dtm.dtime.toNat < value.toNat →
        d.reg (pIntStatus 0x08) = s.chip.reg (pIntStatus 0x08) ∧ d.dtm.armed = true) ∧
      OnlyRegs [R.DTM_CMP_HI, pIntStatus 0x08] s.chip d ∧ Keeps [.regs, .dtm, .pwr] s.chip d) := by
  have hc (d : Chip) : (compareMatch d).dtm.compare = d.dtm.compare := by unfold compareMatch; split <;> rfl
  have hr : OnlyRegs [pIntStatus 0x08] (s.chip.comparing v) (compareMatch (s.chip.comparing v)) :=
    (OnlyRegs.refl _ _).compareMatch (by decide)
  have hv : (s.chip.comparing v).reg R.DTM_CMP_HI = v := s.chip.reg_setReg_self _ v
  refine completes_eq rfl (dtmCmpHiWrite_alive v ha) ⟨?_, hc _, fun he ht => ?_, fun hw => ?_, ?_, ?_⟩
  · exact (hr _ (by decide)).trans hv
  · rw [compareMatch_fires rfl ((Chip.comparing_enabled v).trans he) ht]
    exact ⟨Chip.bit_raise _ _ _ (by decide), rfl⟩
  · rw [compareMatch_waits (.inr (hw.imp (Chip.comparing_enabled v).trans id))]
    exact ⟨s.chip.reg_setReg_ne v (by decide), rfl⟩
  · exact ((OnlyRegs.refl _ _).setReg _ v (by decide)).withDtm _ |>.compareMatch (by decide)
  · exact (((Keeps.refl _ _).setReg _ v (by decide)).withDtm _ (by decide)).compareMatch (by decide) (by decide)
      (by decide)

theorem dtimeCompareMatch_completes (s : State) (hr : s.chip.dtm.running = true) :
    (s.chip.dtm.armed = true → s.chip.bit (pCtrl 0x08) 0 = true →
      s.chip.dtm.compare.toNat ≤ s.chip.dtm.dtime.toNat → Completes .dtimeCompareMatch s (fun d =>
        d.bit (pIntStatus 0x08) 0 = true ∧ d.dtm = { s.chip.dtm with armed := false } ∧
        OnlyRegs [pIntStatus 0x08] s.chip d ∧ Keeps [.regs, .dtm, .pwr] s.chip d)) ∧
    (s.chip.dtm.armed = false ∨ s.chip.bit (pCtrl 0x08) 0 = false ∨
      s.chip.dtm.dtime.toNat < s.chip.dtm.compare.toNat → Completes .dtimeCompareMatch s (Still s.chip)) := by
  refine ⟨fun ha he ht => ?_, fun hw => ?_⟩
  · refine completes_eq rfl ((if_pos hr).trans (compareMatch_fires ha he ht)) ⟨?_, rfl, ?_, ?_⟩
    · exact Chip.bit_raise _ _ _ (by decide)
    · exact ((OnlyRegs.refl _ _).withDtm _).raise _ _ (by decide)
    · exact ((Keeps.refl _ _).withDtm _ (by decide)).raise _ _ (by decide) (by decide)
  · exact completes_eq rfl ((if_pos hr).trans (compareMatch_waits hw)) rfl

/-! ### Software interrupts (R104) -/

theorem Chip.fld_ignored (c : Chip) (page i : Nat) {off : Nat} (h : off < 4096) :
    (c.ignored page i off).fld (pFault page) 31 20 = off := by
  rw [Chip.ignored, Chip.fld_setFld_self _ _ _ (by decide)]
  exact Nat.mod_eq_of_lt h

theorem Chip.bit_ignored (c : Chip) (page : Nat) {i : Nat} (off : Nat) (h : i < 20) :
    (c.ignored page i off).bit (pFault page) i = true := by
  rw [Chip.ignored, Chip.bit_setFld _ _ _ _ _ (by decide), if_neg (by omega)]
  exact Chip.bit_fault _ _ _ (by omega)

/-- What a write to INT_SWI_SET does first: it reports the reserved bits. -/
def Chip.swiChecked (c : Chip) (v : Word) : Chip :=
  if v &&& 0xFFFF0000#32 = 0 then c else c.ignored 0x51 2 0x08C

theorem Chip.onlyRegs_swiChecked (c : Chip) (v : Word) : OnlyRegs [pFault 0x51, pIntStatus 0x51] c (c.swiChecked v) :=
  .ite (fun _ => .refl _ _) fun _ => (OnlyRegs.refl _ _).ignored _ _ _ (by decide) (by decide)

theorem Chip.keeps_swiChecked (c : Chip) (v : Word) : Keeps [.regs, .pwr] c (c.swiChecked v) :=
  .ite (fun _ => .refl _ _) fun _ => (Keeps.refl _ _).ignored _ _ _ (by decide) (by decide)

theorem intSwiSet_alive (v : Word) (ha : c.alive = true) : intSwiSet c v =
    (c.swiChecked v).setReg R.INT_SWI (c.reg R.INT_SWI ||| (v &&& 0x0000FFFF#32)) := by
  rw [← c.onlyRegs_swiChecked v R.INT_SWI (by decide)]
  exact if_neg (by simp [ha])

theorem intSwiSet_completes (s : State) (v : Word) (ha : s.chip.alive = true) :
    Completes (.intSwiSet v) s (fun d =>
      d.reg R.INT_SWI = s.chip.reg R.INT_SWI ||| (v &&& 0x0000FFFF#32) ∧
      (v &&& 0xFFFF0000#32 = 0 → OnlyRegs [R.INT_SWI] s.chip d) ∧
      (v &&& 0xFFFF0000#32 ≠ 0 → d.bit (pFault 0x51) 2 = true ∧ d.fld (pFault 0x51) 31 20 = 0x08C) ∧
      OnlyRegs [R.INT_SWI, pFault 0x51, pIntStatus 0x51] s.chip d ∧ Keeps [.regs, .pwr] s.chip d) := by
  refine completes_eq rfl (intSwiSet_alive v ha) ⟨?_, fun hv => ?_, fun hv => ?_, ?_, ?_⟩
  · exact Chip.reg_setReg_self _ _ _
  · rw [Chip.swiChecked, if_pos hv]
    exact (OnlyRegs.refl _ _).setReg _ _ (by decide)
  · have hf : pFault 0x51 ≠ R.INT_SWI := by decide
    rw [Chip.swiChecked, if_neg hv]
    exact ⟨(Chip.bit_of_reg _ (Chip.reg_setReg_ne _ _ hf) 2).trans (Chip.bit_ignored _ _ _ (by decide)),
      (Chip.fld_of_reg _ (Chip.reg_setReg_ne _ _ hf) 31 20).trans (Chip.fld_ignored _ _ _ (by decide))⟩
  · exact ((s.chip.onlyRegs_swiChecked v).mono (by decide)).setReg _ _ (by decide)
  · exact (s.chip.keeps_swiChecked v).setReg _ _ (by decide)

/-! ### Interrupts of the cores (R106, R497, R498) -/

theorem Chip.bestLine_mem {ls : List Nat} : ∀ {l : Nat}, c.bestLine ls = some l → l ∈ ls := by
  induction ls with
  | nil => intro l h; exact nomatch h
  | cons x ls ih =>
    intro l h
    unfold Chip.bestLine at h
    split at h
    · obtain rfl := Option.some.inj h
      exact List.mem_cons_self
    · next m hm =>
      split at h
      · obtain rfl := Option.some.inj h
        exact List.mem_cons_of_mem _ (ih hm)
      · obtain rfl := Option.some.inj h
        exact List.mem_cons_self

/-- Of lines in rising order the one of lowest PRIORITY, then of lowest number, is taken. -/
theorem Chip.bestLine_eq {ls : List Nat} (hs : ls.Pairwise (· < ·)) : ∀ {l : Nat}, l ∈ ls →
    (∀ m ∈ ls, c.linePri l < c.linePri m ∨ (c.linePri l = c.linePri m ∧ l ≤ m)) → c.bestLine ls = some l := by
  induction ls with
  | nil => intro l hl; exact nomatch hl
  | cons x ls ih =>
    intro l hl hm
    obtain ⟨hx, hs⟩ := List.pairwise_cons.1 hs
    have hmx := hm x List.mem_cons_self
    unfold Chip.bestLine
    rcases List.mem_cons.1 hl with rfl | hl
    · cases hb : c.bestLine ls with
      | none => rfl
      | some m =>
        have := hm m (List.mem_cons_of_mem _ (Chip.bestLine_mem hb))
        exact if_neg (by omega)
    · rw [ih hs hl fun m h => hm m (List.mem_cons_of_mem _ h)]
      have := hx l hl
      exact if_pos (by omega)

theorem Chip.pendingAt_rises (c : Chip) (n : Nat) : (c.pendingAt n).Pairwise (· < ·) :=
  List.pairwise_lt_range.filter _

theorem Chip.irqOf_setIrq (c : Chip) (n : Nat) (xs : List (Nat × Nat)) : (c.setIrq n xs).irqOf n = xs :=
  SMap.get_put_self _ _ _ _

theorem Chip.irqOf_showIrq (c : Chip) (n : Nat) : (c.showIrq n).irqOf n = c.irqOf n := by
  unfold Chip.showIrq
  split <;> rfl

theorem Keeps.showIrq {ps : List ChipPart} (h : Keeps ps c d) (n : Nat) (hr : .regs ∈ ps) :
    Keeps ps c (d.showIrq n) := by
  unfold Chip.showIrq
  split <;> exact h.setReg _ _ hr

theorem OnlyRegs.showIrq {ks : List Nat} (h : OnlyRegs ks c d) (n : Nat) (hk : R.CPU_IRQ n ∈ ks) :
    OnlyRegs ks c (d.showIrq n) := by
  unfold Chip.showIrq
  split <;> exact h.setReg _ _ hk

/-- The chip with the lines that a core handles put and shown. -/
theorem showIrq_setIrq_frame (n : Nat) (xs : List (Nat × Nat)) :
    ((c.setIrq n xs).showIrq n).irqOf n = xs ∧ OnlyRegs [R.CPU_IRQ n] c ((c.setIrq n xs).showIrq n) ∧
      Keeps [.regs, .cpu] c ((c.setIrq n xs).showIrq n) :=
  ⟨(Chip.irqOf_showIrq _ n).trans (Chip.irqOf_setIrq c n xs),
    OnlyRegs.showIrq (OnlyRegs.of_regs rfl) n (List.mem_singleton_self _),
    ((Keeps.refl _ c).withCpu _ (by decide)).showIrq n (by decide)⟩

theorem Chip.reg_showIrq {n l p : Nat} {q : List (Nat × Nat)} (h : c.irqOf n = (l, p) :: q) :
    (c.showIrq n).reg (R.CPU_IRQ n) = BitVec.ofNat 32 (l + 2 ^ 6 + p * 2 ^ 8) := by
  simp only [Chip.showIrq, h, Chip.reg_setReg_self]

theorem interruptTaken_eq {n l : Nat} (hr : c.coreRuns n = true) (hi : c.irqOf n = [])
    (hl : l ∈ c.pendingAt n)
    (hm : ∀ m ∈ c.pendingAt n, c.linePri l < c.linePri m ∨ (c.linePri l = c.linePri m ∧ l ≤ m)) :
    interruptTaken c n = (c.setIrq n [(l, c.linePri l)]).showIrq n := by
  simp only [interruptTaken, hr, Bool.not_true, Bool.false_eq_true, if_false,
    Chip.bestLine_eq (c.pendingAt_rises n) hl hm, hi, if_true]

theorem cpuIrqEoi_active {n l p : Nat} {q : List (Nat × Nat)} (ha : c.alive = true) (hi : c.irqOf n = (l, p) :: q) :
    cpuIrqEoi c n l = (c.setIrq n q).showIrq n := by
  simp [cpuIrqEoi, ha, hi]

theorem cpuIrqEoi_other {n l m p : Nat} {q : List (Nat × Nat)} (ha : c.alive = true) (hi : c.irqOf n = (l, p) :: q)
    (hm : l ≠ m) : cpuIrqEoi c n m = c.fault 0x50 4 := by
  simp [cpuIrqEoi, ha, hi, hm]

/-- Settles O23: each clause reads off what its command makes of the chip. -/
theorem deviceTimeAndInterruptLines : Obligations.DeviceTimeAndInterruptLines := by
  refine ⟨fun s m ha hm => dtimeLoRead_completes ha hm, dtmCmpHiWrite_completes, dtimeCompareMatch_completes,
    intSwiSet_completes, fun s n l hr hi hl hm => ?_, fun s n l m p q ha hi => ⟨?_, fun hml => ?_⟩⟩
  · obtain ⟨hq, hk, hp⟩ := showIrq_setIrq_frame (c := s.chip) n.val [(l, s.chip.linePri l)]
    exact completes_eq rfl (interruptTaken_eq hr hi hl hm) ⟨hq, Chip.reg_showIrq (Chip.irqOf_setIrq _ _ _), hk, hp⟩
  · exact completes_eq rfl (cpuIrqEoi_active ha hi) (showIrq_setIrq_frame (c := s.chip) n.val q)
  · exact completes_eq rfl (cpuIrqEoi_other ha hi fun h => hml (Fin.ext h.symm)) ⟨Chip.bit_fault _ _ _ (by decide),
      (OnlyRegs.refl _ _).fault _ _ (by decide) (by decide), (Keeps.refl _ _).fault _ _ (by decide) (by decide)⟩

end Sys2Proof.Machine
end

section
/-! ## Profile loads (R95, R96, R100, R291, R374, O22) -/

namespace Sys2Proof.Machine

open Sys2Proof

variable {c d : Chip}

/-! ### Chord's grants (R380 to R384) -/

/-- The registers that a change of the grants writes. -/
def chordRegs : List Nat := [R.CHD_LIM_A, R.CHD_LIM_B, R.CHD_SEEK_A, R.CHD_SEEK_B, pIntStatus 0x30]

/-- What a change of the grants may leave different. -/
structure ChordFrame (c d : Chip) : Prop where
  parts : Keeps [.regs, .pwr, .chd] c d
  regs : OnlyRegs chordRegs c d

theorem ChordFrame.refl (c : Chip) : ChordFrame c c := ⟨.refl _ _, .refl _ _⟩

theorem ChordFrame.ite {p : Prop} [Decidable p] {d e : Chip} (h : ChordFrame c d) (g : ChordFrame c e) :
    ChordFrame c (if p then d else e) := by
  split
  · exact h
  · exact g

theorem ChordFrame.withChd (h : ChordFrame c d) (x : Chd) : ChordFrame c { d with chd := x } :=
  ⟨h.parts.withChd x (by decide), h.regs⟩

theorem ChordFrame.putGrant (h : ChordFrame c d) (a : Act) (grant lim : Nat) :
    ChordFrame c (d.putGrant a grant lim) := by
  have hw (x : Chd) : ChordFrame c { d with chd := x } := h.withChd x
  cases a <;> exact ⟨((hw _).parts.setFld _ _ _ _ (by decide)).setFld _ _ _ _ (by decide),
    ((hw _).regs.setFld _ _ _ _ (by decide)).setFld _ _ _ _ (by decide)⟩

theorem ChordFrame.setChange (h : ChordFrame c d) (g : Option GrantChange) : ChordFrame c (d.setChange g) :=
  ⟨((h.withChd _).parts.setBit _ _ _ (by decide)).setBit _ _ _ (by decide),
    ((h.withChd _).regs.setBit _ _ _ (by decide)).setBit _ _ _ (by decide)⟩

theorem ChordFrame.changeEnds (h : ChordFrame c d) : ChordFrame c ((d.setChange none).raise 0x30 0) :=
  ⟨(h.setChange none).parts.raise _ _ (by decide) (by decide), (h.setChange none).regs.raise _ _ (by decide)⟩

theorem ChordFrame.planChange (h : ChordFrame c d) (last : BitVec 64) (pending : Bool) :
    ChordFrame c (d.planChange last pending) :=
  .ite (.ite h.changeEnds h)
    (.setChange (.ite (.putGrant (.ite (h.putGrant _ _ _) h) _ _ _) (.ite (h.putGrant _ _ _) h)) _)

theorem ChordFrame.stepGrant (h : ChordFrame c d) (a : Act) (boundary : Bool) :
    ChordFrame c (d.stepGrant a boundary) := by
  unfold Chip.stepGrant
  split
  · exact h
  · exact .ite ((h.putGrant _ _ _).setChange _) (.ite ((h.putGrant _ _ _).setChange _) h)

theorem ChordFrame.closePhase (h : ChordFrame c d) : ChordFrame c d.closePhase := by
  unfold Chip.closePhase
  split
  · exact h
  · exact .ite h (.ite (.ite (h.planChange _ _) h) (.ite (h.changeEnds.planChange _ _) h.changeEnds))

theorem ChordFrame.silentGrants (h : ChordFrame c d) (n : Nat) : ChordFrame c (d.silentGrants n) := by
  induction n generalizing d with
  | zero => exact h
  | succ n ih => exact ih ((h.stepGrant _ _).stepGrant _ _).closePhase

theorem ChordFrame.retarget (h : ChordFrame c d) : ChordFrame c d.retarget := by
  unfold Chip.retarget
  split
  · exact (h.planChange _ _).silentGrants _
  · exact (h.withChd _).silentGrants _

/-! ### The pages that have profiles -/

/-- The pages with a PROFILE register. -/
def profilePages : List Nat :=
  [0x06, 0x12, 0x18, 0x19, 0x20, 0x28, 0x21, 0x29, 0x22, 0x2A, 0x23, 0x2B, 0x24, 0x2C, 0x30, 0x3A, 0x40, 0x41, 0x42]

/-- The pages whose profile takes effect later: SV at the next wedge, the engines at the next sample. -/
def laterPages : List Nat := [0x22, 0x2A, 0x24, 0x2C]

variable {page off : Nat}

theorem mem_profilePages (h : profileOff page = some off) : page ∈ profilePages := by
  unfold profileOff at h
  split at h
  case h_20 => exact nomatch h
  all_goals decide

theorem profilePages_off : ∀ page ∈ profilePages, ∀ off ∈ profileOff page,
    0x80 ≤ off ∧ off < 0x400 ∧ page * 4096 + off ∉ chordRegs := by decide

theorem profileOff_range (h : profileOff page = some off) :
    0x80 ≤ off ∧ off < 0x400 ∧ page * 4096 + off ∉ chordRegs := profilePages_off page (mem_profilePages h) off h

/-- A profile's registers are all different, lie in the expert part of the page, and none holds a grant. -/
theorem profileTable_offsets : ∀ page ∈ profilePages, ((profileTable (profilePage page)).map (·.1)).Nodup ∧
    ∀ e ∈ profileTable (profilePage page), 0x400 ≤ e.1 ∧ e.1 < 4096 ∧ page * 4096 + e.1 ∉ chordRegs := by decide

theorem profilePage_now : ∀ page ∈ profilePages, page ∉ laterPages →
    profilePage page ≠ 0x24 ∧ profilePage page ≠ 0x22 ∧ (profilePage page = 0x30 → page = 0x30) := by decide

theorem laterPages_cases : ∀ page ∈ laterPages, page = 0x22 ∨ page = 0x2A ∨ page = 0x24 ∨ page = 0x2C := by decide

/-! ### A table put in force -/

/-- The words of a list put in the registers of a base. -/
def Chip.putTable (c : Chip) (base : Nat) (value : Nat × List Nat → Word) (es : List (Nat × List Nat)) : Chip :=
  es.foldl (fun c e => c.setReg (base + e.1) (value e)) c

theorem Chip.reg_putTable_ne (base k : Nat) (value : Nat × List Nat → Word) (es : List (Nat × List Nat))
    (h : ∀ e ∈ es, k ≠ base + e.1) : (c.putTable base value es).reg k = c.reg k := by
  induction es generalizing c with
  | nil => rfl
  | cons e es ih =>
    exact (ih fun x hx => h x (List.mem_cons_of_mem _ hx)).trans (c.reg_setReg_ne _ (h e List.mem_cons_self))

theorem Chip.reg_putTable (base : Nat) (value : Nat × List Nat → Word) (es : List (Nat × List Nat))
    (hn : (es.map (·.1)).Nodup) : ∀ e ∈ es, (c.putTable base value es).reg (base + e.1) = value e := by
  induction es generalizing c with
  | nil => exact fun e he => nomatch he
  | cons x es ih =>
    obtain ⟨hx, hn⟩ := List.nodup_cons.1 hn
    intro e he
    rcases List.mem_cons.1 he with rfl | he
    · have hne : ∀ y ∈ es, base + e.1 ≠ base + y.1 := fun y hy hk => 
        hx (List.mem_map.2 ⟨y, hy, (Nat.add_left_cancel hk).symm⟩)
      exact (Chip.reg_putTable_ne (c := c.setReg _ (value e)) _ _ _ es hne).trans (c.reg_setReg_self _ _)
    · exact ih hn e he

theorem Chip.loadTable_eq (c : Chip) (page p : Nat) : c.loadTable page p =
    (c.clearOverrides page).putTable (page * 4096) (fun e => natW (e.2.getD p 0)) (profileTable (profilePage page)) :=
  rfl

theorem Chip.keeps_loadTable (c : Chip) (page p : Nat) : Keeps [.regs, .overrides] c (c.loadTable page p) :=
  Keeps.foldl _ _ (fun _ _ _ h => h.setReg _ _ (by decide)) ((Keeps.refl _ c).withOverrides _ (by decide))

theorem Chip.sameRegs_loadTable (h : page ∈ profilePages) (p : Nat) : SameRegs [page] c (c.loadTable page p) := by
  intro k hk
  rw [Chip.loadTable_eq, Chip.reg_putTable_ne]
  · rfl
  · intro e he hke
    obtain ⟨-, ho⟩ := profileTable_offsets page h
    obtain ⟨-, hlt, -⟩ := ho e he
    exact hk (List.mem_singleton.2 (by omega))

theorem Chip.overrides_loadTable (c : Chip) (page p : Nat) : ∀ k ∈ (c.loadTable page p).overrides, k / 4096 ≠ page := by
  have hk : Keeps [.regs] (c.clearOverrides page) (c.loadTable page p) :=
    Keeps.foldl _ _ (fun _ _ _ h => h.setReg _ _ (by decide)) (Keeps.refl _ _)
  rw [hk.overrides (by decide)]
  intro k hm
  simpa using (List.mem_filter.1 hm).2

/-! ### The load of a page -/

/-- Where the load is at once, the chapter's own work after the table leaves the registers, but for the grants. -/
theorem Chip.loadProfile_table (h : page ∈ profilePages) (hb : page ∉ laterPages) (p : Nat) :
    Keeps [.regs, .pwr, .chd, .chanA, .chanB] (c.loadTable page p) (c.loadProfile page p) ∧
    OnlyRegs chordRegs (c.loadTable page p) (c.loadProfile page p) ∧
    (page ≠ 0x30 → SameRegs [] (c.loadTable page p) (c.loadProfile page p)) := by
  obtain ⟨h24, h22, h30⟩ := profilePage_now page h hb
  have hm (f : Chan → Chan) : Keeps [.chanA, .chanB] (c.loadTable page p)
      ((c.loadTable page p).mapChan (pageAct page) f) :=
    (Keeps.refl _ _).mapChan _ f (by decide) (by decide)
  have hf {e : Chip} (hk : Keeps [.chanA, .chanB] (c.loadTable page p) e) :
      Keeps [.regs, .pwr, .chd, .chanA, .chanB] (c.loadTable page p) e ∧ OnlyRegs chordRegs (c.loadTable page p) e ∧
      (page ≠ 0x30 → SameRegs [] (c.loadTable page p) e) :=
    ⟨hk.mono (by decide), fun k _ => hk.reg (by decide) k, fun _ k _ => hk.reg (by decide) k⟩
  unfold Chip.loadProfile
  dsimp only
  split
  · exact absurd ‹_› h24
  · exact absurd ‹_› h22
  · exact hf (hm _)
  · exact hf (hm _)
  · next h =>
    have hr := ChordFrame.retarget (.refl (c.loadTable page p))
    exact ⟨hr.parts.mono (by decide), hr.regs, fun hne => absurd (h30 h) hne⟩
  · exact hf (Keeps.refl _ _)

/-- Where the load waits for its boundary, it is noted with the engine or the channel. -/
theorem Chip.loadProfile_later (h : page ∈ laterPages) (p : Nat) :
    Keeps [.cleA, .cleB, .chanA, .chanB] c (c.loadProfile page p) := by
  rcases laterPages_cases page h with rfl | rfl | rfl | rfl
  · exact (Keeps.refl _ c).withChanA _ (by decide)
  · exact (Keeps.refl _ c).withChanB _ (by decide)
  · exact (Keeps.refl _ c).withCleA _ (by decide)
  · exact (Keeps.refl _ c).withCleB _ (by decide)

/-- The parts that a profile load may change. -/
def profileParts : List ChipPart := [.regs, .pwr, .overrides, .cleA, .cleB, .chanA, .chanB, .chd]

theorem Chip.keeps_loadProfile (h : page ∈ profilePages) (p : Nat) : Keeps profileParts c (c.loadProfile page p) := by
  by_cases hb : page ∈ laterPages
  · exact (Chip.loadProfile_later hb p).mono (by decide)
  · exact ((c.keeps_loadTable page p).mono (by decide)).trans ((Chip.loadProfile_table h hb p).1.mono (by decide))

theorem Chip.reg_loadProfile_table (h : page ∈ profilePages) (hb : page ∉ laterPages) (p : Nat) :
    ∀ e ∈ profileTable (profilePage page), (c.loadProfile page p).reg (page * 4096 + e.1) = natW (e.2.getD p 0) := by
  intro e he
  obtain ⟨hn, ho⟩ := profileTable_offsets page h
  obtain ⟨-, -, hc⟩ := ho e he
  obtain ⟨-, hr, -⟩ := Chip.loadProfile_table (c := c) h hb p
  exact (hr _ hc).trans (Chip.reg_putTable _ _ _ hn e he)

/-- The PROFILE register itself is in no table. -/
theorem Chip.reg_loadProfile_select (ho : profileOff page = some off) (p : Nat) :
    (c.loadProfile page p).reg (page * 4096 + off) = c.reg (page * 4096 + off) := by
  have h := mem_profilePages ho
  by_cases hb : page ∈ laterPages
  · exact (Chip.loadProfile_later hb p).reg (by decide) _
  · obtain ⟨-, hlt, hc⟩ := profileOff_range ho
    obtain ⟨-, hr, -⟩ := Chip.loadProfile_table (c := c) h hb p
    refine (hr _ hc).trans (Chip.reg_putTable_ne _ _ _ _ fun e he hke => ?_)
    obtain ⟨hge, -, -⟩ := (profileTable_offsets page h).2 e he
    omega

theorem Chip.sameRegs_loadProfile (h : page ∈ profilePages) (hc : page ≠ 0x30) (p : Nat) :
    SameRegs [page] c (c.loadProfile page p) := by
  by_cases hb : page ∈ laterPages
  · exact fun k _ => (Chip.loadProfile_later hb p).reg (by decide) k
  · exact (Chip.sameRegs_loadTable h p).trans fun k _ => (Chip.loadProfile_table h hb p).2.2 hc k List.not_mem_nil

/-! ### PROFILE_LOAD -/

theorem Chip.not_segDead (h : page = 0x12 → c.lcs.tierS = true) {off : Nat} (ho : off < 4096) :
    c.segDead (page * 4096 + off) = false := by
  have hp : (page * 4096 + off) / 4096 = page := by omega
  simp only [Chip.segDead, hp]
  by_cases hs : page = 0x12
  · simp [h hs]
  · simp [hs]

/-- At the PROFILE register of a page the profile is selected. -/
theorem profileLoad_selects (ha : c.alive = true) (ho : profileOff page = some off)
    (ht : page = 0x12 → c.lcs.tierS = true) (p : Nat) :
    profileLoad c (0x40000000 + page * 4096 + off) p = (c.wake page).selectProfile page p := by
  obtain ⟨-, hlt, -⟩ := profileOff_range ho
  have hk : 0x40000000 + page * 4096 + off - 0x40000000 = page * 4096 + off := by omega
  have hp : (page * 4096 + off) / 4096 = page := by omega
  have hm : (0x40000000 + page * 4096 + off) % 4096 = off := by omega
  have hge : ¬ 0x40000000 + page * 4096 + off < 0x40000000 := by omega
  simp only [profileLoad, hk, hp, hm, ha, ho, Chip.not_segDead ht (show off < 4096 by omega), decide_eq_false hge,
    Bool.not_true, Bool.or_self, bne_self_eq_false, Bool.false_eq_true, if_false]

theorem profileLoad_elsewhere {addr : Nat}
    (h : profileOff ((addr - 0x40000000) / 4096) ≠ some (addr % 4096)) (p : Nat) :
    profileLoad c addr p = c := if_pos (by simp [h])

/-- The chip with PROFILE set and loaded. -/
def Chip.profiled (c : Chip) (page off p : Nat) : Chip :=
  ((c.wake page).setFld (page * 4096 + off) 1 0 p).loadProfile page p

theorem profileLoad_taken (ha : c.alive = true) (ho : profileOff page = some off)
    (ht : page = 0x12 → c.lcs.tierS = true) {p : Nat} (hp : p ≠ 3) :
    profileLoad c (0x40000000 + page * 4096 + off) p = c.profiled page off p := by
  rw [profileLoad_selects ha ho ht]
  simp only [Chip.selectProfile, ho, if_neg hp, Chip.profiled]

theorem profileLoad_refused (ha : c.alive = true) (ho : profileOff page = some off)
    (ht : page = 0x12 → c.lcs.tierS = true) :
    profileLoad c (0x40000000 + page * 4096 + off) 3 = (c.wake page).fault page 3 := by
  rw [profileLoad_selects ha ho ht]
  simp only [Chip.selectProfile, ho, if_true]

/-- Settles O22: a profile is refused, noted for its boundary, or its table is put in force at once. -/
theorem profileLoadsItsTable : Obligations.ProfileLoadsItsTable := by
  refine ⟨fun s page off ha ho ht => ⟨?_, fun p hp => ?_⟩, fun s addr p h =>
    completes_eq rfl (profileLoad_elsewhere h p.val) rfl⟩
  · refine completes_eq rfl (profileLoad_refused ha ho ht) ⟨Chip.bit_fault _ _ _ (by decide), ?_, ?_⟩
    · exact OnlyRegs.fault (c := s.chip) (ks := [pFault page, pIntStatus page]) _ _ (.refl _ _) (by simp) (by simp)
    · exact ((Keeps.refl _ _).wake _ (by decide)).fault _ _ (by decide) (by decide)
  · have hm := mem_profilePages ho
    have hp3 : p.val ≠ 3 := fun h => hp (Fin.ext h)
    refine completes_eq rfl (profileLoad_taken ha ho ht hp3)
      ⟨?_, fun hb => ?_, fun hb => ?_, ?_, ?_, ?_, ?_, fun hc => ?_, ?_⟩
    · calc (s.chip.profiled page off p).fld (page * 4096 + off) 1 0
          = ((s.chip.wake page).setFld (page * 4096 + off) 1 0 p).fld (page * 4096 + off) 1 0 :=
            Chip.fld_of_reg _ (Chip.reg_loadProfile_select ho p) 1 0
        _ = p.val % 2 ^ (1 + 1 - 0) := Chip.fld_setFld_self _ _ _ (by decide)
        _ = p.val := Nat.mod_eq_of_lt p.isLt
    · exact Chip.reg_loadProfile_table hm hb p
    · have hk := (Chip.loadProfile_table (c := (s.chip.wake page).setFld (page * 4096 + off) 1 0 p) hm hb p).1
      intro k hko
      exact Chip.overrides_loadTable _ page p k (hk.overrides (by decide) ▸ hko)
    · rintro rfl; rfl
    · rintro rfl; rfl
    · rintro rfl; rfl
    · rintro rfl; rfl
    · have hs : SameRegs [page] s.chip ((s.chip.wake page).setFld (page * 4096 + off) 1 0 p) :=
        OnlyRegs.sameRegs (ks := [page * 4096 + off]) (OnlyRegs.setFld _ _ _ _ (.refl _ _) (by simp)) (by
          have := profileOff_range ho
          intro k hk
          rw [List.mem_singleton.1 hk, List.mem_singleton]
          omega)
      exact hs.trans (Chip.sameRegs_loadProfile hm hc p)
    · have hw : Keeps profileParts s.chip ((s.chip.wake page).setFld (page * 4096 + off) 1 0 p) :=
        ((Keeps.refl _ _).wake _ (by decide)).setFld _ _ _ _ (by decide)
      exact hw.trans (Chip.keeps_loadProfile hm p)

end Sys2Proof.Machine
end

section
/-! ## Writes through the bus (R86, R93, R94, R101) -/

namespace Sys2Proof.Machine

open Sys2Proof

variable {c d : Chip} {page off k : Nat} {r : RegDesc}

/-! ### Masks -/

theorem word_and_zero (v : Word) : v &&& 0 = 0 := BitVec.and_zero

theorem word_zero_bit (i : Nat) : (0 : Word).getLsbD i = false := BitVec.getLsbD_zero

/-- All bits of a word, as `simp` writes `BitVec.allOnes 32`. -/
theorem word_and_top (v : Word) : v &&& 4294967295#32 = v := BitVec.and_allOnes

/-- What the access of its fields lets a write through depends on EXPERT and the life cycle alone. -/
theorem Chip.pickMask_congr (hb : d.bit (pCtrl page) 31 = c.bit (pCtrl page) 31) (hl : d.lcs = c.lcs) (fs : List Field)
    (p : Acc → Bool) : d.pickMask page fs p = c.pickMask page fs p := by
  have hm : d.mayWrite page = c.mayWrite page := funext fun f => by
    simp only [Chip.mayWrite, Chip.diagOpen, Chip.effective, hb, hl]
  simp only [Chip.pickMask, Chip.writeMask, hm]

/-! ### What every write does first -/

/-- A write to fields that EXPERT and the life cycle leave alone, with no reserved bit, reports nothing. -/
theorem Chip.preWrite_plain {v : Word} (hd : regDesc k = some r) (hr : r.readOnly = false)
    (hf : r.fields.any (fun f => f.acc == .rwx || f.acc == .rwd || f.acc == .w1sd) = false)
    (hv : v &&& ~~~ definedMask r.fields = 0) : c.preWrite k v = (c, v &&& c.writeMask (k / 4096) r.fields) := by
  have hany {p : Field → Bool} (hp : ∀ f, p f = true → (f.acc == .rwx || f.acc == .rwd || f.acc == .w1sd) = true) :
      r.fields.any p = false := List.any_eq_false.2 fun f hm h => List.any_eq_false.1 hf f hm (hp f h)
  have hx : r.fields.any (fun f => f.acc == .rwx) = false := hany fun f h => by simp [h]
  have hy : r.fields.any (fun f => f.acc == .rwd || f.acc == .w1sd) = false :=
    hany fun f h => by rw [Bool.or_assoc, h, Bool.or_true]
  simp [Chip.preWrite, hd, hr, hx, hy, hv]

/-! ### The values a register does not take -/

theorem rejectCtl_common (v : Word) (h : off < 0x80) : rejectCtl page off v = none := by
  unfold rejectCtl
  split
  case h_9 => rfl
  all_goals omega

theorem Chip.rejectFlow_common (c : Chip) (v : Word) (h : off < 0x80) : c.rejectFlow page off v = none := by
  unfold Chip.rejectFlow
  dsimp only
  split
  case h_11 => rfl
  all_goals omega

theorem Chip.rejectChannel_common (c : Chip) (v : Word) (h : off < 0x80) : c.rejectChannel page off v = none := by
  unfold Chip.rejectChannel
  dsimp only
  split
  case h_21 => rfl
  all_goals omega

theorem rejectCle_common (v : Word) (h : off < 0x80) : rejectCle off v = none := by
  unfold rejectCle
  split
  case h_9 => rfl
  all_goals omega

theorem Chip.rejectChd_common (c : Chip) (v : Word) (h : off < 0x80) : c.rejectChd off v = none := by
  unfold Chip.rejectChd
  split
  case h_4 => rw [if_neg (by omega), if_neg (by omega)]
  all_goals omega

theorem rejectRest_common (v : Word) (h : off < 0x80) : rejectRest page off v = none := by
  unfold rejectRest
  split
  case h_10 => rfl
  all_goals omega

/-- No common register of a page has a range of its own. -/
theorem Chip.rejects_common (c : Chip) (page : Nat) (v : Word) (h : off < 0x80) : c.rejects page off v = none := by
  unfold Chip.rejects
  rw [if_neg (by omega)]
  split
  · exact rejectCtl_common v h
  split
  · exact c.rejectFlow_common v h
  split
  · exact rejectCle_common v h
  split
  · exact c.rejectChannel_common v h
  split
  · exact c.rejectChd_common v h
  · exact rejectRest_common v h

/-! ### A register held as a word -/

theorem Chip.noteOverride_plain {fs : List Field} (h : fs.any (fun f => f.acc == .rwx) = false) :
    c.noteOverride k fs = c := if_neg (by simp [h])

/-- A write that may change some field, of a value that the register takes. -/
theorem Chip.storeReg_taken {v : Word} (hd : regDesc k = some r)
    (hm : (c.preWrite k v).1.pickMask (k / 4096) r.fields (fun a => a.stores || a == .w1c) ≠ 0)
    (hn : (c.preWrite k v).1.rejects (k / 4096) (k % 4096)
      ((c.preWrite k v).1.merged (k / 4096) r.fields (c.reg k) v) = none) :
    c.storeReg k v = ((c.preWrite k v).1.setReg k
      ((c.preWrite k v).1.merged (k / 4096) r.fields (c.reg k) v)).noteOverride k r.fields := by
  simp only [Chip.storeReg, Chip.writeEntry, hd, if_neg hm, hn]

/-! ### Which registers a write reaches -/

theorem Chip.ownedBit_none (h : profilePage page ≠ 0x24 ∨ off < 0x400) (ho : off ≠ 0x604) :
    c.ownedBit page off = none := by
  have hc : (profilePage page == 0x24 && c.calibrating (pageAct page) && decide (0x400 ≤ off) && decide (off < 0xF00))
      = false := by
    rcases h with h | h
    · simp [h]
    · simp [show ¬ 0x400 ≤ off by omega]
  simp only [Chip.ownedBit, hc, Bool.false_eq_true, if_false, ho, decide_false, Bool.false_and]

/-- A write to a register that is not read-only and that nothing owns. -/
theorem Chip.busWrite_reaches (hd : regDesc k = some r) (hr : r.readOnly = false) (hs : c.segDead k = false)
    (hw : profilePage (k / 4096) ≠ 0x24 ∨ k % 4096 < 0x400) (ho : k % 4096 ≠ 0x604) (v : Word) : c.busWrite k v =
      if k % 4096 < 0x80 then (c.wake (k / 4096)).writeCommon (k / 4096) (k % 4096) v
      else (c.wake (k / 4096)).writeOwn (k / 4096) k v := by
  have hs' : (c.wake (k / 4096)).segDead k = false := hs
  simp only [Chip.busWrite, hd, hr, hs', Chip.ownedBit_none hw ho, Bool.or_self, Bool.false_eq_true, if_false]

/-- An offset that no map defines and a read-only register take nothing; the access wakes the page. -/
theorem Chip.busWrite_nothing (h : regDesc k = none ∨ ∃ r, regDesc k = some r ∧ r.readOnly = true) (v : Word) :
    c.busWrite k v = c.wake (k / 4096) := by
  rcases h with h | ⟨r, h, hr⟩
  · simp only [Chip.busWrite, h]
  · simp only [Chip.busWrite, h, hr, Bool.true_or, if_true]

/-! ### The cycle -/

/-- Where hardware changes no bit of the register nothing collides. -/
theorem Chip.busWriteWith_quiet (c : Chip) (k : Nat) (v : Word) : c.busWriteWith k v 0 0 = (c.busWrite k v, false) := by
  unfold Chip.busWriteWith
  split
  · rfl
  · simp only [word_and_zero, show (0 : Word) ||| 0 = 0 from rfl, if_true]

theorem Chip.collisions_nil (c : Chip) : c.collisions [] = c := rfl

/-- One write of one master that reaches its register. -/
theorem registerWrite_single {m : Master} {v hs hc : Word} {q : Chip × Bool}
    (hm : c.mayReach m (0x40000000 + k) = true) (hq : c.busWriteWith k v hs hc = q) :
    registerWrite c [⟨m, 0x40000000 + k, v, hs, hc⟩] = q.1.collisions (if q.2 then [k] else []) := by
  have hk : regKey (0x40000000 + k) = k := Nat.add_sub_cancel_left _ _
  simp only [registerWrite, List.foldl_cons, List.foldl_nil, Chip.cycleWrite, hm, if_true, hk, hq, List.nil_append]

/-- A write in whose cycle hardware leaves the register alone is a write through the bus. -/
theorem registerWrite_quiet {m : Master} (hm : c.mayReach m (0x40000000 + k) = true) (v : Word) :
    registerWrite c [⟨m, 0x40000000 + k, v, 0, 0⟩] = c.busWrite k v :=
  registerWrite_single hm (c.busWriteWith_quiet k v)

/-- In a fold over different pages of which one acts, it acts once. -/
theorem foldl_of_only {α β : Type} (f : β → α → β) {x : α} {l : List α} (hn : l.Nodup) (hx : x ∈ l)
    (hf : ∀ y ∈ l, y ≠ x → ∀ b, f b y = b) (b : β) : l.foldl f b = f b x := by
  have hid : ∀ (l : List α) (b : β), (∀ y ∈ l, ∀ b, f b y = b) → l.foldl f b = b := by
    intro l
    induction l with
    | nil => exact fun _ _ => rfl
    | cons y l ih =>
      intro b h
      rw [List.foldl_cons, h y List.mem_cons_self]
      exact ih b fun z hz => h z (List.mem_cons_of_mem _ hz)
  induction l generalizing b with
  | nil => exact nomatch hx
  | cons y l ih =>
    obtain ⟨hy, hn⟩ := List.nodup_cons.1 hn
    rw [List.foldl_cons]
    by_cases h : y = x
    · subst h
      exact hid l _ fun z hz => hf z (List.mem_cons_of_mem _ hz) fun he => hy (he ▸ hz)
    · rw [hf y List.mem_cons_self h]
      exact ih hn ((List.mem_cons.1 hx).resolve_left fun he => h he.symm)
        (fun z hz => hf z (List.mem_cons_of_mem _ hz)) b

/-- The collisions of one page count once, at the lowest offset (R101). -/
theorem Chip.collisions_page {ks : List Nat} (hp : page ∈ linePages) (hk : ∀ j ∈ k :: ks, j / 4096 = page) :
    c.collisions (k :: ks) = c.collided page ((ks.map (· % 4096)).foldl min (k % 4096)) := by
  unfold Chip.collisions
  rw [foldl_of_only _ (by decide) hp]
  · have hf : (k :: ks).filter (fun j => j / 4096 == page) = k :: ks :=
      List.filter_eq_self.2 fun j hj => by simp [hk j hj]
    rw [hf]
    rfl
  · intro y _ hy b
    have hf : (k :: ks).filter (fun j => j / 4096 == y) = [] :=
      List.filter_eq_nil_iff.2 fun j hj => by simp [hk j hj, hy.symm]
    rw [hf]
    rfl

end Sys2Proof.Machine
end

section
/-! ## The common registers of every page (R91, R92, R97, R101, R102, O21) -/

namespace Sys2Proof.Machine

open Sys2Proof

variable {c d : Chip} {page : Nat}

/-! ### Their fields -/

/-- The fields of a common register whose 32 bits all have one access. -/
def wordFields (a : Acc) : List Field := [⟨31, 31, a⟩, ⟨30, 0, a⟩]

theorem definedMask_word (a : Acc) : definedMask (wordFields a) = BitVec.allOnes 32 := by
  simp only [definedMask, wordFields, List.foldl_cons, List.foldl_nil]
  decide

theorem Chip.writeMask_word {a : Acc} (h : a = .rw ∨ a = .w1c ∨ a = .wo) :
    c.writeMask page (wordFields a) = BitVec.allOnes 32 := by
  have hm (f : Field) (hf : f.acc = a) : c.mayWrite page f = true := by
    rcases h with rfl | rfl | rfl <;> simp [Chip.mayWrite, hf]
  simp only [Chip.writeMask, wordFields, List.foldl_cons, List.foldl_nil, hm, if_true]
  decide

/-- Of such a register a choice of fields picks all bits or none. -/
theorem Chip.pickMask_word {a : Acc} (h : a = .rw ∨ a = .w1c ∨ a = .wo) (p : Acc → Bool) :
    c.pickMask page (wordFields a) p = if p a then BitVec.allOnes 32 else 0 := by
  by_cases hp : p a
  · have hf : (wordFields a).filter (fun f => p f.acc) = wordFields a := by simp [wordFields, hp]
    rw [Chip.pickMask, hf, Chip.writeMask_word h, if_pos hp]
  · have hf : (wordFields a).filter (fun f => p f.acc) = [] := by simp [wordFields, hp]
    rw [Chip.pickMask, hf, if_neg hp]
    rfl

/-- What comes first with a write to such a register lets every bit through. -/
theorem Chip.preWrite_word {a : Acc} {k off : Nat} {x : Word} (hd : regDesc k = some ⟨off, x, wordFields a⟩)
    (h : a = .rw ∨ a = .w1c ∨ a = .wo) (v : Word) : c.preWrite k v = (c, v) := by
  have hv : v &&& ~~~ definedMask (wordFields a) = 0 := by rw [definedMask_word]; simp
  have hr : RegDesc.readOnly ⟨off, x, wordFields a⟩ = false := by rcases h with rfl | rfl | rfl <;> rfl
  have hf : (wordFields a).any (fun f => f.acc == .rwx || f.acc == .rwd || f.acc == .w1sd) = false := by
    rcases h with rfl | rfl | rfl <;> rfl
  rw [Chip.preWrite_plain hd hr hf hv, Chip.writeMask_word h, BitVec.and_allOnes]

theorem mem_linePages (h : populated page = true) : page ∈ linePages := by
  unfold populated pageRegs at h
  split at h
  case h_38 => exact nomatch h
  all_goals decide

theorem regDesc_common : ∀ page ∈ linePages,
    regDesc (pIntStatus page) = some ⟨0x010, 0, wordFields .w1c⟩ ∧
    regDesc (pIntEnable page) = some ⟨0x014, 0, wordFields .rw⟩ ∧
    regDesc (page * 4096 + 0x018) = some ⟨0x018, 0, wordFields .wo⟩ ∧
    regDesc (pFault page) = some ⟨0x020, 0, [⟨31, 20, .ro⟩, ⟨15, 3, .w1c⟩, ⟨2, 0, .w1c⟩]⟩ ∧
    regDesc (pCollide page) = some ⟨0x024, 0, [⟨31, 31, .wo⟩, ⟨27, 16, .ro⟩, ⟨15, 0, .ro⟩]⟩ := by decide

/-- A write to a common register of a page. -/
theorem Chip.busWrite_common {off : Nat} {r : RegDesc} (hd : regDesc (page * 4096 + off) = some r)
    (hr : r.readOnly = false) (ht : page = 0x12 → c.lcs.tierS = true) (ho : off < 0x80) (v : Word) :
    c.busWrite (page * 4096 + off) v = (c.wake page).writeCommon page off v := by
  have hp : (page * 4096 + off) / 4096 = page := by omega
  have hm : (page * 4096 + off) % 4096 = off := by omega
  rw [Chip.busWrite_reaches hd hr (Chip.not_segDead ht (by omega)) (.inr (by omega)) (by omega), hp, hm, if_pos ho]

/-! ### INT_SET (R92) -/

theorem Chip.bit_foldl_raise (v : Word) (l : List Nat) (j : Nat) (hj : j < 32) : ∀ c : Chip,
    (l.foldl (fun (c : Chip) i => if v.getLsbD i then c.raise page i else c) c).bit (pIntStatus page) j =
      (c.bit (pIntStatus page) j || (decide (j ∈ l) && v.getLsbD j)) := by
  induction l with
  | nil => simp
  | cons i l ih =>
    intro c
    rw [List.foldl_cons, ih]
    have hi : (if v.getLsbD i then c.raise page i else c).bit (pIntStatus page) j =
        (c.bit (pIntStatus page) j || (decide (j = i) && v.getLsbD j)) := by
      by_cases hv : v.getLsbD i
      · rw [if_pos hv, Chip.bit, Chip.reg_raise, if_pos rfl, BitVec.getLsbD_or, getLsbD_bitW]
        by_cases h : j = i
        · subst h; simp [hv, hj]
        · simp [h, Ne.symm h, Chip.bit]
      · rw [if_neg hv]
        by_cases h : j = i
        · subst h; simp [hv]
        · simp [h]
    rw [hi]
    by_cases h : j = i
    · subst h; cases v.getLsbD j <;> simp
    · simp [h]

/-- A write to INT_SET raises the causes written 1 and nothing else. -/
theorem intSetWrite_eq (ha : c.alive = true) (hp : populated page = true) (ht : page = 0x12 → c.lcs.tierS = true)
    (v : Word) : intSetWrite c page v =
      (List.range 32).foldl (fun (c : Chip) i => if v.getLsbD i then c.raise page i else c) (c.wake page) := by
  obtain ⟨-, -, hd, -, -⟩ := regDesc_common page (mem_linePages hp)
  rw [intSetWrite, if_neg (by simp [ha, hp]), Chip.busWrite_common hd rfl ht (by decide)]
  simp only [Chip.writeCommon, Chip.intSet, Chip.preWrite_word (c := c.wake page) hd (by decide) v]

theorem intSet_completes (s : State) (v : Word) (ha : s.chip.alive = true) (hp : populated page = true)
    (ht : page = 0x12 → s.chip.lcs.tierS = true) : Completes (.intSet page v) s (fun d =>
      d.reg (pIntStatus page) = s.chip.reg (pIntStatus page) ||| v ∧
      OnlyRegs [pIntStatus page] s.chip d ∧ Keeps [.regs, .pwr] s.chip d) := by
  refine completes_eq rfl (intSetWrite_eq ha hp ht v) ⟨BitVec.eq_of_getLsbD_eq fun j hj => ?_, ?_, ?_⟩
  · rw [BitVec.getLsbD_or]
    refine (Chip.bit_foldl_raise v _ j hj _).trans ?_
    simp [hj, Chip.bit]
  · exact OnlyRegs.foldl (ks := [pIntStatus page]) _ _
      (fun _ _ _ h => .ite (fun _ => h.raise _ _ (by simp)) fun _ => h) (.refl _ _)
  · exact Keeps.foldl _ _ (fun _ _ _ h => .ite (fun _ => h.raise _ _ (by decide) (by decide)) fun _ => h)
      ((Keeps.refl _ _).wake _ (by decide))

/-! ### COLLIDE (R101, R102) -/

theorem Keeps.collided {ps : List ChipPart} (h : Keeps ps c d) (page off : Nat) (hr : .regs ∈ ps) :
    Keeps ps c (d.collided page off) := (h.setFld _ _ _ _ hr).setFld _ _ _ _ hr

theorem OnlyRegs.collided {ks : List Nat} (h : OnlyRegs ks c d) (page off : Nat) (hk : pCollide page ∈ ks) :
    OnlyRegs ks c (d.collided page off) := (h.setFld _ _ _ _ hk).setFld _ _ _ _ hk

theorem Chip.offset_collided (c : Chip) (page : Nat) {off : Nat} (h : off < 4096) :
    (c.collided page off).fld (pCollide page) 27 16 = off :=
  (Chip.fld_setFld_self _ _ _ (by decide)).trans (Nat.mod_eq_of_lt h)

theorem Chip.count_collided (c : Chip) (page off : Nat) :
    (c.collided page off).fld (pCollide page) 15 0 = satSucc (c.fld (pCollide page) 15 0) 0xFFFF := by
  rw [Chip.collided, Chip.fld_setFld_ne _ _ _ _ (.inr (.inr (by decide))), Chip.fld_setFld_self _ _ _ (by decide)]
  refine Nat.mod_eq_of_lt ?_
  unfold satSucc
  split <;> omega

theorem Chip.busWrite_collide (hp : populated page = true) (ht : page = 0x12 → c.lcs.tierS = true) :
    c.busWrite (pCollide page) 0x80000000 = (c.wake page).setReg (pCollide page) 0 := by
  obtain ⟨-, -, -, -, hd⟩ := regDesc_common page (mem_linePages hp)
  have hm : (c.wake page).writeMask (pCollide page / 4096) [⟨31, 31, .wo⟩, ⟨27, 16, .ro⟩, ⟨15, 0, .ro⟩] =
      mask 31 31 := by
    simp [Chip.writeMask, Chip.mayWrite]
  have hb : (0x80000000#32 &&& mask 31 31).getLsbD 31 = true := by decide
  refine (Chip.busWrite_common hd rfl ht (by decide) _).trans ?_
  simp only [Chip.writeCommon, Chip.preWrite_plain (c := c.wake page) (v := 0x80000000) hd rfl rfl (by decide), hm]
  exact if_pos hb

theorem collideClr_alone (ha : c.alive = true) (hp : populated page = true) (ht : page = 0x12 → c.lcs.tierS = true) :
    collideClr c page none = (c.wake page).setReg (pCollide page) 0 := by
  rw [collideClr, if_neg (by simp [ha, hp]), Chip.busWrite_collide hp ht]

theorem collideClr_collides (ha : c.alive = true) (hp : populated page = true) (ht : page = 0x12 → c.lcs.tierS = true)
    (off : Nat) : collideClr c page (some off) =
      ((c.wake page).setReg (pCollide page) 0).collided page (off % 4096) := by
  rw [collideClr, if_neg (by simp [ha, hp]), Chip.busWrite_collide hp ht]

theorem collideClr_completes (s : State) (ha : s.chip.alive = true) (hp : populated page = true)
    (ht : page = 0x12 → s.chip.lcs.tierS = true) :
    Completes (.collideClr page none) s (fun d =>
      d.reg (pCollide page) = 0 ∧ OnlyRegs [pCollide page] s.chip d ∧ Keeps [.regs, .pwr] s.chip d) ∧
    (∀ off < 4096, Completes (.collideClr page (some off)) s (fun d =>
      d.fld (pCollide page) 15 0 = 1 ∧ d.fld (pCollide page) 27 16 = off ∧
      OnlyRegs [pCollide page] s.chip d ∧ Keeps [.regs, .pwr] s.chip d)) := by
  have h0 : ((s.chip.wake page).setReg (pCollide page) 0).reg (pCollide page) = 0 := Chip.reg_setReg_self _ _ _
  have hk : OnlyRegs [pCollide page] s.chip ((s.chip.wake page).setReg (pCollide page) 0) :=
    OnlyRegs.setReg _ _ (.refl _ _) (by simp)
  have hq : Keeps [.regs, .pwr] s.chip ((s.chip.wake page).setReg (pCollide page) 0) :=
    ((Keeps.refl _ _).wake _ (by decide)).setReg _ _ (by decide)
  refine ⟨completes_eq rfl (collideClr_alone ha hp ht) ⟨h0, hk, hq⟩, fun off ho => ?_⟩
  refine completes_eq rfl (collideClr_collides ha hp ht off) ⟨?_, ?_, ?_, ?_⟩
  · refine (Chip.count_collided _ page _).trans ?_
    rw [Chip.fld, h0]
    rfl
  · exact (Chip.offset_collided _ page (Nat.mod_lt _ (by decide))).trans (Nat.mod_eq_of_lt ho)
  · exact hk.collided page _ (by simp)
  · exact hq.collided page _ (by decide)

/-! ### INT_ENABLE and INT_STATUS (R91) -/

/-- A write to a common register whose bits are all stored, or all cleared by 1. -/
theorem Chip.storeReg_word {a : Acc} {k off : Nat} {x : Word} (hd : regDesc k = some ⟨off, x, wordFields a⟩)
    (h : a = .rw ∨ a = .w1c) (hk : k % 4096 < 0x80) (v : Word) :
    c.storeReg k v = c.setReg k (if a = .rw then v else c.reg k &&& ~~~ v) := by
  have h3 : a = .rw ∨ a = .w1c ∨ a = .wo := h.imp_right .inl
  have hq := Chip.preWrite_word (c := c) hd h3 v
  have hm : c.merged (k / 4096) (wordFields a) (c.reg k) v = if a = .rw then v else c.reg k &&& ~~~ v := by
    simp only [Chip.merged, Chip.pickMask_word h3]
    rcases h with rfl | rfl <;> simp [Acc.stores, word_and_top]
  refine (Chip.storeReg_taken hd ?_ (Chip.rejects_common _ _ _ hk)).trans ?_
  · rw [Chip.pickMask_word h3]
    rcases h with rfl | rfl <;> decide
  · rw [hq, hm]
    exact Chip.noteOverride_plain (by rcases h with rfl | rfl <;> rfl)

theorem Chip.busWrite_intEnable (hp : populated page = true) (ht : page = 0x12 → c.lcs.tierS = true) (v : Word) :
    c.busWrite (pIntEnable page) v = (c.wake page).setReg (pIntEnable page) v := by
  obtain ⟨-, hd, -, -, -⟩ := regDesc_common page (mem_linePages hp)
  exact (Chip.busWrite_common hd rfl ht (by decide) v).trans
    (Chip.storeReg_word hd (by decide) (by simp only [pIntEnable]; omega) v)

theorem Chip.busWrite_intStatus (hp : populated page = true) (ht : page = 0x12 → c.lcs.tierS = true) (v : Word) :
    c.busWrite (pIntStatus page) v = (c.wake page).setReg (pIntStatus page) (c.reg (pIntStatus page) &&& ~~~ v) := by
  obtain ⟨hd, -, -, -, -⟩ := regDesc_common page (mem_linePages hp)
  exact (Chip.busWrite_common hd rfl ht (by decide) v).trans
    (Chip.storeReg_word hd (by decide) (by simp only [pIntStatus]; omega) v)

/-- A bit that hardware sets in the cycle of its clear stays 1, and the write collides (R101). -/
theorem Chip.busWriteWith_intStatus (hp : populated page = true) (ht : page = 0x12 → c.lcs.tierS = true)
    (v hw : Word) : c.busWriteWith (pIntStatus page) v hw 0 =
      if v &&& hw = 0 then (c.busWrite (pIntStatus page) v, false)
      else ((c.busWrite (pIntStatus page) v).setReg (pIntStatus page)
        ((c.reg (pIntStatus page) &&& ~~~ v) ||| (v &&& hw)), true) := by
  obtain ⟨hd, -, -, -, -⟩ := regDesc_common page (mem_linePages hp)
  have hne : pIntStatus page ≠ R.EVR_LW_STATUS := by simp only [pIntStatus, R.EVR_LW_STATUS]; omega
  have hr : (c.busWrite (pIntStatus page) v).reg (pIntStatus page) = c.reg (pIntStatus page) &&& ~~~ v := by
    rw [Chip.busWrite_intStatus hp ht, Chip.reg_setReg_self]
  have hpick (p : Acc → Bool) : c.pickMask (pIntStatus page / 4096) (wordFields .w1c) p =
      if p .w1c then BitVec.allOnes 32 else 0 := Chip.pickMask_word (.inr (.inl rfl)) p
  simp [Chip.busWriteWith, hd, hpick, Acc.stores, word_and_top, hne, hr]

theorem intEnableWrite_completes (s : State) (m : Master) (v : Word) (hp : populated page = true)
    (ht : page = 0x12 → s.chip.lcs.tierS = true) (hm : s.chip.mayReach m (0x40000000 + pIntEnable page) = true) :
    CompletesThen (.registerWrite m (0x40000000 + pIntEnable page) ⟨v, []⟩ 0 0) s (fun d =>
      d.reg (pIntEnable page) = v ∧ OnlyRegs [pIntEnable page] s.chip d ∧ Keeps [.regs, .pwr] s.chip d) :=
  completesThen_eq rfl ((registerWrite_quiet hm v).trans (Chip.busWrite_intEnable hp ht v))
    ⟨Chip.reg_setReg_self _ _ _, OnlyRegs.setReg _ _ (.refl _ _) (by simp),
      ((Keeps.refl _ _).wake _ (by decide)).setReg _ _ (by decide)⟩

/-- What a write to INT_STATUS leaves, whether it collides or not. -/
theorem Chip.intStatus_frame (c : Chip) (page : Nat) (hp : populated page = true)
    (ht : page = 0x12 → c.lcs.tierS = true) (v hw : Word) : let q := c.busWriteWith (pIntStatus page) v hw 0
      q.1.reg (pIntStatus page) = (c.reg (pIntStatus page) &&& ~~~ v) ||| (v &&& hw) ∧
      q.2 = decide (v &&& hw ≠ 0) ∧ OnlyRegs [pIntStatus page] c q.1 ∧ Keeps [.regs, .pwr] c q.1 := by
  have hw' : OnlyRegs [pIntStatus page] c (c.wake page) := .refl _ _
  have hk : Keeps [.regs, .pwr] c (c.wake page) := (Keeps.refl _ _).wake _ (by decide)
  rw [Chip.busWriteWith_intStatus hp ht, Chip.busWrite_intStatus hp ht]
  split
  · next h => exact ⟨by simp [h], by simp [h], hw'.setReg _ _ (by simp), hk.setReg _ _ (by decide)⟩
  · next h =>
    exact ⟨Chip.reg_setReg_self _ _ _, (decide_eq_true h).symm, (hw'.setReg _ _ (by simp)).setReg _ _ (by simp),
      (hk.setReg _ _ (by decide)).setReg _ _ (by decide)⟩

/-- One write to INT_STATUS that reaches it. -/
theorem registerWrite_intStatus {m : Master} (hp : populated page = true)
    (hm : c.mayReach m (0x40000000 + pIntStatus page) = true) (v hw : Word)
    (hc : (c.busWriteWith (pIntStatus page) v hw 0).2 = decide (v &&& hw ≠ 0)) :
    registerWrite c [⟨m, 0x40000000 + pIntStatus page, v, hw, 0⟩] =
      if v &&& hw = 0 then (c.busWriteWith (pIntStatus page) v hw 0).1
      else (c.busWriteWith (pIntStatus page) v hw 0).1.collided page 0x010 := by
  rw [registerWrite_single hm rfl, hc]
  by_cases h : v &&& hw = 0
  · simp [h, Chip.collisions_nil]
  · have hl : ∀ j ∈ [pIntStatus page], j / 4096 = page := by simp only [List.mem_singleton, pIntStatus]; omega
    have ho : pIntStatus page % 4096 = 0x010 := by simp only [pIntStatus]; omega
    rw [if_neg h, decide_eq_true h, if_pos rfl, Chip.collisions_page (mem_linePages hp) hl, ho]
    rfl

theorem pCollide_ne_pIntStatus (page : Nat) : pCollide page ∉ [pIntStatus page] := by
  simp [pCollide, pIntStatus]

theorem intStatusWrite_completes (s : State) (m : Master) (v hw : Word) (hp : populated page = true)
    (ht : page = 0x12 → s.chip.lcs.tierS = true) (hm : s.chip.mayReach m (0x40000000 + pIntStatus page) = true) :
    CompletesThen (.registerWrite m (0x40000000 + pIntStatus page) ⟨v, []⟩ hw 0) s (fun d =>
      d.reg (pIntStatus page) = (s.chip.reg (pIntStatus page) &&& ~~~ v) ||| (v &&& hw) ∧
      (v &&& hw = 0 → OnlyRegs [pIntStatus page] s.chip d) ∧
      (v &&& hw ≠ 0 →
        d.fld (pCollide page) 15 0 = satSucc (s.chip.fld (pCollide page) 15 0) 0xFFFF ∧
        d.fld (pCollide page) 27 16 = 0x010) ∧
      OnlyRegs [pIntStatus page, pCollide page] s.chip d ∧ Keeps [.regs, .pwr] s.chip d) := by
  obtain ⟨hr, hc, ho, hk⟩ := s.chip.intStatus_frame page hp ht v hw
  have hmono : ∀ k ∈ [pIntStatus page], k ∈ [pIntStatus page, pCollide page] := by simp
  refine completesThen_eq rfl (registerWrite_intStatus hp hm v hw hc) ?_
  by_cases h : v &&& hw = 0
  · rw [if_pos h]
    exact ⟨hr, fun _ => ho, fun hn => absurd h hn, ho.mono hmono, hk⟩
  · have hne : pIntStatus page ∉ [pCollide page] := by simp [pCollide, pIntStatus]
    have hself : OnlyRegs [pCollide page] (s.chip.busWriteWith (pIntStatus page) v hw 0).1
      ((s.chip.busWriteWith (pIntStatus page) v hw 0).1.collided page 0x010) :=
      (OnlyRegs.refl _ _).collided _ _ (by simp)
    rw [if_neg h]
    refine ⟨(hself _ hne).trans hr, fun h0 => absurd h0 h, fun _ => ⟨?_, ?_⟩, ?_, ?_⟩
    · rw [Chip.count_collided, Chip.fld_of_reg s.chip (ho _ (pCollide_ne_pIntStatus page))]
    · exact Chip.offset_collided _ _ (by decide)
    · exact (ho.mono hmono).collided _ _ (by simp)
    · exact hk.collided _ _ (by decide)

/-! ### A second master's write to FAULT in the same cycle (R101) -/

/-- The registers that decide whether an access is carried out are no page's INT_STATUS. -/
theorem Chip.mayReach_congr (hk : Keeps [.regs, .pwr] c d) (hr : OnlyRegs [pIntStatus page] c d) (m : Master)
    (a : Nat) : d.mayReach m a = c.mayReach m a := by
  have hstep : d.reg R.SYS_BOOT_STEP = c.reg R.SYS_BOOT_STEP :=
    hr _ (by simp only [List.mem_singleton, R.SYS_BOOT_STEP, pIntStatus]; omega)
  have hrel : d.reg R.CPU_RELEASE = c.reg R.CPU_RELEASE :=
    hr _ (by simp only [List.mem_singleton, R.CPU_RELEASE, pIntStatus]; omega)
  have hcarve : d.reg R.CPU_L2_CARVE = c.reg R.CPU_L2_CARVE :=
    hr _ (by simp only [List.mem_singleton, R.CPU_L2_CARVE, pIntStatus]; omega)
  have ha : d.alive = c.alive := by
    rw [Chip.alive, Chip.alive, Chip.parked, Chip.parked, hk.dtm (by decide), hk.sys (by decide)]
  have hj : d.jtagOpen = c.jtagOpen := by
    simp only [Chip.jtagOpen, Chip.effective, hk.lcs (by decide)]
  have hc (n : Nat) : d.coreRuns n = c.coreRuns n := by
    rw [Chip.coreRuns, Chip.coreRuns, ha, Chip.bootStep, Chip.bootStep, hstep, Chip.bit, Chip.bit, hrel,
      hk.sys (by decide), hk.cpu (by decide)]
  have hb : d.carveBytes = c.carveBytes := by
    simp only [Chip.carveBytes, Chip.carvedWays, Chip.fld, hcarve]
  simp only [Chip.mayReach, hj, hc, ha, hb, hk.cpu (by decide), hk.mem (by decide)]

/-- A write to FAULT, whatever hardware sets in its cycle, changes FAULT and INT_STATUS of the page alone. -/
theorem Chip.fault_frame (c : Chip) (page : Nat) (hp : populated page = true) (ht : page = 0x12 → c.lcs.tierS = true)
    (v hw : Word) : let q := c.busWriteWith (pFault page) v hw 0
      OnlyRegs [pFault page, pIntStatus page] c q.1 ∧ Keeps [.regs, .pwr] c q.1 := by
  obtain ⟨-, -, -, hd, -⟩ := regDesc_common page (mem_linePages hp)
  have hpage : pFault page / 4096 = page := by simp only [pFault]; omega
  have hne : pFault page ≠ R.EVR_LW_STATUS := by simp only [pFault, R.EVR_LW_STATUS]; omega
  have hb : c.busWrite (pFault page) v = (c.wake page).writeFault page v :=
    Chip.busWrite_common hd rfl ht (by decide) v
  have hw' : OnlyRegs [pFault page, pIntStatus page] c (c.wake page) := .refl _ _
  have hk : Keeps [.regs, .pwr] c (c.wake page) := (Keeps.refl _ _).wake _ (by decide)
  have ho : OnlyRegs [pFault page, pIntStatus page] c (c.busWrite (pFault page) v) := by
    rw [hb]
    exact (hw'.setReg _ _ (by simp)).preWrite _ _ (by simp [hpage]) (by simp [hpage])
  have hq : Keeps [.regs, .pwr] c (c.busWrite (pFault page) v) := by
    rw [hb]
    exact (hk.setReg _ _ (by decide)).preWrite _ _ (by decide) (by decide)
  simp only [Chip.busWriteWith, hd, if_neg hne]
  split
  · exact ⟨ho, hq⟩
  · exact ⟨ho.setReg _ _ (by simp), hq.setReg _ _ (by decide)⟩

/-- Both writes of the cycle: the page counts one collision, at INT_STATUS, the lower offset. -/
theorem registerWrite_intStatus_fault {m m2 : Master} {v hw v2 hw2 : Word} {q q2 : Chip × Bool}
    (hp : populated page = true) (hm : c.mayReach m (0x40000000 + pIntStatus page) = true)
    (hq : c.busWriteWith (pIntStatus page) v hw 0 = q)
    (hc : q.2 = true) (hm2 : q.1.mayReach m2 (0x40000000 + pFault page) = true)
    (hq2 : q.1.busWriteWith (pFault page) v2 hw2 0 = q2) :
    registerWrite c [⟨m, 0x40000000 + pIntStatus page, v, hw, 0⟩, ⟨m2, 0x40000000 + pFault page, v2, hw2, 0⟩] =
      q2.1.collided page 0x010 := by
  have hk (k : Nat) : regKey (0x40000000 + k) = k := Nat.add_sub_cancel_left _ _
  have ho : pIntStatus page % 4096 = 0x010 := by simp only [pIntStatus]; omega
  have ho2 : pFault page % 4096 = 0x020 := by simp only [pFault]; omega
  have hl : ∀ j ∈ pIntStatus page :: (if q2.2 then [pFault page] else []), j / 4096 = page := by
    have h1 : pIntStatus page / 4096 = page := by simp only [pIntStatus]; omega
    have h2 : pFault page / 4096 = page := by simp only [pFault]; omega
    cases q2.2 <;> simp [h1, h2]
  have hmin : ((if q2.2 then [pFault page] else []).map (· % 4096)).foldl min (pIntStatus page % 4096) = 0x010 := by
    cases q2.2 <;> simp [ho, ho2]
  simp only [registerWrite, List.foldl_cons, List.foldl_nil, Chip.cycleWrite, hm, if_true, hk, hq, hc, hm2, hq2,
    List.nil_append, List.singleton_append, Chip.collisions_page (mem_linePages hp) hl, hmin]

theorem intStatusAndFaultWrite_completes (s : State) (m m2 : Master) (v hw v2 hw2 : Word) (hp : populated page = true)
    (ht : page = 0x12 → s.chip.lcs.tierS = true) (hm : s.chip.mayReach m (0x40000000 + pIntStatus page) = true)
    (hm2 : s.chip.mayReach m2 (0x40000000 + pFault page) = true) (hv : v &&& hw ≠ 0) :
    CompletesThen (.registerWrite m (0x40000000 + pIntStatus page)
        ⟨v, [⟨m2, 0x40000000 + pFault page, v2, hw2, 0⟩]⟩ hw 0) s (fun d =>
        d.fld (pCollide page) 15 0 = satSucc (s.chip.fld (pCollide page) 15 0) 0xFFFF ∧
        d.fld (pCollide page) 27 16 = 0x010 ∧
        OnlyRegs [pIntStatus page, pFault page, pCollide page] s.chip d ∧ Keeps [.regs, .pwr] s.chip d) := by
  obtain ⟨-, hc, ho, hk⟩ := s.chip.intStatus_frame page hp ht v hw
  generalize hq : s.chip.busWriteWith (pIntStatus page) v hw 0 = q at hc ho hk
  have ht' : page = 0x12 → q.1.lcs.tierS = true := by rw [hk.lcs (by decide)]; exact ht
  obtain ⟨ho2, hk2⟩ := q.1.fault_frame page hp ht' v2 hw2
  have hr : OnlyRegs [pIntStatus page, pFault page] s.chip (q.1.busWriteWith (pFault page) v2 hw2 0).1 :=
    (ho.mono (by simp)).trans (ho2.mono (by simp))
  refine completesThen_eq rfl (registerWrite_intStatus_fault hp hm hq (hc.trans (decide_eq_true hv))
    ((Chip.mayReach_congr hk ho m2 _).trans hm2) rfl) ⟨?_, ?_, ?_, ?_⟩
  · rw [Chip.count_collided, Chip.fld_of_reg s.chip (hr _ (by simp [pCollide, pIntStatus, pFault]))]
  · exact Chip.offset_collided _ _ (by decide)
  · exact (hr.mono (by simp)).collided _ _ (by simp)
  · exact (hk.trans hk2).collided _ _ (by decide)

/-- Settles O21: each clause is what one write to a common register does, in its cycle. -/
theorem commonRegistersOfEveryPage : Obligations.CommonRegistersOfEveryPage :=
  ⟨fun s _ v ha hp ht => ⟨intSet_completes s v ha hp ht, collideClr_completes s ha hp ht⟩,
    fun s m _ v hw hp ht => ⟨fun hm => intEnableWrite_completes s m v hp ht hm,
      fun hm => ⟨intStatusWrite_completes s m v hw hp ht hm,
        fun m2 v2 hw2 hm2 hv => intStatusAndFaultWrite_completes s m m2 v hw v2 hw2 hp ht hm hm2 hv⟩⟩⟩

end Sys2Proof.Machine
end

section
/-! ## A register write takes the fields it may change (R85, R86, R91, R93, R94, R100, O20) -/

namespace Sys2Proof.Machine

open Sys2Proof

variable {c d : Chip} {page off i k : Nat} {r : RegDesc}

/-! ### The bits that a choice of fields picks -/

theorem Chip.getLsbD_writeMask (c : Chip) (page : Nat) (fs : List Field) (i : Nat) :
    (c.writeMask page fs).getLsbD i = fs.any (fun f => c.mayWrite page f && (mask f.hi f.lo).getLsbD i) := by
  have hacc : ∀ m : Word, (fs.foldl (fun m f => if c.mayWrite page f then m ||| mask f.hi f.lo else m) m).getLsbD i =
      (m.getLsbD i || fs.any (fun f => c.mayWrite page f && (mask f.hi f.lo).getLsbD i)) := by
    induction fs with
    | nil => simp
    | cons f fs ih =>
      intro m
      rw [List.foldl_cons, ih, List.any_cons]
      by_cases hf : c.mayWrite page f
      · simp [hf, BitVec.getLsbD_or, Bool.or_assoc]
      · simp [hf]
  rw [Chip.writeMask, hacc, word_zero_bit, Bool.false_or]

/-- Where a choice of fields picks no bit, a narrower one picks none. -/
theorem Chip.pickMask_zero_of_imp {fs : List Field} {p q : Acc → Bool} (hpq : ∀ a, p a = true → q a = true)
    (hq : c.pickMask page fs q = 0) : c.pickMask page fs p = 0 := by
  refine BitVec.eq_of_getLsbD_eq fun i _ => ?_
  have h := congrArg (fun w : Word => w.getLsbD i) hq
  simp only [Chip.pickMask, Chip.getLsbD_writeMask, word_zero_bit, List.any_eq_false, List.mem_filter] at h ⊢
  exact fun f hf => h f ⟨hf.1, hpq _ hf.2⟩

theorem Chip.merged_nothing {fs : List Field} (h : c.pickMask page fs (fun a => a.stores || a == .w1c) = 0)
    (old v : Word) : c.merged page fs old v = old := by
  have hs : c.pickMask page fs Acc.stores = 0 := Chip.pickMask_zero_of_imp (fun a ha => by simp [ha]) h
  have hw : c.pickMask page fs (· == .w1c) = 0 := Chip.pickMask_zero_of_imp (fun a ha => by simp [ha]) h
  simp [Chip.merged, hs, hw, word_and_top]

/-! ### The FAULT bit of a value that is not taken -/

theorem firstBad_lt {l : List (Bool × Nat)} {b n : Nat} (hl : ∀ x ∈ l, x.2 < n) (h : firstBad l = some b) :
    b < n := by
  induction l with
  | nil => exact nomatch h
  | cons x l ih =>
    unfold firstBad at h
    split at h
    · exact Option.some.inj h ▸ hl x List.mem_cons_self
    · exact ih (fun y hy => hl y (List.mem_cons_of_mem _ hy)) h

theorem rejectCtl_lt {v : Word} {b : Nat} (h : rejectCtl page off v = some b) : b < 20 := by
  unfold rejectCtl at h
  split at h
  case h_9 => exact nomatch h
  all_goals exact firstBad_lt (by simp) h

theorem Chip.rejectFlow_lt {v : Word} {b : Nat} (h : c.rejectFlow page off v = some b) : b < 20 := by
  unfold Chip.rejectFlow at h
  dsimp only at h
  split at h
  case h_11 => exact nomatch h
  all_goals exact firstBad_lt (by simp) h

theorem Chip.rejectChannel_lt {v : Word} {b : Nat} (h : c.rejectChannel page off v = some b) : b < 20 := by
  unfold Chip.rejectChannel at h
  dsimp only at h
  split at h
  case h_21 => exact nomatch h
  all_goals exact firstBad_lt (by simp) h

theorem rejectCle_lt {v : Word} {b : Nat} (h : rejectCle off v = some b) : b < 20 := by
  unfold rejectCle at h
  split at h
  case h_9 => exact nomatch h
  all_goals exact firstBad_lt (by simp) h

theorem Chip.rejectChd_lt {v : Word} {b : Nat} (h : c.rejectChd off v = some b) : b < 20 := by
  unfold Chip.rejectChd at h
  split at h
  case h_4 =>
    split at h
    · exact firstBad_lt (by simp) h
    split at h
    · exact firstBad_lt (by simp) h
    · exact nomatch h
  all_goals exact firstBad_lt (by simp) h

theorem rejectRest_lt {v : Word} {b : Nat} (h : rejectRest page off v = some b) : b < 20 := by
  unfold rejectRest at h
  split at h
  case h_10 => exact nomatch h
  all_goals exact firstBad_lt (by simp) h

/-- The FAULT bit of a rule lies below the offset that FAULT holds. -/
theorem Chip.rejects_lt {v : Word} {b : Nat} (h : c.rejects page off v = some b) : b < 20 := by
  unfold Chip.rejects at h
  split at h
  · exact firstBad_lt (by simp) h
  split at h
  · exact rejectCtl_lt h
  split at h
  · exact Chip.rejectFlow_lt h
  split at h
  · exact rejectCle_lt h
  split at h
  · exact Chip.rejectChannel_lt h
  split at h
  · exact Chip.rejectChd_lt h
  · exact rejectRest_lt h

/-! ### What FAULT reports (R93, R94) -/

/-- A FAULT bit of a page is set, with the offset of a write. -/
def Chip.Reported (c : Chip) (page i off : Nat) : Prop :=
  c.bit (pFault page) i = true ∧ c.fld (pFault page) 31 20 = off

theorem Chip.Reported.of_reg (h : c.Reported page i off) (hr : d.reg (pFault page) = c.reg (pFault page)) :
    d.Reported page i off := ⟨(Chip.bit_of_reg c hr i).trans h.1, (Chip.fld_of_reg c hr 31 20).trans h.2⟩

theorem Chip.reg_fault_or (c : Chip) (page i : Nat) : (c.fault page i).reg (pFault page) = c.reg (pFault page) ∨
    (c.fault page i).reg (pFault page) = c.reg (pFault page) ||| bitW i := by
  unfold Chip.fault
  split
  · exact .inl rfl
  · rw [Chip.reg_raise_ne _ (by simp [pFault, pIntStatus]), Chip.reg_setBit]
    exact .inr (by simp)

/-- Another FAULT bit leaves what is reported. -/
theorem Chip.Reported.fault (h : c.Reported page i off) {b : Nat} (hb : b < 20) :
    (c.fault page b).Reported page i off := by
  rcases c.reg_fault_or page b with hr | hr
  · exact h.of_reg hr
  · refine ⟨?_, ?_⟩
    · rw [Chip.bit, hr, BitVec.getLsbD_or, ← Chip.bit, h.1, Bool.true_or]
    · rw [Chip.fld, hr, field_or_bitW _ (.inl hb), ← Chip.fld, h.2]

theorem Chip.reported_ignored (c : Chip) (page : Nat) (hi : i < 20) (ho : off < 4096) :
    (c.ignored page i off).Reported page i off := ⟨Chip.bit_ignored _ _ _ hi, Chip.fld_ignored _ _ _ ho⟩

theorem Chip.Reported.ignored (h : c.Reported page i off) (hi : i < 20) {b : Nat} (hb : b < 20) (ho : off < 4096) :
    (c.ignored page b off).Reported page i off := by
  refine ⟨?_, Chip.fld_ignored _ _ _ ho⟩
  rw [Chip.ignored, Chip.bit_setFld _ _ _ _ _ (by decide), if_neg (by omega)]
  exact (h.fault hb).1

/-- A report where a condition holds. -/
def Chip.ignoredIf (c : Chip) (b : Bool) (page i off : Nat) : Chip := if b then c.ignored page i off else c

theorem Chip.reported_ignoredIf (c : Chip) (page : Nat) {b : Bool} (hb : b = true) (hi : i < 20) (ho : off < 4096) :
    (c.ignoredIf b page i off).Reported page i off := by
  rw [Chip.ignoredIf, if_pos hb]
  exact c.reported_ignored page hi ho

theorem Chip.Reported.ignoredIf (h : c.Reported page i off) (hi : i < 20) {j : Nat} (hj : j < 20) (ho : off < 4096)
    (b : Bool) : (c.ignoredIf b page j off).Reported page i off := by
  unfold Chip.ignoredIf
  split
  · exact h.ignored hi hj ho
  · exact h

/-- The three reports that a write makes first, in their order. -/
theorem Chip.preWrite_reports (hd : regDesc k = some r) (hr : r.readOnly = false) (v : Word) :
    (c.preWrite k v).1 = ((c.ignoredIf
      (r.fields.any (fun f => f.acc == .rwx) && !c.bit (pCtrl (k / 4096)) 31) (k / 4096) 0 (k % 4096)).ignoredIf
      (r.fields.any (fun f => f.acc == .rwd || f.acc == .w1sd) && !c.diagOpen) (k / 4096) 1 (k % 4096)).ignoredIf
      ((v &&& ~~~ definedMask r.fields) != 0) (k / 4096) 2 (k % 4096) := by
  simp only [Chip.preWrite, hd, hr, Bool.false_eq_true, if_false, Chip.ignoredIf]

theorem Chip.preWrite_expert (hd : regDesc k = some r) (hr : r.readOnly = false) (v : Word)
    (hf : ∃ f ∈ r.fields, f.acc = .rwx) (hx : c.bit (pCtrl (k / 4096)) 31 = false) :
    (c.preWrite k v).1.Reported (k / 4096) 0 (k % 4096) := by
  have ho : k % 4096 < 4096 := Nat.mod_lt _ (by decide)
  have hany : r.fields.any (fun f => f.acc == .rwx) = true := by simpa using hf
  rw [Chip.preWrite_reports hd hr]
  have hb : (r.fields.any (fun f => f.acc == .rwx) && !c.bit (pCtrl (k / 4096)) 31) = true := by rw [hany, hx]; rfl
  have h0 := c.reported_ignoredIf (k / 4096) hb (show 0 < 20 by decide) ho
  exact (h0.ignoredIf (by decide) (by decide) ho _).ignoredIf (by decide) (by decide) ho _

theorem Chip.preWrite_diag (hd : regDesc k = some r) (hr : r.readOnly = false) (v : Word)
    (hf : ∃ f ∈ r.fields, f.acc = .rwd) (hx : c.diagOpen = false) :
    (c.preWrite k v).1.Reported (k / 4096) 1 (k % 4096) := by
  have ho : k % 4096 < 4096 := Nat.mod_lt _ (by decide)
  have hany : r.fields.any (fun f => f.acc == .rwd || f.acc == .w1sd) = true := by
    obtain ⟨f, hm, ha⟩ := hf
    exact List.any_eq_true.2 ⟨f, hm, by simp [ha]⟩
  rw [Chip.preWrite_reports hd hr]
  exact (Chip.reported_ignoredIf _ _ (by rw [hany, hx]; rfl) (by decide) ho).ignoredIf (by decide) (by decide) ho _

theorem Chip.preWrite_reserved (hd : regDesc k = some r) (hr : r.readOnly = false) {v : Word}
    (hv : v &&& ~~~ definedMask r.fields ≠ 0) : (c.preWrite k v).1.Reported (k / 4096) 2 (k % 4096) := by
  rw [Chip.preWrite_reports hd hr]
  exact Chip.reported_ignoredIf _ _ (bne_iff_ne.2 hv) (by decide) (Nat.mod_lt _ (by decide))

/-! ### A register held as a word -/

/-- The three ends of a write to a register held as a word: no field that it may change, a value that is not taken,
and the store. -/
theorem Chip.storeReg_ends (hd : regDesc k = some r) (v : Word) {e : Chip} (he : (c.preWrite k v).1 = e) {new : Word}
    (hn : e.merged (k / 4096) r.fields (c.reg k) v = new) :
    (e.pickMask (k / 4096) r.fields (fun a => a.stores || a == .w1c) = 0 ∧ c.storeReg k v = e) ∨
    (e.pickMask (k / 4096) r.fields (fun a => a.stores || a == .w1c) ≠ 0 ∧
      ∃ b, e.rejects (k / 4096) (k % 4096) new = some b ∧ c.storeReg k v = e.fault (k / 4096) b) ∨
    (e.rejects (k / 4096) (k % 4096) new = none ∧ c.storeReg k v = (e.setReg k new).noteOverride k r.fields) := by
  subst he hn
  by_cases hm : (c.preWrite k v).1.pickMask (k / 4096) r.fields (fun a => a.stores || a == .w1c) = 0
  · exact .inl ⟨hm, by simp only [Chip.storeReg, Chip.writeEntry, hd, if_pos hm]⟩
  · refine .inr ?_
    cases hj : (c.preWrite k v).1.rejects (k / 4096) (k % 4096)
      ((c.preWrite k v).1.merged (k / 4096) r.fields (c.reg k) v) with
    | some b => exact .inl ⟨hm, b, rfl, by simp only [Chip.storeReg, Chip.writeEntry, hd, if_neg hm, hj]⟩
    | none => exact .inr ⟨rfl, Chip.storeReg_taken hd hm hj⟩

theorem Chip.noteOverride_frame (c : Chip) (k : Nat) (fs : List Field) :
    Keeps [.overrides] c (c.noteOverride k fs) ∧ ∀ j, (c.noteOverride k fs).reg j = c.reg j := by
  have hk : Keeps [.overrides] c (c.noteOverride k fs) :=
    .ite (fun _ => (Keeps.refl _ c).withOverrides _ (by decide)) fun _ => .refl _ _
  exact ⟨hk, hk.reg (by decide)⟩

/-- The registers and the parts that a write to a register held as a word may change. -/
theorem Chip.storeReg_frame (hd : regDesc k = some r) (v : Word) :
    OnlyRegs [k, pFault (k / 4096), pIntStatus (k / 4096)] c (c.storeReg k v) ∧
    Keeps [.regs, .overrides, .pwr] c (c.storeReg k v) := by
  have ho : OnlyRegs [k, pFault (k / 4096), pIntStatus (k / 4096)] c (c.preWrite k v).1 :=
    (OnlyRegs.refl _ _).preWrite _ _ (by simp) (by simp)
  have hk : Keeps [.regs, .overrides, .pwr] c (c.preWrite k v).1 :=
    (Keeps.refl _ _).preWrite _ _ (by decide) (by decide)
  rcases c.storeReg_ends hd v rfl rfl with ⟨-, he⟩ | ⟨-, b, -, he⟩ | ⟨-, he⟩
  · rw [he]; exact ⟨ho, hk⟩
  · rw [he]; exact ⟨ho.fault _ _ (by simp) (by simp), hk.fault _ _ (by decide) (by decide)⟩
  · obtain ⟨hn, hj⟩ := Chip.noteOverride_frame ((c.preWrite k v).1.setReg k
      ((c.preWrite k v).1.merged (k / 4096) r.fields (c.reg k) v)) k r.fields
    rw [he]
    exact ⟨fun j hm => (hj j).trans (ho.setReg _ _ (by simp) j hm),
      (hk.setReg _ _ (by decide)).trans (hn.mono (by decide))⟩

/-- What a write reports first stays reported. -/
theorem Chip.Reported.storeReg (hd : regDesc k = some r) {v : Word} (h : (c.preWrite k v).1.Reported (k / 4096) i off)
    (hk : pFault (k / 4096) ≠ k) : (c.storeReg k v).Reported (k / 4096) i off := by
  rcases c.storeReg_ends hd v rfl rfl with ⟨-, he⟩ | ⟨-, b, hb, he⟩ | ⟨-, he⟩
  · rw [he]; exact h
  · rw [he]; exact h.fault (Chip.rejects_lt hb)
  · rw [he]; exact h.of_reg (((Chip.noteOverride_frame _ _ _).2 _).trans (Chip.reg_setReg_ne _ _ hk))

/-- What comes first with a write leaves which bits the write may change. -/
theorem Chip.pickMask_preWrite (c : Chip) (k : Nat) (v : Word) (fs : List Field) (p : Acc → Bool) :
    (c.preWrite k v).1.pickMask (k / 4096) fs p = c.pickMask (k / 4096) fs p := by
  have ho : OnlyRegs [pFault (k / 4096), pIntStatus (k / 4096)] c (c.preWrite k v).1 :=
    (OnlyRegs.refl _ _).preWrite _ _ (by simp) (by simp)
  have hk : Keeps [.regs, .pwr] c (c.preWrite k v).1 := (Keeps.refl _ _).preWrite _ _ (by decide) (by decide)
  exact Chip.pickMask_congr (Chip.bit_of_reg c (ho _ (by simp [pCtrl, pFault, pIntStatus])) 31) (hk.lcs (by decide))
    fs p

/-! ### Pages without actions of their own -/

/-- HIF, NVQ, SV, SNS, DDR, NFC and OSP. -/
def plainPages : List Nat := [0x10, 0x11, 0x22, 0x2A, 0x3A, 0x40, 0x48, 0x49]

theorem plainPages_cases : ∀ page ∈ plainPages, page = 0x10 ∨ page = 0x11 ∨ page = 0x22 ∨ page = 0x2A ∨
    page = 0x3A ∨ page = 0x40 ∨ page = 0x48 ∨ page = 0x49 := by decide

theorem plainPages_profile : ∀ page ∈ plainPages, profilePage page ≠ 0x24 ∧ page ≠ 0x12 := by decide

theorem Chip.writeOwn_plain (hp : page ∈ plainPages) (hf : profileOff page ≠ some (k % 4096)) (ho : k % 4096 ≠ 0x604)
    (v : Word) : c.writeOwn page k v = c.writeCtl k v := by
  unfold Chip.writeOwn
  rw [if_neg hf, if_neg ho]
  rcases plainPages_cases page hp with rfl | rfl | rfl | rfl | rfl | rfl | rfl | rfl <;> rfl

theorem Chip.bit_preWrite_clear {v : Word} {b : Nat} (hv : v.getLsbD b = false) :
    (c.preWrite k v).2.getLsbD b = false := by
  unfold Chip.preWrite
  split
  · exact word_zero_bit b
  · dsimp only
    split
    · exact word_zero_bit b
    · simp only [BitVec.getLsbD_and, hv, Bool.false_and]

theorem Chip.storeGo_clear {v : Word} {b : Nat} (hv : v.getLsbD b = false) (f : Chip → Chip) :
    c.storeGo k v b f = c.storeReg k v := by
  simp only [Chip.storeGo, Chip.bit_preWrite_clear hv, Bool.false_eq_true, if_false]

/-- A write that starts no operation of OSP or NFC stores. -/
theorem Chip.writeCtl_plain {v : Word} (hp : k / 4096 ∈ plainPages) (hosp : k = R.OSP_CMD → v.getLsbD 31 = false)
    (hnfc : k = R.NFC_RD_CTRL → v.getLsbD 0 = false) : c.writeCtl k v = c.storeReg k v := by
  have hne {x : Nat} (hx : x / 4096 ∉ plainPages) : k ≠ x := fun h => hx (h ▸ hp)
  unfold Chip.writeCtl
  rw [if_neg (hne (by decide)), if_neg (hne (by decide)), if_neg (hne (by decide)), if_neg (hne (by decide)),
    if_neg (hne (by decide)), if_neg (hne (by decide))]
  split
  · exact Chip.storeGo_clear (hosp ‹_›) _
  split
  · exact Chip.storeGo_clear (hnfc ‹_›) _
  · rfl

theorem Chip.busWrite_plain {v : Word} (hd : regDesc k = some r) (hr : r.readOnly = false)
    (hp : k / 4096 ∈ plainPages) (hge : 0x80 ≤ k % 4096) (ho : k % 4096 ≠ 0x604)
    (hosp : k = R.OSP_CMD → v.getLsbD 31 = false)
    (hnfc : k = R.NFC_RD_CTRL → v.getLsbD 0 = false) (hf : profileOff (k / 4096) ≠ some (k % 4096)) :
    c.busWrite k v = (c.wake (k / 4096)).storeReg k v := by
  obtain ⟨hcle, hseg⟩ := plainPages_profile _ hp
  have hs : c.segDead k = false := by simp [Chip.segDead, hseg]
  rw [Chip.busWrite_reaches hd hr hs (.inl hcle) ho, if_neg (by omega), Chip.writeOwn_plain hp hf ho,
    Chip.writeCtl_plain hp hosp hnfc]

theorem registerWrite_nothing {s : State} {m : Master} {v : Word} (hm : s.chip.mayReach m (0x40000000 + k) = true)
    (h : regDesc k = none ∨ ∃ r, regDesc k = some r ∧ r.readOnly = true) :
    CompletesThen (.registerWrite m (0x40000000 + k) ⟨v, []⟩ 0 0) s (fun d => Keeps [.pwr] s.chip d) :=
  completesThen_eq rfl ((registerWrite_quiet hm v).trans (Chip.busWrite_nothing h v))
    ((Keeps.refl _ _).wake _ (by decide))

/-- Settles O20: such a write ends in one of the three ends of `Chip.storeReg`. -/
theorem registerWriteTakesTheFieldsItMayChange : Obligations.RegisterWriteTakesTheFieldsItMayChange := by
  refine ⟨fun s m k v r hm hd hr hp hge ho hosp hnfc hf => ?_, fun s m k v hm h => registerWrite_nothing hm h⟩
  intro page c stored cleared new
  have hfk : pFault page ≠ k := by simp only [page, pFault]; omega
  have hik : pIntStatus page ≠ k := by simp only [page, pIntStatus]; omega
  have hq : OnlyRegs [pFault page, pIntStatus page] s.chip c :=
    OnlyRegs.preWrite (c := s.chip) (d := s.chip.wake page) (.refl _ _) _ _ (by simp [page]) (by simp [page])
  have hck : c.reg k = s.chip.reg k := hq k (by simp [hfk.symm, hik.symm])
  have hpick (p : Acc → Bool) : c.pickMask page r.fields p = s.chip.pickMask page r.fields p :=
    (s.chip.wake page).pickMask_preWrite k v r.fields p
  have hnew : c.merged page r.fields ((s.chip.wake page).reg k) v = new := by
    simp only [Chip.merged, hpick]
    rfl
  have hends := (s.chip.wake page).storeReg_ends hd v rfl hnew
  obtain ⟨hregs, hparts⟩ := (s.chip.wake page).storeReg_frame hd v
  refine completesThen_eq rfl ((registerWrite_quiet hm v).trans (Chip.busWrite_plain hd hr hp hge ho hosp hnfc hf))
    ⟨fun hn => ?_, fun b hb hj hz => ?_, fun hv => ?_, fun hx he => ?_, fun hx he => ?_, hregs, ?_⟩
  · rcases hends with ⟨hz, he⟩ | ⟨-, b, hj, -⟩ | ⟨-, he⟩
    · rw [he, ← hnew, Chip.merged_nothing hz]
      exact hck
    · exact nomatch hn.symm.trans hj
    · rw [he, (Chip.noteOverride_frame _ _ _).2, Chip.reg_setReg_self]
  · rcases hends with ⟨hz', -⟩ | ⟨-, b', hj', he⟩ | ⟨hn, -⟩
    · exact absurd ((hpick _).symm.trans hz') hz
    · obtain rfl := Option.some.inj (hj.symm.trans hj')
      rw [he]
      exact ⟨(Chip.reg_fault _ _ _ _ hfk.symm hik.symm).trans hck, Chip.bit_fault _ _ _ hb⟩
    · exact nomatch hn.symm.trans hj
  · exact Chip.Reported.storeReg hd (Chip.preWrite_reserved hd hr hv) hfk
  · exact Chip.Reported.storeReg hd (Chip.preWrite_expert hd hr v hx he) hfk
  · exact Chip.Reported.storeReg hd (Chip.preWrite_diag hd hr v hx he) hfk
  · exact ((Keeps.refl _ _).wake _ (by decide)).trans hparts

end Sys2Proof.Machine
end

section
/-! ## Every command answers a next state (R94, R122, O3) -/

namespace Sys2Proof.Machine

open Sys2Proof

/-- Settles O3: each of the commands' meanings is a next state of a chip. -/
theorem everyCommandEndsInANextState : Obligations.EveryCommandEndsInANextState := fun i s =>
  let ⟨_, h⟩ := exec_eq_next i s
  completes_next h trivial

end Sys2Proof.Machine
end

section
/-! ## Completions: what posting one changes, and in what order (R111, R120, R123, R137, O24) -/

namespace Sys2Proof.Machine

open Sys2Proof

variable {c d e : Chip}

/-! ### The controllers of the host queues -/

@[simp] theorem Nvq.setCntl_cntl (n : Nvq) (i : Nat) : n.setCntl i (n.cntl i) = n := by
  unfold Nvq.setCntl Nvq.cntl
  split <;> rfl

theorem Nvq.cntl_setCntl (n : Nvq) (i j : Nat) (x : Cntl) :
    (n.setCntl i x).cntl j = if i = 0 ↔ j = 0 then x else n.cntl j := by
  unfold Nvq.setCntl Nvq.cntl
  by_cases hi : i = 0 <;> by_cases hj : j = 0 <;> simp [hi, hj]

/-! ### Interrupts -/

/-- Of a controller only what an interrupt leaves behind differs: pending bits and what coalescing gathered. -/
def Cntl.Signalled (x y : Cntl) : Prop := y = { x with pba := y.pba, gathered := y.gathered, since := y.since }

/-- A message of a controller's vector. -/
def Out.IsMsix (i : Nat) (o : Out) : Prop := ∃ v a w, o = .msix i v a w

/-- At most one interrupt message of controller `i` leaves, and of the chip only that controller's interrupt state
differs. -/
def Signalled (i : Nat) (c d : Chip) : Prop :=
  ∃ (y : Cntl) (ms : List Out), d = { c with nvq := c.nvq.setCntl i y, out := c.out ++ ms } ∧
    (c.nvq.cntl i).Signalled y ∧ (ms = [] ∨ ∃ o, ms = [o] ∧ o.IsMsix i)

theorem Signalled.refl (i : Nat) (c : Chip) : Signalled i c c :=
  ⟨c.nvq.cntl i, [], by simp, rfl, .inl rfl⟩

theorem Signalled.mapCntl (i : Nat) (c : Chip) (f : Cntl → Cntl) (hf : (c.nvq.cntl i).Signalled (f (c.nvq.cntl i))) :
    Signalled i c (c.mapCntl i f) :=
  ⟨_, [], by simp [Chip.mapCntl], hf, .inl rfl⟩

theorem signalled_signal (i v : Nat) (c : Chip) : Signalled i c (c.signal i v) := by
  unfold Chip.signal
  dsimp only
  split
  · exact .mapCntl i c _ rfl
  · exact ⟨c.nvq.cntl i, _, by rw [Nvq.setCntl_cntl], rfl, .inr ⟨_, rfl, _, _, _, rfl⟩⟩

theorem Nvq.setCntl_setCntl (n : Nvq) (i : Nat) (x y : Cntl) : (n.setCntl i x).setCntl i y = n.setCntl i y := by
  unfold Nvq.setCntl
  split <;> rfl

theorem signalled_release (i v : Nat) (c : Chip) : Signalled i c (c.release_ i v) := by
  obtain ⟨y, ms, hd, hy, hm⟩ := signalled_signal i v
    (c.mapCntl i fun y => { y with gathered := y.gathered.erase v, since := y.since.erase v })
  refine ⟨y, ms, hd.trans (by simp [Chip.mapCntl, Nvq.setCntl_setCntl]), ?_, hm⟩
  simp only [Chip.mapCntl, Nvq.cntl_setCntl_self, Cntl.Signalled] at hy ⊢
  exact hy

theorem signalled_interrupt (q : Cq) (n : Nat) (c : Chip) : Signalled q.cntl c (c.interrupt q n) := by
  unfold Chip.interrupt
  dsimp only
  split
  · exact .refl _ _
  · split
    · exact signalled_signal _ _ _
    · split
      · exact signalled_release _ _ _
      · exact .mapCntl _ _ _ rfl

/-! ### What posting may change -/

/-- Host queues that differ in their controllers, completion queues, commands in flight and errors alone. -/
def Nvq.Posts (n m : Nvq) : Prop := m = { n with
  c1 := m.c1, c2 := m.c2, cqs := m.cqs, inflight := m.inflight, errors := m.errors, errorCount := m.errorCount }

theorem Nvq.posts_setCntl (n : Nvq) (i : Nat) (x : Cntl) : n.Posts (n.setCntl i x) := by
  unfold Nvq.setCntl
  split <;> rfl

/-- Of a controller only what interrupts and notices leave behind differs. -/
def Cntl.Posted (x y : Cntl) : Prop :=
  y = { x with notices := y.notices, pba := y.pba, gathered := y.gathered, since := y.since }

/-- What posting completions may change: those parts of the host queues and what is sent out. -/
structure Posts (c d : Chip) : Prop where
  keeps : Keeps [.nvq, .out] c d
  nvq : c.nvq.Posts d.nvq
  /-- Of a completion queue only the tail moves. -/
  tails : ∃ f : Cq → Nat, d.nvq.cqs = c.nvq.cqs.map (fun q => { q with tail := f q })
  cntls : ∀ i, (c.nvq.cntl i).Posted (d.nvq.cntl i)
  sent : c.out <+: d.out

theorem Posts.refl (c : Chip) : Posts c c :=
  ⟨.refl _ _, rfl, ⟨Cq.tail, (List.map_id _).symm⟩, fun _ => rfl, List.prefix_rfl⟩

theorem Posts.trans (h : Posts c d) (g : Posts d e) : Posts c e := by
  obtain ⟨f, hf⟩ := h.tails
  obtain ⟨k, hk⟩ := g.tails
  exact ⟨h.keeps.trans g.keeps, by rw [Nvq.Posts, g.nvq, h.nvq], ⟨fun q => k { q with tail := f q },
    by rw [hk, hf, List.map_map]; rfl⟩, fun i => by rw [Cntl.Posted, g.cntls i, h.cntls i], h.sent.trans g.sent⟩

theorem Keeps.withPosted (c : Chip) (x : Nvq) (o : List Out) : Keeps [.nvq, .out] c { c with nvq := x, out := o } :=
  fun p hp => by
    cases p with
    | nvq | out => exact absurd (by decide) hp
    | _ => rfl

theorem Nvq.posted_setCntl {n : Nvq} {i : Nat} {x : Cntl} (hx : (n.cntl i).Posted x) (j : Nat) :
    (n.cntl j).Posted ((n.setCntl i x).cntl j) := by
  rw [Nvq.cntl_setCntl]
  split
  · next h => rwa [← show n.cntl i = n.cntl j by simp only [Nvq.cntl, h]]
  · rfl

/-- A change of one controller, with what is sent. -/
theorem Posts.setCntl (c : Chip) (i : Nat) {x : Cntl} (hx : (c.nvq.cntl i).Posted x) (ms : List Out) :
    Posts c { c with nvq := c.nvq.setCntl i x, out := c.out ++ ms } where
  keeps := .withPosted _ _ _
  nvq := Nvq.posts_setCntl _ _ _
  tails := ⟨Cq.tail, (Nvq.cqs_setCntl _ _ _).trans (List.map_id _).symm⟩
  cntls := Nvq.posted_setCntl hx
  sent := List.prefix_append _ _

theorem Cntl.Signalled.posted {x y : Cntl} (h : x.Signalled y) : x.Posted y := by
  rw [Cntl.Signalled] at h
  rw [h]
  rfl

theorem Signalled.posts {i : Nat} (h : Signalled i c d) : Posts c d := by
  obtain ⟨y, ms, rfl, hy, -⟩ := h
  exact .setCntl c i hy.posted ms

/-- The identifier of the completion queue a submission queue posts to. -/
def Nvq.cqidOf (n : Nvq) (cntl qid : Nat) : Nat :=
  match n.sqs.find? (fun q => q.cntl == cntl && q.qid == qid) with
  | some q => q.cqid
  | none => 0

theorem Nvq.advanceCq_tails (n : Nvq) (cntl qid k : Nat) : (n.advanceCq cntl qid k).cqs = n.cqs.map (fun q =>
    { q with tail := if q.cntl = cntl ∧ q.qid = n.cqidOf cntl qid then (q.tail + k) % q.size else q.tail }) := by
  refine List.map_congr_left fun q _ => ?_
  change (if q.cntl = cntl ∧ q.qid = n.cqidOf cntl qid then { q with tail := (q.tail + k) % q.size } else q) = _
  split <;> rfl

/-- A queue's posting, then the interrupt of its completion queue. -/
def Chip.posted (c : Chip) (cntl qid : Nat) : Chip :=
  let due := (c.nvq.due cntl qid).take (c.nvq.room cntl qid)
  let rs := due.filterMap InCmd.result
  let n := c.nvq.advanceCq cntl qid rs.length
  { c with
    nvq := { n with
      inflight := n.inflight.filter (fun x => !(due.any (fun y => y.seq == x.seq)))
      errors := ((rs.filter Completion.isError).reverse ++ n.errors).take 64
      errorCount := n.errorCount + (rs.filter Completion.isError).length }
    out := c.out ++ rs.map Out.completion }

theorem Nvq.cqOf_cntl {n : Nvq} {cntl qid : Nat} {q : Cq} (h : n.cqOf cntl qid = some q) : q.cntl = cntl := by
  have := List.find?_some h
  simp only [Bool.and_eq_true, beq_iff_eq] at this
  exact this.1

theorem Chip.postQueue_eq (c : Chip) (cntl qid : Nat) : Signalled cntl (c.posted cntl qid) (c.postQueue cntl qid) := by
  unfold Chip.postQueue
  dsimp only
  split
  · next q h =>
    have := signalled_interrupt q (((c.nvq.due cntl qid).take (c.nvq.room cntl qid)).filterMap InCmd.result).length
      (c.posted cntl qid)
    rwa [Nvq.cqOf_cntl h] at this
  · exact .refl _ _

theorem posts_posted (c : Chip) (cntl qid : Nat) : Posts c (c.posted cntl qid) where
  keeps := .withPosted _ _ _
  nvq := rfl
  tails := ⟨_, Nvq.advanceCq_tails _ _ _ _⟩
  cntls _ := rfl
  sent := List.prefix_append _ _

theorem posts_postQueue (c : Chip) (cntl qid : Nat) : Posts c (c.postQueue cntl qid) :=
  (posts_posted c cntl qid).trans (c.postQueue_eq cntl qid).posts

theorem posts_mapCmd (c : Chip) (seq : Nat) (f : InCmd → InCmd) : Posts c (c.mapCmd seq f) where
  keeps := (Keeps.refl _ _).withNvq _ (by decide)
  nvq := rfl
  tails := ⟨Cq.tail, (List.map_id _).symm⟩
  cntls _ := rfl
  sent := List.prefix_rfl

theorem posts_mapCntl (c : Chip) (i : Nat) (f : Cntl → Cntl) (hf : (c.nvq.cntl i).Posted (f (c.nvq.cntl i))) :
    Posts c (c.mapCntl i f) := by
  have h := Posts.setCntl c i hf []
  rwa [List.append_nil] at h

/-! ### Deciding a command -/

/-- A command as decided with a completion. -/
def InCmd.decidedAs (r : Completion) (y : InCmd) : InCmd := { y with result := some { r with seq := none }, phase := .done }

theorem Chip.finish_holdup (h : c.inHoldup = true) (r : Completion) : c.finish r = c := by simp [Chip.finish, h]

theorem Chip.finish_absent {r : Completion} (h : c.nvq.find r.cntl r.qid r.cid = none) : c.finish r = c := by
  simp [Chip.finish, h]

theorem Chip.finish_decided {r : Completion} {x : InCmd} (h : c.nvq.find r.cntl r.qid r.cid = some x)
    (hx : x.result ≠ none) : c.finish r = c := by
  have : x.result.isSome = true := Option.isSome_iff_ne_none.2 hx
  simp [Chip.finish, h, this]

theorem Chip.finish_eq {r : Completion} {x : InCmd} (hh : c.inHoldup = false)
    (h : c.nvq.find r.cntl r.qid r.cid = some x) (hx : x.result = none) (hs : r.seq = some x.seq) :
    c.finish r = (c.mapCmd x.seq (InCmd.decidedAs r)).postQueue r.cntl r.qid := by
  simp only [Chip.finish, hh, h, hx, hs]
  simp only [Option.isSome_none, Option.any_some, bne_self_eq_false, Bool.or_self, Bool.false_eq_true, if_false]
  rfl

theorem posts_finish (c : Chip) (r : Completion) : Posts c (c.finish r) := by
  unfold Chip.finish
  split
  · exact .refl c
  · split
    · exact .refl c
    · dsimp only
      split
      · exact .refl c
      · exact (posts_mapCmd c _ _).trans (posts_postQueue _ _ _)

/-! ### What is due (R123) -/

/-- The commands of a queue in flight, in the order of their fetch. -/
def Nvq.mine (n : Nvq) (cntl qid : Nat) : List InCmd := n.inflight.filter (fun y => y.cntl == cntl && y.qid == qid)

theorem Nvq.due_eq (n : Nvq) (cntl qid : Nat) : n.due cntl qid =
    ((n.mine cntl qid).filter (fun x => !x.isAer)).takeWhile (fun x => x.result.isSome) ++
      (n.mine cntl qid).filter (fun x => x.isAer && x.result.isSome) := rfl

theorem Nvq.mine_mapCmd (n : Nvq) (seq cntl qid : Nat) (r : Completion) :
    (n.mapCmd seq (InCmd.decidedAs r)).mine cntl qid =
      (n.mine cntl qid).map (fun y => if y.seq = seq then y.decidedAs r else y) := by
  unfold Nvq.mine Nvq.mapCmd
  rw [List.filter_map]
  congr 2
  funext y
  simp only [Function.comp]
  split <;> rfl

/-- Behind an undecided command nothing is due, where no event request stands in the queue. -/
theorem Nvq.due_nil {n : Nvq} {cntl qid : Nat} {y : InCmd} {ys : List InCmd} (h : n.mine cntl qid = y :: ys)
    (hy : y.result = none) (ha : ∀ z ∈ y :: ys, z.isAer = false) : n.due cntl qid = [] := by
  have h1 : (y :: ys).filter (fun x => !x.isAer) = y :: ys := List.filter_eq_self.2 fun z hz => by simp [ha z hz]
  have h2 : (y :: ys).filter (fun x => x.isAer && x.result.isSome) = [] :=
    List.filter_eq_nil_iff.2 fun z hz => by simp [ha z hz]
  rw [Nvq.due_eq, h, h1, h2]
  simp [hy]

/-- A decided command alone in its queue is due. -/
theorem Nvq.due_single {n : Nvq} {cntl qid : Nat} {y : InCmd} (h : n.mine cntl qid = [y]) (hy : y.result.isSome = true) :
    n.due cntl qid = [y] := by
  rw [Nvq.due_eq, h]
  cases ha : y.isAer <;> simp [ha, hy]

/-- Where no completion is due, or none has room, nothing is posted. -/
theorem Chip.posted_nothing {cntl qid : Nat} (h : (c.nvq.due cntl qid).take (c.nvq.room cntl qid) = []) :
    (c.posted cntl qid).out = c.out ∧ (c.posted cntl qid).nvq.inflight = c.nvq.inflight := by
  simp [Chip.posted, h, Nvq.advanceCq]

theorem Signalled.out {i : Nat} (h : Signalled i c d) :
    ∃ ms, d.out = c.out ++ ms ∧ (ms = [] ∨ ∃ o, ms = [o] ∧ o.IsMsix i) := by
  obtain ⟨y, ms, rfl, -, hm⟩ := h
  exact ⟨ms, rfl, hm⟩

theorem Signalled.inflight {i : Nat} (h : Signalled i c d) : d.nvq.inflight = c.nvq.inflight := by
  obtain ⟨y, ms, rfl, -, -⟩ := h
  exact Nvq.inflight_setCntl _ _ _

theorem Signalled.errors {i : Nat} (h : Signalled i c d) :
    d.nvq.errors = c.nvq.errors ∧ d.nvq.errorCount = c.nvq.errorCount := by
  obtain ⟨y, ms, rfl, -, -⟩ := h
  unfold Nvq.setCntl
  split <;> exact ⟨rfl, rfl⟩

/-- Where no completion is due, or none has room, posting changes nothing. -/
theorem Chip.postQueue_nothing {cntl qid : Nat} (h : (c.nvq.due cntl qid).take (c.nvq.room cntl qid) = []) :
    (c.postQueue cntl qid).out = c.out ∧ (c.postQueue cntl qid).nvq.inflight = c.nvq.inflight := by
  unfold Chip.postQueue
  simp only [h, List.filterMap_nil, List.length_nil, List.any_nil, Bool.not_false, List.filter_true]
  split
  · simp [Chip.interrupt, Nvq.advanceCq]
  · simp [Nvq.advanceCq]

/-- A decided command alone in its queue leaves where its completion queue has room. -/
theorem Chip.posted_single {cntl qid : Nat} {y : InCmd} {r : Completion} (h : c.nvq.mine cntl qid = [y])
    (hy : y.result = some r) (hroom : 0 < c.nvq.room cntl qid) :
    (c.posted cntl qid).out = c.out ++ [.completion r] ∧
    (c.posted cntl qid).nvq.inflight = c.nvq.inflight.filter (fun z => z.seq != y.seq) ∧
    (c.posted cntl qid).nvq.errors = (if r.isError then r :: c.nvq.errors else c.nvq.errors).take 64 ∧
    (c.posted cntl qid).nvq.errorCount = c.nvq.errorCount + if r.isError then 1 else 0 := by
  have hd : (c.nvq.due cntl qid).take (c.nvq.room cntl qid) = [y] := by
    rw [Nvq.due_single h (by simp [hy])]
    exact List.take_of_length_le hroom
  have hf : ∀ z : InCmd, (y.seq == z.seq) = (z.seq == y.seq) := fun z => Bool.beq_comm
  unfold Chip.posted
  simp only [hd, List.filterMap_cons, hy, List.filterMap_nil]
  cases he : r.isError <;> simp [he, hf, Nvq.advanceCq, bne]

/-- Changing the command of a place in the order of fetch does not matter where that command is left out. -/
theorem filter_seq_map {seq : Nat} {f : InCmd → InCmd} (hf : ∀ y, (f y).seq = y.seq) (l : List InCmd) :
    (l.map (fun y => if y.seq = seq then f y else y)).filter (fun y => y.seq != seq) = l.filter (fun y => y.seq != seq) := by
  induction l with
  | nil => rfl
  | cons y l ih => by_cases h : y.seq = seq <;> simp [h, hf, ih]

/-- A command decided alone in its queue, with room for its completion: the completion leaves, with at most one
interrupt message, the command is no longer in flight, and an error enters the log (R111, R120, R123). -/
theorem Chip.finish_alone {r : Completion} {x : InCmd} (hh : c.inHoldup = false)
    (h : c.nvq.find r.cntl r.qid r.cid = some x) (hx : x.result = none) (hs : r.seq = some x.seq)
    (hm : c.nvq.mine r.cntl r.qid = [x]) (hroom : 0 < c.nvq.room r.cntl r.qid) :
    (∃ ms, (c.finish r).out = c.out ++ [.completion { r with seq := none }] ++ ms ∧
      (ms = [] ∨ ∃ o, ms = [o] ∧ o.IsMsix r.cntl)) ∧
    (c.finish r).nvq.inflight = c.nvq.inflight.filter (fun y => y.seq != x.seq) ∧
    (c.finish r).nvq.errors = (if r.isError then { r with seq := none } :: c.nvq.errors else c.nvq.errors).take 64 ∧
    (c.finish r).nvq.errorCount = c.nvq.errorCount + if r.isError then 1 else 0 := by
  rw [Chip.finish_eq hh h hx hs]
  have hm' : (c.mapCmd x.seq (InCmd.decidedAs r)).nvq.mine r.cntl r.qid = [x.decidedAs r] :=
    (Nvq.mine_mapCmd _ _ _ _ _).trans (by simp [hm])
  have hp := Chip.posted_single (c := c.mapCmd x.seq (InCmd.decidedAs r)) hm' rfl hroom
  obtain ⟨ho, hi, he, hc⟩ := hp
  have hq := (c.mapCmd x.seq (InCmd.decidedAs r)).postQueue_eq r.cntl r.qid
  obtain ⟨ms, hq1, hms⟩ := hq.out
  refine ⟨⟨ms, hq1.trans (congrArg (· ++ ms) ho), hms⟩, (hq.inflight.trans hi).trans ?_, hq.errors.1.trans he, hq.errors.2.trans hc⟩
  exact filter_seq_map (f := InCmd.decidedAs r) (fun _ => rfl) _

/-- Settles O24. -/
theorem completionsAreDecidedOnceAndPostedInOrder : Obligations.CompletionsAreDecidedOnceAndPostedInOrder := by
  intro c r
  refine ⟨(posts_finish c r).keeps, fun h => Chip.finish_holdup h r, Chip.finish_absent,
    fun x h hx => Chip.finish_decided h hx, fun x hh h hx hs => ?_⟩
  intro d mine decided
  have hd : d = (c.mapCmd x.seq (InCmd.decidedAs r)).postQueue r.cntl r.qid := Chip.finish_eq hh h hx hs
  have hmap : (c.mapCmd x.seq (InCmd.decidedAs r)).nvq.mine r.cntl r.qid = mine.map decided := Nvq.mine_mapCmd _ _ _ _ _
  refine ⟨fun y ys hm hy hne ha => ?_, fun hm hr => ?_, fun hm hr => ?_⟩
  · have hdue : (c.mapCmd x.seq (InCmd.decidedAs r)).nvq.due r.cntl r.qid = [] := by
      refine Nvq.due_nil (y := y) (ys := ys.map decided) (by rw [hmap, hm, List.map_cons]; simp [decided, hne]) hy ?_
      rw [hm] at ha
      intro z hz
      rcases List.mem_cons.1 hz with rfl | hz
      · exact ha _ List.mem_cons_self
      · obtain ⟨w, hw, rfl⟩ := List.mem_map.1 hz
        have := ha w (List.mem_cons_of_mem _ hw)
        simp only [decided]
        split <;> exact this
    rw [hd]
    exact Chip.postQueue_nothing (by rw [hdue, List.take_nil])
  · rw [hd]
    refine Chip.postQueue_nothing ?_
    rw [show (c.mapCmd x.seq (InCmd.decidedAs r)).nvq.room r.cntl r.qid = 0 from hr, List.take_zero]
  · obtain ⟨⟨ms, ho, hms⟩, hi, he, hc⟩ := Chip.finish_alone hh h hx hs hm hr
    refine ⟨?_, fun y hy => ?_, fun herr => ?_, fun herr => ?_⟩
    · rcases hms with rfl | ⟨o, rfl, v, a, w, rfl⟩
      · exact .inl (by rw [ho, List.append_nil])
      · exact .inr ⟨v, a, w, ho⟩
    · rw [hi] at hy
      simpa using (List.mem_filter.1 hy).2
    · exact ⟨by simp [d, he, herr], by simp [d, hc, herr]⟩
    · exact ⟨by simp [d, he, herr], by simp [d, hc, herr]⟩

/-! ### Notices -/

theorem posts_noticeTo (c : Chip) (i info : Nat) : Posts c (c.noticeTo i info) := by
  unfold Chip.noticeTo
  split
  · exact posts_finish c _
  · split
    · exact posts_mapCntl c _ _ rfl
    · exact .refl c

theorem posts_noticeIf (c : Chip) (i bit info : Nat) : Posts c (c.noticeIf i bit info) := by
  unfold Chip.noticeIf
  split
  · exact posts_noticeTo c _ _
  · exact .refl c

theorem posts_notice (c : Chip) (bit info : Nat) : Posts c (c.notice bit info) :=
  (posts_noticeIf c _ _ _).trans (posts_noticeIf _ _ _ _)

/-! ### What posting leaves of the host queues -/

theorem Posts.nvq_eq (h : Posts c d) : d.nvq = { c.nvq with
    c1 := d.nvq.c1, c2 := d.nvq.c2, cqs := d.nvq.cqs, inflight := d.nvq.inflight, errors := d.nvq.errors
    errorCount := d.nvq.errorCount } := h.nvq

theorem Posts.sqs (h : Posts c d) : d.nvq.sqs = c.nvq.sqs := (congrArg Nvq.sqs h.nvq_eq).trans rfl
theorem Posts.nextSeq (h : Posts c d) : d.nvq.nextSeq = c.nvq.nextSeq := (congrArg Nvq.nextSeq h.nvq_eq).trans rfl
theorem Posts.nextOrder (h : Posts c d) : d.nvq.nextOrder = c.nvq.nextOrder := (congrArg Nvq.nextOrder h.nvq_eq).trans rfl
theorem Posts.staging (h : Posts c d) : d.nvq.staging = c.nvq.staging := (congrArg Nvq.staging h.nvq_eq).trans rfl
theorem Posts.activating (h : Posts c d) : d.nvq.activating = c.nvq.activating := (congrArg Nvq.activating h.nvq_eq).trans rfl
theorem Posts.image (h : Posts c d) : d.nvq.image = c.nvq.image := (congrArg Nvq.image h.nvq_eq).trans rfl
theorem Posts.fwNext (h : Posts c d) : d.nvq.fwNext = c.nvq.fwNext := (congrArg Nvq.fwNext h.nvq_eq).trans rfl
theorem Posts.fwSlot1 (h : Posts c d) : d.nvq.fwSlot1 = c.nvq.fwSlot1 := (congrArg Nvq.fwSlot1 h.nvq_eq).trans rfl
theorem Posts.fwSlot2 (h : Posts c d) : d.nvq.fwSlot2 = c.nvq.fwSlot2 := (congrArg Nvq.fwSlot2 h.nvq_eq).trans rfl
theorem Posts.fwRunning (h : Posts c d) : d.nvq.fwRunning = c.nvq.fwRunning := (congrArg Nvq.fwRunning h.nvq_eq).trans rfl
theorem Posts.secure (h : Posts c d) : d.nvq.secure = c.nvq.secure := (congrArg Nvq.secure h.nvq_eq).trans rfl
theorem Posts.selfTest (h : Posts c d) : d.nvq.selfTest = c.nvq.selfTest := (congrArg Nvq.selfTest h.nvq_eq).trans rfl
theorem Posts.selfResults (h : Posts c d) : d.nvq.selfResults = c.nvq.selfResults := (congrArg Nvq.selfResults h.nvq_eq).trans rfl

theorem Posts.cq_mem (h : Posts c d) {q : Cq} (hq : q ∈ c.nvq.cqs) :
    ∃ p ∈ d.nvq.cqs, p.cntl = q.cntl ∧ p.qid = q.qid ∧ p.head = q.head := by
  obtain ⟨f, hf⟩ := h.tails
  exact ⟨{ q with tail := f q }, hf ▸ List.mem_map.2 ⟨q, hq, rfl⟩, rfl, rfl, rfl⟩

theorem Posts.features (h : Posts c d) (i : Nat) : (d.nvq.cntl i).features = (c.nvq.cntl i).features :=
  (congrArg Cntl.features (show d.nvq.cntl i = _ from h.cntls i)).trans rfl

theorem Posts.reg (h : Posts c d) (k : Nat) : d.reg k = c.reg k := h.keeps.reg (by decide) k

theorem Posts.onlyRegs (h : Posts c d) {ks : List Nat} : OnlyRegs ks c d := fun k _ => h.reg k

end Sys2Proof.Machine
end

section
/-! ## Doorbells (R37, R141, O27) -/

namespace Sys2Proof.Machine

open Sys2Proof

variable {c d : Chip} {i qid n : Nat}

/-! ### REST left -/

theorem Chip.leaveRest_awake (ht : c.sys.trans = none) (hm : c.sys.mode ≠ .rest) : c.leaveRest = c := by
  unfold Chip.leaveRest
  rw [ht]
  exact if_neg hm

theorem Chip.leaveRest_or (c : Chip) : c.leaveRest = c.enterService ∨ c.leaveRest = c := by
  unfold Chip.leaveRest
  split <;> split
  · exact .inl rfl
  · exact .inr rfl
  · exact .inl rfl
  · exact .inr rfl

theorem keeps_leaveRest (c : Chip) : Keeps [.regs, .sys, .nvq, .loc] c c.leaveRest := by
  obtain h | h := c.leaveRest_or <;> rw [h]
  · exact keeps_enterService c
  · exact .refl _ _

theorem nvq_leaveRest (c : Chip) : ∃ n, c.leaveRest.nvq = { c.nvq with ps := n } := by
  obtain h | h := c.leaveRest_or <;> rw [h]
  · exact ⟨0, congrArg (fun n : Nvq => { n with ps := 0 }) ((keeps_dramAwake c).nvq (by decide))⟩
  · exact ⟨c.nvq.ps, rfl⟩

/-! ### A doorbell that is ignored -/

/-- The queue a doorbell names is not there, or what it holds lies outside the queue. -/
theorem sqDoorbell_bad (ha : c.alive = true) (hh : c.inHoldup = false) (hr : (c.nvq.cntl i).rdy = true)
    (h : c.nvq.sqs.find? (fun q => q.cntl == i && q.qid == qid) = none ∨
      ∃ q, c.nvq.sqs.find? (fun q => q.cntl == i && q.qid == qid) = some q ∧ q.size ≤ n) :
    sqDoorbell c i qid n = c.badDoorbell i := by
  unfold sqDoorbell
  simp only [ha, hh, hr]
  obtain h | ⟨q, h, hq⟩ := h
  · simp [h]
  · simp [h, hq]

theorem cqDoorbell_bad (ha : c.alive = true) (hh : c.inHoldup = false) (hr : (c.nvq.cntl i).rdy = true)
    (h : c.nvq.cqs.find? (fun q => q.cntl == i && q.qid == qid) = none ∨
      ∃ q, c.nvq.cqs.find? (fun q => q.cntl == i && q.qid == qid) = some q ∧ q.size ≤ n) :
    cqDoorbell c i qid n = c.badDoorbell i := by
  unfold cqDoorbell
  simp only [ha, hh, hr]
  obtain h | ⟨q, h, hq⟩ := h
  · simp [h]
  · simp [h, hq]

/-- What an ignored doorbell changes: its cause, and what its notice posts. -/
theorem badDoorbell_frame (c : Chip) (i : Nat) :
    (c.badDoorbell i).bit (pIntStatus 0x11) 4 = true ∧ OnlyRegs [pIntStatus 0x11] c (c.badDoorbell i) ∧
    (c.badDoorbell i).nvq.sqs = c.nvq.sqs ∧
    (∀ q ∈ c.nvq.cqs, ∃ p ∈ (c.badDoorbell i).nvq.cqs, p.cntl = q.cntl ∧ p.qid = q.qid ∧ p.head = q.head) ∧
    Keeps [.nvq, .out, .regs, .pwr] c (c.badDoorbell i) := by
  have h := posts_noticeTo (c.raise 0x11 4) i noticeBadDoorbell
  have hreg (k : Nat) := h.keeps.reg (by decide) k
  refine ⟨?_, ?_, h.sqs, fun q hq => h.cq_mem hq, ?_⟩
  · exact (Chip.bit_of_reg _ (hreg _) 4).trans (c.bit_raise 0x11 4 (by decide))
  · exact ((OnlyRegs.refl c _).raise _ _ (by decide)).trans h.onlyRegs
  · exact ((Keeps.refl _ c).raise _ _ (by decide) (by decide)).step h.keeps (by decide)

/-! ### A doorbell that is taken -/

/-- A submission queue's tail is set. -/
def Chip.tailSet (c : Chip) (i qid n : Nat) : Chip :=
  { c with nvq := { c.nvq with sqs := c.nvq.sqs.map (fun (x : Sq) =>
      if x.cntl = i ∧ x.qid = qid then { x with tail := n } else x) } }

theorem sqDoorbell_good (ha : c.alive = true) (hh : c.inHoldup = false) (hr : (c.nvq.cntl i).rdy = true) {q : Sq}
    (h : c.nvq.sqs.find? (fun q => q.cntl == i && q.qid == qid) = some q) (hn : n < q.size) :
    sqDoorbell c i qid n = if qid = 0 ∨ n = q.tail then c.tailSet i qid n else (c.tailSet i qid n).leaveRest := by
  unfold sqDoorbell
  simp only [ha, hh, hr, h]
  exact if_neg (Nat.not_le_of_lt hn)

theorem Chip.tailSet_same {q : Sq} (h : ∀ x ∈ c.nvq.sqs, x.cntl = i → x.qid = qid → x = q) :
    c.tailSet i qid q.tail = c := by
  have : c.nvq.sqs.map (fun (x : Sq) => if x.cntl = i ∧ x.qid = qid then { x with tail := q.tail } else x) = c.nvq.sqs := by
    refine (List.map_congr_left fun x hx => ?_).trans (List.map_id _)
    split
    · next hq => rw [h x hx hq.1 hq.2]; rfl
    · rfl
  simp only [Chip.tailSet, this]

/-- A completion queue's head is set. -/
def Chip.headSet (c : Chip) (i qid n : Nat) : Chip :=
  { c with nvq := { c.nvq with cqs := c.nvq.cqs.map (fun (x : Cq) =>
      if x.cntl = i ∧ x.qid = qid then { x with head := n } else x) } }

theorem cqDoorbell_good (ha : c.alive = true) (hh : c.inHoldup = false) (hr : (c.nvq.cntl i).rdy = true) {q : Cq}
    (h : c.nvq.cqs.find? (fun q => q.cntl == i && q.qid == qid) = some q) (hn : n < q.size) :
    cqDoorbell c i qid n = (c.headSet i qid n).postAll i := by
  unfold cqDoorbell
  simp only [ha, hh, hr, h]
  exact if_neg (Nat.not_le_of_lt hn)

/-- What leaves are completions and interrupt messages of one controller. -/
def Sends (i : Nat) (c d : Chip) : Prop :=
  ∃ sent : List Out, d.out = c.out ++ sent ∧ ∀ o ∈ sent, (∃ r, o = .completion r) ∨ o.IsMsix i

theorem Sends.trans {e : Chip} (h : Sends i c d) (g : Sends i d e) : Sends i c e := by
  obtain ⟨s, hs, hs'⟩ := h
  obtain ⟨t, ht, ht'⟩ := g
  exact ⟨s ++ t, by rw [ht, hs, List.append_assoc], fun o ho => (List.mem_append.1 ho).elim (hs' o) (ht' o)⟩

theorem sends_postQueue (c : Chip) (i qid : Nat) : Sends i c (c.postQueue i qid) := by
  obtain ⟨ms, ho, hm⟩ := (c.postQueue_eq i qid).out
  refine Sends.trans (d := c.posted i qid) ⟨_, rfl, fun o ho => ?_⟩ ⟨ms, ho, fun o ho => ?_⟩
  · obtain ⟨r, -, rfl⟩ := List.mem_map.1 ho
    exact .inl ⟨r, rfl⟩
  · obtain rfl | ⟨m, rfl, hm⟩ := hm
    · exact nomatch ho
    · exact .inr (List.mem_singleton.1 ho ▸ hm)

theorem postAll_frame (c : Chip) (i : Nat) : Posts c (c.postAll i) ∧ Sends i c (c.postAll i) := by
  unfold Chip.postAll
  generalize c.nvq.sqs.filter (fun q => q.cntl == i) = l
  induction l generalizing c with
  | nil => exact ⟨.refl c, [], (List.append_nil _).symm, fun _ h => nomatch h⟩
  | cons q l ih =>
    obtain ⟨hp, hs⟩ := ih (c.postQueue i q.qid)
    exact ⟨(posts_postQueue c i q.qid).trans hp, (sends_postQueue c i q.qid).trans hs⟩

/-- The queue named has the head it was given. -/
theorem Chip.headSet_mem {q : Cq} (h : c.nvq.cqs.find? (fun q => q.cntl == i && q.qid == qid) = some q) (n : Nat) :
    ∃ p ∈ (c.headSet i qid n).nvq.cqs, p.cntl = i ∧ p.qid = qid ∧ p.head = n := by
  have hq := List.find?_some h
  simp only [Bool.and_eq_true, beq_iff_eq] at hq
  refine ⟨{ q with head := n }, List.mem_map.2 ⟨q, List.mem_of_find?_eq_some h, if_pos hq⟩, hq.1, hq.2, rfl⟩

/-- Settles O27. -/
theorem doorbellsMoveTailsAndHeads : Obligations.DoorbellsMoveTailsAndHeads := by
  intro s i qid n ha hh hr sq cq bad
  have hbad : bad (s.chip.badDoorbell i) := ⟨rfl, badDoorbell_frame s.chip i⟩
  refine ⟨fun h => completesThen_eq rfl (sqDoorbell_bad ha hh hr h) hbad,
    fun h => completesThen_eq rfl (cqDoorbell_bad ha hh hr h) hbad, fun q h hn => ⟨?_, fun ht hu => ?_⟩, fun q h hn => ?_⟩
  · refine completesThen_eq rfl (sqDoorbell_good ha hh hr h hn) ?_
    have hk : Keeps [.nvq] s.chip (s.chip.tailSet i qid n) := (Keeps.refl _ _).withNvq _ (by decide)
    have hl := keeps_leaveRest (s.chip.tailSet i qid n)
    obtain ⟨m, hm⟩ := nvq_leaveRest (s.chip.tailSet i qid n)
    split
    · next h0 =>
      exact ⟨rfl, rfl, rfl, fun h1 h2 => (h0.elim h1 h2).elim, fun _ => hk, hk.mono (by decide)⟩
    · next h0 =>
      refine ⟨by rw [hm]; rfl, by rw [hm]; rfl, by rw [hm]; rfl, fun _ _ ht hm => ?_, fun h1 => ?_,
        (hk.mono (by decide)).step hl (by decide)⟩
      · rw [Chip.leaveRest_eq (c := s.chip.tailSet i qid n) (.inl ⟨hm, ht⟩), Chip.sys_enterService]
      · obtain h1 | h1 | ⟨h1, h2⟩ := h1
        · exact absurd (.inl h1) h0
        · exact absurd (.inr h1) h0
        · rwa [Chip.leaveRest_awake (c := s.chip.tailSet i qid n) h1 h2]
  · refine completesThen_eq rfl (sqDoorbell_good ha hh hr h hn) ?_
    rw [if_pos (.inr ht), ht]
    exact Chip.tailSet_same hu
  · obtain ⟨hp, hs⟩ := postAll_frame (s.chip.headSet i qid n) i
    obtain ⟨p, hpm, h1, h2, h3⟩ := Chip.headSet_mem h n
    obtain ⟨p', hpm', h1', h2', h3'⟩ := hp.cq_mem hpm
    refine completesThen_eq rfl (cqDoorbell_good ha hh hr h hn)
      ⟨hp.sqs, ⟨p', hpm', h1'.trans h1, h2'.trans h2, h3'.trans h3⟩, hs, ?_⟩
    · exact ((Keeps.refl [.nvq, .out] s.chip).withNvq _ (by decide)).trans hp.keeps

end Sys2Proof.Machine
end

section
/-! ## I/O queues created and deleted (R115, R118, R140, R144, O29) -/

namespace Sys2Proof.Machine

open Sys2Proof

variable {c d : Chip} {ps : List ChipPart} {i cid : Nat} {x : InCmd}

theorem Keeps.finish (h : Keeps ps c d) (r : Completion) (hn : .nvq ∈ ps) (ho : .out ∈ ps) : Keeps ps c (d.finish r) :=
  h.step (posts_finish d r).keeps (List.cons_subset.2 ⟨hn, List.cons_subset.2 ⟨ho, List.nil_subset _⟩⟩)

theorem Keeps.mapCmd (h : Keeps ps c d) (seq : Nat) (f : InCmd → InCmd) (hn : .nvq ∈ ps) : Keeps ps c (d.mapCmd seq f) :=
  h.withNvq _ hn

theorem keeps_dropReader (c : Chip) (r : Reader) : Keeps ladderParts c (c.dropReader r) := by
  have one (c : Chip) (a : Act) : Keeps ladderParts c (c.dropReaderOn r a) :=
    .ite (fun _ => keeps_setLadders a _) fun _ => .refl _ _
  exact (one c .A).trans (one _ .B)

/-! ### Create I/O Completion Queue -/

section
variable (h : c.admin i cid 0x05 = some x) (hc : x.cmd.cdw11 % 2 = 1)
include h hc

theorem createIoCq_qid (hq : x.cmd.cdw10 % 65536 = 0 ∨ c.queuePairs < x.cmd.cdw10 % 65536 ∨
    c.nvq.cqs.any (fun q => q.cntl == i && q.qid == x.cmd.cdw10 % 65536) = true) :
    createIoCq c i cid = c.fail x stInvalidQid := by
  simp only [createIoCq, h]
  rw [if_neg (by omega), if_pos hq]

variable (h1 : 1 ≤ x.cmd.cdw10 % 65536) (h2 : x.cmd.cdw10 % 65536 ≤ c.queuePairs)
  (h3 : c.nvq.cqs.any (fun q => q.cntl == i && q.qid == x.cmd.cdw10 % 65536) = false)
include h1 h2 h3

theorem createIoCq_size (hs : x.cmd.cdw10 / 65536 = 0 ∨ 4095 < x.cmd.cdw10 / 65536) :
    createIoCq c i cid = c.fail x stQueueSize := by
  simp only [createIoCq, h]
  rw [if_neg (by omega), if_neg (by simp only [h3, Bool.false_eq_true, or_false]; omega), if_pos hs]

theorem createIoCq_adds (hs : 1 ≤ x.cmd.cdw10 / 65536) (hs' : x.cmd.cdw10 / 65536 ≤ 4095)
    (hv : x.cmd.cdw11 / 65536 ≤ c.queuePairs) :
    createIoCq c i cid = ({ c with nvq := { c.nvq with cqs := c.nvq.cqs ++ [({
      cntl := i, qid := x.cmd.cdw10 % 65536, size := x.cmd.cdw10 / 65536 + 1
      vector := x.cmd.cdw11 / 65536, ien := x.cmd.cdw11 / 2 % 2 == 1 } : Cq)] } }).finish x.ok := by
  simp only [createIoCq, h]
  rw [if_neg (by omega), if_neg (by simp only [h3, Bool.false_eq_true, or_false]; omega), if_neg (by omega), if_neg (by omega)]

end

/-! ### Create I/O Submission Queue -/

section
variable (h : c.admin i cid 0x01 = some x) (hc : x.cmd.cdw11 % 2 = 1)
include h hc

theorem createIoSq_qid (hq : x.cmd.cdw10 % 65536 = 0 ∨ c.queuePairs < x.cmd.cdw10 % 65536 ∨
    c.nvq.sqs.any (fun q => q.cntl == i && q.qid == x.cmd.cdw10 % 65536) = true) :
    createIoSq c i cid = c.fail x stInvalidQid := by
  simp only [createIoSq, h]
  rw [if_neg (by omega), if_pos hq]

variable (h1 : 1 ≤ x.cmd.cdw10 % 65536) (h2 : x.cmd.cdw10 % 65536 ≤ c.queuePairs)
  (h3 : c.nvq.sqs.any (fun q => q.cntl == i && q.qid == x.cmd.cdw10 % 65536) = false)
include h1 h2 h3

theorem createIoSq_size (hs : x.cmd.cdw10 / 65536 = 0 ∨ 4095 < x.cmd.cdw10 / 65536) :
    createIoSq c i cid = c.fail x stQueueSize := by
  simp only [createIoSq, h]
  rw [if_neg (by omega), if_neg (by simp only [h3, Bool.false_eq_true, or_false]; omega), if_pos hs]

theorem createIoSq_adds (hs : 1 ≤ x.cmd.cdw10 / 65536) (hs' : x.cmd.cdw10 / 65536 ≤ 4095)
    (hq : x.cmd.cdw11 / 65536 ≠ 0)
    (ht : c.nvq.cqs.any (fun q => q.cntl == i && q.qid == x.cmd.cdw11 / 65536) = true) :
    createIoSq c i cid = ({ c with nvq := { c.nvq with sqs := c.nvq.sqs ++ [({
      cntl := i, qid := x.cmd.cdw10 % 65536, size := x.cmd.cdw10 / 65536 + 1
      cqid := x.cmd.cdw11 / 65536 } : Sq)] } }).finish x.ok := by
  simp only [createIoSq, h]
  rw [if_neg (by omega), if_neg (by simp only [h3, Bool.false_eq_true, or_false]; omega), if_neg (by omega), if_neg (by simp [hq, ht])]

end

/-! ### Delete -/

theorem deleteIoSq_eq (h : c.admin i cid 0x00 = some x) (h0 : x.cmd.cdw10 % 65536 ≠ 0)
    (hu : c.nvq.sqs.any (fun q => q.cntl == i && q.qid == x.cmd.cdw10 % 65536) = true) {mine : List InCmd}
    (hm : c.nvq.inflight.filter (fun z => z.cntl == i && z.qid == x.cmd.cdw10 % 65536 && z.result.isNone) = mine) :
    deleteIoSq c i cid = (mine.foldl (fun c y =>
      ((c.discard y).dropReader (.host y.cntl y.qid y.cid)).fail y (0, 0x08, false)) c).mapCmd
        x.seq (fun y => { y with phase := .working }) := by
  simp only [deleteIoSq, h]
  rw [if_neg (by simp [h0, hu]), hm]

theorem finishDelete_waits (h : ∃ y ∈ c.nvq.inflight, y.cntl = x.cntl ∧ y.qid = x.cmd.cdw10 % 65536) :
    c.finishDelete x = c := by
  obtain ⟨y, hy, h1, h2⟩ := h
  exact if_pos (List.any_eq_true.2 ⟨y, hy, by simp [h1, h2]⟩)

theorem finishDelete_deletes (h : ∀ y ∈ c.nvq.inflight, ¬(y.cntl = x.cntl ∧ y.qid = x.cmd.cdw10 % 65536)) :
    c.finishDelete x = ({ c with nvq := { c.nvq with
      sqs := c.nvq.sqs.filter (fun q => !(q.cntl == x.cntl && q.qid == x.cmd.cdw10 % 65536)) } }).finish x.ok :=
  if_neg (by simpa using h)

theorem deleteIoCq_eq (h : c.admin i cid 0x04 = some x) (h0 : x.cmd.cdw10 % 65536 ≠ 0)
    (hu : c.nvq.cqs.any (fun q => q.cntl == i && q.qid == x.cmd.cdw10 % 65536) = true) :
    deleteIoCq c i cid = if c.nvq.sqs.any (fun q => q.cntl == i && q.cqid == x.cmd.cdw10 % 65536) then
        c.fail x (1, 0x0C, true)
      else ({ c with nvq := { c.nvq with
        cqs := c.nvq.cqs.filter (fun q => !(q.cntl == i && q.qid == x.cmd.cdw10 % 65536)) } }).finish x.ok := by
  simp only [deleteIoCq, h]
  rw [if_neg (by simp [h0, hu])]

/-- A change of the host queues, then a completion. -/
theorem keeps_withNvq_finish (c : Chip) (n : Nvq) (r : Completion) :
    Keeps [.nvq, .out] c (({ c with nvq := n } : Chip).finish r) :=
  ((Keeps.refl _ c).withNvq n (by decide)).finish r (by decide) (by decide)

/-- Settles O29. -/
theorem queuesAreCreatedAndDeleted : Obligations.QueuesAreCreatedAndDeleted := by
  intro s i cid x c qid size cqUsed sqUsed
  refine ⟨fun h hc => ⟨fun h1 h2 h3 h4 h5 h6 => ?_, fun hq => ?_, fun h1 h2 h3 hs => ?_⟩,
    fun h hc => ⟨fun h1 h2 h3 h4 h5 h6 h7 => ?_, fun hq => ?_, fun h1 h2 h3 hs => ?_⟩,
    fun h h0 hu => ⟨fun hm => ?_, fun y hm => ?_, finishDelete_deletes, finishDelete_waits⟩,
    fun h h0 hu => ⟨fun hn => ?_, fun hn => ?_⟩⟩
  · exact completesThen_eq rfl (createIoCq_adds h hc h1 h2 h3 h4 h5 h6) ⟨rfl, keeps_withNvq_finish _ _ _⟩
  · exact completesThen_eq rfl (createIoCq_qid h hc hq) rfl
  · exact completesThen_eq rfl (createIoCq_size h hc h1 h2 h3 hs) rfl
  · exact completesThen_eq rfl (createIoSq_adds h hc h1 h2 h3 h4 h5 h6 h7) ⟨rfl, keeps_withNvq_finish _ _ _⟩
  · exact completesThen_eq rfl (createIoSq_qid h hc hq) rfl
  · exact completesThen_eq rfl (createIoSq_size h hc h1 h2 h3 hs) rfl
  · exact completesThen_eq rfl (deleteIoSq_eq h h0 hu hm) ⟨rfl, (Keeps.refl _ c).mapCmd _ _ (by decide)⟩
  · have hk := ((Keeps.refl [.regs, .nvq, .loc, .chanA, .chanB, .out] c).discard y (by decide)).step
      (keeps_dropReader _ (.host y.cntl y.qid y.cid)) (by decide)
    exact completesThen_eq rfl (deleteIoSq_eq h h0 hu hm)
      ⟨rfl, (hk.finish _ (by decide) (by decide)).mapCmd _ _ (by decide)⟩
  · exact completesThen_eq rfl ((deleteIoCq_eq h h0 hu).trans (if_neg (by simpa using hn)))
      ⟨rfl, keeps_withNvq_finish _ _ _⟩
  · exact completesThen_eq rfl ((deleteIoCq_eq h h0 hu).trans (if_pos hn)) rfl

end Sys2Proof.Machine
end

section
/-! ## Identify, log pages and features (R117 to R120, R140, R143, O30) -/

namespace Sys2Proof.Machine

open Sys2Proof

variable {c d : Chip} {ps : List ChipPart} {i cid : Nat} {x : InCmd}

/-! ### Identify -/

theorem leBytes_length (n : Nat) : ∀ v : Nat, (leBytes n v).length = n := by
  induction n with
  | zero => exact fun _ => rfl
  | succ n ih => exact fun v => congrArg (· + 1) (ih _)

theorem layBytes_length (n : Nat) (fs : List (Nat × Nat × Nat)) : (layBytes n fs).length = n := leBytes_length n _

/-- Every structure of Identify has 4,096 bytes (R117). -/
theorem Chip.identifyData_length {h : HostCmd} {bs : List Byte} (hb : c.identifyData i h = .inl bs) :
    bs.length = 4096 := by
  have hz : (List.replicate 4096 (0 : Byte)).length = 4096 := List.length_replicate
  have hn (n : Nat) : (c.identifyNs n).length = 4096 := layBytes_length _ _
  have hl (n : Nat) (o : Option Nat) : (c.activeList n o).length = 4096 := layBytes_length _ _
  have hc : (c.identifyController i).length = 4096 := layBytes_length _ _
  have hk : c.identifyKv.length = 4096 := layBytes_length _ _
  have ho : identifyZoned.length = 4096 := layBytes_length _ _
  revert hb
  unfold Chip.identifyData
  dsimp only
  split
  · split
    · exact nofun
    · split
      · rintro ⟨⟩; exact hz
      · split
        · exact nofun
        · rintro ⟨⟩; exact hn _
  · rintro ⟨⟩; exact hc
  · split
    · exact nofun
    · rintro ⟨⟩; exact hl _ _
  · split
    · exact nofun
    · rintro ⟨⟩; exact layBytes_length _ _
  · split
    · exact nofun
    · split
      · rintro ⟨⟩; exact hz
      · split
        · exact nofun
        · rintro ⟨⟩
          split
          · exact ho
          · split
            · exact hk
            · exact hz
  · split
    · exact nofun
    · rintro ⟨⟩; exact hz
  · split
    · exact nofun
    · split
      · exact nofun
      · rintro ⟨⟩; exact hl _ _
  · split
    · exact nofun
    · split
      · rintro ⟨⟩; exact hz
      · rintro ⟨⟩; exact layBytes_length _ _
  · rintro ⟨⟩; exact layBytes_length _ _
  · exact nofun

theorem identify_sends (h : c.admin i cid 0x06 = some x) {bs : List Byte} (hb : c.identifyData i x.cmd = .inl bs) :
    identify c i cid = (c.emit (.bytes i 0 cid bs)).finish x.ok := by
  simp only [identify, h, hb]

theorem identify_fails (h : c.admin i cid 0x06 = some x) {st : Status} (hb : c.identifyData i x.cmd = .inr st) :
    identify c i cid = c.fail x st := by
  simp only [identify, h, hb]

/-! ### Log pages -/

/-- The pages of R120. -/
theorem Chip.logPage_some (h : x.cmd.cdw10 % 256 ∈ [1, 2, 3, 4, 5, 6, 0xBF, 0xC0, 0xC1]) :
    ∃ bs d, c.logPage x = some (bs, d) ∧ Keeps [.freeCtr] c d := by
  have hf (w : Nat) : Keeps [.freeCtr] c (c.takeFree w).2 := (Keeps.refl _ c).takeFree w (by decide)
  unfold Chip.logPage
  split
  · exact ⟨_, _, rfl, .refl _ _⟩
  · exact ⟨_, _, rfl, hf _⟩
  · exact ⟨_, _, rfl, .refl _ _⟩
  · exact ⟨_, _, rfl, .refl _ _⟩
  · exact ⟨_, _, rfl, .refl _ _⟩
  · exact ⟨_, _, rfl, hf _⟩
  · exact ⟨_, _, rfl, .refl _ _⟩
  · exact ⟨_, _, rfl, .refl _ _⟩
  · exact ⟨_, _, rfl, .refl _ _⟩
  · simp_all

theorem Chip.logPage_none (h : x.cmd.cdw10 % 256 ∉ [1, 2, 3, 4, 5, 6, 0xBF, 0xC0, 0xC1]) : c.logPage x = none := by
  unfold Chip.logPage
  split <;> simp_all

theorem Keeps.logRead (h : Keeps ps c d) (x : InCmd) (hn : .nvq ∈ ps) : Keeps ps c (d.logRead x) := by
  unfold Chip.logRead
  split
  · exact h
  · split
    · exact h.withNvq _ hn
    · exact h.withNvq _ hn
    · exact h

theorem getLogPage_none (h : c.admin i cid 0x02 = some x) (hp : c.logPage x = none) :
    getLogPage c i cid = c.fail x (1, 0x09, true) := by
  simp only [getLogPage, h, hp]

theorem getLogPage_ns (h : c.admin i cid 0x02 = some x) (hp : x.cmd.cdw10 % 256 = 0xBF) (h1 : x.cmd.nsid ≠ 1)
    (h2 : x.cmd.nsid ≠ 2) : getLogPage c i cid = c.fail x stInvalidNs := by
  obtain ⟨bs, d, hl, -⟩ := Chip.logPage_some (c := c) (x := x) (by simp [hp])
  simp only [getLogPage, h, hl]
  exact if_pos ⟨hp, h1, h2⟩

section
variable (h : c.admin i cid 0x02 = some x) {bs : List Byte} (hp : c.logPage x = some (bs, d))
  (hn : x.cmd.cdw10 % 256 = 0xBF → x.cmd.nsid = 1 ∨ x.cmd.nsid = 2)
include h hp hn

theorem getLogPage_eq : getLogPage c i cid =
    let n := 4 * (x.cmd.cdw10 / 65536 % 65536 + x.cmd.cdw11 % 65536 * 65536 + 1)
    let start := x.cmd.cdw12 + x.cmd.cdw13 * 2 ^ 32
    if start % 4 ≠ 0 ∨ 2097152 < n ∨ bs.length < start + n then c.fail x stInvalidField
    else ((d.emit (.bytes i 0 cid (slice bs start n))).logRead x).finish x.ok := by
  simp only [getLogPage, h, hp]
  exact if_neg fun hb => (hn hb.1).elim hb.2.1 hb.2.2

end

/-! ### Features -/

theorem mem_insertNat (l : List Nat) (n m : Nat) : m ∈ insertNat l n ↔ m = n ∨ m ∈ l := by
  induction l with
  | nil => simp [insertNat]
  | cons k l ih =>
    unfold insertNat
    split
    · simp
    · split
      · next h => simp [h]
      · simp only [List.mem_cons, ih]
        tauto

/-- The features R119 lists. -/
def featureIds : List Nat := [0x01, 0x02, 0x04, 0x05, 0x07, 0x08, 0x09, 0x0B, 0x0E, 0xC1]

theorem Chip.feature_setFeature (c : Chip) (i f v : Nat) : (c.setFeature i f v).feature i f = v := by
  simp [Chip.feature, Chip.setFeature, Chip.mapCntl, Nvq.cntl_setCntl]

theorem Chip.feature_finish (c : Chip) (r : Completion) (i f : Nat) : (c.finish r).feature i f = c.feature i f := by
  rw [Chip.feature, (posts_finish c r).features i, Chip.feature]

theorem keeps_setFeature_finish (c : Chip) (i f v : Nat) (r : Completion) :
    Keeps [.nvq, .out] c ((c.setFeature i f v).finish r) := keeps_withNvq_finish c _ r

section
variable (h : c.admin i cid 0x09 = some x)
include h

theorem setFeatures_ns (hf : x.cmd.cdw10 % 256 = 0xC1) (hn : c.nsActive x.cmd.nsid = false) :
    setFeatures c i cid = c.fail x stInvalidNs := by
  simp only [setFeatures, h]
  exact if_pos ⟨hf, by simp [hn]⟩

theorem setFeatures_saved (hs : x.cmd.cdw10 / 2 ^ 31 % 2 = 1)
    (hn : x.cmd.cdw10 % 256 = 0xC1 → c.nsActive x.cmd.nsid = true) : setFeatures c i cid = c.fail x (1, 0x0D, true) := by
  simp only [setFeatures, h]
  rw [if_neg (by rintro ⟨h1, h2⟩; simp [hn h1] at h2), if_pos hs]

variable (hs : x.cmd.cdw10 / 2147483648 % 2 = 0)
include hs

theorem setFeatures_kept {f : Nat} (hf : x.cmd.cdw10 % 256 = f) (hm : f ∈ [0x01, 0x0B]) :
    setFeatures c i cid = (c.setFeature i f x.cmd.cdw11).finish x.ok := by
  simp only [List.mem_cons, List.not_mem_nil, or_false] at hm
  obtain rfl | rfl := hm <;> simp [setFeatures, h, hf, hs]

theorem setFeatures_coalescing (hf : x.cmd.cdw10 % 256 = 0x08) :
    setFeatures c i cid = (c.setFeature i 0x08 (x.cmd.cdw11 % 65536)).finish x.ok := by
  simp [setFeatures, h, hf, hs]

theorem setFeatures_queues (hf : x.cmd.cdw10 % 256 = 0x07) (h1 : x.cmd.cdw11 % 65536 ≠ 65535)
    (h2 : x.cmd.cdw11 / 65536 ≠ 65535) (h3 : x.cmd.cdw11 < 2 ^ 32) :
    let m := c.queuePairs - 1
    let g := min (x.cmd.cdw11 % 65536) m + min (x.cmd.cdw11 / 65536) m * 65536
    setFeatures c i cid = (c.setFeature i 0x07 (2 ^ 32 + g)).finish { x.ok with dw0 := g } := by
  have h4 : x.cmd.cdw11 / 65536 % 65536 = x.cmd.cdw11 / 65536 := Nat.mod_eq_of_lt (by omega)
  simp [setFeatures, h, hf, hs, h1, h2, h4]

theorem setFeatures_tler (hf : x.cmd.cdw10 % 256 = 0x05) (hd : x.cmd.cdw11 / 65536 % 2 = 0) :
    setFeatures c i cid = (c.setFld R.NVQ_TLER 15 0 (x.cmd.cdw11 % 65536)).finish x.ok := by
  simp [setFeatures, h, hf, hs, hd]

theorem setFeatures_secure (hf : x.cmd.cdw10 % 256 = 0xC1) (hn : c.nsActive x.cmd.nsid = true) :
    setFeatures c i cid = ({ c with nvq := { c.nvq with
      secure := if x.cmd.cdw11 % 2 = 1 then insertNat (c.nvq.secure.filter (· != x.cmd.nsid)) x.cmd.nsid
        else c.nvq.secure.filter (· != x.cmd.nsid) } }).finish x.ok := by
  simp [setFeatures, h, hf, hs, hn]

theorem setFeatures_unknown (hf : x.cmd.cdw10 % 256 ∉ featureIds) : setFeatures c i cid = c.fail x stInvalidField := by
  simp only [featureIds, List.mem_cons, List.not_mem_nil, or_false, not_or] at hf
  simp only [setFeatures, h]
  rw [if_neg (by tauto), if_neg (by omega)]
  split <;> simp_all

end

section
variable (h : c.admin i cid 0x0A = some x)
include h

theorem getFeatures_ns (hf : x.cmd.cdw10 % 256 = 0xC1) (hn : c.nsActive x.cmd.nsid = false) :
    getFeatures c i cid = c.fail x stInvalidNs := by
  simp only [getFeatures, h]
  exact if_pos ⟨hf, by simp [hn]⟩

theorem getFeatures_value (hs : x.cmd.cdw10 / 256 % 8 = 0) (h1 : x.cmd.cdw10 % 256 ≠ 0xC1)
    (h2 : x.cmd.cdw10 % 256 ≠ 0x0E) {v : Nat} (hv : c.featureValue i x.cmd false = some v) :
    getFeatures c i cid = c.finish { x.ok with dw0 := v } := by
  simp only [getFeatures, h, hs]
  rw [if_neg fun hb => h1 hb.1, show ((0 : Nat) == 1 || (0 : Nat) == 2) = false from rfl, hv]
  simp [h2]

theorem getFeatures_unknown (hf : x.cmd.cdw10 % 256 ∉ featureIds) : getFeatures c i cid = c.fail x stInvalidField := by
  have hv (b : Bool) : c.featureValue i x.cmd b = none := by
    simp only [featureIds, List.mem_cons, List.not_mem_nil, or_false, not_or] at hf
    unfold Chip.featureValue
    dsimp only
    split <;> simp_all
  simp only [getFeatures, h, hv]
  exact if_neg fun hb => hf (by simp [hb.1, featureIds])

end

/-- Settles O30. -/
theorem identifyLogsAndFeatures : Obligations.IdentifyLogsAndFeatures := by
  refine ⟨fun s i cid x h => ⟨fun bs hb => ⟨Chip.identifyData_length hb, ?_⟩, fun st hb => ?_⟩,
    fun s i cid x h => ?_, fun s i cid x h => ?_, fun s i cid x h => ?_⟩
  · exact completesThen_eq rfl (identify_sends h hb)
      ⟨rfl, ((Keeps.refl _ _).emit _ (by decide)).finish _ (by decide) (by decide)⟩
  · exact completesThen_eq rfl (identify_fails h hb) rfl
  · intro n start page
    refine ⟨fun hp => ?_, fun hp h1 h2 => ?_, fun hp hn => ?_⟩
    · exact completesThen_eq rfl (getLogPage_none h (Chip.logPage_none hp)) rfl
    · exact completesThen_eq rfl (getLogPage_ns h hp h1 h2) rfl
    · obtain ⟨bs, d, hl, hk⟩ := Chip.logPage_some (c := s.chip) hp
      refine ⟨bs, d, hl, hk, fun h1 h2 h3 => ?_, fun hb => ?_⟩
      · refine completesThen_eq rfl ((getLogPage_eq h hl hn).trans (if_neg ?_)) ⟨rfl, ?_⟩
        · rw [not_or, not_or]
          exact ⟨not_not.2 h1, Nat.not_lt.2 h2, Nat.not_lt.2 h3⟩
        · exact (((hk.mono (by decide)).emit _ (by decide)).logRead x (by decide)).finish _ (by decide) (by decide)
      · exact completesThen_eq rfl ((getLogPage_eq h hl hn).trans (if_pos hb)) rfl
  · intro c f v
    refine ⟨fun hf hn => ?_, fun hs hn => ?_, fun hs => ⟨fun hf => ?_, fun hf => ?_, fun hf h1 h2 h3 => ?_,
      fun hf hd => ?_, fun hf hn => ?_, fun hf => ?_⟩⟩
    · exact completesThen_eq rfl (setFeatures_ns h hf hn) rfl
    · exact completesThen_eq rfl (setFeatures_saved h hs hn) rfl
    · exact completesThen_eq rfl (setFeatures_kept h hs rfl hf)
        ⟨rfl, (Chip.feature_finish _ _ _ _).trans (c.feature_setFeature _ _ _), keeps_setFeature_finish _ _ _ _ _⟩
    · exact completesThen_eq rfl (setFeatures_coalescing h hs hf)
        ⟨rfl, (Chip.feature_finish _ _ _ _).trans (c.feature_setFeature _ _ _), keeps_setFeature_finish _ _ _ _ _⟩
    · exact completesThen_eq rfl (setFeatures_queues h hs hf h1 h2 h3) ⟨rfl, keeps_setFeature_finish _ _ _ _ _⟩
    · have hp := posts_finish (c.setFld R.NVQ_TLER 15 0 (v % 65536)) x.ok
      refine completesThen_eq rfl (setFeatures_tler h hs hf hd) ⟨rfl, ?_, ?_, ?_⟩
      · rw [Chip.fld_of_reg _ (hp.reg _), Chip.fld_setFld_self _ _ _ (by decide)]
        exact Nat.mod_mod _ _
      · exact ((OnlyRegs.refl c _).setFld _ _ _ _ (by decide)).trans hp.onlyRegs
      · exact ((Keeps.refl _ c).setFld _ _ _ _ (by decide)).finish _ (by decide) (by decide)
    · refine completesThen_eq rfl (setFeatures_secure h hs hf hn) ?_
      rw [(posts_finish _ _).secure]
      refine ⟨?_, fun n hne => ?_, keeps_withNvq_finish _ _ _⟩
      · by_cases hv : x.cmd.cdw11 % 2 = 1 <;> simp [hv, v, mem_insertNat]
      · by_cases hv : x.cmd.cdw11 % 2 = 1 <;> simp [hv, mem_insertNat, hne, c]
    · exact completesThen_eq rfl (setFeatures_unknown h hs hf) rfl
  · intro c f
    refine ⟨fun hf hn => ?_, fun hs => ⟨fun hf => ?_, fun hf => ?_, fun hf => ?_⟩, fun hf => ?_⟩
    · exact completesThen_eq rfl (getFeatures_ns h hf hn) rfl
    · have hf' : f = 1 ∨ f = 8 ∨ f = 11 := by simpa using hf
      have hv : c.featureValue i x.cmd false = some (c.feature i f) := by
        obtain hf' | hf' | hf' := hf' <;> simp only [f] at hf' ⊢ <;> simp [Chip.featureValue, hf']
      refine completesThen_eq rfl (getFeatures_value h hs ?_ ?_ hv) ⟨rfl, (posts_finish _ _).keeps⟩ <;> omega
    · have hv : c.featureValue i x.cmd false = some (c.fld R.NVQ_TLER 15 0) := by
        simp only [f] at hf
        simp [Chip.featureValue, hf]
      refine completesThen_eq rfl (getFeatures_value h hs ?_ ?_ hv) rfl <;> omega
    · have hv : c.featureValue i x.cmd false = some c.nvq.ps := by
        simp only [f] at hf
        simp [Chip.featureValue, hf]
      refine completesThen_eq rfl (getFeatures_value h hs ?_ ?_ hv) rfl <;> omega
    · exact completesThen_eq rfl (getFeatures_unknown h hf) rfl

end Sys2Proof.Machine
end

section
/-! ## Ladders that stop (R286, R309, R314) -/

namespace Sys2Proof.Machine

open Sys2Proof

variable {c d : Chip} {ps : List ChipPart}

theorem Keeps.coreAbort (h : Keeps ps c d) (n cause addr : Nat) (hr : .regs ∈ ps) :
    Keeps ps c (d.coreAbort n cause addr) :=
  ((h.setReg _ _ hr).setReg _ _ hr).setReg _ _ hr

/-- Accesses that waited for a slot abort where its sector is not confirmed (R297). -/
theorem Keeps.slotUnconfirmed (h : Keeps ps c d) (slot : Nat) (hr : .regs ∈ ps) (hc : .cpu ∈ ps) :
    Keeps ps c (d.slotDecided slot false) :=
  .ite (fun _ => h) fun _ => .foldl _ _ (fun _ _ _ h => h.coreAbort _ _ _ hr) (h.withCpu _ hc)

theorem Keeps.rdDone (h : Keeps ps c d) (a : Act) (tag : Nat) (reject : Bool) (hr : .regs ∈ ps) (hp : .pwr ∈ ps) :
    Keeps ps c (d.rdDone a tag reject) :=
  .ite (fun _ => ((h.setReg _ _ hr).raise _ _ hr hp).raise _ _ hr hp) fun _ => (h.setReg _ _ hr).raise _ _ hr hp

theorem Keeps.endRead (h : Keeps mediaParts c d) (a : Act) (w : DescWords) (by_ : DescBy) (is : List Nat) :
    Keeps mediaParts c (d.endRead a w by_ is) := by
  refine Keeps.rdDone (Keeps.mapChan (.foldl _ _ (fun d i _ h => ?_) h) a _ (by decide) (by decide)) a _ _ (by decide)
    (by decide)
  exact (h.step ((Keeps.refl accessParts _).writeRange _ _) (by decide)).slotUnconfirmed _ (by decide) (by decide)

theorem Keeps.endRunningRead (h : Keeps mediaParts c d) (a : Act) : Keeps mediaParts c (d.endRunningRead a) := by
  unfold Chip.endRunningRead
  split
  · exact (h.mapChan a _ (by decide) (by decide)).endRead _ _ _ _
  · exact h

theorem Keeps.endOrphans (h : Keeps mediaParts c d) (a : Act) : Keeps mediaParts c (d.endOrphans a) := by
  unfold Chip.endOrphans
  refine .foldl _ _ (fun d e _ h => h.endRead _ _ _ _) (Keeps.mapChan ?_ a _ (by decide) (by decide))
  split
  · exact .ite (fun _ => h.endRunningRead a) fun _ => h
  · exact h

theorem Keeps.ladderStopped (h : Keeps mediaParts c d) : Keeps mediaParts c d.ladderStopped :=
  (((h.endOrphans .A).endOrphans .B).step (keeps_runChannel .A) (by decide)).step (keeps_runChannel .B) (by decide)

end Sys2Proof.Machine
end

section
/-! ## Abort, events, firmware, self-test and temperature (R117 to R119, R135 to R138, O31) -/

namespace Sys2Proof.Machine

open Sys2Proof

variable {c d : Chip} {ps : List ChipPart} {i cid : Nat} {x : InCmd}

theorem CompletesThen.imp {i : Instr} {s : State} {P Q : Chip → Prop} (h : CompletesThen i s P) (hi : ∀ d, P d → Q d) :
    CompletesThen i s Q :=
  let ⟨d, hd, hP⟩ := h
  ⟨d, hd, hi d hP⟩

/-! ### Abort -/

/-- The Aborts of a controller fetched before another and still undecided. -/
def Chip.olderAborts (c : Chip) (i : Nat) (x : InCmd) : List InCmd :=
  c.nvq.inflight.filter (fun y => y.cntl == i && y.qid == 0 && y.cmd.opcode == 0x08 && y.result.isNone && y.seq < x.seq)

/-- The command an Abort names. -/
def Chip.named (c : Chip) (i : Nat) (x : InCmd) : Option InCmd :=
  c.nvq.find i (x.cmd.cdw10 % 65536) (x.cmd.cdw10 / 65536)

/-- A command no Abort can abort: an event request or an Abort. -/
def InCmd.unabortable (y : InCmd) : Bool := y.isAer || (y.qid == 0 && y.cmd.opcode == 0x08)

section
variable (h : c.admin i cid 0x08 = some x) {wins : Bool}
include h

theorem abort_many (ho : 4 ≤ (c.olderAborts i x).length) : abort c i cid wins = c.finish (x.status 1 0x03 true) := by
  simp only [abort, h]
  exact if_pos ho

variable (ho : (c.olderAborts i x).length < 4)
include ho

theorem abort_nothing (hn : c.named i x = none ∨ ∃ y, c.named i x = some y ∧ y.unabortable = true) :
    abort c i cid wins = c.finish { x.ok with dw0 := 1 } := by
  simp only [abort, h]
  refine (if_neg (Nat.not_le_of_lt ho)).trans ?_
  obtain hn | ⟨y, hn, hy⟩ := hn <;> rw [Chip.named] at hn <;> rw [hn]
  exact if_pos hy

variable {y : InCmd} (hn : c.named i x = some y) (hy : y.unabortable = false)
include hn hy

theorem abort_loses (hl : y.result.isSome = true ∨ wins = false) :
    abort c i cid wins = (c.bump R.NVQ_ABORT_LOST).finish { x.ok with dw0 := 1 } := by
  simp only [abort, h]
  refine (if_neg (Nat.not_le_of_lt ho)).trans ?_
  rw [Chip.named] at hn
  rw [hn]
  exact (if_neg (ne_true_of_eq_false hy)).trans (if_pos (by obtain hl | hl := hl <;> simp [hl]))

theorem abort_wins (hr : y.result = none) (hw : wins = true) : abort c i cid wins =
    (((c.discard y).dropReader (.host y.cntl y.qid y.cid)).finish (y.status 0 0x07 false)).finish x.ok := by
  simp only [abort, h]
  refine (if_neg (Nat.not_le_of_lt ho)).trans ?_
  rw [Chip.named] at hn
  rw [hn]
  exact (if_neg (ne_true_of_eq_false hy)).trans (if_neg (by simp [hr, hw]))

end

theorem InCmd.unabortable_false {y : InCmd} (h1 : y.isAer = false) (h2 : ¬(y.qid = 0 ∧ y.cmd.opcode = 0x08)) :
    y.unabortable = false := by
  simpa [InCmd.unabortable, h1] using h2

theorem InCmd.unabortable_true {y : InCmd} (h : y.isAer = true ∨ (y.qid = 0 ∧ y.cmd.opcode = 0x08)) :
    y.unabortable = true := by
  simpa [InCmd.unabortable] using h

theorem abort_completes {s : State} {i : Fin 2} {wins : Bool} {d : Chip} {P : Chip → Prop} (h : abort s.chip i.val cid wins = d)
    (hP : P d.ladderStopped) : CompletesThen (.abort i cid wins) s P :=
  completesThen_eq rfl (congrArg Chip.ladderStopped h) hP

/-! ### Asynchronous events -/

/-- The outstanding event requests of a controller. -/
def Chip.outstanding (c : Chip) (i : Nat) : List InCmd :=
  c.nvq.inflight.filter (fun y => y.cntl == i && y.isAer && y.phase == .working && y.result.isNone)

section
variable (ha : c.alive = true) (hh : c.inHoldup = false) (h : c.nvq.find i 0 cid = some x) (hx : x.isAer = true)
  (hp : x.phase = .fetched) (hr : x.result = none)
include ha hh h hx hp hr

theorem asyncEventRequest_eq : asyncEventRequest c i cid =
    if 8 ≤ (c.outstanding i).length then c.finish (x.status 1 0x05 true)
    else match (c.nvq.cntl i).notices with
      | n :: ns => (c.mapCntl i (fun y => { y with notices := ns })).finish { x.ok with dw0 := n }
      | [] => c.mapCmd x.seq (fun y => { y with phase := .working }) := by
  simp only [asyncEventRequest, ha, hh, h, hx, hp, hr]
  rfl

end

/-- Interrupts leave a controller's notices. -/
theorem Signalled.notices {i : Nat} (h : Signalled i c d) (j : Nat) : (d.nvq.cntl j).notices = (c.nvq.cntl j).notices := by
  obtain ⟨y, ms, rfl, hy, -⟩ := h
  simp only [Nvq.cntl_setCntl]
  split
  · next hij =>
    rw [Cntl.Signalled] at hy
    rw [hy, show c.nvq.cntl i = c.nvq.cntl j by simp only [Nvq.cntl, hij]]
  · rfl

theorem Chip.notices_finish (c : Chip) (r : Completion) (j : Nat) :
    ((c.finish r).nvq.cntl j).notices = (c.nvq.cntl j).notices := by
  unfold Chip.finish
  split
  · rfl
  · split
    · rfl
    · dsimp only
      split
      · rfl
      · exact (Chip.postQueue_eq _ _ _).notices j

/-! ### Firmware -/

theorem firmwareImageDownload_eq (h : c.admin i cid 0x11 = some x) : firmwareImageDownload c i cid =
    if x.cmd.cdw11 % 1024 ≠ 0 ∨ (x.cmd.cdw10 + 1) % 1024 ≠ 0 ∨ 524288 < x.cmd.cdw10 + 1 ∨
        2097152 < x.cmd.cdw11 + (x.cmd.cdw10 + 1) then c.fail x stInvalidField
    else (c.storeImage (4 * x.cmd.cdw11) (x.cmd.data.take (4 * (x.cmd.cdw10 + 1)))).finish x.ok := by
  simp only [firmwareImageDownload, h]

section
variable (h : c.admin i cid 0x10 = some x) {good : Bool}
include h

theorem firmwareCommit_slot (hca : x.cmd.cdw10 / 8 % 8 ≤ 3) (h1 : x.cmd.cdw10 % 8 ≠ 1) (h2 : x.cmd.cdw10 % 8 ≠ 2) :
    firmwareCommit c i cid good = c.finish (x.status 1 0x06 true) := by
  simp only [firmwareCommit, h]
  exact (if_neg (Nat.not_lt.2 hca)).trans (if_pos ⟨h1, h2⟩)

variable (hs : x.cmd.cdw10 % 8 = 1 ∨ x.cmd.cdw10 % 8 = 2)
include hs

theorem firmwareCommit_bad (hca : x.cmd.cdw10 / 8 % 8 ∈ [0, 1, 3]) (hb : c.imageStep c.downloaded good ≠ 0) :
    firmwareCommit c i cid good = c.finish (x.status 1 0x07 true) := by
  simp only [List.mem_cons, List.not_mem_nil, or_false] at hca
  simp only [firmwareCommit, h]
  rw [if_neg (by omega), if_neg (by omega), if_neg (by omega), if_pos hb]
  rfl

theorem firmwareCommit_stores (hca : x.cmd.cdw10 / 8 % 8 ∈ [0, 1, 3]) (hb : c.imageStep c.downloaded good = 0) :
    let slot := x.cmd.cdw10 % 8
    let d := c.storeSlot slot c.downloaded
    let e := d.activateNext slot
    firmwareCommit c i cid good =
      if x.cmd.cdw10 / 8 % 8 = 0 then d.finish x.ok
      else if x.cmd.cdw10 / 8 % 8 = 1 then e.fail x (1, 0x11, false)
      else (({ e with nvq := { e.nvq with activating := some (i, 0, cid) } } : Chip).mapCmd x.seq
        (fun y => { y with phase := .working })).notice 9 noticeFwStart := by
  simp only [List.mem_cons, List.not_mem_nil, or_false] at hca
  simp only [firmwareCommit, h]
  rw [if_neg (by omega), if_neg (by omega), if_neg (by omega), if_neg (by simp [hb])]
  obtain hca | hca | hca := hca <;> rw [hca] <;> rfl

/-- The image is stored, and the slot named and the activation begun as the action asks. -/
theorem firmwareCommit_good (hca : x.cmd.cdw10 / 8 % 8 ∈ [0, 1, 3]) (hb : c.imageStep c.downloaded good = 0) :
    ∃ d, Posts d (firmwareCommit c i cid good) ∧ d.out = (c.storeSlot (x.cmd.cdw10 % 8) c.downloaded).out ∧
      Keeps [.nvq, .out] c d ∧
      d.nvq.fwSlot1 = (if x.cmd.cdw10 % 8 = 1 then leAt c.downloaded 8 4 else c.nvq.fwSlot1) ∧
      d.nvq.fwSlot2 = (if x.cmd.cdw10 % 8 = 2 then leAt c.downloaded 8 4 else c.nvq.fwSlot2) ∧
      d.nvq.image = [] ∧ d.nvq.fwRunning = c.nvq.fwRunning ∧
      d.nvq.fwNext = (if x.cmd.cdw10 / 8 % 8 = 0 then c.nvq.fwNext else x.cmd.cdw10 % 8) ∧
      d.nvq.activating = (if x.cmd.cdw10 / 8 % 8 = 3 then some (i, 0, cid) else c.nvq.activating) := by
  have hk : Keeps [.nvq, .out] c (c.storeSlot (x.cmd.cdw10 % 8) c.downloaded) :=
    ((Keeps.refl _ c).withNvq _ (by decide)).emit _ (by decide)
  have hk' (d : Chip) (hd : Keeps [.nvq, .out] c d) (n : Nvq) : Keeps [.nvq, .out] c { d with nvq := n } :=
    hd.withNvq n (by decide)
  rw [firmwareCommit_stores h hs hca hb]
  simp only [List.mem_cons, List.not_mem_nil, or_false] at hca
  obtain hca | hca | hca := hca <;> rw [hca]
  · exact ⟨_, posts_finish _ _, rfl, hk, rfl, rfl, rfl, rfl, rfl, rfl⟩
  · exact ⟨_, posts_finish _ _, rfl, hk' _ hk _, rfl, rfl, rfl, rfl, rfl, rfl⟩
  · exact ⟨_, (posts_mapCmd _ _ _).trans (posts_notice _ _ _), rfl, hk' _ (hk' _ hk _) _, rfl, rfl, rfl, rfl, rfl, rfl⟩

theorem firmwareCommit_activate (hca : x.cmd.cdw10 / 8 % 8 = 2)
    (hv : (if x.cmd.cdw10 % 8 = 1 then c.nvq.fwSlot1 else c.nvq.fwSlot2) ≠ 0) :
    firmwareCommit c i cid good = (c.activateNext (x.cmd.cdw10 % 8)).finish x.ok := by
  simp only [firmwareCommit, h]
  rw [if_neg (by omega), if_neg (by omega), if_pos hca, if_neg hv]

end

theorem fwActivationTimeout_eq {q k : Nat} (ha : c.alive = true) (hh : c.inHoldup = false)
    (h : c.nvq.activating = some (i, q, k)) : fwActivationTimeout c =
      (({ c with nvq := { c.nvq with activating := none, fwNext := 0 } } : Chip).finish
        { cntl := i, qid := q, cid := k, sct := 1, sc := 0x12 }).raise 0x11 2 := by
  simp only [fwActivationTimeout, ha, hh, h]
  rfl

/-! ### Device Self-test -/

section
variable (h : c.admin i cid 0x14 = some x)
include h

theorem selfTest_starts (hs : x.cmd.cdw10 % 16 = 1 ∨ x.cmd.cdw10 % 16 = 2) (hn : c.nvq.selfTest = 0) :
    deviceSelfTest c i (.command cid) =
      ({ c.leaveRest with nvq := { c.leaveRest.nvq with selfTest := x.cmd.cdw10 % 16 } } : Chip).finish x.ok := by
  simp only [deviceSelfTest, selfTestCommand, h]
  rw [if_neg (by omega), if_neg (by omega), if_neg (by simp [hn])]

theorem selfTest_runs (hs : x.cmd.cdw10 % 16 = 1 ∨ x.cmd.cdw10 % 16 = 2) (hn : c.nvq.selfTest ≠ 0) :
    deviceSelfTest c i (.command cid) = c.finish (x.status 1 0x1D true) := by
  simp only [deviceSelfTest, selfTestCommand, h]
  rw [if_neg (by omega), if_neg (by omega), if_pos hn]
  rfl

theorem selfTest_stops (hs : x.cmd.cdw10 % 16 = 15) :
    deviceSelfTest c i (.command cid) = (c.selfTestEnds 1).finish x.ok := by
  simp only [deviceSelfTest, selfTestCommand, h]
  exact if_pos hs

theorem selfTest_other (hs : x.cmd.cdw10 % 16 ∉ [1, 2, 15]) :
    deviceSelfTest c i (.command cid) = c.fail x stInvalidField := by
  simp only [List.mem_cons, List.not_mem_nil, or_false, not_or] at hs
  simp only [deviceSelfTest, selfTestCommand, h]
  rw [if_neg hs.2.2, if_pos ⟨hs.1, hs.2.1⟩]

end

theorem selfTest_selfTestEnds (c : Chip) (n : Nat) : (c.selfTestEnds n).nvq.selfTest = 0 := by
  unfold Chip.selfTestEnds
  dsimp only
  split
  · assumption
  · rfl

theorem selfResults_selfTestEnds (h : c.nvq.selfTest ≠ 0) (n : Nat) :
    (c.selfTestEnds n).nvq.selfResults.head? = some (c.nvq.selfTest, n) := by
  unfold Chip.selfTestEnds
  rw [if_neg h]
  rfl

theorem keeps_selfTestEnds (c : Chip) (n : Nat) : Keeps [.nvq] c (c.selfTestEnds n) :=
  .ite (fun _ => .refl _ _) fun _ => (Keeps.refl _ _).withNvq _ (by decide)

theorem temperatureThresholdCrossed_eq (ha : c.alive = true) (hh : c.inHoldup = false) (temp : Nat) (high : Bool) :
    temperatureThresholdCrossed c temp high =
      ({ c with loc := { c.loc with temp := temp } } : Chip).notice 1 noticeTemp := by
  simp [temperatureThresholdCrossed, ha, hh]

theorem abort_clause (s : State) (i : Fin 2) (cid : Nat) (wins : Bool) (x : InCmd)
    (h : s.chip.admin i.val cid 0x08 = some x) :
    (4 ≤ (s.chip.olderAborts i.val x).length → CompletesThen (.abort i cid wins) s (fun d =>
      d = (s.chip.finish (x.status 1 0x03 true)).ladderStopped)) ∧
    ((s.chip.olderAborts i.val x).length < 4 →
      (s.chip.named i.val x = none ∨ (∃ y, s.chip.named i.val x = some y ∧
          (y.isAer = true ∨ (y.qid = 0 ∧ y.cmd.opcode = 0x08))) →
        CompletesThen (.abort i cid wins) s (fun d => d = (s.chip.finish { x.ok with dw0 := 1 }).ladderStopped)) ∧
      (∀ y, s.chip.named i.val x = some y → y.isAer = false → ¬(y.qid = 0 ∧ y.cmd.opcode = 0x08) →
        (y.result ≠ none ∨ wins = false → CompletesThen (.abort i cid wins) s (fun d =>
          d = ((s.chip.bump R.NVQ_ABORT_LOST).finish { x.ok with dw0 := 1 }).ladderStopped)) ∧
        (y.result = none → wins = true → CompletesThen (.abort i cid wins) s (fun d =>
          d = ((((s.chip.discard y).dropReader (.host y.cntl y.qid y.cid)).finish (y.status 0 0x07 false)).finish
            x.ok).ladderStopped ∧
          Keeps mediaParts s.chip d)))) := by
  refine ⟨fun ho => abort_completes (abort_many h ho) rfl, fun ho => ⟨fun hn => ?_, fun y hn h1 h2 => ⟨fun hl => ?_, fun hr hw => ?_⟩⟩⟩
  · refine abort_completes (abort_nothing h ho (hn.imp_right ?_)) rfl
    exact fun ⟨y, hy, hu⟩ => ⟨y, hy, InCmd.unabortable_true hu⟩
  · exact abort_completes (abort_loses h ho hn (InCmd.unabortable_false h1 h2)
      (hl.imp_left Option.isSome_iff_ne_none.2)) rfl
  · refine abort_completes (abort_wins h ho hn (InCmd.unabortable_false h1 h2) hr hw) ⟨rfl, Keeps.ladderStopped ?_⟩
    exact (((((Keeps.refl _ _).discard y (by decide)).step (keeps_dropReader _ _) (by decide)).finish _ (by decide)
      (by decide)).finish _ (by decide) (by decide))

theorem firmwareCommit_clause (s : State) (i : Fin 2) (cid : Nat) (x : InCmd) (good : Bool)
    (h : s.chip.admin i.val cid 0x10 = some x) :
    let c := s.chip
    let slot := x.cmd.cdw10 % 8
    let ca := x.cmd.cdw10 / 8 % 8
    (ca ≤ 3 → slot ≠ 1 → slot ≠ 2 → CompletesThen (.firmwareCommit i cid good) s (fun d =>
      d = c.finish (x.status 1 0x06 true))) ∧
    (slot = 1 ∨ slot = 2 →
      (ca ∈ [0, 1, 3] → c.imageStep c.downloaded good ≠ 0 → CompletesThen (.firmwareCommit i cid good) s (fun d =>
        d = c.finish (x.status 1 0x07 true) ∧ d.nvq.fwSlot1 = c.nvq.fwSlot1 ∧ d.nvq.fwSlot2 = c.nvq.fwSlot2)) ∧
      (ca ∈ [0, 1, 3] → c.imageStep c.downloaded good = 0 → CompletesThen (.firmwareCommit i cid good) s (fun d =>
        d.nvq.fwSlot1 = (if slot = 1 then leAt c.downloaded 8 4 else c.nvq.fwSlot1) ∧
        d.nvq.fwSlot2 = (if slot = 2 then leAt c.downloaded 8 4 else c.nvq.fwSlot2) ∧
        .norProgram (slotBase slot) c.downloaded ∈ d.out ∧ d.nvq.image = [] ∧
        d.nvq.fwRunning = c.nvq.fwRunning ∧ d.nvq.fwNext = (if ca = 0 then c.nvq.fwNext else slot) ∧
        d.nvq.activating = (if ca = 3 then some (i.val, 0, cid) else c.nvq.activating) ∧
        Keeps [.nvq, .out] c d)) ∧
      (ca = 2 → (if slot = 1 then c.nvq.fwSlot1 else c.nvq.fwSlot2) ≠ 0 →
        CompletesThen (.firmwareCommit i cid good) s (fun d =>
          d.nvq.fwNext = slot ∧ d.nvq.fwRunning = c.nvq.fwRunning ∧ Keeps [.nvq, .out] c d))) := by
  intro c slot ca
  refine ⟨fun hca h1 h2 => completesThen_eq rfl (firmwareCommit_slot h hca h1 h2) rfl,
    fun hs => ⟨fun hca hb => ?_, fun hca hb => ?_, fun hca hv => ?_⟩⟩
  · exact completesThen_eq rfl (firmwareCommit_bad h hs hca hb)
      ⟨rfl, (posts_finish _ _).fwSlot1, (posts_finish _ _).fwSlot2⟩
  · obtain ⟨d, hp, ho, hk, h1, h2, h3, h4, h5, h6⟩ := firmwareCommit_good (good := good) h hs hca hb
    refine completesThen_eq rfl rfl ⟨hp.fwSlot1.trans h1, hp.fwSlot2.trans h2, hp.sent.subset ?_, hp.image.trans h3,
      hp.fwRunning.trans h4, hp.fwNext.trans h5, hp.activating.trans h6, hk.trans hp.keeps⟩
    rw [ho]
    exact List.mem_append_right _ List.mem_cons_self
  · have hp := posts_finish (c.activateNext slot) x.ok
    exact completesThen_eq rfl (firmwareCommit_activate h hs hca hv)
      ⟨hp.fwNext, hp.fwRunning, keeps_withNvq_finish _ _ _⟩

theorem selfTest_clause (s : State) (i : Fin 2) (cid : Nat) (x : InCmd) (h : s.chip.admin i.val cid 0x14 = some x) :
    let c := s.chip
    let stc := x.cmd.cdw10 % 16
    ((stc = 1 ∨ stc = 2) → c.nvq.selfTest = 0 → CompletesThen (.deviceSelfTest i (.command cid)) s (fun d =>
      d.nvq.selfTest = stc ∧ (c.sys.mode = .rest → c.sys.trans = none → d.sys.mode = .service) ∧
      Keeps [.regs, .sys, .nvq, .loc, .out] c d)) ∧
    ((stc = 1 ∨ stc = 2) → c.nvq.selfTest ≠ 0 → CompletesThen (.deviceSelfTest i (.command cid)) s (fun d =>
      d = c.finish (x.status 1 0x1D true))) ∧
    (stc = 15 → CompletesThen (.deviceSelfTest i (.command cid)) s (fun d =>
      d.nvq.selfTest = 0 ∧ (c.nvq.selfTest ≠ 0 → d.nvq.selfResults.head? = some (c.nvq.selfTest, 1)) ∧
      Keeps [.nvq, .out] c d)) ∧
    (stc ∉ [1, 2, 15] → CompletesThen (.deviceSelfTest i (.command cid)) s (fun d => d = c.fail x stInvalidField)) := by
  intro c stc
  refine ⟨fun hs hn => ?_, fun hs hn => ?_, fun hs => ?_, fun hs => ?_⟩
  · have hp := posts_finish ({ c.leaveRest with nvq := { c.leaveRest.nvq with selfTest := stc } } : Chip) x.ok
    refine completesThen_eq rfl (selfTest_starts h hs hn) ⟨hp.selfTest, fun hm ht => ?_, ?_⟩
    · rw [hp.keeps.sys (by decide), Chip.leaveRest_eq (.inl ⟨hm, ht⟩)]
      exact congrArg Sys.mode c.sys_enterService
    · exact (((keeps_leaveRest c).mono (by decide)).withNvq _ (by decide)).step hp.keeps (by decide)
  · exact completesThen_eq rfl (selfTest_runs h hs hn) rfl
  · have hp := posts_finish (c.selfTestEnds 1) x.ok
    exact completesThen_eq rfl (selfTest_stops h hs) ⟨hp.selfTest.trans (selfTest_selfTestEnds c 1),
      fun hn => (congrArg List.head? hp.selfResults).trans (selfResults_selfTestEnds hn 1),
      ((keeps_selfTestEnds c 1).mono (by decide)).step hp.keeps (by decide)⟩
  · exact completesThen_eq rfl (selfTest_other h hs) rfl

/-- Settles O31. -/
theorem abortEventsFirmwareAndSelfTest : Obligations.AbortEventsFirmwareAndSelfTest := by
  refine ⟨abort_clause, fun s i cid x ha hh h hx hp hr => ?_, fun s i cid x h => ?_, firmwareCommit_clause,
    fun s i q k ha hh h => ?_, selfTest_clause, fun s i good ha hh hn => ?_, fun s temp high ha hh => ?_⟩
  · intro c outstanding
    have he := asyncEventRequest_eq ha hh h hx hp hr
    refine ⟨fun ho => completesThen_eq rfl (he.trans (if_pos ho)) rfl, fun ho => ⟨fun n ns hn => ?_, fun hn => ?_⟩⟩
    · refine completesThen_eq rfl ((he.trans (if_neg (Nat.not_le_of_lt ho))).trans (by rw [hn])) ⟨rfl, ?_, ?_⟩
      · rw [Chip.notices_finish]
        simp [Chip.mapCntl, Nvq.cntl_setCntl]
      · exact ((Keeps.refl _ c).mapCntl _ _ (by decide)).finish _ (by decide) (by decide)
    · exact completesThen_eq rfl ((he.trans (if_neg (Nat.not_le_of_lt ho))).trans (by rw [hn]))
        ⟨rfl, (Keeps.refl _ c).mapCmd _ _ (by decide)⟩
  · intro n o
    refine ⟨fun h1 h2 h3 h4 => ?_, fun hb => ?_⟩
    · exact completesThen_eq rfl ((firmwareImageDownload_eq h).trans (if_neg (by omega)))
        ⟨rfl, keeps_withNvq_finish _ _ _⟩
    · exact completesThen_eq rfl ((firmwareImageDownload_eq h).trans (if_pos hb)) rfl
  · have hp := posts_finish ({ s.chip with nvq := { s.chip.nvq with activating := none, fwNext := 0 } } : Chip)
      { cntl := i, qid := q, cid := k, sct := 1, sc := 0x12 }
    refine completesThen_eq rfl (fwActivationTimeout_eq ha hh h)
      ⟨hp.activating, hp.fwRunning, Chip.bit_raise _ _ _ (by decide), ?_, ?_⟩
    · exact OnlyRegs.raise 0x11 2 (fun k _ => hp.reg k) (by decide)
    · exact Keeps.raise (((Keeps.refl _ s.chip).withNvq _ (by decide)).step hp.keeps (by decide)) _ _ (by decide) (by decide)
  · refine completesThen_eq (d := s.chip.selfTestEnds (if good then 0 else 6)) rfl ?_
      ⟨selfTest_selfTestEnds _ _, selfResults_selfTestEnds hn _, keeps_selfTestEnds _ _⟩
    simp [deviceSelfTest, ha, hh]
  · have hp := posts_notice ({ s.chip with loc := { s.chip.loc with temp := temp } } : Chip) 1 noticeTemp
    refine completesThen_eq rfl (temperatureThresholdCrossed_eq ha hh temp high) ⟨rfl, ?_, ?_⟩
    · rw [hp.keeps.loc (by decide)]
    · exact ((Keeps.refl _ s.chip).withLoc _ (by decide)).step hp.keeps (by decide)

end Sys2Proof.Machine
end

section
/-! ## The link, configuration requests, BAR0 and SMBus (R48, R110 to R114, R117, R146, O25) -/

namespace Sys2Proof.Machine

open Sys2Proof

variable {c d : Chip} {ps : List ChipPart} {ks : List Nat} {port : Nat}

/-! ### The link -/

theorem Keeps.linkErrors (h : Keeps ps c d) (n : Nat) (u : Bool) (hr : .regs ∈ ps) (hp : .pwr ∈ ps) :
    Keeps ps c (d.linkErrors n u) :=
  .ite (fun _ => (h.addSat _ _ hr).raise _ _ hr hp) fun _ => h.addSat _ _ hr

theorem OnlyRegs.linkErrors (h : OnlyRegs ks c d) (n : Nat) (u : Bool) (hk : R.HIF_CORR_CNT ∈ ks)
    (hi : u = true → pIntStatus 0x10 ∈ ks) : OnlyRegs ks c (d.linkErrors n u) :=
  .ite (fun hu => (h.addSat _ _ hk).raise _ _ (hi hu)) fun _ => h.addSat _ _ hk

theorem linkReg_ne (port : Nat) : linkReg port ≠ R.HIF_CORR_CNT ∧ linkReg port ≠ pIntStatus 0x10 := by
  unfold linkReg
  split <;> decide

/-- The word a link register takes. -/
def linkWord (up : Bool) (speed width : Nat) : Word :=
  if up then BitVec.ofNat 32 (1 + speed % 8 * 2 + width % 16 * 16) else 0

theorem linkWord_fields (up : Bool) {speed width : Nat} (hs : speed < 8) (hw : width < 16) :
    (linkWord up speed width).getLsbD 0 = up ∧ field (linkWord up speed width) 3 1 = (if up then speed else 0) ∧
    field (linkWord up speed width) 7 4 = if up then width else 0 := by
  cases up
  · simp only [linkWord, Bool.false_eq_true, if_false]
    decide
  · have h : ∀ (s : Fin 8) (w : Fin 16), (linkWord true s w).getLsbD 0 = true ∧ field (linkWord true s w) 3 1 = s.val ∧
        field (linkWord true s w) 7 4 = w.val := by decide
    exact h ⟨speed, hs⟩ ⟨width, hw⟩

/-- What the link's report leaves in the registers. -/
def Chip.linkReported (c : Chip) (port : Nat) (l : LinkReport) (speed width : Nat) : Chip :=
  (c.linkErrors l.correctable l.uncorrectable).setLink port l.up (min speed (c.fld R.HIF_PORT 3 1))
    (min width (if c.dual then 1 else 2))

theorem linkChange_eq (ha : c.alive = true) (hb : 3 ≤ c.bootStep) (hp : c.portHere port = true) (l : LinkReport)
    (speed width : Nat) : linkChange c port l speed width = c.linkReported port l speed width := by
  simp [linkChange, ha, hp, Nat.not_lt.2 hb, Chip.linkReported]

theorem Chip.reg_linkErrors_ne (n : Nat) (u : Bool) {k : Nat} (h1 : k ≠ R.HIF_CORR_CNT) (h2 : k ≠ pIntStatus 0x10) :
    (c.linkErrors n u).reg k = c.reg k :=
  OnlyRegs.linkErrors (ks := [R.HIF_CORR_CNT, pIntStatus 0x10]) (.refl _ _) n u (by simp) (by simp) k
    (by simp [h1, h2])

/-- The link register is written, and a change of UP raises its cause. -/
theorem Chip.setLink_eq (port : Nat) (up : Bool) (speed width : Nat) : c.setLink port up speed width =
    if c.bit (linkReg port) 0 = up then c.setReg (linkReg port) (linkWord up speed width)
    else (c.setReg (linkReg port) (linkWord up speed width)).raise 0x10 0 := rfl

theorem Chip.reg_setLink_self (port : Nat) (up : Bool) (speed width : Nat) :
    (c.setLink port up speed width).reg (linkReg port) = linkWord up speed width := by
  rw [Chip.setLink_eq]
  split
  · exact Chip.reg_setReg_self _ _ _
  · rw [Chip.reg_raise_ne _ (linkReg_ne port).2, Chip.reg_setReg_self]

theorem Chip.fld_lt (c : Chip) (k hi lo : Nat) : c.fld k hi lo < 2 ^ (hi + 1 - lo) := Nat.mod_lt _ (by positivity)

theorem Chip.bit_raise_or (c : Chip) (page i n : Nat) (h : c.bit (pIntStatus page) n = true) :
    (c.raise page i).bit (pIntStatus page) n = true := by
  rw [Chip.bit, Chip.reg_raise, if_pos rfl, BitVec.getLsbD_or]
  exact Bool.or_eq_true_iff.2 (.inl h)

theorem linkChange_clause (s : State) (port : Fin 2) (up uncorr : Bool) (corr speed width : Nat)
    (ha : s.chip.alive = true) (hb : 3 ≤ s.chip.bootStep) (hp : s.chip.portHere port.val = true) :
    Completes (.linkChange port ⟨up, corr, uncorr⟩ speed width) s (fun d =>
      d.bit (linkReg port.val) 0 = up ∧
      d.fld (linkReg port.val) 3 1 = (if up then min speed (s.chip.fld R.HIF_PORT 3 1) else 0) ∧
      d.fld (linkReg port.val) 7 4 = (if up then min width (if s.chip.dual then 1 else 2) else 0) ∧
      d.reg R.HIF_CORR_CNT = BitVec.ofNat 32 (min ((s.chip.reg R.HIF_CORR_CNT).toNat + corr) 0xFFFFFFFF) ∧
      (s.chip.bit (linkReg port.val) 0 ≠ up → d.bit (pIntStatus 0x10) 0 = true) ∧
      (uncorr = true → d.bit (pIntStatus 0x10) 4 = true) ∧
      (s.chip.bit (linkReg port.val) 0 = up → uncorr = false →
        OnlyRegs [linkReg port.val, R.HIF_CORR_CNT] s.chip d) ∧
      OnlyRegs [linkReg port.val, R.HIF_CORR_CNT, pIntStatus 0x10] s.chip d ∧ Keeps [.regs, .pwr] s.chip d) := by
  obtain ⟨hl1, hl2⟩ := linkReg_ne port.val
  generalize hspeed : min speed (s.chip.fld R.HIF_PORT 3 1) = sp
  generalize hwidth : min width (if s.chip.dual then 1 else 2) = wd
  have hsp : sp < 8 := hspeed ▸ lt_of_le_of_lt (min_le_right _ _) (s.chip.fld_lt R.HIF_PORT 3 1)
  have hwd : wd < 16 := hwidth ▸ lt_of_le_of_lt (min_le_right _ _) (by split <;> decide)
  obtain ⟨hup, hfs, hfw⟩ := linkWord_fields up hsp hwd
  let e := s.chip.linkErrors corr uncorr
  have hwas : e.bit (linkReg port.val) 0 = s.chip.bit (linkReg port.val) 0 :=
    Chip.bit_of_reg _ (Chip.reg_linkErrors_ne _ _ hl1 hl2) 0
  have hreg : (e.setLink port.val up sp wd).reg (linkReg port.val) = linkWord up sp wd := Chip.reg_setLink_self _ _ _ _
  have hset : (e.setLink port.val up sp wd).reg R.HIF_CORR_CNT = e.reg R.HIF_CORR_CNT :=
    OnlyRegs.setLink (ks := [linkReg port.val, pIntStatus 0x10]) (.refl e _) port.val up sp wd (by simp) (by simp) _
      (by simp only [List.mem_cons, List.not_mem_nil, or_false, not_or]; exact ⟨hl1.symm, by decide⟩)
  have hcnt : e.reg R.HIF_CORR_CNT = BitVec.ofNat 32 (min ((s.chip.reg R.HIF_CORR_CNT).toNat + corr) 0xFFFFFFFF) := by
    have h1 : (s.chip.addSat R.HIF_CORR_CNT corr).reg R.HIF_CORR_CNT = _ := Chip.reg_setReg_self _ _ _
    simp only [e, Chip.linkErrors]
    split
    · rw [Chip.reg_raise_ne _ (by decide), h1]
    · exact h1
  refine completes_eq rfl ((linkChange_eq ha hb hp _ _ _).trans
    (show s.chip.linkReported port.val _ speed width = e.setLink port.val up sp wd by rw [← hspeed, ← hwidth]; rfl)) ?_
  refine ⟨?_, ?_, ?_, hset.trans hcnt, fun hne => ?_, fun hu => ?_, fun heq hu => ?_, ?_, ?_⟩
  · rw [Chip.bit_settle, Chip.bit, hreg, hup]
  · rw [Chip.fld_settle, Chip.fld, hreg, hfs]
  · rw [Chip.fld_settle, Chip.fld, hreg, hfw]
  · rw [Chip.bit_settle, Chip.setLink_eq, if_neg (hwas ▸ hne)]
    exact Chip.bit_raise _ _ _ (by decide)
  · have h4 : e.bit (pIntStatus 0x10) 4 = true := by
      simp only [e, Chip.linkErrors, hu]
      exact Chip.bit_raise _ _ _ (by decide)
    have h4' : (e.setReg (linkReg port.val) (linkWord up sp wd)).bit (pIntStatus 0x10) 4 = true := by
      rw [Chip.bit, Chip.reg_setReg_ne _ _ hl2.symm]
      exact h4
    rw [Chip.bit_settle, Chip.setLink_eq]
    split
    · exact h4'
    · exact Chip.bit_raise_or _ _ _ _ h4'
  · rw [Chip.setLink_eq, if_pos (hwas.trans heq)]
    exact ((OnlyRegs.refl s.chip _).linkErrors corr uncorr (by simp) (by simp [hu])).setReg _ _ (by simp)
  · exact ((OnlyRegs.refl s.chip _).linkErrors corr uncorr (by simp) (by simp)).setLink _ _ _ _ (by simp) (by simp)
  · exact ((Keeps.refl _ s.chip).linkErrors corr uncorr (by decide) (by decide)).setLink _ _ _ _ (by decide) (by decide)

/-! ### Requests of a port -/

theorem pcieRequest_down (hl : c.bit (linkReg port) 0 = false) (q : PcieRequest) : pcieRequest c port q = c := by
  simp [pcieRequest, hl]

section
variable (ha : c.alive = true) (hp : c.portHere port = true) (hl : c.bit (linkReg port) 0 = true)
include ha hp hl

/-- A read of BAR0 is answered with its word. -/
theorem pcieRequest_barRead {o : Nat} {v : Word} (h : c.barRead port o = (v, c)) :
    pcieRequest c port (.barRead o) = c.emit (.config v) := by
  simp [pcieRequest, ha, hp, hl, h]

theorem pcieRequest_barWrite (o : Nat) (v : Word) : pcieRequest c port (.barWrite o v) = c.barWrite port o v := by
  simp [pcieRequest, ha, hp, hl]

/-- The limits and capabilities of R111, and the fixed words of R112. -/
theorem pcieRequest_fixed : ∀ e ∈ ([(.maxPayload, 512), (.maxReadRequest, 4096), (.msixVectors, if c.dual then 33 else 65),
      (.maxRate, c.fld R.HIF_PORT 3 1), (.capability .msix, 1), (.capability .aer, 1), (.capability .ltr, 1),
      (.capability .flr, 1), (.capability .sriov, 0), (.capability .ats, 0), (.capability .cmb, 0),
      (.barRead 0, 0x3C010FFF), (.barRead 4, 0x00400800), (.barRead 8, 0x00020000), (.barRead 0x2000, 0)] :
      List (PcieRequest × Nat)), pcieRequest c port e.1 = c.emit (.config (BitVec.ofNat 32 e.2)) := by
  have h2000 : c.barRead port 0x2000 = (0, c) := by
    unfold Chip.barRead
    rw [if_neg (by decide), if_neg (by decide), if_neg (by omega), if_neg (by decide)]
  simp only [List.forall_mem_cons, List.not_mem_nil, false_imp_iff, implies_true, and_true]
  refine ⟨?_, ?_, ?_, ?_, ?_, ?_, ?_, ?_, ?_, ?_, ?_, pcieRequest_barRead ha hp hl rfl, pcieRequest_barRead ha hp hl rfl,
    pcieRequest_barRead ha hp hl rfl, pcieRequest_barRead ha hp hl h2000⟩ <;>
  simp [pcieRequest, ha, hp, hl, Chip.vectors, PcieCap.present, b2n]

end

/-- CSTS (R117): RDY is bit 0 and CFS bit 1. -/
theorem csts_bits (rdy cfs : Bool) (shst : Nat) : (BitVec.ofNat 32 (b2n rdy + 2 * b2n cfs + 4 * shst)).getLsbD 0 = rdy ∧
    (BitVec.ofNat 32 (b2n rdy + 2 * b2n cfs + 4 * shst)).getLsbD 1 = cfs := by
  simp only [BitVec.getLsbD_ofNat, Nat.testBit_eq_decide_div_mod_eq]
  cases rdy <;> cases cfs <;> simp [b2n] <;> omega

/-- A word of the MSI-X table (R112). -/
theorem Chip.barRead_msix {w : Nat} (hw : w < 4 * c.vectors) (i : Nat) :
    c.barRead i (0x8000 + 4 * w) = (SMap.get msixReset (c.nvq.cntl i).msix w, c) := by
  unfold Chip.barRead
  rw [if_neg (by omega), if_neg (by omega), if_pos (by omega), show (0x8000 + 4 * w - 0x8000) / 4 = w by omega]

theorem Chip.barWrite_outside {o : Nat} (ho : o < 0x8000 ∨ 0x8000 + 16 * c.vectors ≤ o) (i : Nat) (v : Word) :
    c.barWrite i o v = c := if_neg (by omega)

/-- Interrupts leave the MSI-X table. -/
theorem Signalled.msix {i : Nat} (h : Signalled i c d) (j : Nat) : (d.nvq.cntl j).msix = (c.nvq.cntl j).msix :=
  (congrArg Cntl.msix (show d.nvq.cntl j = _ from h.posts.cntls j)).trans rfl

/-- A write to the MSI-X table sets its word; the message that pended on an unmasked vector may leave (R112). -/
theorem Chip.barWrite_msix {w : Nat} (hw : w < 4 * c.vectors) (i : Nat) (v : Word) :
    SMap.get msixReset ((c.barWrite i (0x8000 + 4 * w) v).nvq.cntl i).msix w = v ∧
    Keeps [.nvq, .out] c (c.barWrite i (0x8000 + 4 * w) v) := by
  unfold Chip.barWrite
  rw [if_pos (by omega), show (0x8000 + 4 * w - 0x8000) / 4 = w by omega]
  dsimp only
  have hk (f : Cntl → Cntl) {d : Chip} (h : Keeps [.nvq, .out] c d) : Keeps [.nvq, .out] c (d.mapCntl i f) :=
    h.mapCntl _ _ (by decide)
  have hset : SMap.get msixReset
      ((c.mapCntl i (fun y => { y with msix := SMap.put msixReset y.msix w v })).nvq.cntl i).msix w = v := by
    simp [Chip.mapCntl, Nvq.cntl_setCntl]
  generalize hd : c.mapCntl i (fun y => { y with msix := SMap.put msixReset y.msix w v }) = d at hset ⊢
  have hkd : Keeps [.nvq, .out] c d := hd ▸ hk _ (.refl _ _)
  split
  · have hs := signalled_signal i (w / 4) (d.mapCntl i fun y => { y with pba := y.pba.filter (· != w / 4) })
    refine ⟨?_, (hk _ hkd).trans hs.posts.keeps⟩
    rw [hs.msix]
    simpa [Chip.mapCntl, Nvq.cntl_setCntl] using hset
  · exact ⟨hset, hkd⟩

/-- A read of BAR0 takes at most a free value (R112). -/
theorem Chip.barRead_frame (c : Chip) (i o : Nat) :
    (c.barRead i o).2.out = c.out ∧ Keeps [.out, .freeCtr] c (c.barRead i o).2 := by
  have hfree (w : Nat) : (c.takeFree w).2.out = c.out ∧ Keeps [.out, .freeCtr] c (c.takeFree w).2 :=
    ⟨rfl, (Keeps.refl _ c).takeFree w (by decide)⟩
  have hid : c.out = c.out ∧ Keeps [.out, .freeCtr] c c := ⟨rfl, .refl _ _⟩
  unfold Chip.barRead
  split
  · unfold Chip.nvmeRegister
    dsimp only
    split
    · exact hid
    · exact hid
    · exact hid
    · exact hfree 31
    · exact hid
    · exact hid
    · exact hfree 32
    · exact hfree 32
    · exact hfree 32
    · exact hfree 32
    · exact hid
  · split
    · exact hfree 32
    · split
      · exact hid
      · split
        · exact hid
        · exact hid

/-- A register whose value the model leaves open, and any word of BAR0, is answered with some word. -/
theorem pcieRequest_open (ha : c.alive = true) (hp : c.portHere port = true) (hl : c.bit (linkReg port) 0 = true) {n : Nat}
    {q : PcieRequest} (hq : q ∈ [PcieRequest.other n, .barRead n]) :
    (∃ v, (pcieRequest c port q).out = c.out ++ [.config v]) ∧ Keeps [.out, .freeCtr] c (pcieRequest c port q) := by
  simp only [List.mem_cons, List.not_mem_nil, or_false] at hq
  obtain rfl | rfl := hq
  · have he : pcieRequest c port (.other n) = (c.takeFree 32).2.emit (.config (c.takeFree 32).1) := by
      simp [pcieRequest, ha, hp, hl]
    rw [he]
    exact ⟨⟨_, rfl⟩, ((Keeps.refl _ c).takeFree 32 (by decide)).emit _ (by decide)⟩
  · have he : pcieRequest c port (.barRead n) = (c.barRead port n).2.emit (.config (c.barRead port n).1) := by
      simp [pcieRequest, ha, hp, hl]
    obtain ⟨ho, hk⟩ := c.barRead_frame port n
    rw [he]
    exact ⟨⟨_, congrArg (· ++ [Out.config _]) ho⟩, hk.emit _ (by decide)⟩

/-! ### SMBus -/

/-- The flags of the basic management command (R114). -/
theorem smbusFlags_bits (ready l0 l1 : Bool) :
    (BitVec.ofNat 8 (0xB3 + 0x40 * b2n ready + 8 * b2n l0 + 4 * b2n l1)).getLsbD 6 = ready ∧
    (BitVec.ofNat 8 (0xB3 + 0x40 * b2n ready + 8 * b2n l0 + 4 * b2n l1)).getLsbD 3 = l0 ∧
    (BitVec.ofNat 8 (0xB3 + 0x40 * b2n ready + 8 * b2n l0 + 4 * b2n l1)).getLsbD 2 = l1 := by
  cases ready <;> cases l0 <;> cases l1 <;> decide

section
variable {address offset : Nat} {used : Byte}

theorem smbus_silent (h : c.bit R.HIF_SMB 8 = false ∨ address ≠ c.fld R.HIF_SMB 6 0) :
    smbusBasicManagement c address offset used = c := by
  obtain h | h := h <;> simp [smbusBasicManagement, h]

variable (ha : c.alive = true) (he : c.bit R.HIF_SMB 8 = true)
include ha he

theorem smbus_other (ho : offset ≠ 0) :
    smbusBasicManagement c (c.fld R.HIF_SMB 6 0) offset used = c.emit (.smbus (List.replicate 4 0xFF)) := by
  simp [smbusBasicManagement, ha, he, ho]

theorem smbus_status : smbusBasicManagement c (c.fld R.HIF_SMB 6 0) 0 used =
    c.emit (.smbus [BitVec.ofNat 8 c.smbusFlags, BitVec.ofNat 8 c.criticalWarning, BitVec.ofNat 8 c.loc.temp, used]) := by
  simp [smbusBasicManagement, ha, he]

end

/-- Settles O25. -/
theorem linkConfigurationAndManagementBus : Obligations.LinkConfigurationAndManagementBus := by
  refine ⟨linkChange_clause, fun s port ha hp => ⟨fun hl => ⟨fun e he => ?_, ?_, fun w hw => ?_, fun w v hw => ?_,
    fun o v ho => ?_, fun n q hq => ?_⟩, fun hl q => completes_eq rfl (pcieRequest_down hl q) rfl⟩,
    fun s address offset used ha => ⟨fun he hadr => ?_, fun h => completes_eq rfl (smbus_silent h) rfl⟩⟩
  · exact completes_eq rfl (pcieRequest_fixed ha hp hl e he) ⟨rfl, ((Keeps.refl _ _).emit _ (by decide)).settle⟩
  · obtain ⟨h0, h1⟩ := csts_bits (s.chip.nvq.cntl port.val).rdy (s.chip.nvq.cntl port.val).cfs (s.chip.nvq.cntl port.val).shst
    exact completes_eq rfl (pcieRequest_barRead ha hp hl (o := 0x1C) rfl)
      ⟨⟨_, rfl, h0, h1⟩, ((Keeps.refl _ _).emit _ (by decide)).settle⟩
  · exact completes_eq rfl (pcieRequest_barRead ha hp hl (Chip.barRead_msix hw _))
      ⟨rfl, ((Keeps.refl _ _).emit _ (by decide)).settle⟩
  · obtain ⟨hv, hk⟩ := Chip.barWrite_msix hw port.val v
    exact completes_eq rfl (pcieRequest_barWrite ha hp hl _ v) ⟨hv, hk.settle⟩
  · exact completes_eq rfl ((pcieRequest_barWrite ha hp hl o v).trans (Chip.barWrite_outside ho _ v)) rfl
  · obtain ⟨hv, hk⟩ := pcieRequest_open ha hp hl hq
    exact completes_eq rfl rfl ⟨hv, hk.settle⟩
  · subst hadr
    by_cases ho : offset = 0
    · subst ho
      obtain ⟨h6, h3, h2⟩ := smbusFlags_bits (!(s.chip.nvq.c1.rdy || s.chip.nvq.c2.rdy)) (s.chip.bit R.HIF_LINK0 0)
        (s.chip.bit R.HIF_LINK1 0)
      exact completes_eq rfl (smbus_status ha he) ⟨fun _ => ⟨_, h6, h3, h2, rfl⟩, fun h => absurd rfl h,
        ((Keeps.refl _ _).emit _ (by decide)).settle⟩
    · exact completes_eq rfl (smbus_other ha he ho) ⟨fun h => absurd h ho, fun _ => rfl,
        ((Keeps.refl _ _).emit _ (by decide)).settle⟩

end Sys2Proof.Machine
end

section
/-! ## Controllers enabled, reset and shut down (R41, R115, R132, R134, R135, R476, R477, O26) -/

namespace Sys2Proof.Machine

open Sys2Proof

variable {c d : Chip} {ps : List ChipPart} {i : Nat}

/-! ### CC.EN and the controller reset -/

theorem Nvq.cntl_setCntl_other (n : Nvq) (i : Fin 2) (x : Cntl) : (n.setCntl i.val x).cntl (1 - i.val) = n.cntl (1 - i.val) := by
  rw [Nvq.cntl_setCntl, if_neg (by omega)]

theorem Chip.nvq_mapCntl (c : Chip) (i : Nat) (f : Cntl → Cntl) : (c.mapCntl i f).nvq = c.nvq.setCntl i (f (c.nvq.cntl i)) := rfl

/-- The admin queue pair that CC.EN creates. -/
def Nvq.withAdmin (n : Nvq) (i asqs acqs : Nat) : Nvq := { n with
  sqs := n.sqs ++ [{ cntl := i, qid := 0, size := asqs % 4096 + 1, cqid := 0 }]
  cqs := n.cqs ++ [{ cntl := i, qid := 0, size := acqs % 4096 + 1 }] }

/-- The queues once a controller is enabled with its admin queue pair. -/
def Nvq.enabled (n : Nvq) (i asqs acqs : Nat) (ready : Bool) : Nvq :=
  let y := { n.cntl i with en := true, asqs := asqs, acqs := acqs }
  ((n.setCntl i y).withAdmin i asqs acqs).setCntl i { y with rdy := ready }

section
variable {asqs acqs : Nat} (ha : c.alive = true) (hh : c.inHoldup = false) (hp : c.portHere i = true)
  (hl : c.bit (linkReg i) 0 = true) (he : (c.nvq.cntl i).en = false)
include ha hh hp hl he

theorem ccEnSet_bad (h : asqs % 4096 = 0 ∨ acqs % 4096 = 0) : ccEnSet c i asqs acqs =
    (c.mapCntl i (fun y => { y with en := true, asqs := asqs, acqs := acqs })).mapCntl i (fun y => { y with cfs := true }) := by
  simp [ccEnSet, ha, hh, hp, hl, he, h]

theorem ccEnSet_good (h1 : asqs % 4096 ≠ 0) (h2 : acqs % 4096 ≠ 0) : ccEnSet c i asqs acqs =
    { c with nvq := c.nvq.enabled i asqs acqs (c.sys.mode != .boot) } := by
  have h : ¬(asqs % 4096 = 0 ∨ acqs % 4096 = 0) := by tauto
  have hc (x : Cntl) : ((c.nvq.setCntl i x).withAdmin i asqs acqs).cntl i = x := Nvq.cntl_setCntl_self _ _ _
  unfold ccEnSet
  simp only [ha, hh, hp, hl, he, Bool.not_true, Bool.or_self, Bool.false_eq_true, ↓reduceIte, h]
  change Chip.mapCntl { c with nvq := (c.nvq.setCntl i _).withAdmin i asqs acqs } i _ = _
  unfold Chip.mapCntl Nvq.enabled
  dsimp only
  rw [hc]

end

/-- The queues as a reset of a controller leaves them. -/
def Nvq.wiped (n : Nvq) (i : Nat) : Nvq :=
  let m : Nvq := { n with
    inflight := n.inflight.filter (fun x => x.cntl != i)
    sqs := n.sqs.filter (fun q => q.cntl != i)
    cqs := n.cqs.filter (fun q => q.cntl != i)
    activating := n.activating.bind (fun e => if e.1 = i then none else some e) }
  m.setCntl i { msix := (n.cntl i).msix, pba := (n.cntl i).pba }

/-- The chip as a reset leaves it before new firmware becomes active. -/
def Chip.wiped (c : Chip) (i : Nat) : Chip := { c.discardAll i with nvq := c.nvq.wiped i }

theorem Chip.resetController_eq (c : Chip) (i : Nat) : c.resetController i = (c.wiped i).activateAtReset := by
  unfold Chip.resetController Chip.wiped Chip.mapCntl Nvq.wiped
  simp only [Chip.nvq_discardAll]
  cases c.nvq.activating <;> rfl

theorem keeps_wiped (c : Chip) (i : Nat) : Keeps [.nvq, .loc] c (c.wiped i) :=
  ((Keeps.refl _ c).discardAll i (by decide) (by decide)).withNvq _ (by decide)

theorem Chip.activateAtReset_idle (h : c.nvq.fwNext = 0) : c.activateAtReset = c := if_pos (.inl h)

theorem Chip.nvq_activateAtReset (c : Chip) : ∃ k m, c.activateAtReset.nvq = { c.nvq with fwRunning := k, fwNext := m } ∧
    (c.nvq.fwNext ≠ 0 → c.nvq.activating = none → k = c.nvq.fwNext ∧ m = 0) := by
  unfold Chip.activateAtReset
  split
  · next h =>
    refine ⟨c.nvq.fwRunning, c.nvq.fwNext, rfl, fun h0 hn => ?_⟩
    simp [h0, hn] at h
  · exact ⟨c.nvq.fwNext, 0, ((Keeps.refl [.mram] _).writeBootRecord _ _ _ _ _ (by decide)).nvq (by decide), fun _ _ => ⟨rfl, rfl⟩⟩

theorem Nvq.setCntl_fields (n : Nvq) (i : Nat) (x : Cntl) : (n.setCntl i x).staging = n.staging ∧
    (n.setCntl i x).fwNext = n.fwNext ∧ (n.setCntl i x).fwRunning = n.fwRunning ∧
    (n.setCntl i x).activating = n.activating := by
  unfold Nvq.setCntl
  split <;> exact ⟨rfl, rfl, rfl, rfl⟩

/-! ### The end of the writes (R325, R328, R334, R474)

An abrupt shutdown changes these parts. -/

/-- The parts that the sequence of an abrupt shutdown may change. -/
def shutdownParts : List ChipPart := [.regs, .evr, .mram, .jnl, .nvq, .loc, .bcl, .sec, .seg, .nand, .nfc, .mem, .pwr,
  .assistSaved, .chanA, .chanB, .out, .freeCtr]

/-- An operation of the location tables or the journal. -/
theorem Keeps.op {e : Chip} (h : Keeps ps c d) (g : OpFrame d e) (hs : opParts ⊆ ps) : Keeps ps c e := h.step g.keeps hs

theorem opFrame_landUnit (c : Chip) (taken zone unit : Nat) : OpFrame c (c.landUnit taken zone unit) :=
  (OpFrame.refl c).setNvq _ rfl

theorem OpFrame.stampZone (h : OpFrame c d) (zone temp : Nat) (first : Bool) : OpFrame c (d.stampZone zone temp first) :=
  h.setZone _ _

theorem OpFrame.redirect (h : OpFrame c d) (a : Act) (zone unit csec : Nat) : OpFrame c (d.redirect a zone unit csec) :=
  .ite (fun _ => ((h.setLoc _).setBit _ _ _ (by decide)).raise _ _ (by decide)) fun _ =>
    .ite (fun _ => h.setLoc _) fun _ => h.commit _ _ _

theorem opFrame_landZone (c : Chip) (a : Act) (w : DescWords) (taken temp zone unit : Nat) :
    OpFrame c (c.landZone a w taken temp zone unit) :=
  .ite (fun _ => (opFrame_landUnit _ _ _ _).stampZone _ _ _) fun _ =>
    .ite (fun _ => (OpFrame.refl c).stampZone _ _ _) fun _ =>
      .ite (fun _ => .refl c) fun _ => ((opFrame_landUnit _ _ _ _).setZone _ _).stampZone _ _ _

theorem opFrame_landCache (c : Chip) (a : Act) (taken temp : Nat) (seed : Nat × Nat × Nat) :
    OpFrame c (c.landCache a taken temp seed) := by
  have h : OpFrame c (((({ c with loc := c.loc.advanceMc a } : Chip).clearStale a (c.loc.mcNext a))).stampZone _ temp _) :=
    (((OpFrame.refl c).setLoc _).clearStale a _).stampZone
      ((({ c with loc := c.loc.advanceMc a } : Chip).clearStale a (c.loc.mcNext a)).mcZone a (c.loc.mcNext a)) temp
      (c.loc.mcNext a % 65536 == 0)
  exact .ite (fun _ => h.markStale _ _) fun _ => (h.trans (opFrame_landUnit _ _ _ _)).redirect _ _ _ _

theorem opFrame_landed (c : Chip) (a : Act) (r : WrRun) : OpFrame c (c.landed a r) :=
  .ite (fun _ => .refl c) fun _ => .foldl _ (fun _ _ h => .ite (fun _ => h.trans (opFrame_landCache _ _ _ _ _)) fun _ =>
    .ite (fun _ => h) fun _ => h.trans (opFrame_landZone _ _ _ _ _ _ _)) _ (.refl c)

theorem Keeps.wrRecord (h : Keeps ps c d) (a : Act) (r : WrRun) (result : Nat) (hs : accessParts ⊆ ps) :
    Keeps ps c (d.wrRecord a r result) := by
  have k : Keeps accessParts d (d.wrRecord a r result) := by
    have last {e : Chip} (h : Keeps accessParts d e) : Keeps accessParts d
        (if result = 3 then e.raise (chanPage a 0x21) 4 else e) :=
      .ite (fun _ => h.raise _ _ (by decide) (by decide)) fun _ => h
    have poison {e : Chip} (h : Keeps accessParts d e) : Keeps accessParts d (if r.poisoned.isEmpty then e
        else (e.event (actCode a 0x4003) [r.words.tag, r.poisoned.length]).raise (chanPage a 0x21) 3) :=
      .ite (fun _ => h) fun _ => (h.event _ _ (by decide) (by decide) (by decide)).raise _ _ (by decide) (by decide)
    exact last (poison (((((Keeps.refl _ d).writeRange _ _).writeRange _ _).setReg _ _ (by decide)).raise _ _ (by decide)
      (by decide)))
  exact h.step k hs

theorem Keeps.endWrite (h : Keeps shutdownParts c d) (a : Act) (r : WrRun) (result : Nat) :
    Keeps shutdownParts c (d.endWrite a r result) :=
  ((((h.addSat _ _ (by decide)).mapChan a _ (by decide) (by decide)).wrRecord a _ result (by decide))).op
    (opFrame_landed _ _ _) (by decide)

theorem Keeps.endQueuedWrites (h : Keeps shutdownParts c d) (a : Act) (p : DescWords → Bool) (result : Nat) :
    Keeps shutdownParts c (d.endQueuedWrites a p result) :=
  .foldl _ _ (fun _ _ _ h => h.wrRecord a _ result (by decide)) (h.mapChan a _ (by decide) (by decide))

theorem Keeps.endWrites (h : Keeps shutdownParts c d) (a : Act) : Keeps shutdownParts c (d.endWrites a) := by
  refine Keeps.endQueuedWrites ?_ a _ 2
  split
  · exact h.endWrite a _ 2
  · exact h

theorem Keeps.cipher (h : Keeps ps c d) (a : Act) (r : WrRun) (i typ : Nat) (hf : .freeCtr ∈ ps) :
    Keeps ps c (d.cipher a r i typ).2 := by
  unfold Chip.cipher
  dsimp only
  split
  · exact h
  · split
    · exact h.takeFree _ hf
    · dsimp only
      split
      · exact h.takeFree _ hf
      · exact h

theorem Keeps.sectorWritten (h : Keeps ps c d) (a : Act) (r : WrRun) (i : Nat) (hf : .freeCtr ∈ ps) (ho : .out ∈ ps) :
    Keeps ps c (d.sectorWritten a r i).1 := (h.cipher a r i _ hf).emit _ ho

theorem Keeps.holdupWrites (h : Keeps shutdownParts c d) (a : Act) : Keeps shutdownParts c (d.holdupWrites a) := by
  refine Keeps.endWrites ?_ a
  split
  · split
    · refine Keeps.mapChan ?_ a _ (by decide) (by decide)
      split
      · exact h.sectorWritten a _ _ (by decide) (by decide)
      · exact h
    · exact h
  · exact h

/-- The save set is built and programmed; SAVE_COMMIT is still to come (R474). -/
def Chip.saveBegun (c : Chip) : Chip := { c with
  nand := { c.nand with saves := c.nand.saves ++ [c.buildSave], nextSet := (c.nand.nextSet + 1) % 2 ^ 32 }
  nfc := { c.nfc with saving := false, restoredSet := none } }

theorem Keeps.saveStaging (h : Keeps shutdownParts c d) (page duration : Nat) :
    Keeps shutdownParts c (d.saveStaging page duration) :=
  have h1 : Keeps shutdownParts c d.saveBegun := (h.withNand d.saveBegun.nand (by decide)).withNfc d.saveBegun.nfc (by decide)
  ((h1.op ((OpFrame.refl _).commit .nfc _ []) (by decide)).setReg _ _ (by decide)).raise 0x48 0 (by decide) (by decide)

/-! ### Shutdown (R134, R476, R477) -/

theorem Chip.undecided_mapCntl (c : Chip) (i : Nat) (f : Cntl → Cntl) : (c.mapCntl i f).nvq.undecided = c.nvq.undecided :=
  congrArg (List.filter _) (Nvq.inflight_setCntl _ _ _)

/-- The sequence of an abrupt shutdown once every command is decided (R476). -/
def Chip.abruptSequence (c : Chip) (page : Nat) : Chip :=
  let c := (c.holdupWrites .A).holdupWrites .B
  let c := if c.jnl.failed then c else ((c.writeGroup0 1).saveOnTimes).writeWear
  if c.nvq.staging.isEmpty then c else (c.saveStaging page 0).keepSave c.nand.nextSet

theorem Keeps.abruptSequence (h : Keeps shutdownParts c d) (page : Nat) : Keeps shutdownParts c (d.abruptSequence page) := by
  have h1 := (h.holdupWrites .A).holdupWrites .B
  have h2 := Keeps.ite (p := ((d.holdupWrites .A).holdupWrites .B).jnl.failed) (fun _ => h1) fun _ =>
    ((h1.writeGroup0 1 (by decide)).saveOnTimes (by decide) (by decide)).writeWear (by decide)
  exact .ite (fun _ => h2) fun _ => (h2.saveStaging page 0).withNfc _ (by decide)

theorem shutdownNormal_eq (ha : c.alive = true) (hh : c.inHoldup = false) (hr : (c.nvq.cntl i).rdy = true) :
    shutdownNormal c i = c.mapCntl i (fun y => { y with shst := if y.shst = 2 then 2 else 1 }) := by
  simp [shutdownNormal, ha, hh, hr]

section
variable {page : Nat} (ha : c.alive = true) (hh : c.inHoldup = false) (hr : (c.nvq.cntl i).rdy = true)
  (hs : (c.nvq.cntl i).shst ≠ 2)
include ha hh hr hs

theorem shutdownAbrupt_waits (hx : ∃ x ∈ c.nvq.undecided, x.cntl = i) :
    shutdownAbrupt c i page = c.mapCntl i (fun y => { y with shst := 1, abrupt := true }) := by
  have he : (c.nvq.undecided.filter (fun x => x.cntl == i)).isEmpty = false := by
    obtain ⟨x, hm, hc⟩ := hx
    simp only [List.isEmpty_eq_false_iff, ne_eq, List.filter_eq_nil_iff, not_forall]
    exact ⟨x, hm, by simp [hc]⟩
  simp [shutdownAbrupt, ha, hh, hr, hs, Chip.undecided_mapCntl, he]

theorem shutdownAbrupt_ends (hx : ∀ x ∈ c.nvq.undecided, x.cntl ≠ i) : shutdownAbrupt c i page =
    ((c.mapCntl i (fun y => { y with shst := 1, abrupt := true })).abruptSequence page).mapCntl i
      (fun y => { y with shst := 2 }) := by
  have he : (c.nvq.undecided.filter (fun x => x.cntl == i)).isEmpty = true := by
    simpa [List.filter_eq_nil_iff] using hx
  have hs' : ((c.nvq.cntl i).shst == 2) = false := by simpa using hs
  unfold shutdownAbrupt
  simp only [ha, hh, hr, hs', Bool.not_true, Bool.or_self, Bool.false_eq_true, ↓reduceIte, Chip.undecided_mapCntl, he]
  rfl

end

theorem bclStops_of_abrupt (ha : (c.nvq.cntl i).abrupt = true) : c.bclStops = true := by
  unfold Chip.bclStops
  unfold Nvq.cntl at ha
  split at ha <;> simp [ha]

theorem finishShutdown_ends (h1 : (c.nvq.cntl i).shst = 1) (ha : (c.nvq.cntl i).abrupt = false)
    (hx : ∀ x ∈ c.nvq.undecided, x.cntl ≠ i) (hs : c.nvq.staging = []) (hj : c.jnl.waiting = []) :
    c.finishShutdown i = (if c.jnl.failed then c else c.writeGroup0 1).mapCntl i (fun y => { y with shst := 2 }) := by
  have he : (c.nvq.undecided.filter (fun x => x.cntl == i)).isEmpty = true := by
    simpa [List.filter_eq_nil_iff] using hx
  simp only [Chip.finishShutdown, h1, ha, he, hs, hj]
  rfl

theorem finishShutdown_waits (hx : (∃ x ∈ c.nvq.undecided, x.cntl = i) ∨ c.nvq.staging ≠ [] ∨ c.jnl.waiting ≠ []) :
    c.finishShutdown i = c := by
  refine if_neg fun ⟨_, _, he, hs, hj⟩ => ?_
  rcases hx with ⟨x, hm, hc⟩ | hs' | hj'
  · have := List.filter_eq_nil_iff.1 (List.isEmpty_iff.1 he) x hm
    simp [hc] at this
  · exact hs' (List.isEmpty_iff.1 hs)
  · exact hj' (List.isEmpty_iff.1 hj)

theorem ccEnSet_clause (s : State) (i : Fin 2) (asqs acqs : Nat) (ha : s.chip.alive = true) (hh : s.chip.inHoldup = false)
    (hp : s.chip.portHere i.val = true) (hl : s.chip.bit (linkReg i.val) 0 = true) (he : (s.chip.nvq.cntl i.val).en = false) :
    (asqs % 4096 ≠ 0 → acqs % 4096 ≠ 0 → CompletesThen (.ccEnSet i asqs acqs) s (fun d =>
      (d.nvq.cntl i.val).en = true ∧ (d.nvq.cntl i.val).rdy = (s.chip.sys.mode != .boot) ∧
      d.nvq.sqs = s.chip.nvq.sqs ++ [{ cntl := i.val, qid := 0, size := asqs % 4096 + 1, cqid := 0 }] ∧
      d.nvq.cqs = s.chip.nvq.cqs ++ [{ cntl := i.val, qid := 0, size := acqs % 4096 + 1 }] ∧
      d.nvq.inflight = s.chip.nvq.inflight ∧ d.nvq.cntl (1 - i.val) = s.chip.nvq.cntl (1 - i.val) ∧
      Keeps [.nvq] s.chip d)) ∧
    (asqs % 4096 = 0 ∨ acqs % 4096 = 0 → CompletesThen (.ccEnSet i asqs acqs) s (fun d =>
      (d.nvq.cntl i.val).en = true ∧ (d.nvq.cntl i.val).cfs = true ∧
      (d.nvq.cntl i.val).rdy = (s.chip.nvq.cntl i.val).rdy ∧ d.nvq.sqs = s.chip.nvq.sqs ∧
      d.nvq.cqs = s.chip.nvq.cqs ∧ Keeps [.nvq] s.chip d)) := by
  refine ⟨fun h1 h2 => completesThen_eq rfl (ccEnSet_good ha hh hp hl he h1 h2) ?_,
    fun h => completesThen_eq rfl (ccEnSet_bad ha hh hp hl he h) ?_⟩
  · have hk := (Keeps.refl [.nvq] s.chip).withNvq (s.chip.nvq.enabled i.val asqs acqs (s.chip.sys.mode != .boot)) (by decide)
    refine ⟨?_, ?_, ?_, ?_, ?_, ?_, hk⟩
    · exact congrArg Cntl.en (Nvq.cntl_setCntl_self _ _ _)
    · exact congrArg Cntl.rdy (Nvq.cntl_setCntl_self _ _ _)
    · exact (Nvq.sqs_setCntl _ _ _).trans (congrArg (· ++ _) (Nvq.sqs_setCntl _ _ _))
    · exact (Nvq.cqs_setCntl _ _ _).trans (congrArg (· ++ _) (Nvq.cqs_setCntl _ _ _))
    · exact (Nvq.inflight_setCntl _ _ _).trans (Nvq.inflight_setCntl _ _ _)
    · exact (Nvq.cntl_setCntl_other _ i _).trans (Nvq.cntl_setCntl_other s.chip.nvq i _)
  · have hk := ((Keeps.refl [.nvq] s.chip).mapCntl i.val (fun y => { y with en := true, asqs := asqs, acqs := acqs })
      (by decide)).mapCntl i.val (fun y => { y with cfs := true }) (by decide)
    refine ⟨?_, ?_, ?_, ?_, ?_, hk⟩
    all_goals simp [Chip.mapCntl, Nvq.cntl_setCntl_self, Nvq.sqs_setCntl, Nvq.cqs_setCntl]

theorem resetController_nvq (c : Chip) (i : Fin 2) : ∃ k m, (c.resetController i.val).nvq = { c.nvq.wiped i.val with
      fwRunning := k, fwNext := m } ∧ (c.nvq.fwNext ≠ 0 → c.nvq.activating = none → k = c.nvq.fwNext ∧ m = 0) := by
  obtain ⟨k, m, he, hf⟩ := (c.wiped i.val).nvq_activateAtReset
  obtain ⟨-, hn, -, ha⟩ := Nvq.setCntl_fields { c.nvq with
    inflight := c.nvq.inflight.filter (fun x => x.cntl != i.val)
    sqs := c.nvq.sqs.filter (fun q => q.cntl != i.val)
    cqs := c.nvq.cqs.filter (fun q => q.cntl != i.val)
    activating := c.nvq.activating.bind (fun e => if e.1 = i.val then none else some e) } i.val
    { msix := (c.nvq.cntl i.val).msix, pba := (c.nvq.cntl i.val).pba }
  refine ⟨k, m, (congrArg Chip.nvq (c.resetController_eq i.val)).trans he, fun h0 hx => ?_⟩
  obtain ⟨hk, hm⟩ := hf (hn ▸ h0) (ha.trans (by rw [hx]; rfl))
  exact ⟨hk.trans hn, hm⟩

theorem controllerReset_clause (s : State) (i : Fin 2) (ha : s.chip.alive = true) (hh : s.chip.inHoldup = false) :
    CompletesThen (.controllerReset i) s (fun d =>
      d.nvq.cntl i.val = { msix := (s.chip.nvq.cntl i.val).msix, pba := (s.chip.nvq.cntl i.val).pba } ∧
      d.nvq.cntl (1 - i.val) = s.chip.nvq.cntl (1 - i.val) ∧
      d.nvq.inflight = s.chip.nvq.inflight.filter (fun x => x.cntl != i.val) ∧
      d.nvq.sqs = s.chip.nvq.sqs.filter (fun q => q.cntl != i.val) ∧
      d.nvq.cqs = s.chip.nvq.cqs.filter (fun q => q.cntl != i.val) ∧
      d.nvq.staging = s.chip.nvq.staging ∧
      (s.chip.nvq.fwNext ≠ 0 → s.chip.nvq.activating = none →
        d.nvq.fwRunning = s.chip.nvq.fwNext ∧ d.nvq.fwNext = 0) ∧
      (s.chip.nvq.fwNext = 0 → d.nvq.fwRunning = s.chip.nvq.fwRunning ∧ d.mram = s.chip.mram) ∧
      Keeps [.nvq, .loc, .mram] s.chip d) := by
  obtain ⟨k, m, he, hf⟩ := resetController_nvq s.chip i
  have hk := (Keeps.refl [.nvq, .loc, .mram] s.chip).resetController i.val (by decide) (by decide) (by decide)
  refine completesThen_eq rfl (if_pos (by simp [ha, hh])) ⟨?_, ?_, ?_, ?_, ?_, ?_, ?_, ?_, hk⟩
  · exact (congrArg (Nvq.cntl · i.val) he).trans (Nvq.cntl_setCntl_self _ _ _)
  · exact (congrArg (Nvq.cntl · (1 - i.val)) he).trans (Nvq.cntl_setCntl_other _ i _)
  · exact (congrArg Nvq.inflight he).trans (Nvq.inflight_setCntl _ _ _)
  · exact (congrArg Nvq.sqs he).trans (Nvq.sqs_setCntl _ _ _)
  · exact (congrArg Nvq.cqs he).trans (Nvq.cqs_setCntl _ _ _)
  · exact (congrArg Nvq.staging he).trans (Nvq.setCntl_fields _ _ _).1
  · exact fun h0 hx => ⟨(congrArg Nvq.fwRunning he).trans (hf h0 hx).1, (congrArg Nvq.fwNext he).trans (hf h0 hx).2⟩
  · intro h0
    have hw : s.chip.resetController i.val = s.chip.wiped i.val :=
      (s.chip.resetController_eq i.val).trans (Chip.activateAtReset_idle ((Nvq.setCntl_fields _ _ _).2.1.trans h0))
    exact ⟨(congrArg (fun e : Chip => e.nvq.fwRunning) hw).trans (Nvq.setCntl_fields _ _ _).2.2.1,
      (congrArg Chip.mram hw).trans ((keeps_wiped s.chip i.val).mram (by decide))⟩

/-- Settles O26: CC.EN and a reset through the queues they leave, an abrupt shutdown through the frame of its sequence. -/
theorem controllersAreEnabledResetAndShutDown : Obligations.ControllersAreEnabledResetAndShutDown := by
  unfold Obligations.ControllersAreEnabledResetAndShutDown
  refine ⟨fun s i asqs acqs ha hh hp hl he => ccEnSet_clause s i asqs acqs ha hh hp hl he, fun s i ha hh =>
    ⟨controllerReset_clause s i ha hh, fun hr hs => ?_, fun hr hs page => ⟨fun hx => ?_, fun hx => ?_⟩⟩,
    fun c i h1 hab => ⟨fun hx hs hj => ?_, finishShutdown_waits⟩⟩
  · have hk := (Keeps.refl [.nvq] s.chip).mapCntl i.val (fun y => { y with shst := if y.shst = 2 then 2 else 1 }) (by decide)
    refine completesThen_eq rfl (shutdownNormal_eq ha hh hr) ⟨?_, ?_, hk⟩
    · simp [Chip.mapCntl, hs, Nvq.cntl_setCntl_self]
    · exact Nvq.inflight_setCntl _ _ _
  · have hk := (Keeps.refl [.nvq] s.chip).mapCntl i.val (fun y => { y with shst := 1, abrupt := true }) (by decide)
    refine completesThen_eq rfl (shutdownAbrupt_waits ha hh hr hs hx) ⟨?_, ?_, ?_, hk⟩
    · simp [Chip.mapCntl, Nvq.cntl_setCntl_self]
    · exact bclStops_of_abrupt (i := i.val) (by simp [Chip.mapCntl, Nvq.cntl_setCntl_self])
    · exact Nvq.inflight_setCntl _ _ _
  · have hk := (((Keeps.refl shutdownParts s.chip).mapCntl i.val (fun y => { y with shst := 1, abrupt := true })
      (by decide)).abruptSequence page).mapCntl i.val (fun y => { y with shst := 2 }) (by decide)
    exact completesThen_eq rfl (shutdownAbrupt_ends ha hh hr hs hx)
      ⟨congrArg Cntl.shst (Nvq.cntl_setCntl_self _ _ _), hk⟩
  · rw [finishShutdown_ends h1 hab hx hs hj]
    simp [Chip.mapCntl, Nvq.cntl_setCntl_self]

end Sys2Proof.Machine
end

section
/-! ## Fetching commands (R48, R115, R118, R122, R123, R134, R136, R139, R148, R149, O28) -/

namespace Sys2Proof.Machine

open Sys2Proof

variable {c d : Chip} {ps : List ChipPart} {q : Sq} {h : HostCmd}

/-! ### The checks of a fetched command -/

/-- The checks of R139 read the location tables and the life cycle alone. -/
theorem Chip.fetchCheck_congr (hl : d.loc = c.loc) (hs : d.lcs = c.lcs) (qid : Nat) (h : HostCmd) :
    d.fetchCheck qid h = c.fetchCheck qid h := by
  have hz : d.zonesTouched = c.zonesTouched := by
    unfold Chip.zonesTouched
    rw [hl]
  have hk : d.zone = c.zone := by
    unfold Chip.zone
    rw [hl]
  unfold Chip.fetchCheck Chip.nsOk Chip.nsActive Chip.ioFields
  rw [hz, hk, hl, hs]

/-! ### One command of a queue -/

/-- BINDING of a queue with one more command (R148). -/
def Sq.bindingWith (q : Sq) (h : HostCmd) : Nat := if q.qid = 0 then q.binding else bindingAfter q.binding h.nsid

/-- A submission queue after a fetch from the queue `q`. -/
def Sq.fetched (q : Sq) (b : Nat) (y : Sq) : Sq :=
  if y.cntl = q.cntl ∧ y.qid = q.qid then { y with head := (y.head + 1) % y.size, binding := b } else y

/-- The command in flight that a fetch makes of a host command. -/
def Chip.fetchedCmd (c : Chip) (q : Sq) (h : HostCmd) : InCmd :=
  { cntl := q.cntl, qid := q.qid, cid := h.cid, seq := c.nvq.nextSeq, cmd := h }

/-- The queues once the command is fetched. -/
def Chip.fetchedNvq (c : Chip) (q : Sq) (h : HostCmd) : Nvq := { c.nvq with
  sqs := c.nvq.sqs.map (Sq.fetched q (q.bindingWith h))
  inflight := c.nvq.inflight ++ [c.fetchedCmd q h]
  nextSeq := c.nvq.nextSeq + 1 }

/-- The chip once the command is fetched, before a check decides it. -/
def Chip.fetched (c : Chip) (q : Sq) (h : HostCmd) : Chip :=
  let d := { c with nvq := c.fetchedNvq q h }
  if q.bindingWith h = 3 ∧ q.binding ≠ 3 then d.raise 0x11 1 else d

theorem keeps_fetched (c : Chip) (q : Sq) (h : HostCmd) : Keeps [.nvq, .regs, .pwr] c (c.fetched q h) :=
  have k := (Keeps.refl [.nvq, .regs, .pwr] c).withNvq (c.fetchedNvq q h) (by decide)
  .ite (fun _ => k.raise _ _ (by decide) (by decide)) fun _ => k

theorem onlyRegs_fetched (c : Chip) (q : Sq) (h : HostCmd) : OnlyRegs [pIntStatus 0x11] c (c.fetched q h) :=
  have k : OnlyRegs [pIntStatus 0x11] c { c with nvq := c.fetchedNvq q h } := .of_regs rfl
  .ite (fun _ => k.raise _ _ (by decide)) fun _ => k

theorem nvq_fetched (c : Chip) (q : Sq) (h : HostCmd) : (c.fetched q h).nvq = c.fetchedNvq q h := by
  unfold Chip.fetched
  dsimp only
  split
  · exact ((Keeps.refl [.regs, .pwr] _).raise _ _ (by decide) (by decide)).nvq (by decide)
  · rfl

theorem keeps_fetched_unmixed (hb : ¬(q.bindingWith h = 3 ∧ q.binding ≠ 3)) : Keeps [.nvq, .out] c (c.fetched q h) := by
  rw [Chip.fetched, if_neg hb]
  exact (Keeps.refl _ c).withNvq _ (by decide)

theorem Chip.bit_fetched_mixed (hb : q.bindingWith h = 3) (hq : q.binding ≠ 3) :
    (c.fetched q h).bit (pIntStatus 0x11) 1 = true := by
  rw [Chip.fetched, if_pos ⟨hb, hq⟩]
  exact Chip.bit_raise _ _ _ (by decide)

theorem Chip.fetchCheck_fetched (c : Chip) (q : Sq) (h : HostCmd) :
    (c.fetched q h).fetchCheck q.qid h = c.fetchCheck q.qid h :=
  have k := keeps_fetched c q h
  Chip.fetchCheck_congr (k.loc (by decide)) (k.lcs (by decide)) _ _

theorem Chip.fetchOne_passes (hc : c.fetchCheck q.qid h = none) : c.fetchOne q h = c.fetched q h := by
  have hf := (c.fetchCheck_fetched q h).trans hc
  unfold Chip.fetchOne
  exact (congrArg (fun o : Option Status => match o with
    | some st => (c.fetched q h).fail (c.fetchedCmd q h) st
    | none => c.fetched q h) hf)

theorem Chip.fetchOne_fails {st : Status} (hc : c.fetchCheck q.qid h = some st) :
    c.fetchOne q h = (c.fetched q h).fail (c.fetchedCmd q h) st := by
  have hf := (c.fetchCheck_fetched q h).trans hc
  unfold Chip.fetchOne
  exact (congrArg (fun o : Option Status => match o with
    | some st => (c.fetched q h).fail (c.fetchedCmd q h) st
    | none => c.fetched q h) hf)

theorem posts_fetchOne (c : Chip) (q : Sq) (h : HostCmd) : Posts (c.fetched q h) (c.fetchOne q h) := by
  cases hc : c.fetchCheck q.qid h with
  | none => rw [Chip.fetchOne_passes hc]; exact .refl _
  | some st => rw [Chip.fetchOne_fails hc]; exact posts_finish _ _

/-- A fetch leaves the queue pair of every submission queue, and so the room of its completion queue. -/
theorem Nvq.room_fetched (c : Chip) (q : Sq) (h : HostCmd) (cntl qid : Nat) :
    (c.fetchedNvq q h).room cntl qid = c.nvq.room cntl qid := by
  have hf (y : Sq) : (Sq.fetched q (q.bindingWith h) y).cntl = y.cntl ∧ (Sq.fetched q (q.bindingWith h) y).qid = y.qid ∧
      (Sq.fetched q (q.bindingWith h) y).cqid = y.cqid := by
    unfold Sq.fetched
    split <;> exact ⟨rfl, rfl, rfl⟩
  have hp : ((fun y : Sq => y.cntl == cntl && y.qid == qid) ∘ Sq.fetched q (q.bindingWith h)) =
      fun y => y.cntl == cntl && y.qid == qid := by
    funext y
    simp only [Function.comp, (hf y).1, (hf y).2.1]
  unfold Nvq.room Nvq.cqOf Chip.fetchedNvq
  simp only [List.find?_map, hp]
  cases c.nvq.sqs.find? (fun y => y.cntl == cntl && y.qid == qid) with
  | none => rfl
  | some y => simp only [Option.map_some, (hf y).2.2]

theorem fetchOne_frame (c : Chip) (hq : q ∈ c.nvq.sqs) (h : HostCmd) :
    (∃ p ∈ (c.fetchOne q h).nvq.sqs, p.cntl = q.cntl ∧ p.qid = q.qid ∧ p.head = (q.head + 1) % q.size ∧
      p.binding = q.bindingWith h) ∧
    (c.fetchOne q h).nvq.nextSeq = c.nvq.nextSeq + 1 ∧
    (q.bindingWith h = 3 → q.binding ≠ 3 → (c.fetchOne q h).bit (pIntStatus 0x11) 1 = true) ∧
    (¬(q.bindingWith h = 3 ∧ q.binding ≠ 3) → Keeps [.nvq, .out] c (c.fetchOne q h)) ∧
    OnlyRegs [pIntStatus 0x11] c (c.fetchOne q h) ∧ Keeps [.nvq, .out, .regs, .pwr] c (c.fetchOne q h) := by
  have hp := posts_fetchOne c q h
  have hn := nvq_fetched c q h
  refine ⟨⟨Sq.fetched q (q.bindingWith h) q, ?_, ?_⟩, ?_, ?_, ?_, ?_, ?_⟩
  · rw [hp.sqs, hn]
    exact List.mem_map_of_mem hq
  · simp [Sq.fetched]
  · rw [hp.nextSeq, hn]
    rfl
  · exact fun hb hm => (Chip.bit_of_reg _ (hp.reg _) 1).trans (Chip.bit_fetched_mixed hb hm)
  · exact fun hb => (keeps_fetched_unmixed hb).trans hp.keeps
  · exact (onlyRegs_fetched c q h).trans hp.onlyRegs
  · exact ((keeps_fetched c q h).mono (by decide)).step hp.keeps (by decide)

theorem fetchOne_taken (hc : c.fetchCheck q.qid h = none) :
    (c.fetchOne q h).nvq.inflight = c.nvq.inflight ++ [c.fetchedCmd q h] ∧ (c.fetchOne q h).out = c.out := by
  rw [Chip.fetchOne_passes hc, nvq_fetched]
  exact ⟨rfl, (keeps_fetched c q h).out (by decide)⟩

theorem fetchOne_invalidNs (hq : q.qid ≠ 0) (ho : opcodeOk q.qid h = true) (hh : c.inHoldup = false) (hn : c.nsOk h = false)
    (hi : c.nvq.inflight = []) (hr : 0 < c.nvq.room q.cntl q.qid) :
    (∃ ms, (c.fetchOne q h).out = c.out ++ [.completion { (c.fetchedCmd q h).status 0 0x0B true with seq := none }] ++ ms ∧
      (ms = [] ∨ ∃ o, ms = [o] ∧ o.IsMsix q.cntl)) ∧ (c.fetchOne q h).nvq.inflight = [] := by
  have hc : c.fetchCheck q.qid h = some stInvalidNs := by simp [Chip.fetchCheck, hq, ho, hn]
  have hk := keeps_fetched c q h
  have hf : (c.fetched q h).nvq.inflight = [c.fetchedCmd q h] := by
    rw [nvq_fetched]
    exact congrArg (· ++ _) hi
  have hd := Chip.finish_alone (c := c.fetched q h) (r := (c.fetchedCmd q h).status 0 0x0B true) (x := c.fetchedCmd q h)
    ((congrArg (fun y : Sys => y.mode == Mode.holdup) (hk.sys (by decide))).trans hh)
    (by simp [Nvq.find, hf, InCmd.status]) rfl rfl (by simp [Nvq.mine, hf, InCmd.status])
    (by rw [nvq_fetched, Nvq.room_fetched]; exact hr)
  obtain ⟨⟨ms, ho', hm⟩, hd', -, -⟩ := hd
  rw [Chip.fetchOne_fails hc]
  refine ⟨⟨ms, ho'.trans (by rw [hk.out (by decide)]), hm⟩, hd'.trans (by simp [hf])⟩

/-! ### A round of fetching (R122) -/

theorem Chip.fetchQueue_barred {i : Nat} (hf : c.mayFetch i = false) (host : List HostEntry) (qid k : Nat) :
    c.fetchQueue host i qid k = c := by
  cases k with
  | zero => rfl
  | succ k =>
    unfold Chip.fetchQueue
    split
    · rfl
    · simp [hf]

/-- A queue with head and tail equal has nothing to fetch. -/
theorem Chip.fetchQueue_empty (hs : c.nvq.sqs = [q]) (hq : q.head = q.tail) (host : List HostEntry) (k : Nat) :
    c.fetchQueue host q.cntl q.qid k = c := by
  cases k with
  | zero => rfl
  | succ k => simp [Chip.fetchQueue, hs, hq]

theorem Chip.fetchQueue_single {e : HostEntry} (hs : c.nvq.sqs = [q]) (hc : e.cntl = q.cntl) (hq : e.qid = q.qid)
    (hh : e.slot = q.head) (hn : q.head ≠ q.tail) (hf : c.mayFetch q.cntl = true) (hd : c.nvq.deleting q.cntl q.qid = false)
    (k : Nat) : c.fetchQueue [e] q.cntl q.qid (k + 1) = (c.fetchOne q e.cmd).fetchQueue [e] q.cntl q.qid k := by
  simp [Chip.fetchQueue, hs, hc, hq, hh, hn, hf, hd]

theorem Chip.burst_pos (c : Chip) (i : Nat) : ∃ k, c.burst i = k + 1 := by
  refine Nat.exists_eq_succ_of_ne_zero ?_
  unfold Chip.burst
  dsimp only
  split
  · decide
  · positivity

theorem Nvq.order_single {n : Nvq} (hs : n.sqs = [q]) : n.order = [q] := by
  unfold Nvq.order
  have h2 : n.rr % 2 = 0 ∨ n.rr % 2 = 1 := by omega
  rcases h2 with h | h <;> simp [hs, h]

theorem Nvq.mem_order {n : Nvq} (h : q ∈ n.order) : q ∈ n.sqs := by
  rcases List.mem_append.1 h with h | h
  · exact List.mem_of_mem_drop h
  · exact List.mem_of_mem_take h

theorem commandFetch_barred (hf : ∀ q ∈ c.nvq.sqs, c.mayFetch q.cntl = false) (host : List HostEntry) :
    commandFetch c host = { c with nvq := { c.nvq with rr := if c.nvq.sqs.isEmpty then 0
      else (c.nvq.rr + 1) % c.nvq.sqs.length } } := by
  have hfold : ∀ l : List Sq, (∀ q ∈ l, q ∈ c.nvq.sqs) →
      l.foldl (fun c q => c.fetchQueue host q.cntl q.qid (c.burst q.cntl)) c = c := by
    intro l
    induction l with
    | nil => exact fun _ => rfl
    | cons q l ih =>
      intro hl
      rw [List.foldl_cons, Chip.fetchQueue_barred (hf q (hl q (by simp)))]
      exact ih fun p hp => hl p (by simp [hp])
  unfold commandFetch
  dsimp only
  rw [hfold _ fun _ => Nvq.mem_order]

theorem commandFetch_single {e : HostEntry} (hs : c.nvq.sqs = [q]) (hc : e.cntl = q.cntl) (hq : e.qid = q.qid)
    (hh : e.slot = q.head) (hl : q.head < q.size) (ht : q.tail = (q.head + 1) % q.size) (h1 : 1 < q.size)
    (hf : c.mayFetch q.cntl = true) (hd : c.nvq.deleting q.cntl q.qid = false) :
    (c.fetchOne q e.cmd).nvq.sqs = [Sq.fetched q (q.bindingWith e.cmd) q] ∧
    commandFetch c [e] = { c.fetchOne q e.cmd with nvq := { (c.fetchOne q e.cmd).nvq with rr := 0 } } := by
  have hn : q.head ≠ q.tail := by
    rw [ht]
    rcases Nat.lt_or_ge (q.head + 1) q.size with h | h
    · rw [Nat.mod_eq_of_lt h]; omega
    · rw [show q.head + 1 = q.size by omega, Nat.mod_self]; omega
  have hq' : (c.fetchOne q e.cmd).nvq.sqs = [Sq.fetched q (q.bindingWith e.cmd) q] := by
    rw [(posts_fetchOne c q e.cmd).sqs, nvq_fetched]
    simp [Chip.fetchedNvq, hs]
  have he : (Sq.fetched q (q.bindingWith e.cmd) q).head = (Sq.fetched q (q.bindingWith e.cmd) q).tail := by
    simp [Sq.fetched, ht]
  have hw : (c.fetchOne q e.cmd).fetchQueue [e] q.cntl q.qid = fun _ => c.fetchOne q e.cmd := by
    funext k
    have := Chip.fetchQueue_empty hq' he [e] k
    simpa [Sq.fetched] using this
  obtain ⟨k, hk⟩ := c.burst_pos q.cntl
  refine ⟨hq', ?_⟩
  unfold commandFetch
  simp only [Nvq.order_single hs, List.foldl_cons, List.foldl_nil, hk, Chip.fetchQueue_single hs hc hq hh hn hf hd, hw, hq',
    List.isEmpty_cons, Bool.false_eq_true, ↓reduceIte, List.length_singleton, Nat.mod_one]

/-! ### A command of an unsupported opcode (R118) -/

theorem Nvq.find_of_ready {n : Nvq} {i qid cid : Nat} {x : InCmd} (h : n.ready i qid cid = some x) :
    n.find i qid cid = some x := by
  unfold Nvq.ready at h
  split at h
  · cases h
  · next y hy =>
    split at h
    · exact hy.trans h
    · cases h

theorem Nvq.ids_of_find {n : Nvq} {i qid cid : Nat} {x : InCmd} (h : n.find i qid cid = some x) :
    x.cntl = i ∧ x.qid = qid ∧ x.cid = cid := by
  have := List.find?_some h
  simpa [and_assoc] using this

theorem unsupportedCommand_eq {i qid cid : Nat} {x : InCmd} (ha : c.alive = true) (hh : c.inHoldup = false)
    (hx : c.nvq.ready i qid cid = some x) : unsupportedCommand c i qid cid =
      if opcodeOk qid x.cmd then c else c.finish (x.status 0 0x01 true) := by
  simp [unsupportedCommand, ha, hh, hx, Chip.fail, stInvalidOpcode]

/-- Settles O28: a fetch is the queue's change, then the completion of a command that fails a check. -/
theorem fetchTakesCommandsInOrderAndChecksThem : Obligations.FetchTakesCommandsInOrderAndChecksThem := by
  unfold Obligations.FetchTakesCommandsInOrderAndChecksThem
  refine ⟨fun c q h hq => ⟨fetchOne_frame c hq h, fun hc => fetchOne_taken ?_, fun h0 ho hh hn hi hr => ?_⟩,
    fun s host hf => ?_, fun s e q hs hc hq hh hl ht h1 hf hd => ?_, fun s i qid cid x ha hh hx => ?_⟩
  · rcases hc with h0 | ho | ⟨hn, hf⟩
    · simp [Chip.fetchCheck, h0]
    · simp [Chip.fetchCheck, ho]
    · simp [Chip.fetchCheck, hn, hf]
  · obtain ⟨⟨ms, ho', hm⟩, hd⟩ := fetchOne_invalidNs h0 ho hh hn hi hr
    refine ⟨?_, hd⟩
    rcases hm with rfl | ⟨o, rfl, v, a, w, rfl⟩
    · exact .inl (ho'.trans (List.append_nil _))
    · exact .inr ⟨v, a, w, ho'⟩
  · have hk := (Keeps.refl [.nvq] s.chip).withNvq { s.chip.nvq with rr := if s.chip.nvq.sqs.isEmpty then 0
      else (s.chip.nvq.rr + 1) % s.chip.nvq.sqs.length } (by decide)
    exact completesThen_eq rfl (commandFetch_barred hf host) ⟨rfl, rfl, hk⟩
  · obtain ⟨hs', he⟩ := commandFetch_single hs hc hq hh hl ht h1 hf hd
    refine completesThen_eq rfl he ⟨rfl, fun hp => ?_⟩
    obtain ⟨hi, ho⟩ := fetchOne_taken hp
    exact ⟨hi, (congrArg (List.map Sq.head) hs').trans (by simp [Sq.fetched, ht]), ho⟩
  · have he := unsupportedCommand_eq ha hh hx
    refine ⟨fun ho => completesThen_eq rfl (he.trans (if_neg (by simp [ho]))) ⟨rfl, fun hm hr _ hn => ?_⟩,
      fun ho => completesThen_eq rfl (he.trans (if_pos ho)) rfl⟩
    have hf := Nvq.find_of_ready hx
    obtain ⟨hi, hq, hc⟩ := Nvq.ids_of_find hf
    rw [← hi, ← hq] at hm hr
    rw [← hi, ← hq, ← hc] at hf
    obtain ⟨⟨ms, ho', -⟩, hd, -, -⟩ := Chip.finish_alone (r := x.status 0 0x01 true) hh hf hn rfl hm hr
    refine ⟨fun y hy => ?_, ?_⟩
    · have := (List.mem_filter.1 (hd ▸ hy)).2
      simpa using this
    · exact ho' ▸ by simp
end Sys2Proof.Machine
end

section
/-! ## Device conditions and issue (R37, R40, R124, R142, R144, R187, O33) -/

namespace Sys2Proof.Machine

open Sys2Proof

variable {c d : Chip} {x : InCmd} {m : Bool} {n : Nat}

/-! ### Device conditions (R40, R144) -/

theorem mem_nsActs_A (h : n ∈ [1, 3, 4]) : Act.A ∈ nsActs n := by
  simp only [List.mem_cons, List.not_mem_nil, or_false] at h
  rcases h with rfl | rfl | rfl <;> decide

theorem mem_nsActs_B (h : n ∈ [2, 3, 4]) : Act.B ∈ nsActs n := by
  simp only [List.mem_cons, List.not_mem_nil, or_false] at h
  rcases h with rfl | rfl | rfl <;> decide

theorem Chip.gate_retired {a : Act} (ha : a ∈ nsActs n) (h : c.retired a = true) : c.gate n m = some (0, 0x82, true) :=
  if_pos (.inr (List.any_eq_true.2 ⟨a, ha, h⟩))

theorem Chip.gate_lifeCycle (h : c.effective = 4) : c.gate n m = some (0, 0x82, true) := if_pos (.inl h)

theorem Chip.gate_serving (he : c.effective ≠ 4) (hA : c.retired .A = false) (hB : c.retired .B = false) :
    c.gate n m = if c.sys.mode = .rebuild then
      if !c.bit R.SYS_REBUILD_POLICY 0 then some (0, 0x82, false) else if m then some (0, 0x20, false) else none
    else none := by
  refine if_neg ?_
  rintro (h | h)
  · exact he h
  · obtain ⟨a, -, ha⟩ := List.any_eq_true.1 h
    cases a
    · exact absurd (hA.symm.trans ha) Bool.false_ne_true
    · exact absurd (hB.symm.trans ha) Bool.false_ne_true

/-! ### Issue (R37, R124, R142) -/

/-- The actuators that a command's queue remembers, 0 where it remembers none. -/
def Chip.lastActs (c : Chip) (x : InCmd) : Nat :=
  match c.nvq.sqs.find? (fun q => q.cntl == x.cntl && q.qid == x.qid) with
  | some q => q.last
  | none => 0

/-- What holds a command back without an effect (R37, R144, R187). -/
def Chip.barred (c : Chip) (x : InCmd) (m : Bool) : Prop :=
  c.sys.mode = .rest ∨ (nsActs x.cmd.nsid).any c.calibrating = true ∨ (m = true ∧ c.zoneTaken x.cmd = true)

/-- Earlier unfinished work of a command's queue for another actuator, or for both, keeps it waiting (R124). -/
def Chip.behind (c : Chip) (x : InCmd) : Prop :=
  c.lastActs x ≠ 0 ∧ (c.lastActs x ≠ actsCode x.cmd.nsid ∨ actsCode x.cmd.nsid = 3) ∧ c.earlierWork x = true

/-- The queue of an issued command remembers its actuators (R124). -/
def Chip.remembering (c : Chip) (x : InCmd) : Chip := { c with nvq := { c.nvq with sqs := c.nvq.sqs.map (fun q =>
  if q.cntl = x.cntl ∧ q.qid = x.qid then { q with last := actsCode x.cmd.nsid } else q) } }

theorem Chip.begin_gated {st : Status} (h : c.gate x.cmd.nsid m = some st) : c.begin x m = (false, c.fail x st) := by
  simp only [Chip.begin, h]

section
variable (hg : c.gate x.cmd.nsid m = none)
include hg

theorem Chip.begin_barred (h : c.barred x m) : c.begin x m = (false, c) := by
  unfold Chip.barred at h
  simp only [Chip.begin, hg, h, ↓reduceIte]

theorem Chip.begin_behind (hb : ¬c.barred x m) (hw : c.behind x) : c.begin x m = if x.mixed then (false, c)
      else (false, (c.mapCmd x.seq (fun y => { y with mixed := true })).bump R.NVQ_MIXED_CNT) := by
  unfold Chip.barred at hb
  unfold Chip.begin
  simp only [hg]
  exact (if_neg hb).trans (if_pos hw)

theorem Chip.begin_issues (hb : ¬c.barred x m) (hw : ¬c.behind x) :
    c.begin x m = if (nsActs x.cmd.nsid).any c.lostNow
      then (false, (c.remembering x).mapCmd x.seq (fun y => { y with issued := some (y.issued.getD c.dtm.dtime) }))
      else (true, c.remembering x) := by
  unfold Chip.barred at hb
  unfold Chip.begin
  simp only [hg]
  exact (if_neg hb).trans (if_neg hw)

end

theorem not_barred (h1 : c.sys.mode ≠ .rest) (h2 : (nsActs x.cmd.nsid).any c.calibrating = false)
    (h3 : m = true → c.zoneTaken x.cmd = false) : ¬c.barred x m := by
  rintro (h | h | ⟨hm, h⟩)
  · exact h1 h
  · exact absurd (h2.symm.trans h) Bool.false_ne_true
  · exact absurd ((h3 hm).symm.trans h) Bool.false_ne_true

/-! ### Zones under a change (R187) -/

theorem Chip.zonePending_iff (c : Chip) (h : HostCmd) : c.zonePending h = true ↔
    ∃ y ∈ c.nvq.inflight, (y.finishing = true ∨ (y.unmaps = true ∧ y.phase = .working ∧ y.result = none)) ∧
      ∃ i ∈ y.units, i ∈ c.cmdZones h := by
  simp [Chip.zonePending, List.any_eq_true, and_assoc]

theorem Chip.zoneTaken_iff (c : Chip) (h : HostCmd) : c.zoneTaken h = true ↔
    (c.bit R.LOC_PART_CTRL 1 = true ∧ ∃ i ∈ c.cmdZones h, c.concerned c.askedPart i = true) ∨
    (∃ y ∈ c.nvq.inflight, (y.finishing = true ∨ (y.unmaps = true ∧ y.phase = .working ∧ y.result = none)) ∧
      ∃ i ∈ y.units, i ∈ c.cmdZones h) := by
  rw [← Chip.zonePending_iff]
  simp [Chip.zoneTaken, List.any_eq_true]

/-- Settles O33: each outcome of an issue by the condition that leads to it. -/
theorem issueFollowsDeviceConditionsAndQueueOrder : Obligations.IssueFollowsDeviceConditionsAndQueueOrder := by
  unfold Obligations.IssueFollowsDeviceConditionsAndQueueOrder
  refine ⟨fun c n m => ⟨Chip.gate_lifeCycle, fun h hn => Chip.gate_retired (mem_nsActs_A hn) h,
      fun h hn => Chip.gate_retired (mem_nsActs_B hn) h, fun he hA hB => ?_⟩,
    fun c x m => ⟨fun st => Chip.begin_gated, fun hg => ⟨Chip.begin_barred hg, fun h1 h2 h3 => ?_⟩⟩, Chip.zoneTaken_iff⟩
  · rw [Chip.gate_serving he hA hB]
    refine ⟨fun h => if_neg h, fun h hp => ?_, fun h hp => ?_⟩ <;> simp [h, hp]
  · have hb := not_barred h1 h2 h3
    refine ⟨fun hw => ?_, fun q hw hq h0 ha => ?_⟩
    · rw [Chip.begin_issues hg hb fun h => absurd (hw.symm.trans h.2.2) Bool.false_ne_true]
      exact ⟨fun hl => by rw [hl]; rfl, fun hl => if_pos hl⟩
    · have hl : c.lastActs x = q.last := by rw [Chip.lastActs, hq]
      rw [Chip.begin_behind hg hb ⟨hl ▸ h0, hl ▸ ha, hw⟩]
      refine ⟨fun hm => if_pos hm, fun hm => ?_⟩
      simp only [hm, Bool.false_eq_true, ↓reduceIte, true_and]
      have hk := (Keeps.refl [.regs, .nvq] c).mapCmd x.seq (fun y => { y with mixed := true }) (by decide)
      exact ⟨(Chip.reg_addSat _ _ _ _).trans (if_pos rfl), (OnlyRegs.of_regs rfl : OnlyRegs [R.NVQ_MIXED_CNT] c _).addSat _ _ (by decide),
        hk.bump _ (by decide)⟩

end Sys2Proof.Machine
end

section
/-! ## Unmapping and deallocation change the parts of a journal commit alone

The work of Zone Reset, Format, Sanitize and a deallocation, in terms of `OpFrame`. -/

namespace Sys2Proof.Machine

open Sys2Proof

variable {c d : Chip} {ps : List ChipPart} {x : InCmd}

/-! ### Issue -/

/-- A command that goes on was issued: its queue remembers its actuators, and nothing else changed. -/
theorem Chip.begin_true {m : Bool} {e : Chip} (h : c.begin x m = (true, e)) : e = c.remembering x ∧
    c.gate x.cmd.nsid m = none := by
  cases hg : c.gate x.cmd.nsid m with
  | some st => rw [Chip.begin_gated hg] at h; cases h
  | none =>
    refine ⟨?_, rfl⟩
    by_cases hb : c.barred x m
    · rw [Chip.begin_barred hg hb] at h
      cases h
    · by_cases hw : c.behind x
      · rw [Chip.begin_behind hg hb hw] at h
        split at h <;> cases h
      · rw [Chip.begin_issues hg hb hw] at h
        split at h
        · cases h
        · exact (Prod.mk.inj h).2.symm

theorem opFrame_remembering (c : Chip) (x : InCmd) : OpFrame c (c.remembering x) := (OpFrame.refl c).setNvq _ rfl

theorem keeps_remembering (c : Chip) (x : InCmd) : Keeps [.nvq] c (c.remembering x) := (Keeps.refl _ c).withNvq _ (by decide)

theorem Keeps.ofOp (h : OpFrame c d) : Keeps commitParts c d := h.keeps.mono (by decide)

namespace OpFrame

/-! ### Unmapping -/

theorem commitMwp (h : OpFrame c d) (zone : Nat) : OpFrame c (d.commitMwp zone) := ite (fun _ => h) fun _ => h.commit _ _ _

theorem resetZone (h : OpFrame c d) (i : Nat) (posts : List Completion) : OpFrame c (d.resetZone i posts) :=
  ((h.commitMwp i).dropJobOf i).commit _ _ _

theorem unmapZone (h : OpFrame c d) (i : Nat) : OpFrame c (d.unmapZone i) :=
  ite (fun _ => h) fun _ => ite (fun _ => (h.unstage i _).commit _ _ _) fun _ => h.resetZone i _

theorem unmapZones (seq : Nat) (is : List Nat) : ∀ {d : Chip}, OpFrame c d → OpFrame c (d.unmapZones seq is) := by
  induction is with
  | nil => exact id
  | cons i is ih => exact fun h => ite (fun _ => h) fun _ => ih ((h.unmapZone i).mapCmd _ _)

theorem unmapKeys (seq : Nat) (ks : List (List Byte)) : ∀ {d : Chip}, OpFrame c d → OpFrame c (d.unmapKeys seq ks) := by
  induction ks with
  | nil => exact id
  | cons k ks ih => exact fun h => ite (fun _ => h) fun _ => ih (((h.dropFresh k).commit _ _ _).mapCmd _ _)

theorem unmapDone (h : OpFrame c d) (x : InCmd) : OpFrame c (d.unmapDone x) :=
  ite (fun _ => h.finish _) fun _ => ite (fun _ => (h.mapCmd _ _).startDiscard _ _ _ _ _ _) fun _ =>
    (h.mapCmd _ _).startDiscard _ _ _ _ _ _

theorem unmapMore (h : OpFrame c d) (x : InCmd) : OpFrame c (d.unmapMore x) := by
  have hz := unmapZones x.seq x.units (unmapKeys x.seq x.keys h)
  unfold Chip.unmapMore
  dsimp only
  split
  · exact ite (fun _ => hz.unmapDone _) fun _ => hz
  · exact hz

theorem unmapStart (h : OpFrame c d) (x : InCmd) (keys : List (List Byte)) (zones : List Nat) :
    OpFrame c (d.unmapStart x keys zones) := (h.mapCmd _ _).unmapMore _

/-! ### Deallocation -/

theorem dropUnits (h : OpFrame c d) (zone : Nat) (p : Nat → Bool) : OpFrame c (d.dropUnits zone p) := (h.unstage _ _).setLoc _

theorem hotFull (h : OpFrame c d) : OpFrame c d.hotFull := (h.setBit _ _ _ (by decide)).raise _ _ (by decide)

theorem putEntries (a : Act) (zone k : Nat) : ∀ {d : Chip} (es : List HotRec), OpFrame c d →
    OpFrame c (d.putEntries a zone k es).2 := by
  induction k with
  | zero => exact fun _ h => h
  | succ k ih =>
    intro d es h
    cases es with
    | nil => exact h
    | cons e es =>
      unfold Chip.putEntries
      dsimp only
      split
      · exact h
      · split
        · exact h.hotFull
        · exact ih _ ((h.commit _ _ _).dropUnits _ _)

theorem clearBits (h : OpFrame c d) (rs : List (Nat × Nat × Nat)) (zone : Nat) : OpFrame c (d.clearBits rs zone) :=
  foldl _ (fun _ _ h => (h.commit _ _ _).dropUnits _ _) _ h

theorem deallocZone (h : OpFrame c d) (rs : List (Nat × Nat × Nat)) (zone : Nat) : OpFrame c (d.deallocZone rs zone).2 := by
  unfold Chip.deallocZone
  dsimp only
  have hp := putEntries (zoneAct zone) zone ((d.commitMwp zone).deallocEntries rs zone).length
    ((d.commitMwp zone).deallocEntries rs zone) (h.commitMwp zone)
  split
  · exact h
  · split
    · exact h.clearBits rs zone
    · split
      · exact h.resetZone zone []
      · split
        · exact hp
        · split
          · exact hp
          · exact hp.dropUnits _ _

theorem deallocZones (x : InCmd) (rs : List (Nat × Nat × Nat)) (zones : List Nat) : ∀ {d : Chip}, OpFrame c d →
    OpFrame c (d.deallocZones x rs zones) := by
  induction zones with
  | nil => exact id
  | cons zone zones ih =>
    intro d h
    have hz := h.deallocZone rs zone
    unfold Chip.deallocZones
    dsimp only
    split
    · exact ih (hz.mapCmd _ _)
    · exact hz.mapCmd _ _
    · exact hz.mapCmd _ _

theorem deallocDone (h : OpFrame c d) (x : InCmd) (rs : List (Nat × Nat × Nat)) (bands : List Nat) :
    OpFrame c (d.deallocDone x rs bands) :=
  ite (fun _ => h.finish _) fun _ => (h.mapCmd _ _).startDiscard _ _ _ _ _ _

theorem deallocMore (h : OpFrame c d) (x : InCmd) : OpFrame c (d.deallocMore x) := by
  have hz := deallocZones x (d.deallocList x.cmd) x.units h
  unfold Chip.deallocMore
  dsimp only
  split
  · exact ite (fun _ => hz.deallocDone _ _ _) fun _ => hz
  · exact hz

theorem deallocStart (h : OpFrame c d) (x : InCmd) : OpFrame c (d.deallocStart x) := (h.mapCmd _ _).deallocMore _

end OpFrame

end Sys2Proof.Machine
end

section
/-! ## Flush and deallocation (R18, R19, R118, R130, R131, R186, R242, O36) -/

namespace Sys2Proof.Machine

open Sys2Proof

variable {c d : Chip} {x : InCmd} {i qid cid : Nat}

/-! ### Flush -/

theorem keeps_failFlush (c : Chip) (f : InCmd) :
    OnlyRegs dropRegs c (c.failFlush f) ∧ Keeps [.regs, .evr, .nvq, .pwr, .out] c (c.failFlush f) :=
  ⟨((OnlyRegs.refl c _).event _ _ (by decide) (by decide)).trans (posts_finish _ _).onlyRegs,
    ((Keeps.refl _ c).event _ _ (by decide) (by decide) (by decide)).finish _ (by decide) (by decide)⟩

theorem flush_stuck (hx : c.io i qid cid 0x00 = some x) (h : c.flushStuck x = true) : flush c i qid cid = c.failFlush x := by
  simp [flush, hx, h]

theorem flush_gated (hx : c.io i qid cid 0x00 = some x) (h : c.flushStuck x = false) {st : Status}
    (hg : c.gate x.cmd.nsid false = some st) : flush c i qid cid = c.fail x st := by
  simp [flush, hx, h, hg]

theorem flush_drains (hx : c.io i qid cid 0x00 = some x) (h : c.flushStuck x = false)
    (hg : c.gate x.cmd.nsid false = none) :
    flush c i qid cid = c.mapCmd x.seq (fun y => { y with phase := .working }) := by
  simp [flush, hx, h, hg]

theorem Nvq.writeBefore_false (n : Nvq) (f : InCmd) : n.writeBefore f = false ↔
    ∀ x ∈ n.inflight, ¬(x.seq < f.seq ∧ x.isWrite = true ∧ x.result = none ∧ drains f.cmd.nsid x.cmd.nsid = true) := by
  unfold Nvq.writeBefore
  rw [List.any_eq_false]
  simp [and_assoc]

theorem Staged.before_iff (u : Staged) (f : InCmd) : u.before f = true ↔
    (u.restored = true ∨ u.seq < f.seq) ∧ drains f.cmd.nsid u.nsid = true := by
  simp [Staged.before]

theorem Chip.flushDone_iff (c : Chip) (f : InCmd) : c.flushDone f = true ↔
    (∀ x ∈ c.nvq.inflight, ¬(x.seq < f.seq ∧ x.isWrite = true ∧ x.result = none ∧
      drains f.cmd.nsid x.cmd.nsid = true)) ∧
    (∀ u ∈ c.nvq.staging, ¬((u.restored = true ∨ u.seq < f.seq) ∧ drains f.cmd.nsid u.nsid = true)) := by
  rw [← Nvq.writeBefore_false]
  simp only [← Staged.before_iff]
  simp [Chip.flushDone]

theorem finishFlushes_single {f : InCmd} (hi : c.nvq.inflight = [f]) (hq : f.qid ≠ 0) (ho : f.cmd.opcode = 0)
    (hp : f.phase = .working) (hr : f.result = none) :
    c.finishFlushes = if c.flushDone f then c.finish f.ok else c := by
  simp [Chip.finishFlushes, hi, hq, ho, hp, hr]

/-! ### Deallocation -/

theorem Chip.zoneIo_eq {op : Nat} (hx : c.io i qid cid op = some x) (hp : c.zonePending x.cmd = false) :
    c.zoneIo i qid cid op = some x := by
  simp [Chip.zoneIo, hx, hp]

theorem datasetManagement_eq (hx : c.io i qid cid 0x09 = some x) : datasetManagement c i qid cid =
    if !(c.begin x true).1 then (c.begin x true).2
    else if x.cmd.cdw11 / 4 % 2 = 0 then (c.begin x true).2.finish x.ok else (c.begin x true).2.deallocStart x := by
  simp only [datasetManagement, hx]

theorem writeZeroes_deac (hx : c.zoneIo i qid cid 0x08 = some x) (hd : x.cmd.deac = true) : writeZeroes c i qid cid =
    if !(c.begin x true).1 then (c.begin x true).2 else (c.begin x true).2.deallocStart x := by
  simp only [writeZeroes, hx, hd, ↓reduceIte]

theorem Chip.deallocStart_empty (hi : c.nvq.inflight = [x]) (hl : c.deallocList x.cmd = [])
    (hs : x.cmd.nsid ∉ c.nvq.secure) :
    c.deallocStart x = (c.mapCmd x.seq (fun y => { y with phase := .working, units := [] })).finish x.ok := by
  have hf : (c.mapCmd x.seq (fun y => { y with phase := .working, units := [] })).nvq.inflight =
      [{ x with phase := .working, units := [] }] := by simp [Chip.mapCmd, Nvq.mapCmd, hi]
  have hc : (c.mapCmd x.seq (fun y => { y with phase := .working, units := [] })).nvq.secure.contains x.cmd.nsid = false := by
    simpa [Chip.mapCmd, Nvq.mapCmd] using hs
  unfold Chip.deallocStart Chip.deallocMore
  simp only [hl, List.map_nil, List.foldl_nil, Chip.deallocZones, hf, List.find?_cons, beq_self_eq_true, List.isEmpty_nil,
    ↓reduceIte, Chip.deallocDone, hc, Bool.not_false]
  rfl

section
variable {rs : List (Nat × Nat × Nat)} {zone first n : Nat}

theorem Chip.deallocZone_waits (h : c.mustWaitFor .locus (3 + rs.length) = true ∨ c.writing zone = true) :
    c.deallocZone rs zone = (.waits, c) := if_pos (by simpa using h)

variable (hm : c.mustWaitFor .locus (3 + rs.length) = false) (hw : c.writing zone = false)
include hm hw

theorem Chip.deallocZone_covers (hk : (c.zone zone).kind ≠ 3) (hc : c.coversZone rs zone = true) :
    c.deallocZone rs zone = (.done, c.resetZone zone []) := by
  simp [Chip.deallocZone, hm, hw, hk, hc]

theorem Chip.deallocZone_conv (hk : (c.zone zone).kind = 3) : c.deallocZone rs zone = (.done, c.clearBits rs zone) := by
  simp [Chip.deallocZone, hm, hw, hk]

end

/-- One range of at most 32,768 units is cleared by one record. -/
theorem Chip.clearBits_single {zone first n : Nat} (hn : n ≤ 32768) (h0 : 0 < n) : c.clearBits [(zone, first, n)] zone =
    (c.commit .locus [.mwp zone (c.zone zone).gen 3 0 (c.zone zone).live (c.zone zone).wtime (c.zone zone).tmin
      (c.zone zone).tmax [(first, n)]] []).dropUnits zone (fun u => decide (first ≤ u ∧ u < first + n)) := by
  have hc : [(first, min n 32768), (first + 32768, n - 32768)].filter (fun p => p.2 != 0) = [(first, n)] := by
    simp [Nat.min_eq_left hn, Nat.sub_eq_zero_of_le hn, Nat.pos_iff_ne_zero.1 h0]
  have hu : (fun u => inRanges [(zone, first, n)] zone u) = fun u => decide (first ≤ u ∧ u < first + n) := by
    funext u
    simp [inRanges]
  unfold Chip.clearBits
  have hz : [(zone, first, n)].filter (fun r => r.1 == zone) = [(zone, first, n)] := by simp
  simp only [hz, List.foldl_cons, List.foldl_nil, hc, hu]

/-- Settles O36: a flush by its three outcomes, a deallocation through the frame of its work. -/
theorem flushAndDeallocateWork : Obligations.FlushAndDeallocateWork := by
  unfold Obligations.FlushAndDeallocateWork
  refine ⟨fun s i qid cid x hx => ⟨fun h => ?_, fun h => ⟨fun st hg => ?_, fun hg => ?_⟩⟩,
    fun c f => ⟨c.flushDone_iff f, finishFlushes_single⟩, fun s i qid cid x zeroes => ?_,
    fun c x => Chip.deallocStart_empty, fun c rs zone first n => ⟨Chip.deallocZone_waits, fun hm hw =>
      ⟨Chip.deallocZone_covers hm hw, fun hk hr hn h0 => ?_⟩⟩⟩
  · exact completesThen_eq rfl (flush_stuck hx h) ⟨rfl, keeps_failFlush _ _⟩
  · exact completesThen_eq rfl (flush_gated hx h hg) rfl
  · exact completesThen_eq rfl (flush_drains hx h hg) ⟨rfl, (Keeps.refl _ _).mapCmd _ _ (by decide)⟩
  · cases zeroes with
    | false =>
      intro row hx _
      have he := datasetManagement_eq hx
      refine ⟨fun e hb => completesThen_eq rfl (he.trans (by rw [hb]; rfl)) rfl, fun e hb => ?_⟩
      rw [hb] at he
      obtain ⟨rfl, -⟩ := Chip.begin_true hb
      refine ⟨fun _ ha => completesThen_eq rfl (he.trans (if_pos ha)) rfl, fun ha => ?_⟩
      have ha' : ¬x.cmd.cdw11 / 4 % 2 = 0 := by simpa using ha
      refine completesThen_eq rfl (he.trans (if_neg ha')) ⟨rfl, ?_⟩
      exact .ofOp ((opFrame_remembering _ x).deallocStart x)
    | true =>
      intro row hx hz
      obtain ⟨hd, hp⟩ := hz rfl
      have he := writeZeroes_deac (Chip.zoneIo_eq hx hp) hd
      refine ⟨fun e hb => completesThen_eq rfl (he.trans (by rw [hb]; rfl)) rfl, fun e hb => ?_⟩
      rw [hb] at he
      obtain ⟨rfl, -⟩ := Chip.begin_true hb
      refine ⟨fun h => (Bool.noConfusion h), fun _ => completesThen_eq rfl he ⟨rfl, ?_⟩⟩
      exact .ofOp ((opFrame_remembering _ x).deallocStart x)
  · subst hr
    rw [Chip.deallocZone_conv hm hw hk, Chip.clearBits_single hn h0]

end Sys2Proof.Machine
end

section
/-! ## Zone management (R19, R128, R140, R185, R194, R208, R242, R625, O37) -/

namespace Sys2Proof.Machine

open Sys2Proof

variable {c d : Chip} {ps : List ChipPart} {x : InCmd} {i qid cid j : Nat} {zs : List Nat}

/-! ### The zone table -/

@[simp] theorem Chip.zone_setZone_self (c : Chip) (j : Nat) (z : Zone) : (c.setZone j z).zone j = z := by
  simp [Chip.zone, Chip.setZone]

theorem Chip.zone_of_loc (h : d.loc = c.loc) (j : Nat) : d.zone j = c.zone j := by rw [Chip.zone, h, Chip.zone]

theorem Chip.zone_finish (c : Chip) (r : Completion) (j : Nat) : (c.finish r).zone j = c.zone j :=
  Chip.zone_of_loc ((posts_finish c r).keeps.loc (by decide)) j

theorem Keeps.zoneChanged (h : Keeps ps c d) (zone : Nat) (hn : .nvq ∈ ps) (ho : .out ∈ ps) : Keeps ps c (d.zoneChanged zone) :=
  (h.withNvq _ hn).step (posts_notice _ _ _).keeps (by
    simp only [List.cons_subset, List.nil_subset, and_true]
    exact ⟨hn, ho⟩)

theorem Keeps.openZone (h : Keeps [.nvq, .loc, .out] c d) (zone state : Nat) :
    Keeps [.nvq, .loc, .out] c (d.openZone zone state) := by
  unfold Chip.openZone
  dsimp only
  refine Keeps.setZone ?_ _ _ (by decide)
  split
  · split
    · exact (h.setZone _ _ (by decide)).zoneChanged _ (by decide) (by decide)
    · exact h
  · exact h

theorem Chip.state_openZone (c : Chip) (zone state : Nat) : ((c.openZone zone state).zone zone).state = state := by
  unfold Chip.openZone
  dsimp only
  rw [Chip.zone_setZone_self]

theorem Chip.openZone_below (h : (c.zonesIn (c.zone j).nsid [1, 2]).length < 128) (state : Nat) :
    (c.openZone j state).zone j = { c.zone j with state := state, hostWp := some ((c.zone j).hostWp.getD (c.zone j).mwp) } := by
  unfold Chip.openZone
  simp only [if_neg (Nat.not_le.2 h), Chip.zone_setZone_self]

/-! ### The zones an action works on -/

section
variable {all takes noop : List Nat} (ha : x.cmd.selectAll = false)
include ha

theorem Chip.zoneTargets_refused (h : (c.zone (c.zoneNamed x)).kind ≠ 1 ∨
    ((c.zone (c.zoneNamed x)).state ∉ takes ∧ (c.zone (c.zoneNamed x)).state ∉ noop)) :
    c.zoneTargets x all takes noop = .error stTransition := by
  unfold Chip.zoneTargets
  simp only [ha, Bool.false_eq_true, ↓reduceIte, List.contains_iff_mem]
  by_cases hk : (c.zone (c.zoneNamed x)).kind ≠ 1
  · exact if_pos hk
  · obtain ⟨ht, hn⟩ := h.resolve_left hk
    rw [if_neg hk, if_neg ht, if_neg hn]

variable (hk : (c.zone (c.zoneNamed x)).kind = 1)
include hk

theorem Chip.zoneTargets_takes (h : (c.zone (c.zoneNamed x)).state ∈ takes) :
    c.zoneTargets x all takes noop = .ok [c.zoneNamed x] := by
  simp [Chip.zoneTargets, ha, hk, h]

theorem Chip.zoneTargets_noop (h : (c.zone (c.zoneNamed x)).state ∉ takes) (h' : (c.zone (c.zoneNamed x)).state ∈ noop) :
    c.zoneTargets x all takes noop = .ok [] := by
  simp [Chip.zoneTargets, ha, hk, h, h']

end

/-! ### The actions, by the zones they work on -/

/-- The limit an Open of one zone meets. -/
def Chip.openLimit (c : Chip) (zs : List Nat) : Option Status :=
  match zs with
  | [j] => if (c.zone j).state = 1 then none else c.openLimits j
  | _ => none

/-- Zones are opened explicitly. -/
def Chip.openAll (c : Chip) (zs : List Nat) : Chip :=
  zs.foldl (fun c j => if (c.zone j).state = 1 then c.setZone j { c.zone j with state := 2 } else c.openZone j 2) c

theorem Chip.openAll_single (c : Chip) (j : Nat) : ((c.openAll [j]).zone j).state = 2 ∧
    ((c.zonesIn (c.zone j).nsid [1, 2]).length < 128 → (c.zone j).state ≠ 1 →
      (c.openAll [j]).zone j = { c.zone j with state := 2, hostWp := some ((c.zone j).hostWp.getD (c.zone j).mwp) }) ∧
    Keeps [.nvq, .loc, .out] c (c.openAll [j]) := by
  unfold Chip.openAll
  simp only [List.foldl_cons, List.foldl_nil]
  split
  · next h1 => exact ⟨by rw [Chip.zone_setZone_self], fun _ hn => absurd h1 hn, (Keeps.refl _ c).setZone _ _ (by decide)⟩
  · exact ⟨c.state_openZone j 2, fun hn _ => Chip.openZone_below hn 2, (Keeps.refl _ c).openZone j 2⟩

theorem zoneOpen_refused {st : Status} (hx : c.zoneSend i qid cid 3 = some x)
    (ht : c.zoneTargets x [3] [0, 1, 3] [2] = .error st) : zoneOpen c i qid cid = c.fail x st := by
  simp only [zoneOpen, hx, ht]

theorem zoneOpen_eq (ha : x.cmd.selectAll = false) (hx : c.zoneSend i qid cid 3 = some x)
    (ht : c.zoneTargets x [3] [0, 1, 3] [2] = .ok zs) : zoneOpen c i qid cid = if !(c.begin x true).1 then (c.begin x true).2
      else (c.openLimit zs).elim (((c.begin x true).2.openAll zs).finish x.ok) ((c.begin x true).2.fail x) := by
  unfold zoneOpen
  simp only [hx, ht, ha, Bool.false_eq_true, ↓reduceIte]
  change (if !(c.begin x true).1 then _ else match c.openLimit zs with
    | some st => (c.begin x true).2.fail x st
    | none => ((c.begin x true).2.openAll zs).finish x.ok) = _
  cases c.openLimit zs <;> rfl

theorem zoneClose_refused {st : Status} (hx : c.zoneSend i qid cid 1 = some x)
    (ht : c.zoneTargets x [1, 2] [1, 2] [3] = .error st) : zoneClose c i qid cid = c.fail x st := by
  simp only [zoneClose, hx, ht]

theorem zoneClose_eq (hx : c.zoneSend i qid cid 1 = some x) (ht : c.zoneTargets x [1, 2] [1, 2] [3] = .ok zs) :
    zoneClose c i qid cid = if !(c.begin x true).1 then (c.begin x true).2
      else (zs.foldl (fun c j => (c.setZone j { c.zone j with state := 3 }).commitMwp j) (c.begin x true).2).finish x.ok := by
  simp only [zoneClose, hx, ht]

theorem zoneFinish_refused {st : Status} (hx : c.zoneSend i qid cid 2 = some x)
    (ht : c.zoneTargets x [1, 2, 3] [0, 1, 2, 3] [4] = .error st) : zoneFinish c i qid cid = c.fail x st := by
  simp only [zoneFinish, hx, ht]

theorem zoneFinish_eq (hx : c.zoneSend i qid cid 2 = some x) (ht : c.zoneTargets x [1, 2, 3] [0, 1, 2, 3] [4] = .ok zs) :
    zoneFinish c i qid cid = if !(c.begin x true).1 then (c.begin x true).2
      else if zs.isEmpty then (c.begin x true).2.finish x.ok
      else (c.begin x true).2.mapCmd x.seq (fun y => { y with phase := .working, units := zs }) := by
  simp only [zoneFinish, hx, ht]

theorem zoneReset_refused {st : Status} (hx : c.zoneSend i qid cid 4 = some x)
    (ht : c.zoneTargets x [1, 2, 3, 4] [1, 2, 3, 4] [0] = .error st) : zoneReset c i qid cid = c.fail x st := by
  simp only [zoneReset, hx, ht]

theorem zoneReset_eq (hx : c.zoneSend i qid cid 4 = some x) (ht : c.zoneTargets x [1, 2, 3, 4] [1, 2, 3, 4] [0] = .ok zs) :
    zoneReset c i qid cid = if !(c.begin x true).1 then (c.begin x true).2
      else if zs.isEmpty then (c.begin x true).2.finish x.ok else (c.begin x true).2.unmapStart x [] zs := by
  simp only [zoneReset, hx, ht]

theorem zoneOffline_refused {st : Status} (hx : c.zoneSend i qid cid 5 = some x)
    (ht : c.zoneTargets x [5] [5] [6] = .error st) : zoneOffline c i qid cid = c.fail x st := by
  simp only [zoneOffline, hx, ht]

theorem zoneOffline_eq (hx : c.zoneSend i qid cid 5 = some x) (ht : c.zoneTargets x [5] [5] [6] = .ok zs) :
    zoneOffline c i qid cid = if !(c.begin x true).1 then (c.begin x true).2
      else if zs.isEmpty then (c.begin x true).2.finish x.ok
      else (c.begin x true).2.mapCmd x.seq (fun y => { y with phase := .working, units := zs }) := by
  simp only [zoneOffline, hx, ht]

/-! ### Report Zones (R140) -/

theorem reportZones_waits {e : Chip} (hx : c.io i qid cid 0x7A = some x) (hb : c.begin x false = (false, e)) :
    reportZones c i qid cid = e := by
  simp [reportZones, hx, hb]

/-- The zones that a Report Zones selects, from the one it names on. -/
def Chip.reported (c : Chip) (h : HostCmd) : List Nat :=
  ((List.range (c.loc.nsze h.nsid / 65536 - h.slba / 65536)).map (· + h.slba / 65536)).filter (fun k =>
    reportSelects (h.cdw13 / 256 % 256) (c.zone (c.loc.place h.nsid (k * 65536)).1))

/-- Of those, the ones whose descriptors fit. -/
def Chip.reportSent (c : Chip) (h : HostCmd) : List Nat := (c.reported h).take (((h.cdw12 + 1) * 4 - 64) / 64)

/-- The count of the header. -/
def Chip.reportCount (c : Chip) (h : HostCmd) : Nat :=
  if h.cdw13 / 65536 % 2 = 1 then (c.reportSent h).length else (c.reported h).length

theorem reportZones_sends {e : Chip} (hx : c.io i qid cid 0x7A = some x) (hb : c.begin x false = (true, e)) :
    reportZones c i qid cid = (e.emit (.bytes i qid cid ((layBytes 64 [(0, 8, e.reportCount x.cmd)] ++
      (e.reportSent x.cmd).flatMap (e.reportEntry x.cmd.nsid)).take ((x.cmd.cdw12 + 1) * 4)))).finish x.ok := by
  simp only [reportZones, hx, hb, Bool.not_true, Bool.false_eq_true, ↓reduceIte]
  rfl

theorem Chip.reportSent_fits (c : Chip) (h : HostCmd) (hs : 64 ≤ (h.cdw12 + 1) * 4) :
    64 + 64 * (c.reportSent h).length ≤ (h.cdw12 + 1) * 4 := by
  have h1 : (c.reportSent h).length ≤ ((h.cdw12 + 1) * 4 - 64) / 64 := List.length_take_le _ _
  omega

/-! ### Zones that end up Full, Offline and Empty -/

theorem Chip.mayFinish_iff (c : Chip) (j : Nat) : c.mayFinish j = true ↔
    (∀ u ∈ c.nvq.staging, u.zone ≠ j) ∧ (c.zone j).cleaning = false ∧ c.mustWait .locus = false ∧
    ∀ y ∈ c.nvq.inflight, ¬(y.isWrite = true ∧ y.result = none ∧ y.zone = j ∧ y.phase ≠ .fetched) := by
  simp [Chip.mayFinish, and_assoc]

theorem Chip.finishZones_waits (hu : x.units = [j]) (h : c.mayFinish j = false) : c.finishZones x = c := by
  simp [Chip.finishZones, hu, h]

theorem Chip.finishZones_last (hu : x.units = [j]) (h : c.mayFinish j = true) : c.finishZones x =
    (c.mapCmd x.seq (fun y => { y with units := y.units.filter (· != j) })).commit .locus
      [.zoneState j (c.zone j).gen 4 (c.zone j).gen (c.zone j).mwp (c.zone j).live] [x.ok] := by
  simp [Chip.finishZones, hu, h]

theorem Chip.offlineZones_waits (h : c.mustWait .locus = true) (j : Nat) : c.offlineZones x [j] = c := by
  simp [Chip.offlineZones, h]

theorem Chip.offlineZones_last (h : c.mustWait .locus = false) (j : Nat) : c.offlineZones x [j] =
    ((c.mapCmd x.seq (fun y => { y with units := [] })).commit .locus
      [.zoneState j (c.zone j).gen 6 (c.zone j).gen (c.zone j).mwp (c.zone j).live] [x.ok]).zoneChanged j := by
  simp [Chip.offlineZones, h]

/-- A zone with no advance to commit and no cleaning job is unmapped by one record. -/
theorem Chip.resetZone_idle (posts : List Completion) (ha : c.advanced j = false) (hj : c.bcl.job (zoneAct j) = none) :
    c.resetZone j posts = (c.setQueue (zoneAct j) ((c.bcl.queue (zoneAct j)).filter (fun k => k.zone != j))).commit .locus
      [.zoneState j (c.zone j).gen 0 (((c.zone j).gen + 1) % 256) 0 0] posts := by
  have hm : c.commitMwp j = c := if_pos (by simp [ha])
  have hq (q : List Job) : (c.setQueue (zoneAct j) q).bcl.job (zoneAct j) = none := by
    rw [← hj]
    cases zoneAct j <;> rfl
  have hd : c.dropJobOf j = c.setQueue (zoneAct j) ((c.bcl.queue (zoneAct j)).filter (fun k => k.zone != j)) := by
    unfold Chip.dropJobOf
    simp only [hq]
  have hz (q : List Job) : (c.setQueue (zoneAct j) q).zone j = c.zone j := by cases zoneAct j <;> rfl
  unfold Chip.resetZone
  simp only [hm, hd, hz]

/-! ### An action on one zone -/

/-- What an action on the zone named does: it is refused in a state outside `states`, waits for its issue, and acts on
the zone, or on none where the zone is in the state `k` that the action leads to. -/
theorem zoneAction_clause {row : Instr} {s : State} {f : Chip} {all takes states : List Nat} {k : Nat}
    {act : Chip → List Nat → Chip} (ha : x.cmd.selectAll = false) (hrow : exec row s = s.done f)
    (hst : ∀ n, n ∈ states ↔ n ∈ takes ∨ n = k) (hk : k ∉ takes)
    (hr : s.chip.zoneTargets x all takes [k] = .error stTransition → f = s.chip.fail x stTransition)
    (he : ∀ zs, s.chip.zoneTargets x all takes [k] = .ok zs → f =
      if !(s.chip.begin x true).1 then (s.chip.begin x true).2 else act (s.chip.begin x true).2 zs) :
    let z := s.chip.zone (s.chip.zoneNamed x)
    (z.kind ≠ 1 ∨ z.state ∉ states → CompletesThen row s (fun d => d = s.chip.finish (x.status 1 0xBF true))) ∧
    (z.kind = 1 → z.state ∈ states →
      (∀ e, s.chip.begin x true = (false, e) → CompletesThen row s (fun d => d = e)) ∧
      ∀ e, s.chip.begin x true = (true, e) →
        (z.state = k → CompletesThen row s (fun d => d = act e [])) ∧
        (z.state ≠ k → CompletesThen row s (fun d => d = act e [s.chip.zoneNamed x]))) := by
  intro z
  have hnoop (hz : z.kind = 1) (h : z.state = k) := he _ (Chip.zoneTargets_noop ha hz (h ▸ hk) (List.mem_singleton.2 h))
  have htakes (hz : z.kind = 1) (hs : z.state ∈ states) (h : z.state ≠ k) :=
    he _ (Chip.zoneTargets_takes ha hz (((hst _).1 hs).resolve_right h))
  refine ⟨fun h => completesThen_eq hrow (hr (Chip.zoneTargets_refused ha (h.imp_right fun h => ?_))) rfl, fun hz hs =>
    ⟨fun e hb => ?_, fun e hb => ⟨fun h => completesThen_eq hrow ((hnoop hz h).trans (by rw [hb]; rfl)) rfl,
      fun h => completesThen_eq hrow ((htakes hz hs h).trans (by rw [hb]; rfl)) rfl⟩⟩⟩
  · exact ⟨fun ht => h ((hst _).2 (.inl ht)), fun ht => h ((hst _).2 (.inr (List.mem_singleton.1 ht)))⟩
  · by_cases h : z.state = k
    · exact completesThen_eq hrow ((hnoop hz h).trans (by rw [hb]; rfl)) rfl
    · exact completesThen_eq hrow ((htakes hz hs h).trans (by rw [hb]; rfl)) rfl

section
variable (s : State) (i : Fin 2) (qid cid : Nat) (x : InCmd) (ha : x.cmd.selectAll = false)
include ha

theorem zoneOpen_clause (hx : s.chip.zoneSend i.val qid cid 3 = some x) :
    let c := s.chip
    let j := c.zoneNamed x
    let z := c.zone j
    (z.kind ≠ 1 ∨ z.state ∉ [0, 1, 2, 3] →
      CompletesThen (.zoneOpen i qid cid) s (fun d => d = c.finish (x.status 1 0xBF true))) ∧
    (z.kind = 1 → z.state ∈ [0, 1, 2, 3] →
      (∀ e, c.begin x true = (false, e) → CompletesThen (.zoneOpen i qid cid) s (fun d => d = e)) ∧
      ∀ e, c.begin x true = (true, e) →
        (z.state = 2 → CompletesThen (.zoneOpen i qid cid) s (fun d => d = e.finish x.ok)) ∧
        (∀ st, z.state ≠ 1 → z.state ≠ 2 → c.openLimits j = some st →
          CompletesThen (.zoneOpen i qid cid) s (fun d => d = e.fail x st)) ∧
        (z.state ≠ 2 → (z.state = 1 ∨ c.openLimits j = none) →
          CompletesThen (.zoneOpen i qid cid) s (fun d =>
            (d.zone j).state = 2 ∧
            ((c.zonesIn z.nsid [1, 2]).length < 128 → z.state ≠ 1 →
              d.zone j = { z with state := 2, hostWp := some (z.hostWp.getD z.mwp) }) ∧
            Keeps [.nvq, .loc, .out] c d))) := by
  intro c j z
  obtain ⟨hbad, hgo⟩ := zoneAction_clause (row := .zoneOpen i qid cid) (s := s) (states := [0, 1, 2, 3]) ha rfl
    (fun n => by simp only [List.mem_cons, List.not_mem_nil, or_false]; omega) (by decide) (zoneOpen_refused hx)
    (act := fun e zs => (c.openLimit zs).elim ((e.openAll zs).finish x.ok) (e.fail x)) fun zs => zoneOpen_eq ha hx
  refine ⟨hbad, fun hk hs => ⟨(hgo hk hs).1, fun e hb => ?_⟩⟩
  obtain ⟨hn, ht⟩ := (hgo hk hs).2 e hb
  refine ⟨hn, fun st h1 h2 hl => ?_, fun h2 hl => ?_⟩
  · have hl' : c.openLimit [j] = some st := (if_neg h1).trans hl
    exact (ht h2).imp fun d hd => hd.trans (congrArg (fun o : Option Status => o.elim _ (e.fail x)) hl')
  · have hl' : c.openLimit [j] = none := by
      unfold Chip.openLimit
      dsimp only
      split
      · rfl
      · next h1 => exact hl.resolve_left h1
    obtain ⟨rfl, -⟩ := Chip.begin_true hb
    obtain ⟨h2', hw, hk'⟩ := (c.remembering x).openAll_single j
    refine (ht h2).imp fun d hd => ?_
    have hd' : d = ((c.remembering x).openAll [j]).finish x.ok :=
      hd.trans (congrArg (fun o : Option Status => o.elim _ ((c.remembering x).fail x)) hl')
    subst hd'
    simp only [Chip.zone_finish]
    exact ⟨h2', hw, (((keeps_remembering c x).mono (by decide)).trans hk').finish _ (by decide) (by decide)⟩

theorem zoneClose_clause (hx : s.chip.zoneSend i.val qid cid 1 = some x) :
    let c := s.chip
    let j := c.zoneNamed x
    let z := c.zone j
    (z.kind ≠ 1 ∨ z.state ∉ [1, 2, 3] →
      CompletesThen (.zoneClose i qid cid) s (fun d => d = c.finish (x.status 1 0xBF true))) ∧
    (z.kind = 1 → z.state ∈ [1, 2, 3] →
      (∀ e, c.begin x true = (false, e) → CompletesThen (.zoneClose i qid cid) s (fun d => d = e)) ∧
      ∀ e, c.begin x true = (true, e) →
        (z.state = 3 → CompletesThen (.zoneClose i qid cid) s (fun d => d = e.finish x.ok)) ∧
        (z.state ≠ 3 → CompletesThen (.zoneClose i qid cid) s (fun d =>
          d = ((e.setZone j { e.zone j with state := 3 }).commitMwp j).finish x.ok ∧ Keeps commitParts c d))) := by
  intro c j z
  obtain ⟨hbad, hgo⟩ := zoneAction_clause (row := .zoneClose i qid cid) (s := s) (states := [1, 2, 3]) ha rfl
    (fun n => by simp only [List.mem_cons, List.not_mem_nil, or_false]; omega) (by decide) (zoneClose_refused hx)
    (act := fun e zs => (zs.foldl (fun c j => (c.setZone j { c.zone j with state := 3 }).commitMwp j) e).finish x.ok)
    fun zs => zoneClose_eq hx
  refine ⟨hbad, fun hk hs => ⟨(hgo hk hs).1, fun e hb => ?_⟩⟩
  obtain ⟨hn, ht⟩ := (hgo hk hs).2 e hb
  obtain ⟨rfl, -⟩ := Chip.begin_true hb
  exact ⟨hn, fun h3 => (ht h3).imp fun d hd => ⟨hd, hd ▸ .ofOp ((((opFrame_remembering c x).setZone _ _).commitMwp j).finish _)⟩⟩

theorem zoneFinish_clause (hx : s.chip.zoneSend i.val qid cid 2 = some x) :
    let c := s.chip
    let j := c.zoneNamed x
    let z := c.zone j
    (z.kind ≠ 1 ∨ z.state ∉ [0, 1, 2, 3, 4] →
      CompletesThen (.zoneFinish i qid cid) s (fun d => d = c.finish (x.status 1 0xBF true))) ∧
    (z.kind = 1 → z.state ∈ [0, 1, 2, 3, 4] →
      (∀ e, c.begin x true = (false, e) → CompletesThen (.zoneFinish i qid cid) s (fun d => d = e)) ∧
      ∀ e, c.begin x true = (true, e) →
        (z.state = 4 → CompletesThen (.zoneFinish i qid cid) s (fun d => d = e.finish x.ok)) ∧
        (z.state ≠ 4 → CompletesThen (.zoneFinish i qid cid) s (fun d =>
          d = e.mapCmd x.seq (fun y => { y with phase := .working, units := [j] }) ∧ Keeps [.nvq] c d))) := by
  intro c j z
  obtain ⟨hbad, hgo⟩ := zoneAction_clause (row := .zoneFinish i qid cid) (s := s) (states := [0, 1, 2, 3, 4]) ha rfl
    (fun n => by simp only [List.mem_cons, List.not_mem_nil, or_false]; omega) (by decide) (zoneFinish_refused hx)
    (act := fun e zs => if zs.isEmpty then e.finish x.ok
      else e.mapCmd x.seq (fun y => { y with phase := .working, units := zs })) fun zs => zoneFinish_eq hx
  refine ⟨hbad, fun hk hs => ⟨(hgo hk hs).1, fun e hb => ?_⟩⟩
  obtain ⟨hn, ht⟩ := (hgo hk hs).2 e hb
  obtain ⟨rfl, -⟩ := Chip.begin_true hb
  exact ⟨hn, fun h4 => (ht h4).imp fun d hd => ⟨hd, hd ▸ (keeps_remembering c x).mapCmd _ _ (by decide)⟩⟩

theorem zoneReset_clause (hx : s.chip.zoneSend i.val qid cid 4 = some x) :
    let c := s.chip
    let j := c.zoneNamed x
    let z := c.zone j
    (z.kind ≠ 1 ∨ z.state ∉ [0, 1, 2, 3, 4] →
      CompletesThen (.zoneReset i qid cid) s (fun d => d = c.finish (x.status 1 0xBF true))) ∧
    (z.kind = 1 → z.state ∈ [0, 1, 2, 3, 4] →
      (∀ e, c.begin x true = (false, e) → CompletesThen (.zoneReset i qid cid) s (fun d => d = e)) ∧
      ∀ e, c.begin x true = (true, e) →
        (z.state = 0 → CompletesThen (.zoneReset i qid cid) s (fun d => d = e.finish x.ok)) ∧
        (z.state ≠ 0 → CompletesThen (.zoneReset i qid cid) s (fun d =>
          d = e.unmapStart x [] [j] ∧ Keeps commitParts c d))) := by
  intro c j z
  obtain ⟨hbad, hgo⟩ := zoneAction_clause (row := .zoneReset i qid cid) (s := s) (states := [0, 1, 2, 3, 4]) ha rfl
    (fun n => by simp only [List.mem_cons, List.not_mem_nil, or_false]; omega) (by decide) (zoneReset_refused hx)
    (act := fun e zs => if zs.isEmpty then e.finish x.ok else e.unmapStart x [] zs) fun zs => zoneReset_eq hx
  refine ⟨hbad, fun hk hs => ⟨(hgo hk hs).1, fun e hb => ?_⟩⟩
  obtain ⟨hn, ht⟩ := (hgo hk hs).2 e hb
  obtain ⟨rfl, -⟩ := Chip.begin_true hb
  exact ⟨hn, fun h0 => (ht h0).imp fun d hd => ⟨hd, hd ▸ .ofOp ((opFrame_remembering c x).unmapStart _ _ _)⟩⟩

theorem zoneOffline_clause (hx : s.chip.zoneSend i.val qid cid 5 = some x) :
    let c := s.chip
    let j := c.zoneNamed x
    let z := c.zone j
    (z.kind ≠ 1 ∨ z.state ∉ [5, 6] →
      CompletesThen (.zoneOffline i qid cid) s (fun d => d = c.finish (x.status 1 0xBF true))) ∧
    (z.kind = 1 → z.state ∈ [5, 6] →
      (∀ e, c.begin x true = (false, e) → CompletesThen (.zoneOffline i qid cid) s (fun d => d = e)) ∧
      ∀ e, c.begin x true = (true, e) →
        (z.state = 6 → CompletesThen (.zoneOffline i qid cid) s (fun d => d = e.finish x.ok)) ∧
        (z.state = 5 → CompletesThen (.zoneOffline i qid cid) s (fun d =>
          d = e.mapCmd x.seq (fun y => { y with phase := .working, units := [j] }) ∧ Keeps [.nvq] c d))) := by
  intro c j z
  obtain ⟨hbad, hgo⟩ := zoneAction_clause (row := .zoneOffline i qid cid) (s := s) (states := [5, 6]) ha rfl
    (fun n => by simp only [List.mem_cons, List.not_mem_nil, or_false]) (by decide) (zoneOffline_refused hx)
    (act := fun e zs => if zs.isEmpty then e.finish x.ok
      else e.mapCmd x.seq (fun y => { y with phase := .working, units := zs })) fun zs => zoneOffline_eq hx
  refine ⟨hbad, fun hk hs => ⟨(hgo hk hs).1, fun e hb => ?_⟩⟩
  obtain ⟨hn, ht⟩ := (hgo hk hs).2 e hb
  obtain ⟨rfl, -⟩ := Chip.begin_true hb
  exact ⟨hn, fun h5 => (ht fun h6 => absurd (h5.symm.trans h6) (by decide)).imp fun d hd =>
    ⟨hd, hd ▸ (keeps_remembering c x).mapCmd _ _ (by decide)⟩⟩

end

/-- Settles O37: every action by the zones it works on, a report by the list it sends. -/
theorem zoneManagementMovesZonesThroughTheirStates : Obligations.ZoneManagementMovesZonesThroughTheirStates := by
  unfold Obligations.ZoneManagementMovesZonesThroughTheirStates
  refine ⟨fun s i qid cid x ha => ⟨zoneOpen_clause s i qid cid x ha, zoneClose_clause s i qid cid x ha,
    zoneFinish_clause s i qid cid x ha, zoneReset_clause s i qid cid x ha, zoneOffline_clause s i qid cid x ha,
    fun hx => ⟨fun e hb => completesThen_eq rfl (reportZones_waits hx hb) rfl, fun e hb => ?_⟩⟩, fun c x j =>
    ⟨fun hu => ⟨Chip.finishZones_waits hu, Chip.finishZones_last hu⟩, c.mayFinish_iff j, fun h => Chip.offlineZones_waits h j,
      fun h => Chip.offlineZones_last h j, Chip.resetZone_idle⟩⟩
  refine completesThen_eq rfl (reportZones_sends hx hb) ⟨e.reportSent x.cmd, e.reportCount x.cmd, rfl, List.take_prefix _ _,
    e.reportSent_fits x.cmd, fun h => if_pos h, fun h => if_neg (by omega), ?_⟩
  obtain ⟨rfl, -⟩ := Chip.begin_true hb
  exact (((keeps_remembering s.chip x).mono (by decide)).emit _ (by decide)).finish _ (by decide) (by decide)

end Sys2Proof.Machine
end

section
/-! ## Format NVM and Sanitize (R19, R118, R144, R242, R244, R249, O32) -/

namespace Sys2Proof.Machine

open Sys2Proof

variable {c d : Chip} {x : InCmd} {i cid : Nat}

/-! ### A record that destroys keys leaves zones and values -/

/-- A key drawn at random and written to both slots of its group. -/
theorem keeps_drawnKey (c : Chip) (g kind set : Nat) :
    Keeps [.mram, .freeCtr] c ((c.takeRandom 256).2.writeKey g kind set (c.takeRandom 256).1) :=
  Keeps.writeKey ((Keeps.refl _ c).withFreeCtr (c.freeCtr + 1) (by decide)) g kind set _ (by decide)

/-- The zone table and the Segment Store stand. -/
structure HeldAlike (c d : Chip) : Prop where
  zones : d.loc.zones = c.loc.zones
  seg : d.seg = c.seg

namespace HeldAlike

theorem refl (c : Chip) : HeldAlike c c := ⟨rfl, rfl⟩

theorem trans {e : Chip} (h : HeldAlike c d) (g : HeldAlike d e) : HeldAlike c e :=
  ⟨g.zones.trans h.zones, g.seg.trans h.seg⟩

theorem of_keeps {ps : List ChipPart} (h : Keeps ps c d) (hl : .loc ∉ ps) (hs : .seg ∉ ps) : HeldAlike c d :=
  ⟨congrArg Loc.zones (h.loc hl), h.seg hs⟩

theorem foldl {α : Type} (f : Chip → α → Chip) (hf : ∀ (d : Chip) (x : α), HeldAlike d (f d x)) (l : List α) (d : Chip) :
    HeldAlike d (l.foldl f d) := by
  induction l generalizing d with
  | nil => exact refl d
  | cons x l ih => exact (hf d x).trans (ih _)

theorem destroyKey (c : Chip) (k : Nat) : HeldAlike c (c.destroyKey k) := by
  unfold Chip.destroyKey
  split <;> exact ⟨rfl, rfl⟩

theorem repage (c : Chip) (i : Nat) : HeldAlike c (c.repage i) := ⟨rfl, rfl⟩

theorem repaged (c before : Chip) : HeldAlike c (c.repaged before) := by
  unfold Chip.repaged
  by_cases hp : (c.loc.ptPresent && c.sys.mode != Mode.rebuild) = true
  · rw [if_pos hp]
    refine foldl _ (fun d i => ?_) _ c
    split
    · exact repage d i
    · exact refl d
  · rw [if_neg hp]
    exact refl c

theorem appendRecs (c : Chip) (rs : List Rec) : HeldAlike c (c.appendRecs rs) :=
  of_keeps ((Keeps.refl recordParts c).appendRecs rs (by decide)) (by decide) (by decide)

/-- What a checkpoint writes before its record leaves the zones and the values. -/
theorem ckptParts (h : HeldAlike c d) (x : Jnl) (y : Sec) (z : Bcl) {w : Loc} (hw : w.zones = d.loc.zones) :
    HeldAlike c { d with jnl := x, sec := y, bcl := z, loc := w } := ⟨hw.trans h.zones, h.seg⟩

theorem startCkpt (c : Chip) (n : Nat) : HeldAlike c (c.startCkpt n) :=
  ((of_keeps (keeps_drawnKey c _ 3 _) (by decide) (by decide)).ckptParts _ _ _ (by rfl)).trans (appendRecs _ _)

theorem maybeCkpt (c : Chip) : HeldAlike c c.maybeCkpt := by
  unfold Chip.maybeCkpt
  split
  · exact startCkpt c 1
  · exact refl c

theorem apply_secDestroy (c : Chip) (s ns k : Nat) : HeldAlike c (c.applyRec (.secDestroy s ns k)) := by
  unfold Chip.applyRec
  dsimp only
  split
  · exact destroyKey c k
  · exact foldl _ (fun d j => destroyKey d j) _ c

theorem commit_secDestroy (c : Chip) (s ns k : Nat) : HeldAlike c (c.commit .sec [.secDestroy s ns k] []) := by
  have hn : HeldAlike c (c.commitNow ⟨.sec, [.secDestroy s ns k], []⟩) :=
    (((appendRecs c _).trans (apply_secDestroy _ s ns k)).trans (repaged _ _)).trans (maybeCkpt _)
  unfold Chip.commit
  split
  · split
    · exact hn
    · exact refl c
  · split
    · exact of_keeps ((Keeps.refl [.regs, .jnl] c).waitOp _ (by decide) (by decide)) (by decide) (by decide)
    · exact hn

theorem unmapKeysOf (h : HeldAlike c d) : d.unmapKeysOf = c.unmapKeysOf := by
  funext n
  unfold Chip.unmapKeysOf
  rw [h.seg]

theorem unmapZonesOf (h : HeldAlike c d) : d.unmapZonesOf = c.unmapZonesOf := by
  funext n
  unfold Chip.unmapZonesOf Chip.unmapList Chip.convList
  rw [h.zones]

end HeldAlike

/-! ### Format NVM -/

/-- The chip once the keys of a namespace that is formatted with SES 2 are destroyed. -/
def Chip.formatted (c : Chip) (n ses : Nat) : Chip := if ses = 2 then c.commit .sec [.secDestroy 1 n 0] [] else c

theorem heldAlike_formatted (c : Chip) (n ses : Nat) : HeldAlike c (c.formatted n ses) := by
  unfold Chip.formatted
  split
  · exact .commit_secDestroy c 1 n 0
  · exact .refl c

section
variable (hx : c.admin i cid 0x80 = some x)
include hx

theorem formatNvm_inactive (hn : c.nsActive x.cmd.nsid = false) : formatNvm c i cid = c.finish (x.status 0 0x0B true) := by
  simp [formatNvm, hx, hn, Chip.fail, stInvalidNs]

variable (hn : c.nsActive x.cmd.nsid = true)
include hn

theorem formatNvm_lbaf (hf : x.cmd.cdw10 % 16 ≠ 0) : formatNvm c i cid = c.finish (x.status 1 0x0A true) := by
  simp [formatNvm, hx, hn, hf, Chip.fail]

variable (hf : x.cmd.cdw10 % 16 = 0)
include hf

theorem formatNvm_ses (hs : 2 < x.cmd.cdw10 / 512 % 8) : formatNvm c i cid = c.finish (x.status 0 0x02 true) := by
  simp [formatNvm, hx, hn, hf, hs, Chip.fail, stInvalidField]

variable (hs : x.cmd.cdw10 / 512 % 8 ≤ 2) (hm : c.sys.mode = .service) (ht : c.sys.trans = none)
include hs hm ht

theorem formatNvm_gated {st : Status} (hg : c.gate x.cmd.nsid true = some st) : formatNvm c i cid = c.fail x st := by
  have hl := Chip.leaveRest_awake ht (by rw [hm]; decide)
  simp [formatNvm, hx, hn, hf, Nat.not_lt.2 hs, hl, hg]

theorem formatNvm_waits (hg : c.gate x.cmd.nsid true = none) (hw : c.mustWait .sec = true) : formatNvm c i cid = c := by
  have hl := Chip.leaveRest_awake ht (by rw [hm]; decide)
  simp [formatNvm, hx, hn, hf, Nat.not_lt.2 hs, hl, hg, hw]

theorem formatNvm_unmaps (hg : c.gate x.cmd.nsid true = none) (hw : c.mustWait .sec = false) :
    formatNvm c i cid = (c.formatted x.cmd.nsid (x.cmd.cdw10 / 512 % 8)).unmapStart x
      ((c.formatted x.cmd.nsid (x.cmd.cdw10 / 512 % 8)).unmapKeysOf x.cmd.nsid)
      ((c.formatted x.cmd.nsid (x.cmd.cdw10 / 512 % 8)).unmapZonesOf x.cmd.nsid) := by
  have hl := Chip.leaveRest_awake ht (by rw [hm]; decide)
  have hh := heldAlike_formatted c x.cmd.nsid (x.cmd.cdw10 / 512 % 8)
  rw [hh.unmapKeysOf, hh.unmapZonesOf]
  simp only [formatNvm, hx, hn, hf, Nat.not_lt.2 hs, hl, hg, hw, Bool.not_true, Bool.false_eq_true, ↓reduceIte, ne_eq,
    not_true_eq_false]
  rfl

end

theorem opFrame_formatted (c : Chip) (n ses : Nat) : OpFrame c (c.formatted n ses) :=
  .ite (fun _ => (OpFrame.refl c).commit _ _ _) fun _ => .refl c

/-! ### Sanitize -/

/-- The chip once a crypto erase has replaced the media root and destroyed every band key. -/
def Chip.erased (c : Chip) : Chip :=
  ((c.takeRandom 256).2.writeKey 7 1 0 (c.takeRandom 256).1).commit .sec [.secDestroy 2 0 0] []

theorem opFrame_erased (c : Chip) : OpFrame c c.erased := (((OpFrame.refl c).takeRandom 256).writeKey _ _ _ _).commit _ _ _

theorem heldAlike_erased (c : Chip) : HeldAlike c c.erased :=
  (HeldAlike.of_keeps (keeps_drawnKey c 7 1 0) (by decide) (by decide)).trans (.commit_secDestroy _ 2 0 0)

section
variable (hx : c.admin i cid 0x84 = some x)
include hx

theorem sanitize_exit (ha : x.cmd.cdw10 % 8 = 1) : sanitize c i cid = c.finish x.ok := by
  simp [sanitize, hx, ha]

theorem sanitize_other (h1 : x.cmd.cdw10 % 8 ≠ 1) (h4 : x.cmd.cdw10 % 8 ≠ 4) :
    sanitize c i cid = c.finish (x.status 0 0x02 true) := by
  unfold sanitize
  simp only [hx]
  rfl

variable (ha : x.cmd.cdw10 % 8 = 4) (hm : c.sys.mode = .service) (ht : c.sys.trans = none)
include ha hm ht

theorem sanitize_retired (hr : c.chd.retiredA = true ∨ c.chd.retiredB = true) :
    sanitize c i cid = c.finish (x.status 0 0x82 true) := by
  have hl := Chip.leaveRest_awake ht (by rw [hm]; decide)
  have hr' : (c.chd.retiredA || c.chd.retiredB) = true := by simpa using hr
  simp [sanitize, hx, ha, hl, hr', Chip.fail]

variable (hA : c.chd.retiredA = false) (hB : c.chd.retiredB = false)
include hA hB

theorem sanitize_gated {st : Status} (hg : c.gate 1 true = some st) : sanitize c i cid = c.fail x st := by
  have hl := Chip.leaveRest_awake ht (by rw [hm]; decide)
  simp [sanitize, hx, ha, hl, hA, hB, hg]

theorem sanitize_waits (hg : c.gate 1 true = none) (hw : c.mustWait .sec = true) : sanitize c i cid = c := by
  have hl := Chip.leaveRest_awake ht (by rw [hm]; decide)
  simp [sanitize, hx, ha, hl, hA, hB, hg, hw]

theorem sanitize_unmaps (hg : c.gate 1 true = none) (hw : c.mustWait .sec = false) : sanitize c i cid =
    c.erased.unmapStart x ([1, 2, 3, 4].flatMap c.erased.unmapKeysOf) ([1, 2, 3, 4].flatMap c.erased.unmapZonesOf) := by
  have hl := Chip.leaveRest_awake ht (by rw [hm]; decide)
  have hh := heldAlike_erased c
  rw [hh.unmapKeysOf, hh.unmapZonesOf]
  simp only [sanitize, hx, ha, hl, hA, hB, hg, hw, Bool.or_self, Bool.false_eq_true, ↓reduceIte]
  rfl

end

/-! ### An unmapping command that waits, and one with nothing to unmap -/

/-- The command as it remembers the zones to unmap and their bands. -/
def InCmd.unmapping (c : Chip) (zones : List Nat) (y : InCmd) : InCmd :=
  { y with phase := .working, keys := [], units := zones, safe := zones.filterMap c.bandOfZone }

theorem Chip.unmapZones_waits (h : c.mustWaitFor .locus 3 = true) (seq : Nat) (zones : List Nat) : c.unmapZones seq zones = c := by
  cases zones with
  | nil => rfl
  | cons z zs => exact if_pos h

theorem Chip.unmapStart_waits {zones : List Nat} (hz : zones ≠ []) (h : c.mustWaitFor .locus 3 = true) :
    c.unmapStart x [] zones = c.mapCmd x.seq (InCmd.unmapping c zones) := by
  have hw : (c.mapCmd x.seq (InCmd.unmapping c zones)).unmapZones x.seq zones = c.mapCmd x.seq (InCmd.unmapping c zones) :=
    Chip.unmapZones_waits (c := c.mapCmd x.seq (InCmd.unmapping c zones)) h x.seq zones
  change Chip.unmapMore (c.mapCmd x.seq (InCmd.unmapping c zones)) (InCmd.unmapping c zones x) = _
  unfold Chip.unmapMore
  simp only [show (InCmd.unmapping c zones x).seq = x.seq from rfl, show (InCmd.unmapping c zones x).keys = [] from rfl,
    show (InCmd.unmapping c zones x).units = zones from rfl, Chip.unmapKeys, hw]
  split
  · next y hy =>
    have hs : y.seq = x.seq := by simpa using List.find?_some hy
    obtain ⟨w, -, hw⟩ := List.mem_map.1 (List.mem_of_find?_eq_some hy)
    have hu : y.units = zones := by
      by_cases he : w.seq = x.seq
      · rw [if_pos he] at hw
        rw [← hw]
        rfl
      · rw [if_neg he] at hw
        exact absurd (hw ▸ hs) he
    simp [hu, hz]
  · rfl

/-- With nothing to unmap the command is at its end at once. -/
theorem Chip.unmapStart_nothing (hi : c.nvq.inflight = [x]) :
    c.unmapStart x [] [] = (c.mapCmd x.seq (InCmd.unmapping c [])).unmapDone (InCmd.unmapping c [] x) := by
  have hf : (c.mapCmd x.seq (InCmd.unmapping c [])).nvq.inflight = [InCmd.unmapping c [] x] := by
    simp [Chip.mapCmd, Nvq.mapCmd, hi]
  change Chip.unmapMore (c.mapCmd x.seq (InCmd.unmapping c [])) (InCmd.unmapping c [] x) = _
  unfold Chip.unmapMore
  simp only [show (InCmd.unmapping c [] x).keys = [] from rfl, show (InCmd.unmapping c [] x).units = [] from rfl,
    Chip.unmapKeys, Chip.unmapZones, hf, List.find?_cons, beq_self_eq_true, List.isEmpty_nil, Bool.and_self, ↓reduceIte]

theorem Chip.unmapSecure_iff (c : Chip) {h : HostCmd} (ho : h.opcode ∈ [0x80, 0x84]) :
    c.unmapSecure h = true ↔ h.opcode = 0x84 ∨ h.cdw10 / 512 % 8 ≠ 0 := by
  simp only [List.mem_cons, List.not_mem_nil, or_false] at ho
  unfold Chip.unmapSecure
  rcases ho with h0 | h0 <;> simp [h0]

/-- What a secure discard holds and purges, whatever its progress. -/
def SecureDiscard.asked (d : SecureDiscard) : Option Completion × Bool × Bool := (d.post, d.purgeA, d.purgeB)

/-- A checkpoint moves the discards that wait for a final destruction, and changes nothing they hold. -/
theorem Chip.asked_startCkpt (c : Chip) (n : Nat) :
    (c.startCkpt n).bcl.discards.map SecureDiscard.asked = c.bcl.discards.map SecureDiscard.asked := by
  unfold Chip.startCkpt
  dsimp only
  rw [((Keeps.refl recordParts _).appendRecs _ (by decide)).bcl (by decide), List.map_map]
  rw [(keeps_drawnKey c _ _ _).bcl (by decide)]
  refine List.map_congr_left fun d _ => ?_
  simp only [Function.comp]
  split <;> rfl

theorem Chip.asked_seekFinal (c : Chip) :
    c.seekFinal.bcl.discards.map SecureDiscard.asked = c.bcl.discards.map SecureDiscard.asked := by
  unfold Chip.seekFinal Chip.maybeCkpt
  split
  · split
    · exact Chip.asked_startCkpt _ 1
    · rfl
  · rfl

theorem Chip.asked_startDiscard (c : Chip) (post : Option Completion) (bands : List Nat) (acts : List Act) (keys : Bool)
    (conv : List (Nat × Nat × Nat)) : (c.startDiscard post bands [] acts keys conv).bcl.discards.map SecureDiscard.asked =
      c.bcl.discards.map SecureDiscard.asked ++ [(post, acts.contains .A, acts.contains .B)] := by
  unfold Chip.startDiscard
  dsimp only [List.foldl_nil]
  rw [Chip.asked_seekFinal, List.map_append]
  rfl

theorem Chip.asked_unmapDone {y : InCmd} (ho : y.cmd.opcode ∈ [0x80, 0x84]) (hs : c.unmapSecure y.cmd = true) :
    (c.unmapDone y).bcl.discards.map SecureDiscard.asked = c.bcl.discards.map SecureDiscard.asked ++
      [(some y.ok, decide (y.cmd.opcode = 0x84) || (nsActs y.cmd.nsid).contains .A,
        decide (y.cmd.opcode = 0x84) || (nsActs y.cmd.nsid).contains .B)] := by
  simp only [List.mem_cons, List.not_mem_nil, or_false] at ho
  unfold Chip.unmapDone
  simp only [hs, Bool.not_true, Bool.false_eq_true, ↓reduceIte]
  rcases ho with h0 | h0
  · simp only [h0, Nat.reduceEqDiff, ↓reduceIte, decide_false, Bool.false_or]
    exact Chip.asked_startDiscard _ _ _ _ _ _
  · simp only [h0, Nat.reduceEqDiff, ↓reduceIte, decide_true, Bool.true_or]
    exact Chip.asked_startDiscard _ _ _ _ _ _

/-- Settles O32: the checks in turn, then the unmapping through the frame of a commit. -/
theorem formatAndSanitizeUnmapTheirNamespaces : Obligations.FormatAndSanitizeUnmapTheirNamespaces := by
  unfold Obligations.FormatAndSanitizeUnmapTheirNamespaces
  refine ⟨fun s i cid x hx => ⟨fun hn => ?_, fun hn => ⟨fun hf => ?_, fun hf hs => ?_, fun hf hs hm ht =>
      ⟨fun st hg => ?_, fun hg hw => ?_, fun hg hw => ?_⟩⟩⟩,
    fun s i cid x hx => ⟨fun ha => ?_, fun h1 h4 => ?_, fun ha hm ht => ⟨fun hr => ?_, fun hA hB =>
      ⟨fun st hg => ?_, fun hg hw => ?_, fun hg hw => ?_⟩⟩⟩,
    fun c x zones => ⟨fun hz h => Chip.unmapStart_waits hz h, ?_⟩⟩
  · exact completesThen_eq rfl (formatNvm_inactive hx hn) rfl
  · exact completesThen_eq rfl (formatNvm_lbaf hx hn hf) rfl
  · exact completesThen_eq rfl (formatNvm_ses hx hn hf hs) rfl
  · exact completesThen_eq rfl (formatNvm_gated hx hn hf hs hm ht hg) rfl
  · exact completesThen_eq rfl (formatNvm_waits hx hn hf hs hm ht hg hw) rfl
  · exact completesThen_eq rfl (formatNvm_unmaps hx hn hf hs hm ht hg hw)
      ⟨rfl, .ofOp ((opFrame_formatted _ _ _).unmapStart _ _ _)⟩
  · exact completesThen_eq rfl (sanitize_exit hx ha) rfl
  · exact completesThen_eq rfl (sanitize_other hx h1 h4) rfl
  · exact completesThen_eq rfl (sanitize_retired hx ha hm ht hr) rfl
  · exact completesThen_eq rfl (sanitize_gated hx ha hm ht hA hB hg) rfl
  · exact completesThen_eq rfl (sanitize_waits hx ha hm ht hA hB hg hw) rfl
  · exact completesThen_eq rfl (sanitize_unmaps hx ha hm ht hA hB hg hw) ⟨rfl, .ofOp ((opFrame_erased _).unmapStart _ _ _)⟩
  · rintro rfl hi ho
    have he := Chip.unmapStart_nothing hi
    have hs := (c.mapCmd x.seq (InCmd.unmapping c [])).unmapSecure_iff ho
    refine ⟨fun hn => ?_, fun hy => ⟨_, ?_, rfl⟩⟩
    · have hf : (c.mapCmd x.seq (InCmd.unmapping c [])).unmapSecure x.cmd = false := by simpa using mt hs.1 hn
      rw [he]
      exact if_pos (congrArg (!·) hf)
    · rw [he]
      exact Chip.asked_unmapDone (y := InCmd.unmapping c [] x) ho (hs.2 hy)

end Sys2Proof.Machine
end

section
/-! ## Writes (R19, R21, R118, R123, R126 to R129, R139, R144, R214, O35) -/

namespace Sys2Proof.Machine

open Sys2Proof

variable {c d : Chip} {ps : List ChipPart} {x y : InCmd} {i qid cid unit : Nat}

theorem allSome_map_some {α : Type} (l : List α) : allSome (l.map some) = some l := by
  induction l with
  | nil => rfl
  | cons a l ih => simp [allSome, ih]

theorem allSome_of_map {α β : Type} {f : β → Option α} {l : List β} {as : List α} (h : l.map f = as.map some) :
    allSome (l.map f) = some as := h ▸ allSome_map_some as

/-! ### The zone rules (R139, R144) -/

/-- LBAs that lie in one zone touch that zone alone. -/
theorem Chip.zonesTouched_single {nsid base n : Nat} (hns : nsid = 1 ∨ nsid = 2) (h1 : 1 ≤ n)
    (hb : base % 65536 + n ≤ 65536) : c.zonesTouched nsid base n = [(c.loc.place nsid base).1] := by
  have hr : (base + n - 1) / 65536 + 1 - base / 65536 = 1 := by omega
  unfold Chip.zonesTouched
  rw [hr]
  rcases hns with rfl | rfl <;> simp [Loc.place]

section
variable {nsid base n : Nat} (hz : c.zonesTouched nsid base n = [(c.loc.place nsid base).1])
include hz

theorem Chip.writeRules_readOnly (h : (c.zone (c.loc.place nsid base).1).state = 5) :
    c.writeRules nsid base n = some (1, 0xBA, true) := by
  simp [Chip.writeRules, hz, h]

theorem Chip.writeRules_offline (h : (c.zone (c.loc.place nsid base).1).state = 6) :
    c.writeRules nsid base n = some (1, 0xBB, true) := by
  simp [Chip.writeRules, hz, h]

variable (hk : (c.zone (c.loc.place nsid base).1).kind = 1)
include hk

theorem Chip.writeRules_full (h : (c.zone (c.loc.place nsid base).1).state = 4) :
    c.writeRules nsid base n = some (1, 0xB9, true) := by
  simp [Chip.writeRules, hz, h, hk]

theorem Chip.writeRules_pointer (h : (c.zone (c.loc.place nsid base).1).state < 4) (hb : base % 65536 + n ≤ 65536) :
    c.writeRules nsid base n = if base % 65536 ≠
      (c.zone (c.loc.place nsid base).1).hostWp.getD (c.zone (c.loc.place nsid base).1).mwp then some (1, 0xBC, true)
    else none := by
  have h5 : ((c.zone (c.loc.place nsid base).1).state == 5) = false := by simp; omega
  have h6 : ((c.zone (c.loc.place nsid base).1).state == 6) = false := by simp; omega
  have h4 : (c.zone (c.loc.place nsid base).1).state ≠ 4 := by omega
  unfold Chip.writeRules
  simp only [hz, List.any_cons, List.any_nil, h5, h6, h4, hk, Bool.or_self, Bool.false_eq_true, ↓reduceIte,
    if_neg (Nat.not_lt.2 hb)]

end

/-! ### Acceptance (R19, R21, R127, R129) -/

namespace OpFrame

theorem openZone (h : OpFrame c d) (zone state : Nat) : OpFrame c (d.openZone zone state) := by
  unfold Chip.openZone
  dsimp only
  refine OpFrame.setZone ?_ _ _
  split
  · split
    · exact (h.setZone _ _).zoneChanged _
    · exact h
  · exact h

theorem accept (h : OpFrame c d) (x : InCmd) (zone first : Nat) (ps : List (Nat × Nat × Nat)) :
    OpFrame c (d.accept x zone first ps) := by
  unfold Chip.accept
  dsimp only
  refine OpFrame.mapCmd (ite (fun _ => foldl _ (fun _ _ h => h.setZone _ _) _ ?_) fun _ => ?_) _ _ <;>
    exact ite (fun _ => (ite (fun _ => (h.setNvq _ (by rfl)).openZone _ _) fun _ => h.setNvq _ (by rfl)).setZone _ _)
      fun _ => ite (fun _ => (h.setNvq _ (by rfl)).openZone _ _) fun _ => h.setNvq _ (by rfl)

theorem begin (h : OpFrame c d) (x : InCmd) (m : Bool) : OpFrame c (d.begin x m).2 := by
  cases hg : d.gate x.cmd.nsid m with
  | some st => rw [Chip.begin_gated hg]; exact h.finish _
  | none =>
    by_cases hb : d.barred x m
    · rw [Chip.begin_barred hg hb]; exact h
    · by_cases hw : d.behind x
      · rw [Chip.begin_behind hg hb hw]
        split
        · exact h
        · exact (h.mapCmd _ _).bump _ (by decide)
      · rw [Chip.begin_issues hg hb hw]
        split
        · exact (h.trans (opFrame_remembering d x)).mapCmd _ _
        · exact h.trans (opFrame_remembering d x)

theorem allocBands (h : OpFrame c d) (bs : List (Nat × Nat)) :
    OpFrame c (bs.foldl (fun c e => c.allocBand e.1 e.2) d) := foldl _ (fun _ _ h => h.allocBand _ _) _ h

theorem writeOn (h : OpFrame c d) (x : InCmd) (base : Nat) : OpFrame c (d.writeOn x base) := by
  have hb := h.begin x true
  unfold Chip.writeOn
  dsimp only
  refine ite (fun _ => hb) fun _ => ?_
  split
  · exact hb.finish _
  · split
    · exact hb.finish _
    · exact ite (fun _ => hb) fun _ => (hb.allocBands _).accept _ _ _ _

end OpFrame

/-- The zone rule of a Write or Zone Append. -/
def Chip.rulesOf (c : Chip) (op zone : Nat) (x : InCmd) : Option Status :=
  if op = 0x01 then c.writeRules x.cmd.nsid x.cmd.slba x.cmd.nlb else c.appendRules zone x.cmd.nlb

/-- What a Write and a Zone Append have in common: the command whose zones no other will change, the zone rules, the
length of the data pointer, and the write at a base. -/
def Chip.writeAt (c : Chip) (x : InCmd) (rules : Option Status) (base : Nat) : Chip :=
  match rules with
  | some st => c.fail x st
  | none => if x.cmd.sglBad then c.fail x stSglLength else c.writeOn x base

/-- Stated for any rules: those of a write are costly to evaluate, and nothing here depends on them. -/
theorem Chip.writeAt_of_taken (o : Option InCmd) (rules : Nat → Nat → Nat → Option Status) (ho : o = some x) :
    (match (generalizing := false) o with
      | none => c
      | some x => match rules x.cmd.nsid x.cmd.slba x.cmd.nlb with
        | some st => c.fail x st
        | none => if x.cmd.sglBad then c.fail x stSglLength else c.writeOn x x.cmd.slba) =
      c.writeAt x (rules x.cmd.nsid x.cmd.slba x.cmd.nlb) x.cmd.slba := by
  subst ho
  rfl

theorem writeCommand_eq (hx : c.zoneIo i qid cid 0x01 = some x) :
    writeCommand c i qid cid = c.writeAt x (c.writeRules x.cmd.nsid x.cmd.slba x.cmd.nlb) x.cmd.slba :=
  Chip.writeAt_of_taken _ c.writeRules hx

theorem zoneAppend_eq (hx : c.zoneIo i qid cid 0x7D = some x) : zoneAppend c i qid cid =
    c.writeAt x (c.appendRules (c.loc.place x.cmd.nsid x.cmd.slba).1 x.cmd.nlb) (x.cmd.slba +
      (c.zone (c.loc.place x.cmd.nsid x.cmd.slba).1).hostWp.getD (c.zone (c.loc.place x.cmd.nsid x.cmd.slba).1).mwp) := by
  cases hr : c.appendRules (c.loc.place x.cmd.nsid x.cmd.slba).1 x.cmd.nlb <;>
    simp only [zoneAppend, hx, hr, Chip.writeAt]

theorem Chip.writeAt_passes (base : Nat) (h : x.cmd.sglBad = false) : c.writeAt x none base = c.writeOn x base :=
  if_neg (by simp [h])

section
variable {e : Chip} {base : Nat}

theorem Chip.writeOn_waits (hb : c.begin x true = (false, e)) : c.writeOn x base = e := by
  simp [Chip.writeOn, hb]

/-- A write to the zone opens it. -/
def Chip.opens (c : Chip) (zone : Nat) : Prop :=
  (c.zone zone).kind = 1 ∧ (c.zone zone).state ≠ 1 ∧ (c.zone zone).state ≠ 2

theorem Chip.writeOn_limited (hb : c.begin x true = (true, e)) (ho : e.opens (e.loc.place x.cmd.nsid base).1) {st : Status}
    (hl : e.openLimits (e.loc.place x.cmd.nsid base).1 = some st) : c.writeOn x base = e.fail x st := by
  unfold Chip.opens at ho
  simp [Chip.writeOn, hb, ho, hl]

variable (hb : c.begin x true = (true, e)) (ho : ¬e.opens (e.loc.place x.cmd.nsid base).1 ∨
  e.openLimits (e.loc.place x.cmd.nsid base).1 = none)
include hb ho

theorem Chip.writeOn_eq : c.writeOn x base = (e.newBands (e.zonesTouched x.cmd.nsid base x.cmd.nlb)).elim
    (e.finish (x.status 0 0x81 false)) (fun bs => if !bs.isEmpty && e.mustWaitFor .locus bs.length then e
      else (bs.foldl (fun c e => c.allocBand e.1 e.2) e).accept x (e.loc.place x.cmd.nsid base).1 (base % 65536)
        (e.places x.cmd.nsid base x.cmd.nlb)) := by
  have hl : (if (e.zone (e.loc.place x.cmd.nsid base).1).kind = 1 ∧ (e.zone (e.loc.place x.cmd.nsid base).1).state ≠ 1 ∧
      (e.zone (e.loc.place x.cmd.nsid base).1).state ≠ 2 then e.openLimits (e.loc.place x.cmd.nsid base).1 else none) =
        none := by
    split
    · next h => exact ho.resolve_left (not_not_intro h)
    · rfl
  unfold Chip.writeOn
  simp only [hb, Bool.not_true, Bool.false_eq_true, ↓reduceIte, hl]
  cases e.newBands (e.zonesTouched x.cmd.nsid base x.cmd.nlb) <;> rfl

end

/-- What a Write or Zone Append does once it is issued. -/
theorem write_clause {row : Instr} {s : State} {rules : Option Status} {base : Nat}
    (hrow : exec row s = s.done (s.chip.writeAt x rules base)) :
    (∀ st, rules = some st → CompletesThen row s (fun d => d = s.chip.fail x st)) ∧
    (rules = none → x.cmd.sglBad = true → CompletesThen row s (fun d => d = s.chip.finish (x.status 0 0x0F true))) ∧
    (rules = none → x.cmd.sglBad = false →
      (∀ e, s.chip.begin x true = (false, e) → CompletesThen row s (fun d => d = e)) ∧
      (∀ e, s.chip.begin x true = (true, e) →
        let ps := e.places x.cmd.nsid base x.cmd.nlb
        let zs := e.zonesTouched x.cmd.nsid base x.cmd.nlb
        let target := (e.loc.place x.cmd.nsid base).1
        let opens := (e.zone target).kind = 1 ∧ (e.zone target).state ≠ 1 ∧ (e.zone target).state ≠ 2
        (∀ st, opens → e.openLimits target = some st → CompletesThen row s (fun d => d = e.fail x st)) ∧
        ((¬ opens ∨ e.openLimits target = none) →
          (e.newBands zs = none → CompletesThen row s (fun d => d = e.finish (x.status 0 0x81 false))) ∧
          (∀ bs, e.newBands zs = some bs →
            (bs ≠ [] → e.mustWaitFor .locus bs.length = true → CompletesThen row s (fun d => d = e)) ∧
            (bs = [] ∨ e.mustWaitFor .locus bs.length = false → CompletesThen row s (fun d =>
              d = (bs.foldl (fun c e => c.allocBand e.1 e.2) e).accept x target (base % 65536) ps ∧
              Keeps commitParts s.chip d)))))) := by
  refine ⟨fun st hs => completesThen_eq hrow (by rw [hs]; rfl) rfl,
    fun hs hb => completesThen_eq hrow (by rw [hs]; exact if_pos hb) rfl, fun hs hb => ?_⟩
  rw [hs, Chip.writeAt_passes base hb] at hrow
  refine ⟨fun e he => completesThen_eq hrow (Chip.writeOn_waits he) rfl, fun e he =>
    ⟨fun st ho hl => completesThen_eq hrow (Chip.writeOn_limited he ho hl) rfl, fun ho => ?_⟩⟩
  have hw := Chip.writeOn_eq he ho
  refine ⟨fun hn => completesThen_eq hrow (hw.trans (by rw [hn]; rfl)) rfl, fun bs hn => ?_⟩
  rw [hn] at hw
  refine ⟨fun hn hm => completesThen_eq hrow (hw.trans (if_pos (by simp [hn, hm]))) rfl, fun hc =>
    completesThen_eq hrow (hw.trans (if_neg ?_)) ⟨rfl, ?_⟩⟩
  · rcases hc with rfl | hm <;> simp [*]
  · obtain ⟨rfl, -⟩ := Chip.begin_true he
    exact .ofOp (((opFrame_remembering s.chip x).allocBands bs).accept _ _ _ _)

/-! ### What an accepted write leaves -/

/-- The command of an accepted write. -/
def InCmd.accepted (y : InCmd) (zone first : Nat) (us : List Nat) (order gen : Nat) (go : Bool) : InCmd :=
  { y with zone := zone, first := first, units := us, order := order, gen := gen
           phase := if go then .transferring else .held }

theorem Chip.accept_open {zone first : Nat} {ps : List (Nat × Nat × Nat)} (hk : (c.zone zone).kind = 1)
    (hs : (c.zone zone).state = 1 ∨ (c.zone zone).state = 2) (hn : c.nvq.secure = []) :
    c.accept x zone first ps = (({ c with nvq := { c.nvq with nextOrder := c.nvq.nextOrder + 1 } } : Chip).setZone zone
      { c.zone zone with
        hostWp := some (first + ps.length), lastWrite := c.nvq.nextOrder + 1
        state := if first + ps.length = 65536 then 4 else (c.zone zone).state }).mapCmd x.seq (fun y =>
      y.accepted zone first (unitsOf ps) c.nvq.nextOrder (c.zone zone).gen
        (c.nvq.heldWrites.isEmpty && c.stagingRoom (unitsOf ps) 0)) := by
  have hz : ({ c with nvq := { c.nvq with nextOrder := c.nvq.nextOrder + 1 } } : Chip).zone zone = c.zone zone := rfl
  have hc : ¬((c.zone zone).state ≠ 1 ∧ (c.zone zone).state ≠ 2) := by tauto
  have hsec (d : Chip) (hd : d.nvq.secure = []) : d.nvq.secure.contains x.cmd.nsid = false := by rw [hd]; rfl
  unfold Chip.accept
  simp only [hz, hk, true_and, if_neg hc, ↓reduceIte]
  rw [if_neg (by rw [hsec _ (by exact hn)]; exact Bool.false_ne_true), Chip.zone_setZone_self]
  rfl

theorem accept_clause {zone first : Nat} {ps : List (Nat × Nat × Nat)} (hk : (c.zone zone).kind = 1)
    (hs : (c.zone zone).state = 1 ∨ (c.zone zone).state = 2) (hn : c.nvq.secure = []) :
    let d := c.accept x zone first ps
    let z := c.zone zone
    let go := c.nvq.heldWrites.isEmpty && c.stagingRoom (unitsOf ps) 0
    d.zone zone = { z with
      hostWp := some (first + ps.length), lastWrite := c.nvq.nextOrder + 1
      state := if first + ps.length = 65536 then 4 else z.state } ∧
    d.nvq.inflight = c.nvq.inflight.map (fun y => if y.seq = x.seq then { y with
      zone := zone, first := first, units := unitsOf ps, order := c.nvq.nextOrder, gen := z.gen
      phase := if go then .transferring else .held } else y) ∧
    d.nvq.nextOrder = c.nvq.nextOrder + 1 ∧ Keeps [.nvq, .loc] c d := by
  intro d z go
  have hd : d = _ := Chip.accept_open hk hs hn
  have hz := (Keeps.refl [.nvq, .loc] c).withNvq { c.nvq with nextOrder := c.nvq.nextOrder + 1 } (by decide)
  rw [hd]
  exact ⟨Chip.zone_setZone_self _ _ _, rfl, rfl, (hz.setZone _ _ (by decide)).mapCmd _ _ (by decide)⟩

/-! ### Transfers (R21) -/

section
variable {ys : List InCmd} (ha : c.alive = true) (hh : c.inHoldup = false) (hw : c.nvq.heldWrites = x :: ys)
include ha hh hw

theorem writeTransferStart_fits (h : c.fits x = true) :
    writeTransferStart c = c.mapCmd x.seq (fun y => { y with phase := .transferring }) := by
  simp [writeTransferStart, ha, hh, hw, h]

theorem writeTransferStart_waits (h : c.fits x = false) : writeTransferStart c = c := by
  simp [writeTransferStart, ha, hh, hw, h]

end

/-! ### Staging (R126, R127, R144, R214) -/

theorem Keeps.withNvqLoc (h : Keeps ps c d) (x : Nvq) (y : Loc) (hn : .nvq ∈ ps) (hl : .loc ∈ ps) :
    Keeps ps c { d with nvq := x, loc := y } := (h.withNvq x hn).withLoc y hl

theorem Keeps.checkDirty (h : Keeps ps c d) (hr : .regs ∈ ps) (hp : .pwr ∈ ps) : Keeps ps c d.checkDirty :=
  .ite (fun _ => h.raise _ _ hr hp) fun _ => h

theorem onlyRegs_checkDirty (c : Chip) : OnlyRegs [pIntStatus 0x11] c c.checkDirty :=
  .ite (fun _ => (OnlyRegs.refl c _).raise _ _ (by decide)) fun _ => .refl c _

/-- The unit that a command's data makes in staging. -/
def Chip.stagedUnit (c : Chip) (x : InCmd) (no : Nat) (data : SMap Block) : Staged :=
  { nsid := x.cmd.nsid, zone := no / 4096, unit := no % 4096 * 16, data := data
    order := x.order, seq := x.seq, queue := x.queue, stamp := c.nvq.staged }

theorem stage_frame (c : Chip) (x : InCmd) (no : Nat) (data : SMap Block) :
    (c.stage x no data).nvq = { c.nvq with
      staging := c.nvq.staging ++ [c.stagedUnit x no data], staged := c.nvq.staged + 1 } ∧
    OnlyRegs [pIntStatus 0x11] c (c.stage x no data) ∧ Keeps [.regs, .nvq, .loc, .pwr] c (c.stage x no data) := by
  refine ⟨?_, (OnlyRegs.of_regs rfl).trans (onlyRegs_checkDirty _), Keeps.checkDirty ?_ (by decide) (by decide)⟩
  · exact ((Keeps.refl [.regs, .pwr] _).checkDirty (by decide) (by decide)).nvq (by decide)
  · exact (Keeps.refl [.regs, .nvq, .loc, .pwr] c).withNvqLoc _ _ (by decide) (by decide)

/-- The completion of a write, with the LBA of a Zone Append. -/
def InCmd.written (x : InCmd) : Completion :=
  if x.cmd.opcode = 0x7D then { x.ok with dw0 := x.base % 2 ^ 32, dw1 := x.base / 2 ^ 32 } else x.ok

/-- The command once a unit of it is power-safe. -/
def InCmd.unitDone (x : InCmd) (unit : Nat) (y : InCmd) : InCmd :=
  { y with units := x.units.filter (· != unit), safe := insertNat y.safe unit }

theorem Chip.unitSafe_eq (c : Chip) (x : InCmd) (unit : Nat) : c.unitSafe x unit =
    if (x.units.filter (· != unit)).isEmpty then (c.mapCmd x.seq (x.unitDone unit)).finish x.written
    else c.mapCmd x.seq (x.unitDone unit) := rfl

theorem posts_unitSafe (c : Chip) (x : InCmd) (unit : Nat) : Posts c (c.unitSafe x unit) := by
  have hm : Posts c (c.mapCmd x.seq (x.unitDone unit)) := posts_mapCmd c _ _
  rw [Chip.unitSafe_eq]
  split
  · exact hm.trans (posts_finish _ _)
  · exact hm

theorem takeUnit_dropped {ds : SMap Block} (h : (c.zone (unit / 4096)).kind = 1 ∧
    ((c.zone (unit / 4096)).gen ≠ x.gen ∨ (c.zone (unit / 4096)).state = 6)) :
    c.takeUnit x unit ds = c.unitSafe x unit := congrArg (Chip.unitSafe · x unit) (if_pos h)

theorem takeUnit_stages {ds : SMap Block} (h : ¬((c.zone (unit / 4096)).kind = 1 ∧
    ((c.zone (unit / 4096)).gen ≠ x.gen ∨ (c.zone (unit / 4096)).state = 6))) :
    c.takeUnit x unit ds = (c.stage x unit ds).unitSafe x unit := congrArg (Chip.unitSafe · x unit) (if_neg h)

theorem stages_clause (c : Chip) (x : InCmd) (unit : Nat) (ds : SMap Block) :
    (∃ u ∈ ((c.stage x unit ds).unitSafe x unit).nvq.staging,
      u.zone = unit / 4096 ∧ u.unit = unit % 4096 * 16 ∧ u.data = ds ∧ u.seq = x.seq) ∧
    OnlyRegs [pIntStatus 0x11] c ((c.stage x unit ds).unitSafe x unit) ∧
    Keeps [.regs, .nvq, .loc, .pwr, .out] c ((c.stage x unit ds).unitSafe x unit) := by
  obtain ⟨hn, hr, hk⟩ := stage_frame c x unit ds
  have hp := posts_unitSafe (c.stage x unit ds) x unit
  refine ⟨⟨c.stagedUnit x unit ds, ?_, rfl, rfl, rfl, rfl⟩, hr.trans hp.onlyRegs, (hk.mono (by decide)).step hp.keeps (by decide)⟩
  rw [hp.staging, hn]
  exact List.mem_append_right _ (List.mem_singleton.2 rfl)

section
variable {data : List (Nat × Block)} (ha : c.alive = true) (hh : c.inHoldup = false) (hf : c.nvq.find i qid cid = some x)
  (hp : x.phase = .transferring) (hr : x.result = none) (ho : x.cmd.opcode = 0x01 ∨ x.cmd.opcode = 0x7D)
  (hn : x.cmd.nsid ≠ 4) (hu : unit ∈ x.units) (he : c.nvq.earlierWrite x = false)
include ha hh hf hp hr ho hn hu he

theorem writeUnitPowerSafe_poisoned : writeUnitPowerSafe c i qid cid unit data true = c.poisonedWrite x := by
  simp [writeUnitPowerSafe, ha, hh, hf, hp, hr, ho, hn, hu, he]

theorem writeUnitPowerSafe_takes {ds : SMap Block}
    (hd : ((c.places x.cmd.nsid x.base x.cmd.nlb).filter (fun p => unitNo p.2.1 p.2.2 == unit)).map
      (fun p => data.find? (fun d => d.1 == p.2.2 % 16)) = ds.map some) :
    writeUnitPowerSafe c i qid cid unit data false = c.takeUnit x unit ds := by
  have hd' := allSome_of_map hd
  simp [writeUnitPowerSafe, ha, hh, hf, hp, hr, ho, hn, hu, he, hd']

end

/-- The count and cause of a poisoned write, and its staged units dropped. -/
def Chip.writePoisoned (c : Chip) (x : InCmd) : Chip :=
  let d := (c.bump R.HIF_POISON_RX).raise 0x10 2
  { d with nvq := { d.nvq with staging := d.nvq.staging.filter (fun u => !(u.seq == x.seq)) } }

/-- The zone of a poisoned write, its write pointer no higher than the first unit. -/
def Zone.takenBack (z : Zone) (x : InCmd) : Zone :=
  { z with hostWp := some (min x.first (z.hostWp.getD x.first)), state := if z.state = 4 then 1 else z.state }

/-- The chip before a poisoned write is decided. -/
def Chip.writeDropped (c : Chip) (x : InCmd) : Chip :=
  if (c.zone x.zone).kind = 1 ∧ (c.zone x.zone).gen = x.gen then
    (c.writePoisoned x).setZone x.zone ((c.zone x.zone).takenBack x)
  else c.writePoisoned x

theorem Chip.poisonedWrite_eq (c : Chip) (x : InCmd) : c.poisonedWrite x = (c.writeDropped x).fail x (0, 0x04, false) := rfl

theorem keeps_writePoisoned (c : Chip) (x : InCmd) : Keeps [.regs, .nvq, .loc, .pwr] c (c.writePoisoned x) :=
  (((Keeps.refl _ c).bump _ (by decide)).raise _ _ (by decide) (by decide)).withNvq _ (by decide)

theorem keeps_writeDropped (c : Chip) (x : InCmd) : Keeps [.regs, .nvq, .loc, .pwr] c (c.writeDropped x) :=
  .ite (fun _ => (keeps_writePoisoned c x).setZone _ _ (by decide)) fun _ => keeps_writePoisoned c x

theorem regs_writeDropped (c : Chip) (x : InCmd) : (c.writeDropped x).regs = ((c.bump R.HIF_POISON_RX).raise 0x10 2).regs := by
  unfold Chip.writeDropped
  split <;> rfl

theorem staging_writeDropped (c : Chip) (x : InCmd) :
    (c.writeDropped x).nvq.staging = c.nvq.staging.filter (fun u => !(u.seq == x.seq)) := by
  unfold Chip.writeDropped
  split <;> rfl

theorem poisonedWrite_clause (c : Chip) (x : InCmd) :
    (∀ u ∈ (c.poisonedWrite x).nvq.staging, u.seq ≠ x.seq) ∧
    ((c.zone x.zone).kind = 1 → (c.zone x.zone).gen = x.gen → ((c.poisonedWrite x).zone x.zone).hostWp =
      some (min x.first ((c.zone x.zone).hostWp.getD x.first))) ∧
    (c.poisonedWrite x).reg R.HIF_POISON_RX = BitVec.ofNat 32 (min ((c.reg R.HIF_POISON_RX).toNat + 1) 0xFFFFFFFF) ∧
    (c.poisonedWrite x).bit (pIntStatus 0x10) 2 = true ∧
    OnlyRegs [R.HIF_POISON_RX, pIntStatus 0x10] c (c.poisonedWrite x) ∧
    Keeps [.regs, .nvq, .loc, .pwr, .out] c (c.poisonedWrite x) := by
  have hp : Posts (c.writeDropped x) (c.poisonedWrite x) := by
    rw [Chip.poisonedWrite_eq]
    exact posts_finish _ _
  have hr (k : Nat) : (c.poisonedWrite x).reg k = ((c.bump R.HIF_POISON_RX).raise 0x10 2).reg k :=
    (hp.reg k).trans (congrArg (fun m : SMap Word => ({ c with regs := m } : Chip).reg k) (regs_writeDropped c x))
  refine ⟨fun u hu => ?_, fun hk hg => ?_, ?_, ?_, fun k hk => ?_, ?_⟩
  · rw [hp.staging, staging_writeDropped] at hu
    simpa using (List.mem_filter.1 hu).2
  · rw [Chip.zone_of_loc (hp.keeps.loc (by decide)), Chip.writeDropped, if_pos ⟨hk, hg⟩, Chip.zone_setZone_self]
    rfl
  · rw [hr, Chip.reg_raise_ne _ (by decide)]
    exact (Chip.reg_addSat _ _ _ _).trans (if_pos rfl)
  · exact (Chip.bit_of_reg _ (hr _) 2).trans (Chip.bit_raise _ _ _ (by decide))
  · rw [hr]
    exact (((OnlyRegs.refl c [R.HIF_POISON_RX, pIntStatus 0x10]).addSat _ 1 (by decide)).raise 0x10 2 (by decide)) k hk
  · exact ((keeps_writeDropped c x).mono (by decide)).step hp.keeps (by decide)

/-- The last unit of a command alone in its queue: its completion leaves, a Zone Append's with the LBA. -/
theorem unitSafe_last (hh : c.inHoldup = false) (hi : c.nvq.inflight = [x]) (hu : x.units = [unit]) (hr : x.result = none)
    (hroom : 0 < c.nvq.room x.cntl x.qid) : ∃ ms, (c.unitSafe x unit).out =
      c.out ++ [.completion { x.written with seq := none }] ++ ms ∧ (ms = [] ∨ ∃ o, ms = [o] ∧ o.IsMsix x.cntl) := by
  have hw : x.written.cntl = x.cntl ∧ x.written.qid = x.qid ∧ x.written.cid = x.cid ∧ x.written.seq = some x.seq := by
    unfold InCmd.written
    split <;> exact ⟨rfl, rfl, rfl, rfl⟩
  obtain ⟨hwc, hwq, hwi, hws⟩ := hw
  have hf : (c.mapCmd x.seq (x.unitDone unit)).nvq.inflight = [x.unitDone unit x] := by
    simp [Chip.mapCmd, Nvq.mapCmd, hi]
  have hx : (x.unitDone unit x).cntl = x.cntl ∧ (x.unitDone unit x).qid = x.qid ∧ (x.unitDone unit x).cid = x.cid :=
    ⟨rfl, rfl, rfl⟩
  rw [Chip.unitSafe_eq, if_pos (by simp [hu])]
  obtain ⟨⟨ms, ho, hm⟩, -, -, -⟩ := Chip.finish_alone (c := c.mapCmd x.seq (x.unitDone unit)) (r := x.written) (x := x.unitDone unit x)
    hh (by simp [Nvq.find, hf, hwc, hwq, hwi, hx]) hr hws (by simp [Nvq.mine, hf, hwc, hwq, hx]) (by rw [hwc, hwq]; exact hroom)
  exact ⟨ms, ho, hwc ▸ hm⟩

/-! ### Write Zeroes without DEAC (R118) -/

namespace OpFrame

theorem unitSafe (h : OpFrame c d) (x : InCmd) (unit : Nat) : OpFrame c (d.unitSafe x unit) :=
  ite (fun _ => (h.mapCmd _ _).finish _) fun _ => h.mapCmd _ _

theorem setNvqLoc (h : OpFrame c d) (x : Nvq) (y : Loc) (hx : x.flags = d.nvq.flags) :
    OpFrame c { d with nvq := x, loc := y } := (h.setNvq x hx).setLoc y

theorem stage (h : OpFrame c d) (x : InCmd) (no : Nat) (data : SMap Block) : OpFrame c (d.stage x no data) :=
  (h.setNvqLoc _ _ (by rfl)).checkDirty

theorem takeUnit (h : OpFrame c d) (x : InCmd) (unit : Nat) (ds : SMap Block) : OpFrame c (d.takeUnit x unit ds) :=
  OpFrame.unitSafe (ite (fun _ => h) fun _ => h.stage _ _ _) _ _

theorem zerosMore (h : OpFrame c d) (x : InCmd) : OpFrame c (d.zerosMore x) :=
  ite (fun _ => h) fun _ => foldl _ (fun d _ h => by
    split
    · exact h.takeUnit _ _ _
    · exact h) _ h

end OpFrame

/-- The rules and the chip after the write are generalised before the cases, as in `Chip.writeAt_of_taken`. -/
theorem writeZeroes_eq (hx : c.zoneIo i qid cid 0x08 = some x) (hd : x.cmd.deac = false) : writeZeroes c i qid cid =
    (c.writeRules x.cmd.nsid x.cmd.slba x.cmd.nlb).elim
      (((c.writeOn x x.cmd.slba).nvq.find i qid cid).elim (c.writeOn x x.cmd.slba) (c.writeOn x x.cmd.slba).zerosMore)
      (c.fail x) := by
  unfold writeZeroes
  generalize c.writeRules = rules
  generalize c.zoneIo i qid cid 8 = o at hx
  subst hx
  change (if x.cmd.deac = true then _ else _) = _
  rw [if_neg (by simp [hd])]
  generalize rules x.cmd.nsid x.cmd.slba x.cmd.nlb = r
  cases r with
  | some st => rfl
  | none =>
    generalize c.writeOn x x.cmd.slba = e
    change (match e.nvq.find i qid cid with | some y => e.zerosMore y | none => e) = _
    cases e.nvq.find i qid cid <;> rfl

theorem zerosMore_single {u : Nat} (hp : y.phase = .transferring) (he : c.nvq.earlierWrite y = false) (hu : y.units = [u])
    (hf : c.nvq.inflight.find? (fun z => z.seq == y.seq) = some y) : c.zerosMore y = c.takeUnit y u
      (((c.places y.cmd.nsid y.cmd.slba y.cmd.nlb).filter (fun p => unitNo p.2.1 p.2.2 == u)).map
        (fun p => (p.2.2 % 16, zeroBlock))) := by
  have hn : ¬(y.phase ≠ .transferring ∨ c.nvq.earlierWrite y = true) := by simp [hp, he]
  rw [Chip.zerosMore, if_neg hn, hu]
  simp only [List.foldl_cons, List.foldl_nil, hf]
  rfl

/-- Settles O35: the zone rules, acceptance, and staging unit by unit, each by the outcome it leads to. -/
theorem writesAreAcceptedStagedAndCompletedWhenPowerSafe : Obligations.WritesAreAcceptedStagedAndCompletedWhenPowerSafe := by
  unfold Obligations.WritesAreAcceptedStagedAndCompletedWhenPowerSafe
  refine ⟨fun c nsid base n hns h1 hb => ?_, fun s i qid cid x row op base => ?_, fun c x zone first ps => accept_clause,
    fun s x ys ha hh hw => ⟨fun h => ?_, fun h => ?_⟩,
    fun s i qid cid unit data x ha hh hf hp hr ho hn hu he => ⟨fun ds hd => ⟨fun hz => ?_, fun hz => ?_⟩, ?_⟩,
    fun c x unit hh hi hu hr hroom => ?_, fun s i qid cid x y hx hd => ⟨fun st hr => ?_, fun hr hf => ?_⟩,
    fun c y u => ⟨fun h => if_pos h, zerosMore_single⟩⟩
  · have hz : c.zonesTouched nsid base n = [(c.loc.place nsid base).1] := Chip.zonesTouched_single hns h1 hb
    refine ⟨Chip.writeRules_readOnly hz, Chip.writeRules_offline hz, fun h hk => Chip.writeRules_full hz hk h, fun h hk => ?_⟩
    rw [Chip.writeRules_pointer hz hk h hb]
    exact ⟨fun hw => if_pos hw, fun hw => if_neg (not_not_intro hw)⟩
  · rintro c zone (⟨rfl, rfl, rfl⟩ | ⟨rfl, rfl, rfl⟩) hx
    · exact write_clause (congrArg s.done
        ((writeCommand_eq hx).trans (congrArg (c.writeAt x · x.cmd.slba) (if_pos rfl).symm)))
    · exact write_clause (congrArg s.done ((zoneAppend_eq hx).trans (congrArg (c.writeAt x · _) (if_neg (by decide)).symm)))
  · exact completesThen_eq rfl (writeTransferStart_fits ha hh hw h) ⟨rfl, (Keeps.refl _ _).mapCmd _ _ (by decide)⟩
  · exact completesThen_eq rfl (writeTransferStart_waits ha hh hw h) rfl
  · exact completesThen_eq rfl ((writeUnitPowerSafe_takes ha hh hf hp hr ho hn hu he hd).trans (takeUnit_dropped hz))
      ⟨rfl, (posts_unitSafe _ _ _).keeps⟩
  · exact completesThen_eq rfl ((writeUnitPowerSafe_takes ha hh hf hp hr ho hn hu he hd).trans (takeUnit_stages hz))
      ⟨rfl, stages_clause _ _ _ _⟩
  · exact completesThen_eq rfl (writeUnitPowerSafe_poisoned ha hh hf hp hr ho hn hu he) (poisonedWrite_clause _ _)
  · obtain ⟨ms, ho, hm⟩ := unitSafe_last hh hi hu hr hroom
    have hw : ({ x.written with seq := none } : Completion) = { cntl := x.cntl, qid := x.qid, cid := x.cid
                                                                dw0 := if x.cmd.opcode = 0x7D then x.base % 2 ^ 32 else 0
                                                                dw1 := if x.cmd.opcode = 0x7D then x.base / 2 ^ 32 else 0 } := by
      unfold InCmd.written
      split <;> rfl
    refine ⟨ms, ?_, ?_, ho.trans (by rw [hw])⟩
    · rcases hm with rfl | ⟨o, rfl, -⟩ <;> simp
    · rcases hm with rfl | ⟨o, rfl, hm⟩
      · simp
      · exact fun p hp => List.mem_singleton.1 hp ▸ hm
  · exact completesThen_eq rfl ((writeZeroes_eq hx hd).trans (by rw [hr]; rfl)) rfl
  · exact completesThen_eq rfl ((writeZeroes_eq hx hd).trans (by rw [hr]; exact congrArg (Option.elim · _ _) hf))
      ⟨rfl, .ofOp (((OpFrame.refl _).writeOn x _).zerosMore y)⟩

end Sys2Proof.Machine
end

section
/-! ## Reads and the retry budget (R20, R26, R113, R118, R123, R139, R142, R144, R196, R197, R309, O34) -/

namespace Sys2Proof.Machine

open Sys2Proof

variable {c d : Chip} {ps : List ChipPart} {x : InCmd} {i qid cid : Nat} {media : List (Nat × ReadResult)}

/-! ### What a read of an LBA gives (R20, R26, R197) -/

theorem Nvq.stagedAt_newest {n : Nvq} {us : List Staged} {u : Staged} {unit : Nat} {b : Block} (hs : n.staging = us ++ [u])
    (hn : u.nsid ≠ 4) (hu : u.unit ≤ unit) (hb : u.data.find? (unit - u.unit) = some b) : n.stagedAt u.zone unit =
      some (if u.poison.any (fun w => w / 512 == unit - u.unit) then .poisoned b else .good b) := by
  simp [Nvq.stagedAt, hs, hn, hu, hb]

section
variable {zone unit : Nat} (hm : c.sys.mode ≠ .rebuild)
include hm

theorem Chip.resolve_empty (hs : (c.zone zone).state = 0) (hk : (c.zone zone).kind ≠ 3) : c.resolve zone unit = .zeros := by
  simp [Chip.resolve, hm, hs, hk]

theorem Chip.resolve_unwritten (hk : (c.zone zone).kind = 1) (hw : (c.zone zone).mwp ≤ unit)
    (hh : c.hotOf zone unit = none) : c.resolve zone unit = .zeros := by
  unfold Chip.resolve
  simp only [if_neg hm, hk, hh, hw, ↓reduceIte, Nat.reduceEqDiff]
  split
  · rfl
  · split <;> rfl

end

theorem Chip.given_unrecovered {lba : Nat} (h : media.find? (fun m => m.1 == lba) = some (lba, .unrecovered)) :
    c.given x media lba = some .unrecovered := by
  simp only [Chip.given, h]

theorem Chip.given_other {lba : Nat} {r : ReadResult} (h : media.find? (fun m => m.1 == lba) = some (lba, r))
    (hr : r ≠ .unrecovered) : c.given x media lba = if c.confirmedFor x lba then some r else none := by
  unfold Chip.given
  rw [h]
  cases r with
  | unrecovered => exact absurd rfl hr
  | good | poisoned | marker => rfl

/-! ### Delivery (R113, R144) -/

theorem allSome_none {α : Type} {l : List (Option α)} (h : none ∈ l) : allSome l = none := by
  induction l with
  | nil => cases h
  | cons o l ih =>
    cases o with
    | none => rfl
    | some a =>
      rcases List.mem_cons.1 h with h | h
      · cases h
      · simp [allSome, ih h]

theorem Chip.deliver_lost {rs : List ReadResult} (h : .marker ∈ rs ∨ .unrecovered ∈ rs) (transfer : Bool) :
    c.deliver x transfer rs = c.finish (x.status 2 0x81 false) := by
  have hn : none ∈ rs.map ReadResult.block? := by
    rcases h with h | h
    · exact List.mem_map.2 ⟨_, h, rfl⟩
    · exact List.mem_map.2 ⟨_, h, rfl⟩
  rw [Chip.deliver, allSome_none hn]
  rfl

theorem Chip.deliver_good (bs : List Block) (transfer : Bool) : c.deliver x transfer (bs.map ReadResult.good) =
    (if transfer then c.emit (.blocks x.cntl x.qid x.cid (bs.map (·, false))) else c).finish x.ok := by
  have hb : (bs.map ReadResult.good).map ReadResult.block? = (bs.map (·, false)).map some := by
    simp [List.map_map, Function.comp_def, ReadResult.block?]
  have h0 : ((bs.map (·, false)).filter (fun b => b.2)).length = 0 := by simp
  unfold Chip.deliver
  simp only [hb, allSome_map_some, h0, ↓reduceIte]

/-- A poisoned block as it is sent: with the EP bit, in `k` TLPs that are counted. -/
def Chip.sentPoisoned (c : Chip) (x : InCmd) (b : Block) (k : Nat) : Chip :=
  let e := c.emit (.blocks x.cntl x.qid x.cid [(b, true)])
  ((e.takeFree 5).2.addSat R.HIF_POISON_TX k).raise 0x10 3

theorem Chip.deliver_poisoned (b : Block) : c.deliver x false [.poisoned b] = c.finish (x.status 2 0x81 false) ∧
    ∃ k, 8 ≤ k ∧ k ≤ 32 ∧ c.deliver x true [.poisoned b] = (c.sentPoisoned x b k).finish (x.status 2 0x81 false) := by
  refine ⟨rfl, 8 + ((c.emit (.blocks x.cntl x.qid x.cid [(b, true)])).takeFree 5).1.toNat % 25, by omega, by omega, ?_⟩
  have h : c.deliver x true [.poisoned b] = (c.sentPoisoned x b
      (1 * (8 + ((c.emit (.blocks x.cntl x.qid x.cid [(b, true)])).takeFree 5).1.toNat % 25))).finish
        (x.status 2 0x81 false) := rfl
  rw [h, Nat.one_mul]

theorem sentPoisoned_frame (c : Chip) (x : InCmd) (b : Block) (k : Nat) :
    (c.sentPoisoned x b k).out = c.out ++ [.blocks x.cntl x.qid x.cid [(b, true)]] ∧
    (c.sentPoisoned x b k).reg R.HIF_POISON_TX = BitVec.ofNat 32 (min ((c.reg R.HIF_POISON_TX).toNat + k) 0xFFFFFFFF) ∧
    (c.sentPoisoned x b k).bit (pIntStatus 0x10) 3 = true :=
  ⟨rfl, (Chip.reg_raise_ne _ (by decide)).trans ((Chip.reg_addSat _ _ _ _).trans (if_pos rfl)),
    Chip.bit_raise _ _ _ (by decide)⟩

/-- The parts that a delivery may change. -/
def deliverParts : List ChipPart := [.regs, .nvq, .pwr, .out, .freeCtr]

theorem Keeps.deliver (h : Keeps deliverParts c d) (x : InCmd) (transfer : Bool) (rs : List ReadResult) :
    Keeps deliverParts c (d.deliver x transfer rs) := by
  unfold Chip.deliver
  split
  · exact h.finish _ (by decide) (by decide)
  · next bs _ =>
    have he := Keeps.ite (p := transfer = true) (fun _ => h.emit (.blocks x.cntl x.qid x.cid bs) (by decide)) fun _ => h
    refine .ite (fun _ => he.finish _ (by decide) (by decide)) fun _ => Keeps.finish ?_ _ (by decide) (by decide)
    exact .ite (fun _ => ((he.takeFree _ (by decide)).addSat _ _ (by decide)).raise _ _ (by decide) (by decide)) fun _ => he

/-! ### A read goes on (R118, R123, R196) -/

/-- What is known of the LBAs of a read. -/
def Chip.known (c : Chip) (x : InCmd) (media : List (Nat × ReadResult)) : List (Option ReadResult) :=
  x.resolved.map (fun e => e.2 <|> c.given x media e.1)

theorem Chip.readMore_all {vs : List ReadResult} (h : c.known x media = vs.map some) :
    c.readMore x media = c.deliver x (x.cmd.opcode == 0x02) vs := by
  have hs : allSome (x.resolved.map (fun e => e.2 <|> c.given x media e.1)) = some vs := allSome_of_map h
  simp only [Chip.readMore, hs]

theorem Chip.readMore_waits (h : none ∈ c.known x media) : c.readMore x media = c := by
  have hs : allSome (x.resolved.map (fun e => e.2 <|> c.given x media e.1)) = none := allSome_none h
  simp only [Chip.readMore, hs]

theorem Chip.readResolve_waits (h : c.resolveAll (c.places x.cmd.nsid x.cmd.slba x.cmd.nlb) = none) :
    c.readResolve x media = c := by
  simp only [Chip.readResolve, h]

/-- A read with what its LBAs resolved to. -/
def InCmd.resolvedTo (x : InCmd) (rs : List (Nat × Option ReadResult)) (bs : List Nat) : InCmd :=
  { x with resolved := rs, bands := bs }

/-- The chip that remembers it, once Locus has handed on the LBAs that lie on the media. -/
def Chip.resolved (c : Chip) (x : InCmd) (rs : List (Nat × Option ReadResult)) (bs : List Nat) : Chip :=
  (c.mapCmd x.seq (·.resolvedTo rs bs)).locate (c.places x.cmd.nsid x.cmd.slba x.cmd.nlb)

theorem Chip.readResolve_resolves {rs : List (Nat × Option ReadResult)} {bs : List Nat}
    (h : c.resolveAll (c.places x.cmd.nsid x.cmd.slba x.cmd.nlb) = some (rs, bs)) :
    c.readResolve x media = (c.resolved x rs bs).readMore (x.resolvedTo rs bs) media := by
  unfold Chip.readResolve
  simp only [h]
  rfl

theorem keeps_resolved (c : Chip) (x : InCmd) (rs : List (Nat × Option ReadResult)) (bs : List Nat) :
    Keeps [.nvq, .out] c (c.resolved x rs bs) :=
  ((Keeps.refl [.nvq, .out] c).mapCmd x.seq (·.resolvedTo rs bs) (by decide)).of_part (q := .out) (by decide) fun p _ => by
    cases p <;> trivial

/-- A read as it is taken: it works, and its budget runs. -/
def InCmd.takenAt (t : Option DWord) (y : InCmd) : InCmd := { y with phase := .working, issued := t }

section
variable {op : Nat} (hx : c.io i qid cid op = some x)
include hx

theorem Chip.io_open : c.alive = true ∧ c.inHoldup = false ∧ qid ≠ 0 ∧ x.cmd.opcode = op := by
  unfold Chip.io at hx
  split at hx
  · cases hx
  · next h =>
    split at hx
    · split at hx
      · next hc =>
        cases hx
        simp only [Bool.or_eq_true, Bool.not_eq_true', beq_iff_eq, not_or, Bool.not_eq_false, Bool.not_eq_true] at h
        exact ⟨h.1.1, h.1.2, h.2, hc.1⟩
      · cases hx
    · cases hx

theorem readCommand_eq : readCommand c i qid cid op media =
    if (c.zonesTouched x.cmd.nsid x.cmd.slba x.cmd.nlb).any (fun z => (c.zone z).state == 6) then
      c.finish (x.status 1 0xBB true)
    else if op = 0x02 ∧ x.cmd.sglBad then c.finish (x.status 0 0x0F true)
    else if !(c.begin x false).1 || c.nvq.readWaits x then (c.begin x false).2
    else ((c.begin x false).2.mapCmd x.seq (InCmd.takenAt (some (x.issued.getD c.dtm.dtime)))).readResolve
      (x.takenAt (some (x.issued.getD c.dtm.dtime))) media := by
  obtain ⟨ha, hh, hq, -⟩ := Chip.io_open hx
  have h0 : (!c.alive || c.inHoldup || qid == 0) = false := by simp [ha, hh, hq]
  unfold readCommand
  simp only [h0, hx, Bool.false_eq_true, ↓reduceIte]
  rfl

end

/-- A command under way is no longer to be taken. -/
theorem Chip.io_working (hf : c.nvq.find i qid cid = some x) (hp : x.phase = .working) (op : Nat) :
    c.io i qid cid op = none := by
  have hr : c.nvq.ready i qid cid = none := by simp [Nvq.ready, hf, hp]
  simp [Chip.io, hr]

theorem readCommand_working {op : Nat} (ha : c.alive = true) (hh : c.inHoldup = false) (hq : qid ≠ 0)
    (hf : c.nvq.find i qid cid = some x) (ho : x.cmd.opcode = op) (hn : x.cmd.nsid ≠ 4) (hp : x.phase = .working)
    (hr : x.result = none) (hv : x.resolved ≠ []) : readCommand c i qid cid op media = c.readMore x media := by
  simp [readCommand, ha, hh, hq, Chip.io_working hf hp, hf, ho, hn, hp, hr, hv]

theorem read_clause {row : Instr} {s : State} {op i : Nat} {verify : Bool} (hv : verify = !(op == 0x02))
    (hx : s.chip.io i qid cid op = some x) (hrow : exec row s = s.done (readCommand s.chip i qid cid op media)) :
    let touched := s.chip.zonesTouched x.cmd.nsid x.cmd.slba x.cmd.nlb
    (touched.any (fun z => (s.chip.zone z).state == 6) = true →
      CompletesThen row s (fun d => d = s.chip.finish (x.status 1 0xBB true))) ∧
    (touched.any (fun z => (s.chip.zone z).state == 6) = false →
      (x.cmd.sglBad = true → verify = false →
        CompletesThen row s (fun d => d = s.chip.finish (x.status 0 0x0F true))) ∧
      (∀ e, x.cmd.sglBad = false ∨ verify = true → s.chip.begin x false = (false, e) →
        CompletesThen row s (fun d => d = e)) ∧
      (∀ e, x.cmd.sglBad = false ∨ verify = true → s.chip.begin x false = (true, e) → s.chip.nvq.readWaits x = true →
        CompletesThen row s (fun d => d = e)) ∧
      (∀ e, x.cmd.sglBad = false ∨ verify = true → s.chip.begin x false = (true, e) → s.chip.nvq.readWaits x = false →
        let t := some (x.issued.getD s.chip.dtm.dtime)
        let f := e.mapCmd x.seq (fun y => { y with phase := .working, issued := t })
        let ps := f.places x.cmd.nsid x.cmd.slba x.cmd.nlb
        (f.resolveAll ps = none → CompletesThen row s (fun d => d = f)) ∧
        ∀ rs bs, f.resolveAll ps = some (rs, bs) →
          let y : InCmd := { { x with phase := .working, issued := t } with resolved := rs, bands := bs }
          let g := (f.mapCmd x.seq (fun z => { z with resolved := rs, bands := bs })).locate ps
          let known := rs.map (fun e => e.2 <|> g.given y media e.1)
          (∀ vs, known = vs.map some → CompletesThen row s (fun d =>
            d = g.deliver y (!verify) vs ∧ Keeps [.regs, .nvq, .pwr, .out, .freeCtr] s.chip d)) ∧
          (none ∈ known → CompletesThen row s (fun d => d = g ∧ Keeps [.nvq, .out] s.chip d)))) := by
  intro touched
  have he := readCommand_eq (media := media) hx
  have hop : op = 0x02 ↔ verify = false := by rw [hv]; simp
  refine ⟨fun h => completesThen_eq hrow (he.trans (if_pos h)) rfl, fun h => ?_⟩
  rw [if_neg (by rw [h]; exact Bool.false_ne_true)] at he
  refine ⟨fun hb hf => completesThen_eq hrow (he.trans (if_pos ⟨hop.2 hf, hb⟩)) rfl, ?_⟩
  have hpass (hb : x.cmd.sglBad = false ∨ verify = true) : ¬(op = 0x02 ∧ x.cmd.sglBad = true) := by
    rintro ⟨h2, hs⟩
    rcases hb with hb | hb
    · exact Bool.false_ne_true (hb.symm.trans hs)
    · exact Bool.false_ne_true ((hop.1 h2).symm.trans hb)
  refine ⟨fun e hb hg => ?_, fun e hb hg hw => ?_, fun e hb hg hw => ?_⟩ <;> rw [if_neg (hpass hb), hg] at he
  · exact completesThen_eq hrow he rfl
  · exact completesThen_eq hrow (he.trans (if_pos (by rw [hw]; rfl))) rfl
  · rw [if_neg (by rw [hw]; exact Bool.false_ne_true)] at he
    intro t f ps
    refine ⟨fun hr => completesThen_eq hrow (he.trans (Chip.readResolve_waits hr)) rfl, fun rs bs hr => ?_⟩
    intro y g known
    have hg' := he.trans (Chip.readResolve_resolves hr)
    obtain ⟨rfl, -⟩ := Chip.begin_true hg
    have hk : Keeps [.nvq, .out] s.chip g :=
      (((keeps_remembering s.chip x).mapCmd _ _ (by decide)).mono (by decide)).trans
        (keeps_resolved f (x.takenAt t) rs bs)
    have htr : (y.cmd.opcode == 0x02) = !verify := by
      rw [show y.cmd.opcode = op from (Chip.io_open hx).2.2.2, hv, Bool.not_not]
    refine ⟨fun vs hvs => completesThen_eq hrow (hg'.trans (Chip.readMore_all hvs)) ?_,
      fun hn => completesThen_eq hrow (hg'.trans (Chip.readMore_waits hn)) ⟨rfl, hk⟩⟩
    exact ⟨congrArg (g.deliver y · vs) htr, (hk.mono (qs := deliverParts) (by decide)).deliver _ _ _⟩

theorem readMore_clause {row : Instr} {s : State} {op i : Nat} {verify : Bool} (hv : verify = !(op == 0x02))
    (ha : s.chip.alive = true) (hh : s.chip.inHoldup = false) (hq : qid ≠ 0) (hf : s.chip.nvq.find i qid cid = some x)
    (ho : x.cmd.opcode = op) (hn : x.cmd.nsid ≠ 4) (hp : x.phase = .working) (hr : x.result = none) (hx : x.resolved ≠ [])
    (hrow : exec row s = s.done (readCommand s.chip i qid cid op media)) :
    (∀ vs, s.chip.known x media = vs.map some → CompletesThen row s (fun d => d = s.chip.deliver x (!verify) vs)) ∧
    (none ∈ s.chip.known x media → CompletesThen row s (fun d => d = s.chip)) := by
  have he := readCommand_working (media := media) ha hh hq hf ho hn hp hr hx
  have htr : (x.cmd.opcode == 0x02) = !verify := by rw [ho, hv, Bool.not_not]
  exact ⟨fun vs hvs => completesThen_eq hrow (he.trans (Chip.readMore_all hvs)) (congrArg (s.chip.deliver x · vs) htr),
    fun hw => completesThen_eq hrow (he.trans (Chip.readMore_waits hw)) rfl⟩

/-! ### The retry budget (R142, R144, R309) -/

/-- What keeps a read from being ready at the end of its budget. -/
def Chip.notReady (c : Chip) (x : InCmd) : Bool :=
  (nsActs x.cmd.nsid).any c.lostNow || (c.sys.mode == .rebuild && x.resolved.isEmpty)

theorem Chip.notReady_iff (c : Chip) (x : InCmd) : c.notReady x = true ↔
    (nsActs x.cmd.nsid).any c.lostNow = true ∨ (c.sys.mode = .rebuild ∧ x.resolved = []) := by
  simp [Chip.notReady]

/-- The chip once the ladders of a read have stopped at the end of its budget. -/
def Chip.budgetSpent (c : Chip) (r : Reader) : Chip :=
  (((c.countStopped r .A).countStopped r .B).dropReader r).ladderStopped.raise 0x11 3

theorem keeps_budgetSpent (c : Chip) (r : Reader) : Keeps mediaParts c (c.budgetSpent r) :=
  (((((Keeps.refl mediaParts c).setActLog .A _ (by decide) (by decide)).setActLog .B _ (by decide) (by decide)).step
    (keeps_dropReader _ r) (by decide)).ladderStopped).raise _ _ (by decide) (by decide)

section
variable (ha : c.alive = true) (hh : c.inHoldup = false) (ht : c.fld R.NVQ_TLER 15 0 ≠ 0)
  (hf : c.nvq.find i qid cid = some x) (hq : qid ≠ 0) (hi : x.issued ≠ none) (hr : x.result = none)
include ha hh ht hf hq hi hr

theorem retryBudgetExpiry_fetched (hp : x.phase = .fetched) (hn : c.notReady x = true) :
    retryBudgetExpiry c i qid cid = (c.raise 0x11 3).finish (x.status 0 0x82 false) := by
  unfold Chip.notReady at hn
  simp only [retryBudgetExpiry, ha, hh, beq_eq_false_iff_ne.2 ht, hf, hq, hi, hr, hp, hn, Option.isNone_iff_eq_none,
    Option.isSome_none, Bool.not_true, Bool.or_self, Bool.false_eq_true, or_self, ↓reduceIte]
  rfl

theorem retryBudgetExpiry_working (hp : x.phase = .working)
    (ho : x.cmd.opcode = 0x02 ∨ (x.cmd.nsid ≠ 4 ∧ x.cmd.opcode = 0x0C)) : retryBudgetExpiry c i qid cid =
      if c.notReady x then (c.budgetSpent (.host i qid cid)).finish (x.status 0 0x82 false)
      else ((c.budgetSpent (.host i qid cid)).event 0x2801 [i + 1, qid, cid,
        (c.laddersOf (.host i qid cid)).foldl (fun m l => max m l.step) 0]).finish (x.status 2 0x81 false) := by
  have hreads : ¬¬(if x.cmd.nsid = 4 then x.cmd.opcode = 0x02 else x.cmd.opcode = 0x02 ∨ x.cmd.opcode = 0x0C) := by
    split
    · next h4 => exact not_not_intro (ho.resolve_right fun h => h.1 h4)
    · exact not_not_intro (ho.imp_right And.right)
  have hph : ¬(x.phase = .fetched) := by rw [hp]; decide
  have hst : ¬(¬(if x.cmd.nsid = 4 then x.cmd.opcode = 0x02 else x.cmd.opcode = 0x02 ∨ x.cmd.opcode = 0x0C) ∨
      x.phase ≠ .working) := fun h => h.elim hreads fun h => h hp
  unfold retryBudgetExpiry
  simp only [ha, hh, beq_eq_false_iff_ne.2 ht, hf, hq, hi, hr, Option.isNone_iff_eq_none, Option.isSome_none, Bool.not_true,
    Bool.or_self, Bool.false_eq_true, or_self, ↓reduceIte, if_neg hph, if_neg hst]
  rfl

end

theorem reg_finish (c : Chip) (r : Completion) (k : Nat) : (c.finish r).reg k = c.reg k :=
  (posts_finish c r).onlyRegs k (List.not_mem_nil)

/-- The end of a retry budget stands in the interrupt status, whatever is decided then (R142). -/
theorem bit_budgetSpent (c : Chip) (r : Reader) : (c.budgetSpent r).bit (pIntStatus 0x11) 3 = true :=
  Chip.bit_raise _ _ _ (by decide)

theorem bit_budgetSpent_event (c : Chip) (r : Reader) (code : Nat) (items : List Nat) :
    ((c.budgetSpent r).event code items).bit (pIntStatus 0x11) 3 = true :=
  have h := (OnlyRegs.refl (c.budgetSpent r) dropRegs).event code items (by decide) (by decide)
  (Chip.bit_of_reg _ (h _ (by decide)) 3).trans (bit_budgetSpent c r)

/-- Settles O34: a read goes on through `readCommand` as its LBAs resolve (`read_clause`, `readMore_clause`), is
delivered by what they hold (`Chip.deliver`), and ends with its budget (`retryBudgetExpiry_working`). -/
theorem readsReturnTheNewestDataOrAnError : Obligations.ReadsReturnTheNewestDataOrAnError := by
  refine ⟨fun n us u unit b => Nvq.stagedAt_newest, fun c zone unit hm =>
    ⟨Chip.resolve_empty hm, Chip.resolve_unwritten hm⟩, fun c x transfer rs => ⟨?lost, ?good, ?poisoned⟩,
    fun s i qid cid media x verify => ?taken, fun s i qid cid media x verify ha hh hq hf ho hn hp hr hx => ?goesOn,
    fun c x media lba r h => ⟨fun hr => Chip.given_unrecovered (hr ▸ h), Chip.given_other h⟩,
    fun s i qid cid x ha hh ht hf hq hi hr => ?budget⟩
  case lost => exact fun h => Chip.deliver_lost h transfer
  case good =>
    rintro bs rfl
    exact ⟨Chip.deliver_good bs true, Chip.deliver_good bs false⟩
  case poisoned =>
    rintro b rfl
    obtain ⟨hno, k, h8, h32, hyes⟩ := Chip.deliver_poisoned (c := c) (x := x) b
    exact ⟨hno, k, c.sentPoisoned x b k, h8, h32, hyes, sentPoisoned_frame c x b k⟩
  case taken =>
    cases verify with
    | false => exact fun hx => read_clause rfl hx rfl
    | true => exact fun hx => read_clause rfl hx rfl
  case goesOn =>
    cases verify with
    | false => exact readMore_clause rfl ha hh hq hf ho hn hp hr hx rfl
    | true => exact readMore_clause rfl ha hh hq hf ho hn hp hr hx rfl
  case budget =>
    intro c notReady
    refine ⟨fun hp hn => ?_, fun hp ho => ?_⟩
    · exact completesThen_eq rfl (retryBudgetExpiry_fetched ha hh ht hf hq hi hr hp ((Chip.notReady_iff c x).2 hn))
        ⟨rfl, ((Keeps.refl _ c).raise _ _ (by decide) (by decide)).finish _ (by decide) (by decide)⟩
    · intro r step e
      have hk := keeps_budgetSpent c r
      refine completesThen_eq rfl (retryBudgetExpiry_working ha hh ht hf hq hi hr hp ho) ?_
      by_cases hn : notReady
      · rw [if_pos ((Chip.notReady_iff c x).2 hn)]
        exact ⟨fun _ => rfl, fun h => absurd hn h, (Chip.bit_of_reg _ (reg_finish _ _ _) 3).trans (bit_budgetSpent c r),
          hk.finish _ (by decide) (by decide)⟩
      · rw [if_neg fun h => hn ((Chip.notReady_iff c x).1 h)]
        exact ⟨fun h => absurd h hn, fun _ => rfl,
          (Chip.bit_of_reg _ (reg_finish _ _ _) 3).trans (bit_budgetSpent_event c r _ _),
          (hk.event _ _ (by decide) (by decide) (by decide)).finish _ (by decide) (by decide)⟩

end Sys2Proof.Machine
end

section
/-! ## Stores and appends (R19, R21, R113, R151 to R153, R158 to R161, R171, O38) -/

namespace Sys2Proof.Machine

open Sys2Proof

variable {c d s : Chip} {ps : List ChipPart} {x : InCmd} {h : HostCmd} {v w : Value} {p : Placement} {data : List Byte}
  {i qid cid : Nat}

/-! ### The state of a key (R152, R153, R158) -/

section
variable {g : Seg} {key : List Byte}

theorem Seg.present_none_of_look (hl : g.look key = none) : g.present key = none := by simp [Seg.present, hl]

theorem Seg.look_of_present (hv : g.present key = some v) : g.look key = some v := by
  unfold Seg.present at hv
  split at hv
  · next w hw =>
    split at hv
    · cases hv
    · rw [hw]
      exact hv
  · cases hv

end

theorem Chip.storeCheck_absent (hm : h.cdw11 / 256 % 2 = 1) (hv : c.seg.present h.key = none) :
    c.storeCheck h = .error (1, 0x87, true) := by
  simp [Chip.storeCheck, hm, hv, stNoKey]

section
variable (hv : c.seg.present h.key = some v)
include hv

theorem Chip.storeCheck_exists (hm : h.cdw11 / 512 % 2 = 1) : c.storeCheck h = .error (1, 0x89, true) := by
  simp [Chip.storeCheck, hm, hv, stKeyExists]

theorem Chip.storeCheck_append (hm : h.cdw11 / 512 % 2 = 0) (ha : h.kvAppend = true) : c.storeCheck h =
    if v.sealed then .error (1, 0xC1, true)
    else if 1073741824 < v.length + h.cdw10 then .error (1, 0x85, true) else .ok (some v) := by
  simp [Chip.storeCheck, hm, hv, ha, stValueSize]

theorem Chip.storeCheck_replaces (hm : h.cdw11 / 512 % 2 = 0) (ha : h.kvAppend = false) : c.storeCheck h = .ok none := by
  simp [Chip.storeCheck, hm, hv, ha, Seg.look_of_present hv]

end

theorem Chip.storeCheck_tooManyOpen (hv : c.seg.present h.key = none) (hm : h.cdw11 / 256 % 2 = 0) (ha : h.kvAppend = true)
    (hs : h.kvSeal = false) (hn : 4096 ≤ c.seg.openCount) : c.storeCheck h = .error (1, 0xC2, true) := by
  simp [Chip.storeCheck, hm, hv, ha, hs, hn]

theorem Chip.storeCheck_keyLimit (hl : c.seg.look h.key = none) (hm : h.cdw11 / 256 % 2 = 0) (ha : h.kvAppend = false)
    (hn : c.keyLimit ≤ c.seg.index.length) : c.storeCheck h = .error (1, 0xC3, true) := by
  simp [Chip.storeCheck, hm, hl, ha, hn, Seg.present_none_of_look hl]

/-! ### Commands of namespace 4 under way -/

/-- A command that is no longer as fetched is not taken again. -/
theorem Chip.kv_under_way (hf : c.nvq.find i qid cid = some x) (hp : x.phase ≠ .fetched) (op : Nat) :
    c.kv i qid cid op = none := by
  have hr : c.nvq.ready i qid cid = none := by simp [Nvq.ready, hf, hp]
  simp [Chip.kv, hr]

/-! ### Acceptance (R19, R21, R113) -/

/-- The 64 KiB units that a Store's data takes in staging, one more for its header. -/
def unitsStored (data : StoreData) : List Nat := List.range ((data.bytes.length + 65535) / 65536 + 1)

theorem kvStoreCommand_taken {data : StoreData} (hx : c.kv i qid cid 0x01 = some x)
    (hn : data.bytes.length = x.cmd.cdw10) : kvStoreCommand c i qid cid x.cmd.kvAppend data =
      if !(c.begin x true).1 then (c.begin x true).2
      else if (c.begin x true).2.nvq.heldWrites.isEmpty && (c.begin x true).2.stagingRoom [] (unitsStored data).length then
        (c.begin x true).2.storeData x data
      else (c.begin x true).2.mapCmd x.seq (fun y => { y with phase := .held, units := unitsStored data }) := by
  have hc : ¬(x.cmd.kvAppend ≠ x.cmd.kvAppend ∨ data.bytes.length ≠ x.cmd.cdw10) := by simp [hn]
  simp only [kvStoreCommand, hx, if_neg hc]
  rfl

theorem kvStoreCommand_transferred {data : StoreData} (ha : c.alive = true) (hh : c.inHoldup = false)
    (hf : c.nvq.find i qid cid = some x) (hns : x.cmd.nsid = 4) (ho : x.cmd.opcode = 0x01) (hp : x.phase = .transferring)
    (hr : x.result = none) (hn : data.bytes.length = x.cmd.cdw10) :
    kvStoreCommand c i qid cid x.cmd.kvAppend data = c.storeData x data := by
  simp [kvStoreCommand, Chip.kv_under_way hf (show x.phase ≠ .fetched by rw [hp]; decide), ha, hh, hf, hns, ho, hp, hr, hn]

theorem Chip.storeData_poisoned {data : StoreData} (hp : data.poisonedTlp = true) : c.storeData x data =
    ((c.bump R.HIF_POISON_RX).raise 0x10 2).finish (x.status 0 0x04 false) := if_pos hp

theorem Chip.storeData_good {data : StoreData} (hp : data.poisonedTlp = false) : c.storeData x data = c.store x data.bytes :=
  if_neg (by simp [hp])

theorem Chip.store_refused {st : Status} (hc : c.storeCheck x.cmd = .error st) : c.store x data = c.fail x st := by
  simp only [Chip.store, hc]

/-- The place found for the data of a Store, of a new value behind a unit for its header. -/
def Chip.storePlace (c : Chip) (x : InCmd) (old : Option Value) (data : List Byte) : Option Placement :=
  let head := if old.isNone then 1 else 0
  c.placeValue (match old with | some v => v.act | none => c.valueAct x.cmd.kvAct)
    (if old.isSome then 0 else x.cmd.kvHint) head (max head ((data.length + 4095) / 4096)) (old.bind c.lastZone)

section
variable {old : Option Value} (hc : c.storeCheck x.cmd = .ok old)
include hc

theorem Chip.store_unhashed (hu : old.any (fun v => v.hash.isNone) = true) : c.store x data = c := by
  simp only [Chip.store, hc, hu, ↓reduceIte]

theorem Chip.store_placed (hu : old.any (fun v => v.hash.isNone) = false) : c.store x data =
    (c.storePlace x old data).elim (c.finish (x.status 0 0x81 false)) (fun p =>
      if p.newBand.isSome && c.mustWait .locus then c else c.storeNow x old p data) := by
  have hs : c.store x data = match c.storePlace x old data with
      | none => c.fail x (0, 0x81, false)
      | some p => if p.newBand.isSome && c.mustWait .locus then c else c.storeNow x old p data := by
    simp only [Chip.store, hc, hu, Bool.false_eq_true, ↓reduceIte]
    rfl
  rw [hs]
  cases c.storePlace x old data <;> rfl

end

namespace OpFrame

theorem store (hd : OpFrame c d) (x : InCmd) (data : List Byte) : OpFrame c (d.store x data) := by
  cases hc : d.storeCheck x.cmd with
  | error st =>
    rw [Chip.store_refused hc]
    exact hd.finish _
  | ok old =>
    cases hu : old.any (fun v => v.hash.isNone) with
    | true =>
      rw [Chip.store_unhashed hc hu]
      exact hd
    | false =>
      rw [Chip.store_placed hc hu]
      cases d.storePlace x old data with
      | none => exact hd.finish _
      | some p => exact ite (fun _ => hd) fun _ => hd.storeNow x old p data

theorem storeData (hd : OpFrame c d) (x : InCmd) (data : StoreData) : OpFrame c (d.storeData x data) :=
  ite (fun _ => ((hd.bump _ (by decide)).raise _ _ (by decide)).finish _) fun _ => hd.store x _

end OpFrame

/-- What a Store or Append that may be issued does with its data. -/
theorem store_clause {row : Instr} {s : State} {data : StoreData} {e : Chip} (hb : s.chip.begin x true = (true, e))
    (hrow : exec row s = s.done (if e.nvq.heldWrites.isEmpty && e.stagingRoom [] (unitsStored data).length then e.storeData x data
      else e.mapCmd x.seq (fun y => { y with phase := .held, units := unitsStored data }))) :
    let n := (data.bytes.length + 65535) / 65536 + 1
    let fits := e.nvq.heldWrites.isEmpty && e.stagingRoom [] n
    (fits = false → CompletesThen row s (fun d =>
      d = e.mapCmd x.seq (fun y => { y with phase := .held, units := List.range n }) ∧ Keeps [.nvq] s.chip d)) ∧
    (fits = true → data.poisonedTlp = true → CompletesThen row s (fun d =>
      d = ((e.bump R.HIF_POISON_RX).raise 0x10 2).finish (x.status 0 0x04 false) ∧
      Keeps [.regs, .nvq, .pwr, .out] s.chip d)) ∧
    (fits = true → data.poisonedTlp = false →
      (∀ st, e.storeCheck x.cmd = .error st → CompletesThen row s (fun d => d = e.fail x st)) ∧
      (∀ old, e.storeCheck x.cmd = .ok old →
        (old.any (fun v => v.hash.isNone) = true → CompletesThen row s (fun d => d = e)) ∧
        (old.any (fun v => v.hash.isNone) = false →
          (e.storePlace x old data.bytes = none → CompletesThen row s (fun d => d = e.finish (x.status 0 0x81 false))) ∧
          (∀ p, e.storePlace x old data.bytes = some p →
            (p.newBand ≠ none → e.mustWait .locus = true → CompletesThen row s (fun d => d = e)) ∧
            (p.newBand = none ∨ e.mustWait .locus = false → CompletesThen row s (fun d =>
              d = e.storeNow x old p data.bytes ∧ Keeps commitParts s.chip d)))))) := by
  obtain ⟨rfl, -⟩ := Chip.begin_true hb
  have hk := keeps_remembering s.chip x
  intro n fits
  have hfit : fits = ((s.chip.remembering x).nvq.heldWrites.isEmpty &&
      (s.chip.remembering x).stagingRoom [] (unitsStored data).length) := by
    rw [unitsStored, List.length_range]
  refine ⟨fun hf => ?_, fun hf hp => ?_, fun hf hp => ?_⟩ <;> rw [hfit] at hf
  · exact completesThen_eq hrow (if_neg (by simp [hf])) ⟨rfl, hk.mapCmd _ _ (by decide)⟩
  · refine completesThen_eq hrow ((if_pos hf).trans (Chip.storeData_poisoned hp)) ⟨rfl, ?_⟩
    exact (((hk.mono (by decide)).bump _ (by decide)).raise _ _ (by decide) (by decide)).finish _ (by decide) (by decide)
  · have he : exec row s = s.done ((s.chip.remembering x).store x data.bytes) :=
      hrow.trans (congrArg s.done ((if_pos hf).trans (Chip.storeData_good hp)))
    refine ⟨fun st hc => completesThen_eq he (Chip.store_refused hc) rfl, fun old hc =>
      ⟨fun hu => completesThen_eq he (Chip.store_unhashed hc hu) rfl, fun hu => ?_⟩⟩
    have hs := Chip.store_placed (data := data.bytes) hc hu
    refine ⟨fun hp => completesThen_eq he (hs.trans (by rw [hp]; rfl)) rfl, fun p hp => ?_⟩
    rw [hp] at hs
    refine ⟨fun hn hm => completesThen_eq he (hs.trans (if_pos ?_)) rfl, fun hc =>
      completesThen_eq he (hs.trans (if_neg ?_)) ⟨rfl, .ofOp ((opFrame_remembering _ x).storeNow x old p data.bytes)⟩⟩
    · simp [hm, Option.isSome_iff_ne_none, hn]
    · rcases hc with hc | hc <;> simp [hc]

/-! ### What an accepted Store leaves (R151, R159, R160, R171) -/

/-- A value put among others under its key, which none of them has, is the one found there. -/
theorem find?_insertValue {vs : List Value} (hv : ∀ w ∈ vs, (w.key == v.key) = false) :
    (insertValue vs v).find? (fun w => w.key == v.key) = some v := by
  induction vs with
  | nil => simp [insertValue]
  | cons w ws ih =>
    obtain ⟨hw, hws⟩ := List.forall_mem_cons.1 hv
    unfold insertValue
    split
    · simp
    · simp [hw, ih hws]

theorem Chip.look_putFresh (c : Chip) (v : Value) : (c.putFresh v).seg.look v.key = some v := by
  unfold Seg.look
  rw [show (c.putFresh v).seg.fresh = insertValue (c.seg.fresh.filter (fun w => w.key != v.key)) v from rfl,
    find?_insertValue fun w hw => by simpa using (List.mem_filter.1 hw).2]
  rfl

/-- An extent added leaves the first unit of the first extent where it is. -/
theorem addExtent_cons (e t : Extent) (es : List Extent) :
    ∃ f fs, addExtent (e :: es) t = f :: fs ∧ f.zone = e.zone ∧ f.first = e.first := by
  cases es with
  | nil =>
    unfold addExtent
    split
    · exact ⟨_, _, rfl, rfl, rfl⟩
    · exact ⟨_, _, rfl, rfl, rfl⟩
  | cons a es => exact ⟨e, _, rfl, rfl, rfl⟩

theorem foldl_addExtent_cons (ts : List Extent) : ∀ (e : Extent) (es : List Extent),
    ∃ f fs, ts.foldl addExtent (e :: es) = f :: fs ∧ f.zone = e.zone ∧ f.first = e.first := by
  induction ts with
  | nil => exact fun e es => ⟨e, es, rfl, rfl, rfl⟩
  | cons t ts ih =>
    intro e es
    obtain ⟨f, fs, hf, hz, h1⟩ := addExtent_cons e t es
    obtain ⟨k, ks, hk, hkz, hk1⟩ := ih f fs
    exact ⟨k, ks, (congrArg (ts.foldl addExtent) hf).trans hk, hkz.trans hz, hk1.trans h1⟩

/-- A value that a Store creates, before its first byte. -/
def Chip.newValue (c : Chip) (h : HostCmd) (a : Act) : Value :=
  { key := h.key, sealed := false, length := 0, act := a, pin := h.kvPin, expires := c.expiresAt h.cdw12
    hash := some ShaState.init }

/-- A value once the bytes of a Store or an append are added to it, at their place. -/
def Value.grown (w : Value) (h : HostCmd) (p : Placement) (data : List Byte) : Value :=
  let hash := w.hash.map (fun t => t.add data)
  let sealed := !h.kvAppend || h.kvSeal
  { w with
    sealed := sealed, length := w.length + data.length, hash := if sealed then none else hash
    digest := if sealed then hash.elim w.digest ShaState.finish else w.digest
    extents := p.extents.foldl addExtent w.extents }

/-- A Store of a whole value seals it, with the digest of its data. -/
theorem Chip.newValue_grown (c : Chip) (a : Act) (ha : h.kvAppend = false) : ((c.newValue h a).grown h p data).sealed = true ∧
    ((c.newValue h a).grown h p data).length = data.length ∧ ((c.newValue h a).grown h p data).digest = sha256 data := by
  refine ⟨?_, Nat.zero_add _, ?_⟩ <;> simp [Value.grown, ha, Chip.newValue, sha256]

/-- An append seals the value where SEAL is set, with the digest of all its bytes. -/
theorem Value.grown_append {t : ShaState} (ha : h.kvAppend = true) (ht : w.hash = some t) :
    (w.grown h p data).sealed = h.kvSeal ∧ (h.kvSeal = true → (w.grown h p data).digest = (t.add data).finish) :=
  ⟨by simp [Value.grown, ha], fun hs => by simp [Value.grown, hs, ht]⟩

/-- The header of a value is staged before its first extent. -/
def Nvq.Heads (n : Nvq) (v : Value) : Prop := ∀ t ts, v.extents = t :: ts → ∃ u ∈ n.staging, u.zone = t.zone ∧
  u.unit = t.first - 1 ∧ u.data = [(0, Config.segHeader v.key v.length v.sealed v.digest)]

/-- The value stands, its header is staged, and no completion has left yet. -/
structure Chip.TakesValue (c s : Chip) (v : Value) : Prop where
  look : s.seg.look v.key = some v
  header : s.nvq.Heads v
  inflight : s.nvq.inflight = c.nvq.inflight
  room : ∀ i q, s.nvq.room i q = c.nvq.room i q
  out : s.out = c.out
  holdup : s.inHoldup = c.inHoldup

theorem Keeps.checkKeys (hd : Keeps ps c d) (a b : Nat) (hr : .regs ∈ ps) (hp : .pwr ∈ ps) : Keeps ps c (d.checkKeys a b) :=
  have hk : Keeps ps c (if a * 100 < 95 * d.keyLimit ∧ 95 * d.keyLimit ≤ d.seg.keyCount * 100 then d.raise 0x12 2 else d) :=
    .ite (fun _ => hd.raise _ _ hr hp) fun _ => hd
  .ite (fun _ => hk.raise _ _ hr hp) fun _ => hk

/-- A new value's own data is dropped first. -/
theorem dropFresh_frame {q : Prop} [Decidable q] (c : Chip) (key : List Byte) :
    let e := if q then c.dropFresh key else c
    e.nvq.inflight = c.nvq.inflight ∧ (∀ i q, e.nvq.room i q = c.nvq.room i q) ∧ e.out = c.out ∧
      e.inHoldup = c.inHoldup ∧ ∀ n, e.expiresAt n = c.expiresAt n := by
  intro e
  by_cases hq : q
  · rw [show e = c.dropFresh key from if_pos hq]
    exact ⟨rfl, fun _ _ => rfl, rfl, rfl, fun _ => rfl⟩
  · rw [show e = c from if_neg hq]
    exact ⟨rfl, fun _ _ => rfl, rfl, rfl, fun _ => rfl⟩

/-- Outside secure discard mode and without a new band, an accepted Store makes its value visible, completes its
command, and then commits the records of finished operations. -/
theorem Chip.storeNow_accepted (old : Option Value) (hb : p.newBand = none) (hs : 4 ∉ c.nvq.secure) :
    ∃ (s : Chip) (w : Value), (∀ k, old = some k → w = k) ∧ (old = none → ∃ a, w = c.newValue x.cmd a) ∧
      c.TakesValue s (w.grown x.cmd p data) ∧ c.storeNow x old p data =
        (s.finish { x.ok with dw0 := if x.cmd.kvAppend then (w.grown x.cmd p data).length else 0 }).commitSegs := by
  have hsec : c.nvq.secure.contains 4 = false := by simpa using hs
  unfold Chip.storeNow
  extract_lets hd keys opens secure replaced c1 c2 c3 base hash sealed v order u n4 c4 waitsOld oldZones op c5 s6 c6 c7 r8 c8
  have hf : secure = false := hsec
  have h2 : c2 = c := (if_neg (by rw [hf]; exact Bool.false_ne_true)).trans (by simp only [c1, hb])
  have h3 : c3 = if old.isNone then c.dropFresh hd.key else c := by simp only [c3, h2]
  obtain ⟨hinf, hroom, hout, hhold, hexp⟩ := dropFresh_frame (q := old.isNone = true) c hd.key
  rw [← h3] at hinf hroom hout hhold hexp
  have hw : waitsOld = false := by simp only [waitsOld, hf, Bool.false_and]
  have hv : base.grown x.cmd p data = v := by
    unfold Value.grown
    simp only [v, sealed, hash, hd]
    cases base.hash <;> rfl
  have hk : Keeps [.regs, .pwr] c6 c7 :=
    ((Keeps.refl _ _).checkKeys _ _ (by decide) (by decide)).checkDirty (by decide) (by decide)
  refine ⟨c7, base, ?_, ?_, ?_, ?_⟩
  · rintro k rfl
    rfl
  · rintro rfl
    exact ⟨_, by simp only [base, Option.getD_none, hexp, hf]; rfl⟩
  · rw [hv]
    refine ⟨(congrArg (·.look v.key) (hk.seg (by decide))).trans (c4.look_putFresh v), fun t ts he => ?_,
      (congrArg Nvq.inflight (hk.nvq (by decide))).trans hinf, fun i q => ?_, (hk.out (by decide)).trans hout, ?_⟩
    · refine ⟨{ u with zone := t.zone, unit := t.first - 1, len := 0
                       data := [(0, Config.segHeader v.key v.length v.sealed v.digest)] }, ?_, rfl, rfl, rfl⟩
      rw [hk.nvq (by decide)]
      refine List.mem_append_left _ (List.mem_append_right _ ?_)
      rw [headerUnit, he]
      exact List.mem_singleton.2 rfl
    · rw [hk.nvq (by decide)]
      exact hroom i q
    · unfold Chip.inHoldup at *
      rw [hk.sys (by decide)]
      exact hhold
  · rw [hv]
    exact congrArg Chip.commitSegs (if_neg (by simp [hw]))

/-- A command alone in flight is decided: its completion leaves, with at most one interrupt message. -/
theorem Chip.TakesValue.posts (ht : c.TakesValue s v) (dw0 : Nat) (hh : c.inHoldup = false) (hi : c.nvq.inflight = [x])
    (hr : x.result = none) (hroom : 0 < c.nvq.room x.cntl x.qid) :
    ∃ ms : List Out, ms.length ≤ 1 ∧ (∀ o ∈ ms, ∃ v a w, o = .msix x.cntl v a w) ∧ (s.finish { x.ok with dw0 := dw0 }).out =
      c.out ++ [.completion { cntl := x.cntl, qid := x.qid, cid := x.cid, dw0 := dw0 }] ++ ms := by
  have hs : s.nvq.inflight = [x] := ht.inflight.trans hi
  obtain ⟨⟨ms, ho, hm⟩, -, -, -⟩ := Chip.finish_alone (c := s) (r := { x.ok with dw0 := dw0 }) (x := x) (ht.holdup.trans hh)
    (by simp [Nvq.find, hs, InCmd.ok]) hr rfl (by simp [Nvq.mine, hs, InCmd.ok]) (by simpa [InCmd.ok, ht.room] using hroom)
  refine ⟨ms, ?_, ?_, ho.trans (by rw [ht.out]; rfl)⟩
  · rcases hm with rfl | ⟨o, rfl, -⟩ <;> simp
  · rcases hm with rfl | ⟨o, rfl, hm⟩
    · simp
    · exact fun q hq => List.mem_singleton.1 hq ▸ hm

/-- Posting leaves the value and its header. -/
theorem Chip.TakesValue.finished (ht : c.TakesValue s v) (r : Completion) :
    (s.finish r).seg.look v.key = some v ∧ (s.finish r).nvq.Heads v := by
  have hp := posts_finish s r
  rw [Nvq.Heads, hp.staging, hp.keeps.seg (by decide)]
  exact ⟨ht.look, ht.header⟩

/-- Settles O38: the key's state by its cases, acceptance through `store_clause`, and what an accepted Store leaves
through `Chip.storeNow_accepted`. -/
theorem storesMakeValuesVisibleAndComplete : Obligations.StoresMakeValuesVisibleAndComplete := by
  unfold Obligations.StoresMakeValuesVisibleAndComplete
  refine ⟨fun c h => ⟨Chip.storeCheck_absent, fun v => Chip.storeCheck_exists, fun v hv hm ha => ?append,
      fun v => Chip.storeCheck_replaces, Chip.storeCheck_tooManyOpen, Chip.storeCheck_keyLimit⟩,
    fun s i qid cid data x append => ?issued, fun c x p data hb hs => ⟨fun ha => ?store, fun w t ha hk hw ht => ?extend⟩⟩
  case append =>
    rw [Chip.storeCheck_append hv hm ha]
    refine ⟨fun h => if_pos h, fun h hl => ?_, fun h hl => ?_⟩
    · rw [h, if_neg Bool.false_ne_true, if_pos hl]
    · rw [h, if_neg Bool.false_ne_true, if_neg (Nat.not_lt.2 hl)]
  case issued =>
    intro row ha hn
    have hrow : exec row s = s.done (kvStoreCommand s.chip i.val qid cid x.cmd.kvAppend data) := by
      subst ha
      simp only [row]
      cases x.cmd.kvAppend <;> rfl
    refine ⟨fun hx => ?_, fun hal hh hf hns ho hp hr => ?_⟩
    · rw [kvStoreCommand_taken hx hn] at hrow
      refine ⟨fun e hb => completesThen_eq hrow (by rw [hb]; rfl) rfl, fun e hb => ?_⟩
      rw [hb] at hrow
      exact store_clause hb hrow
    · exact completesThen_eq hrow (kvStoreCommand_transferred hal hh hf hns ho hp hr hn)
        ⟨rfl, .ofOp ((OpFrame.refl _).storeData x data)⟩
  case store =>
    obtain ⟨s, w, -, hw, ht, he⟩ := Chip.storeNow_accepted (c := c) (x := x) (data := data) none hb hs
    obtain ⟨a, rfl⟩ := hw rfl
    rw [ha] at he
    obtain ⟨hl, hu⟩ := ht.finished { x.ok with dw0 := 0 }
    obtain ⟨hseal, hlen, hdig⟩ := c.newValue_grown (p := p) (data := data) a ha
    refine ⟨_, _, he, hl, hseal, hlen, hdig, rfl, rfl, rfl, ht.posts 0, fun t ts hp => ?_⟩
    obtain ⟨f, fs, hf, hz, h1⟩ := foldl_addExtent_cons ts t []
    have hx : ((c.newValue x.cmd a).grown x.cmd p data).extents = f :: fs := by
      rw [Value.grown, hp]
      exact hf
    obtain ⟨u, hm, huz, hu1, hud⟩ := hu f fs hx
    rw [hseal, hdig, hlen] at hud
    exact ⟨u, hm, huz.trans hz, hu1.trans (by rw [h1]), hud⟩
  case extend =>
    obtain ⟨s, k, hk', -, hv, he⟩ := Chip.storeNow_accepted (c := c) (x := x) (data := data) (some w) hb hs
    obtain rfl := hk' w rfl
    rw [ha] at he
    obtain ⟨hl, -⟩ := hv.finished { x.ok with dw0 := (k.grown x.cmd p data).length }
    obtain ⟨hseal, hdig⟩ := Value.grown_append (p := p) (data := data) ha ht
    exact ⟨_, _, he, hk ▸ hl, hseal, rfl, rfl, rfl, hdig, hv.posts _⟩

end Sys2Proof.Machine
end

section
/-! ## Values retrieved, deleted and listed (R19, R26, R40, R113, R158, R162 to R165, R170 to R176, O39) -/

namespace Sys2Proof.Machine

open Sys2Proof

variable {c d e : Chip} {ps : List ChipPart} {x : InCmd} {v : Value} {key : List Byte} {media again : ValueRead}
  {i qid cid : Nat}

/-! ### Exist (R164) -/

theorem kvExist_issued (hx : c.kv i qid cid 0x14 = some x) (hb : c.begin x false = (true, e)) : kvExist c i qid cid =
    e.finish (if (e.seg.present x.cmd.key).isSome then x.ok else x.status 1 0x87 true) := by
  simp only [kvExist, hx, hb, Bool.not_true, Bool.false_eq_true, ↓reduceIte]
  split <;> rfl

/-! ### Delete (R19, R164) -/

namespace OpFrame

theorem endJobs (h : OpFrame c d) (v : Value) : OpFrame c (d.endJobs v) :=
  foldl _ (fun _ _ h => ite (fun _ => h.dropJobOf _) fun _ => h) _ h

theorem removeValue (h : OpFrame c d) (v : Value) (rc : Rec) (post : Option Completion) :
    OpFrame c (d.removeValue v rc post) :=
  have hj := (h.dropFresh v.key).endJobs v
  ite (fun _ => (hj.commit _ _ _).discardExtents _ _ _) fun _ => hj.commit _ _ _

end OpFrame

section
variable (hx : c.kv i qid cid 0x10 = some x) (hb : c.begin x true = (true, e))
include hx hb

theorem kvDelete_absent (hv : e.seg.present x.cmd.key = none) : kvDelete c i qid cid = e.finish (x.status 1 0x87 true) := by
  simp only [kvDelete, hx, hb, hv, Bool.not_true, Bool.false_eq_true, ↓reduceIte]
  rfl

theorem kvDelete_present (hv : e.seg.present x.cmd.key = some v) : kvDelete c i qid cid =
    if e.mustWaitFor .seg 3 then e
    else (e.mapCmd x.seq (fun y => { y with phase := .working })).removeValue v
      (.segDelete v.key (2 * b2n (e.nvq.secure.contains 4))) (some x.ok) := by
  simp only [kvDelete, hx, hb, hv, Bool.not_true, Bool.false_eq_true, ↓reduceIte]
  rfl

end

theorem delete_clause {s : State} {i : Fin 2} (hx : s.chip.kv i.val qid cid 0x10 = some x)
    (hb : s.chip.begin x true = (true, e)) :
    (e.seg.present x.cmd.key = none → CompletesThen (.kvDelete i qid cid) s (fun d => d = e.finish (x.status 1 0x87 true))) ∧
    (∀ v, e.seg.present x.cmd.key = some v →
      (e.mustWaitFor .seg 3 = true → CompletesThen (.kvDelete i qid cid) s (fun d => d = e)) ∧
      (e.mustWaitFor .seg 3 = false → CompletesThen (.kvDelete i qid cid) s (fun d =>
        d = (e.mapCmd x.seq (fun y => { y with phase := .working })).removeValue v
          (.segDelete v.key (2 * b2n (e.nvq.secure.contains 4))) (some x.ok) ∧
        Keeps commitParts s.chip d))) := by
  refine ⟨fun hv => completesThen_eq rfl (kvDelete_absent hx hb hv) rfl, fun v hv => ?_⟩
  have hp := kvDelete_present hx hb hv
  refine ⟨fun hm => completesThen_eq rfl (hp.trans (if_pos hm)) rfl, fun hm =>
    completesThen_eq rfl (hp.trans (if_neg (by simp [hm]))) ⟨rfl, ?_⟩⟩
  obtain ⟨rfl, -⟩ := Chip.begin_true hb
  exact .ofOp (((opFrame_remembering s.chip x).mapCmd _ _).removeValue v _ _)

/-! ### The damaged mark (R19, R173) -/

/-- A record that marks a value damaged marks every version of it. -/
theorem Chip.damaged_applyRec (c : Chip) (key : List Byte) :
    ∀ w ∈ (c.applyRec (.segDamaged key)).seg.values ++ (c.applyRec (.segDamaged key)).seg.fresh,
      w.key = key → w.damaged = true := by
  intro w hw hk
  have hm : w ∈ (c.seg.values ++ c.seg.fresh).map (fun w => if w.key = key then { w with damaged := true } else w) := by
    rw [List.map_append]
    exact hw
  obtain ⟨u, -, rfl⟩ := List.mem_map.1 hm
  by_cases hu : u.key = key
  · rw [if_pos hu]
  · rw [if_neg hu] at hk
    exact absurd hk hu

theorem Chip.damaged_markDamaged (key : List Byte) (hm : c.mustWait .seg = false) (hj : c.jnl.closed = false) :
    ∀ w ∈ (c.markDamaged key).seg.values ++ (c.markDamaged key).seg.fresh, w.key = key → w.damaged = true := by
  have hc : c.markDamaged key = c.commitNow ⟨.seg, [.segDamaged key], []⟩ := by
    simp [Chip.markDamaged, Chip.commit, hm, hj]
  have hs : HeldAlike ((c.appendRecs [.segDamaged key]).applyRec (.segDamaged key))
      (c.commitNow ⟨.seg, [.segDamaged key], []⟩) := (HeldAlike.repaged _ _).trans (HeldAlike.maybeCkpt _)
  rw [hc, hs.seg]
  exact Chip.damaged_applyRec _ key

theorem Chip.due_markDamaged (key : List Byte) (hm : c.mustWait .seg = true) :
    key ∈ (c.markDamaged key).seg.damagedDue := by
  rw [Chip.markDamaged, if_pos hm]
  exact List.mem_append_right _ (List.mem_singleton.2 rfl)

/-- The event, the count and the cause of a failed digest check leave the values. -/
theorem Chip.seg_valueDamaged (c : Chip) (v : Value) : (c.valueDamaged v).seg = (c.markDamaged v.key).seg :=
  ((((Keeps.refl [.regs, .evr, .pwr] _).event _ _ (by decide) (by decide) (by decide)).bump _ (by decide)).raise _ _
    (by decide) (by decide)).seg (by decide)

namespace Keeps

variable (h : Keeps commitParts c d)
include h

theorem commit (src : JnlSource) (rs : List Rec) (posts : List Completion) : Keeps commitParts c (d.commit src rs posts) :=
  h.trans (.ofOp ((OpFrame.refl d).commit src rs posts))

theorem valueDamaged (v : Value) : Keeps commitParts c (d.valueDamaged v) := by
  have hm : Keeps commitParts c (d.markDamaged v.key) := .ite (fun _ => h.withSeg _ (by decide)) fun _ => h.commit _ _ _
  exact ((hm.event _ _ (by decide) (by decide) (by decide)).bump _ (by decide)).raise _ _ (by decide) (by decide)

end Keeps

theorem valueDamaged_clause (c : Chip) (v : Value) :
    (c.mustWait .seg = true → v.key ∈ (c.valueDamaged v).seg.damagedDue) ∧
    (c.mustWait .seg = false → c.jnl.closed = false →
      ∀ w ∈ (c.valueDamaged v).seg.values ++ (c.valueDamaged v).seg.fresh, w.key = v.key → w.damaged = true) ∧
    (c.valueDamaged v).bit (pIntStatus 0x12) 0 = true ∧ Keeps commitParts c (c.valueDamaged v) := by
  rw [Chip.seg_valueDamaged]
  exact ⟨Chip.due_markDamaged _, Chip.damaged_markDamaged _, Chip.bit_raise _ _ _ (by decide),
    (Keeps.refl _ c).valueDamaged v⟩

/-! ### The bytes of a range (R26, R163) -/

section
variable {start n got : Nat} {header : Option (BitVec 256)} {bs : List Byte} (h0 : 0 < n)
include h0

theorem rangeRead_good (hn : bs.length = n) (h : BitVec 256) : rangeRead [] start n header got (.good bs h) =
    if (n + 4095) / 4096 ≤ got then some (.good bs (header.getD h)) else none := by
  simp [rangeRead, hn, Nat.ne_of_lt h0]

theorem rangeRead_poisoned (hn : bs.length = n) : rangeRead [] start n header got (.poisoned bs) =
    if (n + 4095) / 4096 ≤ got then some (.poisoned bs) else none := by
  simp [rangeRead, hn, Nat.ne_of_lt h0]

theorem rangeRead_unrecovered : rangeRead [] start n header got .unrecovered = some .unrecovered := by
  simp [rangeRead, Nat.ne_of_lt h0]

end

/-! ### What a Retrieve sends (R113, R162, R163, R173, R174) -/

namespace Keeps

theorem mapValue (h : Keeps ps c d) (key : List Byte) (f : Value → Value) (hs : .seg ∈ ps) :
    Keeps ps c (d.mapValue key f) := h.withSeg _ hs

variable (h : Keeps commitParts c d)
include h

theorem retrieved (x : InCmd) (bs : List Byte) : Keeps commitParts c (d.retrieved x bs) :=
  have hv := h.mapValue x.cmd.key (fun v => { v with popularity := satSucc v.popularity 0xFFFF }) (by decide)
  Keeps.finish (.ite (fun _ => hv) fun _ => hv.emit _ (by decide)) _ (by decide) (by decide)

theorem poisonSent (x : InCmd) (bs : List Byte) : Keeps commitParts c (d.poisonSent x bs) :=
  ((((h.emit _ (by decide)).takeFree 5 (by decide)).addSat _ _ (by decide)).raise _ _ (by decide) (by decide)).finish _
    (by decide) (by decide)

/-- With a value found damaged the mark comes first, without one the command only fails. -/
theorem failDamaged (x : InCmd) (st : Status) : Keeps commitParts c (match d.seg.look x.cmd.key with
    | some v => (d.valueDamaged v).fail x st
    | none => d.fail x st) := by
  split
  · exact (h.valueDamaged _).finish _ (by decide) (by decide)
  · exact h.finish _ (by decide) (by decide)

theorem verified (x : InCmd) (bs : List Byte) (header : BitVec 256) : Keeps commitParts c (d.verified x bs header) :=
  .ite (fun _ => h.retrieved x _) fun _ => h.failDamaged x _

theorem retrieveMore (x : InCmd) (media again : ValueRead) : Keeps commitParts c (d.retrieveMore x media again) := by
  have hf (st : Status) : Keeps commitParts c (d.fail x st) := h.finish _ (by decide) (by decide)
  unfold Chip.retrieveMore
  dsimp only
  split
  · split
    · exact h
    · exact h.verified x _ _
    · exact hf _
    · split
      · exact h
      · exact h.verified x _ _
      · exact h.failDamaged x _
      · exact hf _
  · split
    · exact h
    · exact h.retrieved x _
    · exact h.poisonSent x _
    · exact hf _

end Keeps

theorem retrieved_clause (c : Chip) (x : InCmd) {bs : List Byte} (hbs : bs ≠ []) : ∃ e,
    c.retrieved x bs = e.finish { x.ok with dw0 := x.length } ∧ e.out = c.out ++ [.bytes x.cntl x.qid x.cid bs] ∧
      Keeps [.seg, .out] c e := by
  have he : bs.isEmpty = false := by simp [hbs]
  exact ⟨_, by rw [Chip.retrieved, he]; rfl, rfl, ((Keeps.refl _ c).mapValue _ _ (by decide)).emit _ (by decide)⟩

theorem poisonSent_clause (c : Chip) (x : InCmd) (bs : List Byte) : ∃ (k : Nat) (e : Chip), 8 ≤ k ∧ k ≤ 32 ∧
    c.poisonSent x bs = e.finish (x.status 2 0x81 false) ∧ e.out = c.out ++ [.bytes x.cntl x.qid x.cid bs true] ∧
    e.reg R.HIF_POISON_TX = BitVec.ofNat 32 (min ((c.reg R.HIF_POISON_TX).toNat + k) 0xFFFFFFFF) ∧
    e.bit (pIntStatus 0x10) 3 = true :=
  ⟨8 + ((c.emit (.bytes x.cntl x.qid x.cid bs true)).takeFree 5).1.toNat % 25, _, by omega, by omega, rfl, rfl,
    (Chip.reg_raise_ne _ (by decide)).trans ((Chip.reg_addSat _ _ _ _).trans (if_pos rfl)), Chip.bit_raise _ _ _ (by decide)⟩

/-- The bytes that a Retrieve asks for, as far as its value goes. -/
def InCmd.wanted (x : InCmd) : Nat := min x.cmd.cdw10 (x.length - x.cmd.cdw12)

/-- What a Retrieve without VERIFY does with what it has read. -/
def Chip.sendRead (c : Chip) (x : InCmd) : Option ValueRead → Chip
  | none => c
  | some (.good bs _) => c.retrieved x bs
  | some (.poisoned bs) => c.poisonSent x bs
  | some .unrecovered => c.finish (x.status 2 0x81 false)

section
variable {bs : List Byte} (hp : x.pieces = [])
include hp

section
variable (hv : x.cmd.cdw13 % 2 = 0)
include hv

theorem Chip.retrieveMore_sends : c.retrieveMore x media again =
    c.sendRead x (rangeRead [] x.cmd.cdw12 x.wanted (some 0) x.got.length media) := by
  have h1 : ¬x.cmd.cdw13 % 2 = 1 := by omega
  rw [Chip.retrieveMore, if_neg h1, hp]
  change _ = c.sendRead x (rangeRead [] x.cmd.cdw12 (min x.cmd.cdw10 (x.length - x.cmd.cdw12)) _ _ _)
  generalize rangeRead [] x.cmd.cdw12 (min x.cmd.cdw10 (x.length - x.cmd.cdw12)) (some 0) x.got.length media = r
  rcases r with _ | r
  · rfl
  · cases r <;> rfl

variable (h0 : 0 < x.wanted)
include h0

theorem Chip.retrieveMore_good (hl : bs.length = x.wanted) (h : BitVec 256) : c.retrieveMore x (.good bs h) again =
    if (x.wanted + 4095) / 4096 ≤ x.got.length then c.retrieved x bs else c := by
  rw [Chip.retrieveMore_sends hp hv, rangeRead_good h0 hl h]
  exact apply_ite (c.sendRead x) _ _ _

theorem Chip.retrieveMore_poisoned (hl : bs.length = x.wanted) : c.retrieveMore x (.poisoned bs) again =
    if (x.wanted + 4095) / 4096 ≤ x.got.length then c.poisonSent x bs else c := by
  rw [Chip.retrieveMore_sends hp hv, rangeRead_poisoned h0 hl]
  exact apply_ite (c.sendRead x) _ _ _

theorem Chip.retrieveMore_unrecovered : c.retrieveMore x .unrecovered again = c.finish (x.status 2 0x81 false) := by
  rw [Chip.retrieveMore_sends hp hv, rangeRead_unrecovered h0]
  rfl

end

theorem Chip.retrieveMore_verify (hv : x.cmd.cdw13 % 2 = 1) (h0 : 0 < x.length) (hl : bs.length = x.length)
    (h : BitVec 256) : c.retrieveMore x (.good bs h) again =
      if (x.length + 4095) / 4096 ≤ x.got.length then c.verified x bs (x.digest.getD h) else c := by
  have hr := rangeRead_good (start := 0) (got := x.got.length) (header := x.digest) h0 hl h
  by_cases hg : (x.length + 4095) / 4096 ≤ x.got.length <;> simp only [Chip.retrieveMore, hv, hp, hr, hg, ↓reduceIte]

end

theorem Chip.verified_matches {bs : List Byte} {header : BitVec 256} (h : sha256 bs = header) : c.verified x bs header =
    c.retrieved x ((bs.drop x.cmd.cdw12).take x.wanted) :=
  if_pos (beq_iff_eq.2 h)

theorem Chip.verified_differs {bs : List Byte} {header : BitVec 256} (h : sha256 bs ≠ header)
    (hv : c.seg.look x.cmd.key = some v) : c.verified x bs header = (c.valueDamaged v).finish (x.status 1 0x88 true) := by
  rw [Chip.verified, if_neg (by simpa using h), hv]
  rfl

/-- What the media gives decides a Retrieve of which staging holds nothing. -/
theorem retrieveMore_clause (c : Chip) (x : InCmd) (bs : List Byte) (h : BitVec 256) (again : ValueRead)
    (hp : x.pieces = []) :
    (x.cmd.cdw13 % 2 = 0 → 0 < x.wanted → bs.length = x.wanted →
      (x.got.length < (x.wanted + 4095) / 4096 → c.retrieveMore x (.good bs h) again = c) ∧
      ((x.wanted + 4095) / 4096 ≤ x.got.length →
        (∃ e, c.retrieveMore x (.good bs h) again = e.finish { x.ok with dw0 := x.length } ∧
          e.out = c.out ++ [.bytes x.cntl x.qid x.cid bs] ∧ Keeps [.seg, .out] c e) ∧
        c.retrieveMore x (.poisoned bs) again = c.poisonSent x bs)) ∧
    (x.cmd.cdw13 % 2 = 0 → 0 < x.wanted →
      c.retrieveMore x .unrecovered again = c.finish (x.status 2 0x81 false)) ∧
    (∀ v, x.cmd.cdw13 % 2 = 1 → c.seg.look x.cmd.key = some v → 0 < x.length → bs.length = x.length →
      (x.got.length < (x.length + 4095) / 4096 → c.retrieveMore x (.good bs h) again = c) ∧
      ((x.length + 4095) / 4096 ≤ x.got.length →
        (sha256 bs = x.digest.getD h → c.retrieveMore x (.good bs h) again =
          c.retrieved x ((bs.drop x.cmd.cdw12).take x.wanted)) ∧
        (sha256 bs ≠ x.digest.getD h → c.retrieveMore x (.good bs h) again =
          (c.valueDamaged v).finish (x.status 1 0x88 true)))) := by
  refine ⟨fun hv h0 hl => ?_, fun hv h0 => Chip.retrieveMore_unrecovered hp hv h0, fun v hv hk h0 hl => ?_⟩
  · have hne : bs ≠ [] := List.ne_nil_of_length_pos (hl ▸ h0)
    rw [Chip.retrieveMore_good hp hv h0 hl, Chip.retrieveMore_poisoned hp hv h0 hl]
    refine ⟨fun hg => if_neg (Nat.not_le.2 hg), fun hg => ⟨?_, if_pos hg⟩⟩
    rw [if_pos hg]
    exact retrieved_clause c x hne
  · rw [Chip.retrieveMore_verify hp hv h0 hl]
    refine ⟨fun hg => if_neg (Nat.not_le.2 hg), fun hg => ?_⟩
    rw [if_pos hg]
    exact ⟨Chip.verified_matches, fun hd => Chip.verified_differs hd hk⟩

/-! ### Retrieve (R40, R158, R162) -/

/-- A Retrieve as it is taken, with what staging holds of its value. -/
def InCmd.retrieving (x : InCmd) (e : Chip) (v : Value) (y : InCmd) : InCmd := { y with
  phase := .working, issued := some (x.issued.getD e.dtm.dtime), length := v.length
  digest := if e.seg.fresh.any (fun w => w.key == v.key) then some v.digest else none
  pieces := e.nvq.pieces v.key, bands := v.extents.filterMap (fun t => e.bandOfZone t.zone) }

/-- The chip that remembers it, once Locus has handed on the first unit of each extent. -/
def Chip.retrieving (e : Chip) (x : InCmd) (v : Value) : Chip :=
  (e.mapCmd x.seq (x.retrieving e v)).locate (v.extents.map (fun t => (t.first, t.zone, t.first)))

section
variable (hx : c.kv i qid cid 0x02 = some x) (hb : c.begin x false = (true, e))
include hx hb

theorem kvRetrieve_absent (hv : e.seg.present x.cmd.key = none) :
    kvRetrieve c i qid cid media again = e.fail x (1, 0x87, true) := by
  simp only [kvRetrieve, hx, hb, hv, Bool.not_true, Bool.false_eq_true, ↓reduceIte]
  rfl

theorem kvRetrieve_present (hv : e.seg.present x.cmd.key = some v) : kvRetrieve c i qid cid media again =
    if v.length < x.cmd.cdw12 then e.fail x (0, 0x02, true)
    else if x.cmd.cdw13 % 2 = 1 ∧ !v.sealed then e.fail x (1, 0xC0, true)
    else if v.damaged then e.fail x (1, 0x88, true)
    else if e.pageMissing v then e.mapCmd x.seq (fun y => { y with issued := some (x.issued.getD e.dtm.dtime) })
    else (e.retrieving x v).retrieveMore (x.retrieving e v x) media again := by
  simp only [kvRetrieve, hx, hb, hv, Bool.not_true, Bool.false_eq_true, ↓reduceIte]
  rfl

end

theorem kvRetrieve_working (ha : c.alive = true) (hh : c.inHoldup = false) (hf : c.nvq.find i qid cid = some x)
    (hn : x.cmd.nsid = 4) (ho : x.cmd.opcode = 0x02) (hp : x.phase = .working) (hr : x.result = none) :
    kvRetrieve c i qid cid media again = c.retrieveMore x media again := by
  simp [kvRetrieve, Chip.kv_under_way hf (show x.phase ≠ .fetched by rw [hp]; decide), ha, hh, hf, hn, ho, hp, hr]

theorem keeps_retrieving (e : Chip) (x : InCmd) (v : Value) : Keeps [.nvq, .out] e (e.retrieving x v) :=
  ((Keeps.refl [.nvq, .out] e).mapCmd _ _ (by decide)).of_part (q := .out) (by decide) fun p _ => by cases p <;> trivial

theorem retrieve_clause {s : State} {i : Fin 2} (media again : ValueRead) (hx : s.chip.kv i.val qid cid 0x02 = some x)
    (hb : s.chip.begin x false = (true, e)) :
    let fails (st : Status) : Prop :=
      CompletesThen (.kvRetrieve i qid cid media again) s (fun d => d = e.fail x st)
    (e.seg.present x.cmd.key = none → fails (1, 0x87, true)) ∧
    (∀ v, e.seg.present x.cmd.key = some v →
      (v.length < x.cmd.cdw12 → fails (0, 0x02, true)) ∧
      (x.cmd.cdw12 ≤ v.length → x.cmd.cdw13 % 2 = 1 → v.sealed = false → fails (1, 0xC0, true)) ∧
      (x.cmd.cdw12 ≤ v.length → (x.cmd.cdw13 % 2 = 0 ∨ v.sealed = true) →
        (v.damaged = true → fails (1, 0x88, true)) ∧
        (v.damaged = false → e.pageMissing v = true → CompletesThen (.kvRetrieve i qid cid media again) s (fun d =>
          d = e.mapCmd x.seq (fun y => { y with issued := some (x.issued.getD e.dtm.dtime) }))) ∧
        (v.damaged = false → e.pageMissing v = false → CompletesThen (.kvRetrieve i qid cid media again) s (fun d =>
          d = (e.retrieving x v).retrieveMore (x.retrieving e v x) media again ∧ Keeps commitParts s.chip d)))) := by
  intro fails
  refine ⟨fun hv => completesThen_eq rfl (kvRetrieve_absent hx hb hv) rfl, fun v hv => ?_⟩
  have he := kvRetrieve_present (media := media) (again := again) hx hb hv
  refine ⟨fun hl => completesThen_eq rfl (he.trans (if_pos hl)) rfl, fun hl hc hs => ?_, fun hl hs => ?_⟩ <;>
    rw [if_neg (Nat.not_lt.2 hl)] at he
  · exact completesThen_eq rfl (he.trans (if_pos ⟨hc, by simp [hs]⟩)) rfl
  · rw [if_neg (by rcases hs with hs | hs <;> simp [hs])] at he
    refine ⟨fun hd => completesThen_eq rfl (he.trans (if_pos hd)) rfl, fun hd hm => ?_, fun hd hm => ?_⟩ <;>
      rw [if_neg (by simp [hd])] at he
    · exact completesThen_eq rfl (he.trans (if_pos hm)) rfl
    · refine completesThen_eq rfl (he.trans (if_neg (by simp [hm]))) ⟨rfl, ?_⟩
      obtain ⟨rfl, -⟩ := Chip.begin_true hb
      exact Keeps.retrieveMore (((keeps_remembering s.chip x).mono (by decide)).step (keeps_retrieving _ x v) (by decide)) _ _ _

/-! ### List (R165) -/

theorem fitKeys_prefix (ks : List (List Byte)) : ∀ room, fitKeys room ks <+: ks := by
  induction ks with
  | nil => exact fun _ => List.prefix_rfl
  | cons k ks ih =>
    intro room
    unfold fitKeys
    dsimp only
    split
    · exact List.prefix_cons_inj k |>.2 (ih _)
    · exact List.nil_prefix

theorem fitKeys_fits (ks : List (List Byte)) : ∀ room, ((fitKeys room ks).flatMap listEntry).length ≤ room := by
  induction ks with
  | nil => exact Nat.zero_le
  | cons k ks ih =>
    intro room
    unfold fitKeys
    dsimp only
    split
    · next hk =>
      have := ih (room - (listEntry k).length)
      rw [List.flatMap_cons, List.length_append]
      omega
    · exact Nat.zero_le _

/-- The first key left out does not fit behind those sent. -/
theorem fitKeys_maximal {k : List Byte} (ks : List (List Byte)) : ∀ room, ks[(fitKeys room ks).length]? = some k →
    room < ((fitKeys room ks).flatMap listEntry).length + (listEntry k).length := by
  induction ks with
  | nil => exact fun _ h => absurd h (by simp)
  | cons k' ks ih =>
    intro room
    unfold fitKeys
    dsimp only
    split
    · next hk =>
      intro h
      have := ih (room - (listEntry k').length) h
      rw [List.flatMap_cons, List.length_append]
      omega
    · next hk =>
      intro h
      cases h
      simpa using hk

/-- The keys that a List command asks for, in order (R165, R171). -/
def Seg.listed (g : Seg) (h : HostCmd) : List (List Byte) :=
  let all := (g.index.filter (fun v => !v.expired)).map Value.key
  if h.kl = 0 then all else all.filter (fun k => keyLt h.key k || (h.cdw13 % 2 == 0 && k == h.key))

theorem kvList_issued (hx : c.kv i qid cid 0x06 = some x) (hb : c.begin x false = (true, e)) : kvList c i qid cid =
    let sent := fitKeys (x.cmd.cdw10 - 4) (e.seg.listed x.cmd)
    (e.emit (.bytes i qid cid (leBytes 4 sent.length ++ sent.flatMap listEntry))).finish
      { x.ok with dw0 := sent.length + (if sent.length < (e.seg.listed x.cmd).length then 2 ^ 31 else 0) } := by
  simp only [kvList, hx, hb, Bool.not_true, Bool.false_eq_true, ↓reduceIte]
  rfl

theorem list_clause {s : State} {i : Fin 2} (hx : s.chip.kv i.val qid cid 0x06 = some x)
    (hb : s.chip.begin x false = (true, e)) (h4 : 4 ≤ x.cmd.cdw10) :
    CompletesThen (.kvList i qid cid) s (fun d => ∃ sent : List (List Byte), sent <+: e.seg.listed x.cmd ∧
      let data := leBytes 4 sent.length ++ sent.flatMap listEntry
      data.length ≤ x.cmd.cdw10 ∧
      d = (e.emit (.bytes i.val qid cid data)).finish
        { x.ok with dw0 := sent.length + (if sent.length < (e.seg.listed x.cmd).length then 2 ^ 31 else 0) } ∧
      (∀ k, (e.seg.listed x.cmd)[sent.length]? = some k → x.cmd.cdw10 < data.length + (listEntry k).length) ∧
      Keeps [.nvq, .out] s.chip d) := by
  obtain ⟨rfl, -⟩ := Chip.begin_true hb
  have hf := fitKeys_fits ((s.chip.remembering x).seg.listed x.cmd) (x.cmd.cdw10 - 4)
  refine completesThen_eq rfl (kvList_issued hx hb) ⟨_, fitKeys_prefix _ (x.cmd.cdw10 - 4), ?_, rfl, fun k hk => ?_, ?_⟩
  · rw [List.length_append, leBytes_length]
    omega
  · have := fitKeys_maximal _ _ hk
    rw [List.length_append, leBytes_length]
    omega
  · exact (((keeps_remembering s.chip x).mono (by decide)).emit _ (by decide)).finish _ (by decide) (by decide)

/-! ### Background verify (R172, R173) -/

/-- The lap's hours are shown, and its cause is raised where it took longer than asked (R172). -/
def Chip.lapEnded (c : Chip) (hours : Nat) : Chip :=
  let d := c.setFld R.SEG_VERIFY_LAP 15 0 (min hours 0xFFFF)
  if c.fld R.SEG_VERIFY 15 0 < hours then d.raise 0x12 1 else d

theorem segBackgroundVerify_good {bs : List Byte} {h : BitVec 256} (hs : c.segOn = true) (hv : c.seg.present key = some v)
    (hsl : v.sealed = true) (hd : v.damaged = false) (hg : c.segGot v = true) (hl : c.fld R.SEG_VERIFY 15 0 ≠ 0)
    (hr : c.fld R.SEG_VERIFY 23 16 ≠ 0) (lap : Option Nat) : segBackgroundVerify c key (.good bs h) again lap =
      lap.elim (if sha256 bs = h then c.segTaken v else (c.segTaken v).valueDamaged v)
        (if sha256 bs = h then c.segTaken v else (c.segTaken v).valueDamaged v).lapEnded := by
  have h0 : (!c.segOn || c.fld R.SEG_VERIFY 15 0 == 0 || c.fld R.SEG_VERIFY 23 16 == 0) = false := by simp [hs, hl, hr]
  have h1 : (!v.sealed || v.damaged || !c.segGot v) = false := by simp [hsl, hd, hg]
  simp only [segBackgroundVerify, h0, hv, h1, Bool.false_eq_true, ↓reduceIte, beq_iff_eq]
  cases lap <;> rfl

theorem lapEnded_frame (c : Chip) (hours : Nat) : (c.lapEnded hours).fld R.SEG_VERIFY_LAP 15 0 = min hours 0xFFFF ∧
    (c.fld R.SEG_VERIFY 15 0 < hours → (c.lapEnded hours).bit (pIntStatus 0x12) 1 = true) ∧
    OnlyRegs [R.SEG_VERIFY_LAP, pIntStatus 0x12] c (c.lapEnded hours) ∧ Keeps [.regs, .pwr] c (c.lapEnded hours) := by
  have hr := (OnlyRegs.refl c [R.SEG_VERIFY_LAP, pIntStatus 0x12]).setFld R.SEG_VERIFY_LAP 15 0 (min hours 0xFFFF) (by decide)
  have hk := (Keeps.refl [.regs, .pwr] c).setFld R.SEG_VERIFY_LAP 15 0 (min hours 0xFFFF) (by decide)
  have hf : (c.setFld R.SEG_VERIFY_LAP 15 0 (min hours 0xFFFF)).fld R.SEG_VERIFY_LAP 15 0 = min hours 0xFFFF := by
    rw [Chip.fld_setFld_self _ _ _ (by decide), Nat.mod_eq_of_lt (by omega)]
  unfold Chip.lapEnded
  dsimp only
  split
  · refine ⟨(Chip.fld_of_reg _ (Chip.reg_raise_ne _ (by decide)) 15 0).trans hf, fun _ => Chip.bit_raise _ _ _ (by decide),
      hr.raise _ _ (by decide), hk.raise _ _ (by decide) (by decide)⟩
  · next hlate => exact ⟨hf, fun h => absurd h hlate, hr, hk⟩

theorem keeps_segTaken (c : Chip) (v : Value) : Keeps [.seg] c (c.segTaken v) := (Keeps.refl _ c).withSeg _ (by decide)

/-- A value whose hash is that of its header is passed, and the lap that ends with it is reported. -/
theorem lap_clause (c : Chip) (v : Value) (hours : Nat) :
    ((c.segTaken v).lapEnded hours).fld R.SEG_VERIFY_LAP 15 0 = min hours 0xFFFF ∧
    (c.fld R.SEG_VERIFY 15 0 < hours → ((c.segTaken v).lapEnded hours).bit (pIntStatus 0x12) 1 = true) ∧
    OnlyRegs [R.SEG_VERIFY_LAP, pIntStatus 0x12] c ((c.segTaken v).lapEnded hours) ∧
    Keeps [.regs, .seg, .pwr] c ((c.segTaken v).lapEnded hours) := by
  obtain ⟨hf, hb, hr, hk⟩ := lapEnded_frame (c.segTaken v) hours
  exact ⟨hf, hb, (OnlyRegs.of_regs rfl).trans hr, ((keeps_segTaken c v).mono (by decide)).step hk (by decide)⟩

/-! ### Open values, expiry and popularity (R164, R170, R174, R176) -/

theorem segOpenValueRebuild_good {bs : List Byte} {h : BitVec 256} (hs : c.segOn = true) (hv : c.seg.look key = some v)
    (ho : v.sealed = false) (hh : v.hash = none) (hg : c.segGot v = true) (hl : bs.length = v.length) :
    segOpenValueRebuild c key (.good bs h) =
      ((c.segTaken v).mapValue key (fun w => { w with hash := some (ShaState.init.add bs) })).restoreValues := by
  have h1 : (v.sealed || v.hash.isSome || bs.length != v.length || !c.segGot v) = false := by simp [ho, hh, hg, hl]
  simp only [segOpenValueRebuild, hs, hv, h1, Bool.not_true, Bool.false_eq_true, ↓reduceIte]

theorem keeps_rebuilt (c : Chip) (v : Value) (key : List Byte) (f : Value → Value) :
    Keeps commitParts c ((c.segTaken v).mapValue key f).restoreValues :=
  (((keeps_segTaken c v).mono (by decide)).mapValue key f (by decide)).trans (.ofOp (OpFrame.refl _).restoreValues)

theorem segExpiryReclaim_expired (hs : c.segOn = true) (hm : c.mustWaitFor .seg 3 = false) (hv : c.seg.look key = some v)
    (he : v.expired = true) : segExpiryReclaim c key =
      c.removeValue v (.segReclaim key (2 * b2n (c.nvq.secure.contains 4)) v.expires) none := by
  simp only [segExpiryReclaim, hs, hm, hv, he, Bool.not_true, Bool.or_false, Bool.false_eq_true, ↓reduceIte]

theorem segPopularityHalve_on (hs : c.segOn = true) (hl : c.fld R.SEG_POP 23 16 ≠ 0) : segPopularityHalve c =
    { c with seg := { c.seg with
      values := c.seg.values.map (fun w => { w with popularity := w.popularity / 2 })
      fresh := c.seg.fresh.map (fun w => { w with popularity := w.popularity / 2 }) } } := by
  simp [segPopularityHalve, hs, hl]

/-! ### Migration (R175) -/

namespace Keeps

theorem setQueue (h : Keeps ps c d) (a : Act) (q : List Job) (hb : .bcl ∈ ps) : Keeps ps c (d.setQueue a q) := by
  cases a <;> exact h.withBcl _ hb

theorem queueJob (h : Keeps ps c d) (j : Job) (hb : .bcl ∈ ps) (hr : .regs ∈ ps) (hp : .pwr ∈ ps) :
    Keeps ps c (d.queueJob j) :=
  .ite (fun _ => h) fun _ => .ite (fun _ => h.raise _ _ hr hp) fun _ => h.setQueue _ _ hb

end Keeps

/-- A cleaning job that moves a value's zone to an Annulus is queued for each of some zones. -/
def Chip.queueMoves (c : Chip) (key : List Byte) (ann : Nat) (zs : List Nat) : Chip :=
  zs.foldl (fun c i => c.queueJob { zone := i, reason := 6, ann := ann, key := key }) c

theorem segMigrationQueue_moves {ann : Nat} (hs : c.segOn = true) (hv : c.seg.present key = some v)
    (ha : c.migrateTo v = some ann)
    (hz : ((v.extents.map Extent.zone).foldl insertNat []).filter (fun i => !c.seg.pinned i) ≠ []) :
    segMigrationQueue c key = (c.queueMoves key ann
      (((v.extents.map Extent.zone).foldl insertNat []).filter (fun i => !c.seg.pinned i))).mapValue key
        (fun w => { w with migrating := true }) := by
  simp only [segMigrationQueue, hs, hv, ha, Bool.not_true, Bool.false_eq_true, ↓reduceIte]
  exact if_neg (by rwa [List.isEmpty_iff])

theorem keeps_moves (c : Chip) (key : List Byte) (ann : Nat) (zs : List Nat) (f : Value → Value) :
    Keeps [.regs, .bcl, .seg, .pwr] c ((c.queueMoves key ann zs).mapValue key f) :=
  Keeps.mapValue (Keeps.foldl _ zs (fun _ _ _ h => h.queueJob _ (by decide) (by decide) (by decide)) (Keeps.refl _ c)) _ _
    (by decide)

/-- Settles O39: each command by the state of the index and what the media gives (`retrieveMore_clause`), each piece of
background work by its own lemma. -/
theorem valuesAreRetrievedDeletedAndListed : Obligations.ValuesAreRetrievedDeletedAndListed := by
  unfold Obligations.ValuesAreRetrievedDeletedAndListed
  refine ⟨fun s i qid cid x e => ⟨fun hx hb => ?exist, delete_clause, retrieve_clause⟩,
    fun s i qid cid x media again ha hh hf hn ho hp hr => ?working, retrieveMore_clause, poisonSent_clause,
    valueDamaged_clause, fun s i qid cid x e => list_clause, fun s key v hs =>
      ⟨fun bs h hv hsl hd hg hl hr again => ⟨?verify, fun hh hours => ?lap⟩, fun bs h hv ho hh hg hl => ?rebuild,
        fun hm hv he => ?reclaim, fun hl => ?halve, fun ann hv ha => ?migrate⟩⟩
  case exist =>
    obtain ⟨rfl, -⟩ := Chip.begin_true hb
    exact completesThen_eq rfl (kvExist_issued hx hb)
      ⟨rfl, ((keeps_remembering _ x).mono (by decide)).finish _ (by decide) (by decide)⟩
  case working =>
    exact completesThen_eq rfl (kvRetrieve_working ha hh hf hn ho hp hr) ⟨rfl, (Keeps.refl _ _).retrieveMore x _ _⟩
  case verify => exact completesThen_eq rfl (segBackgroundVerify_good hs hv hsl hd hg hl hr none) rfl
  case lap =>
    have hv := segBackgroundVerify_good (again := again) (bs := bs) (h := h) hs hv hsl hd hg hl hr (some hours)
    rw [if_pos hh] at hv
    exact completesThen_eq rfl hv (lap_clause _ v hours)
  case rebuild => exact completesThen_eq rfl (segOpenValueRebuild_good hs hv ho hh hg hl) ⟨rfl, keeps_rebuilt _ v key _⟩
  case reclaim =>
    exact completesThen_eq rfl (segExpiryReclaim_expired hs hm hv he) ⟨rfl, .ofOp ((OpFrame.refl _).removeValue v _ _)⟩
  case halve =>
    exact completesThen_eq rfl (segPopularityHalve_on hs hl) ⟨rfl, rfl, (Keeps.refl _ _).withSeg _ (by decide)⟩
  case migrate =>
    intro zs hz
    exact completesThen_eq rfl (segMigrationQueue_moves hs hv ha hz) ⟨rfl, keeps_moves _ key ann zs _⟩

end Sys2Proof.Machine
end

section
/-! ## The commands of Locus (R187, R193, R201, R202, R204, R207, R219, R311, R456, O40) -/

namespace Sys2Proof.Machine

open Sys2Proof

variable {c d e : Chip} {ps : List ChipPart} {ks : List Nat}

/-! ### Tables -/

theorem SMap.find?_update {α : Type} (m : SMap α) (k j : Nat) (f : α → α) :
    (m.update k f).find? j = if j = k then (m.find? k).map f else m.find? j := by
  unfold SMap.update
  split
  · next h =>
    split
    · next hj => rw [hj, h]; rfl
    · rfl
  · next v h => rw [SMap.find?_set, h]; rfl

/-- The entries of a list set in turn leave the keys it does not name. -/
theorem SMap.find?_setAll_ne {α : Type} {k : Nat} (l : List (Nat × α)) (m : SMap α) (h : ∀ p ∈ l, p.1 ≠ k) :
    (l.foldl (fun m p => SMap.set m p.1 p.2) m).find? k = m.find? k := by
  induction l generalizing m with
  | nil => rfl
  | cons p l ih =>
    rw [List.foldl_cons, ih _ fun q hq => h q (List.mem_cons_of_mem _ hq),
      SMap.find?_set_ne _ _ (h p List.mem_cons_self).symm]

/-- The entries of a list with rising keys, set in turn, are found. -/
theorem SMap.find?_setAll {α : Type} {p : Nat × α} (l : List (Nat × α)) (m : SMap α)
    (hl : l.Pairwise (fun a b => a.1 < b.1)) (h : p ∈ l) :
    (l.foldl (fun m p => SMap.set m p.1 p.2) m).find? p.1 = some p.2 := by
  induction l generalizing m with
  | nil => exact absurd h List.not_mem_nil
  | cons q l ih =>
    obtain ⟨hq, hl⟩ := List.pairwise_cons.1 hl
    rw [List.foldl_cons]
    obtain rfl | h := List.mem_cons.1 h
    · rw [SMap.find?_setAll_ne _ _ fun r hr => (hq r hr).ne', SMap.find?_set_self]
    · exact ih _ hl h

theorem Chip.band_mapBand (c : Chip) (k j : Nat) (f : Band → Band) :
    (c.mapBand k f).band j = if j = k then (c.band k).map f else c.band j := SMap.find?_update _ _ _ _

theorem Chip.band_of_loc (h : d.loc = c.loc) (k : Nat) : d.band k = c.band k := by rw [Chip.band, h, Chip.band]

/-- The location tables stand, but for the page table and the bands noted at a checkpoint's cut. -/
def SameTables (c d : Chip) : Prop := d.loc = { c.loc with pages := d.loc.pages, cutBands := d.loc.cutBands }

namespace SameTables

theorem refl (c : Chip) : SameTables c c := rfl

theorem trans (h : SameTables c d) (g : SameTables d e) : SameTables c e := by rw [SameTables, g, h]

theorem of_loc (h : d.loc = c.loc) : SameTables c d := by rw [SameTables, h]

theorem of_keeps (h : Keeps ps c d) (hl : .loc ∉ ps) : SameTables c d := of_loc (h.loc hl)

theorem foldl {α : Type} (f : Chip → α → Chip) (hf : ∀ (d : Chip) (x : α), SameTables d (f d x)) (l : List α) (d : Chip) :
    SameTables d (l.foldl f d) := by
  induction l generalizing d with
  | nil => exact refl d
  | cons x l ih => exact (hf d x).trans (ih _)

theorem band (h : SameTables c d) (k : Nat) : d.band k = c.band k := by rw [Chip.band, h, Chip.band]

theorem part (h : SameTables c d) : d.loc.part = c.loc.part := by rw [h]

theorem repage (c : Chip) (i : Nat) : SameTables c (c.repage i) := rfl

theorem repaged (c before : Chip) : SameTables c (c.repaged before) := by
  unfold Chip.repaged
  by_cases hp : (c.loc.ptPresent && c.sys.mode != Mode.rebuild) = true
  · rw [if_pos hp]
    refine foldl _ (fun d i => ?_) _ c
    split
    · exact repage d i
    · exact refl d
  · rw [if_neg hp]
    exact refl c

theorem appendRecs (c : Chip) (rs : List Rec) : SameTables c (c.appendRecs rs) :=
  of_keeps ((Keeps.refl recordParts c).appendRecs rs (by decide)) (by decide)

/-- What a checkpoint changes before its record leaves the tables. -/
theorem ckptParts (h : SameTables c d) (x : Jnl) (y : Sec) (z : Bcl) (bs : SMap Band) :
    SameTables c { d with jnl := x, sec := y, bcl := z, loc := { d.loc with cutBands := bs } } := by
  rw [SameTables, h]

theorem startCkpt (c : Chip) (n : Nat) : SameTables c (c.startCkpt n) :=
  ((of_keeps (keeps_drawnKey c _ 3 _) (by decide)).ckptParts _ _ _ _).trans (appendRecs _ _)

theorem maybeCkpt (c : Chip) : SameTables c c.maybeCkpt := by
  unfold Chip.maybeCkpt
  split
  · exact startCkpt c 1
  · exact refl c

end SameTables

/-! ### Commits that need not wait -/

theorem Chip.commit_taken {src : JnlSource} (hm : c.mustWait src = false) (hc : c.jnl.closed = false) (rs : List Rec)
    (posts : List Completion) : c.commit src rs posts = c.commitNow ⟨src, rs, posts⟩ := by
  simp [Chip.commit, hm, hc]

theorem OnlyRegs.ckptParts (h : OnlyRegs ks c d) (x : Jnl) (y : Sec) (z : Bcl) (w : Loc) :
    OnlyRegs ks c { d with jnl := x, sec := y, bcl := z, loc := w } := fun k hk => h k hk

theorem onlyRegs_startCkpt (c : Chip) (n : Nat) : OnlyRegs [pIntStatus 0x05] c (c.startCkpt n) :=
  have h : OnlyRegs [pIntStatus 0x05] c ((c.takeRandom 256).2.writeKey (if c.jnl.epoch = 9 then 10 else 9) 3
      ((c.jnl.set + 1) % 2 ^ 32) (c.takeRandom 256).1) := fun k _ => (keeps_drawnKey c _ 3 _).reg (by decide) k
  (h.ckptParts _ _ _ _).appendRecs _ (by decide)

theorem onlyRegs_maybeCkpt (c : Chip) : OnlyRegs [pIntStatus 0x05] c c.maybeCkpt :=
  .ite (fun _ => onlyRegs_startCkpt c 1) fun _ => .refl _ _

/-! ### The partition (R187) -/

theorem Chip.partRefusal_lt (c : Chip) (p : Part) : c.partRefusal p < 8 := by
  unfold Chip.partRefusal
  dsimp only
  split_ifs <;> decide

theorem locPartApply_refused (ha : c.alive = true) (h : c.partRefusal c.askedPart ≠ 0) :
    locPartApply c = c.setFld R.LOC_PART_CTRL 6 4 (c.partRefusal c.askedPart) := by
  unfold locPartApply
  rw [if_neg (by simp [ha])]
  dsimp only
  split
  · next h0 => exact absurd h0 h
  · rfl

/-- The record of a partition. -/
def Part.record (p : Part) : Rec := .partition p.cA p.cB p.n3 p.n4A p.n4B p.opA p.opB

theorem locPartApply_accepted (ha : c.alive = true) (h : c.partRefusal c.askedPart = 0) :
    locPartApply c = (c.setBit R.LOC_PART_CTRL 1 true).commit .locus [c.askedPart.record] [] := by
  unfold locPartApply
  rw [if_neg (by simp [ha])]
  dsimp only
  rw [h]
  rfl

theorem keeps_nsChanges (c : Chip) (l : List Nat) : Keeps [.nvq, .out] c (l.foldl Chip.nsChanged c) :=
  Keeps.foldl _ l (fun _ _ _ h => (h.withNvq _ (by decide)).step (posts_notice _ _ _).keeps (by decide)) (.refl _ c)

/-- The partition registers and LOC_PART_CTRL once a partition is in force, before the notices. -/
def Chip.partShown (c : Chip) : Chip :=
  ((c.showPart.setFld R.LOC_PART_CTRL 6 4 1).setBit R.LOC_PART_CTRL 1 false).raise 0x18 4

theorem keeps_partDone (c : Chip) (old : Loc) : Keeps [.nvq, .out] c.partShown (c.partDone old) := keeps_nsChanges _ _

theorem Chip.partShown_done (c : Chip) : c.partShown.fld R.LOC_PART_CTRL 6 4 = 1 ∧
    c.partShown.bit R.LOC_PART_CTRL 1 = false ∧ c.partShown.bit (pIntStatus 0x18) 4 = true := by
  have hr := Chip.reg_raise_ne ((c.showPart.setFld R.LOC_PART_CTRL 6 4 1).setBit R.LOC_PART_CTRL 1 false) (page := 0x18)
    (i := 4) (j := R.LOC_PART_CTRL) (by decide)
  refine ⟨(Chip.fld_of_reg _ hr 6 4).trans ?_, (Chip.bit_of_reg _ hr 1).trans (Chip.bit_setBit_self _ _ _ _ (by decide)),
    Chip.bit_raise _ _ _ (by decide)⟩
  rw [Chip.fld_setBit _ _ _ _ _ (by decide), Chip.fld_setFld_self _ _ _ (by decide)]
  rfl

/-- A partition whose record need not wait is in force (R187). -/
theorem commit_partition (hm : c.mustWait .locus = false) (hc : c.jnl.closed = false) (p : Part) :
    let d := c.commit .locus [p.record] []
    d.loc.part = p ∧ d.fld R.LOC_PART_CTRL 6 4 = 1 ∧ d.bit R.LOC_PART_CTRL 1 = false ∧
    d.bit (pIntStatus 0x18) 4 = true := by
  intro d
  obtain ⟨f, hf⟩ : ∃ f, f = (c.appendRecs [p.record]).applyOp [p.record] := ⟨_, rfl⟩
  have hd : d = (f.partDone c.loc).maybeCkpt := by
    rw [hf]
    exact Chip.commit_taken hm hc _ _
  have hp : f.loc.part = p := by
    rw [hf]
    exact (SameTables.repaged ((c.appendRecs [p.record]).applyRec p.record) _).part
  have hk := keeps_partDone f c.loc
  have hr {k : Nat} (h : k ≠ pIntStatus 0x05) : d.reg k = f.partShown.reg k := by
    rw [hd]
    exact (onlyRegs_maybeCkpt _ k (by simpa using h)).trans (hk.reg (by decide) k)
  obtain ⟨h1, h2, h3⟩ := f.partShown_done
  refine ⟨?_, (Chip.fld_of_reg _ (hr (by decide)) _ _).trans h1, (Chip.bit_of_reg _ (hr (by decide)) _).trans h2,
    (Chip.bit_of_reg _ (hr (by decide)) _).trans h3⟩
  rw [hd, (SameTables.maybeCkpt _).part, hk.loc (by decide)]
  exact hp

theorem Chip.mustWait_setBit (src : JnlSource) {k : Nat} (hk : R.JNL_CFG ≠ k) (i : Nat) (b : Bool) :
    (c.setBit k i b).mustWait src = c.mustWait src := by
  have hf : (c.setBit k i b).fld R.JNL_CFG 15 8 = c.fld R.JNL_CFG 15 8 := Chip.fld_setBit _ _ _ _ _ (.inl hk)
  simp only [Chip.mustWait, Chip.atHwm, Chip.hwmSlots, hf, Chip.setBit_jnl]
  rfl

/-- What the record of an APPLY leaves (R187). -/
theorem apply_clause (c : Chip) (p : Part) :
    let d := (c.setBit R.LOC_PART_CTRL 1 true).commit .locus [p.record] []
    (c.mustWait .locus = false → c.jnl.closed = false →
      d.loc.part = p ∧ d.fld R.LOC_PART_CTRL 6 4 = 1 ∧ d.bit R.LOC_PART_CTRL 1 = false ∧
      d.bit (pIntStatus 0x18) 4 = true) ∧
    Keeps commitParts c d := by
  have hk : Keeps commitParts c (c.setBit R.LOC_PART_CTRL 1 true) := (Keeps.refl _ c).setBit _ _ _ (by decide)
  have hw : (c.setBit R.LOC_PART_CTRL 1 true).mustWait .locus = c.mustWait .locus := Chip.mustWait_setBit _ (by decide) _ _
  exact ⟨fun hm hc => commit_partition (hw.trans hm) hc p, hk.commit _ _ _⟩

/-! ### Band commands (R193, R219) -/

theorem Chip.commitNow_bandState (c : Chip) (k st f w : Nat) : c.commitNow ⟨.locus, [.bandState k st f w], []⟩ =
    (((c.appendRecs [.bandState k st f w]).applyRec (.bandState k st f w)).repaged
      (c.appendRecs [.bandState k st f w])).maybeCkpt := rfl

/-- A band's state record that destroys no key changes that band alone. -/
theorem commit_bandState (hm : c.mustWait .locus = false) (hc : c.jnl.closed = false) (k st w : Nat) :
    (c.commit .locus [.bandState k st 0 w] []).band k =
      (c.band k).map (fun b => { b with state := .ofCode st, wfaults := w }) := by
  have ha : (c.appendRecs [.bandState k st 0 w]).band k = c.band k := (SameTables.appendRecs c _).band k
  have hs : SameTables ((c.appendRecs [.bandState k st 0 w]).applyRec (.bandState k st 0 w))
      (c.commitNow ⟨.locus, [.bandState k st 0 w], []⟩) := by
    rw [Chip.commitNow_bandState]
    exact (SameTables.repaged _ _).trans (.maybeCkpt _)
  rw [Chip.commit_taken hm hc, hs.band, ← ha]
  have hl (e : Chip) (a : Act) (n : Nat) : (e.checkFreeLow a n).loc = e.loc :=
    (Keeps.ite (ps := [.regs, .pwr]) (fun _ => (Keeps.refl _ e).raise _ _ (by decide) (by decide)) fun _ => .refl _ e).loc
      (by decide)
  refine (Chip.band_of_loc (hl _ _ _) k).trans ((Chip.band_mapBand _ _ _ _).trans ?_)
  rw [if_pos rfl]
  rfl

/-- FREE and RETIRE of a SUSPECT band commit one record of its new state, which keeps WFAULTS. -/
theorem locBandCmd_suspect (ha : c.alive = true) {b : Band} (hb : c.band c.selBand = some b) (hs : b.state = .suspect)
    (retire : Bool) : locBandCmd c (if retire then 2 else 1) =
      c.commit .locus [.bandState c.selBand (if retire then 4 else 0) 0 b.wfaults] [] := by
  unfold locBandCmd
  cases retire <;> simp [ha, hb, hs]

theorem locBandCmd_other (ha : c.alive = true)
    (hb : c.band c.selBand = none ∨ ∃ b, c.band c.selBand = some b ∧ b.state ≠ .suspect) (retire : Bool) :
    locBandCmd c (if retire then 2 else 1) = c.fault 0x18 5 := by
  unfold locBandCmd
  obtain h | ⟨b, h, hs⟩ := hb
  · cases retire <;> simp [ha, h]
  · cases retire <;> simp [ha, h, hs]

/-- What the record of a band command leaves (R193, R219). -/
theorem bandCmd_clause {b : Band} (hb : c.band c.selBand = some b) (retire : Bool) :
    let d := c.commit .locus [.bandState c.selBand (if retire then 4 else 0) 0 b.wfaults] []
    (c.mustWait .locus = false → c.jnl.closed = false →
      d.band c.selBand = some { b with state := if retire then .retired else .free }) ∧ Keeps commitParts c d := by
  refine ⟨fun hm hc => ?_, (Keeps.refl _ c).commit _ _ _⟩
  rw [commit_bandState hm hc, hb]
  cases retire <;> rfl

theorem regsOnly_fault (c : Chip) (page i : Nat) : RegsOnly [pFault page, pIntStatus page] c (c.fault page i) :=
  ⟨(Keeps.refl _ c).fault _ _ (by decide) (by decide), (OnlyRegs.refl c _).fault _ _ (by simp) (by simp)⟩

/-! ### The page table (R202, R204) -/

theorem regDesc_ptCtrl : regDesc R.LOC_PT_CTRL = some ⟨0xF08, 0, [⟨0, 0, .w1sd⟩, ⟨1, 1, .w1sd⟩]⟩ := by decide

/-- The word that writes RELEASE or BUILD. -/
def ptWord (release : Bool) : Word := if release then 2 else 1

theorem preWrite_ptCtrl_closed (hd : c.diagOpen = false) (release : Bool) :
    c.preWrite R.LOC_PT_CTRL (ptWord release) = (c.ignored 0x18 1 0xF08, 0) := by
  unfold Chip.preWrite
  simp only [regDesc_ptCtrl]
  cases release <;> simp [RegDesc.readOnly, Chip.writeMask, Chip.mayWrite, definedMask, mask, hd, ptWord, R.LOC_PT_CTRL]

theorem preWrite_ptCtrl_open (hd : c.diagOpen = true) (release : Bool) :
    c.preWrite R.LOC_PT_CTRL (ptWord release) = (c, ptWord release) := by
  unfold Chip.preWrite
  simp only [regDesc_ptCtrl]
  cases release <;> simp [RegDesc.readOnly, Chip.writeMask, Chip.mayWrite, definedMask, mask, hd, ptWord, R.LOC_PT_CTRL]

theorem locPtCtrl_closed (ha : c.alive = true) (hd : c.diagOpen = false) (release : Bool) :
    locPtCtrl c (ptWord release) = c.ignored 0x18 1 0xF08 := by
  unfold locPtCtrl
  rw [if_neg (by simp [ha]), preWrite_ptCtrl_closed hd]
  dsimp only
  split
  · rfl
  · simp

theorem Chip.ignored_clause (c : Chip) :
    let d := c.ignored 0x18 1 0xF08
    d.bit (pFault 0x18) 1 = true ∧ d.fld (pFault 0x18) 31 20 = 0xF08 ∧ RegsOnly [pFault 0x18, pIntStatus 0x18] c d := by
  refine ⟨?_, Chip.fld_setFld_self _ _ _ (by decide), (Keeps.refl _ c).ignored _ _ _ (by decide) (by decide),
    (OnlyRegs.refl c _).ignored _ _ _ (by decide) (by decide)⟩
  unfold Chip.ignored
  rw [Chip.bit_setFld _ _ _ _ _ (by decide), if_neg (by decide)]
  exact c.bit_fault _ _ (by decide)

/-- The chip without its page table. -/
def Chip.ptReleased (c : Chip) : Chip := { c with loc := { c.loc with pages := [], ptPresent := false, ptBuilding := false } }

theorem locPtCtrl_release (ha : c.alive = true) (hd : c.diagOpen = true) (hm : c.sys.mode = .service) :
    locPtCtrl c (ptWord true) = c.ptReleased := by
  unfold locPtCtrl
  rw [if_neg (by simp [ha]), preWrite_ptCtrl_open hd]
  simp [hm, ptWord, Chip.ptReleased]

theorem locPtCtrl_build (ha : c.alive = true) (hd : c.diagOpen = true) (hm : c.sys.mode = .service) :
    locPtCtrl c (ptWord false) = c.startBuild := by
  unfold locPtCtrl
  rw [if_neg (by simp [ha]), preWrite_ptCtrl_open hd]
  simp [hm, ptWord]

theorem Chip.mem_evictArea (c : Chip) (k : Nat) (v : Slot) :
    (k, v) ∈ c.evictArea.slots ↔ (k, v) ∈ c.slots ∧ ¬ (inPageArea k = true ∧ v.readers = []) := by
  refine List.mem_filter.trans (and_congr_right fun _ => ?_)
  cases inPageArea k <;> simp

theorem Chip.zonePages_zone {i : Nat} {p : Nat × Word} (h : p ∈ c.zonePages i) : p.1 / 256 = i := by
  obtain ⟨k, hk, h⟩ := List.mem_filterMap.1 h
  have := List.mem_range.1 hk
  simp only [Option.ite_none_right_eq_some, Option.some.injEq] at h
  obtain ⟨-, rfl⟩ := h
  dsimp only
  omega

theorem Chip.zonePages_rise (c : Chip) (i : Nat) : (c.zonePages i).Pairwise (fun a b => a.1 < b.1) := by
  refine List.pairwise_filterMap.2 (List.pairwise_lt_range.imp fun hlt p hp q hq => ?_)
  simp only [Option.ite_none_right_eq_some, Option.some.injEq] at hp hq
  obtain ⟨-, rfl⟩ := hp
  obtain ⟨-, rfl⟩ := hq
  dsimp only
  omega

theorem Chip.pages_repage_self {i : Nat} {p : Nat × Word} (h : p ∈ c.zonePages i) :
    (c.repage i).loc.pages.find? p.1 = some p.2 := SMap.find?_setAll _ _ (c.zonePages_rise i) h

theorem Chip.pages_repage_ne {i k : Nat} (h : k / 256 ≠ i) : (c.repage i).loc.pages.find? k = c.loc.pages.find? k :=
  (SMap.find?_setAll_ne _ _ fun p hp hk => h (by rw [← hk]; exact zonePages_zone hp)).trans
    (SMap.find?_filter_pos _ (fun j => j / 256 != i) (by simpa using h))

/-- The entries of a zone stand in the page table. -/
def Chip.Paged (c : Chip) (i : Nat) : Prop := ∀ p ∈ c.zonePages i, c.loc.pages.find? p.1 = some p.2

theorem Chip.Paged.repage {i : Nat} (h : c.Paged i) (j : Nat) : (c.repage j).Paged i := by
  intro p hp
  by_cases hj : i = j
  · subst hj
    exact pages_repage_self hp
  · exact (pages_repage_ne (by rwa [zonePages_zone hp])).trans (h p hp)

/-- Every zone made anew in turn stands in the page table. -/
theorem Chip.paged_repages {i : Nat} (l : List Nat) (c : Chip) (h : c.Paged i ∨ i ∈ l) : (l.foldl Chip.repage c).Paged i := by
  induction l generalizing c with
  | nil => exact h.resolve_right List.not_mem_nil
  | cons j l ih =>
    refine ih _ ?_
    obtain h | h := h
    · exact .inl (h.repage j)
    · obtain rfl | h := List.mem_cons.1 h
      · exact .inl fun p hp => pages_repage_self hp
      · exact .inr h

/-- A page table held again, with no entry yet. -/
def Chip.ptEmptied (c : Chip) : Chip := { c with loc := { c.loc with pages := [], ptPresent := true, ptBuilding := false } }

theorem Chip.buildPages_sound (h : ∀ z ∈ c.loc.zones, c.zoneBad z.1 = false) :
    c.buildPages = (c.loc.zones.map Prod.fst).foldl Chip.repage c.ptEmptied := by
  have hn : List.find? (fun (e : Nat × Zone) => c.zoneBad e.1) c.loc.zones = none :=
    List.find?_eq_none.2 fun e he => by simp [h e he]
  unfold Chip.buildPages
  rw [hn]
  rfl

theorem keeps_repages (l : List Nat) (c : Chip) : Keeps [.loc] c (l.foldl Chip.repage c) :=
  Keeps.foldl _ l (fun _ _ _ h => h.withLoc _ (by decide)) (.refl _ c)

/-- A build of the page table of a map that agrees (R204). -/
theorem buildPages_clause (h : ∀ z ∈ c.loc.zones, c.zoneBad z.1 = false) :
    let d := c.buildPages
    d.loc.ptPresent = true ∧ d.loc.ptBuilding = false ∧ d.loc.zones = c.loc.zones ∧
    (∀ z ∈ c.loc.zones, ∀ p ∈ c.zonePages z.1, d.loc.pages.find? p.1 = some p.2) ∧ Keeps [.loc] c d := by
  intro d
  have hd : d = (c.loc.zones.map Prod.fst).foldl Chip.repage c.ptEmptied := Chip.buildPages_sound h
  have hs : SameTables c.ptEmptied d := hd ▸ SameTables.foldl _ SameTables.repage _ _
  have hz (i : Nat) : d.zonePages i = c.zonePages i := by
    unfold Chip.zonePages Chip.hotInChunk Chip.hotOfZone Chip.zone
    rw [hs]
    rfl
  refine ⟨by rw [hs]; rfl, by rw [hs]; rfl, by rw [hs]; rfl, fun z hm p hp => ?_, ?_⟩
  · have hp' : d.Paged z.1 := hd ▸ Chip.paged_repages _ _ (.inr (List.mem_map_of_mem hm))
    exact hp' p (by rwa [hz])
  · rw [hd]
    exact ((Keeps.refl [.loc] c).withLoc _ (by decide)).trans (keeps_repages _ c.ptEmptied)

theorem keeps_evictArea (c : Chip) : Keeps [.slots] c c.evictArea := (Keeps.refl _ c).withSlots _ (by decide)

/-! ### The record of a zone's advance (R207, R456) -/

/-- The registers that a failure of the log memory writes. -/
def logFailRegs : List Nat := (List.range 8).map R.EVR_LASTWORD ++ [R.EVR_LW_STATUS, R.SYS_ALERT, pIntStatus 0x04]

theorem Chip.logFail_clause (c : Chip) (slot result : Nat) :
    let d := c.logFail slot result
    d.bit R.SYS_ALERT 0 = true ∧ d.evr.degraded = true ∧ OnlyRegs logFailRegs c d ∧ Keeps [.regs, .evr, .pwr] c d := by
  unfold Chip.logFail
  extract_lets v ws c1 c2 c3 _ c4
  have h1 : OnlyRegs logFailRegs c c1 := OnlyRegs.foldl _ _ (fun _ i hi h => h.setReg _ _
    (List.mem_append_left _ (List.mem_map_of_mem hi))) (.refl c _)
  have k1 : Keeps [.regs, .evr, .pwr] c c1 := Keeps.foldl _ _ (fun _ _ _ h => h.setReg _ _ (by decide)) (.refl _ c)
  have h3 : OnlyRegs logFailRegs c c3 := (h1.setBit _ _ _ (by decide)).setBit _ _ _ (by decide)
  have h34 (ks : List Nat) : OnlyRegs ks c3 c4 := .of_regs rfl
  have k4 : Keeps [.regs, .evr, .pwr] c c4 :=
    Keeps.withEvr ((k1.setBit _ _ _ (by decide)).setBit _ _ _ (by decide)) _ (by decide)
  have hb : c3.bit R.SYS_ALERT 0 = true := c2.bit_setBit_self R.SYS_ALERT 0 true (by decide)
  have hr : (c4.raise 0x04 2).reg R.SYS_ALERT = c3.reg R.SYS_ALERT :=
    (Chip.reg_raise_ne c4 (by decide)).trans (h34 [] _ List.not_mem_nil)
  exact ⟨(Chip.bit_of_reg _ hr 0).trans hb, rfl, (h3.trans (h34 _)).raise _ _ (by decide),
    k4.raise _ _ (by decide) (by decide)⟩

theorem Chip.portFailed_clause (c : Chip) (slot : Nat) :
    let d := c.portFailed slot
    d.jnl.failed = true ∧ d.bit (pIntStatus 0x05) 4 = true ∧ d.bit R.SYS_ALERT 0 = true ∧ d.evr.degraded = true ∧
    Keeps [.regs, .jnl, .evr, .pwr] c d := by
  obtain ⟨e, he⟩ : ∃ e, e = ({ c with jnl := { c.jnl with failed := true } } : Chip).raise 0x05 4 := ⟨_, rfl⟩
  have hk : Keeps [.regs, .jnl, .evr, .pwr] c e :=
    he ▸ ((Keeps.refl _ c).setJnl _ (by decide)).raise _ _ (by decide) (by decide)
  obtain ⟨ha, hd, ho, hl⟩ := e.logFail_clause slot 6
  have hj : (e.logFail slot 6).jnl = e.jnl := hl.jnl (by decide)
  have hb : e.bit (pIntStatus 0x05) 4 = true := he ▸ Chip.bit_raise _ _ _ (by decide)
  have hd' : c.portFailed slot = e.logFail slot 6 := by rw [he]; rfl
  rw [hd']
  refine ⟨?_, (Chip.bit_of_reg _ (ho _ (by decide)) 4).trans hb, ha, hd, hk.step hl (by decide)⟩
  rw [hj, he]
  rfl

section
variable {zone : Nat} (ha : c.alive = true) (hh : c.inHoldup = false) (hm : c.sys.mode ≠ .boot)
include ha hh hm

theorem mwpCommitTimer_late (h : (c.zone zone).lastMedia.toNat + 40000000 ≤ c.dtm.dtime.toNat) :
    mwpCommitTimer c zone = (c.commitMwp zone).commitSegs := by
  have hl : ¬ c.dtm.dtime.toNat < (c.zone zone).lastMedia.toNat + mwpTimeout := Nat.not_lt.2 h
  exact if_neg (by simp [ha, hh, hm, hl])

theorem mwpCommit_due (h : c.mwpDue zone = true) {failed : Nat} (hf : failed ≠ 3) :
    mwpCommit c zone failed = (c.commitMwp zone).commitSegs := by
  unfold mwpCommit
  rw [if_neg (by simp [ha, hh, hm, h]), if_neg fun hc => hf hc.1]

theorem mwpCommit_fails (h : c.mwpDue zone = true) (hv : c.advanced zone = true) (hw : c.mustWait .locus = false) :
    mwpCommit c zone 3 = c.portFailed c.jnl.head := by
  unfold mwpCommit
  rw [if_neg (by simp [ha, hh, hm, h]), if_pos ⟨rfl, hv, by simp [hw]⟩]

end

theorem mwpCommitTimer_early {zone : Nat} (h : ¬ (c.zone zone).lastMedia.toNat + 40000000 ≤ c.dtm.dtime.toNat) :
    mwpCommitTimer c zone = c := by
  have : c.dtm.dtime.toNat < (c.zone zone).lastMedia.toNat + mwpTimeout := Nat.lt_of_not_le h
  exact if_pos (by simp [this])

theorem mwpCommit_idle {zone : Nat} (h : c.mwpDue zone = false) (failed : Nat) : mwpCommit c zone failed = c :=
  if_pos (by simp [h])

theorem Chip.mwpDue_iff (c : Chip) (zone : Nat) : c.mwpDue zone = true ↔
    16 * c.fld R.LOC_WP_BATCH 10 0 ≤ c.advance zone ∨ c.drainWants zone = true ∨
    (c.zone zone).state ∈ [3, 4] ∨ 16 * c.fld R.NVQ_DIRTY_LIMIT 8 0 ≤ c.dirtyUnits := by
  simp only [Chip.mwpDue, Bool.or_eq_true, decide_eq_true_eq, List.contains_iff_mem, or_assoc]
  rfl

theorem Chip.commitMwp_idle {zone : Nat} (h : c.advanced zone = false) : c.commitMwp zone = c := if_pos (by simp [h])

theorem Chip.commitMwp_advanced {zone : Nat} (h : c.advanced zone = true) (hw : c.jnl.waiting = []) :
    c.commitMwp zone = c.commit .locus (c.advanceRecs zone) [] := if_neg (by simp [h, hw])

theorem keeps_advance (c : Chip) (zone : Nat) : Keeps commitParts c (c.commitMwp zone).commitSegs :=
  .ofOp ((OpFrame.refl c).commitMwp zone).commitSegs

/-! ### Hot map slots (R201) -/

theorem OpFrame.placeWaits (ws : List HotWait) (h : OpFrame c d) : OpFrame c (d.placeWaits ws) := by
  induction ws generalizing d with
  | nil => exact h
  | cons w ws ih => exact ih (h.redirect _ _ _ _)

theorem Chip.retryWaits_idle (h : c.mustWait .locus = true ∨ ∀ w ∈ c.loc.hotWait, c.noSlot w.zone w.unit = true) :
    c.retryWaits = c := by
  refine if_pos (Bool.or_eq_true_iff.2 ?_)
  exact h.imp_right fun h => List.all_eq_true.2 h

theorem Chip.retryWaits_places (hm : c.mustWait .locus = false)
    (h : ∃ w ∈ c.loc.hotWait, c.noSlot w.zone w.unit = false) :
    c.retryWaits = ({ c with loc := { c.loc with hotWait := [] } } : Chip).placeWaits c.loc.hotWait := by
  refine if_neg fun hc => ?_
  obtain ⟨w, hw, hn⟩ := h
  have := (Bool.or_eq_true_iff.1 hc).resolve_left (by simp [hm])
  exact absurd (List.all_eq_true.1 this w hw) (by simp [hn])

theorem OpFrame.retryWaits (h : OpFrame c d) : OpFrame c d.retryWaits :=
  .ite (fun _ => h) fun _ => (h.setLoc _).placeWaits _

/-- HOT_FULL falls or stays; nothing else of the chip moves. -/
theorem Chip.settleHotFull_or (c : Chip) : c.settleHotFull = c.setBit R.LOC_MAP 2 false ∨ c.settleHotFull = c := by
  unfold Chip.settleHotFull
  split
  · exact .inl rfl
  · exact .inr rfl

theorem regsOnly_settleHotFull (c : Chip) : OnlyRegs [R.LOC_MAP] c c.settleHotFull ∧ Keeps [.regs] c c.settleHotFull := by
  obtain h | h := c.settleHotFull_or
  · rw [h]
    exact ⟨(OnlyRegs.refl c _).setBit _ _ _ (by decide), (Keeps.refl _ c).setBit _ _ _ (by decide)⟩
  · rw [h]
    exact ⟨.refl c _, .refl _ c⟩

theorem Chip.hotStuck_setBit (c : Chip) : (c.setBit R.LOC_MAP 2 false).hotStuck = c.hotStuck := by
  have hf : (c.setBit R.LOC_MAP 2 false).fld R.LOC_HOT_CFG 20 16 = c.fld R.LOC_HOT_CFG 20 16 :=
    Chip.fld_setBit _ _ _ _ _ (.inl (by decide))
  have hn (zone unit : Nat) : (c.setBit R.LOC_MAP 2 false).noSlot zone unit = c.noSlot zone unit := by
    simp only [Chip.noSlot, Chip.bucketFor, Chip.buckets, hf]
    rfl
  simp only [Chip.hotStuck, hn]
  rfl

theorem Chip.hotFull_settled (c : Chip) (h : c.settleHotFull.hotStuck = false) :
    c.settleHotFull.bit R.LOC_MAP 2 = false := by
  have hs : c.hotStuck = false := by
    obtain hc | hc := c.settleHotFull_or
    · rwa [hc, Chip.hotStuck_setBit] at h
    · rwa [hc] at h
  unfold Chip.settleHotFull
  split
  · exact Chip.bit_setBit_self _ _ _ _ (by decide)
  · next hb => simpa [hs] using hb

theorem hotMapSlotFreed_eq (ha : c.alive = true) (hh : c.inHoldup = false) :
    hotMapSlotFreed c = c.retryWaits.settleHotFull := if_neg (by simp [ha, hh])

theorem slotFreed_clause (c : Chip) :
    let d := c.retryWaits.settleHotFull
    (c.mustWait .locus = true ∨ (∀ w ∈ c.loc.hotWait, c.noSlot w.zone w.unit = true) → OnlyRegs [R.LOC_MAP] c d ∧
      Keeps [.regs] c d) ∧
    (c.mustWait .locus = false → (∃ w ∈ c.loc.hotWait, c.noSlot w.zone w.unit = false) →
      d = (({ c with loc := { c.loc with hotWait := [] } } : Chip).placeWaits c.loc.hotWait).settleHotFull) ∧
    (d.hotStuck = false → d.bit R.LOC_MAP 2 = false) ∧ Keeps commitParts c d := by
  refine ⟨fun h => ?_, fun hm h => by rw [Chip.retryWaits_places hm h], Chip.hotFull_settled _,
    (Keeps.ofOp (OpFrame.refl c).retryWaits).step (regsOnly_settleHotFull _).2 (by decide)⟩
  rw [Chip.retryWaits_idle h]
  exact regsOnly_settleHotFull c

/-! ### Relocations (R311) -/

/-- The chip without a queued relocation. -/
def Chip.relocTaken (c : Chip) (zone unit : Nat) : Chip :=
  { c with loc := { c.loc with relocs := c.loc.relocs.erase (zone, unit) } }

/-- A relocation taken from the queue goes by where the unit lies and by the KIND of its zone. -/
theorem relocation_taken {a : Act} {zone unit : Nat} (ho : c.mediaOpen a = true) (hz : zoneAct zone = a)
    (hr : (zone, unit) ∈ c.loc.relocs) : relocation c a zone unit =
      let e := c.relocTaken zone unit
      if e.resolve zone unit = .zeros then e
      else if (e.zone zone).kind = 1 ∨ (e.zone zone).kind = 2 then
        e.landCache a 0 e.loc.temp (zone, unit, (e.zone zone).gen)
      else if (e.zone zone).kind = 3 then e.stampZone zone e.loc.temp false
      else e := if_neg (by simp [ho, hz, hr])

theorem relocation_clause {a : Act} {zone unit : Nat} (ho : c.mediaOpen a = true) (hz : zoneAct zone = a)
    (hr : (zone, unit) ∈ c.loc.relocs) :
    let e := c.relocTaken zone unit
    let d := relocation c a zone unit
    (e.resolve zone unit = .zeros → d = e) ∧
    (e.resolve zone unit ≠ .zeros →
      ((e.zone zone).kind = 1 ∨ (e.zone zone).kind = 2 → d = e.landCache a 0 e.loc.temp (zone, unit, (e.zone zone).gen)) ∧
      ((e.zone zone).kind = 3 → d = e.stampZone zone e.loc.temp false)) ∧
    Keeps commitParts c d := by
  intro e d
  have hd : d = _ := relocation_taken ho hz hr
  have he : OpFrame c e := (OpFrame.refl c).setLoc _
  refine ⟨fun h => hd.trans (if_pos h), fun h => ⟨fun hk => hd.trans ((if_neg h).trans (if_pos hk)), fun hk =>
    hd.trans ((if_neg h).trans ((if_neg (by rw [hk]; decide)).trans (if_pos hk)))⟩, .ofOp ?_⟩
  rw [hd]
  exact .ite (fun _ => he) fun _ => .ite (fun _ => he.trans (opFrame_landCache _ _ _ _ _)) fun _ =>
    .ite (fun _ => he.stampZone _ _ _) fun _ => he

/-- Settles O40: each command by the chip it leaves, each record by what it leaves of the tables. -/
theorem locusCommandsFollowTheirChecks : Obligations.LocusCommandsFollowTheirChecks := by
  unfold Obligations.LocusCommandsFollowTheirChecks
  refine ⟨fun s ha => ⟨fun h => ?refused, fun h => ?accepted⟩, fun s retire ha => ⟨fun b hb hs => ?suspect, fun hb => ?other⟩,
    fun s ha => ⟨fun hd release => ?closed, fun hd hm => ⟨?release, Chip.mem_evictArea _, fun hh => ?held, fun hh hz => ?built⟩⟩,
    fun s zone failed ha hh hm => ⟨fun h => ?late, fun h => ?early, fun h => ?idle, fun h hf => ?due, fun h hv hw => ?fails,
      Chip.mwpDue_iff _ _, Chip.commitMwp_idle, Chip.commitMwp_advanced⟩,
    fun s ha hh => completesThen_eq rfl (hotMapSlotFreed_eq ha hh) (slotFreed_clause _),
    fun s a zone unit ho hz hr => completesThen_done rfl (relocation_clause ho hz hr)⟩
  case refused =>
    refine completesThen_eq rfl (locPartApply_refused ha h) ⟨?_, (Keeps.refl _ _).setFld _ _ _ _ (by decide),
      (OnlyRegs.refl _ _).setFld _ _ _ _ (by decide)⟩
    rw [Chip.fld_setFld_self _ _ _ (by decide)]
    exact Nat.mod_eq_of_lt (Chip.partRefusal_lt _ _)
  case accepted => exact completesThen_eq rfl (locPartApply_accepted ha h) ⟨rfl, apply_clause _ _⟩
  case suspect =>
    have hl := locBandCmd_suspect ha hb hs retire
    cases retire <;> exact completesThen_eq rfl hl ⟨rfl, bandCmd_clause hb _⟩
  case other =>
    have hl := locBandCmd_other ha hb retire
    cases retire <;> exact completesThen_eq rfl hl ⟨Chip.bit_fault _ _ _ (by decide), regsOnly_fault _ _ _⟩
  case closed =>
    have hl := locPtCtrl_closed ha hd release
    cases release <;> exact completesThen_eq rfl hl (Chip.ignored_clause _)
  case release =>
    exact completesThen_eq rfl (locPtCtrl_release ha hd hm) ⟨rfl, rfl, rfl, rfl, (Keeps.refl _ _).withLoc _ (by decide)⟩
  case held =>
    refine completesThen_eq rfl ((locPtCtrl_build ha hd hm).trans (if_pos hh)) ⟨rfl, ?_⟩
    exact ((keeps_evictArea _).mono (by decide)).withLoc _ (by decide)
  case built =>
    obtain ⟨hp, hb, hs, hf, hk⟩ := buildPages_clause (c := s.chip.evictArea) hz
    exact completesThen_eq rfl ((locPtCtrl_build ha hd hm).trans (if_neg (by simp [hh])))
      ⟨hp, hb, hs, hf, ((keeps_evictArea _).mono (by decide)).step hk (by decide)⟩
  case late => exact completesThen_eq rfl (mwpCommitTimer_late ha hh hm h) ⟨rfl, keeps_advance _ _⟩
  case early => exact completesThen_eq rfl (mwpCommitTimer_early h) rfl
  case idle => exact completesThen_eq rfl (mwpCommit_idle h _) rfl
  case due =>
    exact completesThen_eq rfl (mwpCommit_due ha hh hm h fun h3 => hf (Fin.ext h3)) ⟨rfl, keeps_advance _ _⟩
  case fails => exact completesThen_eq rfl (mwpCommit_fails ha hh hm h hv hw) (Chip.portFailed_clause _ _)

end Sys2Proof.Machine
end

section
/-! ## REBUILD (R34, R193, R202, R215 to R217, O41) -/

namespace Sys2Proof.Machine

open Sys2Proof

variable {c d e : Chip} {ps : List ChipPart}

/-! ### The progress of REBUILD -/

section
variable (c : Chip) (a : Act) (r : Rebuild)

@[simp] theorem Chip.rebuild_setRebuild_self : (c.setRebuild a r).loc.rebuild a = r := by cases a <;> rfl
@[simp] theorem Chip.rebuild_setRebuild_other : (c.setRebuild a r).loc.rebuild a.other = c.loc.rebuild a.other := by
  cases a <;> rfl
@[simp] theorem Chip.zone_setRebuild (i : Nat) : (c.setRebuild a r).zone i = c.zone i := by cases a <;> rfl
@[simp] theorem Chip.band_setRebuild (k : Nat) : (c.setRebuild a r).band k = c.band k := by cases a <;> rfl
@[simp] theorem Chip.hot_setRebuild : (c.setRebuild a r).loc.hot = c.loc.hot := by cases a <;> rfl
@[simp] theorem Chip.bandOfZone_setRebuild (i : Nat) : (c.setRebuild a r).bandOfZone i = c.bandOfZone i := by
  cases a <;> rfl
theorem Chip.bucketFor_setRebuild (zone unit : Nat) : (c.setRebuild a r).bucketFor zone unit = c.bucketFor zone unit := by
  cases a <;> rfl

end

theorem Keeps.setRebuild (h : Keeps ps c d) (a : Act) (r : Rebuild) (hl : .loc ∈ ps) : Keeps ps c (d.setRebuild a r) := by
  cases a <;> exact h.withLoc _ hl

/-- DONE rises or stays; nothing else of the chip moves. -/
theorem Chip.noteScanned_or (c : Chip) (a : Act) :
    c.noteScanned a = c.setRebuild a { c.loc.rebuild a with done := true } ∨ c.noteScanned a = c := by
  unfold Chip.noteScanned
  split
  · exact .inl rfl
  · exact .inr rfl

section
variable (c : Chip) (a : Act)

@[simp] theorem Chip.mcDone_noteScanned : ((c.noteScanned a).loc.rebuild a).mcDone = (c.loc.rebuild a).mcDone := by
  obtain h | h := c.noteScanned_or a <;> simp [h]

@[simp] theorem Chip.probed_noteScanned : ((c.noteScanned a).loc.rebuild a).probed = (c.loc.rebuild a).probed := by
  obtain h | h := c.noteScanned_or a <;> simp [h]

@[simp] theorem Chip.rebuild_noteScanned_other : (c.noteScanned a).loc.rebuild a.other = c.loc.rebuild a.other := by
  obtain h | h := c.noteScanned_or a <;> simp [h]

@[simp] theorem Chip.hot_noteScanned : (c.noteScanned a).loc.hot = c.loc.hot := by
  obtain h | h := c.noteScanned_or a <;> simp [h]

@[simp] theorem Chip.zone_noteScanned (i : Nat) : (c.noteScanned a).zone i = c.zone i := by
  obtain h | h := c.noteScanned_or a <;> simp [h]

@[simp] theorem Chip.band_noteScanned (k : Nat) : (c.noteScanned a).band k = c.band k := by
  obtain h | h := c.noteScanned_or a <;> simp [h]

end

theorem Keeps.noteScanned (h : Keeps ps c d) (a : Act) (hl : .loc ∈ ps) : Keeps ps c (d.noteScanned a) := by
  obtain hn | hn := d.noteScanned_or a
  · rw [hn]
    exact h.setRebuild a _ hl
  · rwa [hn]

/-! ### Hot map entries -/

/-- What an insertion does once the entry stands: its sector is no longer stale, and HOT_HIGH where it is reached. -/
def Chip.hotPlaced (c : Chip) (a : Act) (kind csec : Nat) : Chip :=
  let c := if kind = 1 then c.clearStale a csec else c
  if 3 * 2 ^ c.fld R.LOC_HOT_CFG 20 16 ≤ 4 * c.loc.hot.length then c.raise 0x18 0 else c

theorem Chip.hot_hotPlaced (c : Chip) (a : Act) (kind csec : Nat) : (c.hotPlaced a kind csec).loc.hot = c.loc.hot := by
  unfold Chip.hotPlaced
  dsimp only
  split <;> split <;> rfl

/-- Of the chip the hot map, the stale maps and the zones' descriptors may differ, with what they raise. -/
structure HotOnly (c d : Chip) : Prop where
  keeps : Keeps [.regs, .loc, .pwr] c d
  loc : d.loc = { c.loc with hot := d.loc.hot, stale := d.loc.stale, zones := d.loc.zones }

namespace HotOnly

theorem refl (c : Chip) : HotOnly c c := ⟨.refl _ c, rfl⟩

theorem trans (h : HotOnly c d) (g : HotOnly d e) : HotOnly c e := ⟨h.keeps.trans g.keeps, by rw [g.loc, h.loc]⟩

theorem foldl {α : Type} (f : Chip → α → Chip) (hf : ∀ (d : Chip) (x : α), HotOnly c d → HotOnly c (f d x))
    (l : List α) (h : HotOnly c d) : HotOnly c (l.foldl f d) := by
  induction l generalizing d with
  | nil => exact h
  | cons x l ih => exact ih (hf d x h)

theorem raise (h : HotOnly c d) (page i : Nat) : HotOnly c (d.raise page i) :=
  ⟨h.keeps.raise _ _ (by decide) (by decide), h.loc⟩

theorem setTables (h : HotOnly c d) (x : SMap Hot) (y : List Nat) (z : SMap Zone) :
    HotOnly c { d with loc := { d.loc with hot := x, stale := y, zones := z } } :=
  ⟨h.keeps.withLoc _ (by decide), by rw [h.loc]⟩

theorem setZone (h : HotOnly c d) (i : Nat) (z : Zone) : HotOnly c (d.setZone i z) := h.setTables _ _ _

theorem clearStale (h : HotOnly c d) (a : Act) (n : Nat) : HotOnly c (d.clearStale a n) := h.setTables _ _ _

theorem ite {p : Prop} [Decidable p] {d e : Chip} (h : p → HotOnly c d) (g : ¬p → HotOnly c e) :
    HotOnly c (if p then d else e) := by
  split
  · exact h ‹_›
  · exact g ‹_›

theorem markStale (h : HotOnly c d) (a : Act) (n : Nat) : HotOnly c (d.markStale a n) :=
  ite (fun _ => (h.setTables _ _ _).raise 0x19 3) fun _ => h.setTables _ _ _

theorem hotRemove (h : HotOnly c d) (zone unit : Nat) : HotOnly c (d.hotRemove zone unit) := by
  unfold Chip.hotRemove
  split
  · exact h
  · next x _ =>
    dsimp only
    have h1 := h.setTables (d.loc.hot.erase (unitKey zone unit)) d.loc.stale d.loc.zones
    have h2 := ite (p := x.kind = 1) (fun _ => h1.markStale (zoneAct zone) x.csec) fun _ => h1
    exact ite (fun _ => h2.setZone _ _) fun _ => h2

theorem hotPlaced (h : HotOnly c d) (a : Act) (kind csec : Nat) : HotOnly c (d.hotPlaced a kind csec) := by
  have h1 := ite (p := kind = 1) (fun _ => h.clearStale a csec) fun _ => h
  exact ite (fun _ => h1.raise 0x18 0) fun _ => h1

theorem hotInsert (h : HotOnly c d) (zone unit kind csec : Nat) : HotOnly c (d.hotInsert zone unit kind csec) := by
  have h1 := h.hotRemove zone unit
  unfold Chip.hotInsert
  generalize d.hotRemove zone unit = e at h1
  dsimp only
  split
  · exact h1
  · exact ((h1.setTables _ e.loc.stale e.loc.zones).setZone zone _).hotPlaced (zoneAct zone) kind csec

theorem band (h : HotOnly c d) (k : Nat) : d.band k = c.band k := by rw [Chip.band, h.loc, Chip.band]

theorem rebuild (h : HotOnly c d) (a : Act) : d.loc.rebuild a = c.loc.rebuild a := by rw [h.loc]; cases a <;> rfl

end HotOnly

theorem Chip.hotRemove_absent {zone unit : Nat} (h : c.hotOf zone unit = none) : c.hotRemove zone unit = c := by
  unfold Chip.hotRemove
  rw [h]

/-- A unit without an entry takes one where a bucket of its pair has room (R199). -/
theorem Chip.hotOf_hotInsert {zone unit b : Nat} (h : c.hotOf zone unit = none) (hb : c.bucketFor zone unit = some b)
    (kind csec : Nat) : (c.hotInsert zone unit kind csec).hotOf zone unit = some ⟨kind, csec, b⟩ := by
  unfold Chip.hotInsert
  rw [Chip.hotRemove_absent h]
  dsimp only
  rw [hb, Chip.hotOf]
  exact (congrArg (fun m => SMap.find? m (unitKey zone unit)) (Chip.hot_hotPlaced _ _ _ _)).trans (SMap.find?_set_self _ _ _)

/-! ### The scan of the media cache (step 3 of R215) -/

/-- A sector that is read changes the progress of its actuator, then the hot map and the stale maps. -/
theorem scanSector_frame (c : Chip) (a : Act) (h : CacheSector) : Keeps [.regs, .loc, .pwr] c (c.scanSector a h) ∧
    (c.scanSector a h).loc.rebuild a.other = c.loc.rebuild a.other := by
  have key (r : Rebuild) {d : Chip} (hd : HotOnly (c.setRebuild a r) d) : Keeps [.regs, .loc, .pwr] c d ∧
      d.loc.rebuild a.other = c.loc.rebuild a.other :=
    ⟨((Keeps.refl _ c).setRebuild a r (by decide)).trans hd.keeps, (hd.rebuild _).trans (Chip.rebuild_setRebuild_other _ _ _)⟩
  unfold Chip.scanSector
  dsimp only
  split
  · exact key _ ((HotOnly.refl _).markStale _ _)
  · exact key _ ((HotOnly.refl _).hotInsert _ _ _ _)

theorem scanSectors_frame (a : Act) (l : List CacheSector) (c : Chip) :
    Keeps [.regs, .loc, .pwr] c (l.foldl (fun (c : Chip) h => c.scanSector a h) c) ∧
    (l.foldl (fun (c : Chip) h => c.scanSector a h) c).loc.rebuild a.other = c.loc.rebuild a.other := by
  induction l generalizing c with
  | nil => exact ⟨.refl _ c, rfl⟩
  | cons h l ih =>
    obtain ⟨hk, hr⟩ := scanSector_frame c a h
    obtain ⟨hk', hr'⟩ := ih (c.scanSector a h)
    exact ⟨hk.trans hk', hr'.trans hr⟩

/-- A sector of a sequential zone of the actuator, whose unit no other sector named, becomes the unit's entry. -/
theorem hotOf_scanSector {a : Act} {h : CacheSector} {b : Nat} (hz : zoneAct h.zone = a)
    (hk : (c.zone h.zone).kind = 1 ∨ (c.zone h.zone).kind = 2)
    (ht : (c.loc.rebuild a).tags.find? (unitKey h.zone h.unit) = none) (hn : c.hotOf h.zone h.unit = none)
    (hb : c.bucketFor h.zone h.unit = some b) : (c.scanSector a h).hotOf h.zone h.unit = some ⟨1, h.csec, b⟩ := by
  unfold Chip.scanSector
  dsimp only
  rw [ht, if_neg (by simp [hz]; omega)]
  refine Chip.hotOf_hotInsert ?_ ((Chip.bucketFor_setRebuild _ _ _ _ _).trans hb) _ _
  rw [Chip.hotOf, Chip.hot_setRebuild]
  exact hn

/-- The ring's next place moves; the hot map and the progress stay. -/
theorem resumeRing_frame (c : Chip) (a : Act) (found : List CacheSector) : Keeps [.loc] c (c.resumeRing a found) ∧
    (c.resumeRing a found).loc.hot = c.loc.hot ∧ ∀ b, (c.resumeRing a found).loc.rebuild b = c.loc.rebuild b := by
  unfold Chip.resumeRing
  dsimp only
  split
  · exact ⟨.refl _ c, rfl, fun _ => rfl⟩
  · refine ⟨(Keeps.refl _ c).withLoc _ (by decide), ?_, fun b => ?_⟩
    · cases a <;> rfl
    · cases a <;> cases b <;> rfl

/-- The end of the scan: the ring goes on, and MC_DONE rises. -/
def Chip.scanEnded (c : Chip) (a : Act) (found : List CacheSector) : Chip :=
  let e := c.resumeRing a found
  (e.setRebuild a { e.loc.rebuild a with mcDone := true }).noteScanned a

theorem scanEnded_frame (c : Chip) (a : Act) (found : List CacheSector) :
    let d := c.scanEnded a found
    (d.loc.rebuild a).mcDone = true ∧ d.loc.rebuild a.other = c.loc.rebuild a.other ∧ d.loc.hot = c.loc.hot ∧
    Keeps [.loc] c d := by
  obtain ⟨hk, hh, hr⟩ := resumeRing_frame c a found
  exact ⟨by simp [Chip.scanEnded], by simp [Chip.scanEnded, hr], by simp [Chip.scanEnded, hh],
    (hk.setRebuild a _ (by decide)).noteScanned a (by decide)⟩

theorem rebuildMediaCacheScan_eq {a : Act} (hr : c.rebuilding a = true) (hm : (c.loc.rebuild a).mcDone = false)
    (found : List CacheSector) : rebuildMediaCacheScan c a found =
      (found.foldl (fun (c : Chip) h => c.scanSector a h) c).scanEnded a found := if_neg (by simp [hr, hm])

/-- What the scan of the media cache leaves (step 3 of R215). -/
theorem scan_clause (c : Chip) (a : Act) (found : List CacheSector) :
    let d := (found.foldl (fun (c : Chip) h => c.scanSector a h) c).scanEnded a found
    (d.loc.rebuild a).mcDone = true ∧ (d.loc.rebuild a.other) = c.loc.rebuild a.other ∧
    (∀ h, found = [h] → zoneAct h.zone = a → (c.zone h.zone).kind = 1 ∨ (c.zone h.zone).kind = 2 →
      (c.loc.rebuild a).tags.find? (unitKey h.zone h.unit) = none →
      c.hotOf h.zone h.unit = none → (c.bucketFor h.zone h.unit).isSome = true →
      ∃ e, d.hotOf h.zone h.unit = some e ∧ e.kind = 1 ∧ e.csec = h.csec) ∧
    (found = [] → d.loc.hot = c.loc.hot) ∧ Keeps [.regs, .loc, .pwr] c d := by
  obtain ⟨hk, hr⟩ := scanSectors_frame a found c
  obtain ⟨hm, ho, hh, hl⟩ := scanEnded_frame (found.foldl (fun (c : Chip) h => c.scanSector a h) c) a found
  refine ⟨hm, ho.trans hr, fun h hf hz hkind ht hn hb => ?_, fun hf => ?_, hk.step hl (by decide)⟩
  · obtain ⟨b, hb⟩ := Option.isSome_iff_exists.1 hb
    refine ⟨⟨1, h.csec, b⟩, ?_, rfl, rfl⟩
    rw [Chip.hotOf, hh, hf]
    exact hotOf_scanSector hz hkind ht hn hb
  · rw [hh, hf]
    rfl

/-! ### The probe of a band (R193, R216, R217) -/

/-- What a probe says of the band `k` and of the zone that its first sector names: the zone takes the band, its GEN and
the write pointer its chunks show, and the state that its KIND before gives. -/
def Chip.Takes (c d : Chip) (k : Nat) (z : BandHead) (mwp : Nat) : Prop :=
  let y := d.zone z.zone
  y.band = k % 262144 ∧ y.hasBand = true ∧ y.gen = z.gen ∧ y.mwp = mwp ∧ y.written = mwp ∧
  y.state = (if (c.zone z.zone).kind = 2 then 7 else if mwp = 65536 then 4 else 3) ∧
  (∀ b, c.band k = some b → b.state ≠ .suspect → b.state ≠ .retired →
    d.band k = some { b with state := if mwp = 65536 then .full else .opened })

theorem SameTables.zone (h : SameTables c d) (i : Nat) : d.zone i = c.zone i := by
  rw [Chip.zone, h]
  rfl

theorem SameTables.rebuild (h : SameTables c d) (a : Act) : d.loc.rebuild a = c.loc.rebuild a := by
  rw [h]
  cases a <;> rfl

/-- A band as its probe shows it, unless only LOC_BAND_CMD takes it out of its state (R193). -/
def Band.shown (st : BandState) (b : Band) : Band :=
  if b.state = .suspect ∨ b.state = .retired then b else { b with state := st }

theorem Band.shown_other {st : BandState} {b : Band} (hs : b.state ≠ .suspect) (hr : b.state ≠ .retired) :
    b.shown st = { b with state := st } := if_neg (by simp [hs, hr])

/-- A band's probe finds a zone: the zone takes the band, and no other band changes. -/
theorem foundZone_clause (c : Chip) (a : Act) (k : Nat) (z : BandHead) (mwp : Nat) :
    let d := c.foundZone a k z mwp
    c.Takes d k z mwp ∧ (∀ j, j ≠ k → d.band j = c.band j) ∧ (∀ b, d.loc.rebuild b = c.loc.rebuild b) ∧
    Keeps [.regs, .loc, .pwr] c d := by
  unfold Chip.foundZone
  extract_lets old dropped e live ann z0 f g d
  have he : HotOnly c e := HotOnly.foldl _ (fun _ _ h => h.hotRemove _ _) _ (.refl c)
  have hp : SameTables g d := .repage g z.zone
  have hz : d.zone z.zone = f.zone z.zone := hp.zone _
  have hb (j : Nat) : d.band j = if j = k then (c.band k).map (Band.shown (if mwp = 65536 then .full else .opened))
      else c.band j := by
    rw [hp.band, ← he.band, ← he.band]
    exact Chip.band_mapBand f k j _
  refine ⟨?_, fun j hj => (hb j).trans (if_neg hj), fun b => (hp.rebuild b).trans (he.rebuild b),
    ((he.keeps.setZone _ _ (by decide)).withLoc _ (by decide)).withLoc _ (by decide)⟩
  unfold Chip.Takes
  dsimp only
  rw [hz, Chip.zone_setZone_self]
  refine ⟨rfl, rfl, rfl, rfl, rfl, rfl, fun b hb' hs hr => ?_⟩
  rw [hb, if_pos rfl, hb', Option.map_some, Band.shown_other hs hr]

/-- The chip that notes a band as probed. -/
def Chip.probing (c : Chip) (a : Act) (k : Nat) : Chip :=
  c.setRebuild a { c.loc.rebuild a with probed := insertNat (c.loc.rebuild a).probed k }

/-- The chip that also notes the zone that the band's first sector names. -/
def Chip.naming (c : Chip) (a : Act) (k : Nat) (z : BandHead) : Chip :=
  (c.probing a k).setRebuild a { c.loc.rebuild a with
    probed := insertNat (c.loc.rebuild a).probed k, firsts := (c.loc.rebuild a).firsts.set k (z.zone, z.tag) }

/-- An earlier band whose first sector names the same zone. -/
def Chip.namedBefore (c : Chip) (a : Act) (z : BandHead) : Option (Nat × Nat × Nat) :=
  List.find? (fun (e : Nat × Nat × Nat) => e.2.1 == z.zone && c.bandOfZone z.zone == some e.1) (c.loc.rebuild a).firsts

/-- The probe of a band whose first sector names a sequential zone of the actuator. -/
def Chip.probeNamed (c : Chip) (a : Act) (k : Nat) (z : BandHead) (mwp : Nat) : Chip :=
  let y := c.zone z.zone
  match c.namedBefore a z with
  | none => (c.naming a k z).foundZone a k z mwp
  | some e =>
    if z.tag < e.2.2 then (c.naming a k z).unmapBand k 0 y.secure 0 y.nsid
    else ((c.naming a k z).unmapBand e.1 0 y.secure 0 y.nsid).foundZone a k z mwp

section
variable {a : Act} {band : Nat} {chunks : List (Option Nat)} {tail : List (Nat × Option Nat)}
  (hr : c.rebuilding a = true) (hm : (c.loc.rebuild a).mcDone = true) (hk : bandKey a band ∉ (c.loc.rebuild a).probed)
  (hp : bandKey a band ∈ c.toProbe a)
include hr hm hk hp

theorem rebuildBandProbe_blank : rebuildBandProbe c a band none chunks tail =
    ((c.probing a (bandKey a band)).mapBand (bandKey a band) (Band.shown .free)).noteScanned a :=
  if_neg (by simp [hr, hm, hk, hp])

theorem rebuildBandProbe_other {z : BandHead}
    (hz : ¬ (zoneAct z.zone = a ∧ ((c.zone z.zone).kind = 1 ∨ (c.zone z.zone).kind = 2))) :
    rebuildBandProbe c a band (some z) chunks tail = (c.probing a (bandKey a band)).noteScanned a := by
  have hc : zoneAct z.zone ≠ a ∨
      (((c.probing a (bandKey a band)).zone z.zone).kind ≠ 1 ∧ ((c.probing a (bandKey a band)).zone z.zone).kind ≠ 2) := by
    rw [Chip.probing, Chip.zone_setRebuild]
    tauto
  unfold rebuildBandProbe
  dsimp only
  rw [if_neg (by simp [hr, hm, hk, hp])]
  exact congrArg (fun d : Chip => d.noteScanned a) (if_pos hc)

theorem rebuildBandProbe_named {z : BandHead} (hz : zoneAct z.zone = a)
    (hkind : (c.zone z.zone).kind = 1 ∨ (c.zone z.zone).kind = 2) : rebuildBandProbe c a band (some z) chunks tail =
      (c.probeNamed a (bandKey a band) z (scanEnd z.tag chunks tail)).noteScanned a := by
  have hc : ¬ (zoneAct z.zone ≠ a ∨
      (((c.probing a (bandKey a band)).zone z.zone).kind ≠ 1 ∧ ((c.probing a (bandKey a band)).zone z.zone).kind ≠ 2)) := by
    rw [Chip.probing, Chip.zone_setRebuild]
    tauto
  have hf : List.find? (fun (e : Nat × Nat × Nat) => e.2.1 == z.zone &&
      (c.naming a (bandKey a band) z).bandOfZone z.zone == some e.1) (c.loc.rebuild a).firsts = c.namedBefore a z := by
    simp only [Chip.naming, Chip.probing, Chip.bandOfZone_setRebuild, Chip.namedBefore]
  have hy : (c.probing a (bandKey a band)).zone z.zone = c.zone z.zone := Chip.zone_setRebuild _ _ _ _
  unfold rebuildBandProbe
  dsimp only
  rw [if_neg (by simp [hr, hm, hk, hp])]
  refine congrArg (fun d : Chip => d.noteScanned a) ((if_neg hc).trans ?_)
  unfold Chip.probeNamed
  dsimp only
  rw [← hf, ← hy]
  rfl

end

/-- A blank first sector: the band is probed, and shown FREE (R193). -/
theorem blank_frame (c : Chip) (a : Act) (k : Nat) :
    let d := ((c.probing a k).mapBand k (Band.shown .free)).noteScanned a
    (d.loc.rebuild a).probed = insertNat (c.loc.rebuild a).probed k ∧
    d.band k = (c.band k).map (Band.shown .free) ∧ Keeps [.regs, .loc, .bcl, .pwr] c d := by
  have hp : ∀ d : Chip, ((d.mapBand k (Band.shown .free)).loc.rebuild a) = d.loc.rebuild a := fun d => by cases a <;> rfl
  refine ⟨?_, ?_, (((Keeps.refl _ c).setRebuild a _ (by decide)).withLoc _ (by decide)).noteScanned a (by decide)⟩
  · rw [Chip.probed_noteScanned, hp, Chip.probing, Chip.rebuild_setRebuild_self]
  · rw [Chip.band_noteScanned, Chip.band_mapBand, if_pos rfl, Chip.probing, Chip.band_setRebuild]

theorem naming_frame (c : Chip) (a : Act) (k : Nat) (z : BandHead) : Keeps [.loc] c (c.naming a k z) ∧
    ((c.naming a k z).loc.rebuild a).probed = insertNat (c.loc.rebuild a).probed k ∧
    (∀ i, (c.naming a k z).zone i = c.zone i) ∧ ∀ j, (c.naming a k z).band j = c.band j :=
  ⟨((Keeps.refl _ c).setRebuild a _ (by decide)).setRebuild a _ (by decide), by simp [Chip.naming],
    by simp [Chip.naming, Chip.probing], by simp [Chip.naming, Chip.probing]⟩

/-- A band unmapped becomes RELEASING, and waits for its release. -/
theorem unmapBand_frame (c : Chip) (k reason : Nat) (secure : Bool) (number nsid : Nat) :
    let d := c.unmapBand k reason secure number nsid
    Keeps [.loc, .bcl] c d ∧ (∀ a, d.loc.rebuild a = c.loc.rebuild a) ∧ (∀ i, d.zone i = c.zone i) ∧
    (∀ j, j ≠ k → d.band j = c.band j) ∧
    (∀ b, c.band k = some b → b.state ≠ .suspect → d.band k = some { b with state := .releasing }) := by
  refine ⟨((Keeps.refl _ c).withLoc _ (by decide)).withBcl _ (by decide), fun a => by cases a <;> rfl, fun _ => rfl,
    fun j hj => (Chip.band_mapBand c k j _).trans (if_neg hj), fun b hb hs => ?_⟩
  refine (Chip.band_mapBand c k k _).trans ((if_pos rfl).trans ?_)
  rw [hb, Option.map_some, if_neg hs]

theorem probeNamed_frame (c : Chip) (a : Act) (k : Nat) (z : BandHead) (mwp : Nat) :
    ((c.probeNamed a k z mwp).loc.rebuild a).probed = insertNat (c.loc.rebuild a).probed k ∧
    Keeps [.regs, .loc, .bcl, .pwr] c (c.probeNamed a k z mwp) := by
  obtain ⟨hk, hp, -, -⟩ := naming_frame c a k z
  have hk : Keeps [.regs, .loc, .bcl, .pwr] c (c.naming a k z) := hk.mono (by decide)
  unfold Chip.probeNamed
  dsimp only
  split
  · obtain ⟨-, -, hf, hl⟩ := foundZone_clause (c.naming a k z) a k z mwp
    exact ⟨by rw [hf, hp], hk.step hl (by decide)⟩
  · next e _ =>
    split
    · obtain ⟨hu, hs, -⟩ := unmapBand_frame (c.naming a k z) k 0 (c.zone z.zone).secure 0 (c.zone z.zone).nsid
      exact ⟨by rw [hs, hp], hk.step hu (by decide)⟩
    · obtain ⟨hu, hs, -⟩ := unmapBand_frame (c.naming a k z) e.1 0 (c.zone z.zone).secure 0 (c.zone z.zone).nsid
      obtain ⟨-, -, hf, hl⟩ := foundZone_clause
        ((c.naming a k z).unmapBand e.1 0 (c.zone z.zone).secure 0 (c.zone z.zone).nsid) a k z mwp
      exact ⟨by rw [hf, hs, hp], (hk.step hu (by decide)).step hl (by decide)⟩

theorem Chip.Takes.of_same {k mwp : Nat} {z : BandHead} (hz : e.zone z.zone = c.zone z.zone) (hb : e.band k = c.band k)
    (h : e.Takes d k z mwp) : c.Takes d k z mwp := by
  unfold Chip.Takes at h ⊢
  rwa [← hz, ← hb]

theorem Chip.Takes.noteScanned {k mwp : Nat} {z : BandHead} (h : c.Takes d k z mwp) (a : Act) :
    c.Takes (d.noteScanned a) k z mwp := by
  unfold Chip.Takes at h ⊢
  rwa [Chip.zone_noteScanned, Chip.band_noteScanned]

/-- No other band names the zone: it takes the band. -/
theorem probeNamed_first {a : Act} {z : BandHead} (hf : ∀ f ∈ (c.loc.rebuild a).firsts, f.2.1 ≠ z.zone) (k mwp : Nat) :
    c.Takes (c.probeNamed a k z mwp) k z mwp := by
  have hn : c.namedBefore a z = none := List.find?_eq_none.2 fun f hm => by simp [hf f hm]
  obtain ⟨-, -, hz, hb⟩ := naming_frame c a k z
  unfold Chip.probeNamed
  dsimp only
  rw [hn]
  exact (foundZone_clause (c.naming a k z) a k z mwp).1.of_same (hz _) (hb _)

/-- The band that names the zone already is the zone's. -/
theorem Chip.namedBefore_single {a : Act} {z : BandHead} {l tag : Nat} (hf : (c.loc.rebuild a).firsts = [(l, z.zone, tag)])
    (hl : c.bandOfZone z.zone = some l) : c.namedBefore a z = some (l, z.zone, tag) := by
  simp [Chip.namedBefore, hf, hl]

/-- Another band names the zone with a newer first sector: the band becomes RELEASING. -/
theorem probeNamed_older {a : Act} {z : BandHead} {e : Nat × Nat × Nat} (hn : c.namedBefore a z = some e)
    (ht : z.tag < e.2.2) {k : Nat} {b : Band} (hb : c.band k = some b) (hs : b.state ≠ .suspect) (mwp : Nat) :
    (c.probeNamed a k z mwp).band k = some { b with state := .releasing } := by
  obtain ⟨-, -, -, hband⟩ := naming_frame c a k z
  obtain ⟨-, -, -, -, hr⟩ := unmapBand_frame (c.naming a k z) k 0 (c.zone z.zone).secure 0 (c.zone z.zone).nsid
  unfold Chip.probeNamed
  dsimp only
  rw [hn]
  dsimp only
  rw [if_pos ht]
  exact hr b ((hband k).trans hb) hs

/-- Another band names the zone with an older first sector, or one as old: that becomes RELEASING. -/
theorem probeNamed_newer {a : Act} {z : BandHead} {e : Nat × Nat × Nat} (hn : c.namedBefore a z = some e)
    (ht : e.2.2 ≤ z.tag) {k : Nat} (he : e.1 ≠ k) (mwp : Nat) :
    c.Takes (c.probeNamed a k z mwp) k z mwp ∧ ∀ b, c.band e.1 = some b → b.state ≠ .suspect →
      (c.probeNamed a k z mwp).band e.1 = some { b with state := .releasing } := by
  obtain ⟨-, -, hzone, hband⟩ := naming_frame c a k z
  obtain ⟨-, -, hz, hj, hl⟩ := unmapBand_frame (c.naming a k z) e.1 0 (c.zone z.zone).secure 0 (c.zone z.zone).nsid
  obtain ⟨hf, ho, -⟩ := foundZone_clause
    ((c.naming a k z).unmapBand e.1 0 (c.zone z.zone).secure 0 (c.zone z.zone).nsid) a k z mwp
  unfold Chip.probeNamed
  dsimp only
  rw [hn]
  dsimp only
  rw [if_neg (Nat.not_lt.2 ht)]
  exact ⟨hf.of_same ((hz _).trans (hzone _)) ((hj k he.symm).trans (hband k)), fun b hb hs =>
    (ho _ he).trans (hl b ((hband _).trans hb) hs)⟩

/-! ### The end of REBUILD (R34, step 5 of R215) -/

/-- The progress of REBUILD and what keeps the port stand; a checkpoint that runs goes on. -/
structure RebuildAlike (c d : Chip) : Prop where
  rebuild : ∀ a, d.loc.rebuild a = c.loc.rebuild a
  failed : d.jnl.failed = c.jnl.failed
  openOp : d.jnl.openOp = c.jnl.openOp
  ckpt : c.jnl.ckpt ≠ none → d.jnl.ckpt ≠ none

namespace RebuildAlike

theorem refl (c : Chip) : RebuildAlike c c := ⟨fun _ => rfl, rfl, rfl, id⟩

theorem trans (h : RebuildAlike c d) (g : RebuildAlike d e) : RebuildAlike c e :=
  ⟨fun a => (g.rebuild a).trans (h.rebuild a), g.failed.trans h.failed, g.openOp.trans h.openOp, fun hc => g.ckpt (h.ckpt hc)⟩

theorem foldl {α : Type} (f : Chip → α → Chip) (hf : ∀ (d : Chip) (x : α), RebuildAlike d (f d x)) (l : List α) (d : Chip) :
    RebuildAlike d (l.foldl f d) := by
  induction l generalizing d with
  | nil => exact refl d
  | cons x l ih => exact (hf d x).trans (ih _)

theorem of_parts (ht : ∀ a, d.loc.rebuild a = c.loc.rebuild a) (hj : d.jnl = c.jnl) : RebuildAlike c d :=
  ⟨ht, by rw [hj], by rw [hj], by rw [hj]; exact id⟩

theorem of_keeps (h : Keeps ps c d) (hl : .loc ∉ ps) (hj : .jnl ∉ ps) : RebuildAlike c d :=
  of_parts (fun a => by rw [h.loc hl]) (h.jnl hj)

/-- A change of the journal that leaves what keeps the port. -/
theorem setJnl (h : RebuildAlike c d) (x : Jnl) (hf : x.failed = d.jnl.failed) (ho : x.openOp = d.jnl.openOp)
    (hk : x.ckpt = d.jnl.ckpt) : RebuildAlike c { d with jnl := x } :=
  ⟨h.rebuild, hf.trans h.failed, ho.trans h.openOp, fun hc => hk ▸ h.ckpt hc⟩

theorem raise (h : RebuildAlike c d) (page i : Nat) : RebuildAlike c (d.raise page i) :=
  h.trans (of_keeps ((Keeps.refl [.regs, .pwr] d).raise page i (by decide) (by decide)) (by decide) (by decide))

theorem appendSlot (c : Chip) (typ part parts : Nat) (fs : List (Nat × Nat × Nat)) :
    RebuildAlike c (c.appendSlot typ part parts fs) := by
  have hw := (Keeps.refl [.mram] c).writeSlot c.jnl.head (layRecord typ part parts c.jnl.headSeq fs) (by decide)
  have hj := hw.jnl (by decide)
  have h : RebuildAlike c (c.writeSlot c.jnl.head (layRecord typ part parts c.jnl.headSeq fs)) :=
    of_keeps hw (by decide) (by decide)
  unfold Chip.appendSlot
  dsimp only
  split
  · exact (h.setJnl _ (by rw [hj]) (by rw [hj]) (by rw [hj])).raise _ _
  · exact h.setJnl _ (by rw [hj]) (by rw [hj]) (by rw [hj])

theorem appendRecs (c : Chip) (rs : List Rec) : RebuildAlike c (c.appendRecs rs) := by
  unfold Chip.appendRecs
  refine foldl _ (fun d x => ?_) _ c
  dsimp only
  split
  · exact appendSlot d _ _ _ _
  · exact appendSlot d _ _ _ _

/-- What a checkpoint changes before its record, the keys of its epoch being drawn. -/
theorem ckptParts (h : RebuildAlike c d) (x : Jnl) (y : Sec) (z : Bcl) (bs : SMap Band) (hf : x.failed = d.jnl.failed)
    (ho : x.openOp = d.jnl.openOp) (hk : x.ckpt ≠ none) :
    RebuildAlike c { d with jnl := x, sec := y, bcl := z, loc := { d.loc with cutBands := bs } } :=
  ⟨fun a => (by cases a <;> rfl : _ = d.loc.rebuild a).trans (h.rebuild a), hf.trans h.failed, ho.trans h.openOp, fun _ => hk⟩

theorem startCkpt (c : Chip) (n : Nat) : RebuildAlike c (c.startCkpt n) := by
  have h := of_keeps (keeps_drawnKey c (if c.jnl.epoch = 9 then 10 else 9) 3 ((c.jnl.set + 1) % 2 ^ 32)) (by decide) (by decide)
  unfold Chip.startCkpt
  dsimp only
  generalize (c.takeRandom 256).2.writeKey _ 3 _ (c.takeRandom 256).1 = d at h ⊢
  refine trans ?_ (appendRecs _ _)
  exact h.ckptParts _ _ _ _ rfl rfl (by simp)

theorem maybeCkpt (c : Chip) : RebuildAlike c c.maybeCkpt := by
  unfold Chip.maybeCkpt
  split
  · exact startCkpt c 1
  · exact refl c

theorem repaged (c before : Chip) : RebuildAlike c (c.repaged before) := by
  refine of_parts (SameTables.repaged c before).rebuild ?_
  unfold Chip.repaged
  split
  · exact (Keeps.foldl (ps := [.loc]) _ _ (fun _ _ _ h => .ite (fun _ => h.withLoc _ (by decide)) fun _ => h) (.refl _ c)).jnl
      (by decide)
  · rfl

theorem waitOp (c : Chip) (op : JnlOp) : RebuildAlike c (c.waitOp op) := by
  have h := (refl c).setJnl { c.jnl with waiting := c.jnl.waiting ++ [op] } rfl rfl rfl
  unfold Chip.waitOp
  dsimp only
  split
  · exact h.trans (of_keeps ((Keeps.refl [.regs] _).bump R.JNL_WAIT_CNT (by decide)) (by decide) (by decide))
  · exact h

/-- The record of a zone's finish changes its descriptor and the state of its band. -/
theorem apply_finish (c : Chip) (i g ng m l : Nat) : RebuildAlike c (c.applyRec (.zoneState i g 4 ng m l)) := by
  unfold Chip.applyRec
  dsimp only
  split
  · exact refl c
  · rw [if_neg (by decide)]
    split
    · exact of_parts (fun a => by cases a <;> rfl) rfl
    · exact of_parts (fun a => by cases a <;> rfl) rfl

theorem commit_finish (c : Chip) (i g ng m l : Nat) : RebuildAlike c (c.commit .locus [.zoneState i g 4 ng m l] []) := by
  have hn : c.commitNow ⟨.locus, [.zoneState i g 4 ng m l], []⟩ =
      (((c.appendRecs [.zoneState i g 4 ng m l]).applyRec (.zoneState i g 4 ng m l)).repaged
        (c.appendRecs [.zoneState i g 4 ng m l])).maybeCkpt := rfl
  have hc : RebuildAlike c (c.commitNow ⟨.locus, [.zoneState i g 4 ng m l], []⟩) := by
    rw [hn]
    exact (((appendRecs c _).trans (apply_finish _ i g ng m l)).trans (repaged _ _)).trans (maybeCkpt _)
  unfold Chip.commit
  split
  · split
    · exact hc
    · exact refl c
  · split
    · exact waitOp c _
    · exact hc

theorem finishExcess (c : Chip) (nsid : Nat) : RebuildAlike c (c.finishExcess nsid) := by
  unfold Chip.finishExcess
  refine foldl _ (fun d i => ?_) _ c
  exact (commit_finish d i _ _ _ _).trans
    (of_keeps ((Keeps.refl [.nvq, .out] _).zoneChanged i (by decide) (by decide)) (by decide) (by decide))

end RebuildAlike

theorem Chip.ckpt_startCkpt (c : Chip) (n : Nat) : (c.startCkpt n).jnl.ckpt ≠ none :=
  (RebuildAlike.appendRecs _ _).ckpt (by simp)

/-- A checkpoint asked for. -/
def Chip.askCkpt (c : Chip) : Chip := { c with jnl := { c.jnl with ckptNext := true } }

theorem RebuildAlike.askCkpt (c : Chip) : RebuildAlike c c.askCkpt := (refl c).setJnl _ rfl rfl rfl

/-- A checkpoint asked for runs where the port takes it. -/
theorem Chip.ckpt_asked (hb : c.sys.mode ≠ .boot) (hh : c.inHoldup = false) (hf : c.jnl.failed = false)
    (ho : c.jnl.openOp = none) : c.askCkpt.maybeCkpt.jnl.ckpt ≠ none := by
  by_cases hc : c.jnl.ckpt = none
  · have hs : c.askCkpt.maybeCkpt = c.askCkpt.startCkpt 1 :=
      if_pos ⟨by rw [askCkpt, hc]; rfl, hb, by simpa [askCkpt, Chip.inHoldup] using hh, by simpa [askCkpt] using hf, by simp [askCkpt, ho], .inl rfl⟩
    rw [hs]
    exact Chip.ckpt_startCkpt _ 1
  · exact (RebuildAlike.maybeCkpt c.askCkpt).ckpt hc

/-- The chip back in SERVICE with what the scans recovered, both actuators done. -/
def Chip.backInService (c : Chip) (valuesA valuesB : List ValueImage) : Chip :=
  let c := (c.loc.zones.map Prod.fst).foldl Chip.emptyUnfound c
  let c := if c.lcs.tierS then (c.loadValues (valuesA ++ valuesB)).expireValues else c
  let c := c.setRebuild .A { c.loc.rebuild .A with done := true }
  (c.setRebuild .B { c.loc.rebuild .B with done := true }).enterService

/-- The zones that stay open are brought down to the limit, and a checkpoint is asked for. -/
def Chip.rebuildEnd (c : Chip) : Chip := ((c.finishExcess 1).finishExcess 2).askCkpt.maybeCkpt.raise 0x18 5

theorem rebuildDone_scanned (ha : c.alive = true) (hm : c.sys.mode = .rebuild) (hA : c.scanned .A = true)
    (hB : c.scanned .B = true) (valuesA valuesB : List ValueImage) :
    rebuildDone c valuesA valuesB = (c.backInService valuesA valuesB).rebuildEnd := by
  unfold rebuildDone
  rw [if_neg (by simp [ha, hm, hA, hB])]
  extract_lets c1 c2 _ c3 _ e f _ g
  have he : e = c.backInService valuesA valuesB := rfl
  have hg : g = f.askCkpt := rfl
  rw [hg, ← he, Chip.rebuildEnd]

theorem rebuildDone_waits (h : c.scanned .A = false ∨ c.scanned .B = false) (valuesA valuesB : List ValueImage) :
    rebuildDone c valuesA valuesB = c := if_pos (by rcases h with h | h <;> simp [h])

theorem rebuild_enterService (c : Chip) (a : Act) : c.enterService.loc.rebuild a = c.loc.rebuild a := by
  have h : c.dramAwake.loc = c.loc := (keeps_dramAwake c).loc (by decide)
  rw [Chip.enterService_eq, ← h]
  cases a <;> rfl

theorem keeps_emptyUnfound (c : Chip) (i : Nat) : Keeps [.loc] c (c.emptyUnfound i) :=
  Keeps.ite (fun _ => (Keeps.refl _ c).setZone _ _ (by decide)) fun _ => .refl _ c

theorem keeps_loadValues (c : Chip) (vs : List ValueImage) : Keeps [.seg] c (c.loadValues vs) :=
  Keeps.foldl _ vs (fun _ _ _ h => h.withSeg _ (by decide)) ((Keeps.refl _ c).withSeg _ (by decide))

theorem backInService_frame (c : Chip) (valuesA valuesB : List ValueImage) :
    let d := c.backInService valuesA valuesB
    d.sys.mode = .service ∧ (d.loc.rebuild .A).done = true ∧ (d.loc.rebuild .B).done = true ∧
    Keeps [.regs, .sys, .nvq, .loc, .seg] c d := by
  unfold Chip.backInService
  extract_lets c1 c2 c3 c4
  have h1 : Keeps [.regs, .sys, .nvq, .loc, .seg] c c1 :=
    Keeps.foldl (ps := [.regs, .sys, .nvq, .loc, .seg]) _ _ (fun d i _ h => h.step (keeps_emptyUnfound d i) (by decide))
      (.refl _ c)
  have h2 : Keeps [.regs, .sys, .nvq, .loc, .seg] c c2 :=
    .ite (fun _ => (h1.step (keeps_loadValues _ _) (by decide)).withSeg _ (by decide)) fun _ => h1
  refine ⟨congrArg Sys.mode (Chip.sys_enterService _), ?_, ?_,
    ((h2.setRebuild .A _ (by decide)).setRebuild .B _ (by decide)).step (keeps_enterService _) (by decide)⟩
  · rw [rebuild_enterService]
    rfl
  · rw [rebuild_enterService]
    rfl

theorem OpFrame.finishExcess (h : OpFrame c d) (nsid : Nat) : OpFrame c (d.finishExcess nsid) :=
  .foldl _ (fun _ _ h => (h.commit _ _ _).zoneChanged _) _ h

theorem opFrame_rebuildEnd (c : Chip) : OpFrame c c.rebuildEnd :=
  ((((OpFrame.refl c).finishExcess 1).finishExcess 2).setJnl _).maybeCkpt.raise 0x18 5 (by decide)

/-- The end of REBUILD leaves the progress, and a checkpoint runs where the port takes it. -/
theorem rebuildEnd_clause (hm : c.sys.mode = .service) :
    (∀ a, c.rebuildEnd.loc.rebuild a = c.loc.rebuild a) ∧ c.rebuildEnd.bit (pIntStatus 0x18) 5 = true ∧
    (c.jnl.failed = false → c.jnl.openOp = none → c.rebuildEnd.jnl.ckpt ≠ none) := by
  have hr : RebuildAlike c ((c.finishExcess 1).finishExcess 2) :=
    (RebuildAlike.finishExcess c 1).trans (.finishExcess _ 2)
  have hs : ((c.finishExcess 1).finishExcess 2).sys = c.sys :=
    (((OpFrame.refl c).finishExcess 1).finishExcess 2).keeps.sys (by decide)
  have hb : ((c.finishExcess 1).finishExcess 2).sys.mode ≠ .boot := by
    rw [hs, hm]
    decide
  have hh : ((c.finishExcess 1).finishExcess 2).inHoldup = false := by
    rw [Chip.inHoldup, hs, hm]
    rfl
  have he := (hr.trans (RebuildAlike.askCkpt _)).trans (RebuildAlike.maybeCkpt _)
  rw [Chip.rebuildEnd]
  refine ⟨(he.raise 0x18 5).rebuild, Chip.bit_raise _ _ _ (by decide), fun hf ho => ?_⟩
  rw [Chip.raise_jnl]
  exact Chip.ckpt_asked hb hh (hr.failed.trans hf) (hr.openOp.trans ho)

theorem rebuildDone_clause (c : Chip) (valuesA valuesB : List ValueImage) :
    let d := (c.backInService valuesA valuesB).rebuildEnd
    d.sys.mode = .service ∧ (d.loc.rebuild .A).done = true ∧ (d.loc.rebuild .B).done = true ∧
    d.bit (pIntStatus 0x18) 5 = true ∧
    (c.jnl.ckpt = none → c.jnl.failed = false → c.jnl.openOp = none → d.jnl.ckpt ≠ none) ∧
    Keeps (.sys :: commitParts) c d := by
  obtain ⟨hm, hA, hB, hk⟩ := backInService_frame c valuesA valuesB
  obtain ⟨hr, hb, hc⟩ := rebuildEnd_clause hm
  have ho := opFrame_rebuildEnd (c.backInService valuesA valuesB)
  have hj : (c.backInService valuesA valuesB).jnl = c.jnl := hk.jnl (by decide)
  refine ⟨?_, by rw [hr]; exact hA, by rw [hr]; exact hB, hb, fun _ hf hop => hc (by rw [hj]; exact hf) (by rw [hj]; exact hop),
    (hk.mono (by decide)).step ho.keeps (by decide)⟩
  rw [ho.keeps.sys (by decide)]
  exact hm

/-- Settles O41: the scan and the probe by what they leave of the tables, the end by the port that takes a checkpoint. -/
theorem rebuildRecoversTheMap : Obligations.RebuildRecoversTheMap := by
  unfold Obligations.RebuildRecoversTheMap
  refine ⟨fun s a found hr hm => completesThen_eq rfl (rebuildMediaCacheScan_eq hr hm found) (scan_clause _ a found),
    fun s a band found chunks tail hr hm hk hp => ?probe, fun s valuesA valuesB ha hm =>
      ⟨fun hA hB => completesThen_eq rfl (rebuildDone_scanned ha hm hA hB valuesA valuesB) (rebuildDone_clause _ _ _),
        fun h => completesThen_eq rfl (rebuildDone_waits h _ _) rfl⟩⟩
  cases found with
  | none =>
    obtain ⟨hprobed, hband, hkeep⟩ := blank_frame s.chip a (bandKey a band)
    refine completesThen_eq rfl (rebuildBandProbe_blank hr hm hk hp)
      ⟨hprobed, fun b _ hb => ?_, fun z hz => (nomatch hz), hkeep⟩
    rw [hband, hb]
    rfl
  | some z =>
    by_cases hz : zoneAct z.zone = a ∧ ((s.chip.zone z.zone).kind = 1 ∨ (s.chip.zone z.zone).kind = 2)
    · obtain ⟨ha, hkind⟩ := hz
      obtain ⟨hprobed, hkeep⟩ := probeNamed_frame s.chip a (bandKey a band) z (scanEnd z.tag chunks tail)
      refine completesThen_eq rfl (rebuildBandProbe_named hr hm hk hp ha hkind)
        ⟨by rw [Chip.probed_noteScanned, hprobed], fun _ h => (nomatch h), fun y hy _ _ => ?_,
          hkeep.noteScanned a (by decide)⟩
      cases hy
      refine ⟨fun hf => (probeNamed_first hf _ _).noteScanned a, fun l tag b hf hl hne => ?_⟩
      have hn := Chip.namedBefore_single hf hl
      refine ⟨fun ht hb hs => ?_, fun ht => ?_⟩
      · rw [Chip.band_noteScanned]
        exact probeNamed_older hn ht hb hs _
      · obtain ⟨htakes, hother⟩ := probeNamed_newer hn ht hne (scanEnd z.tag chunks tail)
        exact ⟨htakes.noteScanned a, fun hb hs => (Chip.band_noteScanned _ _ _).trans (hother b hb hs)⟩
    · refine completesThen_eq rfl (rebuildBandProbe_other hr hm hk hp hz)
        ⟨by rw [Chip.probed_noteScanned, Chip.probing, Chip.rebuild_setRebuild_self], fun _ h => (nomatch h),
          fun y hy ha hkind => ?_, ((Keeps.refl _ _).setRebuild a _ (by decide)).noteScanned a (by decide)⟩
      cases hy
      exact absurd ⟨ha, hkind⟩ hz

end Sys2Proof.Machine
end

section
/-! ## The jobs of SEC and its roots (R59, R249, R251, R252, O43) -/

namespace Sys2Proof.Machine

open Sys2Proof

variable {c d e : Chip}

/-- A meaning that answers a chip completes with what holds of it, where the pins do not matter. -/
theorem completes_unpinned {i : Instr} {s : State} {P : Chip → Prop} (h : exec i s = s.next c) (he : c = d) (hP : P d)
    (hs : ∀ x : Chip, P x → P x.settle) : Completes i s P := completes_eq h he (hs d hP)

/-! ### GO (R251, R252) -/

/-- The chip at GO: the KIND asked for stands and no image step has failed. -/
def Chip.secAsked (c : Chip) (kind : Nat) : Chip := (c.setFld R.SEC_JOB_CTRL 1 0 kind).setFld R.SEC_JOB_CTRL 19 16 0

/-- The chip once a job has started. -/
def Chip.secStarted (c : Chip) (j : SecJob) : Chip :=
  let d := ((c.secAsked j.kind).setFld R.SEC_JOB_CTRL 26 24 0).setBit R.SEC_JOB_CTRL 30 true
  { d with sec := { c.sec with job := some j } }

@[simp] theorem Chip.memReadable_setFld (c : Chip) (k hi lo v a n : Nat) :
    (c.setFld k hi lo v).memReadable a n = c.memReadable a n := rfl

theorem secGo_starts {kind a n : Nat} (ha : c.alive = true) (hk : kind ≠ 3)
    (hsrc : (c.reg R.SEC_JOB_SRC_LO).toNat + c.fld R.SEC_JOB_SRC_HI 3 0 * 2 ^ 32 = a)
    (hlen : (c.reg R.SEC_JOB_LEN).toNat = n) (hj : c.sec.job = none) (hn : 0 < n) (hr : c.memReadable a n = true) :
    secGo c kind = c.secStarted ⟨kind, a, n⟩ := by
  unfold secGo
  rw [if_neg (by simp [ha]), hsrc, hlen]
  exact if_neg (by simp [hj, hk, hn.ne', hr])

theorem secGo_refused {kind a n : Nat} (ha : c.alive = true)
    (hsrc : (c.reg R.SEC_JOB_SRC_LO).toNat + c.fld R.SEC_JOB_SRC_HI 3 0 * 2 ^ 32 = a)
    (hlen : (c.reg R.SEC_JOB_LEN).toNat = n) (h : c.sec.job ≠ none ∨ n = 0 ∨ c.memReadable a n = false) :
    secGo c kind = ((c.secAsked kind).setFld R.SEC_JOB_CTRL 26 24 2).fault 0x1A 3 := by
  unfold secGo
  rw [if_neg (by simp [ha]), hsrc, hlen]
  refine if_pos ?_
  rcases h with h | h | h
  · rw [Option.isSome_iff_ne_none.2 h, Bool.true_or, Bool.true_or, Bool.true_or]
  · simp [h]
  · simp [h]

theorem onlyRegs_secAsked (c : Chip) (kind : Nat) : OnlyRegs [R.SEC_JOB_CTRL] c (c.secAsked kind) :=
  ((OnlyRegs.refl c _).setFld _ _ _ _ (by decide)).setFld _ _ _ _ (by decide)

theorem keeps_secAsked (c : Chip) (kind : Nat) : Keeps [.regs] c (c.secAsked kind) :=
  ((Keeps.refl _ c).setFld _ _ _ _ (by decide)).setFld _ _ _ _ (by decide)

/-- What a job that starts shows (R251). -/
theorem secStarted_clause (c : Chip) (j : SecJob) (hk : j.kind < 4) :
    let d := c.secStarted j
    d.bit R.SEC_JOB_CTRL 30 = true ∧ d.fld R.SEC_JOB_CTRL 26 24 = 0 ∧ d.fld R.SEC_JOB_CTRL 1 0 = j.kind ∧
    d.sec = { c.sec with job := some j } ∧ OnlyRegs [R.SEC_JOB_CTRL] c d ∧ Keeps [.regs, .sec] c d := by
  set f := (c.secAsked j.kind).setFld R.SEC_JOB_CTRL 26 24 0 with hf
  have hres : f.fld R.SEC_JOB_CTRL 26 24 = 0 := Chip.fld_setFld_self _ _ _ (by decide)
  have hkind : f.fld R.SEC_JOB_CTRL 1 0 = j.kind := by
    rw [hf, Chip.fld_setFld_ne _ _ _ _ (by decide), Chip.secAsked, Chip.fld_setFld_ne _ _ _ _ (by decide),
      Chip.fld_setFld_self _ _ _ (by decide)]
    exact Nat.mod_eq_of_lt hk
  refine ⟨f.bit_setBit_self _ _ _ (by decide), (f.fld_setBit _ _ _ _ (by decide)).trans hres,
    (f.fld_setBit _ _ _ _ (by decide)).trans hkind, rfl, ?_, ?_⟩
  · exact ((onlyRegs_secAsked c _).setFld _ _ _ _ (by decide)).setBit _ _ _ (by decide)
  · exact Keeps.withSec ((((keeps_secAsked c _).mono (by decide)).setFld _ _ _ _ (by decide)).setBit _ _ _ (by decide)) _
      (by decide)

/-- What a refused GO shows (R252). -/
theorem secRefused_clause (c : Chip) (kind : Nat) :
    let d := ((c.secAsked kind).setFld R.SEC_JOB_CTRL 26 24 2).fault 0x1A 3
    d.fld R.SEC_JOB_CTRL 26 24 = 2 ∧ d.bit (pFault 0x1A) 3 = true ∧
    RegsOnly [R.SEC_JOB_CTRL, pFault 0x1A, pIntStatus 0x1A] c d := by
  set f := (c.secAsked kind).setFld R.SEC_JOB_CTRL 26 24 2
  have hres : f.fld R.SEC_JOB_CTRL 26 24 = 2 := Chip.fld_setFld_self _ _ _ (by decide)
  refine ⟨(Chip.fld_of_reg _ (f.reg_fault _ _ _ (by decide) (by decide)) _ _).trans hres, f.bit_fault _ _ (by decide), ?_, ?_⟩
  · exact (((keeps_secAsked c kind).mono (by decide)).setFld _ _ _ _ (by decide)).fault _ _ (by decide) (by decide)
  · exact ((((onlyRegs_secAsked c kind).mono (by decide)).setFld _ _ _ _ (by decide))).fault _ _ (by decide) (by decide)

theorem exec_secJob (s : State) {row : Instr} {kind : Nat}
    (h : (row = .secSha256Job ∧ kind = 0) ∨ (row = .secCrc32cJob ∧ kind = 1) ∨ (row = .secImgVerifyJob ∧ kind = 2)) :
    exec row s = s.next (secGo s.chip kind) ∧ kind < 3 := by
  rcases h with ⟨rfl, rfl⟩ | ⟨rfl, rfl⟩ | ⟨rfl, rfl⟩ <;> exact ⟨rfl, by decide⟩

/-! ### The end of a job (R59, R252) -/

/-- The chip that has read a job's range, with the job gone and BUSY 0. -/
def Chip.secClosed (c : Chip) : Chip :=
  Chip.setBit { c with sec := { c.sec with job := none } } R.SEC_JOB_CTRL 30 false

/-- The chip with a job's outcome: the bytes read, whether a word carried poison, and the signature's check. -/
def Chip.secShown (c : Chip) (kind : Nat) (bs : List Byte) (bad good : Bool) : Chip :=
  if bad then c.setFld R.SEC_JOB_CTRL 26 24 3
  else if kind = 0 then (c.putDigest (sha256 bs)).setFld R.SEC_JOB_CTRL 26 24 1
  else if kind = 1 then (c.setReg (R.SEC_DIGEST 0) (crc32c bs)).setFld R.SEC_JOB_CTRL 26 24 1
  else (c.setFld R.SEC_JOB_CTRL 26 24 (if c.imageStep bs good = 0 then 1 else 4)).setFld R.SEC_JOB_CTRL 19 16
    (c.imageStep bs good)

theorem secJobDone_eq {j : SecJob} {bs : List Byte} {bad : Bool} (ha : c.alive = true) (hj : c.sec.job = some j)
    (hr : c.readRange j.src j.len = (bs, bad, e)) (good : Bool) :
    secJobDone c good = (e.secClosed.secShown j.kind bs bad good).raise 0x1A 0 := by
  unfold secJobDone
  rw [hj]
  dsimp only
  rw [if_neg (by simp [ha]), hr]
  rfl

theorem Chip.imageStep_lt (c : Chip) (bs : List Byte) (good : Bool) : c.imageStep bs good < 16 := by
  unfold Chip.imageStep Chip.headerStep
  dsimp only
  split_ifs <;> omega

theorem Chip.imageStep_secClosed (c : Chip) (bs : List Byte) (good : Bool) :
    c.secClosed.imageStep bs good = c.imageStep bs good := rfl

/-- The registers of a digest are distinct. -/
theorem secDigest_inj {i j : Nat} : R.SEC_DIGEST i = R.SEC_DIGEST j ↔ i = j := by
  unfold R.SEC_DIGEST
  omega

theorem secDigest_ne (i : Nat) {k : Nat} (h : k < 0x1A0A0) : R.SEC_DIGEST i ≠ k := by
  unfold R.SEC_DIGEST
  omega

/-- Words set in turn, each in its own register, read back. -/
theorem Chip.reg_setRegs {f : Nat → Nat} (hf : ∀ i j, f i = f j → i = j) (v : Nat → Word) (i : Nat) (l : List Nat) :
    ∀ c : Chip, (l.foldl (fun c i => Chip.setReg c (f i) (v i)) c).reg (f i) = if i ∈ l then v i else c.reg (f i) := by
  induction l with
  | nil => exact fun _ => rfl
  | cons j l ih =>
    intro c
    rw [List.foldl_cons, ih, Chip.reg_setReg]
    by_cases hij : i = j
    · simp [hij]
    · simp [hij, show f i ≠ f j from fun h => hij (hf i j h)]

theorem Chip.reg_putDigest (c : Chip) (h : BitVec 256) {i : Nat} (hi : i < 8) : (c.putDigest h).reg (R.SEC_DIGEST i) =
    BitVec.ofNat 32 (leAt (leBytes 32 h.toNat).reverse (4 * i) 4) := by
  unfold Chip.putDigest
  dsimp only
  rw [Chip.reg_setRegs (fun _ _ => secDigest_inj.1) (fun i => BitVec.ofNat 32 (leAt (leBytes 32 h.toNat).reverse (4 * i) 4)),
    if_pos (List.mem_range.2 hi)]

theorem keeps_secShown (c : Chip) (kind : Nat) (bs : List Byte) (bad good : Bool) :
    Keeps [.regs] c (c.secShown kind bs bad good) :=
  have h := Keeps.refl [.regs] c
  .ite (fun _ => h.setFld _ _ _ _ (by decide)) fun _ => .ite
    (fun _ => (Keeps.foldl _ _ (fun _ _ _ h => h.setReg _ _ (by decide)) h).setFld _ _ _ _ (by decide)) fun _ => .ite
    (fun _ => (h.setReg _ _ (by decide)).setFld _ _ _ _ (by decide)) fun _ =>
    (h.setFld _ _ _ _ (by decide)).setFld _ _ _ _ (by decide)

/-- The registers of a digest (R252). -/
def digestRegs : List Nat := (List.range 8).map R.SEC_DIGEST

theorem onlyRegs_putDigest (c : Chip) (h : BitVec 256) : OnlyRegs digestRegs c (c.putDigest h) := by
  unfold Chip.putDigest
  exact .foldl _ _ (fun _ _ hi h => h.setReg _ _ (List.mem_map_of_mem hi)) (.refl c _)

theorem onlyRegs_secShown (c : Chip) (kind : Nat) (bs : List Byte) (bad good : Bool) :
    OnlyRegs (R.SEC_JOB_CTRL :: digestRegs) c (c.secShown kind bs bad good) := by
  have h := OnlyRegs.refl c (R.SEC_JOB_CTRL :: digestRegs)
  exact .ite (fun _ => h.setFld _ _ _ _ (by decide)) fun _ => .ite
    (fun _ => ((onlyRegs_putDigest c _).mono fun _ => List.mem_cons_of_mem _).setFld _ _ _ _ (by decide)) fun _ => .ite
    (fun _ => (h.setReg _ _ (by decide)).setFld _ _ _ _ (by decide)) fun _ =>
    (h.setFld _ _ _ _ (by decide)).setFld _ _ _ _ (by decide)

/-- BUSY stands as the outcome is shown. -/
theorem Chip.busy_secShown (c : Chip) (kind : Nat) (bs : List Byte) (bad good : Bool) :
    (c.secShown kind bs bad good).bit R.SEC_JOB_CTRL 30 = c.bit R.SEC_JOB_CTRL 30 := by
  have hres (f : Chip) (n : Nat) : (f.setFld R.SEC_JOB_CTRL 26 24 n).bit R.SEC_JOB_CTRL 30 = f.bit R.SEC_JOB_CTRL 30 :=
    (f.bit_setFld _ _ _ _ (by decide)).trans (if_neg (by decide))
  unfold Chip.secShown
  split
  · exact hres c 3
  split
  · exact (hres _ 1).trans (c.bit_of_reg (onlyRegs_putDigest c _ _ (by decide)) 30)
  split
  · exact (hres _ 1).trans (c.bit_of_reg (c.reg_setReg_ne _ (by decide)) 30)
  · exact ((Chip.bit_setFld _ _ _ _ _ (by decide)).trans (if_neg (by decide))).trans (hres c _)

/-- What the end of a job shows of its range (R252). -/
theorem secShown_clause (c : Chip) (kind : Nat) (bs : List Byte) (bad good : Bool) :
    let d := c.secShown kind bs bad good
    (bad = true → d.fld R.SEC_JOB_CTRL 26 24 = 3 ∧ ∀ i < 8, d.reg (R.SEC_DIGEST i) = c.reg (R.SEC_DIGEST i)) ∧
    (bad = false → kind = 0 → d.fld R.SEC_JOB_CTRL 26 24 = 1 ∧ ∀ i < 8, d.reg (R.SEC_DIGEST i) =
      BitVec.ofNat 32 (leAt (leBytes 32 (sha256 bs).toNat).reverse (4 * i) 4)) ∧
    (bad = false → kind = 1 → d.fld R.SEC_JOB_CTRL 26 24 = 1 ∧ d.reg (R.SEC_DIGEST 0) = crc32c bs) ∧
    (bad = false → kind = 2 → d.fld R.SEC_JOB_CTRL 26 24 = (if c.imageStep bs good = 0 then 1 else 4) ∧
      d.fld R.SEC_JOB_CTRL 19 16 = c.imageStep bs good) := by
  intro d
  have hdig (f : Chip) (n i : Nat) : (f.setFld R.SEC_JOB_CTRL 26 24 n).reg (R.SEC_DIGEST i) = f.reg (R.SEC_DIGEST i) :=
    f.reg_setFld_ne _ _ _ (secDigest_ne i (by decide))
  have hres (f : Chip) {n : Nat} (hn : n < 8) : (f.setFld R.SEC_JOB_CTRL 26 24 n).fld R.SEC_JOB_CTRL 26 24 = n :=
    (f.fld_setFld_self _ _ (by decide)).trans (Nat.mod_eq_of_lt hn)
  refine ⟨?_, ?_, ?_, ?_⟩
  · rintro rfl
    exact ⟨hres c (by decide), fun i _ => hdig c 3 i⟩
  · rintro rfl rfl
    exact ⟨hres _ (by decide), fun i hi => (hdig _ 1 i).trans (c.reg_putDigest _ hi)⟩
  · rintro rfl rfl
    exact ⟨hres _ (by decide), (hdig _ 1 0).trans (c.reg_setReg_self _ _)⟩
  · rintro rfl rfl
    refine ⟨(Chip.fld_setFld_ne _ _ _ _ (by decide)).trans (hres c (by split <;> decide)), ?_⟩
    exact (Chip.fld_setFld_self _ _ _ (by decide)).trans (Nat.mod_eq_of_lt (c.imageStep_lt bs good))

/-- What SEC_JOB_DONE leaves (R252). -/
theorem secDone_clause {j : SecJob} {bs : List Byte} {bad : Bool} (hr : c.readRange j.src j.len = (bs, bad, e))
    (good : Bool) :
    let d := (e.secClosed.secShown j.kind bs bad good).raise 0x1A 0
    d.sec = { c.sec with job := none } ∧ d.bit R.SEC_JOB_CTRL 30 = false ∧ d.bit (pIntStatus 0x1A) 0 = true ∧
    (bad = true → d.fld R.SEC_JOB_CTRL 26 24 = 3 ∧ ∀ i < 8, d.reg (R.SEC_DIGEST i) = e.reg (R.SEC_DIGEST i)) ∧
    (bad = false → j.kind = 0 → d.fld R.SEC_JOB_CTRL 26 24 = 1 ∧ ∀ i < 8, d.reg (R.SEC_DIGEST i) =
      BitVec.ofNat 32 (leAt (leBytes 32 (sha256 bs).toNat).reverse (4 * i) 4)) ∧
    (bad = false → j.kind = 1 → d.fld R.SEC_JOB_CTRL 26 24 = 1 ∧ d.reg (R.SEC_DIGEST 0) = crc32c bs) ∧
    (bad = false → j.kind = 2 → d.fld R.SEC_JOB_CTRL 26 24 = (if e.imageStep bs good = 0 then 1 else 4) ∧
      d.fld R.SEC_JOB_CTRL 19 16 = e.imageStep bs good) ∧
    Keeps [.regs, .evr, .sec, .mem, .pwr] c d := by
  intro d
  set f := e.secClosed.secShown j.kind bs bad good with hf
  have hread : Keeps accessParts c e := by simpa only [hr] using (Keeps.refl accessParts c).readRange j.src j.len
  have hclosed : Keeps [.regs, .evr, .sec, .mem, .pwr] c e.secClosed :=
    ((hread.mono (by decide)).withSec _ (by decide)).setBit _ _ _ (by decide)
  have hsec : f.sec = { c.sec with job := none } := by
    have h1 : f.sec = e.secClosed.sec := (keeps_secShown e.secClosed _ _ _ _).sec (by decide)
    have h2 : e.secClosed.sec = { e.sec with job := none } := rfl
    rw [h1, h2, hread.sec (by decide)]
  have hreg {k : Nat} (hk : k ≠ pIntStatus 0x1A) : d.reg k = f.reg k := f.reg_raise_ne hk
  have hdig (i : Nat) : d.reg (R.SEC_DIGEST i) = f.reg (R.SEC_DIGEST i) := hreg (secDigest_ne i (by decide))
  have hfld (hi lo : Nat) : d.fld R.SEC_JOB_CTRL hi lo = f.fld R.SEC_JOB_CTRL hi lo := f.fld_of_reg (hreg (by decide)) hi lo
  have hopen (i : Nat) : e.secClosed.reg (R.SEC_DIGEST i) = e.reg (R.SEC_DIGEST i) :=
    Chip.reg_setBit_ne _ _ _ (secDigest_ne i (by decide))
  obtain ⟨hbad, hsha, hcrc, himg⟩ := secShown_clause e.secClosed j.kind bs bad good
  rw [Chip.imageStep_secClosed] at himg
  refine ⟨hsec, ?_, f.bit_raise _ _ (by decide), fun hb => ?_, fun hb hk => ?_, fun hb hk => ?_, fun hb hk => ?_, ?_⟩
  · exact (f.bit_of_reg (hreg (by decide)) 30).trans
      ((Chip.busy_secShown _ _ _ _ _).trans (Chip.bit_setBit_self _ _ _ _ (by decide)))
  · exact ⟨(hfld _ _).trans (hbad hb).1, fun i hi => (hdig i).trans (((hbad hb).2 i hi).trans (hopen i))⟩
  · exact ⟨(hfld _ _).trans (hsha hb hk).1, fun i hi => (hdig i).trans ((hsha hb hk).2 i hi)⟩
  · exact ⟨(hfld _ _).trans (hcrc hb hk).1, (hdig 0).trans (hcrc hb hk).2⟩
  · exact ⟨(hfld _ _).trans (himg hb hk).1, (hfld _ _).trans (himg hb hk).2⟩
  · exact ((hclosed.step (keeps_secShown _ _ _ _ _) (by decide))).raise _ _ (by decide) (by decide)

/-! ### The roots (R249) -/

theorem regDesc_rootInit : regDesc R.SEC_ROOT_INIT = some ⟨0xF00, 0, [⟨0, 0, .w1sd⟩]⟩ := by decide

theorem preWrite_rootInit_open (hd : c.diagOpen = true) : c.preWrite R.SEC_ROOT_INIT 1 = (c, 1) := by
  unfold Chip.preWrite
  simp only [regDesc_rootInit]
  simp [RegDesc.readOnly, Chip.writeMask, Chip.mayWrite, definedMask, mask, hd, R.SEC_ROOT_INIT]

theorem preWrite_rootInit_closed (hd : c.diagOpen = false) :
    c.preWrite R.SEC_ROOT_INIT 1 = (c.ignored 0x1A 1 0xF00, 0) := by
  unfold Chip.preWrite
  simp only [regDesc_rootInit]
  simp [RegDesc.readOnly, Chip.writeMask, Chip.mayWrite, definedMask, mask, hd, R.SEC_ROOT_INIT]

/-- Both roots drawn and written, each in its key group. -/
def Chip.rootsWritten (c : Chip) : Chip :=
  ((({ c with freeCtr := c.freeCtr + 2 } : Chip).writeKey 7 1 0 (Config.random 256 c.freeCtr)).writeKey 8 2 0
    (Config.random 256 (c.freeCtr + 1))).setBit R.SEC_STATUS 0 true

theorem secRootInit_manufacture (ha : c.alive = true) (he : c.effective = 1) (hf : c.jnl.failed = false)
    (hc : c.jnl.closed = false) : secRootInit c 1 = c.rootsWritten := by
  have hd : c.diagOpen = true := by simp [Chip.diagOpen, he]
  unfold secRootInit
  rw [if_neg (by simp [ha]), preWrite_rootInit_open hd]
  simp [he, hf, hc, Chip.rootsWritten, Chip.takeRandom]

theorem secRootInit_diagnostic (ha : c.alive = true) (he : c.effective = 3) : secRootInit c 1 = c.fault 0x1A 4 := by
  have hd : c.diagOpen = true := by simp [Chip.diagOpen, he]
  unfold secRootInit
  rw [if_neg (by simp [ha]), preWrite_rootInit_open hd]
  simp [he]

theorem secRootInit_closed (ha : c.alive = true) (hd : c.diagOpen = false) :
    secRootInit c 1 = c.ignored 0x1A 1 0xF00 := by
  unfold secRootInit
  rw [if_neg (by simp [ha]), preWrite_rootInit_closed hd]
  simp

/-! What the MRAM holds after a write of a key follows from what it held. -/

theorem mram_setMramWord (h : d.mram = c.mram) (i : Nat) (v : DWord) : (d.setMramWord i v).mram = (c.setMramWord i v).mram := by
  simp only [Chip.setMramWord, h]

theorem mram_writeSlot (h : d.mram = c.mram) (slot : Nat) (bs : List Byte) :
    (d.writeSlot slot bs).mram = (c.writeSlot slot bs).mram := by
  unfold Chip.writeSlot
  generalize List.range 8 = l
  induction l generalizing c d with
  | nil => exact h
  | cons j l ih => exact ih (mram_setMramWord h _ _)

theorem slotBytes_congr (h : d.mram = c.mram) (slot : Nat) : d.slotBytes slot = c.slotBytes slot := by
  simp only [Chip.slotBytes, Chip.mramWord, h]

theorem mram_writeGroup (h : d.mram = c.mram) (slot typ : Nat) (fs : List (Nat × Nat × Nat)) :
    (d.writeGroup slot typ fs).mram = (c.writeGroup slot typ fs).mram := by
  unfold Chip.writeGroup
  simp only [slotBytes_congr h]
  split
  · exact mram_writeSlot h _ _
  · exact mram_writeSlot h _ _

theorem mram_writeKey (h : d.mram = c.mram) (g kind set : Nat) (key : BitVec 256) :
    (d.writeKey g kind set key).mram = (c.writeKey g kind set key).mram :=
  mram_writeGroup (mram_writeGroup h _ _ _) _ _ _

/-- What the draw of the roots leaves (R249). -/
theorem rootsWritten_clause (c : Chip) :
    let d := c.rootsWritten
    d.bit R.SEC_STATUS 0 = true ∧ d.freeCtr = c.freeCtr + 2 ∧
    d.mram = ((c.writeKey 7 1 0 (Config.random 256 c.freeCtr)).writeKey 8 2 0 (Config.random 256 (c.freeCtr + 1))).mram ∧
    OnlyRegs [R.SEC_STATUS] c d ∧ Keeps [.regs, .mram, .freeCtr] c d := by
  unfold Chip.rootsWritten
  generalize Config.random 256 c.freeCtr = x, Config.random 256 (c.freeCtr + 1) = y
  obtain ⟨f, hf⟩ : ∃ f : Chip, f = { c with freeCtr := c.freeCtr + 2 } := ⟨_, rfl⟩
  have hctr : f.freeCtr = c.freeCtr + 2 := by rw [hf]
  have hmram : f.mram = c.mram := by rw [hf]
  have hfrom : Keeps [.freeCtr] c f := by rw [hf]; exact (Keeps.refl _ c).withFreeCtr _ (by decide)
  rw [← hf]
  have hk : Keeps [.mram] f ((f.writeKey 7 1 0 x).writeKey 8 2 0 y) :=
    ((Keeps.refl _ f).writeKey _ _ _ _ (by decide)).writeKey _ _ _ _ (by decide)
  have hm := mram_writeKey (mram_writeKey hmram 7 1 0 x) 8 2 0 y
  generalize (f.writeKey 7 1 0 x).writeKey 8 2 0 y = g at hk hm ⊢
  have hr : OnlyRegs [R.SEC_STATUS] c g := fun k _ => (hk.reg (by decide) k).trans (hfrom.reg (by decide) k)
  exact ⟨Chip.bit_setBit_self _ _ _ _ (by decide), (hk.freeCtr (by decide)).trans hctr, hm, hr.setBit _ _ _ (by decide),
    ((hfrom.mono (by decide)).step hk (by decide)).setBit _ _ _ (by decide)⟩

/-- What INIT in DIAGNOSTIC, or where the life cycle closes it, leaves (R94, R249). -/
theorem rootIgnored_clause (c : Chip) :
    let d := c.ignored 0x1A 1 0xF00
    d.bit (pFault 0x1A) 1 = true ∧ d.fld (pFault 0x1A) 31 20 = 0xF00 ∧ RegsOnly [pFault 0x1A, pIntStatus 0x1A] c d :=
  ⟨c.bit_ignored _ _ (by decide), c.fld_ignored _ _ (by decide), (Keeps.refl _ c).ignored _ _ _ (by decide) (by decide),
    (OnlyRegs.refl c _).ignored _ _ _ (by decide) (by decide)⟩

/-- Settles O43: each command leaves the chip that the lemmas above name, by whether its range may be read, by what was
read, and by the life cycle. -/
theorem secJobsHashCheckAndDrawRoots : Obligations.SecJobsHashCheckAndDrawRoots := by
  refine ⟨fun s row kind ha hrow => ?_, fun s good j bs bad e ha hj hr => ?_, fun s ha => ⟨?_, ?_, ?_⟩⟩
  · obtain ⟨hexec, hkind⟩ := exec_secJob s hrow
    refine ⟨fun hj hn hm => ?_, fun h => ?_⟩
    · exact completes_unpinned hexec (secGo_starts ha hkind.ne rfl rfl hj hn hm)
        (secStarted_clause s.chip ⟨kind, _, _⟩ (Nat.lt_succ_of_lt hkind)) fun _ h => h
    · exact completes_unpinned hexec (secGo_refused ha rfl rfl h) (secRefused_clause s.chip kind) fun _ h => h
  · exact completes_unpinned rfl (secJobDone_eq ha hj hr good) (secDone_clause hr good) fun _ h => h
  · exact fun he hf hc => completes_unpinned rfl (secRootInit_manufacture ha he hf hc) (rootsWritten_clause s.chip)
      fun _ h => h
  · exact fun he => completes_unpinned rfl (secRootInit_diagnostic ha he)
      ⟨s.chip.bit_fault _ _ (by decide), regsOnly_fault s.chip _ _⟩ fun _ h => h
  · exact fun hd => completes_unpinned rfl (secRootInit_closed ha hd) (rootIgnored_clause s.chip) fun _ h => h

end Sys2Proof.Machine
end

section
/-! ## Cleaning jobs queued, begun and copied (R226, R228 to R232, R237, R240, R246, R248, O42) -/

namespace Sys2Proof.Machine

open Sys2Proof

variable {c d e : Chip} {ps : List ChipPart} {ks : List Nat} {a : Act} {j : Job}

/-! ### Where band cleaning stops (R240, R476) -/

/-- Where band cleaning stops each of its commands but GO leaves the chip. -/
theorem exec_bclStopped {s : State} (hs : s.chip.bclStops = true) {band : Nat} {row : Instr}
    (hrow : row = .bclAutoSelect a ∨ row = .bclJobBegin a ∨ (∃ l t u, row = .bclCopyDone a l t u) ∨
      (∃ g, row = .bclVerifyDone a g) ∨ (∃ f, row = .bclJobAbandon a f) ∨ row = .bandRelease a band ∨
      row = .bclOverwriteDone a band ∨ row = .stalePurge a ∨ row = .secureDiscardDone) :
    exec row s = s.done s.chip := by
  have hc : s.chip.cleans a = false := by simp [Chip.cleans, hs]
  rcases hrow with rfl | rfl | ⟨l, t, u, rfl⟩ | ⟨g, rfl⟩ | ⟨f, rfl⟩ | rfl | rfl | rfl | rfl
  · exact congrArg s.done (if_pos (by simp [hc]))
  · exact congrArg s.done (if_pos (by simp [hc]))
  all_goals exact congrArg s.done (if_pos (by simp [hs]))

/-! ### Jobs and queues -/

@[simp] theorem Chip.job_setJob (c : Chip) (a : Act) (o : Option Job) : (c.setJob a o).bcl.job a = o := by cases a <;> rfl

@[simp] theorem Chip.queue_setQueue (c : Chip) (a : Act) (q : List Job) : (c.setQueue a q).bcl.queue a = q := by
  cases a <;> rfl

theorem Keeps.setJob (h : Keeps ps c d) (a : Act) (o : Option Job) (hb : .bcl ∈ ps) : Keeps ps c (d.setJob a o) :=
  h.withBcl _ hb

theorem Chip.queueJob_free (hb : c.jobBars j.zone j.reason = false) (hm : c.mayClean j.zone = true)
    (hl : (c.bcl.queue (zoneAct j.zone)).length < 64) :
    c.queueJob j = c.setQueue (zoneAct j.zone) (insertJob (c.bcl.queue (zoneAct j.zone)) j) := by
  unfold Chip.queueJob
  rw [if_neg (by simp [hb, hm])]
  exact if_neg (by omega)

/-! ### GO (R246) -/

theorem Chip.jobResult_lt (c : Chip) (zone ann : Nat) : c.jobResult zone ann < 8 := by
  unfold Chip.jobResult
  split_ifs <;> decide

/-- RESULT 1 says that every check passes. -/
theorem Chip.jobResult_one {zone ann : Nat} (h : c.jobResult zone ann = 1) :
    c.mayClean zone = true ∧ c.inJob zone = false ∧ (c.bcl.queue (zoneAct zone)).length < 64 := by
  unfold Chip.jobResult at h
  split_ifs at h with hmode hann hm hj hl
  case neg => exact ⟨by simpa using hm, by simpa using hj, by omega⟩
  all_goals exact absurd h (by decide)

/-- A host's job is barred where its zone is in a job. -/
theorem Chip.jobBars_submitted (c : Chip) (zone : Nat) : c.jobBars zone 1 = c.inJob zone := by
  simp [Chip.jobBars, Chip.inJob]

theorem bclJobGo_queues (ha : c.alive = true)
    (h : c.jobResult (c.fld R.BCL_JOB_ZONE 18 0) (c.fld R.BCL_JOB_CTRL 7 4) = 1) :
    let zone := c.fld R.BCL_JOB_ZONE 18 0
    bclJobGo c = (c.setFld R.BCL_JOB_CTRL 11 9 1).setQueue (zoneAct zone)
      (insertJob (c.bcl.queue (zoneAct zone)) { zone := zone, reason := 1, ann := c.fld R.BCL_JOB_CTRL 7 4 }) := by
  intro zone
  obtain ⟨hm, hj, hl⟩ := Chip.jobResult_one h
  unfold bclJobGo
  rw [if_neg (by simp [ha])]
  dsimp only
  rw [if_pos h, h]
  exact Chip.queueJob_free (c := c.setFld R.BCL_JOB_CTRL 11 9 1) ((c.jobBars_submitted zone).trans hj) hm hl

theorem bclJobGo_refused (ha : c.alive = true)
    (h : c.jobResult (c.fld R.BCL_JOB_ZONE 18 0) (c.fld R.BCL_JOB_CTRL 7 4) ≠ 1) :
    bclJobGo c = c.setFld R.BCL_JOB_CTRL 11 9
      (c.jobResult (c.fld R.BCL_JOB_ZONE 18 0) (c.fld R.BCL_JOB_CTRL 7 4)) := by
  unfold bclJobGo
  rw [if_neg (by simp [ha])]
  exact if_neg h

/-- What GO shows and queues (R246). -/
theorem bclJobGo_clause (ha : c.alive = true) :
    let zone := c.fld R.BCL_JOB_ZONE 18 0
    let ann := c.fld R.BCL_JOB_CTRL 7 4
    let d := bclJobGo c
    d.fld R.BCL_JOB_CTRL 11 9 = c.jobResult zone ann ∧ OnlyRegs [R.BCL_JOB_CTRL] c d ∧
    (c.jobResult zone ann = 1 → d.bcl.queue (zoneAct zone) =
      insertJob (c.bcl.queue (zoneAct zone)) { zone := zone, reason := 1, ann := ann }) ∧
    (c.jobResult zone ann ≠ 1 → d.bcl = c.bcl) ∧ Keeps [.regs, .bcl] c d := by
  intro zone ann d
  obtain ⟨f, hf⟩ : ∃ f, f = c.setFld R.BCL_JOB_CTRL 11 9 (c.jobResult zone ann) := ⟨_, rfl⟩
  have hres : f.fld R.BCL_JOB_CTRL 11 9 = c.jobResult zone ann := by
    rw [hf, Chip.fld_setFld_self _ _ _ (by decide)]
    exact Nat.mod_eq_of_lt (c.jobResult_lt zone ann)
  have hregs : OnlyRegs [R.BCL_JOB_CTRL] c f := by rw [hf]; exact (OnlyRegs.refl c _).setFld _ _ _ _ (by decide)
  have hkeep : Keeps [.regs, .bcl] c f := by rw [hf]; exact (Keeps.refl _ c).setFld _ _ _ _ (by decide)
  by_cases h : c.jobResult zone ann = 1
  · have hd : d = f.setQueue (zoneAct zone) (insertJob (c.bcl.queue (zoneAct zone)) { zone := zone, reason := 1, ann := ann }) := by
      rw [hf, h]
      exact bclJobGo_queues ha h
    have hk := (Keeps.refl [.bcl] f).setQueue (zoneAct zone)
      (insertJob (c.bcl.queue (zoneAct zone)) { zone := zone, reason := 1, ann := ann }) (by decide)
    rw [hd]
    exact ⟨(Chip.fld_of_reg _ (hk.reg (by decide) _) _ _).trans hres, hregs.trans fun k _ => hk.reg (by decide) k,
      fun _ => Chip.queue_setQueue _ _ _, fun hn => absurd h hn, hkeep.step hk (by decide)⟩
  · have hd : d = f := hf ▸ bclJobGo_refused ha h
    rw [hd]
    exact ⟨hres, hregs, fun h1 => absurd h1 h, fun _ => by rw [hf]; rfl, hkeep⟩

/-! ### Automatic selection (R225, R226) -/

section
variable (hc : c.cleans a = true) (hj : c.bcl.job a = none) (hq : c.bcl.queue a = [])
include hc hj hq

/-- Hot map pressure comes before free-band pressure. -/
theorem bclAutoSelect_hot {i : Nat} (hh : (c.bit (pIntStatus 0x18) 0 || c.bit (pIntStatus 0x18) 1) = true)
    (hv : c.hotVictim a = some i) : bclAutoSelect c a = c.queueJob { zone := i, reason := 3 } := by
  simp [bclAutoSelect, hc, hj, hq, hh, hv]

theorem bclAutoSelect_low {i : Nat} (hh : (c.bit (pIntStatus 0x18) 0 || c.bit (pIntStatus 0x18) 1) = false)
    (hl : c.fld R.BCL_AUTO 15 0 ≠ 0 ∧ c.freeCount a ≤ c.fld R.BCL_AUTO 15 0) (hv : c.freeVictim a = some i) :
    bclAutoSelect c a = c.queueJob { zone := i, reason := 0 } := by
  simp [bclAutoSelect, hc, hj, hq, hh, hl, hv]

theorem bclAutoSelect_idle (hh : (c.bit (pIntStatus 0x18) 0 || c.bit (pIntStatus 0x18) 1) = false)
    (hl : ¬(c.fld R.BCL_AUTO 15 0 ≠ 0 ∧ c.freeCount a ≤ c.fld R.BCL_AUTO 15 0)) : bclAutoSelect c a = c := by
  simp [bclAutoSelect, hc, hj, hq, hh, hl]

end

/-! ### A job begins (R228, R229, R237, R248) -/

section
variable {js : List Job} (hc : c.cleans a = true) (hw : c.mustWait .bcl = false) (hj : c.bcl.job a = none)
  (hq : c.bcl.queue a = j :: js)
include hc hw hj hq

theorem bclJobBegin_drops (hm : c.mayClean j.zone = false) : bclJobBegin c a = c.setQueue a js := by
  simp [bclJobBegin, hc, hw, hj, hq, hm]

theorem bclJobBegin_unsettled (hm : c.mayClean j.zone = true) (hs : c.sourceSettled j.zone = false) :
    bclJobBegin c a = c := by
  simp [bclJobBegin, hc, hw, hj, hq, hm, hs]

theorem bclJobBegin_begins (hm : c.mayClean j.zone = true) (hs : c.sourceSettled j.zone = true) :
    bclJobBegin c a = (c.setQueue a js).beginJob a { j with maxRestart := c.fld R.BCL_PACE 9 8 } := by
  simp [bclJobBegin, hc, hw, hj, hq, hm, hs]

end

theorem OpFrame.bumpJob (h : OpFrame c d) (a : Act) : OpFrame c (d.bumpJob a) := by
  cases a <;> exact h.setBcl _

theorem OpFrame.beginJob (h : OpFrame c d) (a : Act) (j : Job) : OpFrame c (d.beginJob a j) := by
  unfold Chip.beginJob
  dsimp only
  refine .ite (fun _ => (h.setJob _ _).makeReadOnly _) fun _ => .ite (fun _ => h.setJob _ _) fun _ => ?_
  split
  · exact h.setJob _ _
  · exact (((h.setJob _ _).bumpJob _).takeRandom _).commit _ _ _

/-- A destination given, BEGIN is written with the source as the zone names it (R228). -/
theorem Chip.beginJob_begins {k : Nat} {b : Band} (hr : j.reason ≠ 2) (hl : c.lostNow a = false)
    (hk : (if j.reason = 6 then c.pickMigration a (c.jobAnn j) else c.pickBand a (some (c.jobAnn j)) false true) = some k)
    (hb : c.band k = some b) :
    let f := (c.setJob a (some j)).bumpJob a
    c.beginJob a j = (f.takeRandom 128).2.commit .bcl [.bclBegin j.zone (c.zone j.zone).gen
      (jobFlags j.reason (c.secureRelease j.zone) false false false) (c.bcl.nextJob a)
      ((c.bandOfZone j.zone).getD 0) k b.ann (f.takeRandom 128).1] [] := by
  intro f
  have hz : (f.zone j.zone).gen = (c.zone j.zone).gen := by cases a <;> rfl
  unfold Chip.beginJob
  dsimp only
  rw [if_neg (by simp [hr]), if_neg (by simp [hl]), hk]
  dsimp only
  rw [hb]
  exact congrArg (fun g => (f.takeRandom 128).2.commit .bcl [.bclBegin j.zone g _ _ _ _ _ _] []) hz

/-! ### The end of the copy (R229, R230, R232) -/

/-- The units lost are noted, counted and raise their cause. -/
def Chip.lostUnits (c : Chip) (zone : Nat) (us : List Nat) : Chip := us.foldl (fun c u => c.lostUnit zone u) c

/-- The registers of lost units (R232, R526). -/
def lostRegs : List Nat := R.BCL_LOST_UNITS :: pIntStatus 0x19 :: dropRegs

theorem keeps_lostUnit (c : Chip) (zone u : Nat) : Keeps [.regs, .evr, .pwr] c (c.lostUnit zone u) :=
  (((Keeps.refl _ c).event _ _ (by decide) (by decide) (by decide)).bump _ (by decide)).raise _ _ (by decide) (by decide)

theorem onlyRegs_lostUnit (c : Chip) (zone u : Nat) : OnlyRegs lostRegs c (c.lostUnit zone u) :=
  (((OnlyRegs.refl c _).event _ _ (by decide) (by decide)).addSat _ _ (by decide)).raise _ _ (by decide)

theorem Chip.reg_lostUnit (c : Chip) (zone u : Nat) : (c.lostUnit zone u).reg R.BCL_LOST_UNITS =
    BitVec.ofNat 32 (min ((c.reg R.BCL_LOST_UNITS).toNat + 1) 0xFFFFFFFF) := by
  unfold Chip.lostUnit
  rw [Chip.reg_raise_ne _ (by decide), Chip.bump, Chip.reg_addSat, if_pos rfl, Chip.reg_event _ _ _ _ (by decide) (by decide)]

theorem keeps_lostUnits (c : Chip) (zone : Nat) (us : List Nat) : Keeps [.regs, .evr, .pwr] c (c.lostUnits zone us) :=
  Keeps.foldl _ _ (fun d u _ h => h.trans (keeps_lostUnit d zone u)) (.refl _ c)

theorem onlyRegs_lostUnits (c : Chip) (zone : Nat) (us : List Nat) : OnlyRegs lostRegs c (c.lostUnits zone us) :=
  OnlyRegs.foldl _ _ (fun d u _ h => h.trans (onlyRegs_lostUnit d zone u)) (.refl c _)

/-- The count of lost units saturates. -/
theorem Chip.reg_lostUnits (zone : Nat) (us : List Nat) : ∀ c : Chip, (c.lostUnits zone us).reg R.BCL_LOST_UNITS =
    BitVec.ofNat 32 (min ((c.reg R.BCL_LOST_UNITS).toNat + us.length) 0xFFFFFFFF) := by
  induction us with
  | nil =>
    intro c
    have := (c.reg R.BCL_LOST_UNITS).isLt
    refine BitVec.eq_of_toNat_eq ?_
    rw [BitVec.toNat_ofNat]
    change (c.reg R.BCL_LOST_UNITS).toNat = _
    simp only [List.length_nil]
    omega
  | cons u us ih =>
    intro c
    rw [Chip.lostUnits, List.foldl_cons, ← Chip.lostUnits, ih, Chip.reg_lostUnit, BitVec.toNat_ofNat, List.length_cons]
    congr 1
    omega

/-- A lost unit's cause stands. -/
theorem Chip.bit_lostUnits (zone : Nat) (us : List Nat) : ∀ c : Chip, c.bit (pIntStatus 0x19) 2 = true ∨ us ≠ [] →
    (c.lostUnits zone us).bit (pIntStatus 0x19) 2 = true := by
  induction us with
  | nil => exact fun c h => h.resolve_right (fun h => h rfl)
  | cons u us ih => exact fun c _ => ih _ (.inl (Chip.bit_raise _ _ _ (by decide)))

section
variable {lost : List Nat} (ha : c.alive = true) (hs : c.bclStops = false) (hl : c.lostNow a = false)
  (hj : c.bcl.job a = some j) (hn : j.abandon = none) (hst : j.state = .copy) (hp : c.poisonedCopies j = [])
include ha hs hl hj hn hst hp

theorem bclCopyDone_waits (tmin tmax : Nat) (hu : c.uncopied j (lost.filter (fun u => decide (u < j.snapMwp))) ≠ []) :
    bclCopyDone c a lost tmin tmax = c := by
  simp [bclCopyDone, ha, hs, hl, hj, hn, hst, hp, hu]

theorem bclCopyDone_ends (tmin tmax : Nat) (hu : c.uncopied j (lost.filter (fun u => decide (u < j.snapMwp))) = []) :
    let mine := lost.filter (fun u => decide (u < j.snapMwp))
    bclCopyDone c a lost tmin tmax = (c.lostUnits j.zone mine).setJob a (some { j with
      state := .verify, lost := mine.length, copied := [], tmin := tmin % 256, tmax := tmax % 256 }) := by
  simp [bclCopyDone, ha, hs, hl, hj, hn, hst, hp, hu, Chip.lostUnits]

end

/-- What the end of a copy leaves (R230, R232). -/
theorem copied_clause (c : Chip) (a : Act) (zone : Nat) (mine : List Nat) (k : Job) :
    let d := (c.lostUnits zone mine).setJob a (some k)
    d.bcl.job a = some k ∧
    d.reg R.BCL_LOST_UNITS = BitVec.ofNat 32 (min ((c.reg R.BCL_LOST_UNITS).toNat + mine.length) 0xFFFFFFFF) ∧
    (mine ≠ [] → d.bit (pIntStatus 0x19) 2 = true) ∧
    OnlyRegs lostRegs c d ∧ Keeps [.regs, .evr, .bcl, .pwr] c d :=
  ⟨Chip.job_setJob _ _ _, c.reg_lostUnits zone mine, fun h => c.bit_lostUnits zone mine (.inr h),
    onlyRegs_lostUnits c zone mine, ((keeps_lostUnits c zone mine).mono (by decide)).setJob _ _ (by decide)⟩

end Sys2Proof.Machine
end

section
/-! ## Cleaning jobs verified, committed and abandoned (R176, R228, R231, R233, R235 to R237, O42) -/

namespace Sys2Proof.Machine

open Sys2Proof

variable {c d e : Chip} {ps : List ChipPart} {ks : List Nat} {a : Act} {j : Job}

/-! ### The registers that a job's records reach -/

/-- The registers that the commit of a job and the records of its migration may change: the journal's and the
cleaning's causes, and the counts of waits and of migrated values. -/
def jobRecRegs : List Nat := [pIntStatus 0x05, pIntStatus 0x19, R.JNL_WAIT_CNT, R.SEG_MIGRATED]

/-- A record that ends a cleaning job: its commit, or one of its migration. -/
def Rec.endsJob : Rec → Bool
  | .bclCommit _ _ _ _ _ _ _ _ _ _ _ _ _ _ => true
  | .segMigrate _ _ _ _ _ _ _ _ => true
  | _ => false

namespace OnlyRegs

/-- A change of tables alone. -/
theorem tables (h : OnlyRegs ks c d) {e : Chip} (g : e.regs = d.regs) : OnlyRegs ks c e := h.trans (.of_regs g)

theorem setLoc (h : OnlyRegs ks c d) (x : Loc) : OnlyRegs ks c { d with loc := x } := h

theorem setZone (h : OnlyRegs ks c d) (i : Nat) (z : Zone) : OnlyRegs ks c (d.setZone i z) := h.tables rfl

theorem mapBand (h : OnlyRegs ks c d) (k : Nat) (f : Band → Band) : OnlyRegs ks c (d.mapBand k f) := h.tables rfl

theorem unmapBand (h : OnlyRegs ks c d) (k reason : Nat) (secure : Bool) (number nsid : Nat) :
    OnlyRegs ks c (d.unmapBand k reason secure number nsid) := h.tables rfl

theorem discardUnmapped (h : OnlyRegs ks c d) (i k : Nat) : OnlyRegs ks c (d.discardUnmapped i k) := h.tables rfl

theorem markStale (h : OnlyRegs jobRecRegs c d) (a : Act) (n : Nat) : OnlyRegs jobRecRegs c (d.markStale a n) :=
  .ite (fun _ => (h.tables (by rfl)).raise 0x19 3 (by decide)) fun _ => h.tables rfl

theorem hotRemove (h : OnlyRegs jobRecRegs c d) (zone unit : Nat) : OnlyRegs jobRecRegs c (d.hotRemove zone unit) := by
  unfold Chip.hotRemove
  split
  · exact h
  · next x _ =>
    dsimp only
    have h1 : OnlyRegs jobRecRegs c { d with loc := { d.loc with hot := d.loc.hot.erase (unitKey zone unit) } } := h.tables rfl
    have h2 := ite (p := x.kind = 1) (fun _ => h1.markStale (zoneAct zone) x.csec) fun _ => h1
    exact .ite (fun _ => h2.setZone _ _) fun _ => h2

theorem hotClearZone (h : OnlyRegs jobRecRegs c d) (i : Nat) : OnlyRegs jobRecRegs c (d.hotClearZone i) :=
  foldl _ _ (fun _ _ _ h => h.hotRemove _ _) h

theorem emptyZone (h : OnlyRegs jobRecRegs c d) (i gen : Nat) : OnlyRegs jobRecRegs c (d.emptyZone i gen) := by
  unfold Chip.emptyZone
  dsimp only
  refine setZone (setLoc (hotClearZone ?_ i) _) _ _
  split
  · exact (h.unmapBand _ _ _ _ _).discardUnmapped _ _
  · exact h

theorem queueJob (h : OnlyRegs jobRecRegs c d) (k : Job) : OnlyRegs jobRecRegs c (d.queueJob k) :=
  .ite (fun _ => h) fun _ => .ite (fun _ => h.raise 0x19 4 (by decide)) fun _ =>
    h.tables (by cases zoneAct k.zone <;> rfl)

theorem dropExtent (h : OnlyRegs jobRecRegs c d) (x : Extent) : OnlyRegs jobRecRegs c (d.dropExtent x) :=
  .ite (fun _ => h.emptyZone _ _) fun _ => .ite (fun _ => (h.setZone _ _).queueJob _) fun _ => h.setZone _ _

theorem apply_bclCommit (h : OnlyRegs jobRecRegs c d) {i g f n s k ann m l x y wt t0 t1 : Nat} :
    OnlyRegs jobRecRegs c (d.applyRec (.bclCommit i g f n s k ann m l x y wt t0 t1)) := by
  unfold Chip.applyRec
  dsimp only
  refine .ite (fun _ => h) fun _ => (((OnlyRegs.setZone (foldl _ _ (fun e x _ he => ?_) h) _ _).mapBand _ _).unmapBand _ _ _ _ _).discardUnmapped _ _
  split
  · exact .ite (fun _ => he.hotRemove _ _) fun _ => he
  · exact he

theorem apply_segMigrate (h : OnlyRegs jobRecRegs c d) {key : List Byte} {i oz o z fi g n : Nat} :
    OnlyRegs jobRecRegs c (d.applyRec (.segMigrate key i oz o z fi g n)) := by
  unfold Chip.applyRec
  dsimp only
  split
  · exact h
  · exact .ite (fun _ => h) fun _ => tables ((h.setZone _ _).dropExtent _) rfl

theorem applyRec_endsJob (h : OnlyRegs jobRecRegs c d) {r : Rec} (hr : r.endsJob = true) :
    OnlyRegs jobRecRegs c (d.applyRec r) := by
  cases r with
  | bclCommit => exact h.apply_bclCommit
  | segMigrate => exact h.apply_segMigrate
  | _ => cases hr

theorem applyRecs_endsJob (h : OnlyRegs jobRecRegs c d) {rs : List Rec} (hr : ∀ r ∈ rs, r.endsJob = true) :
    OnlyRegs jobRecRegs c (d.applyRecs rs) := by
  unfold Chip.applyRecs
  split
  · exact absurd (hr _ List.mem_cons_self) (by simp [Rec.endsJob])
  · exact foldl _ _ (fun e r hm he => he.applyRec_endsJob (hr r hm)) h

theorem repaged (c before : Chip) : OnlyRegs ks c (c.repaged before) := by
  unfold Chip.repaged
  refine .ite (fun _ => foldl _ _ (fun _ _ _ h => .ite (fun _ => h.tables rfl) fun _ => h) (.refl c _)) fun _ => .refl c _

end OnlyRegs

theorem onlyRegs_commitNow_endsJob (c : Chip) (src : JnlSource) {rs : List Rec} (hr : ∀ r ∈ rs, r.endsJob = true) :
    OnlyRegs jobRecRegs c (c.commitNow ⟨src, rs, []⟩) := by
  have h1 : OnlyRegs jobRecRegs c ((c.appendRecs rs).applyOp rs) :=
    (((OnlyRegs.refl c _).appendRecs rs (by decide)).applyRecs_endsJob hr).trans (.repaged _ _)
  unfold Chip.commitNow
  dsimp only
  refine OnlyRegs.trans ?_ ((onlyRegs_maybeCkpt _).mono (by decide))
  split
  · exact absurd (hr _ List.mem_cons_self) (by simp [Rec.endsJob])
  · exact absurd (hr _ List.mem_cons_self) (by simp [Rec.endsJob])
  · exact h1

theorem onlyRegs_waitOp (c : Chip) (op : JnlOp) : OnlyRegs [R.JNL_WAIT_CNT] c (c.waitOp op) :=
  .ite (fun _ => ((OnlyRegs.refl c _).tables (by rfl)).addSat _ _ (by decide)) fun _ => .of_regs rfl

theorem onlyRegs_commit_endsJob (c : Chip) (src : JnlSource) {rs : List Rec} (hr : ∀ r ∈ rs, r.endsJob = true) :
    OnlyRegs jobRecRegs c (c.commit src rs []) :=
  have hn := onlyRegs_commitNow_endsJob c src hr
  .ite (fun _ => .ite (fun _ => hn) fun _ => .refl c _) fun _ => .ite
    (fun _ => (onlyRegs_waitOp c _).mono (by decide)) fun _ => hn

/-! ### The verify and the commit (R176, R231, R233) -/

theorem Chip.migrated_other (hr : j.reason ≠ 6) : c.migrated j = c := if_pos hr

/-- The records of a migration (R176). -/
def Chip.migrateRecs (c : Chip) (j : Job) (v : Value) : List Rec :=
  (v.extents.zipIdx).filterMap (fun e => if e.1.zone = j.zone then
    some (Rec.segMigrate j.key e.2 j.zone e.1.first j.zone e.1.first (c.zone j.zone).gen e.1.count) else none)

/-- A migration commits its value's records, where there are any. -/
theorem Chip.migrated_or (c : Chip) (j : Job) : c.migrated j = c ∨
    ∃ v, c.migrated j = (c.commit .seg (c.migrateRecs j v) []).bump R.SEG_MIGRATED := by
  unfold Chip.migrated
  split
  · exact .inl rfl
  split
  · exact .inl rfl
  · next v _ =>
    dsimp only
    split
    · exact .inl rfl
    · exact .inr ⟨v, rfl⟩

theorem migrateRecs_endsJob {v : Value} : ∀ r ∈ c.migrateRecs j v, r.endsJob = true := by
  intro r hr
  obtain ⟨e, _, he⟩ := List.mem_filterMap.1 hr
  split at he
  · cases he; rfl
  · cases he

theorem onlyRegs_migrated (c : Chip) (j : Job) : OnlyRegs jobRecRegs c (c.migrated j) := by
  obtain h | ⟨v, h⟩ := c.migrated_or j
  · rw [h]; exact .refl c _
  · rw [h]; exact (onlyRegs_commit_endsJob c _ migrateRecs_endsJob).addSat _ _ (by decide)

theorem keeps_migrated (c : Chip) (j : Job) : Keeps commitParts c (c.migrated j) := by
  obtain h | ⟨v, h⟩ := c.migrated_or j
  · rw [h]; exact .refl _ c
  · rw [h]; exact ((Keeps.refl _ c).commit _ _ _).bump _ (by decide)

/-- The record of a job's commit (R238). -/
def Chip.jobCommit (c : Chip) (j : Job) : Rec :=
  .bclCommit j.zone (c.zone j.zone).gen (jobFlags j.reason (c.secureRelease j.zone) false false false) j.number j.src
    j.dst j.dstAnn j.snapMwp (c.liveAfter j) (c.mergedHot j).length j.lost j.wtime j.tmin j.tmax

/-- A job once it has committed: its source waits for release. -/
def Chip.committedJob (c : Chip) (j : Job) : Job := { j with state := .release, secure := c.secureRelease j.zone }

section
variable (ha : c.alive = true) (hs : c.bclStops = false) (hl : c.lostNow a = false) (hj : c.bcl.job a = some j)
  (hn : j.abandon = none) (hst : j.state = .verify)
include ha hs hl hj hn hst

theorem bclVerifyDone_failed : bclVerifyDone c a false = c.abandonJob a true := by
  simp [bclVerifyDone, ha, hs, hl, hj, hn, hst]

theorem bclVerifyDone_partial (hu : ∃ u < j.snapMwp, u ∉ j.copied) : bclVerifyDone c a true = c := by
  simp [bclVerifyDone, ha, hs, hl, hj, hn, hst, hu]

theorem bclVerifyDone_waits (hu : ∀ u < j.snapMwp, u ∈ j.copied) (hw : c.mustWaitFor .bcl 1 = true) :
    bclVerifyDone c a true = c.setJob a (some { j with state := .commit }) := by
  have hall : (List.range j.snapMwp).all j.copied.contains = true := by simpa using hu
  unfold bclVerifyDone
  rw [if_neg (by simp [ha, hs, hl]), hj]
  dsimp only
  rw [if_neg (by simp [hst, hn]), if_neg (by simp), if_neg (by rw [hall]; decide)]
  exact if_pos hw

theorem bclVerifyDone_commits (hu : ∀ u < j.snapMwp, u ∈ j.copied) (hw : c.mustWaitFor .bcl 1 = false) :
    bclVerifyDone c a true =
      (((c.commit .bcl [c.jobCommit j] []).setJob a (some (c.committedJob j))).bump R.BCL_JOBS_DONE).migrated j := by
  have hall : (List.range j.snapMwp).all j.copied.contains = true := by simpa using hu
  unfold bclVerifyDone
  rw [if_neg (by simp [ha, hs, hl]), hj]
  dsimp only
  rw [if_neg (by simp [hst, hn]), if_neg (by simp), if_neg (by rw [hall]; decide)]
  exact if_neg (by rw [hw]; decide)

end

/-- What the commit of a job leaves (R231, R233). -/
theorem jobCommitted_clause (c : Chip) (a : Act) (j : Job) :
    let d := (((c.commit .bcl [c.jobCommit j] []).setJob a (some (c.committedJob j))).bump R.BCL_JOBS_DONE).migrated j
    d.reg R.BCL_JOBS_DONE = BitVec.ofNat 32 (min ((c.reg R.BCL_JOBS_DONE).toNat + 1) 0xFFFFFFFF) ∧
    (j.reason ≠ 6 → d.bcl.job a = some (c.committedJob j)) ∧ Keeps commitParts c d := by
  have hrec : ∀ r ∈ [c.jobCommit j], r.endsJob = true := fun r hr => List.mem_singleton.1 hr ▸ rfl
  have hregs := onlyRegs_commit_endsJob c .bcl hrec
  have hkeep := (Keeps.refl commitParts c).commit .bcl [c.jobCommit j] []
  generalize c.commit .bcl [c.jobCommit j] [] = f at hregs hkeep ⊢
  obtain ⟨g, hg⟩ : ∃ g, g = (f.setJob a (some (c.committedJob j))).bump R.BCL_JOBS_DONE := ⟨_, rfl⟩
  have hdone : g.reg R.BCL_JOBS_DONE = BitVec.ofNat 32 (min ((c.reg R.BCL_JOBS_DONE).toNat + 1) 0xFFFFFFFF) := by
    rw [hg, Chip.bump, Chip.reg_addSat, if_pos rfl, ← hregs _ (by decide)]
    rfl
  have hjob : g.bcl.job a = some (c.committedJob j) := by rw [hg]; exact Chip.job_setJob f a _
  have hk : Keeps commitParts c g := by rw [hg]; exact (hkeep.setJob _ _ (by decide)).bump _ (by decide)
  rw [← hg]
  refine ⟨(onlyRegs_migrated g j _ (by decide)).trans hdone, fun hr => ?_, hk.trans (keeps_migrated g j)⟩
  rw [Chip.migrated_other hr, hjob]

/-! ### A job abandoned (R235, R236) -/

theorem bclJobAbandon_sound (hj : c.bcl.job a = some j) (hw : c.worn j.dst = false) : bclJobAbandon c a .worn = c := by
  unfold bclJobAbandon
  rw [hj]
  simp [hw]

theorem bclJobAbandon_acts (ha : c.alive = true) (hs : c.bclStops = false) (hj : c.bcl.job a = some j) {f : DestFailure}
    (hf : f = .worn → c.worn j.dst = true) : bclJobAbandon c a f = c.abandonJob a (f == .verify || c.worn j.dst) := by
  unfold bclJobAbandon
  rw [if_neg (by simp [ha, hs]), hj]
  exact if_neg fun h => by simp [hf h.1] at h

/-- The job that starts again (R236). -/
def Job.again (j : Job) : Job :=
  { zone := j.zone, reason := j.reason, ann := j.ann, maxRestart := j.maxRestart, restarts := j.restarts + 1, key := j.key }

/-- The chip once a job has failed: counted and noted, with its zone no longer cleaned, before the discards that wait
for it fail. -/
def Chip.jobFailed (c : Chip) (a : Act) (j : Job) : Chip :=
  let d := (((c.bump R.BCL_JOBS_FAILED).event 0x3402 [j.zone, j.reason, j.restarts]).raise 0x19 0).setJob a none
  d.setZone j.zone { d.zone j.zone with cleaning := false }

section
variable (hj : c.bcl.job a = some j) (hb : j.begun = true) (hw : c.mustWait .bcl = false) (suspect : Bool)
include hj hb hw

theorem Chip.abandonJob_restarts (hr : j.restarts < j.maxRestart) : c.abandonJob a suspect =
    (((c.releaseDst j suspect).setJob a (some j.again)).bump R.BCL_RESTARTS).raise 0x19 1 := by
  unfold Chip.abandonJob
  rw [hj]
  dsimp only
  rw [if_neg (by simp [hb]), if_neg (by simp [hw])]
  exact if_pos hr

theorem Chip.abandonJob_fails (hr : j.maxRestart ≤ j.restarts) : c.abandonJob a suspect =
    let d := ((c.releaseDst j suspect).jobFailed a j).discardFailed j.zone
    if j.reason = 2 then d.makeReadOnly j.zone else d := by
  unfold Chip.abandonJob
  rw [hj]
  dsimp only
  rw [if_neg (by simp [hb]), if_neg (by simp [hw])]
  exact if_neg (by omega)

end

theorem Keeps.releaseDst (h : Keeps commitParts c d) (j : Job) (suspect : Bool) :
    Keeps commitParts c (d.releaseDst j suspect) := by
  unfold Chip.releaseDst
  have h1 := h.commit .bcl [.bclRelease (jobFlags j.reason j.secure true suspect false) j.number j.dst] []
  exact .ite (fun _ => .ite (fun _ => (h1.raise _ _ (by decide) (by decide)).event _ _ (by decide) (by decide) (by decide))
    fun _ => h1) fun _ => h

theorem keeps_jobFailed (c : Chip) (a : Act) (j : Job) : Keeps [.regs, .evr, .pwr, .bcl, .loc] c (c.jobFailed a j) :=
  Keeps.withLoc (Keeps.setJob (((((Keeps.refl _ c).bump _ (by decide)).event _ _ (by decide) (by decide) (by decide))).raise _ _
    (by decide) (by decide)) _ _ (by decide)) _ (by decide)

/-- The jobs stand, and of the chip only the cleaning's part and the host's queues may differ. -/
def JobsStand (c d : Chip) : Prop := Keeps [.bcl, .nvq, .out] c d ∧ ∀ a, d.bcl.job a = c.bcl.job a

theorem JobsStand.finish (h : JobsStand c d) (r : Completion) : JobsStand c (d.finish r) :=
  ⟨h.1.finish r (by decide) (by decide),
    fun a => (congrArg (Bcl.job · a) ((posts_finish d r).keeps.bcl (by decide))).trans (h.2 a)⟩

/-- Discards that fail leave the jobs (R236). -/
theorem jobsStand_discardFailed (c : Chip) (zone : Nat) : JobsStand c (c.discardFailed zone) := by
  unfold Chip.discardFailed
  dsimp only
  refine List.foldlRecOn (motive := JobsStand c) _ _ ?_ fun e he x _ => ?_
  · exact ⟨(Keeps.refl _ c).withBcl _ (by decide), fun a => by cases a <;> rfl⟩
  · split
    · exact he.finish _
    · exact he

theorem keeps_abandonJob (c : Chip) (a : Act) (suspect : Bool) : Keeps commitParts c (c.abandonJob a suspect) := by
  unfold Chip.abandonJob
  split
  · exact .refl _ c
  · next j _ =>
    dsimp only
    have h1 := (Keeps.refl commitParts c).releaseDst j suspect
    have h2 := (h1.step (keeps_jobFailed _ a j) (by decide)).step (jobsStand_discardFailed _ j.zone).1 (by decide)
    refine .ite (fun _ => .refl _ c) fun _ => .ite (fun _ => (Keeps.refl _ c).setJob _ _ (by decide)) fun _ => .ite
      (fun _ => (((h1.setJob _ _ (by decide)).bump _ (by decide)).raise _ _ (by decide) (by decide))) fun _ => ?_
    exact .ite (fun _ => h2.trans (.ofOp ((OpFrame.refl _).makeReadOnly _))) fun _ => h2

/-- What a job's abandonment leaves (R235, R236). -/
theorem abandoned_clause (hj : c.bcl.job a = some j) (hb : j.begun = true) (hw : c.mustWait .bcl = false) (suspect : Bool) :
    let d := c.abandonJob a suspect
    (j.restarts < j.maxRestart → d.bcl.job a = some j.again ∧ d.bit (pIntStatus 0x19) 1 = true) ∧
    (j.maxRestart ≤ j.restarts → j.reason ≠ 2 → d.bcl.job a = none ∧ d.bit (pIntStatus 0x19) 0 = true) ∧
    Keeps commitParts c d := by
  intro d
  refine ⟨fun hr => ?_, fun hr h2 => ?_, keeps_abandonJob c a suspect⟩
  · have hd : d = _ := Chip.abandonJob_restarts hj hb hw suspect hr
    rw [hd]
    exact ⟨Chip.job_setJob _ _ _, Chip.bit_raise _ _ _ (by decide)⟩
  · have hd : d = _ := (Chip.abandonJob_fails hj hb hw suspect hr).trans (if_neg h2)
    have hjob : ((c.releaseDst j suspect).jobFailed a j).bcl.job a = none := Chip.job_setJob _ _ _
    have hbit : ((c.releaseDst j suspect).jobFailed a j).bit (pIntStatus 0x19) 0 = true := Chip.bit_raise _ _ _ (by decide)
    obtain ⟨hk, hjobs⟩ := jobsStand_discardFailed ((c.releaseDst j suspect).jobFailed a j) j.zone
    rw [hd]
    exact ⟨(hjobs a).trans hjob, (Chip.bit_of_reg _ (hk.reg (by decide) _) 0).trans hbit⟩

end Sys2Proof.Machine
end

section
/-! ## Bands released, stale sectors purged and secure discards ended (R23, R193, R221, R222, R243, R244, O42) -/

namespace Sys2Proof.Machine

open Sys2Proof

variable {c d e : Chip} {ps : List ChipPart} {a : Act} {k : Nat} {r : Release}

/-! ### Bands and releases that stand -/

/-- Every band's entry and the list of releases stand. -/
structure BandsAlike (c d : Chip) : Prop where
  band : ∀ k, d.band k = c.band k
  releases : d.bcl.releases = c.bcl.releases

namespace BandsAlike

theorem refl (c : Chip) : BandsAlike c c := ⟨fun _ => rfl, rfl⟩

theorem trans (h : BandsAlike c d) (g : BandsAlike d e) : BandsAlike c e :=
  ⟨fun k => (g.band k).trans (h.band k), g.releases.trans h.releases⟩

theorem repaged (c before : Chip) : BandsAlike c (c.repaged before) := by
  refine ⟨(SameTables.repaged c before).band, ?_⟩
  unfold Chip.repaged
  split
  · exact congrArg Bcl.releases ((Keeps.foldl (ps := [.loc]) _ _
      (fun _ _ _ h => .ite (fun _ => h.withLoc _ (by decide)) fun _ => h) (.refl _ c)).bcl (by decide))
  · rfl

theorem startCkpt (c : Chip) (n : Nat) : BandsAlike c (c.startCkpt n) := by
  refine ⟨(SameTables.startCkpt c n).band, ?_⟩
  unfold Chip.startCkpt
  dsimp only
  rw [((Keeps.refl recordParts _).appendRecs _ (by decide)).bcl (by decide)]
  rw [(keeps_drawnKey c _ _ _).bcl (by decide)]

theorem maybeCkpt (c : Chip) : BandsAlike c c.maybeCkpt := by
  unfold Chip.maybeCkpt
  split
  · exact startCkpt c 1
  · exact refl c

theorem setJob (c : Chip) (a : Act) (o : Option Job) : BandsAlike c (c.setJob a o) := by
  cases a <;> exact ⟨fun _ => rfl, rfl⟩

theorem afterRelease (c : Chip) (k : Nat) (overwrite : Bool) : BandsAlike c (c.afterRelease k overwrite) := by
  unfold Chip.afterRelease
  split
  · exact refl c
  · split
    · exact refl c
    · exact setJob c _ _

theorem bandGone (c : Chip) (k : Nat) : BandsAlike c (c.bandGone k) := ⟨fun _ => rfl, rfl⟩

theorem seekFinal (c : Chip) : BandsAlike c c.seekFinal := by
  have h : BandsAlike c { c with jnl := { c.jnl with ckptNext := true } } := ⟨fun _ => rfl, rfl⟩
  unfold Chip.seekFinal
  split
  · exact h.trans (maybeCkpt _)
  · exact refl c

theorem keyGone (c : Chip) (k : Nat) : BandsAlike c (c.keyGone k) :=
  have h : BandsAlike c (c.mapDiscards (fun d => d.destroyed k)) := ⟨fun _ => rfl, rfl⟩
  h.trans (seekFinal _)

/-- One cleaning record that need not wait leaves what its effect leaves (R19, R461). -/
theorem commit (hw : c.mustWait .bcl = false) (hc : c.jnl.closed = false) {r : Rec}
    (hr : (∃ f n k, r = .bclRelease f n k) ∨ ∃ f n k, r = .bclFree f n k) :
    BandsAlike ((c.appendRecs [r]).applyRec r) (c.commit .bcl [r] []) := by
  rw [Chip.commit_taken hw hc]
  have hn : c.commitNow ⟨.bcl, [r], []⟩ =
      (((c.appendRecs [r]).applyRec r).repaged (c.appendRecs [r])).maybeCkpt := by
    rcases hr with ⟨f, n, k, rfl⟩ | ⟨f, n, k, rfl⟩ <;> rfl
  rw [hn]
  exact (repaged _ _).trans (maybeCkpt _)

end BandsAlike

/-! ### The records of a release (R221, R222) -/

theorem b2n_le_one (b : Bool) : b2n b ≤ 1 := by cases b <;> decide

/-- FLAGS of a release that is no abandonment say no ABANDONED. -/
theorem jobFlags_abandoned (reason : Nat) (secure overwrite : Bool) :
    jobFlags reason secure false false overwrite / 32 % 2 = 0 := by
  have hs := b2n_le_one secure
  simp only [jobFlags, show b2n false = 0 from rfl]
  omega

/-- FLAGS of a release say whether its overwrite is due. -/
theorem jobFlags_overwrite (reason : Nat) (secure overwrite : Bool) :
    jobFlags reason secure false false overwrite / 128 % 2 = b2n overwrite := by
  have hs := b2n_le_one secure
  have ho := b2n_le_one overwrite
  simp only [jobFlags, show b2n false = 0 from rfl]
  omega

/-- A band whose key is destroyed has no salt (R221). -/
theorem Chip.salt_destroyKey {b : Band} (h : (c.destroyKey k).band k = some b) : b.salt = none := by
  unfold Chip.destroyKey at h
  split at h
  · next hs =>
    rw [h] at hs
    exact hs
  · have hb : (c.mapBand k (fun b => { b with salt := none })).band k = some b := h
    rw [Chip.band_mapBand, if_pos rfl] at hb
    obtain ⟨x, _, rfl⟩ := Option.map_eq_some_iff.1 hb
    rfl

/-- The release of a band from the list, the band FREE unless it is SUSPECT (R193). -/
def Chip.bandFreed (c : Chip) (k : Nat) : Chip :=
  Chip.mapBand { c with bcl := { c.bcl with releases := c.bcl.releases.filter (fun x => x.band != k) } } k
    (fun b => if b.state = .suspect then b else { b with state := .free })

theorem Chip.band_bandFreed (c : Chip) (k : Nat) : (c.bandFreed k).band k =
    (c.band k).map (fun b => if b.state = .suspect then b else { b with state := .free }) :=
  (Chip.band_mapBand _ _ _ _).trans (if_pos rfl)

theorem Chip.bandFreed_state {b : Band} (h : (c.bandFreed k).band k = some b) : b.state = .free ∨ b.state = .suspect := by
  rw [Chip.band_bandFreed] at h
  obtain ⟨x, _, rfl⟩ := Option.map_eq_some_iff.1 h
  split
  · exact .inr ‹_›
  · exact .inl rfl

theorem Chip.bandFreed_salt (hc : ∀ b, c.band k = some b → b.salt = none) {b : Band}
    (h : (c.bandFreed k).band k = some b) : b.salt = none := by
  rw [Chip.band_bandFreed] at h
  obtain ⟨x, hx, rfl⟩ := Option.map_eq_some_iff.1 h
  split
  · exact hc x hx
  · exact hc x hx

theorem Chip.bandFreed_releases : ∀ w ∈ (c.bandFreed k).bcl.releases, w.band ≠ k := fun _ hw =>
  bne_iff_ne.1 (List.mem_filter.1 hw).2

/-- A release once the overwrite of a band is begun. -/
def Release.overwriteOf (k : Nat) (x : Release) : Release := if x.band = k then { x with overwriting := true } else x

/-- The release of a band waits for its overwrite (R222). -/
def Chip.overwriteBegun (c : Chip) (k : Nat) : Chip :=
  { c with bcl := { c.bcl with releases := c.bcl.releases.map (Release.overwriteOf k) } }

theorem Chip.overwriteBegun_releases : ∀ w ∈ (c.overwriteBegun k).bcl.releases, w.band = k → w.overwriting = true := by
  intro w hw hk
  obtain ⟨x, _, rfl⟩ := List.mem_map.1 hw
  by_cases hx : x.band = k
  · simp [Release.overwriteOf, hx]
  · simp [Release.overwriteOf, hx] at hk

theorem Chip.apply_released (c : Chip) (reason n k : Nat) (secure : Bool) :
    c.applyRec (.bclRelease (jobFlags reason secure false false false) n k) = (c.destroyKey k).bandFreed k := by
  unfold Chip.applyRec
  dsimp only
  rw [if_neg (by rw [jobFlags_abandoned]; decide), if_neg (by rw [jobFlags_overwrite]; decide)]
  rfl

theorem Chip.apply_releasedOver (c : Chip) (reason n k : Nat) (secure : Bool) :
    c.applyRec (.bclRelease (jobFlags reason secure false false true) n k) = (c.destroyKey k).overwriteBegun k := by
  unfold Chip.applyRec
  dsimp only
  rw [if_neg (by rw [jobFlags_abandoned]; decide), if_pos (by rw [jobFlags_overwrite]; decide)]
  rfl

/-! ### BAND_RELEASE and the end of an overwrite (R23, R222) -/

/-- The record of a release, with OVERWRITE where one is due (R238). -/
def Chip.releaseRec (c : Chip) (r : Release) (k : Nat) : Rec :=
  .bclRelease (jobFlags r.reason (c.secureNow r) false false (c.overwriteDue r)) r.number k

/-- The record of an overwrite's end (R238). -/
def Chip.freeRec (c : Chip) (r : Release) (k : Nat) : Rec :=
  .bclFree (jobFlags r.reason (c.secureNow r) false false false) r.number k

/-- The chip once the record of a release is committed. -/
def Chip.bandReleased (c : Chip) (r : Release) (k : Nat) : Chip :=
  let d := ((c.commit .bcl [c.releaseRec r k] []).afterRelease k (c.overwriteDue r)).keyGone k
  if c.overwriteDue r then d else d.bandGone k

/-- The chip once the record of an overwrite's end is committed. -/
def Chip.overwriteEnded (c : Chip) (r : Release) (k : Nat) : Chip :=
  ((c.commit .bcl [c.freeRec r k] []).afterRelease k false).bandGone k

section
variable (ha : c.alive = true) (hs : c.bclStops = false) (hw : c.mustWait .bcl = false)
include ha hs hw

theorem bandRelease_waits (hr : c.bcl.releases.find? (fun r => r.band == k && !r.overwriting) = some r)
    (hb : c.bandRead k = true) : bandRelease c k = c := by
  unfold bandRelease
  rw [if_neg (by simp [ha, hs, hw]), hr]
  exact if_pos hb

theorem bandRelease_releases (hr : c.bcl.releases.find? (fun r => r.band == k && !r.overwriting) = some r)
    (hb : c.bandRead k = false) : bandRelease c k = c.bandReleased r k := by
  unfold bandRelease
  rw [if_neg (by simp [ha, hs, hw]), hr]
  exact if_neg (by simp [hb])

theorem bclOverwriteDone_ends (hr : c.bcl.releases.find? (fun r => r.band == k && r.overwriting) = some r) :
    bclOverwriteDone c k = c.overwriteEnded r k := by
  unfold bclOverwriteDone
  rw [if_neg (by simp [ha, hs, hw]), hr]
  rfl

end

theorem Keeps.afterRelease (h : Keeps ps c d) (k : Nat) (overwrite : Bool) (hb : .bcl ∈ ps) :
    Keeps ps c (d.afterRelease k overwrite) := by
  unfold Chip.afterRelease
  split
  · exact h
  · exact .ite (fun _ => h) fun _ => h.setJob _ _ hb

theorem Keeps.bandGone (h : Keeps ps c d) (k : Nat) (hb : .bcl ∈ ps) : Keeps ps c (d.bandGone k) := h.withBcl _ hb

theorem Keeps.keyGone (h : Keeps commitParts c d) (k : Nat) : Keeps commitParts c (d.keyGone k) :=
  have h1 : Keeps commitParts c (d.mapDiscards (fun x => x.destroyed k)) := h.withBcl _ (by decide)
  h1.trans (.ofOp (OpFrame.refl _).seekFinal)

/-- The band and the releases after a release are those of its record's effect. -/
theorem bandsAlike_bandReleased (hw : c.mustWait .bcl = false) (hc : c.jnl.closed = false) (r : Release) (k : Nat) :
    BandsAlike ((c.appendRecs [c.releaseRec r k]).applyRec (c.releaseRec r k)) (c.bandReleased r k) := by
  have h := ((BandsAlike.commit hw hc (.inl ⟨_, _, _, rfl⟩)).trans
    (.afterRelease (c.commit .bcl [c.releaseRec r k] []) k (c.overwriteDue r))).trans (.keyGone _ k)
  unfold Chip.bandReleased
  dsimp only
  split
  · exact h
  · exact h.trans (.bandGone _ k)

/-- What a release leaves (R221, R222). -/
theorem bandReleased_clause (hw : c.mustWait .bcl = false) (hc : c.jnl.closed = false) (r : Release) (k : Nat) :
    let d := c.bandReleased r k
    (∀ b, d.band k = some b → b.salt = none) ∧
    (c.overwriteDue r = false → (∀ b, d.band k = some b → b.state = .free ∨ b.state = .suspect) ∧
      (∀ w ∈ d.bcl.releases, w.band ≠ k)) ∧
    (c.overwriteDue r = true → ∀ w ∈ d.bcl.releases, w.band = k → w.overwriting = true) ∧
    Keeps commitParts c d := by
  have hk : Keeps commitParts c (c.bandReleased r k) := by
    have h := (((Keeps.refl commitParts c).commit .bcl [c.releaseRec r k] []).afterRelease k (c.overwriteDue r)
      (by decide)).keyGone k
    exact .ite (fun _ => h) fun _ => h.bandGone k (by decide)
  obtain ⟨hband, hrel⟩ := bandsAlike_bandReleased hw hc r k
  generalize c.appendRecs [c.releaseRec r k] = x at hband hrel
  intro d
  have hsalt {b : Band} : (x.destroyKey k).band k = some b → b.salt = none := Chip.salt_destroyKey
  rw [hband, hrel]
  unfold Chip.releaseRec
  cases ho : c.overwriteDue r with
  | false =>
    rw [Chip.apply_released]
    exact ⟨fun b => Chip.bandFreed_salt fun _ => hsalt, fun _ => ⟨fun b => Chip.bandFreed_state, Chip.bandFreed_releases⟩,
      fun h => (nomatch h), hk⟩
  | true =>
    rw [Chip.apply_releasedOver]
    exact ⟨fun b => hsalt, fun h => (nomatch h), fun _ => Chip.overwriteBegun_releases, hk⟩

/-- What the end of an overwrite leaves (R222). -/
theorem overwriteEnded_clause (hw : c.mustWait .bcl = false) (hc : c.jnl.closed = false) (r : Release) (k : Nat) :
    let d := c.overwriteEnded r k
    (∀ b, d.band k = some b → b.state = .free ∨ b.state = .suspect) ∧ (∀ w ∈ d.bcl.releases, w.band ≠ k) ∧
    Keeps commitParts c d := by
  have hk : Keeps commitParts c (c.overwriteEnded r k) :=
    (((Keeps.refl commitParts c).commit .bcl [c.freeRec r k] []).afterRelease k false (by decide)).bandGone k (by decide)
  have h : BandsAlike ((c.appendRecs [c.freeRec r k]).applyRec (c.freeRec r k)) (c.overwriteEnded r k) :=
    ((BandsAlike.commit hw hc (.inr ⟨_, _, _, rfl⟩)).trans (.afterRelease _ k false)).trans (.bandGone _ k)
  have hf : (c.appendRecs [c.freeRec r k]).applyRec (c.freeRec r k) = (c.appendRecs [c.freeRec r k]).bandFreed k := rfl
  intro d
  rw [h.band, h.releases, hf]
  exact ⟨fun b => Chip.bandFreed_state, Chip.bandFreed_releases, hk⟩

/-! ### The purge (R243, R244) -/

/-- A discard purged on an actuator wants no purge there. -/
theorem SecureDiscard.wantsPurge_purged (w : SecureDiscard) (a : Act) : (w.purged a).wantsPurge a = false := by
  cases a <;> simp [SecureDiscard.purged, SecureDiscard.wantsPurge]

/-- A discard purged where it wants a purge. -/
def SecureDiscard.afterPurge (w : SecureDiscard) (a : Act) : SecureDiscard := if w.wantsPurge a then w.purged a else w

theorem SecureDiscard.wantsPurge_afterPurge (w : SecureDiscard) (a : Act) : (w.afterPurge a).wantsPurge a = false := by
  unfold SecureDiscard.afterPurge
  split
  · exact w.wantsPurge_purged a
  · next h => exact Bool.eq_false_iff.2 h

/-- The stale sectors that are kept. -/
def Chip.keepStale (c : Chip) (p : Nat → Bool) : Chip := { c with loc := { c.loc with stale := c.loc.stale.filter p } }

section
variable (ha : c.alive = true) (hs : c.bclStops = false) (hr : c.retired a = false)
include ha hs hr

theorem stalePurge_discards (hw : ∃ w ∈ c.bcl.discards, w.wantsPurge a = true) : stalePurge c a =
    (c.keepStale (fun n => n / 2 ^ 27 != a.toNat)).mapDiscards (fun w => w.afterPurge a) := by
  unfold stalePurge
  rw [if_neg (by simp [ha, hs, hr])]
  exact if_pos (List.any_eq_true.2 hw)

theorem stalePurge_idle (hw : ∀ w ∈ c.bcl.discards, w.wantsPurge a = false)
    (hp : c.fld R.BCL_PACE 27 16 = 0 ∨ c.staleCount a < c.fld R.BCL_PACE 27 16) : stalePurge c a = c := by
  unfold stalePurge
  rw [if_neg (by simp [ha, hs, hr]), if_neg (by simpa using hw)]
  exact if_pos hp

theorem stalePurge_halves (hw : ∀ w ∈ c.bcl.discards, w.wantsPurge a = false) (h0 : 0 < c.fld R.BCL_PACE 27 16)
    (hp : c.fld R.BCL_PACE 27 16 ≤ c.staleCount a) : stalePurge c a = c.keepStale (fun n =>
      !((c.staleRing a).take (c.staleCount a - c.fld R.BCL_PACE 27 16 / 2)).contains n) := by
  unfold stalePurge
  rw [if_neg (by simp [ha, hs, hr]), if_neg (by simpa using hw)]
  exact if_neg (by omega)

end

/-- What a purge for a secure discard leaves (R244). -/
theorem purged_clause (c : Chip) (a : Act) (p : Nat → Bool) :
    let d := (c.keepStale p).mapDiscards (fun w => w.afterPurge a)
    d.loc.stale = c.loc.stale.filter p ∧ (∀ w ∈ d.bcl.discards, w.wantsPurge a = false) ∧ Keeps [.loc, .bcl] c d := by
  refine ⟨rfl, fun w hw => ?_, Keeps.withBcl ((Keeps.refl _ c).withLoc _ (by decide)) _ (by decide)⟩
  obtain ⟨x, _, rfl⟩ := List.mem_map.1 hw
  exact x.wantsPurge_afterPurge a

/-! ### Secure discards end (R244) -/

section
variable (ha : c.alive = true) (hs : c.bclStops = false)
include ha hs

theorem secureDiscardDone_none (h : c.bcl.discards.find? SecureDiscard.complete = none) : secureDiscardDone c = c := by
  unfold secureDiscardDone
  rw [if_neg (by simp [ha, hs]), h]

theorem secureDiscardDone_ends {w : SecureDiscard} {post : Completion}
    (h : c.bcl.discards.find? SecureDiscard.complete = some w) (hp : w.post = some post) : secureDiscardDone c =
      ({ c with bcl := { c.bcl with discards := c.bcl.discards.erase w } } : Chip).finish post := by
  unfold secureDiscardDone
  rw [if_neg (by simp [ha, hs]), h]
  dsimp only
  rw [hp]

end

/-! ### The statement -/

/-- Settles O42, command by command: each one's lemma names the chip it leaves under the conditions of its clause, and a
clause of its own says what that chip holds. -/
theorem cleaningJobsGoThroughTheirSteps : Obligations.CleaningJobsGoThroughTheirSteps := by
  refine ⟨fun s ha => completesThen_done rfl (bclJobGo_clause ha),
    fun s a band row hs hrow => completesThen_done (exec_bclStopped hs hrow) rfl,
    fun s a ha hs => ⟨?select, ?begin, ?copy, ?abandon⟩, fun s a band r ha hs => ⟨?release, ?purge, ?none, ?ends⟩⟩
  case select =>
    intro hc hj hq
    have hkeep (j : Job) : Keeps [.regs, .bcl, .pwr] s.chip (s.chip.queueJob j) :=
      (Keeps.refl _ _).queueJob j (by decide) (by decide) (by decide)
    refine ⟨fun i hh hv => ?_, fun i hh hl hv => ?_, fun hh hl => ?_⟩
    · exact completesThen_eq rfl (bclAutoSelect_hot hc hj hq hh hv) ⟨rfl, hkeep _⟩
    · exact completesThen_eq rfl (bclAutoSelect_low hc hj hq hh hl hv) ⟨rfl, hkeep _⟩
    · exact completesThen_eq rfl (bclAutoSelect_idle hc hj hq hh hl) rfl
  case begin =>
    intro j js hc hw hj hq
    refine ⟨fun hm => ?_, fun hm hu => ?_, fun hm hu => ⟨?_, fun k b hr hl hk hb => ?_⟩⟩
    · exact completesThen_eq rfl (bclJobBegin_drops hc hw hj hq hm)
        ⟨Chip.queue_setQueue _ _ _, (Keeps.refl _ _).setQueue _ _ (by decide)⟩
    · exact completesThen_eq rfl (bclJobBegin_unsettled hc hw hj hq hm hu) rfl
    · exact completesThen_eq rfl (bclJobBegin_begins hc hw hj hq hm hu)
        ⟨rfl, .ofOp (((OpFrame.refl _).setQueue _ _).beginJob _ _)⟩
    · exact Chip.beginJob_begins hr hl hk hb
  case copy =>
    intro j hj hl hn
    refine ⟨fun lost tmin tmax hst hp => ⟨fun hu => ?_, fun hu => ?_⟩, fun hst hu => ⟨fun hw => ?_, fun hw => ?_⟩,
      fun hst hu => ?_, fun hst => ?_⟩
    · exact completesThen_eq rfl (bclCopyDone_waits ha hs hl hj hn hst hp tmin tmax hu) rfl
    · exact completesThen_eq rfl (bclCopyDone_ends ha hs hl hj hn hst hp tmin tmax hu) (copied_clause _ _ _ _ _)
    · exact completesThen_eq rfl (bclVerifyDone_waits ha hs hl hj hn hst hu hw)
        ⟨Chip.job_setJob _ _ _, (Keeps.refl _ _).setJob _ _ (by decide)⟩
    · exact completesThen_eq rfl (bclVerifyDone_commits ha hs hl hj hn hst hu hw) (jobCommitted_clause _ _ _)
    · exact completesThen_eq rfl (bclVerifyDone_partial ha hs hl hj hn hst hu) rfl
    · exact completesThen_eq rfl (bclVerifyDone_failed ha hs hl hj hn hst) rfl
  case abandon =>
    intro j hj
    refine ⟨fun hw => completesThen_eq rfl (bclJobAbandon_sound hj hw) rfl, fun hw hb f hf => ?_⟩
    obtain ⟨hagain, hfailed, hkeep⟩ := abandoned_clause hj hb hw (f == .verify || s.chip.worn j.dst)
    exact completesThen_eq rfl (bclJobAbandon_acts ha hs hj hf)
      ⟨rfl, hagain, fun hr h2 _ => hfailed hr h2, hkeep⟩
  case release =>
    intro hw hc
    refine ⟨fun hr => ⟨fun hb => ?_, fun hb => ?_⟩, fun hr => ?_⟩
    · exact completesThen_eq rfl (bandRelease_waits ha hs hw hr hb) rfl
    · exact completesThen_eq rfl (bandRelease_releases ha hs hw hr hb) (bandReleased_clause hw hc r _)
    · exact completesThen_eq rfl (bclOverwriteDone_ends ha hs hw hr) (overwriteEnded_clause hw hc r _)
  case purge =>
    intro hr
    refine ⟨fun hw => ?_, fun hw => ⟨fun hp => ?_, fun h0 hp => ?_⟩⟩
    · exact completesThen_eq rfl (stalePurge_discards ha hs hr hw) (purged_clause _ _ _)
    · exact completesThen_eq rfl (stalePurge_idle ha hs hr hw hp) rfl
    · exact completesThen_eq rfl (stalePurge_halves ha hs hr hw h0 hp) ⟨rfl, (Keeps.refl _ _).withLoc _ (by decide)⟩
  case none => exact fun h => completesThen_eq rfl (secureDiscardDone_none ha hs h) rfl
  case ends =>
    exact fun w post hw hp => completesThen_eq rfl (secureDiscardDone_ends ha hs hw hp)
      ⟨rfl, Keeps.finish ((Keeps.refl _ _).withBcl _ (by decide)) _ (by decide) (by decide)⟩

end Sys2Proof.Machine
end
